-- ==== Sys2Proof/Word.lean ====
section
/-!
DEFINITION. Words and the closed sets of names that instructions and events carry as operands.
-/

namespace Sys2Proof

/-- A 64-bit register value or virtual address (R98, R37). -/
abbrev W64 := BitVec 64

/-- An instruction word (R2). -/
abbrev W32 := BitVec 32

/-- One byte of memory (R263). -/
abbrev Byte := BitVec 8

/-- The kinds of access a translation serves (R47): a load needs R, a store or atomic needs W,
a fetch needs XP. -/
inductive Access where
  | load
  | store
  | fetch
  deriving DecidableEq, Repr

/-- The agents that reach memory-mapped registers (R5): the host, the hypervisor core, the root
core, and the debug access port (R433). -/
inductive Agent where
  | host
  | hc
  | rc
  | debug
  deriving DecidableEq, Repr

/-- What the key and counter-tree unit found when it checked a fetched line (R29): nothing wrong, an
error that the channel's ECC corrected (R22), a data line whose MAC fails, or a counter line (level 0)
or tree node (its level) whose MAC fails. -/
inductive MacOutcome where
  | good
  | corrected
  | dataLine
  | counterNode (level : Nat)
  deriving DecidableEq, Repr

/-- An access of the twin package (R419): a load of n bytes, a store, or an atomic with its operation
(R142). -/
inductive Inbound where
  | load (n : Nat)
  | store
  | atomic (op : BitVec 4)
  deriving DecidableEq, Repr

/-- The destination of a remote train (R176). -/
inductive Dest where
  | tile (t : Nat)
  | slice (n : Nat)
  | coherence (die : Nat)
  | twin
  deriving DecidableEq, Repr

/-- A word that an uncorrectable error hit (R75): a 128-byte L2 line by its physical address, a
scratchpad word by its physical address, a caldera word by VC and offset, an accumulator word by
VC, tile and offset. -/
inductive ErrPlace where
  | l2Line (line : Nat)
  | scratchWord (loc : Nat)
  | calderaWord (vc : Nat) (off : Nat)
  | tileWord (vc : Nat) (tile : Nat) (off : Nat)
  deriving DecidableEq, Repr

end Sys2Proof
end

