-- ==== Sys2Proof/Syntax.lean ====
section
/-!
DEFINITION. The instructions and events of spec/opcode_table.json, one constructor for each row.
The first 279 are instruction words. Their operands are the fields of the word, each at the width
the table gives it (R137 to R143); `cont` is the continue bit C of R137. The other 97 rows have
no word. They are events: what an engine, the hub, the host or another agent does. Their operands
are the inputs of the event.
-/

namespace Sys2Proof

/-- One row of the opcode table. -/
inductive Instr where
  /-- ADD (R300): Writes the 64-bit sum of s[a] and s[b] to s[d]. -/
  | add (d : BitVec 5) (a : BitVec 5) (b : BitVec 5)
  /-- SUB (R300): Writes s[a] minus s[b], bits 63:0, to s[d]. -/
  | sub (d : BitVec 5) (a : BitVec 5) (b : BitVec 5)
  /-- AND (R300): Writes the bitwise AND of s[a] and s[b] to s[d]. -/
  | and (d : BitVec 5) (a : BitVec 5) (b : BitVec 5)
  /-- OR (R300): Writes the bitwise OR of s[a] and s[b] to s[d]. -/
  | or (d : BitVec 5) (a : BitVec 5) (b : BitVec 5)
  /-- XOR (R300): Writes the bitwise XOR of s[a] and s[b] to s[d]. -/
  | xor (d : BitVec 5) (a : BitVec 5) (b : BitVec 5)
  /-- ANDN (R300): Writes s[a] AND NOT s[b] to s[d]. -/
  | andn (d : BitVec 5) (a : BitVec 5) (b : BitVec 5)
  /-- SLL (R300): Shifts s[a] left by s[b][5:0] into s[d]. -/
  | sll (d : BitVec 5) (a : BitVec 5) (b : BitVec 5)
  /-- SRL (R300): Shifts s[a] right logically by s[b][5:0] into s[d]. -/
  | srl (d : BitVec 5) (a : BitVec 5) (b : BitVec 5)
  /-- SRA (R300): Shifts s[a] right arithmetically by s[b][5:0] into s[d]. -/
  | sra (d : BitVec 5) (a : BitVec 5) (b : BitVec 5)
  /-- SLT (R300): Writes 1 to s[d] if s[a] is less than s[b] as signed values, else 0. -/
  | slt (d : BitVec 5) (a : BitVec 5) (b : BitVec 5)
  /-- SLTN (R300): Writes 1 to s[d] if s[a] is less than s[b] as unsigned values, else 0. -/
  | sltn (d : BitVec 5) (a : BitVec 5) (b : BitVec 5)
  /-- MUL (R300): Writes the low 64 bits of s[a] times s[b] to s[d]. -/
  | mul (d : BitVec 5) (a : BitVec 5) (b : BitVec 5)
  /-- MULH (R300): Writes the high 64 bits of the signed product of s[a] and s[b] to s[d]. -/
  | mulh (d : BitVec 5) (a : BitVec 5) (b : BitVec 5)
  /-- DIV (R301): Signed division truncating toward zero, which never traps. -/
  | div (d : BitVec 5) (a : BitVec 5) (b : BitVec 5)
  /-- DIVN (R301): Unsigned division, which never traps. -/
  | divn (d : BitVec 5) (a : BitVec 5) (b : BitVec 5)
  /-- REM (R301): Signed remainder, carrying the sign of the dividend. -/
  | rem (d : BitVec 5) (a : BitVec 5) (b : BitVec 5)
  /-- REMN (R301): Unsigned remainder. -/
  | remn (d : BitVec 5) (a : BitVec 5) (b : BitVec 5)
  /-- CLZ (R300): Counts the leading zero bits of s[a]. -/
  | clz (d : BitVec 5) (a : BitVec 5)
  /-- POPC (R300): Counts the one bits of s[a]. -/
  | popc (d : BitVec 5) (a : BitVec 5)
  /-- BREV (R300): Reverses the 64 bits of s[a]. -/
  | brev (d : BitVec 5) (a : BitVec 5)
  /-- ADDI (R302): Adds the sign-extended imm12 to s[a]. -/
  | addi (d : BitVec 5) (a : BitVec 5) (i : BitVec 12)
  /-- ANDI (R302): ANDs s[a] with the sign-extended imm12. -/
  | andi (d : BitVec 5) (a : BitVec 5) (i : BitVec 12)
  /-- ORI (R302): ORs s[a] with the sign-extended imm12. -/
  | ori (d : BitVec 5) (a : BitVec 5) (i : BitVec 12)
  /-- XORI (R302): XORs s[a] with the sign-extended imm12. -/
  | xori (d : BitVec 5) (a : BitVec 5) (i : BitVec 12)
  /-- SLLI (R302): Shifts s[a] left by the immediate amount. -/
  | slli (d : BitVec 5) (a : BitVec 5) (n : BitVec 6)
  /-- SRLI (R302): Shifts s[a] right logically by the immediate amount. -/
  | srli (d : BitVec 5) (a : BitVec 5) (n : BitVec 6)
  /-- SRAI (R302): Shifts s[a] right arithmetically by the immediate amount. -/
  | srai (d : BitVec 5) (a : BitVec 5) (n : BitVec 6)
  /-- SLTI (R302): Writes 1 if s[a] is less than the signed imm12, else 0. -/
  | slti (d : BitVec 5) (a : BitVec 5) (i : BitVec 12)
  /-- LUI (R303): Writes sext(imm20) times 4,096 to s[d]. -/
  | lui (d : BitVec 5) (i : BitVec 20)
  /-- ADDPC (R303): Writes the convoy address plus sext(imm20) times 4,096 to s[d]. -/
  | addpc (d : BitVec 5) (i : BitVec 20)
  /-- LB (R304): Loads a sign-extended byte. -/
  | lb (d : BitVec 5) (a : BitVec 5) (o : BitVec 12)
  /-- LH (R304): Loads a sign-extended halfword. -/
  | lh (d : BitVec 5) (a : BitVec 5) (o : BitVec 12)
  /-- LW (R304): Loads a sign-extended word. -/
  | lw (d : BitVec 5) (a : BitVec 5) (o : BitVec 12)
  /-- LD (R304): Loads a doubleword. -/
  | ld (d : BitVec 5) (a : BitVec 5) (o : BitVec 12)
  /-- LBN (R304): Loads a zero-extended byte. -/
  | lbn (d : BitVec 5) (a : BitVec 5) (o : BitVec 12)
  /-- LHN (R304): Loads a zero-extended halfword. -/
  | lhn (d : BitVec 5) (a : BitVec 5) (o : BitVec 12)
  /-- LWN (R304): Loads a zero-extended word. -/
  | lwn (d : BitVec 5) (a : BitVec 5) (o : BitVec 12)
  /-- LDA (R304): Loads a doubleword as an acquire. -/
  | lda (d : BitVec 5) (a : BitVec 5) (o : BitVec 12)
  /-- SB (R304): Stores a byte through the store buffer. -/
  | sb (d : BitVec 5) (a : BitVec 5) (o : BitVec 12)
  /-- SH (R304): Stores a halfword. -/
  | sh (d : BitVec 5) (a : BitVec 5) (o : BitVec 12)
  /-- SW (R304): Stores a word. -/
  | sw (d : BitVec 5) (a : BitVec 5) (o : BitVec 12)
  /-- SD (R304): Stores a doubleword. -/
  | sd (d : BitVec 5) (a : BitVec 5) (o : BitVec 12)
  /-- SDR (R304): Stores a doubleword as a release. -/
  | sdr (d : BitVec 5) (a : BitVec 5) (o : BitVec 12)
  /-- AMO (R306): Performs an atomic read-modify-write at the home of the location and returns the old value. -/
  | amo (d : BitVec 5) (a : BitVec 5) (b : BitVec 5) (r : BitVec 2) (w : BitVec 1) (o : BitVec 4)
  /-- BEQ (R308): Branches if s[a] equals s[b]. -/
  | beq (a : BitVec 5) (b : BitVec 5) (o : BitVec 12)
  /-- BNE (R308): Branches if s[a] differs from s[b]. -/
  | bne (a : BitVec 5) (b : BitVec 5) (o : BitVec 12)
  /-- BLT (R308): Branches if s[a] is less than s[b], signed. -/
  | blt (a : BitVec 5) (b : BitVec 5) (o : BitVec 12)
  /-- BGE (R308): Branches if s[a] is at least s[b], signed. -/
  | bge (a : BitVec 5) (b : BitVec 5) (o : BitVec 12)
  /-- BLTN (R308): Branches if s[a] is less than s[b], unsigned. -/
  | bltn (a : BitVec 5) (b : BitVec 5) (o : BitVec 12)
  /-- BGEN (R308): Branches if s[a] is at least s[b], unsigned. -/
  | bgen (a : BitVec 5) (b : BitVec 5) (o : BitVec 12)
  /-- JAL (R309): Writes the link address and jumps PC-relative. -/
  | jal (d : BitVec 5) (o : BitVec 20)
  /-- JALR (R309): Writes the link address and jumps to s[a] plus imm12. -/
  | jalr (d : BitVec 5) (a : BitVec 5) (i : BitVec 12)
  /-- LNEST (R311): Opens a loop nest or defines its next outer level. -/
  | lnest (d : BitVec 5) (a : BitVec 5) (b : BitVec 5)
  /-- LBODY (R311): Marks the next n convoys as the body of the nest and arms it. -/
  | lbody (n : BitVec 5)
  /-- LEXIT (R312): Closes the nest when s[a] equals s[b]. -/
  | lexit (a : BitVec 5) (b : BitVec 5)
  /-- CSRR (R314): Reads a CSR. -/
  | csrr (d : BitVec 5) (csr : BitVec 12)
  /-- CSRW (R314): Writes a CSR and returns its old value. -/
  | csrw (d : BitVec 5) (a : BitVec 5) (csr : BitVec 12)
  /-- CSRS (R314): Sets the bits of s[a] in a CSR. -/
  | csrs (d : BitVec 5) (a : BitVec 5) (csr : BitVec 12)
  /-- CSRC (R314): Clears the bits of s[a] in a CSR. -/
  | csrc (d : BitVec 5) (a : BitVec 5) (csr : BitVec 12)
  /-- SVC (R317): Traps SVC to S mode on the SC after it completes. -/
  | svc (i : BitVec 15)
  /-- ERET (R318): Continues at epc at the privilege in ecause.LVL, migrating back from the SC if needed. -/
  | eret
  /-- NAP (R319): Consumes the slot's wake count, or waits until it becomes non-zero or YREQ is set. -/
  | nap (d : BitVec 5)
  /-- WAKE (R319): Adds a wake to the named thread slot or slots, as a release. -/
  | wake (d : BitVec 5) (a : BitVec 5)
  /-- YIELD (R320): In U mode with YREQ set, clears it and traps YIELDREQ. -/
  | yield
  /-- HALT (R321): Gives up the thread slot, or ends the current SC handler run. -/
  | halt
  /-- BKPT (R317): Traps BKPT with epc naming itself. -/
  | bkpt (i : BitVec 15)
  /-- IFENCE (R322): Drains stores, invalidates the VC's instruction cache and discards buffered words. -/
  | ifence
  /-- RAISE (R323): Forwards the trap being handled to the S-mode entry of the cause in s[a]. -/
  | raise (a : BitVec 5) (b : BitVec 5)
  /-- GJOIN (R332): Joins a group, or creates it if it is free. -/
  | gjoin (d : BitVec 5) (a : BitVec 5)
  /-- GLEAVE (R332): Leaves a group, withdrawing any arrival and rechecking completion. -/
  | gleave (d : BitVec 5) (a : BitVec 5)
  /-- BARW (R334): Releases, arrives and waits for the phase, once per phase. -/
  | barw (d : BitVec 5) (a : BitVec 5)
  /-- BARARV (R333): Releases and then arrives in the open phase. -/
  | bararv (d : BitVec 5) (a : BitVec 5)
  /-- BARRLX (R333): Arrives in the open phase with no ordering. -/
  | barrlx (d : BitVec 5) (a : BitVec 5)
  /-- BARWAIT (R334): Waits until the group passes phase Q, then acquires. -/
  | barwait (d : BitVec 5) (a : BitVec 5) (b : BitVec 5)
  /-- PHEND (R274): Drains stores, waits for train acknowledgements, releases and arrives. -/
  | phend (d : BitVec 5) (a : BitVec 5)
  /-- GSIZE (R335): Returns a group's member count, arrivals and phase. -/
  | gsize (d : BitVec 5) (a : BitVec 5)
  /-- TID (R335): Returns the value of the tid CSR. -/
  | tid (d : BitVec 5)
  /-- SPAWN (R338): Reads a job descriptor, checks it and creates a child job, or refuses it. -/
  | spawn (d : BitVec 5) (a : BitVec 5) (b : BitVec 5)
  /-- JDONE (R339): Drains, releases, writes the completion word, finishes the node and frees the slot. -/
  | jdone (a : BitVec 5)
  /-- JSTAT (R340): Returns the state, class and result of a job. -/
  | jstat (d : BitVec 5) (a : BitVec 5)
  /-- JDEADL (R341): Reads or changes the deadline of the job or of one of its descendants. -/
  | jdeadl (d : BitVec 5) (a : BitVec 5) (b : BitVec 5)
  /-- PTPNOW (R342): Returns the PTP time as TAI nanoseconds. -/
  | ptpnow (d : BitVec 5)
  /-- CHBIND (R343): Binds the thread to a chain slot, or unbinds it. -/
  | chbind (d : BitVec 5) (a : BitVec 5) (b : BitVec 5)
  /-- CHPUB (R344): Releases, then raises or resets a chain slot's mark and final flag. -/
  | chpub (d : BitVec 5) (a : BitVec 5) (b : BitVec 5)
  /-- CHREAD (R344): Reads a chain slot's mark or final flag as an acquire. -/
  | chread (d : BitVec 5) (a : BitVec 5)
  /-- FENCE (R270): Drains stores, waits for earlier loads and non-local stores, and waits for trains in scope. -/
  | fence (s : BitVec 5)
  /-- FENCEE (R347): Drains stores and waits for overlapping engine locks to be released. -/
  | fencee (a : BitVec 5) (b : BitVec 5)
  /-- QDRAIN (R348): Waits until the named decoupling queues are empty. -/
  | qdrain (m : BitVec 4)
  /-- WINPUB (R349): Publishes the pending copies of a sharing window and releases. -/
  | winpub (a : BitVec 5)
  /-- VCFG (R351): Writes vtype after checking its legality. -/
  | vcfg (d : BitVec 5) (a : BitVec 5)
  /-- SETVL (R287): Composes the grant from the yield, lane target and chain limit, applies the held set and writes vl. -/
  | setvl (d : BitVec 5) (a : BitVec 5)
  /-- VKEEP (R353): Adds registers to the keep set. -/
  | vkeep (d : BitVec 5) (a : BitVec 5)
  /-- VDEAD (R353): Removes registers from the keep set and makes their contents not promised. -/
  | vdead (d : BitVec 5) (a : BitVec 5)
  /-- VLMAXR (R354): Returns VLMAX for a vtype and a lane-group count, changing nothing. -/
  | vlmaxr (d : BitVec 5) (a : BitVec 5) (b : BitVec 5)
  /-- VINDEX (R355): Writes start plus e times step to each active element. -/
  | vindex (cont : Bool) (d : BitVec 5) (p : BitVec 5) (s : BitVec 8) (t : BitVec 7)
  /-- PAND (R357): Predicate AND. -/
  | pand (cont : Bool) (d : BitVec 5) (a : BitVec 5) (b : BitVec 5) (p : BitVec 5)
  /-- POR (R357): Predicate OR. -/
  | por (cont : Bool) (d : BitVec 5) (a : BitVec 5) (b : BitVec 5) (p : BitVec 5)
  /-- PXOR (R357): Predicate XOR. -/
  | pxor (cont : Bool) (d : BitVec 5) (a : BitVec 5) (b : BitVec 5) (p : BitVec 5)
  /-- PANDN (R357): Predicate AND NOT. -/
  | pandn (cont : Bool) (d : BitVec 5) (a : BitVec 5) (b : BitVec 5) (p : BitVec 5)
  /-- PNOT (R357): Predicate NOT. -/
  | pnot (cont : Bool) (d : BitVec 5) (a : BitVec 5) (p : BitVec 5)
  /-- PSETA (R357): Sets the bit of every active element. -/
  | pseta (cont : Bool) (d : BitVec 5) (p : BitVec 5)
  /-- PFIRST (R357): Keeps only the lowest active set bit. -/
  | pfirst (cont : Bool) (d : BitVec 5) (a : BitVec 5) (p : BitVec 5)
  /-- PPOPC (R357): Counts the active set bits into a scalar through XQ. -/
  | ppopc (cont : Bool) (d : BitVec 5) (a : BitVec 5) (p : BitVec 5)
  /-- PSCAN (R357): Inclusive OR scan over the active elements. -/
  | pscan (cont : Bool) (d : BitVec 5) (a : BitVec 5) (p : BitVec 5)
  /-- PMOVL (R358): Copies a whole predicate between any banks. -/
  | pmovl (cont : Bool) (d : BitVec 5) (a : BitVec 5) (k : BitVec 4)
  /-- PLD (R359): Loads a whole predicate of 512 bytes. -/
  | pld (cont : Bool) (d : BitVec 5) (a : BitVec 5) (k : BitVec 2)
  /-- PST (R359): Stores a whole predicate of 512 bytes. -/
  | pst (cont : Bool) (d : BitVec 5) (a : BitVec 5) (k : BitVec 2)
  /-- VLD (R168): Unit-stride vector load. -/
  | vld (cont : Bool) (d : BitVec 5) (a : BitVec 5) (p : BitVec 5)
  /-- VLDFF (R169): Fault-only-first load that trims vl at the first faulting element. -/
  | vldff (d : BitVec 5) (a : BitVec 5) (p : BitVec 5)
  /-- VLDS (R168): Strided vector load. -/
  | vlds (cont : Bool) (d : BitVec 5) (a : BitVec 5) (b : BitVec 5) (p : BitVec 5)
  /-- VLDX (R168): Indexed vector gather. -/
  | vldx (cont : Bool) (d : BitVec 5) (a : BitVec 5) (b : BitVec 5) (p : BitVec 5)
  /-- VST (R170): Unit-stride vector store through the store buffer. -/
  | vst (cont : Bool) (d : BitVec 5) (a : BitVec 5) (p : BitVec 5)
  /-- VSTS (R170): Strided vector store. -/
  | vsts (cont : Bool) (d : BitVec 5) (a : BitVec 5) (b : BitVec 5) (p : BitVec 5)
  /-- VSTX (R170): Indexed scatter, visible in beat order. -/
  | vstx (cont : Bool) (d : BitVec 5) (a : BitVec 5) (b : BitVec 5) (p : BitVec 5)
  /-- VSTXO (R170): Indexed scatter, visible in element order. -/
  | vstxo (cont : Bool) (d : BitVec 5) (a : BitVec 5) (b : BitVec 5) (p : BitVec 5)
  /-- VLDBP (R174): Loads bit-plane i8 data into containers. -/
  | vldbp (cont : Bool) (d : BitVec 5) (a : BitVec 5) (b : BitVec 5) (p : BitVec 5)
  /-- VSTBP (R175): Stores elements as bit-plane rows. -/
  | vstbp (cont : Bool) (d : BitVec 5) (a : BitVec 5) (b : BitVec 5) (p : BitVec 5)
  /-- VSCATR (R176): Remote scatter sending trains to the owning destinations. -/
  | vscatr (d : BitVec 5) (a : BitVec 5) (b : BitVec 5) (p : BitVec 5)
  /-- VPUTR (R176): Remote contiguous put by trains. -/
  | vputr (d : BitVec 5) (a : BitVec 5) (p : BitVec 5)
  /-- VAPPEND (R181): Reserves, writes and publishes selected indices into an append queue, possibly spawning a job. -/
  | vappend (a : BitVec 5) (b : BitVec 5) (p : BitVec 5)
  /-- VQPOP (R182): Pops published entries of an append queue into a register and sets vl. -/
  | vqpop (d : BitVec 5) (a : BitVec 5)
  /-- VADD (R187): Element-wise wrapping add. -/
  | vadd (cont : Bool) (d : BitVec 5) (a : BitVec 5) (b : BitVec 5) (p : BitVec 5)
  /-- VADD_VS (R187): Wrapping add of a scalar. -/
  | vaddVs (cont : Bool) (d : BitVec 5) (a : BitVec 5) (s : BitVec 5) (p : BitVec 5)
  /-- VSUB (R187): Element-wise subtract. -/
  | vsub (cont : Bool) (d : BitVec 5) (a : BitVec 5) (b : BitVec 5) (p : BitVec 5)
  /-- VSUB_VS (R187): Subtract of a scalar. -/
  | vsubVs (cont : Bool) (d : BitVec 5) (a : BitVec 5) (s : BitVec 5) (p : BitVec 5)
  /-- VRSUB (R187): Reverse subtract. -/
  | vrsub (cont : Bool) (d : BitVec 5) (a : BitVec 5) (b : BitVec 5) (p : BitVec 5)
  /-- VRSUB_VS (R187): Scalar minus element. -/
  | vrsubVs (cont : Bool) (d : BitVec 5) (a : BitVec 5) (s : BitVec 5) (p : BitVec 5)
  /-- VMUL (R187): Low half of the product. -/
  | vmul (cont : Bool) (d : BitVec 5) (a : BitVec 5) (b : BitVec 5) (p : BitVec 5)
  /-- VMUL_VS (R187): Low half of the product with a scalar. -/
  | vmulVs (cont : Bool) (d : BitVec 5) (a : BitVec 5) (s : BitVec 5) (p : BitVec 5)
  /-- VMULH (R187): High half of the signed product. -/
  | vmulh (cont : Bool) (d : BitVec 5) (a : BitVec 5) (b : BitVec 5) (p : BitVec 5)
  /-- VMULH_VS (R187): High half of the signed product with a scalar. -/
  | vmulhVs (cont : Bool) (d : BitVec 5) (a : BitVec 5) (s : BitVec 5) (p : BitVec 5)
  /-- VMULHN (R187): High half of the unsigned product. -/
  | vmulhn (cont : Bool) (d : BitVec 5) (a : BitVec 5) (b : BitVec 5) (p : BitVec 5)
  /-- VMULHN_VS (R187): High half of the unsigned product with a scalar. -/
  | vmulhnVs (cont : Bool) (d : BitVec 5) (a : BitVec 5) (s : BitVec 5) (p : BitVec 5)
  /-- VMIN (R187): Signed minimum. -/
  | vmin (cont : Bool) (d : BitVec 5) (a : BitVec 5) (b : BitVec 5) (p : BitVec 5)
  /-- VMIN_VS (R187): Signed minimum with a scalar. -/
  | vminVs (cont : Bool) (d : BitVec 5) (a : BitVec 5) (s : BitVec 5) (p : BitVec 5)
  /-- VMAX (R187): Signed maximum. -/
  | vmax (cont : Bool) (d : BitVec 5) (a : BitVec 5) (b : BitVec 5) (p : BitVec 5)
  /-- VMAX_VS (R187): Signed maximum with a scalar. -/
  | vmaxVs (cont : Bool) (d : BitVec 5) (a : BitVec 5) (s : BitVec 5) (p : BitVec 5)
  /-- VMINN (R187): Unsigned minimum. -/
  | vminn (cont : Bool) (d : BitVec 5) (a : BitVec 5) (b : BitVec 5) (p : BitVec 5)
  /-- VMINN_VS (R187): Unsigned minimum with a scalar. -/
  | vminnVs (cont : Bool) (d : BitVec 5) (a : BitVec 5) (s : BitVec 5) (p : BitVec 5)
  /-- VMAXN (R187): Unsigned maximum. -/
  | vmaxn (cont : Bool) (d : BitVec 5) (a : BitVec 5) (b : BitVec 5) (p : BitVec 5)
  /-- VMAXN_VS (R187): Unsigned maximum with a scalar. -/
  | vmaxnVs (cont : Bool) (d : BitVec 5) (a : BitVec 5) (s : BitVec 5) (p : BitVec 5)
  /-- VAND (R187): Bitwise AND. -/
  | vand (cont : Bool) (d : BitVec 5) (a : BitVec 5) (b : BitVec 5) (p : BitVec 5)
  /-- VAND_VS (R187): Bitwise AND with a scalar. -/
  | vandVs (cont : Bool) (d : BitVec 5) (a : BitVec 5) (s : BitVec 5) (p : BitVec 5)
  /-- VOR (R187): Bitwise OR. -/
  | vor (cont : Bool) (d : BitVec 5) (a : BitVec 5) (b : BitVec 5) (p : BitVec 5)
  /-- VOR_VS (R187): Bitwise OR with a scalar. -/
  | vorVs (cont : Bool) (d : BitVec 5) (a : BitVec 5) (s : BitVec 5) (p : BitVec 5)
  /-- VXOR (R187): Bitwise XOR. -/
  | vxor (cont : Bool) (d : BitVec 5) (a : BitVec 5) (b : BitVec 5) (p : BitVec 5)
  /-- VXOR_VS (R187): Bitwise XOR with a scalar. -/
  | vxorVs (cont : Bool) (d : BitVec 5) (a : BitVec 5) (s : BitVec 5) (p : BitVec 5)
  /-- VSLL (R187): Shift left by y mod SEW. -/
  | vsll (cont : Bool) (d : BitVec 5) (a : BitVec 5) (b : BitVec 5) (p : BitVec 5)
  /-- VSLL_VS (R187): Shift left by a scalar amount. -/
  | vsllVs (cont : Bool) (d : BitVec 5) (a : BitVec 5) (s : BitVec 5) (p : BitVec 5)
  /-- VSRL (R187): Logical shift right. -/
  | vsrl (cont : Bool) (d : BitVec 5) (a : BitVec 5) (b : BitVec 5) (p : BitVec 5)
  /-- VSRL_VS (R187): Logical shift right by a scalar amount. -/
  | vsrlVs (cont : Bool) (d : BitVec 5) (a : BitVec 5) (s : BitVec 5) (p : BitVec 5)
  /-- VSRA (R187): Arithmetic shift right. -/
  | vsra (cont : Bool) (d : BitVec 5) (a : BitVec 5) (b : BitVec 5) (p : BitVec 5)
  /-- VSRA_VS (R187): Arithmetic shift right by a scalar amount. -/
  | vsraVs (cont : Bool) (d : BitVec 5) (a : BitVec 5) (s : BitVec 5) (p : BitVec 5)
  /-- VCMP (R189): Compares elements under a condition into a predicate and clears bits at and above vl. -/
  | vcmp (cont : Bool) (d : BitVec 5) (a : BitVec 5) (b : BitVec 5) (p : BitVec 5) (cond : BitVec 4)
  /-- VCMP_VS (R189): Compares elements with a scalar into a predicate. -/
  | vcmpVs (cont : Bool) (d : BitVec 5) (a : BitVec 5) (s : BitVec 5) (p : BitVec 5) (cond : BitVec 4)
  /-- VQADD (R190): Fixed-point add fitted under SAT. -/
  | vqadd (cont : Bool) (d : BitVec 5) (a : BitVec 5) (b : BitVec 5) (p : BitVec 5)
  /-- VQADD_VS (R190): Fixed-point add of a scalar. -/
  | vqaddVs (cont : Bool) (d : BitVec 5) (a : BitVec 5) (s : BitVec 5) (p : BitVec 5)
  /-- VQSUB (R190): Fixed-point subtract. -/
  | vqsub (cont : Bool) (d : BitVec 5) (a : BitVec 5) (b : BitVec 5) (p : BitVec 5)
  /-- VQSUB_VS (R190): Fixed-point subtract of a scalar. -/
  | vqsubVs (cont : Bool) (d : BitVec 5) (a : BitVec 5) (s : BitVec 5) (p : BitVec 5)
  /-- VQMUL (R190): Fixed-point multiply with a rounding shift. -/
  | vqmul (cont : Bool) (d : BitVec 5) (a : BitVec 5) (b : BitVec 5) (p : BitVec 5)
  /-- VQMUL_VS (R190): Fixed-point multiply by a scalar. -/
  | vqmulVs (cont : Bool) (d : BitVec 5) (a : BitVec 5) (s : BitVec 5) (p : BitVec 5)
  /-- VSHRRND (R191): Rounding shift by a signed amount. -/
  | vshrrnd (cont : Bool) (d : BitVec 5) (a : BitVec 5) (b : BitVec 5) (p : BitVec 5)
  /-- VSHRRND_VS (R191): Rounding shift by a scalar amount. -/
  | vshrrndVs (cont : Bool) (d : BitVec 5) (a : BitVec 5) (s : BitVec 5) (p : BitVec 5)
  /-- VSATN (R192): Clamps to a bit count, always saturating. -/
  | vsatn (cont : Bool) (d : BitVec 5) (a : BitVec 5) (b : BitVec 5) (p : BitVec 5)
  /-- VSATN_VS (R192): Clamps to a scalar bit count. -/
  | vsatnVs (cont : Bool) (d : BitVec 5) (a : BitVec 5) (s : BitVec 5) (p : BitVec 5)
  /-- VHEAD (R193): Writes redundant-sign-bit counts and folds them into vhr. -/
  | vhead (cont : Bool) (d : BitVec 5) (a : BitVec 5) (p : BitVec 5)
  /-- VQNEG (R190): Fixed-point negate. -/
  | vqneg (cont : Bool) (d : BitVec 5) (a : BitVec 5) (p : BitVec 5)
  /-- VQABS (R190): Fixed-point absolute value. -/
  | vqabs (cont : Bool) (d : BitVec 5) (a : BitVec 5) (p : BitVec 5)
  /-- VFADD (R194): Floating-point add. -/
  | vfadd (cont : Bool) (d : BitVec 5) (a : BitVec 5) (b : BitVec 5) (p : BitVec 5)
  /-- VFADD_VS (R194): Floating-point add of a scalar. -/
  | vfaddVs (cont : Bool) (d : BitVec 5) (a : BitVec 5) (s : BitVec 5) (p : BitVec 5)
  /-- VFSUB (R194): Floating-point subtract. -/
  | vfsub (cont : Bool) (d : BitVec 5) (a : BitVec 5) (b : BitVec 5) (p : BitVec 5)
  /-- VFSUB_VS (R194): Floating-point subtract of a scalar. -/
  | vfsubVs (cont : Bool) (d : BitVec 5) (a : BitVec 5) (s : BitVec 5) (p : BitVec 5)
  /-- VFMUL (R194): Floating-point multiply. -/
  | vfmul (cont : Bool) (d : BitVec 5) (a : BitVec 5) (b : BitVec 5) (p : BitVec 5)
  /-- VFMUL_VS (R194): Floating-point multiply by a scalar. -/
  | vfmulVs (cont : Bool) (d : BitVec 5) (a : BitVec 5) (s : BitVec 5) (p : BitVec 5)
  /-- VFDIV (R194): Floating-point divide. -/
  | vfdiv (cont : Bool) (d : BitVec 5) (a : BitVec 5) (b : BitVec 5) (p : BitVec 5)
  /-- VFDIV_VS (R194): Floating-point divide by a scalar. -/
  | vfdivVs (cont : Bool) (d : BitVec 5) (a : BitVec 5) (s : BitVec 5) (p : BitVec 5)
  /-- VFMIN (R195): Floating-point minimum. -/
  | vfmin (cont : Bool) (d : BitVec 5) (a : BitVec 5) (b : BitVec 5) (p : BitVec 5)
  /-- VFMIN_VS (R195): Floating-point minimum with a scalar. -/
  | vfminVs (cont : Bool) (d : BitVec 5) (a : BitVec 5) (s : BitVec 5) (p : BitVec 5)
  /-- VFMAX (R195): Floating-point maximum. -/
  | vfmax (cont : Bool) (d : BitVec 5) (a : BitVec 5) (b : BitVec 5) (p : BitVec 5)
  /-- VFMAX_VS (R195): Floating-point maximum with a scalar. -/
  | vfmaxVs (cont : Bool) (d : BitVec 5) (a : BitVec 5) (s : BitVec 5) (p : BitVec 5)
  /-- VFMA (R194): Fused multiply-add into vd. -/
  | vfma (cont : Bool) (d : BitVec 5) (a : BitVec 5) (b : BitVec 5) (p : BitVec 5)
  /-- VFMA_VS (R194): Fused multiply-add with a scalar. -/
  | vfmaVs (cont : Bool) (d : BitVec 5) (a : BitVec 5) (s : BitVec 5) (p : BitVec 5)
  /-- VFMS (R194): Fused multiply-subtract. -/
  | vfms (cont : Bool) (d : BitVec 5) (a : BitVec 5) (b : BitVec 5) (p : BitVec 5)
  /-- VFMS_VS (R194): Fused multiply-subtract with a scalar. -/
  | vfmsVs (cont : Bool) (d : BitVec 5) (a : BitVec 5) (s : BitVec 5) (p : BitVec 5)
  /-- VFNMA (R194): d minus x times y, rounded once. -/
  | vfnma (cont : Bool) (d : BitVec 5) (a : BitVec 5) (b : BitVec 5) (p : BitVec 5)
  /-- VFNMA_VS (R194): d minus x times a scalar, rounded once. -/
  | vfnmaVs (cont : Bool) (d : BitVec 5) (a : BitVec 5) (s : BitVec 5) (p : BitVec 5)
  /-- VFCLAMP (R196): Clamps old vd between lower and upper bounds. -/
  | vfclamp (cont : Bool) (d : BitVec 5) (a : BitVec 5) (b : BitVec 5) (p : BitVec 5)
  /-- VFCLAMP_VS (R196): Clamps old vd with a scalar upper bound. -/
  | vfclampVs (cont : Bool) (d : BitVec 5) (a : BitVec 5) (s : BitVec 5) (p : BitVec 5)
  /-- VFSQRT (R194): Floating-point square root. -/
  | vfsqrt (cont : Bool) (d : BitVec 5) (a : BitVec 5) (p : BitVec 5)
  /-- VFABS (R194): Clears the sign bit. -/
  | vfabs (cont : Bool) (d : BitVec 5) (a : BitVec 5) (p : BitVec 5)
  /-- VFNEG (R194): Inverts the sign bit. -/
  | vfneg (cont : Bool) (d : BitVec 5) (a : BitVec 5) (p : BitVec 5)
  /-- VCVT (R197): Converts from a source type of the same width. -/
  | vcvt (cont : Bool) (d : BitVec 5) (a : BitVec 5) (t : BitVec 4) (p : BitVec 5)
  /-- VWIDEN (R197): Converts from a source type of half the width. -/
  | vwiden (cont : Bool) (d : BitVec 5) (a : BitVec 5) (t : BitVec 4) (p : BitVec 5)
  /-- VNARROW (R197): Converts from a source type of twice the width. -/
  | vnarrow (cont : Bool) (d : BitVec 5) (a : BitVec 5) (t : BitVec 4) (p : BitVec 5)
  /-- VABS (R200): Wrapping absolute value. -/
  | vabs (cont : Bool) (d : BitVec 5) (a : BitVec 5) (p : BitVec 5)
  /-- VNEG (R200): Wrapping negate. -/
  | vneg (cont : Bool) (d : BitVec 5) (a : BitVec 5) (p : BitVec 5)
  /-- VCLZ (R200): Leading zero count per element. -/
  | vclz (cont : Bool) (d : BitVec 5) (a : BitVec 5) (p : BitVec 5)
  /-- VPOPC (R200): One-bit count per element. -/
  | vpopc (cont : Bool) (d : BitVec 5) (a : BitVec 5) (p : BitVec 5)
  /-- VMOV (R200): Copies elements. -/
  | vmov (cont : Bool) (d : BitVec 5) (a : BitVec 5) (p : BitVec 5)
  /-- VMOVS (R200): Broadcasts a scalar to the elements. -/
  | vmovs (cont : Bool) (d : BitVec 5) (b : BitVec 5) (p : BitVec 5)
  /-- VMOVX (R201): Moves one element to a scalar register through XQ. -/
  | vmovx (cont : Bool) (d : BitVec 5) (a : BitVec 5) (b : BitVec 5)
  /-- VINS (R201): Inserts a scalar into one element. -/
  | vins (cont : Bool) (d : BitVec 5) (a : BitVec 5) (b : BitVec 5)
  /-- VSEL (R202): Selects between va and vb by predicate. -/
  | vsel (cont : Bool) (d : BitVec 5) (a : BitVec 5) (b : BitVec 5) (p : BitVec 5)
  /-- VCOMPR (R202): Compresses the active elements to the bottom. -/
  | vcompr (cont : Bool) (d : BitVec 5) (a : BitVec 5) (p : BitVec 5)
  /-- VEXPND (R202): Expands elements to the active positions. -/
  | vexpnd (cont : Bool) (d : BitVec 5) (a : BitVec 5) (p : BitVec 5)
  /-- VSLIDEUP (R202): Slides elements up by a scalar offset. -/
  | vslideup (cont : Bool) (d : BitVec 5) (a : BitVec 5) (b : BitVec 5) (p : BitVec 5)
  /-- VSLIDEDN (R202): Slides elements down by a scalar offset. -/
  | vslidedn (cont : Bool) (d : BitVec 5) (a : BitVec 5) (b : BitVec 5) (p : BitVec 5)
  /-- VREV (R202): Reverses the elements below vl. -/
  | vrev (cont : Bool) (d : BitVec 5) (a : BitVec 5) (p : BitVec 5)
  /-- VRED (R206): Exact integer or fixed-point tree reduction into element 0. -/
  | vred (cont : Bool) (d : BitVec 5) (a : BitVec 5) (s : BitVec 1) (o : BitVec 3) (p : BitVec 5)
  /-- VFRED (R206): Floating-point pairwise tree reduction. -/
  | vfred (cont : Bool) (d : BitVec 5) (a : BitVec 5) (s : BitVec 1) (o : BitVec 3) (p : BitVec 5)
  /-- VCRED (R206): Complex sum reduction. -/
  | vcred (cont : Bool) (d : BitVec 5) (a : BitVec 5) (s : BitVec 1) (o : BitVec 3) (p : BitVec 5)
  /-- VCADD (R210): Complex add. -/
  | vcadd (cont : Bool) (d : BitVec 5) (a : BitVec 5) (b : BitVec 5) (p : BitVec 5)
  /-- VCADD_VS (R210): Complex add of a scalar. -/
  | vcaddVs (cont : Bool) (d : BitVec 5) (a : BitVec 5) (s : BitVec 5) (p : BitVec 5)
  /-- VCSUB (R210): Complex subtract. -/
  | vcsub (cont : Bool) (d : BitVec 5) (a : BitVec 5) (b : BitVec 5) (p : BitVec 5)
  /-- VCSUB_VS (R210): Complex subtract of a scalar. -/
  | vcsubVs (cont : Bool) (d : BitVec 5) (a : BitVec 5) (s : BitVec 5) (p : BitVec 5)
  /-- VCMUL (R210): Complex multiply, optionally by the conjugate. -/
  | vcmul (cont : Bool) (d : BitVec 5) (a : BitVec 5) (b : BitVec 5) (p : BitVec 5) (o : BitVec 1)
  /-- VCMUL_VS (R210): Complex multiply by a scalar. -/
  | vcmulVs (cont : Bool) (d : BitVec 5) (a : BitVec 5) (s : BitVec 5) (p : BitVec 5) (o : BitVec 1)
  /-- VCMAC (R210): Complex multiply-accumulate. -/
  | vcmac (cont : Bool) (d : BitVec 5) (a : BitVec 5) (b : BitVec 5) (p : BitVec 5) (o : BitVec 1)
  /-- VCMAC_VS (R210): Complex multiply-accumulate with a scalar. -/
  | vcmacVs (cont : Bool) (d : BitVec 5) (a : BitVec 5) (s : BitVec 5) (p : BitVec 5) (o : BitVec 1)
  /-- VCMAG2 (R210): Squared complex magnitude. -/
  | vcmag2 (cont : Bool) (d : BitVec 5) (a : BitVec 5) (p : BitVec 5)
  /-- VCSCL (R210): Scales both components by a real part. -/
  | vcscl (cont : Bool) (d : BitVec 5) (a : BitVec 5) (b : BitVec 5) (p : BitVec 5)
  /-- VCSCL_VS (R210): Scales both components by a scalar's real part. -/
  | vcsclVs (cont : Bool) (d : BitVec 5) (a : BitVec 5) (s : BitVec 5) (p : BitVec 5)
  /-- VCROT (R210): Multiplies by j or by minus j. -/
  | vcrot (cont : Bool) (d : BitVec 5) (a : BitVec 5) (p : BitVec 5) (o : BitVec 1)
  /-- VCCONJ (R210): Complex conjugate. -/
  | vcconj (cont : Bool) (d : BitVec 5) (a : BitVec 5) (p : BitVec 5)
  /-- VBFLY2 (R211): Radix-2 constant-geometry FFT stage. -/
  | vbfly2 (cont : Bool) (d : BitVec 5) (a : BitVec 5) (b : BitVec 5) (p : BitVec 5)
  /-- VBFLY4 (R211): Radix-4 constant-geometry FFT stage. -/
  | vbfly4 (cont : Bool) (d : BitVec 5) (a : BitVec 5) (b : BitVec 5) (p : BitVec 5)
  /-- VBITREV (R212): Bit-reversed element reordering. -/
  | vbitrev (cont : Bool) (d : BitVec 5) (a : BitVec 5) (p : BitVec 5)
  /-- VBPERM (R212): Permutes the bits within each element. -/
  | vbperm (cont : Bool) (d : BitVec 5) (a : BitVec 5) (b : BitVec 5) (p : BitVec 5)
  /-- VBGATH (R214): Gathers bit j of each element into a packed bit string. -/
  | vbgath (cont : Bool) (d : BitVec 5) (a : BitVec 5) (b : BitVec 5) (p : BitVec 5)
  /-- VINTLV (R212): Row-column interleave. -/
  | vintlv (cont : Bool) (d : BitVec 5) (a : BitVec 5) (b : BitVec 5) (p : BitVec 5)
  /-- VDINTLV (R212): Row-column de-interleave. -/
  | vdintlv (cont : Bool) (d : BitVec 5) (a : BitVec 5) (b : BitVec 5) (p : BitVec 5)
  /-- VROTZ (R213): Cyclically rotates every Z-element segment. -/
  | vrotz (cont : Bool) (d : BitVec 5) (a : BitVec 5) (b : BitVec 5) (p : BitVec 5)
  /-- VGOLD (R215): Generates, steps or initialises Gold sequence states. -/
  | vgold (cont : Bool) (d : BitVec 5) (a : BitVec 5) (b : BitVec 5) (p : BitVec 5)
  /-- VLLRPK (R216): Packs i16 LLRs into i8 with a rounding shift and a symmetric clamp. -/
  | vllrpk (cont : Bool) (d : BitVec 5) (a : BitVec 5) (b : BitVec 5) (p : BitVec 5)
  /-- VPERM (R218): Element permute within a die half. -/
  | vperm (cont : Bool) (d : BitVec 5) (a : BitVec 5) (b : BitVec 5) (p : BitVec 5)
  /-- VPERMB (R218): Permutes whole beats. -/
  | vpermb (cont : Bool) (d : BitVec 5) (a : BitVec 5) (b : BitVec 5)
  /-- VXCHG (R218): Exchanges beats between the die halves of a spanned thread. -/
  | vxchg (cont : Bool) (d : BitVec 5) (a : BitVec 5)
  /-- VZIP (R218): Interleaves two registers. -/
  | vzip (cont : Bool) (d : BitVec 5) (a : BitVec 5) (b : BitVec 5) (p : BitVec 5)
  /-- VUNZIP (R218): Extracts the even or odd elements. -/
  | vunzip (cont : Bool) (d : BitVec 5) (a : BitVec 5) (b : BitVec 5) (p : BitVec 5)
  /-- VSCGET (R219): Reads the sq block scales into elements. -/
  | vscget (cont : Bool) (d : BitVec 5) (a : BitVec 5) (p : BitVec 5)
  /-- VSCSET (R219): Sets the sq block scales from elements. -/
  | vscset (cont : Bool) (d : BitVec 5) (a : BitVec 5) (b : BitVec 5) (p : BitVec 5)
  /-- VSCNORM (R219): Normalises each sq block exactly. -/
  | vscnorm (cont : Bool) (d : BitVec 5) (a : BitVec 5) (p : BitVec 5)
  /-- VGJSTEP (R223): One Gauss-Jordan inversion step per matrix, with regularisation and renormalisation. -/
  | vgjstep (cont : Bool) (d : BitVec 5) (a : BitVec 5) (p : BitVec 5)
  /-- VBSOLVE (R224): One triangular substitution step per matrix. -/
  | vbsolve (cont : Bool) (d : BitVec 5) (a : BitVec 5) (b : BitVec 5) (p : BitVec 5)
  /-- VNSSTEP (R225): One Newton-Schulz step, cold-starting on a tag mismatch. -/
  | vnsstep (cont : Bool) (d : BitVec 5) (a : BitVec 5) (b : BitVec 5) (p : BitVec 5)
  /-- VWSTAG (R226): Sets or checks the structure tags of solver headers. -/
  | vwstag (cont : Bool) (d : BitVec 5) (a : BitVec 5) (b : BitVec 5) (p : BitVec 5)
  /-- MMA (R231): Accumulates rank-one steps of A times caldera B into an accumulator tile. -/
  | mma (t : BitVec 4) (a : BitVec 5) (b : BitVec 5)
  /-- MMAS (R232): Sparse matrix multiply that skips the K steps the mask marks absent. -/
  | mmas (t : BitVec 4) (a : BitVec 5) (b : BitVec 5) (p : BitVec 5)
  /-- MZERO (R235): Zeroes an owned accumulator tile. -/
  | mzero (t : BitVec 4)
  /-- ATOV (R236): Copies tile words into a vector register. -/
  | atov (t : BitVec 4) (d : BitVec 5) (b : BitVec 5) (p : BitVec 5)
  /-- VTOA (R236): Copies register elements into tile words. -/
  | vtoa (t : BitVec 4) (a : BitVec 5) (b : BitVec 5) (p : BitVec 5)
  /-- ALD (R237): Loads a 4 KiB tile image. -/
  | ald (t : BitVec 4) (b : BitVec 5)
  /-- AST (R237): Stores a 4 KiB tile image. -/
  | ast (t : BitVec 4) (b : BitVec 5)
  /-- ASAVE (R238): Handler save of a tile, whatever its owner. -/
  | asave (t : BitVec 4) (b : BitVec 5)
  /-- ARST (R238): Handler restore of a tile, claiming it without zeroing. -/
  | arst (t : BitVec 4) (b : BitVec 5)
  /-- CBLD (R240): Loads B rows from memory into the caldera column slices. -/
  | cbld (sc : BitVec 5) (b : BitVec 5)
  /-- CBFILL (R241): Writes B into the caldera from vector registers. -/
  | cbfill (a : BitVec 5) (b : BitVec 5) (p : BitVec 5)
  /-- ECPY (R244): Issues a copy command to the tile's copy engine. -/
  | ecpy (d : BitVec 5) (a : BitVec 5)
  /-- ELDPC (R244): Issues an LDPC decode command. -/
  | eldpc (d : BitVec 5) (a : BitVec 5) (b : BitVec 5)
  /-- EPOLAR (R244): Issues a polar decode command. -/
  | epolar (d : BitVec 5) (a : BitVec 5) (b : BitVec 5)
  /-- EENC (R244): Issues an LDPC or polar encode command, as KIND selects. -/
  | eenc (d : BitVec 5) (a : BitVec 5) (b : BitVec 5)
  /-- EDGE (R90): Adds a graph edge from p to q, or reports why not. -/
  | edge (d : BitVec 5) (a : BitVec 5) (b : BitVec 5)
  /-- EWAIT (R245): Waits until a node is free or finished and returns its word. -/
  | ewait (d : BitVec 5) (a : BitVec 5)
  /-- ESTAT (R245): Returns a node's word at once. -/
  | estat (d : BitVec 5) (a : BitVec 5)
  /-- ECANCEL (R245): Returns a node's word and cancels it if it is unfinished. -/
  | ecancel (d : BitVec 5) (a : BitVec 5)
  /-- VAMO (R246): Vector far atomics, returning the old values. -/
  | vamo (d : BitVec 5) (a : BitVec 5) (b : BitVec 5) (p : BitVec 5) (o : BitVec 4)
  /-- WDECL (R247): Declares an accumulation window with per-lane private copies and a window lock. -/
  | wdecl (a : BitVec 5) (b : BitVec 5)
  /-- WUPD (R248): Updates the lane copies of the window. -/
  | wupd (d : BitVec 5) (a : BitVec 5) (b : BitVec 5) (p : BitVec 5)
  /-- WMERGE (R249): Folds the lane copies into memory in fixed lane order. -/
  | wmerge
  /-- WFREE (R250): Discards the copies and releases the window lock. -/
  | wfree
  /-- RINST (R256): Verifies and installs a slice routine in every slice. -/
  | rinst (d : BitVec 5) (a : BitVec 5) (b : BitVec 5)
  /-- RCALL (R258): Calls a slice routine on one line. -/
  | rcall (d : BitVec 5) (a : BitVec 5) (b : BitVec 5)
  /-- RCALLV (R259): Calls a slice routine once per active element. -/
  | rcallv (d : BitVec 5) (a : BitVec 5) (b : BitVec 5) (p : BitVec 5)
  /-- RFREE (R257): Unmaps a routine number. -/
  | rfree (d : BitVec 5) (b : BitVec 5)
  /-- TWSET (R389): Writes a watch entry, optionally initialising the sequence. -/
  | twset (d : BitVec 5) (a : BitVec 5) (b : BitVec 5)
  /-- TWCLR (R390): Empties a watch entry or frees the sequence. -/
  | twclr (d : BitVec 5) (b : BitVec 5)
  /-- TWCHK (R382): Checks sampled tokens against the watch entries, applying or deferring effects. -/
  | twchk (d : BitVec 5) (a : BitVec 5) (b : BitVec 5) (p : BitVec 5)
  /-- TWCONF (R384): Confirms accepted drafts and truncates at the first winner. -/
  | twconf (d : BitVec 5) (a : BitVec 5) (b : BitVec 5) (p : BitVec 5)
  /-- TWREAD (R391): Reads a sequence's state, entry, history, run, drafts or WNOTE. -/
  | twread (d : BitVec 5) (a : BitVec 5)
  /-- MMA_COMPLETE (R234): The matrix array finishes an MMA or MMAS and the thread returns to the carousel. -/
  | mmaComplete (slot : Nat)
  /-- SLICE_CALL (R260): An L2 slice holds a line and runs a routine call on it to RET or failure, releasing its stores together. -/
  | sliceCall (vf : Nat) (n : Nat) (loc : Nat) (opA : W64) (opB : W64)
  /-- REGISTER_WRITE (R5): A write to a memory-mapped register or CSR that has no row of its own updates its writable fields under its access codes. -/
  | registerWrite (agent : Agent) (addr : Nat) (data : W64)
  /-- FRAME_ASSIGN (R31): FRAMECMD ASSIGN moves FREE frames with zero counters to ASSIGNED under a KID. -/
  | frameAssign (frame : BitVec 31) (kid : BitVec 9) (count : BitVec 4)
  /-- FRAME_RELEASE (R32): FRAMECMD RELEASE starts the release sequence of unmapped frames: sweep, back-invalidate, counter reset. `frame` is FRAME with the KID field as written. -/
  | frameRelease (frame : BitVec 31 × BitVec 9) (count : BitVec 4)
  /-- FRAME_QUERY (R34): FRAMECMD QUERY returns a frame's state, KID and map count. `frame` is FRAME with the KID and COUNT fields as written. -/
  | frameQuery (frame : BitVec 31 × BitVec 9 × BitVec 4)
  /-- RELEASE_COMPLETE (R32): When the counter reset completes, the frames go from RELEASING to FREE and the command completes. -/
  | releaseComplete
  /-- MAP_WRITE (R44): MAPCMD writes MAPENT into a function's stage-2 array after the checks of R31. -/
  | mapWrite (gfn : BitVec 19) (vf : BitVec 9)
  /-- MAP_REMOVE (R44): MAPCMD starts the removal of a stage-2 entry. -/
  | mapRemove (gfn : BitVec 19) (vf : BitVec 9)
  /-- MAP_READ (R44): MAPCMD reads a stage-2 entry into MAPENT. -/
  | mapRead (gfn : BitVec 19) (vf : BitVec 9)
  /-- REMOVAL_COMPLETE (R31): Once every TLB and cache holding the entry has acknowledged, the removal completes and the map count decrements. -/
  | removalComplete
  /-- MIGPUSH (R53): A write adds a frame to a function's migration pool, or is refused. -/
  | migpush (vf : Nat) (frame : BitVec 31)
  /-- MIGRATE (R52): A host-homed unit's counter reaching the threshold starts a migration: MIG set and the copy begun. -/
  | migrate (vf : Nat) (gfn : BitVec 19)
  /-- MIGRATION_COMPLETE (R52): After the copy and back-invalidation, the entry is rewritten, MIG clears and a notice is posted. -/
  | migrationComplete (vf : Nat) (gfn : BitVec 19)
  /-- COUNTER_HALVING (R52): Every 1 ms the hub halves every migration access counter. -/
  | counterHalving
  /-- PAGE_WALK (R40): A tile page walker completes a two-stage walk and fills a TLB, or reports a fault. -/
  | pageWalk (slot : Nat) (va : W64) (acc : Access)
  /-- S1INV_WRITE (R54): A write of s1inv starts dropping matching stage-1 entries from every TLB in the partition. -/
  | s1invWrite (slot : Nat) (data : W64)
  /-- S1INV_COMPLETE (R54): After accesses translated through dropped entries complete, BUSY clears. -/
  | s1invComplete (part : Nat)
  /-- FQCFG_WRITE (R51): A write of fqcfg enables, moves or disables the fault queue and sets TAIL to HEAD. -/
  | fqcfgWrite (part : Nat) (data : W64)
  /-- FQHEAD_WRITE (R49): A write of fqhead consumes fault entries and makes stopped engine commands runnable again. -/
  | fqheadWrite (part : Nat) (data : W64)
  /-- L2_FILL (R29): A line read from LPDDR-6 arrives at its slice and is decrypted and MAC-checked. -/
  | l2Fill (line : Nat) (kid : Nat) (mac : MacOutcome)
  /-- L2_WRITEBACK (R56): A dirty line, evicted or swept, is encrypted and written back with its MINOR incremented. -/
  | l2Writeback (line : Nat)
  /-- INGEST_SECTION (R64): A received U-plane message's sections are placed in an ingest region, or counted as late, early or format errors. -/
  | ingestSection (port : Nat) (eaxc : Nat) (frameId : Nat) (subframe : Nat) (slotId : Nat) (symbol : Nat) (startPrb : Nat) (numPrb : Nat) (comp : Nat) (time : Nat) (prbs : List Byte)
  /-- SLOT_CLOSE (R67): When time passes the slot's last symbol plus LATE, the region signals its graph node. -/
  | slotClose (tile : Nat) (region : Nat) (s : Nat) (time : Nat)
  /-- IRCTL_WRITE (R63): A write that sets EN is checked, enables the region and clears IRSTAT, or is refused. -/
  | irctlWrite (tile : Nat) (region : Nat) (data : W64)
  /-- FLCTL_WRITE (R68): A write that sets EN is checked, enables the flow and resets its queue, or is refused. -/
  | flctlWrite (flow : Nat) (data : W64)
  /-- EGRESS_FETCH (R70): After observing a TAIL store, the fronthaul unit checks a posted descriptor and reads its payload, dropping bad or late ones. -/
  | egressFetch (flow : Nat) (time : Nat)
  /-- EGRESS_TRANSMIT (R70): At TXTIME the unit sends the eCPRI message and advances HEAD. -/
  | egressTransmit (flow : Nat) (time : Nat)
  /-- ENGINE_START (R77): An engine picks its next runnable command, class 0 first, and starts or resumes it. -/
  | engineStart (eng : Nat)
  /-- COPY_COMPLETE (R80): A copy command finishes and its node finishes. -/
  | copyComplete (eng : Nat)
  /-- CODING_COMPLETE (R86): An LDPC or polar command finishes, writes DOUT, HARQ and its status word, and finishes its node. -/
  | codingComplete (eng : Nat)
  /-- ENGINE_STOP (R96): A running command stops at its next boundary for budget, class-0 pre-emption or freeze. -/
  | engineStop (eng : Nat) (steps : Nat)
  /-- BUDGET_RESET (R97): At each TAI multiple of PERIOD, every engine budget count returns to its ALLOW. -/
  | budgetReset
  /-- AOWN_WRITE (R74): A CSR write that changes a tile's owner zeroes the tile, waiting while the tile is held. -/
  | aownWrite (slot : Nat) (tile : BitVec 4) (data : W64)
  /-- ACFG_WRITE (R107): An S-mode write of acfg sets the caldera window or leaves it unchanged if invalid. -/
  | acfgWrite (slot : Nat) (data : W64)
  /-- VGCAP_WRITE (R287): A write of vgcap's CAP or YREQ lowers the lane target or requests a yield, ending chain and NAP waits. -/
  | vgcapWrite (slot : Nat) (data : W64)
  /-- RTCTL_WRITE (R411): The HC lowers a slot's CAP or sets its YREQ. -/
  | rtctlWrite (slot : Nat) (data : W64)
  /-- WSEQ_WRITE (R375): A write sets a function's watch window, or is refused. -/
  | wseqWrite (vf : Nat) (data : W64)
  /-- PWRCAP_WRITE (R444): A write sets the package power cap, clamped to LO and HI. -/
  | pwrcapWrite (data : W64)
  /-- GOVERNOR_SAMPLE (R445): Every 250 ns the governor samples draw and halves or doubles vgcap.PWR. -/
  | governorSample (draw : BitVec 10) (calm : Bool)
  /-- THERMAL_TRIP (R446): At 115 °C the package asserts THERMTRIP and stops every clock. -/
  | thermalTrip (temp : BitVec 8)
  /-- RATE_REDUCTION (R290): 1 µs after a PWR write, a thread holding more than PWR groups has its issue rate reduced. -/
  | rateReduction (slot : Nat)
  /-- LAUNCH (R423): A submission entry launches a host job into the ringmaster. -/
  | launch (vf : Nat)
  /-- MAP (R423): A submission entry maps GPA ranges with frames from the quota. -/
  | map (vf : Nat)
  /-- UNMAP (R422): A submission entry unmaps GPA ranges. -/
  | unmap (vf : Nat)
  /-- COPY (R423): A submission entry runs a class-3 copy for the function. -/
  | copy (vf : Nat)
  /-- WATCH (R423): A submission entry sets the function's watch window registers. -/
  | watch (vf : Nat)
  /-- NOTIFY (R422): A submission entry clears WNOTE bits and returns the old value. -/
  | notify (vf : Nat)
  /-- ATTEST (R431): A submission entry returns a signed attestation report. -/
  | attest (vf : Nat)
  /-- FUNCTION_RESET (R429): VFRST, FLR or the HC resets a function: abandon jobs, cancel, remove flows and mappings, release frames, rotate key, increment INC. -/
  | functionReset (vf : Nat)
  /-- PAGE_RESPONSE (R427): An HC page-request response passes the ring port, is dropped if its INC is stale, and wakes the requester. -/
  | pageResponse (part : Nat) (tag : BitVec 16) (inc : BitVec 8) (status : BitVec 8) (slot : BitVec 16) (vf : Nat)
  /-- PROXY_RESPONSE (R428): A proxied service-call response arrives and is dropped if its INC is stale. -/
  | proxyResponse (vf : Nat) (inc : BitVec 8)
  /-- HOST_ACCESS (R278): A host CXL.mem read or write is performed at the line's home slice. -/
  | hostAccess (write : Bool) (line : Nat) (data : List Byte)
  /-- HOST_SNOOP (R279): The coherence engine answers a host snoop from its directory and the L2. -/
  | hostSnoop (line : Nat) (take : Bool)
  /-- BACK_INVALIDATE_RESPONSE (R278): The host's response to a back-invalidate snoop arrives and lets the waiting change proceed. -/
  | backInvalidateResponse (line : Nat)
  /-- TWIN_INBOUND (R419): An inbound twin access is performed as an access of INVF, or refused. -/
  | twinInbound (acc : Inbound) (gpa : BitVec 40) (data : List Byte)
  /-- TRAIN_ARRIVAL (R179): A destination performs a train's elements in order and sends its acknowledgement. -/
  | trainArrival (slot : Nat) (dest : Dest)
  /-- TRAIN_ACK (R177): A train acknowledgement decrements the sending lanes' counters, or reports an error. -/
  | trainAck (slot : Nat) (dest : Dest)
  /-- DISPATCH (R366): The ringmaster places a READY job, class 0 first, on an empty slot. -/
  | dispatch (part : Nat)
  /-- PREEMPT_TIMEOUT (R368): 0.4 µs after YREQ with the slot not free, a forced stop with eval 2 is requested. -/
  | preemptTimeout (slot : Nat)
  /-- HANDLER_TIMEOUT (R368): A FORCED handler that has not reached HALT 0.8 µs after entry has its job abandoned with cause 6. -/
  | handlerTimeout (slot : Nat)
  /-- YIELD_TIMEOUT (R292): 5 µs after a yield or reclaim request with no SETVL, the thread is pre-empted by force. -/
  | yieldTimeout (slot : Nat)
  /-- WINDOW_WAIT_EXPIRY (R250): A forced pre-emption stops waiting for WFREE after 5 µs and discards the window. -/
  | windowWaitExpiry (slot : Nat)
  /-- FORCED_STOP (R398): An outside stop request lands at a convoy boundary. -/
  | forcedStop (slot : Nat)
  /-- PART_WAY_STOP (R399): A convoy still in flight when the wait expires stops part-way with per-group progress in vstart. -/
  | partWayStop (slot : Nat) (marks : List Nat)
  /-- DEADLINE_REACHED (R365): When PTP time reaches a job's deadline, abandonment is decided. -/
  | deadlineReached (part : Nat) (time : Nat)
  /-- ABANDON_STOP (R373): An abandoned job's thread stops at a convoy boundary, and its context and slot are discarded. -/
  | abandonStop (slot : Nat)
  /-- MARKER_WRITE (R373): After the stops and cancellations, markers are written, then the completion word, and the node finishes. -/
  | markerWrite (part : Nat) (job : BitVec 32)
  /-- SETVL_RESTART (R287): A SETVL waiting on a chain restarts within 100 ns of a change to the mark, final flag or vgcap. -/
  | setvlRestart (slot : Nat)
  /-- NAP_WAKE (R319): A waiting NAP completes when the wake count becomes non-zero or YREQ is set. -/
  | napWake (slot : Nat)
  /-- BARWAIT_RESUME (R334): A waiting BARWAIT or BARW completes when its phase completes, and acquires. -/
  | barwaitResume (slot : Nat)
  /-- EWAIT_RESUME (R245): A waiting EWAIT returns when its node is free or finished. -/
  | ewaitResume (slot : Nat)
  /-- COMMIT_WAIT_END (R181): A committed VAPPEND updates COMMIT once earlier appenders have published, possibly spawning. -/
  | commitWaitEnd (slot : Nat)
  /-- QUEUE_WAIT_END (R244): An engine instruction waiting for queue or lock-table room registers and queues its command. -/
  | queueWaitEnd (slot : Nat)
  /-- PENDING_LINE_FREE (R276): An owner store waiting for a pending-line entry proceeds once a WINPUB frees one. -/
  | pendingLineFree (slot : Nat)
  /-- TILE_RELEASE_WAIT (R238): ASAVE, ARST or an aown write waiting on a held tile proceeds when the matrix instruction releases it. -/
  | tileReleaseWait (slot : Nat)
  /-- QDRAIN_END (R348): A QDRAIN completes when the named queues are empty. -/
  | qdrainEnd (slot : Nat)
  /-- PHEND_RESUME (R274): A PHEND waiting for train acknowledgements performs its release and arrival. -/
  | phendResume (slot : Nat)
  /-- CHAIN_DETACH (R172): A chained consumer whose expected group misses its 8-cycle window detaches and waits for its producer. -/
  | chainDetach (slot : Nat) (mbr : BitVec 2)
  /-- BRIDGE_ERROR (R293): An uncorrectable die-bridge error or a stopped partner die ends spans. -/
  | bridgeError (die : Nat)
  /-- DBGT_WRITE (R434): The debug agent sets a slot's STEP, CLAIM, TREN or HALTREQ, which requests a debug halt. -/
  | dbgtWrite (slot : Nat) (data : W64)
  /-- FRZ_WRITE (R435): Setting a partition's freeze bit stops its engines at their next boundary, and clearing it resumes them. -/
  | frzWrite (data : W64)
  /-- TRCTL_WRITE (R439): A write starts or stops a VC's trace capture. -/
  | trctlWrite (vc : Nat) (data : W64)
  /-- TRIGGER_FIRE (R440): Writing FIRE, a BKPT with ONBK or an MADDR match fires a trigger with origin time T0. -/
  | triggerFire (part : Nat) (n : BitVec 2) (time : Nat)
  /-- TRIGGER_ARRIVAL (R440): A trigger message reaches a VC, which writes a sync record. -/
  | triggerArrival (part : Nat) (n : BitVec 2) (vc : Nat)
  /-- TRIGGER_ACTION (R440): At T0 + DELAY each VC starts, stops or freezes capture. -/
  | triggerAction (part : Nat) (n : BitVec 2) (vc : Nat) (time : Nat)
  /-- POWER_ON_RESET (R441): The RC runs the boot sequence: sideshow, firmware verification, IDE, training, caldera repair and configuration. -/
  | powerOnReset
  /-- BRINGUP_COMPLETE (R443): Bring-up ends sideshow, stops sideshow jobs, clears the L2 and starts normal service. -/
  | bringupComplete
  /-- STORE_BUFFER_DRAIN (R266): The oldest entry of a thread's FIFO store buffer is performed at its home. -/
  | storeBufferDrain (slot : Nat)
  /-- CANCELLED_COMMAND_STOP (R92): A running engine command that has been cancelled reaches its next element, layer or decision boundary within 1 us and its node finishes CANCELLED. -/
  | cancelledCommandStop (eng : Nat) (steps : Nat)
  /-- RESUME_AFTER_DETACH (R283): A detached chained consumer resumes when its producer delivers its last element group. -/
  | resumeAfterDetach (slot : Nat) (mbr : BitVec 2)
  /-- PTP_SERVO_STEP (R365): The PTP servo adjusts or steps the device time base, possibly backwards. -/
  | ptpServoStep (time : Nat)
  /-- TWIN_LINK_STATE (R418): The twin link trains and is keyed, or is lost, setting or clearing TWINCFG.UP. -/
  | twinLinkState (up : Bool)
  /-- UNCORRECTABLE_ERROR (R75): An uncorrectable SECDED error in an L2 line, scratchpad word, caldera slice or accumulator tile refetches the line or poisons the word. -/
  | uncorrectableError (place : ErrPlace)
  /-- ILLEGAL_WORD (R144): A thread executes a word whose major or minor is unassigned, or that breaks R140, and traps ILLOP. -/
  | illegalWord (word : BitVec 32)
  /-- FETCH_FAULT (R148): The aligned 64-byte block that holds a convoy's head fails translation or permission, and the thread traps PFAULT or PERM for the fetch. -/
  | fetchFault (va : W64)
  /-- UNKNOWN_OP_ENTRY (R422): A submission entry with an unknown OP, or with a non-zero reserved field, completes with STATUS 3. -/
  | unknownOpEntry (vf : Nat)
  deriving DecidableEq, Repr

end Sys2Proof
end

