-- ==== Sys2Proof/WellFormed.lean ====
section
/-!
DEFINITION. Well-formed instructions: the checks on operand values that the width of a field does
not make. A word whose fields break one is illegal (R140, R144). An event whose operands break one
names a unit that the package does not have (R12, R13).
-/

namespace Sys2Proof

/-- A field that names a predicate other than through pg holds 1 to 31 (R140, R356, R188, R227). -/
def predNamed (f : BitVec 5) : Bool := f != 0#5

/-- VCMP conditions are minors 0 to 13 (R141, R183). -/
def condAssigned (c : BitVec 4) : Bool := decide (c.toNat ≤ 13)

/-- AMO and VAMO operations are 0 to 9 (R142, R143). -/
def atomicOpAssigned (o : BitVec 4) : Bool := decide (o.toNat ≤ 9)

/-- FENCE scopes are 0 to 5 (R345). -/
def scopeAssigned (s : BitVec 5) : Bool := decide (s.toNat ≤ 5)

/-- Predicate banks are 0 to 2 (R358, R359). -/
def bankNamed (k : BitVec 2) : Bool := k != 3#2

/-- Global thread slots are 0 to 1,983 (R13). -/
def slotExists (n : Nat) : Bool := decide (n < 1984)

/-- Hard partitions are 0 to 19 (R19, R23). -/
def partExists (n : Nat) : Bool := decide (n < 20)

/-- Virtual functions are 0 to 383 (R44). -/
def vfExists (n : Nat) : Bool := decide (n < 384)

/-- Global VC numbers are 0 to 495 (R13). -/
def vcExists (n : Nat) : Bool := decide (n < 496)

/-- Tiles are 0 to 15 (R12). -/
def tileExists (n : Nat) : Bool := decide (n < 16)

/-- Engines: 16 copy engines, then 16 LDPC engines, then 8 polar engines (R12, R76). -/
def engExists (n : Nat) : Bool := decide (n < 40)

/-- Egress flows are 0 to 255 (R68). -/
def flowExists (n : Nat) : Bool := decide (n < 256)

/-- Fronthaul ports are 0 to 7 (R12). -/
def portExists (n : Nat) : Bool := decide (n < 8)

/-- Ingest regions of a tile are 0 to 7 (R63). -/
def regionExists (n : Nat) : Bool := decide (n < 8)

/-- Routine numbers of a function are 0 to 15 (R254). -/
def routineNumber (n : Nat) : Bool := decide (n < 16)

/-- The operand checks of an instruction or event. -/
def Instr.wf : Instr → Bool
  | .add _ _ _ => true
  | .sub _ _ _ => true
  | .and _ _ _ => true
  | .or _ _ _ => true
  | .xor _ _ _ => true
  | .andn _ _ _ => true
  | .sll _ _ _ => true
  | .srl _ _ _ => true
  | .sra _ _ _ => true
  | .slt _ _ _ => true
  | .sltn _ _ _ => true
  | .mul _ _ _ => true
  | .mulh _ _ _ => true
  | .div _ _ _ => true
  | .divn _ _ _ => true
  | .rem _ _ _ => true
  | .remn _ _ _ => true
  | .clz _ _ => true
  | .popc _ _ => true
  | .brev _ _ => true
  | .addi _ _ _ => true
  | .andi _ _ _ => true
  | .ori _ _ _ => true
  | .xori _ _ _ => true
  | .slli _ _ _ => true
  | .srli _ _ _ => true
  | .srai _ _ _ => true
  | .slti _ _ _ => true
  | .lui _ _ => true
  | .addpc _ _ => true
  | .lb _ _ _ => true
  | .lh _ _ _ => true
  | .lw _ _ _ => true
  | .ld _ _ _ => true
  | .lbn _ _ _ => true
  | .lhn _ _ _ => true
  | .lwn _ _ _ => true
  | .lda _ _ _ => true
  | .sb _ _ _ => true
  | .sh _ _ _ => true
  | .sw _ _ _ => true
  | .sd _ _ _ => true
  | .sdr _ _ _ => true
  | .amo _ _ _ _ _ o => atomicOpAssigned o
  | .beq _ _ _ => true
  | .bne _ _ _ => true
  | .blt _ _ _ => true
  | .bge _ _ _ => true
  | .bltn _ _ _ => true
  | .bgen _ _ _ => true
  | .jal _ _ => true
  | .jalr _ _ _ => true
  | .lnest _ _ _ => true
  | .lbody _ => true
  | .lexit _ _ => true
  | .csrr _ _ => true
  | .csrw _ _ _ => true
  | .csrs _ _ _ => true
  | .csrc _ _ _ => true
  | .svc _ => true
  | .eret => true
  | .nap _ => true
  | .wake _ _ => true
  | .yield => true
  | .halt => true
  | .bkpt _ => true
  | .ifence => true
  | .raise _ _ => true
  | .gjoin _ _ => true
  | .gleave _ _ => true
  | .barw _ _ => true
  | .bararv _ _ => true
  | .barrlx _ _ => true
  | .barwait _ _ _ => true
  | .phend _ _ => true
  | .gsize _ _ => true
  | .tid _ => true
  | .spawn _ _ _ => true
  | .jdone _ => true
  | .jstat _ _ => true
  | .jdeadl _ _ _ => true
  | .ptpnow _ => true
  | .chbind _ _ _ => true
  | .chpub _ _ _ => true
  | .chread _ _ => true
  | .fence s => scopeAssigned s
  | .fencee _ _ => true
  | .qdrain _ => true
  | .winpub _ => true
  | .vcfg _ _ => true
  | .setvl _ _ => true
  | .vkeep _ _ => true
  | .vdead _ _ => true
  | .vlmaxr _ _ _ => true
  | .vindex _ _ _ _ _ => true
  | .pand _ d a b _ => predNamed d && predNamed a && predNamed b
  | .por _ d a b _ => predNamed d && predNamed a && predNamed b
  | .pxor _ d a b _ => predNamed d && predNamed a && predNamed b
  | .pandn _ d a b _ => predNamed d && predNamed a && predNamed b
  | .pnot _ d a _ => predNamed d && predNamed a
  | .pseta _ d _ => predNamed d
  | .pfirst _ d a _ => predNamed d && predNamed a
  | .ppopc _ _ a _ => predNamed a
  | .pscan _ d a _ => predNamed d && predNamed a
  | .pmovl _ _ _ k => bankNamed (k.extractLsb' 0 2) && bankNamed (k.extractLsb' 2 2)
  | .pld _ _ _ k => bankNamed k
  | .pst _ _ _ k => bankNamed k
  | .vld _ _ _ _ => true
  | .vldff _ _ _ => true
  | .vlds _ _ _ _ _ => true
  | .vldx _ _ _ _ _ => true
  | .vst _ _ _ _ => true
  | .vsts _ _ _ _ _ => true
  | .vstx _ _ _ _ _ => true
  | .vstxo _ _ _ _ _ => true
  | .vldbp _ _ _ _ _ => true
  | .vstbp _ _ _ _ _ => true
  | .vscatr _ _ _ _ => true
  | .vputr _ _ _ => true
  | .vappend _ _ _ => true
  | .vqpop _ _ => true
  | .vadd _ _ _ _ _ => true
  | .vaddVs _ _ _ _ _ => true
  | .vsub _ _ _ _ _ => true
  | .vsubVs _ _ _ _ _ => true
  | .vrsub _ _ _ _ _ => true
  | .vrsubVs _ _ _ _ _ => true
  | .vmul _ _ _ _ _ => true
  | .vmulVs _ _ _ _ _ => true
  | .vmulh _ _ _ _ _ => true
  | .vmulhVs _ _ _ _ _ => true
  | .vmulhn _ _ _ _ _ => true
  | .vmulhnVs _ _ _ _ _ => true
  | .vmin _ _ _ _ _ => true
  | .vminVs _ _ _ _ _ => true
  | .vmax _ _ _ _ _ => true
  | .vmaxVs _ _ _ _ _ => true
  | .vminn _ _ _ _ _ => true
  | .vminnVs _ _ _ _ _ => true
  | .vmaxn _ _ _ _ _ => true
  | .vmaxnVs _ _ _ _ _ => true
  | .vand _ _ _ _ _ => true
  | .vandVs _ _ _ _ _ => true
  | .vor _ _ _ _ _ => true
  | .vorVs _ _ _ _ _ => true
  | .vxor _ _ _ _ _ => true
  | .vxorVs _ _ _ _ _ => true
  | .vsll _ _ _ _ _ => true
  | .vsllVs _ _ _ _ _ => true
  | .vsrl _ _ _ _ _ => true
  | .vsrlVs _ _ _ _ _ => true
  | .vsra _ _ _ _ _ => true
  | .vsraVs _ _ _ _ _ => true
  | .vcmp _ d _ _ _ cond => predNamed d && condAssigned cond
  | .vcmpVs _ d _ _ _ cond => predNamed d && condAssigned cond
  | .vqadd _ _ _ _ _ => true
  | .vqaddVs _ _ _ _ _ => true
  | .vqsub _ _ _ _ _ => true
  | .vqsubVs _ _ _ _ _ => true
  | .vqmul _ _ _ _ _ => true
  | .vqmulVs _ _ _ _ _ => true
  | .vshrrnd _ _ _ _ _ => true
  | .vshrrndVs _ _ _ _ _ => true
  | .vsatn _ _ _ _ _ => true
  | .vsatnVs _ _ _ _ _ => true
  | .vhead _ _ _ _ => true
  | .vqneg _ _ _ _ => true
  | .vqabs _ _ _ _ => true
  | .vfadd _ _ _ _ _ => true
  | .vfaddVs _ _ _ _ _ => true
  | .vfsub _ _ _ _ _ => true
  | .vfsubVs _ _ _ _ _ => true
  | .vfmul _ _ _ _ _ => true
  | .vfmulVs _ _ _ _ _ => true
  | .vfdiv _ _ _ _ _ => true
  | .vfdivVs _ _ _ _ _ => true
  | .vfmin _ _ _ _ _ => true
  | .vfminVs _ _ _ _ _ => true
  | .vfmax _ _ _ _ _ => true
  | .vfmaxVs _ _ _ _ _ => true
  | .vfma _ _ _ _ _ => true
  | .vfmaVs _ _ _ _ _ => true
  | .vfms _ _ _ _ _ => true
  | .vfmsVs _ _ _ _ _ => true
  | .vfnma _ _ _ _ _ => true
  | .vfnmaVs _ _ _ _ _ => true
  | .vfclamp _ _ _ _ _ => true
  | .vfclampVs _ _ _ _ _ => true
  | .vfsqrt _ _ _ _ => true
  | .vfabs _ _ _ _ => true
  | .vfneg _ _ _ _ => true
  | .vcvt _ _ _ _ _ => true
  | .vwiden _ _ _ _ _ => true
  | .vnarrow _ _ _ _ _ => true
  | .vabs _ _ _ _ => true
  | .vneg _ _ _ _ => true
  | .vclz _ _ _ _ => true
  | .vpopc _ _ _ _ => true
  | .vmov _ _ _ _ => true
  | .vmovs _ _ _ _ => true
  | .vmovx _ _ _ _ => true
  | .vins _ _ _ _ => true
  | .vsel _ _ _ _ _ => true
  | .vcompr _ _ _ _ => true
  | .vexpnd _ _ _ _ => true
  | .vslideup _ _ _ _ _ => true
  | .vslidedn _ _ _ _ _ => true
  | .vrev _ _ _ _ => true
  | .vred _ _ _ _ _ _ => true
  | .vfred _ _ _ _ _ _ => true
  | .vcred _ _ _ _ _ _ => true
  | .vcadd _ _ _ _ _ => true
  | .vcaddVs _ _ _ _ _ => true
  | .vcsub _ _ _ _ _ => true
  | .vcsubVs _ _ _ _ _ => true
  | .vcmul _ _ _ _ _ _ => true
  | .vcmulVs _ _ _ _ _ _ => true
  | .vcmac _ _ _ _ _ _ => true
  | .vcmacVs _ _ _ _ _ _ => true
  | .vcmag2 _ _ _ _ => true
  | .vcscl _ _ _ _ _ => true
  | .vcsclVs _ _ _ _ _ => true
  | .vcrot _ _ _ _ _ => true
  | .vcconj _ _ _ _ => true
  | .vbfly2 _ _ _ _ _ => true
  | .vbfly4 _ _ _ _ _ => true
  | .vbitrev _ _ _ _ => true
  | .vbperm _ _ _ _ _ => true
  | .vbgath _ _ _ _ _ => true
  | .vintlv _ _ _ _ _ => true
  | .vdintlv _ _ _ _ _ => true
  | .vrotz _ _ _ _ _ => true
  | .vgold _ _ _ _ _ => true
  | .vllrpk _ _ _ _ _ => true
  | .vperm _ _ _ _ _ => true
  | .vpermb _ _ _ _ => true
  | .vxchg _ _ _ => true
  | .vzip _ _ _ _ _ => true
  | .vunzip _ _ _ _ _ => true
  | .vscget _ _ _ _ => true
  | .vscset _ _ _ _ _ => true
  | .vscnorm _ _ _ _ => true
  | .vgjstep _ _ _ _ => true
  | .vbsolve _ _ _ _ _ => true
  | .vnsstep _ _ _ _ _ => true
  | .vwstag _ _ _ _ _ => true
  | .mma _ _ _ => true
  | .mmas _ _ _ p => predNamed p
  | .mzero _ => true
  | .mmaComplete slot => slotExists slot
  | .atov _ _ _ _ => true
  | .vtoa _ _ _ _ => true
  | .ald _ _ => true
  | .ast _ _ => true
  | .asave _ _ => true
  | .arst _ _ => true
  | .cbld _ _ => true
  | .cbfill _ _ _ => true
  | .ecpy _ _ => true
  | .eldpc _ _ _ => true
  | .epolar _ _ _ => true
  | .eenc _ _ _ => true
  | .edge _ _ _ => true
  | .ewait _ _ => true
  | .estat _ _ => true
  | .ecancel _ _ => true
  | .vamo _ _ _ _ o => atomicOpAssigned o
  | .wdecl _ _ => true
  | .wupd _ _ _ _ => true
  | .wmerge => true
  | .wfree => true
  | .rinst _ _ _ => true
  | .rcall _ _ _ => true
  | .rcallv _ _ _ _ => true
  | .rfree _ _ => true
  | .twset _ _ _ => true
  | .twclr _ _ => true
  | .twchk _ _ _ _ => true
  | .twconf _ _ _ _ => true
  | .twread _ _ => true
  | .sliceCall vf n _ _ _ => vfExists vf && routineNumber n
  | .registerWrite _ _ _ => true
  | .frameAssign _ _ _ => true
  | .frameRelease _ _ => true
  | .frameQuery _ => true
  | .releaseComplete => true
  | .mapWrite _ vf => vfExists vf.toNat
  | .mapRemove _ vf => vfExists vf.toNat
  | .mapRead _ vf => vfExists vf.toNat
  | .removalComplete => true
  | .migpush vf _ => vfExists vf
  | .migrate vf _ => vfExists vf
  | .migrationComplete vf _ => vfExists vf
  | .counterHalving => true
  | .pageWalk slot _ _ => slotExists slot
  | .s1invWrite slot _ => slotExists slot
  | .s1invComplete part => partExists part
  | .fqcfgWrite part _ => partExists part
  | .fqheadWrite part _ => partExists part
  | .l2Fill _ _ _ => true
  | .l2Writeback _ => true
  | .ingestSection port _ _ _ _ _ _ _ _ _ _ => portExists port
  | .slotClose tile region _ _ => tileExists tile && regionExists region
  | .irctlWrite tile region _ => tileExists tile && regionExists region
  | .flctlWrite flow _ => flowExists flow
  | .egressFetch flow _ => flowExists flow
  | .egressTransmit flow _ => flowExists flow
  | .engineStart eng => engExists eng
  | .copyComplete eng => engExists eng
  | .codingComplete eng => engExists eng
  | .engineStop eng _ => engExists eng
  | .budgetReset => true
  | .aownWrite slot _ _ => slotExists slot
  | .acfgWrite slot _ => slotExists slot
  | .vgcapWrite slot _ => slotExists slot
  | .rtctlWrite slot _ => slotExists slot
  | .wseqWrite vf _ => vfExists vf
  | .pwrcapWrite _ => true
  | .governorSample _ _ => true
  | .thermalTrip _ => true
  | .rateReduction slot => slotExists slot
  | .launch vf => vfExists vf
  | .map vf => vfExists vf
  | .unmap vf => vfExists vf
  | .copy vf => vfExists vf
  | .watch vf => vfExists vf
  | .notify vf => vfExists vf
  | .attest vf => vfExists vf
  | .functionReset vf => vfExists vf
  | .pageResponse part _ _ _ _ vf => partExists part && vfExists vf
  | .proxyResponse vf _ => vfExists vf
  | .hostAccess _ _ _ => true
  | .hostSnoop _ _ => true
  | .backInvalidateResponse _ => true
  | .twinInbound _ _ _ => true
  | .trainArrival slot _ => slotExists slot
  | .trainAck slot _ => slotExists slot
  | .dispatch part => partExists part
  | .preemptTimeout slot => slotExists slot
  | .handlerTimeout slot => slotExists slot
  | .yieldTimeout slot => slotExists slot
  | .windowWaitExpiry slot => slotExists slot
  | .forcedStop slot => slotExists slot
  | .partWayStop slot _ => slotExists slot
  | .deadlineReached part _ => partExists part
  | .abandonStop slot => slotExists slot
  | .markerWrite part _ => partExists part
  | .setvlRestart slot => slotExists slot
  | .napWake slot => slotExists slot
  | .barwaitResume slot => slotExists slot
  | .ewaitResume slot => slotExists slot
  | .commitWaitEnd slot => slotExists slot
  | .queueWaitEnd slot => slotExists slot
  | .pendingLineFree slot => slotExists slot
  | .tileReleaseWait slot => slotExists slot
  | .qdrainEnd slot => slotExists slot
  | .phendResume slot => slotExists slot
  | .chainDetach slot _ => slotExists slot
  | .bridgeError _ => true
  | .dbgtWrite slot _ => slotExists slot
  | .frzWrite _ => true
  | .trctlWrite vc _ => vcExists vc
  | .triggerFire part _ _ => partExists part
  | .triggerArrival part _ vc => partExists part && vcExists vc
  | .triggerAction part _ vc _ => partExists part && vcExists vc
  | .powerOnReset => true
  | .bringupComplete => true
  | .storeBufferDrain slot => slotExists slot
  | .cancelledCommandStop eng _ => engExists eng
  | .resumeAfterDetach slot _ => slotExists slot
  | .ptpServoStep _ => true
  | .twinLinkState _ => true
  | .uncorrectableError _ => true
  | .illegalWord _ => true
  | .fetchFault _ => true
  | .unknownOpEntry vf => vfExists vf

/-- The rows that are instruction words; the others are events. -/
def Instr.isWord : Instr → Bool
  | .add _ _ _ => true
  | .sub _ _ _ => true
  | .and _ _ _ => true
  | .or _ _ _ => true
  | .xor _ _ _ => true
  | .andn _ _ _ => true
  | .sll _ _ _ => true
  | .srl _ _ _ => true
  | .sra _ _ _ => true
  | .slt _ _ _ => true
  | .sltn _ _ _ => true
  | .mul _ _ _ => true
  | .mulh _ _ _ => true
  | .div _ _ _ => true
  | .divn _ _ _ => true
  | .rem _ _ _ => true
  | .remn _ _ _ => true
  | .clz _ _ => true
  | .popc _ _ => true
  | .brev _ _ => true
  | .addi _ _ _ => true
  | .andi _ _ _ => true
  | .ori _ _ _ => true
  | .xori _ _ _ => true
  | .slli _ _ _ => true
  | .srli _ _ _ => true
  | .srai _ _ _ => true
  | .slti _ _ _ => true
  | .lui _ _ => true
  | .addpc _ _ => true
  | .lb _ _ _ => true
  | .lh _ _ _ => true
  | .lw _ _ _ => true
  | .ld _ _ _ => true
  | .lbn _ _ _ => true
  | .lhn _ _ _ => true
  | .lwn _ _ _ => true
  | .lda _ _ _ => true
  | .sb _ _ _ => true
  | .sh _ _ _ => true
  | .sw _ _ _ => true
  | .sd _ _ _ => true
  | .sdr _ _ _ => true
  | .amo _ _ _ _ _ _ => true
  | .beq _ _ _ => true
  | .bne _ _ _ => true
  | .blt _ _ _ => true
  | .bge _ _ _ => true
  | .bltn _ _ _ => true
  | .bgen _ _ _ => true
  | .jal _ _ => true
  | .jalr _ _ _ => true
  | .lnest _ _ _ => true
  | .lbody _ => true
  | .lexit _ _ => true
  | .csrr _ _ => true
  | .csrw _ _ _ => true
  | .csrs _ _ _ => true
  | .csrc _ _ _ => true
  | .svc _ => true
  | .eret => true
  | .nap _ => true
  | .wake _ _ => true
  | .yield => true
  | .halt => true
  | .bkpt _ => true
  | .ifence => true
  | .raise _ _ => true
  | .gjoin _ _ => true
  | .gleave _ _ => true
  | .barw _ _ => true
  | .bararv _ _ => true
  | .barrlx _ _ => true
  | .barwait _ _ _ => true
  | .phend _ _ => true
  | .gsize _ _ => true
  | .tid _ => true
  | .spawn _ _ _ => true
  | .jdone _ => true
  | .jstat _ _ => true
  | .jdeadl _ _ _ => true
  | .ptpnow _ => true
  | .chbind _ _ _ => true
  | .chpub _ _ _ => true
  | .chread _ _ => true
  | .fence _ => true
  | .fencee _ _ => true
  | .qdrain _ => true
  | .winpub _ => true
  | .vcfg _ _ => true
  | .setvl _ _ => true
  | .vkeep _ _ => true
  | .vdead _ _ => true
  | .vlmaxr _ _ _ => true
  | .vindex _ _ _ _ _ => true
  | .pand _ _ _ _ _ => true
  | .por _ _ _ _ _ => true
  | .pxor _ _ _ _ _ => true
  | .pandn _ _ _ _ _ => true
  | .pnot _ _ _ _ => true
  | .pseta _ _ _ => true
  | .pfirst _ _ _ _ => true
  | .ppopc _ _ _ _ => true
  | .pscan _ _ _ _ => true
  | .pmovl _ _ _ _ => true
  | .pld _ _ _ _ => true
  | .pst _ _ _ _ => true
  | .vld _ _ _ _ => true
  | .vldff _ _ _ => true
  | .vlds _ _ _ _ _ => true
  | .vldx _ _ _ _ _ => true
  | .vst _ _ _ _ => true
  | .vsts _ _ _ _ _ => true
  | .vstx _ _ _ _ _ => true
  | .vstxo _ _ _ _ _ => true
  | .vldbp _ _ _ _ _ => true
  | .vstbp _ _ _ _ _ => true
  | .vscatr _ _ _ _ => true
  | .vputr _ _ _ => true
  | .vappend _ _ _ => true
  | .vqpop _ _ => true
  | .vadd _ _ _ _ _ => true
  | .vaddVs _ _ _ _ _ => true
  | .vsub _ _ _ _ _ => true
  | .vsubVs _ _ _ _ _ => true
  | .vrsub _ _ _ _ _ => true
  | .vrsubVs _ _ _ _ _ => true
  | .vmul _ _ _ _ _ => true
  | .vmulVs _ _ _ _ _ => true
  | .vmulh _ _ _ _ _ => true
  | .vmulhVs _ _ _ _ _ => true
  | .vmulhn _ _ _ _ _ => true
  | .vmulhnVs _ _ _ _ _ => true
  | .vmin _ _ _ _ _ => true
  | .vminVs _ _ _ _ _ => true
  | .vmax _ _ _ _ _ => true
  | .vmaxVs _ _ _ _ _ => true
  | .vminn _ _ _ _ _ => true
  | .vminnVs _ _ _ _ _ => true
  | .vmaxn _ _ _ _ _ => true
  | .vmaxnVs _ _ _ _ _ => true
  | .vand _ _ _ _ _ => true
  | .vandVs _ _ _ _ _ => true
  | .vor _ _ _ _ _ => true
  | .vorVs _ _ _ _ _ => true
  | .vxor _ _ _ _ _ => true
  | .vxorVs _ _ _ _ _ => true
  | .vsll _ _ _ _ _ => true
  | .vsllVs _ _ _ _ _ => true
  | .vsrl _ _ _ _ _ => true
  | .vsrlVs _ _ _ _ _ => true
  | .vsra _ _ _ _ _ => true
  | .vsraVs _ _ _ _ _ => true
  | .vcmp _ _ _ _ _ _ => true
  | .vcmpVs _ _ _ _ _ _ => true
  | .vqadd _ _ _ _ _ => true
  | .vqaddVs _ _ _ _ _ => true
  | .vqsub _ _ _ _ _ => true
  | .vqsubVs _ _ _ _ _ => true
  | .vqmul _ _ _ _ _ => true
  | .vqmulVs _ _ _ _ _ => true
  | .vshrrnd _ _ _ _ _ => true
  | .vshrrndVs _ _ _ _ _ => true
  | .vsatn _ _ _ _ _ => true
  | .vsatnVs _ _ _ _ _ => true
  | .vhead _ _ _ _ => true
  | .vqneg _ _ _ _ => true
  | .vqabs _ _ _ _ => true
  | .vfadd _ _ _ _ _ => true
  | .vfaddVs _ _ _ _ _ => true
  | .vfsub _ _ _ _ _ => true
  | .vfsubVs _ _ _ _ _ => true
  | .vfmul _ _ _ _ _ => true
  | .vfmulVs _ _ _ _ _ => true
  | .vfdiv _ _ _ _ _ => true
  | .vfdivVs _ _ _ _ _ => true
  | .vfmin _ _ _ _ _ => true
  | .vfminVs _ _ _ _ _ => true
  | .vfmax _ _ _ _ _ => true
  | .vfmaxVs _ _ _ _ _ => true
  | .vfma _ _ _ _ _ => true
  | .vfmaVs _ _ _ _ _ => true
  | .vfms _ _ _ _ _ => true
  | .vfmsVs _ _ _ _ _ => true
  | .vfnma _ _ _ _ _ => true
  | .vfnmaVs _ _ _ _ _ => true
  | .vfclamp _ _ _ _ _ => true
  | .vfclampVs _ _ _ _ _ => true
  | .vfsqrt _ _ _ _ => true
  | .vfabs _ _ _ _ => true
  | .vfneg _ _ _ _ => true
  | .vcvt _ _ _ _ _ => true
  | .vwiden _ _ _ _ _ => true
  | .vnarrow _ _ _ _ _ => true
  | .vabs _ _ _ _ => true
  | .vneg _ _ _ _ => true
  | .vclz _ _ _ _ => true
  | .vpopc _ _ _ _ => true
  | .vmov _ _ _ _ => true
  | .vmovs _ _ _ _ => true
  | .vmovx _ _ _ _ => true
  | .vins _ _ _ _ => true
  | .vsel _ _ _ _ _ => true
  | .vcompr _ _ _ _ => true
  | .vexpnd _ _ _ _ => true
  | .vslideup _ _ _ _ _ => true
  | .vslidedn _ _ _ _ _ => true
  | .vrev _ _ _ _ => true
  | .vred _ _ _ _ _ _ => true
  | .vfred _ _ _ _ _ _ => true
  | .vcred _ _ _ _ _ _ => true
  | .vcadd _ _ _ _ _ => true
  | .vcaddVs _ _ _ _ _ => true
  | .vcsub _ _ _ _ _ => true
  | .vcsubVs _ _ _ _ _ => true
  | .vcmul _ _ _ _ _ _ => true
  | .vcmulVs _ _ _ _ _ _ => true
  | .vcmac _ _ _ _ _ _ => true
  | .vcmacVs _ _ _ _ _ _ => true
  | .vcmag2 _ _ _ _ => true
  | .vcscl _ _ _ _ _ => true
  | .vcsclVs _ _ _ _ _ => true
  | .vcrot _ _ _ _ _ => true
  | .vcconj _ _ _ _ => true
  | .vbfly2 _ _ _ _ _ => true
  | .vbfly4 _ _ _ _ _ => true
  | .vbitrev _ _ _ _ => true
  | .vbperm _ _ _ _ _ => true
  | .vbgath _ _ _ _ _ => true
  | .vintlv _ _ _ _ _ => true
  | .vdintlv _ _ _ _ _ => true
  | .vrotz _ _ _ _ _ => true
  | .vgold _ _ _ _ _ => true
  | .vllrpk _ _ _ _ _ => true
  | .vperm _ _ _ _ _ => true
  | .vpermb _ _ _ _ => true
  | .vxchg _ _ _ => true
  | .vzip _ _ _ _ _ => true
  | .vunzip _ _ _ _ _ => true
  | .vscget _ _ _ _ => true
  | .vscset _ _ _ _ _ => true
  | .vscnorm _ _ _ _ => true
  | .vgjstep _ _ _ _ => true
  | .vbsolve _ _ _ _ _ => true
  | .vnsstep _ _ _ _ _ => true
  | .vwstag _ _ _ _ _ => true
  | .mma _ _ _ => true
  | .mmas _ _ _ _ => true
  | .mzero _ => true
  | .mmaComplete _ => false
  | .atov _ _ _ _ => true
  | .vtoa _ _ _ _ => true
  | .ald _ _ => true
  | .ast _ _ => true
  | .asave _ _ => true
  | .arst _ _ => true
  | .cbld _ _ => true
  | .cbfill _ _ _ => true
  | .ecpy _ _ => true
  | .eldpc _ _ _ => true
  | .epolar _ _ _ => true
  | .eenc _ _ _ => true
  | .edge _ _ _ => true
  | .ewait _ _ => true
  | .estat _ _ => true
  | .ecancel _ _ => true
  | .vamo _ _ _ _ _ => true
  | .wdecl _ _ => true
  | .wupd _ _ _ _ => true
  | .wmerge => true
  | .wfree => true
  | .rinst _ _ _ => true
  | .rcall _ _ _ => true
  | .rcallv _ _ _ _ => true
  | .rfree _ _ => true
  | .twset _ _ _ => true
  | .twclr _ _ => true
  | .twchk _ _ _ _ => true
  | .twconf _ _ _ _ => true
  | .twread _ _ => true
  | .sliceCall _ _ _ _ _ => false
  | .registerWrite _ _ _ => false
  | .frameAssign _ _ _ => false
  | .frameRelease _ _ => false
  | .frameQuery _ => false
  | .releaseComplete => false
  | .mapWrite _ _ => false
  | .mapRemove _ _ => false
  | .mapRead _ _ => false
  | .removalComplete => false
  | .migpush _ _ => false
  | .migrate _ _ => false
  | .migrationComplete _ _ => false
  | .counterHalving => false
  | .pageWalk _ _ _ => false
  | .s1invWrite _ _ => false
  | .s1invComplete _ => false
  | .fqcfgWrite _ _ => false
  | .fqheadWrite _ _ => false
  | .l2Fill _ _ _ => false
  | .l2Writeback _ => false
  | .ingestSection _ _ _ _ _ _ _ _ _ _ _ => false
  | .slotClose _ _ _ _ => false
  | .irctlWrite _ _ _ => false
  | .flctlWrite _ _ => false
  | .egressFetch _ _ => false
  | .egressTransmit _ _ => false
  | .engineStart _ => false
  | .copyComplete _ => false
  | .codingComplete _ => false
  | .engineStop _ _ => false
  | .budgetReset => false
  | .aownWrite _ _ _ => false
  | .acfgWrite _ _ => false
  | .vgcapWrite _ _ => false
  | .rtctlWrite _ _ => false
  | .wseqWrite _ _ => false
  | .pwrcapWrite _ => false
  | .governorSample _ _ => false
  | .thermalTrip _ => false
  | .rateReduction _ => false
  | .launch _ => false
  | .map _ => false
  | .unmap _ => false
  | .copy _ => false
  | .watch _ => false
  | .notify _ => false
  | .attest _ => false
  | .functionReset _ => false
  | .pageResponse _ _ _ _ _ _ => false
  | .proxyResponse _ _ => false
  | .hostAccess _ _ _ => false
  | .hostSnoop _ _ => false
  | .backInvalidateResponse _ => false
  | .twinInbound _ _ _ => false
  | .trainArrival _ _ => false
  | .trainAck _ _ => false
  | .dispatch _ => false
  | .preemptTimeout _ => false
  | .handlerTimeout _ => false
  | .yieldTimeout _ => false
  | .windowWaitExpiry _ => false
  | .forcedStop _ => false
  | .partWayStop _ _ => false
  | .deadlineReached _ _ => false
  | .abandonStop _ => false
  | .markerWrite _ _ => false
  | .setvlRestart _ => false
  | .napWake _ => false
  | .barwaitResume _ => false
  | .ewaitResume _ => false
  | .commitWaitEnd _ => false
  | .queueWaitEnd _ => false
  | .pendingLineFree _ => false
  | .tileReleaseWait _ => false
  | .qdrainEnd _ => false
  | .phendResume _ => false
  | .chainDetach _ _ => false
  | .bridgeError _ => false
  | .dbgtWrite _ _ => false
  | .frzWrite _ => false
  | .trctlWrite _ _ => false
  | .triggerFire _ _ _ => false
  | .triggerArrival _ _ _ => false
  | .triggerAction _ _ _ _ => false
  | .powerOnReset => false
  | .bringupComplete => false
  | .storeBufferDrain _ => false
  | .cancelledCommandStop _ _ => false
  | .resumeAfterDetach _ _ => false
  | .ptpServoStep _ => false
  | .twinLinkState _ => false
  | .uncorrectableError _ => false
  | .illegalWord _ => false
  | .fetchFault _ => false
  | .unknownOpEntry _ => false

end Sys2Proof
end

