-- ==== Sys2Proof/Decode.lean ====
section
/-!
DEFINITION. The decoder of instruction words, total on any bytes, and the encoder, both written
from the formats and the opcode map of R137 to R144. A word is a natural number with bit 0 its
least significant bit; it is stored little-endian (R2).
-/

namespace Sys2Proof

/-- Why a word is no instruction (R144). -/
inductive DecodeError where
  /-- Fewer than four bytes were given. -/
  | tooShort
  /-- The major opcode is not assigned in R141. -/
  | majorUnassigned
  /-- The minor is not assigned, a reserved field is not zero, or a field holds a value that R140
  or the instruction's own rule makes illegal. -/
  | fieldIllegal
  deriving DecidableEq, Repr

/-- Bits lo + n - 1 down to lo of a word, as a number. -/
def bitsAt (n lo w : Nat) : Nat := w / 2 ^ lo % 2 ^ n

/-- Bits lo + n - 1 down to lo of a word, as an operand. -/
def fieldAt (n lo w : Nat) : BitVec n := BitVec.ofNat n (w / 2 ^ lo)

/-- Bit 31 of a word, the continue bit C (R137). -/
def contBit (w : Nat) : Bool := bitsAt 1 31 w == 1

/-- Major 0x01 (R141). -/
def decodeMajor01 (w : Nat) : Option Instr :=
  if bitsAt 10 0 w = 0 ∧ bitsAt 1 31 w = 0 then some (.add (fieldAt 5 20 w) (fieldAt 5 15 w) (fieldAt 5 10 w))
  else if bitsAt 10 0 w = 1 ∧ bitsAt 1 31 w = 0 then some (.sub (fieldAt 5 20 w) (fieldAt 5 15 w) (fieldAt 5 10 w))
  else if bitsAt 10 0 w = 2 ∧ bitsAt 1 31 w = 0 then some (.and (fieldAt 5 20 w) (fieldAt 5 15 w) (fieldAt 5 10 w))
  else if bitsAt 10 0 w = 3 ∧ bitsAt 1 31 w = 0 then some (.or (fieldAt 5 20 w) (fieldAt 5 15 w) (fieldAt 5 10 w))
  else if bitsAt 10 0 w = 4 ∧ bitsAt 1 31 w = 0 then some (.xor (fieldAt 5 20 w) (fieldAt 5 15 w) (fieldAt 5 10 w))
  else if bitsAt 10 0 w = 5 ∧ bitsAt 1 31 w = 0 then some (.andn (fieldAt 5 20 w) (fieldAt 5 15 w) (fieldAt 5 10 w))
  else if bitsAt 10 0 w = 6 ∧ bitsAt 1 31 w = 0 then some (.sll (fieldAt 5 20 w) (fieldAt 5 15 w) (fieldAt 5 10 w))
  else if bitsAt 10 0 w = 7 ∧ bitsAt 1 31 w = 0 then some (.srl (fieldAt 5 20 w) (fieldAt 5 15 w) (fieldAt 5 10 w))
  else if bitsAt 10 0 w = 8 ∧ bitsAt 1 31 w = 0 then some (.sra (fieldAt 5 20 w) (fieldAt 5 15 w) (fieldAt 5 10 w))
  else if bitsAt 10 0 w = 9 ∧ bitsAt 1 31 w = 0 then some (.slt (fieldAt 5 20 w) (fieldAt 5 15 w) (fieldAt 5 10 w))
  else if bitsAt 10 0 w = 10 ∧ bitsAt 1 31 w = 0 then some (.sltn (fieldAt 5 20 w) (fieldAt 5 15 w) (fieldAt 5 10 w))
  else if bitsAt 10 0 w = 11 ∧ bitsAt 1 31 w = 0 then some (.mul (fieldAt 5 20 w) (fieldAt 5 15 w) (fieldAt 5 10 w))
  else if bitsAt 10 0 w = 12 ∧ bitsAt 1 31 w = 0 then some (.mulh (fieldAt 5 20 w) (fieldAt 5 15 w) (fieldAt 5 10 w))
  else if bitsAt 10 0 w = 13 ∧ bitsAt 1 31 w = 0 then some (.div (fieldAt 5 20 w) (fieldAt 5 15 w) (fieldAt 5 10 w))
  else if bitsAt 10 0 w = 14 ∧ bitsAt 1 31 w = 0 then some (.divn (fieldAt 5 20 w) (fieldAt 5 15 w) (fieldAt 5 10 w))
  else if bitsAt 10 0 w = 15 ∧ bitsAt 1 31 w = 0 then some (.rem (fieldAt 5 20 w) (fieldAt 5 15 w) (fieldAt 5 10 w))
  else if bitsAt 10 0 w = 16 ∧ bitsAt 1 31 w = 0 then some (.remn (fieldAt 5 20 w) (fieldAt 5 15 w) (fieldAt 5 10 w))
  else if bitsAt 15 0 w = 17 ∧ bitsAt 1 31 w = 0 then some (.clz (fieldAt 5 20 w) (fieldAt 5 15 w))
  else if bitsAt 15 0 w = 18 ∧ bitsAt 1 31 w = 0 then some (.popc (fieldAt 5 20 w) (fieldAt 5 15 w))
  else if bitsAt 15 0 w = 19 ∧ bitsAt 1 31 w = 0 then some (.brev (fieldAt 5 20 w) (fieldAt 5 15 w))
  else none

/-- Major 0x02 (R141). -/
def decodeMajor02 (w : Nat) : Option Instr :=
  if bitsAt 3 12 w = 0 ∧ bitsAt 1 31 w = 0 then some (.addi (fieldAt 5 20 w) (fieldAt 5 15 w) (fieldAt 12 0 w))
  else if bitsAt 3 12 w = 1 ∧ bitsAt 1 31 w = 0 then some (.andi (fieldAt 5 20 w) (fieldAt 5 15 w) (fieldAt 12 0 w))
  else if bitsAt 3 12 w = 2 ∧ bitsAt 1 31 w = 0 then some (.ori (fieldAt 5 20 w) (fieldAt 5 15 w) (fieldAt 12 0 w))
  else if bitsAt 3 12 w = 3 ∧ bitsAt 1 31 w = 0 then some (.xori (fieldAt 5 20 w) (fieldAt 5 15 w) (fieldAt 12 0 w))
  else if bitsAt 9 6 w = 256 ∧ bitsAt 1 31 w = 0 then some (.slli (fieldAt 5 20 w) (fieldAt 5 15 w) (fieldAt 6 0 w))
  else if bitsAt 9 6 w = 320 ∧ bitsAt 1 31 w = 0 then some (.srli (fieldAt 5 20 w) (fieldAt 5 15 w) (fieldAt 6 0 w))
  else if bitsAt 9 6 w = 384 ∧ bitsAt 1 31 w = 0 then some (.srai (fieldAt 5 20 w) (fieldAt 5 15 w) (fieldAt 6 0 w))
  else if bitsAt 3 12 w = 7 ∧ bitsAt 1 31 w = 0 then some (.slti (fieldAt 5 20 w) (fieldAt 5 15 w) (fieldAt 12 0 w))
  else none

/-- Major 0x03 (R141). -/
def decodeMajor03 (w : Nat) : Option Instr :=
  if bitsAt 1 31 w = 0 then some (.lui (fieldAt 5 20 w) (fieldAt 20 0 w))
  else none

/-- Major 0x04 (R141). -/
def decodeMajor04 (w : Nat) : Option Instr :=
  if bitsAt 1 31 w = 0 then some (.addpc (fieldAt 5 20 w) (fieldAt 20 0 w))
  else none

/-- Major 0x08 (R141). -/
def decodeMajor08 (w : Nat) : Option Instr :=
  if bitsAt 3 12 w = 0 ∧ bitsAt 1 31 w = 0 then some (.lb (fieldAt 5 20 w) (fieldAt 5 15 w) (fieldAt 12 0 w))
  else if bitsAt 3 12 w = 1 ∧ bitsAt 1 31 w = 0 then some (.lh (fieldAt 5 20 w) (fieldAt 5 15 w) (fieldAt 12 0 w))
  else if bitsAt 3 12 w = 2 ∧ bitsAt 1 31 w = 0 then some (.lw (fieldAt 5 20 w) (fieldAt 5 15 w) (fieldAt 12 0 w))
  else if bitsAt 3 12 w = 3 ∧ bitsAt 1 31 w = 0 then some (.ld (fieldAt 5 20 w) (fieldAt 5 15 w) (fieldAt 12 0 w))
  else if bitsAt 3 12 w = 4 ∧ bitsAt 1 31 w = 0 then some (.lbn (fieldAt 5 20 w) (fieldAt 5 15 w) (fieldAt 12 0 w))
  else if bitsAt 3 12 w = 5 ∧ bitsAt 1 31 w = 0 then some (.lhn (fieldAt 5 20 w) (fieldAt 5 15 w) (fieldAt 12 0 w))
  else if bitsAt 3 12 w = 6 ∧ bitsAt 1 31 w = 0 then some (.lwn (fieldAt 5 20 w) (fieldAt 5 15 w) (fieldAt 12 0 w))
  else if bitsAt 3 12 w = 7 ∧ bitsAt 1 31 w = 0 then some (.lda (fieldAt 5 20 w) (fieldAt 5 15 w) (fieldAt 12 0 w))
  else none

/-- Major 0x09 (R141). -/
def decodeMajor09 (w : Nat) : Option Instr :=
  if bitsAt 3 12 w = 0 ∧ bitsAt 1 31 w = 0 then some (.sb (fieldAt 5 20 w) (fieldAt 5 15 w) (fieldAt 12 0 w))
  else if bitsAt 3 12 w = 1 ∧ bitsAt 1 31 w = 0 then some (.sh (fieldAt 5 20 w) (fieldAt 5 15 w) (fieldAt 12 0 w))
  else if bitsAt 3 12 w = 2 ∧ bitsAt 1 31 w = 0 then some (.sw (fieldAt 5 20 w) (fieldAt 5 15 w) (fieldAt 12 0 w))
  else if bitsAt 3 12 w = 3 ∧ bitsAt 1 31 w = 0 then some (.sd (fieldAt 5 20 w) (fieldAt 5 15 w) (fieldAt 12 0 w))
  else if bitsAt 3 12 w = 4 ∧ bitsAt 1 31 w = 0 then some (.sdr (fieldAt 5 20 w) (fieldAt 5 15 w) (fieldAt 12 0 w))
  else none

/-- Major 0x0A (R141). -/
def decodeMajor0a (w : Nat) : Option Instr :=
  if bitsAt 1 5 w = 0 ∧ bitsAt 2 8 w = 0 ∧ bitsAt 1 31 w = 0 then some (.amo (fieldAt 5 20 w) (fieldAt 5 15 w) (fieldAt 5 10 w) (fieldAt 2 6 w) (fieldAt 1 4 w) (fieldAt 4 0 w))
  else none

/-- Major 0x0C (R141). -/
def decodeMajor0c (w : Nat) : Option Instr :=
  if bitsAt 3 12 w = 0 ∧ bitsAt 1 31 w = 0 then some (.beq (fieldAt 5 20 w) (fieldAt 5 15 w) (fieldAt 12 0 w))
  else if bitsAt 3 12 w = 1 ∧ bitsAt 1 31 w = 0 then some (.bne (fieldAt 5 20 w) (fieldAt 5 15 w) (fieldAt 12 0 w))
  else if bitsAt 3 12 w = 2 ∧ bitsAt 1 31 w = 0 then some (.blt (fieldAt 5 20 w) (fieldAt 5 15 w) (fieldAt 12 0 w))
  else if bitsAt 3 12 w = 3 ∧ bitsAt 1 31 w = 0 then some (.bge (fieldAt 5 20 w) (fieldAt 5 15 w) (fieldAt 12 0 w))
  else if bitsAt 3 12 w = 4 ∧ bitsAt 1 31 w = 0 then some (.bltn (fieldAt 5 20 w) (fieldAt 5 15 w) (fieldAt 12 0 w))
  else if bitsAt 3 12 w = 5 ∧ bitsAt 1 31 w = 0 then some (.bgen (fieldAt 5 20 w) (fieldAt 5 15 w) (fieldAt 12 0 w))
  else none

/-- Major 0x0D (R141). -/
def decodeMajor0d (w : Nat) : Option Instr :=
  if bitsAt 1 31 w = 0 then some (.jal (fieldAt 5 20 w) (fieldAt 20 0 w))
  else none

/-- Major 0x0E (R141). -/
def decodeMajor0e (w : Nat) : Option Instr :=
  if bitsAt 3 12 w = 0 ∧ bitsAt 1 31 w = 0 then some (.jalr (fieldAt 5 20 w) (fieldAt 5 15 w) (fieldAt 12 0 w))
  else none

/-- Major 0x0F (R141). -/
def decodeMajor0f (w : Nat) : Option Instr :=
  if bitsAt 10 0 w = 0 ∧ bitsAt 1 31 w = 0 then some (.lnest (fieldAt 5 20 w) (fieldAt 5 15 w) (fieldAt 5 10 w))
  else if bitsAt 20 0 w = 1 ∧ bitsAt 1 31 w = 0 then some (.lbody (fieldAt 5 20 w))
  else if bitsAt 10 0 w = 2 ∧ bitsAt 5 20 w = 0 ∧ bitsAt 1 31 w = 0 then some (.lexit (fieldAt 5 15 w) (fieldAt 5 10 w))
  else none

/-- Major 0x10 (R141). -/
def decodeMajor10 (w : Nat) : Option Instr :=
  if bitsAt 3 0 w = 0 ∧ bitsAt 5 15 w = 0 ∧ bitsAt 1 31 w = 0 then some (.csrr (fieldAt 5 20 w) (fieldAt 12 3 w))
  else if bitsAt 3 0 w = 1 ∧ bitsAt 1 31 w = 0 then some (.csrw (fieldAt 5 20 w) (fieldAt 5 15 w) (fieldAt 12 3 w))
  else if bitsAt 3 0 w = 2 ∧ bitsAt 1 31 w = 0 then some (.csrs (fieldAt 5 20 w) (fieldAt 5 15 w) (fieldAt 12 3 w))
  else if bitsAt 3 0 w = 3 ∧ bitsAt 1 31 w = 0 then some (.csrc (fieldAt 5 20 w) (fieldAt 5 15 w) (fieldAt 12 3 w))
  else none

/-- Major 0x11 (R141). -/
def decodeMajor11 (w : Nat) : Option Instr :=
  if bitsAt 10 0 w = 0 ∧ bitsAt 1 31 w = 0 then some (.svc (fieldAt 15 10 w))
  else if bitsAt 25 0 w = 1 ∧ bitsAt 1 31 w = 0 then some (.eret)
  else if bitsAt 20 0 w = 2 ∧ bitsAt 1 31 w = 0 then some (.nap (fieldAt 5 20 w))
  else if bitsAt 15 0 w = 3 ∧ bitsAt 1 31 w = 0 then some (.wake (fieldAt 5 20 w) (fieldAt 5 15 w))
  else if bitsAt 25 0 w = 4 ∧ bitsAt 1 31 w = 0 then some (.yield)
  else if bitsAt 25 0 w = 5 ∧ bitsAt 1 31 w = 0 then some (.halt)
  else if bitsAt 10 0 w = 6 ∧ bitsAt 1 31 w = 0 then some (.bkpt (fieldAt 15 10 w))
  else if bitsAt 25 0 w = 7 ∧ bitsAt 1 31 w = 0 then some (.ifence)
  else if bitsAt 10 0 w = 8 ∧ bitsAt 5 20 w = 0 ∧ bitsAt 1 31 w = 0 then some (.raise (fieldAt 5 15 w) (fieldAt 5 10 w))
  else none

/-- Major 0x12 (R141). -/
def decodeMajor12 (w : Nat) : Option Instr :=
  if bitsAt 15 0 w = 0 ∧ bitsAt 1 31 w = 0 then some (.gjoin (fieldAt 5 20 w) (fieldAt 5 15 w))
  else if bitsAt 15 0 w = 1 ∧ bitsAt 1 31 w = 0 then some (.gleave (fieldAt 5 20 w) (fieldAt 5 15 w))
  else if bitsAt 15 0 w = 2 ∧ bitsAt 1 31 w = 0 then some (.barw (fieldAt 5 20 w) (fieldAt 5 15 w))
  else if bitsAt 15 0 w = 3 ∧ bitsAt 1 31 w = 0 then some (.bararv (fieldAt 5 20 w) (fieldAt 5 15 w))
  else if bitsAt 15 0 w = 4 ∧ bitsAt 1 31 w = 0 then some (.barrlx (fieldAt 5 20 w) (fieldAt 5 15 w))
  else if bitsAt 10 0 w = 5 ∧ bitsAt 1 31 w = 0 then some (.barwait (fieldAt 5 20 w) (fieldAt 5 15 w) (fieldAt 5 10 w))
  else if bitsAt 15 0 w = 6 ∧ bitsAt 1 31 w = 0 then some (.phend (fieldAt 5 20 w) (fieldAt 5 15 w))
  else if bitsAt 15 0 w = 7 ∧ bitsAt 1 31 w = 0 then some (.gsize (fieldAt 5 20 w) (fieldAt 5 15 w))
  else if bitsAt 20 0 w = 8 ∧ bitsAt 1 31 w = 0 then some (.tid (fieldAt 5 20 w))
  else none

/-- Major 0x13 (R141). -/
def decodeMajor13 (w : Nat) : Option Instr :=
  if bitsAt 10 0 w = 0 ∧ bitsAt 1 31 w = 0 then some (.spawn (fieldAt 5 20 w) (fieldAt 5 15 w) (fieldAt 5 10 w))
  else if bitsAt 15 0 w = 1 ∧ bitsAt 5 20 w = 0 ∧ bitsAt 1 31 w = 0 then some (.jdone (fieldAt 5 15 w))
  else if bitsAt 15 0 w = 2 ∧ bitsAt 1 31 w = 0 then some (.jstat (fieldAt 5 20 w) (fieldAt 5 15 w))
  else if bitsAt 10 0 w = 3 ∧ bitsAt 1 31 w = 0 then some (.jdeadl (fieldAt 5 20 w) (fieldAt 5 15 w) (fieldAt 5 10 w))
  else if bitsAt 20 0 w = 4 ∧ bitsAt 1 31 w = 0 then some (.ptpnow (fieldAt 5 20 w))
  else if bitsAt 10 0 w = 5 ∧ bitsAt 1 31 w = 0 then some (.chbind (fieldAt 5 20 w) (fieldAt 5 15 w) (fieldAt 5 10 w))
  else if bitsAt 10 0 w = 6 ∧ bitsAt 1 31 w = 0 then some (.chpub (fieldAt 5 20 w) (fieldAt 5 15 w) (fieldAt 5 10 w))
  else if bitsAt 15 0 w = 7 ∧ bitsAt 1 31 w = 0 then some (.chread (fieldAt 5 20 w) (fieldAt 5 15 w))
  else none

/-- Major 0x14 (R141). -/
def decodeMajor14 (w : Nat) : Option Instr :=
  if bitsAt 10 0 w = 0 ∧ bitsAt 10 15 w = 0 ∧ bitsAt 1 31 w = 0 then some (.fence (fieldAt 5 10 w))
  else if bitsAt 10 0 w = 1 ∧ bitsAt 5 20 w = 0 ∧ bitsAt 1 31 w = 0 then some (.fencee (fieldAt 5 15 w) (fieldAt 5 10 w))
  else if bitsAt 10 0 w = 2 ∧ bitsAt 11 14 w = 0 ∧ bitsAt 1 31 w = 0 then some (.qdrain (fieldAt 4 10 w))
  else if bitsAt 15 0 w = 3 ∧ bitsAt 5 20 w = 0 ∧ bitsAt 1 31 w = 0 then some (.winpub (fieldAt 5 15 w))
  else none

/-- Major 0x15 (R141). -/
def decodeMajor15 (w : Nat) : Option Instr :=
  if bitsAt 15 0 w = 0 ∧ bitsAt 1 31 w = 0 then some (.vcfg (fieldAt 5 20 w) (fieldAt 5 15 w))
  else if bitsAt 15 0 w = 1 ∧ bitsAt 1 31 w = 0 then some (.setvl (fieldAt 5 20 w) (fieldAt 5 15 w))
  else if bitsAt 15 0 w = 2 ∧ bitsAt 1 31 w = 0 then some (.vkeep (fieldAt 5 20 w) (fieldAt 5 15 w))
  else if bitsAt 15 0 w = 3 ∧ bitsAt 1 31 w = 0 then some (.vdead (fieldAt 5 20 w) (fieldAt 5 15 w))
  else if bitsAt 10 0 w = 4 ∧ bitsAt 1 31 w = 0 then some (.vlmaxr (fieldAt 5 20 w) (fieldAt 5 15 w) (fieldAt 5 10 w))
  else none

/-- Major 0x16 (R141). -/
def decodeMajor16 (w : Nat) : Option Instr :=
  some (.vindex (contBit w) (fieldAt 5 20 w) (fieldAt 5 15 w) (fieldAt 8 7 w) (fieldAt 7 0 w))

/-- Major 0x17 (R141). -/
def decodeMajor17 (w : Nat) : Option Instr :=
  if bitsAt 5 0 w = 0 then some (.pand (contBit w) (fieldAt 5 20 w) (fieldAt 5 15 w) (fieldAt 5 10 w) (fieldAt 5 5 w))
  else if bitsAt 5 0 w = 1 then some (.por (contBit w) (fieldAt 5 20 w) (fieldAt 5 15 w) (fieldAt 5 10 w) (fieldAt 5 5 w))
  else if bitsAt 5 0 w = 2 then some (.pxor (contBit w) (fieldAt 5 20 w) (fieldAt 5 15 w) (fieldAt 5 10 w) (fieldAt 5 5 w))
  else if bitsAt 5 0 w = 3 then some (.pandn (contBit w) (fieldAt 5 20 w) (fieldAt 5 15 w) (fieldAt 5 10 w) (fieldAt 5 5 w))
  else if bitsAt 5 0 w = 4 ∧ bitsAt 5 10 w = 0 then some (.pnot (contBit w) (fieldAt 5 20 w) (fieldAt 5 15 w) (fieldAt 5 5 w))
  else if bitsAt 5 0 w = 5 ∧ bitsAt 10 10 w = 0 then some (.pseta (contBit w) (fieldAt 5 20 w) (fieldAt 5 5 w))
  else if bitsAt 5 0 w = 6 ∧ bitsAt 5 10 w = 0 then some (.pfirst (contBit w) (fieldAt 5 20 w) (fieldAt 5 15 w) (fieldAt 5 5 w))
  else if bitsAt 5 0 w = 7 ∧ bitsAt 5 10 w = 0 then some (.ppopc (contBit w) (fieldAt 5 20 w) (fieldAt 5 15 w) (fieldAt 5 5 w))
  else if bitsAt 5 0 w = 8 ∧ bitsAt 5 10 w = 0 then some (.pscan (contBit w) (fieldAt 5 20 w) (fieldAt 5 15 w) (fieldAt 5 5 w))
  else if bitsAt 10 0 w = 9 ∧ bitsAt 1 14 w = 0 then some (.pmovl (contBit w) (fieldAt 5 20 w) (fieldAt 5 15 w) (fieldAt 4 10 w))
  else if bitsAt 10 0 w = 10 ∧ bitsAt 3 12 w = 0 then some (.pld (contBit w) (fieldAt 5 20 w) (fieldAt 5 15 w) (fieldAt 2 10 w))
  else if bitsAt 10 0 w = 11 ∧ bitsAt 3 12 w = 0 then some (.pst (contBit w) (fieldAt 5 20 w) (fieldAt 5 15 w) (fieldAt 2 10 w))
  else none

/-- Major 0x18 (R141). -/
def decodeMajor18 (w : Nat) : Option Instr :=
  if bitsAt 5 0 w = 0 ∧ bitsAt 5 10 w = 0 then some (.vld (contBit w) (fieldAt 5 20 w) (fieldAt 5 15 w) (fieldAt 5 5 w))
  else if bitsAt 5 0 w = 1 ∧ bitsAt 5 10 w = 0 ∧ bitsAt 1 31 w = 0 then some (.vldff (fieldAt 5 20 w) (fieldAt 5 15 w) (fieldAt 5 5 w))
  else none

/-- Major 0x19 (R141). -/
def decodeMajor19 (w : Nat) : Option Instr :=
  if bitsAt 5 0 w = 0 then some (.vlds (contBit w) (fieldAt 5 20 w) (fieldAt 5 15 w) (fieldAt 5 10 w) (fieldAt 5 5 w))
  else none

/-- Major 0x1A (R141). -/
def decodeMajor1a (w : Nat) : Option Instr :=
  if bitsAt 5 0 w = 0 then some (.vldx (contBit w) (fieldAt 5 20 w) (fieldAt 5 15 w) (fieldAt 5 10 w) (fieldAt 5 5 w))
  else none

/-- Major 0x1B (R141). -/
def decodeMajor1b (w : Nat) : Option Instr :=
  if bitsAt 5 0 w = 0 ∧ bitsAt 5 10 w = 0 then some (.vst (contBit w) (fieldAt 5 20 w) (fieldAt 5 15 w) (fieldAt 5 5 w))
  else if bitsAt 5 0 w = 1 then some (.vsts (contBit w) (fieldAt 5 20 w) (fieldAt 5 15 w) (fieldAt 5 10 w) (fieldAt 5 5 w))
  else if bitsAt 5 0 w = 2 then some (.vstx (contBit w) (fieldAt 5 20 w) (fieldAt 5 15 w) (fieldAt 5 10 w) (fieldAt 5 5 w))
  else if bitsAt 5 0 w = 3 then some (.vstxo (contBit w) (fieldAt 5 20 w) (fieldAt 5 15 w) (fieldAt 5 10 w) (fieldAt 5 5 w))
  else none

/-- Major 0x1C (R141). -/
def decodeMajor1c (w : Nat) : Option Instr :=
  if bitsAt 5 0 w = 0 then some (.vldbp (contBit w) (fieldAt 5 20 w) (fieldAt 5 15 w) (fieldAt 5 10 w) (fieldAt 5 5 w))
  else if bitsAt 5 0 w = 1 then some (.vstbp (contBit w) (fieldAt 5 20 w) (fieldAt 5 15 w) (fieldAt 5 10 w) (fieldAt 5 5 w))
  else none

/-- Major 0x1D (R141). -/
def decodeMajor1d (w : Nat) : Option Instr :=
  if bitsAt 5 0 w = 0 ∧ bitsAt 1 31 w = 0 then some (.vscatr (fieldAt 5 20 w) (fieldAt 5 15 w) (fieldAt 5 10 w) (fieldAt 5 5 w))
  else if bitsAt 5 0 w = 1 ∧ bitsAt 5 10 w = 0 ∧ bitsAt 1 31 w = 0 then some (.vputr (fieldAt 5 20 w) (fieldAt 5 15 w) (fieldAt 5 5 w))
  else none

/-- Major 0x1E (R141). -/
def decodeMajor1e (w : Nat) : Option Instr :=
  if bitsAt 5 0 w = 0 ∧ bitsAt 5 20 w = 0 ∧ bitsAt 1 31 w = 0 then some (.vappend (fieldAt 5 15 w) (fieldAt 5 10 w) (fieldAt 5 5 w))
  else if bitsAt 15 0 w = 1 ∧ bitsAt 1 31 w = 0 then some (.vqpop (fieldAt 5 20 w) (fieldAt 5 15 w))
  else none

/-- Major 0x20 (R141). -/
def decodeMajor20 (w : Nat) : Option Instr :=
  if bitsAt 5 0 w = 0 then some (.vadd (contBit w) (fieldAt 5 20 w) (fieldAt 5 15 w) (fieldAt 5 10 w) (fieldAt 5 5 w))
  else if bitsAt 5 0 w = 16 then some (.vaddVs (contBit w) (fieldAt 5 20 w) (fieldAt 5 15 w) (fieldAt 5 10 w) (fieldAt 5 5 w))
  else if bitsAt 5 0 w = 1 then some (.vsub (contBit w) (fieldAt 5 20 w) (fieldAt 5 15 w) (fieldAt 5 10 w) (fieldAt 5 5 w))
  else if bitsAt 5 0 w = 17 then some (.vsubVs (contBit w) (fieldAt 5 20 w) (fieldAt 5 15 w) (fieldAt 5 10 w) (fieldAt 5 5 w))
  else if bitsAt 5 0 w = 2 then some (.vrsub (contBit w) (fieldAt 5 20 w) (fieldAt 5 15 w) (fieldAt 5 10 w) (fieldAt 5 5 w))
  else if bitsAt 5 0 w = 18 then some (.vrsubVs (contBit w) (fieldAt 5 20 w) (fieldAt 5 15 w) (fieldAt 5 10 w) (fieldAt 5 5 w))
  else if bitsAt 5 0 w = 3 then some (.vmul (contBit w) (fieldAt 5 20 w) (fieldAt 5 15 w) (fieldAt 5 10 w) (fieldAt 5 5 w))
  else if bitsAt 5 0 w = 19 then some (.vmulVs (contBit w) (fieldAt 5 20 w) (fieldAt 5 15 w) (fieldAt 5 10 w) (fieldAt 5 5 w))
  else if bitsAt 5 0 w = 4 then some (.vmulh (contBit w) (fieldAt 5 20 w) (fieldAt 5 15 w) (fieldAt 5 10 w) (fieldAt 5 5 w))
  else if bitsAt 5 0 w = 20 then some (.vmulhVs (contBit w) (fieldAt 5 20 w) (fieldAt 5 15 w) (fieldAt 5 10 w) (fieldAt 5 5 w))
  else if bitsAt 5 0 w = 5 then some (.vmulhn (contBit w) (fieldAt 5 20 w) (fieldAt 5 15 w) (fieldAt 5 10 w) (fieldAt 5 5 w))
  else if bitsAt 5 0 w = 21 then some (.vmulhnVs (contBit w) (fieldAt 5 20 w) (fieldAt 5 15 w) (fieldAt 5 10 w) (fieldAt 5 5 w))
  else if bitsAt 5 0 w = 6 then some (.vmin (contBit w) (fieldAt 5 20 w) (fieldAt 5 15 w) (fieldAt 5 10 w) (fieldAt 5 5 w))
  else if bitsAt 5 0 w = 22 then some (.vminVs (contBit w) (fieldAt 5 20 w) (fieldAt 5 15 w) (fieldAt 5 10 w) (fieldAt 5 5 w))
  else if bitsAt 5 0 w = 7 then some (.vmax (contBit w) (fieldAt 5 20 w) (fieldAt 5 15 w) (fieldAt 5 10 w) (fieldAt 5 5 w))
  else if bitsAt 5 0 w = 23 then some (.vmaxVs (contBit w) (fieldAt 5 20 w) (fieldAt 5 15 w) (fieldAt 5 10 w) (fieldAt 5 5 w))
  else if bitsAt 5 0 w = 8 then some (.vminn (contBit w) (fieldAt 5 20 w) (fieldAt 5 15 w) (fieldAt 5 10 w) (fieldAt 5 5 w))
  else if bitsAt 5 0 w = 24 then some (.vminnVs (contBit w) (fieldAt 5 20 w) (fieldAt 5 15 w) (fieldAt 5 10 w) (fieldAt 5 5 w))
  else if bitsAt 5 0 w = 9 then some (.vmaxn (contBit w) (fieldAt 5 20 w) (fieldAt 5 15 w) (fieldAt 5 10 w) (fieldAt 5 5 w))
  else if bitsAt 5 0 w = 25 then some (.vmaxnVs (contBit w) (fieldAt 5 20 w) (fieldAt 5 15 w) (fieldAt 5 10 w) (fieldAt 5 5 w))
  else if bitsAt 5 0 w = 10 then some (.vand (contBit w) (fieldAt 5 20 w) (fieldAt 5 15 w) (fieldAt 5 10 w) (fieldAt 5 5 w))
  else if bitsAt 5 0 w = 26 then some (.vandVs (contBit w) (fieldAt 5 20 w) (fieldAt 5 15 w) (fieldAt 5 10 w) (fieldAt 5 5 w))
  else if bitsAt 5 0 w = 11 then some (.vor (contBit w) (fieldAt 5 20 w) (fieldAt 5 15 w) (fieldAt 5 10 w) (fieldAt 5 5 w))
  else if bitsAt 5 0 w = 27 then some (.vorVs (contBit w) (fieldAt 5 20 w) (fieldAt 5 15 w) (fieldAt 5 10 w) (fieldAt 5 5 w))
  else if bitsAt 5 0 w = 12 then some (.vxor (contBit w) (fieldAt 5 20 w) (fieldAt 5 15 w) (fieldAt 5 10 w) (fieldAt 5 5 w))
  else if bitsAt 5 0 w = 28 then some (.vxorVs (contBit w) (fieldAt 5 20 w) (fieldAt 5 15 w) (fieldAt 5 10 w) (fieldAt 5 5 w))
  else if bitsAt 5 0 w = 13 then some (.vsll (contBit w) (fieldAt 5 20 w) (fieldAt 5 15 w) (fieldAt 5 10 w) (fieldAt 5 5 w))
  else if bitsAt 5 0 w = 29 then some (.vsllVs (contBit w) (fieldAt 5 20 w) (fieldAt 5 15 w) (fieldAt 5 10 w) (fieldAt 5 5 w))
  else if bitsAt 5 0 w = 14 then some (.vsrl (contBit w) (fieldAt 5 20 w) (fieldAt 5 15 w) (fieldAt 5 10 w) (fieldAt 5 5 w))
  else if bitsAt 5 0 w = 30 then some (.vsrlVs (contBit w) (fieldAt 5 20 w) (fieldAt 5 15 w) (fieldAt 5 10 w) (fieldAt 5 5 w))
  else if bitsAt 5 0 w = 15 then some (.vsra (contBit w) (fieldAt 5 20 w) (fieldAt 5 15 w) (fieldAt 5 10 w) (fieldAt 5 5 w))
  else if bitsAt 5 0 w = 31 then some (.vsraVs (contBit w) (fieldAt 5 20 w) (fieldAt 5 15 w) (fieldAt 5 10 w) (fieldAt 5 5 w))
  else none

/-- Major 0x21 (R141). -/
def decodeMajor21 (w : Nat) : Option Instr :=
  if bitsAt 1 4 w = 0 then some (.vcmp (contBit w) (fieldAt 5 20 w) (fieldAt 5 15 w) (fieldAt 5 10 w) (fieldAt 5 5 w) (fieldAt 4 0 w))
  else if bitsAt 1 4 w = 1 then some (.vcmpVs (contBit w) (fieldAt 5 20 w) (fieldAt 5 15 w) (fieldAt 5 10 w) (fieldAt 5 5 w) (fieldAt 4 0 w))
  else none

/-- Major 0x22 (R141). -/
def decodeMajor22 (w : Nat) : Option Instr :=
  if bitsAt 5 0 w = 0 then some (.vqadd (contBit w) (fieldAt 5 20 w) (fieldAt 5 15 w) (fieldAt 5 10 w) (fieldAt 5 5 w))
  else if bitsAt 5 0 w = 16 then some (.vqaddVs (contBit w) (fieldAt 5 20 w) (fieldAt 5 15 w) (fieldAt 5 10 w) (fieldAt 5 5 w))
  else if bitsAt 5 0 w = 1 then some (.vqsub (contBit w) (fieldAt 5 20 w) (fieldAt 5 15 w) (fieldAt 5 10 w) (fieldAt 5 5 w))
  else if bitsAt 5 0 w = 17 then some (.vqsubVs (contBit w) (fieldAt 5 20 w) (fieldAt 5 15 w) (fieldAt 5 10 w) (fieldAt 5 5 w))
  else if bitsAt 5 0 w = 2 then some (.vqmul (contBit w) (fieldAt 5 20 w) (fieldAt 5 15 w) (fieldAt 5 10 w) (fieldAt 5 5 w))
  else if bitsAt 5 0 w = 18 then some (.vqmulVs (contBit w) (fieldAt 5 20 w) (fieldAt 5 15 w) (fieldAt 5 10 w) (fieldAt 5 5 w))
  else if bitsAt 5 0 w = 3 then some (.vshrrnd (contBit w) (fieldAt 5 20 w) (fieldAt 5 15 w) (fieldAt 5 10 w) (fieldAt 5 5 w))
  else if bitsAt 5 0 w = 19 then some (.vshrrndVs (contBit w) (fieldAt 5 20 w) (fieldAt 5 15 w) (fieldAt 5 10 w) (fieldAt 5 5 w))
  else if bitsAt 5 0 w = 4 then some (.vsatn (contBit w) (fieldAt 5 20 w) (fieldAt 5 15 w) (fieldAt 5 10 w) (fieldAt 5 5 w))
  else if bitsAt 5 0 w = 20 then some (.vsatnVs (contBit w) (fieldAt 5 20 w) (fieldAt 5 15 w) (fieldAt 5 10 w) (fieldAt 5 5 w))
  else if bitsAt 5 0 w = 5 ∧ bitsAt 5 10 w = 0 then some (.vhead (contBit w) (fieldAt 5 20 w) (fieldAt 5 15 w) (fieldAt 5 5 w))
  else if bitsAt 5 0 w = 6 ∧ bitsAt 5 10 w = 0 then some (.vqneg (contBit w) (fieldAt 5 20 w) (fieldAt 5 15 w) (fieldAt 5 5 w))
  else if bitsAt 5 0 w = 7 ∧ bitsAt 5 10 w = 0 then some (.vqabs (contBit w) (fieldAt 5 20 w) (fieldAt 5 15 w) (fieldAt 5 5 w))
  else none

/-- Major 0x23 (R141). -/
def decodeMajor23 (w : Nat) : Option Instr :=
  if bitsAt 5 0 w = 0 then some (.vfadd (contBit w) (fieldAt 5 20 w) (fieldAt 5 15 w) (fieldAt 5 10 w) (fieldAt 5 5 w))
  else if bitsAt 5 0 w = 16 then some (.vfaddVs (contBit w) (fieldAt 5 20 w) (fieldAt 5 15 w) (fieldAt 5 10 w) (fieldAt 5 5 w))
  else if bitsAt 5 0 w = 1 then some (.vfsub (contBit w) (fieldAt 5 20 w) (fieldAt 5 15 w) (fieldAt 5 10 w) (fieldAt 5 5 w))
  else if bitsAt 5 0 w = 17 then some (.vfsubVs (contBit w) (fieldAt 5 20 w) (fieldAt 5 15 w) (fieldAt 5 10 w) (fieldAt 5 5 w))
  else if bitsAt 5 0 w = 2 then some (.vfmul (contBit w) (fieldAt 5 20 w) (fieldAt 5 15 w) (fieldAt 5 10 w) (fieldAt 5 5 w))
  else if bitsAt 5 0 w = 18 then some (.vfmulVs (contBit w) (fieldAt 5 20 w) (fieldAt 5 15 w) (fieldAt 5 10 w) (fieldAt 5 5 w))
  else if bitsAt 5 0 w = 3 then some (.vfdiv (contBit w) (fieldAt 5 20 w) (fieldAt 5 15 w) (fieldAt 5 10 w) (fieldAt 5 5 w))
  else if bitsAt 5 0 w = 19 then some (.vfdivVs (contBit w) (fieldAt 5 20 w) (fieldAt 5 15 w) (fieldAt 5 10 w) (fieldAt 5 5 w))
  else if bitsAt 5 0 w = 4 then some (.vfmin (contBit w) (fieldAt 5 20 w) (fieldAt 5 15 w) (fieldAt 5 10 w) (fieldAt 5 5 w))
  else if bitsAt 5 0 w = 20 then some (.vfminVs (contBit w) (fieldAt 5 20 w) (fieldAt 5 15 w) (fieldAt 5 10 w) (fieldAt 5 5 w))
  else if bitsAt 5 0 w = 5 then some (.vfmax (contBit w) (fieldAt 5 20 w) (fieldAt 5 15 w) (fieldAt 5 10 w) (fieldAt 5 5 w))
  else if bitsAt 5 0 w = 21 then some (.vfmaxVs (contBit w) (fieldAt 5 20 w) (fieldAt 5 15 w) (fieldAt 5 10 w) (fieldAt 5 5 w))
  else if bitsAt 5 0 w = 6 then some (.vfma (contBit w) (fieldAt 5 20 w) (fieldAt 5 15 w) (fieldAt 5 10 w) (fieldAt 5 5 w))
  else if bitsAt 5 0 w = 22 then some (.vfmaVs (contBit w) (fieldAt 5 20 w) (fieldAt 5 15 w) (fieldAt 5 10 w) (fieldAt 5 5 w))
  else if bitsAt 5 0 w = 7 then some (.vfms (contBit w) (fieldAt 5 20 w) (fieldAt 5 15 w) (fieldAt 5 10 w) (fieldAt 5 5 w))
  else if bitsAt 5 0 w = 23 then some (.vfmsVs (contBit w) (fieldAt 5 20 w) (fieldAt 5 15 w) (fieldAt 5 10 w) (fieldAt 5 5 w))
  else if bitsAt 5 0 w = 8 then some (.vfnma (contBit w) (fieldAt 5 20 w) (fieldAt 5 15 w) (fieldAt 5 10 w) (fieldAt 5 5 w))
  else if bitsAt 5 0 w = 24 then some (.vfnmaVs (contBit w) (fieldAt 5 20 w) (fieldAt 5 15 w) (fieldAt 5 10 w) (fieldAt 5 5 w))
  else if bitsAt 5 0 w = 9 then some (.vfclamp (contBit w) (fieldAt 5 20 w) (fieldAt 5 15 w) (fieldAt 5 10 w) (fieldAt 5 5 w))
  else if bitsAt 5 0 w = 25 then some (.vfclampVs (contBit w) (fieldAt 5 20 w) (fieldAt 5 15 w) (fieldAt 5 10 w) (fieldAt 5 5 w))
  else if bitsAt 5 0 w = 10 ∧ bitsAt 5 10 w = 0 then some (.vfsqrt (contBit w) (fieldAt 5 20 w) (fieldAt 5 15 w) (fieldAt 5 5 w))
  else if bitsAt 5 0 w = 11 ∧ bitsAt 5 10 w = 0 then some (.vfabs (contBit w) (fieldAt 5 20 w) (fieldAt 5 15 w) (fieldAt 5 5 w))
  else if bitsAt 5 0 w = 12 ∧ bitsAt 5 10 w = 0 then some (.vfneg (contBit w) (fieldAt 5 20 w) (fieldAt 5 15 w) (fieldAt 5 5 w))
  else none

/-- Major 0x24 (R141). -/
def decodeMajor24 (w : Nat) : Option Instr :=
  if bitsAt 5 0 w = 0 ∧ bitsAt 1 14 w = 0 then some (.vcvt (contBit w) (fieldAt 5 20 w) (fieldAt 5 15 w) (fieldAt 4 10 w) (fieldAt 5 5 w))
  else if bitsAt 5 0 w = 1 ∧ bitsAt 1 14 w = 0 then some (.vwiden (contBit w) (fieldAt 5 20 w) (fieldAt 5 15 w) (fieldAt 4 10 w) (fieldAt 5 5 w))
  else if bitsAt 5 0 w = 2 ∧ bitsAt 1 14 w = 0 then some (.vnarrow (contBit w) (fieldAt 5 20 w) (fieldAt 5 15 w) (fieldAt 4 10 w) (fieldAt 5 5 w))
  else none

/-- Major 0x25 (R141). -/
def decodeMajor25 (w : Nat) : Option Instr :=
  if bitsAt 5 0 w = 0 ∧ bitsAt 5 10 w = 0 then some (.vabs (contBit w) (fieldAt 5 20 w) (fieldAt 5 15 w) (fieldAt 5 5 w))
  else if bitsAt 5 0 w = 1 ∧ bitsAt 5 10 w = 0 then some (.vneg (contBit w) (fieldAt 5 20 w) (fieldAt 5 15 w) (fieldAt 5 5 w))
  else if bitsAt 5 0 w = 2 ∧ bitsAt 5 10 w = 0 then some (.vclz (contBit w) (fieldAt 5 20 w) (fieldAt 5 15 w) (fieldAt 5 5 w))
  else if bitsAt 5 0 w = 3 ∧ bitsAt 5 10 w = 0 then some (.vpopc (contBit w) (fieldAt 5 20 w) (fieldAt 5 15 w) (fieldAt 5 5 w))
  else if bitsAt 5 0 w = 4 ∧ bitsAt 5 10 w = 0 then some (.vmov (contBit w) (fieldAt 5 20 w) (fieldAt 5 15 w) (fieldAt 5 5 w))
  else if bitsAt 5 0 w = 5 ∧ bitsAt 5 15 w = 0 then some (.vmovs (contBit w) (fieldAt 5 20 w) (fieldAt 5 10 w) (fieldAt 5 5 w))
  else if bitsAt 10 0 w = 6 then some (.vmovx (contBit w) (fieldAt 5 20 w) (fieldAt 5 15 w) (fieldAt 5 10 w))
  else if bitsAt 10 0 w = 7 then some (.vins (contBit w) (fieldAt 5 20 w) (fieldAt 5 15 w) (fieldAt 5 10 w))
  else none

/-- Major 0x26 (R141). -/
def decodeMajor26 (w : Nat) : Option Instr :=
  if bitsAt 5 0 w = 0 then some (.vsel (contBit w) (fieldAt 5 20 w) (fieldAt 5 15 w) (fieldAt 5 10 w) (fieldAt 5 5 w))
  else if bitsAt 5 0 w = 1 ∧ bitsAt 5 10 w = 0 then some (.vcompr (contBit w) (fieldAt 5 20 w) (fieldAt 5 15 w) (fieldAt 5 5 w))
  else if bitsAt 5 0 w = 2 ∧ bitsAt 5 10 w = 0 then some (.vexpnd (contBit w) (fieldAt 5 20 w) (fieldAt 5 15 w) (fieldAt 5 5 w))
  else if bitsAt 5 0 w = 3 then some (.vslideup (contBit w) (fieldAt 5 20 w) (fieldAt 5 15 w) (fieldAt 5 10 w) (fieldAt 5 5 w))
  else if bitsAt 5 0 w = 4 then some (.vslidedn (contBit w) (fieldAt 5 20 w) (fieldAt 5 15 w) (fieldAt 5 10 w) (fieldAt 5 5 w))
  else if bitsAt 5 0 w = 5 ∧ bitsAt 5 10 w = 0 then some (.vrev (contBit w) (fieldAt 5 20 w) (fieldAt 5 15 w) (fieldAt 5 5 w))
  else none

/-- Major 0x28 (R141). -/
def decodeMajor28 (w : Nat) : Option Instr :=
  if bitsAt 5 0 w = 0 ∧ bitsAt 1 14 w = 0 then some (.vred (contBit w) (fieldAt 5 20 w) (fieldAt 5 15 w) (fieldAt 1 13 w) (fieldAt 3 10 w) (fieldAt 5 5 w))
  else if bitsAt 5 0 w = 1 ∧ bitsAt 1 14 w = 0 then some (.vfred (contBit w) (fieldAt 5 20 w) (fieldAt 5 15 w) (fieldAt 1 13 w) (fieldAt 3 10 w) (fieldAt 5 5 w))
  else if bitsAt 5 0 w = 2 ∧ bitsAt 1 14 w = 0 then some (.vcred (contBit w) (fieldAt 5 20 w) (fieldAt 5 15 w) (fieldAt 1 13 w) (fieldAt 3 10 w) (fieldAt 5 5 w))
  else none

/-- Major 0x2C (R141). -/
def decodeMajor2c (w : Nat) : Option Instr :=
  if bitsAt 5 0 w = 0 then some (.vcadd (contBit w) (fieldAt 5 20 w) (fieldAt 5 15 w) (fieldAt 5 10 w) (fieldAt 5 5 w))
  else if bitsAt 5 0 w = 16 then some (.vcaddVs (contBit w) (fieldAt 5 20 w) (fieldAt 5 15 w) (fieldAt 5 10 w) (fieldAt 5 5 w))
  else if bitsAt 5 0 w = 1 then some (.vcsub (contBit w) (fieldAt 5 20 w) (fieldAt 5 15 w) (fieldAt 5 10 w) (fieldAt 5 5 w))
  else if bitsAt 5 0 w = 17 then some (.vcsubVs (contBit w) (fieldAt 5 20 w) (fieldAt 5 15 w) (fieldAt 5 10 w) (fieldAt 5 5 w))
  else if bitsAt 3 0 w = 2 ∧ bitsAt 1 4 w = 0 then some (.vcmul (contBit w) (fieldAt 5 20 w) (fieldAt 5 15 w) (fieldAt 5 10 w) (fieldAt 5 5 w) (fieldAt 1 3 w))
  else if bitsAt 3 0 w = 2 ∧ bitsAt 1 4 w = 1 then some (.vcmulVs (contBit w) (fieldAt 5 20 w) (fieldAt 5 15 w) (fieldAt 5 10 w) (fieldAt 5 5 w) (fieldAt 1 3 w))
  else if bitsAt 3 0 w = 3 ∧ bitsAt 1 4 w = 0 then some (.vcmac (contBit w) (fieldAt 5 20 w) (fieldAt 5 15 w) (fieldAt 5 10 w) (fieldAt 5 5 w) (fieldAt 1 3 w))
  else if bitsAt 3 0 w = 3 ∧ bitsAt 1 4 w = 1 then some (.vcmacVs (contBit w) (fieldAt 5 20 w) (fieldAt 5 15 w) (fieldAt 5 10 w) (fieldAt 5 5 w) (fieldAt 1 3 w))
  else if bitsAt 5 0 w = 4 ∧ bitsAt 5 10 w = 0 then some (.vcmag2 (contBit w) (fieldAt 5 20 w) (fieldAt 5 15 w) (fieldAt 5 5 w))
  else if bitsAt 5 0 w = 5 then some (.vcscl (contBit w) (fieldAt 5 20 w) (fieldAt 5 15 w) (fieldAt 5 10 w) (fieldAt 5 5 w))
  else if bitsAt 5 0 w = 21 then some (.vcsclVs (contBit w) (fieldAt 5 20 w) (fieldAt 5 15 w) (fieldAt 5 10 w) (fieldAt 5 5 w))
  else if bitsAt 3 0 w = 6 ∧ bitsAt 1 4 w = 0 ∧ bitsAt 5 10 w = 0 then some (.vcrot (contBit w) (fieldAt 5 20 w) (fieldAt 5 15 w) (fieldAt 5 5 w) (fieldAt 1 3 w))
  else if bitsAt 5 0 w = 7 ∧ bitsAt 5 10 w = 0 then some (.vcconj (contBit w) (fieldAt 5 20 w) (fieldAt 5 15 w) (fieldAt 5 5 w))
  else none

/-- Major 0x2D (R141). -/
def decodeMajor2d (w : Nat) : Option Instr :=
  if bitsAt 5 0 w = 0 then some (.vbfly2 (contBit w) (fieldAt 5 20 w) (fieldAt 5 15 w) (fieldAt 5 10 w) (fieldAt 5 5 w))
  else if bitsAt 5 0 w = 1 then some (.vbfly4 (contBit w) (fieldAt 5 20 w) (fieldAt 5 15 w) (fieldAt 5 10 w) (fieldAt 5 5 w))
  else if bitsAt 5 0 w = 2 ∧ bitsAt 5 10 w = 0 then some (.vbitrev (contBit w) (fieldAt 5 20 w) (fieldAt 5 15 w) (fieldAt 5 5 w))
  else if bitsAt 5 0 w = 3 then some (.vbperm (contBit w) (fieldAt 5 20 w) (fieldAt 5 15 w) (fieldAt 5 10 w) (fieldAt 5 5 w))
  else if bitsAt 5 0 w = 4 then some (.vbgath (contBit w) (fieldAt 5 20 w) (fieldAt 5 15 w) (fieldAt 5 10 w) (fieldAt 5 5 w))
  else if bitsAt 5 0 w = 5 then some (.vintlv (contBit w) (fieldAt 5 20 w) (fieldAt 5 15 w) (fieldAt 5 10 w) (fieldAt 5 5 w))
  else if bitsAt 5 0 w = 6 then some (.vdintlv (contBit w) (fieldAt 5 20 w) (fieldAt 5 15 w) (fieldAt 5 10 w) (fieldAt 5 5 w))
  else if bitsAt 5 0 w = 7 then some (.vrotz (contBit w) (fieldAt 5 20 w) (fieldAt 5 15 w) (fieldAt 5 10 w) (fieldAt 5 5 w))
  else if bitsAt 5 0 w = 8 then some (.vgold (contBit w) (fieldAt 5 20 w) (fieldAt 5 15 w) (fieldAt 5 10 w) (fieldAt 5 5 w))
  else if bitsAt 5 0 w = 9 then some (.vllrpk (contBit w) (fieldAt 5 20 w) (fieldAt 5 15 w) (fieldAt 5 10 w) (fieldAt 5 5 w))
  else none

/-- Major 0x2E (R141). -/
def decodeMajor2e (w : Nat) : Option Instr :=
  if bitsAt 5 0 w = 0 then some (.vperm (contBit w) (fieldAt 5 20 w) (fieldAt 5 15 w) (fieldAt 5 10 w) (fieldAt 5 5 w))
  else if bitsAt 10 0 w = 1 then some (.vpermb (contBit w) (fieldAt 5 20 w) (fieldAt 5 15 w) (fieldAt 5 10 w))
  else if bitsAt 15 0 w = 2 then some (.vxchg (contBit w) (fieldAt 5 20 w) (fieldAt 5 15 w))
  else if bitsAt 5 0 w = 3 then some (.vzip (contBit w) (fieldAt 5 20 w) (fieldAt 5 15 w) (fieldAt 5 10 w) (fieldAt 5 5 w))
  else if bitsAt 5 0 w = 4 then some (.vunzip (contBit w) (fieldAt 5 20 w) (fieldAt 5 15 w) (fieldAt 5 10 w) (fieldAt 5 5 w))
  else none

/-- Major 0x2F (R141). -/
def decodeMajor2f (w : Nat) : Option Instr :=
  if bitsAt 5 0 w = 0 ∧ bitsAt 5 10 w = 0 then some (.vscget (contBit w) (fieldAt 5 20 w) (fieldAt 5 15 w) (fieldAt 5 5 w))
  else if bitsAt 5 0 w = 1 then some (.vscset (contBit w) (fieldAt 5 20 w) (fieldAt 5 15 w) (fieldAt 5 10 w) (fieldAt 5 5 w))
  else if bitsAt 5 0 w = 2 ∧ bitsAt 5 10 w = 0 then some (.vscnorm (contBit w) (fieldAt 5 20 w) (fieldAt 5 15 w) (fieldAt 5 5 w))
  else none

/-- Major 0x30 (R141). -/
noncomputable def decodeMajor30 (w : Nat) : Option Instr :=
  if bitsAt 5 0 w = 0 ∧ bitsAt 5 10 w = 0 then some (.vgjstep (contBit w) (fieldAt 5 20 w) (fieldAt 5 15 w) (fieldAt 5 5 w))
  else if bitsAt 5 0 w = 1 then some (.vbsolve (contBit w) (fieldAt 5 20 w) (fieldAt 5 15 w) (fieldAt 5 10 w) (fieldAt 5 5 w))
  else if bitsAt 5 0 w = 2 then some (.vnsstep (contBit w) (fieldAt 5 20 w) (fieldAt 5 15 w) (fieldAt 5 10 w) (fieldAt 5 5 w))
  else if bitsAt 5 0 w = 3 then some (.vwstag (contBit w) (fieldAt 5 20 w) (fieldAt 5 15 w) (fieldAt 5 10 w) (fieldAt 5 5 w))
  else none

/-- Major 0x38 (R141). -/
noncomputable def decodeMajor38 (w : Nat) : Option Instr :=
  if bitsAt 11 0 w = 0 ∧ bitsAt 1 31 w = 0 then some (.mma (fieldAt 4 21 w) (fieldAt 5 16 w) (fieldAt 5 11 w))
  else if bitsAt 6 0 w = 1 ∧ bitsAt 1 31 w = 0 then some (.mmas (fieldAt 4 21 w) (fieldAt 5 16 w) (fieldAt 5 11 w) (fieldAt 5 6 w))
  else if bitsAt 21 0 w = 2 ∧ bitsAt 1 31 w = 0 then some (.mzero (fieldAt 4 21 w))
  else none

/-- Major 0x39 (R141). -/
noncomputable def decodeMajor39 (w : Nat) : Option Instr :=
  if bitsAt 6 0 w = 0 ∧ bitsAt 1 31 w = 0 then some (.atov (fieldAt 4 21 w) (fieldAt 5 16 w) (fieldAt 5 11 w) (fieldAt 5 6 w))
  else if bitsAt 6 0 w = 1 ∧ bitsAt 1 31 w = 0 then some (.vtoa (fieldAt 4 21 w) (fieldAt 5 16 w) (fieldAt 5 11 w) (fieldAt 5 6 w))
  else if bitsAt 11 0 w = 2 ∧ bitsAt 5 16 w = 0 ∧ bitsAt 1 31 w = 0 then some (.ald (fieldAt 4 21 w) (fieldAt 5 11 w))
  else if bitsAt 11 0 w = 3 ∧ bitsAt 5 16 w = 0 ∧ bitsAt 1 31 w = 0 then some (.ast (fieldAt 4 21 w) (fieldAt 5 11 w))
  else if bitsAt 11 0 w = 4 ∧ bitsAt 5 16 w = 0 ∧ bitsAt 1 31 w = 0 then some (.asave (fieldAt 4 21 w) (fieldAt 5 11 w))
  else if bitsAt 11 0 w = 5 ∧ bitsAt 5 16 w = 0 ∧ bitsAt 1 31 w = 0 then some (.arst (fieldAt 4 21 w) (fieldAt 5 11 w))
  else none

/-- Major 0x3A (R141). -/
noncomputable def decodeMajor3a (w : Nat) : Option Instr :=
  if bitsAt 11 0 w = 0 ∧ bitsAt 4 21 w = 0 ∧ bitsAt 1 31 w = 0 then some (.cbld (fieldAt 5 16 w) (fieldAt 5 11 w))
  else if bitsAt 6 0 w = 1 ∧ bitsAt 4 21 w = 0 ∧ bitsAt 1 31 w = 0 then some (.cbfill (fieldAt 5 16 w) (fieldAt 5 11 w) (fieldAt 5 6 w))
  else none

/-- Major 0x3C (R141). -/
noncomputable def decodeMajor3c (w : Nat) : Option Instr :=
  if bitsAt 15 0 w = 0 ∧ bitsAt 1 31 w = 0 then some (.ecpy (fieldAt 5 20 w) (fieldAt 5 15 w))
  else if bitsAt 10 0 w = 1 ∧ bitsAt 1 31 w = 0 then some (.eldpc (fieldAt 5 20 w) (fieldAt 5 15 w) (fieldAt 5 10 w))
  else if bitsAt 10 0 w = 2 ∧ bitsAt 1 31 w = 0 then some (.epolar (fieldAt 5 20 w) (fieldAt 5 15 w) (fieldAt 5 10 w))
  else if bitsAt 10 0 w = 3 ∧ bitsAt 1 31 w = 0 then some (.eenc (fieldAt 5 20 w) (fieldAt 5 15 w) (fieldAt 5 10 w))
  else if bitsAt 10 0 w = 4 ∧ bitsAt 1 31 w = 0 then some (.edge (fieldAt 5 20 w) (fieldAt 5 15 w) (fieldAt 5 10 w))
  else if bitsAt 15 0 w = 5 ∧ bitsAt 1 31 w = 0 then some (.ewait (fieldAt 5 20 w) (fieldAt 5 15 w))
  else if bitsAt 15 0 w = 6 ∧ bitsAt 1 31 w = 0 then some (.estat (fieldAt 5 20 w) (fieldAt 5 15 w))
  else if bitsAt 15 0 w = 7 ∧ bitsAt 1 31 w = 0 then some (.ecancel (fieldAt 5 20 w) (fieldAt 5 15 w))
  else none

/-- Major 0x3D (R141). -/
noncomputable def decodeMajor3d (w : Nat) : Option Instr :=
  if bitsAt 25 0 w = 12 ∧ bitsAt 1 31 w = 0 then some (.wmerge)
  else if bitsAt 25 0 w = 13 ∧ bitsAt 1 31 w = 0 then some (.wfree)
  else if bitsAt 10 0 w = 10 ∧ bitsAt 5 20 w = 0 ∧ bitsAt 1 31 w = 0 then some (.wdecl (fieldAt 5 15 w) (fieldAt 5 10 w))
  else if bitsAt 10 0 w = 17 ∧ bitsAt 5 15 w = 0 ∧ bitsAt 1 31 w = 0 then some (.rfree (fieldAt 5 20 w) (fieldAt 5 10 w))
  else if bitsAt 10 0 w = 14 ∧ bitsAt 1 31 w = 0 then some (.rinst (fieldAt 5 20 w) (fieldAt 5 15 w) (fieldAt 5 10 w))
  else if bitsAt 10 0 w = 15 ∧ bitsAt 1 31 w = 0 then some (.rcall (fieldAt 5 20 w) (fieldAt 5 15 w) (fieldAt 5 10 w))
  else if bitsAt 5 0 w = 11 ∧ bitsAt 1 31 w = 0 then some (.wupd (fieldAt 5 20 w) (fieldAt 5 15 w) (fieldAt 5 10 w) (fieldAt 5 5 w))
  else if bitsAt 5 0 w = 16 ∧ bitsAt 1 31 w = 0 then some (.rcallv (fieldAt 5 20 w) (fieldAt 5 15 w) (fieldAt 5 10 w) (fieldAt 5 5 w))
  else if bitsAt 1 4 w = 0 ∧ bitsAt 1 31 w = 0 then some (.vamo (fieldAt 5 20 w) (fieldAt 5 15 w) (fieldAt 5 10 w) (fieldAt 5 5 w) (fieldAt 4 0 w))
  else none

/-- Major 0x3E (R141). -/
noncomputable def decodeMajor3e (w : Nat) : Option Instr :=
  if bitsAt 10 0 w = 0 ∧ bitsAt 1 31 w = 0 then some (.twset (fieldAt 5 20 w) (fieldAt 5 15 w) (fieldAt 5 10 w))
  else if bitsAt 10 0 w = 1 ∧ bitsAt 5 15 w = 0 ∧ bitsAt 1 31 w = 0 then some (.twclr (fieldAt 5 20 w) (fieldAt 5 10 w))
  else if bitsAt 5 0 w = 2 ∧ bitsAt 1 31 w = 0 then some (.twchk (fieldAt 5 20 w) (fieldAt 5 15 w) (fieldAt 5 10 w) (fieldAt 5 5 w))
  else if bitsAt 5 0 w = 3 ∧ bitsAt 1 31 w = 0 then some (.twconf (fieldAt 5 20 w) (fieldAt 5 15 w) (fieldAt 5 10 w) (fieldAt 5 5 w))
  else if bitsAt 15 0 w = 4 ∧ bitsAt 1 31 w = 0 then some (.twread (fieldAt 5 20 w) (fieldAt 5 15 w))
  else none

/-- The majors that R141 assigns. -/
def majorAssigned (op : Nat) : Bool := decide (op ∈
  [1, 2, 3, 4, 8, 9, 10, 12, 13, 14, 15, 16, 17, 18, 19, 20, 21, 22, 23, 24, 25, 26, 27, 28, 29, 30, 32, 33, 34, 35, 36, 37, 38, 40, 44, 45, 46, 47, 48, 56, 57, 58, 60, 61, 62])

/-- The word's fields under its major opcode, before the operand checks. -/
noncomputable def decodeFields (w : Nat) : Option Instr :=
  if bitsAt 6 25 w = 1 then decodeMajor01 w
  else if bitsAt 6 25 w = 2 then decodeMajor02 w
  else if bitsAt 6 25 w = 3 then decodeMajor03 w
  else if bitsAt 6 25 w = 4 then decodeMajor04 w
  else if bitsAt 6 25 w = 8 then decodeMajor08 w
  else if bitsAt 6 25 w = 9 then decodeMajor09 w
  else if bitsAt 6 25 w = 10 then decodeMajor0a w
  else if bitsAt 6 25 w = 12 then decodeMajor0c w
  else if bitsAt 6 25 w = 13 then decodeMajor0d w
  else if bitsAt 6 25 w = 14 then decodeMajor0e w
  else if bitsAt 6 25 w = 15 then decodeMajor0f w
  else if bitsAt 6 25 w = 16 then decodeMajor10 w
  else if bitsAt 6 25 w = 17 then decodeMajor11 w
  else if bitsAt 6 25 w = 18 then decodeMajor12 w
  else if bitsAt 6 25 w = 19 then decodeMajor13 w
  else if bitsAt 6 25 w = 20 then decodeMajor14 w
  else if bitsAt 6 25 w = 21 then decodeMajor15 w
  else if bitsAt 6 25 w = 22 then decodeMajor16 w
  else if bitsAt 6 25 w = 23 then decodeMajor17 w
  else if bitsAt 6 25 w = 24 then decodeMajor18 w
  else if bitsAt 6 25 w = 25 then decodeMajor19 w
  else if bitsAt 6 25 w = 26 then decodeMajor1a w
  else if bitsAt 6 25 w = 27 then decodeMajor1b w
  else if bitsAt 6 25 w = 28 then decodeMajor1c w
  else if bitsAt 6 25 w = 29 then decodeMajor1d w
  else if bitsAt 6 25 w = 30 then decodeMajor1e w
  else if bitsAt 6 25 w = 32 then decodeMajor20 w
  else if bitsAt 6 25 w = 33 then decodeMajor21 w
  else if bitsAt 6 25 w = 34 then decodeMajor22 w
  else if bitsAt 6 25 w = 35 then decodeMajor23 w
  else if bitsAt 6 25 w = 36 then decodeMajor24 w
  else if bitsAt 6 25 w = 37 then decodeMajor25 w
  else if bitsAt 6 25 w = 38 then decodeMajor26 w
  else if bitsAt 6 25 w = 40 then decodeMajor28 w
  else if bitsAt 6 25 w = 44 then decodeMajor2c w
  else if bitsAt 6 25 w = 45 then decodeMajor2d w
  else if bitsAt 6 25 w = 46 then decodeMajor2e w
  else if bitsAt 6 25 w = 47 then decodeMajor2f w
  else if bitsAt 6 25 w = 48 then decodeMajor30 w
  else if bitsAt 6 25 w = 56 then decodeMajor38 w
  else if bitsAt 6 25 w = 57 then decodeMajor39 w
  else if bitsAt 6 25 w = 58 then decodeMajor3a w
  else if bitsAt 6 25 w = 60 then decodeMajor3c w
  else if bitsAt 6 25 w = 61 then decodeMajor3d w
  else if bitsAt 6 25 w = 62 then decodeMajor3e w
  else none

/-- The instruction that a 32-bit word is, or why it is none (R144). -/
noncomputable def decodeWord (w : Nat) : Except DecodeError Instr :=
  match decodeFields w with
  | some i => if i.wf then .ok i else .error .fieldIllegal
  | none => if majorAssigned (bitsAt 6 25 w) then .error .fieldIllegal else .error .majorUnassigned

/-- Four bytes as a word, the byte at the lowest address in bits 7:0 (R2). -/
def wordOfBytes (b0 b1 b2 b3 : Byte) : Nat :=
  b0.toNat + b1.toNat * 2 ^ 8 + b2.toNat * 2 ^ 16 + b3.toNat * 2 ^ 24

/-- The bytes of a word in storage order (R2). -/
def bytesOfWord (w : Nat) : List Byte :=
  [fieldAt 8 0 w, fieldAt 8 8 w, fieldAt 8 16 w, fieldAt 8 24 w]

/-- The instruction of a decoded word with the bytes that follow it. -/
def withRest (rest : List Byte) : Except DecodeError Instr → Except DecodeError (Instr × List Byte)
  | .ok i => .ok (i, rest)
  | .error e => .error e

/-- Decode the first instruction of a byte string, with the bytes that follow it. -/
noncomputable def decode : List Byte → Except DecodeError (Instr × List Byte)
  | b0 :: b1 :: b2 :: b3 :: rest => withRest rest (decodeWord (wordOfBytes b0 b1 b2 b3))
  | _ => .error .tooShort

/-- The instruction the decoder reads from the bits of an opcode-table row. -/
noncomputable def decodeTableWord (nbits w : Nat) : Option Instr :=
  if nbits ≤ 32 then
    match decode (bytesOfWord (w % 2 ^ nbits)) with
    | .ok (i, _) => some i
    | .error _ => none
  else none

/-- A word with a field's value put in at bit lo, where it holds zeros. -/
def put (lo x w : Nat) : Nat := w + x * 2 ^ lo

/-- The word of an instruction; an event has none. -/
def Instr.word : Instr → Option Nat
  | .add d a b => some (put 20 d.toNat (put 15 a.toNat (put 10 b.toNat 0x02000000)))
  | .sub d a b => some (put 20 d.toNat (put 15 a.toNat (put 10 b.toNat 0x02000001)))
  | .and d a b => some (put 20 d.toNat (put 15 a.toNat (put 10 b.toNat 0x02000002)))
  | .or d a b => some (put 20 d.toNat (put 15 a.toNat (put 10 b.toNat 0x02000003)))
  | .xor d a b => some (put 20 d.toNat (put 15 a.toNat (put 10 b.toNat 0x02000004)))
  | .andn d a b => some (put 20 d.toNat (put 15 a.toNat (put 10 b.toNat 0x02000005)))
  | .sll d a b => some (put 20 d.toNat (put 15 a.toNat (put 10 b.toNat 0x02000006)))
  | .srl d a b => some (put 20 d.toNat (put 15 a.toNat (put 10 b.toNat 0x02000007)))
  | .sra d a b => some (put 20 d.toNat (put 15 a.toNat (put 10 b.toNat 0x02000008)))
  | .slt d a b => some (put 20 d.toNat (put 15 a.toNat (put 10 b.toNat 0x02000009)))
  | .sltn d a b => some (put 20 d.toNat (put 15 a.toNat (put 10 b.toNat 0x0200000a)))
  | .mul d a b => some (put 20 d.toNat (put 15 a.toNat (put 10 b.toNat 0x0200000b)))
  | .mulh d a b => some (put 20 d.toNat (put 15 a.toNat (put 10 b.toNat 0x0200000c)))
  | .div d a b => some (put 20 d.toNat (put 15 a.toNat (put 10 b.toNat 0x0200000d)))
  | .divn d a b => some (put 20 d.toNat (put 15 a.toNat (put 10 b.toNat 0x0200000e)))
  | .rem d a b => some (put 20 d.toNat (put 15 a.toNat (put 10 b.toNat 0x0200000f)))
  | .remn d a b => some (put 20 d.toNat (put 15 a.toNat (put 10 b.toNat 0x02000010)))
  | .clz d a => some (put 20 d.toNat (put 15 a.toNat 0x02000011))
  | .popc d a => some (put 20 d.toNat (put 15 a.toNat 0x02000012))
  | .brev d a => some (put 20 d.toNat (put 15 a.toNat 0x02000013))
  | .addi d a i => some (put 20 d.toNat (put 15 a.toNat (put 0 i.toNat 0x04000000)))
  | .andi d a i => some (put 20 d.toNat (put 15 a.toNat (put 0 i.toNat 0x04001000)))
  | .ori d a i => some (put 20 d.toNat (put 15 a.toNat (put 0 i.toNat 0x04002000)))
  | .xori d a i => some (put 20 d.toNat (put 15 a.toNat (put 0 i.toNat 0x04003000)))
  | .slli d a n => some (put 20 d.toNat (put 15 a.toNat (put 0 n.toNat 0x04004000)))
  | .srli d a n => some (put 20 d.toNat (put 15 a.toNat (put 0 n.toNat 0x04005000)))
  | .srai d a n => some (put 20 d.toNat (put 15 a.toNat (put 0 n.toNat 0x04006000)))
  | .slti d a i => some (put 20 d.toNat (put 15 a.toNat (put 0 i.toNat 0x04007000)))
  | .lui d i => some (put 20 d.toNat (put 0 i.toNat 0x06000000))
  | .addpc d i => some (put 20 d.toNat (put 0 i.toNat 0x08000000))
  | .lb d a o => some (put 20 d.toNat (put 15 a.toNat (put 0 o.toNat 0x10000000)))
  | .lh d a o => some (put 20 d.toNat (put 15 a.toNat (put 0 o.toNat 0x10001000)))
  | .lw d a o => some (put 20 d.toNat (put 15 a.toNat (put 0 o.toNat 0x10002000)))
  | .ld d a o => some (put 20 d.toNat (put 15 a.toNat (put 0 o.toNat 0x10003000)))
  | .lbn d a o => some (put 20 d.toNat (put 15 a.toNat (put 0 o.toNat 0x10004000)))
  | .lhn d a o => some (put 20 d.toNat (put 15 a.toNat (put 0 o.toNat 0x10005000)))
  | .lwn d a o => some (put 20 d.toNat (put 15 a.toNat (put 0 o.toNat 0x10006000)))
  | .lda d a o => some (put 20 d.toNat (put 15 a.toNat (put 0 o.toNat 0x10007000)))
  | .sb d a o => some (put 20 d.toNat (put 15 a.toNat (put 0 o.toNat 0x12000000)))
  | .sh d a o => some (put 20 d.toNat (put 15 a.toNat (put 0 o.toNat 0x12001000)))
  | .sw d a o => some (put 20 d.toNat (put 15 a.toNat (put 0 o.toNat 0x12002000)))
  | .sd d a o => some (put 20 d.toNat (put 15 a.toNat (put 0 o.toNat 0x12003000)))
  | .sdr d a o => some (put 20 d.toNat (put 15 a.toNat (put 0 o.toNat 0x12004000)))
  | .amo d a b r w o => some (put 20 d.toNat (put 15 a.toNat (put 10 b.toNat (put 6 r.toNat (put 4 w.toNat (put 0 o.toNat 0x14000000))))))
  | .beq a b o => some (put 20 a.toNat (put 15 b.toNat (put 0 o.toNat 0x18000000)))
  | .bne a b o => some (put 20 a.toNat (put 15 b.toNat (put 0 o.toNat 0x18001000)))
  | .blt a b o => some (put 20 a.toNat (put 15 b.toNat (put 0 o.toNat 0x18002000)))
  | .bge a b o => some (put 20 a.toNat (put 15 b.toNat (put 0 o.toNat 0x18003000)))
  | .bltn a b o => some (put 20 a.toNat (put 15 b.toNat (put 0 o.toNat 0x18004000)))
  | .bgen a b o => some (put 20 a.toNat (put 15 b.toNat (put 0 o.toNat 0x18005000)))
  | .jal d o => some (put 20 d.toNat (put 0 o.toNat 0x1a000000))
  | .jalr d a i => some (put 20 d.toNat (put 15 a.toNat (put 0 i.toNat 0x1c000000)))
  | .lnest d a b => some (put 20 d.toNat (put 15 a.toNat (put 10 b.toNat 0x1e000000)))
  | .lbody n => some (put 20 n.toNat 0x1e000001)
  | .lexit a b => some (put 15 a.toNat (put 10 b.toNat 0x1e000002))
  | .csrr d csr => some (put 20 d.toNat (put 3 csr.toNat 0x20000000))
  | .csrw d a csr => some (put 20 d.toNat (put 15 a.toNat (put 3 csr.toNat 0x20000001)))
  | .csrs d a csr => some (put 20 d.toNat (put 15 a.toNat (put 3 csr.toNat 0x20000002)))
  | .csrc d a csr => some (put 20 d.toNat (put 15 a.toNat (put 3 csr.toNat 0x20000003)))
  | .svc i => some (put 10 i.toNat 0x22000000)
  | .eret => some 0x22000001
  | .nap d => some (put 20 d.toNat 0x22000002)
  | .wake d a => some (put 20 d.toNat (put 15 a.toNat 0x22000003))
  | .yield => some 0x22000004
  | .halt => some 0x22000005
  | .bkpt i => some (put 10 i.toNat 0x22000006)
  | .ifence => some 0x22000007
  | .raise a b => some (put 15 a.toNat (put 10 b.toNat 0x22000008))
  | .gjoin d a => some (put 20 d.toNat (put 15 a.toNat 0x24000000))
  | .gleave d a => some (put 20 d.toNat (put 15 a.toNat 0x24000001))
  | .barw d a => some (put 20 d.toNat (put 15 a.toNat 0x24000002))
  | .bararv d a => some (put 20 d.toNat (put 15 a.toNat 0x24000003))
  | .barrlx d a => some (put 20 d.toNat (put 15 a.toNat 0x24000004))
  | .barwait d a b => some (put 20 d.toNat (put 15 a.toNat (put 10 b.toNat 0x24000005)))
  | .phend d a => some (put 20 d.toNat (put 15 a.toNat 0x24000006))
  | .gsize d a => some (put 20 d.toNat (put 15 a.toNat 0x24000007))
  | .tid d => some (put 20 d.toNat 0x24000008)
  | .spawn d a b => some (put 20 d.toNat (put 15 a.toNat (put 10 b.toNat 0x26000000)))
  | .jdone a => some (put 15 a.toNat 0x26000001)
  | .jstat d a => some (put 20 d.toNat (put 15 a.toNat 0x26000002))
  | .jdeadl d a b => some (put 20 d.toNat (put 15 a.toNat (put 10 b.toNat 0x26000003)))
  | .ptpnow d => some (put 20 d.toNat 0x26000004)
  | .chbind d a b => some (put 20 d.toNat (put 15 a.toNat (put 10 b.toNat 0x26000005)))
  | .chpub d a b => some (put 20 d.toNat (put 15 a.toNat (put 10 b.toNat 0x26000006)))
  | .chread d a => some (put 20 d.toNat (put 15 a.toNat 0x26000007))
  | .fence s => some (put 10 s.toNat 0x28000000)
  | .fencee a b => some (put 15 a.toNat (put 10 b.toNat 0x28000001))
  | .qdrain m => some (put 10 m.toNat 0x28000002)
  | .winpub a => some (put 15 a.toNat 0x28000003)
  | .vcfg d a => some (put 20 d.toNat (put 15 a.toNat 0x2a000000))
  | .setvl d a => some (put 20 d.toNat (put 15 a.toNat 0x2a000001))
  | .vkeep d a => some (put 20 d.toNat (put 15 a.toNat 0x2a000002))
  | .vdead d a => some (put 20 d.toNat (put 15 a.toNat 0x2a000003))
  | .vlmaxr d a b => some (put 20 d.toNat (put 15 a.toNat (put 10 b.toNat 0x2a000004)))
  | .vindex cont d p s t => some (put 31 cont.toNat (put 20 d.toNat (put 15 p.toNat (put 7 s.toNat (put 0 t.toNat 0x2c000000)))))
  | .pand cont d a b p => some (put 31 cont.toNat (put 20 d.toNat (put 15 a.toNat (put 10 b.toNat (put 5 p.toNat 0x2e000000)))))
  | .por cont d a b p => some (put 31 cont.toNat (put 20 d.toNat (put 15 a.toNat (put 10 b.toNat (put 5 p.toNat 0x2e000001)))))
  | .pxor cont d a b p => some (put 31 cont.toNat (put 20 d.toNat (put 15 a.toNat (put 10 b.toNat (put 5 p.toNat 0x2e000002)))))
  | .pandn cont d a b p => some (put 31 cont.toNat (put 20 d.toNat (put 15 a.toNat (put 10 b.toNat (put 5 p.toNat 0x2e000003)))))
  | .pnot cont d a p => some (put 31 cont.toNat (put 20 d.toNat (put 15 a.toNat (put 5 p.toNat 0x2e000004))))
  | .pseta cont d p => some (put 31 cont.toNat (put 20 d.toNat (put 5 p.toNat 0x2e000005)))
  | .pfirst cont d a p => some (put 31 cont.toNat (put 20 d.toNat (put 15 a.toNat (put 5 p.toNat 0x2e000006))))
  | .ppopc cont d a p => some (put 31 cont.toNat (put 20 d.toNat (put 15 a.toNat (put 5 p.toNat 0x2e000007))))
  | .pscan cont d a p => some (put 31 cont.toNat (put 20 d.toNat (put 15 a.toNat (put 5 p.toNat 0x2e000008))))
  | .pmovl cont d a k => some (put 31 cont.toNat (put 20 d.toNat (put 15 a.toNat (put 10 k.toNat 0x2e000009))))
  | .pld cont d a k => some (put 31 cont.toNat (put 20 d.toNat (put 15 a.toNat (put 10 k.toNat 0x2e00000a))))
  | .pst cont d a k => some (put 31 cont.toNat (put 20 d.toNat (put 15 a.toNat (put 10 k.toNat 0x2e00000b))))
  | .vld cont d a p => some (put 31 cont.toNat (put 20 d.toNat (put 15 a.toNat (put 5 p.toNat 0x30000000))))
  | .vldff d a p => some (put 20 d.toNat (put 15 a.toNat (put 5 p.toNat 0x30000001)))
  | .vlds cont d a b p => some (put 31 cont.toNat (put 20 d.toNat (put 15 a.toNat (put 10 b.toNat (put 5 p.toNat 0x32000000)))))
  | .vldx cont d a b p => some (put 31 cont.toNat (put 20 d.toNat (put 15 a.toNat (put 10 b.toNat (put 5 p.toNat 0x34000000)))))
  | .vst cont d a p => some (put 31 cont.toNat (put 20 d.toNat (put 15 a.toNat (put 5 p.toNat 0x36000000))))
  | .vsts cont d a b p => some (put 31 cont.toNat (put 20 d.toNat (put 15 a.toNat (put 10 b.toNat (put 5 p.toNat 0x36000001)))))
  | .vstx cont d a b p => some (put 31 cont.toNat (put 20 d.toNat (put 15 a.toNat (put 10 b.toNat (put 5 p.toNat 0x36000002)))))
  | .vstxo cont d a b p => some (put 31 cont.toNat (put 20 d.toNat (put 15 a.toNat (put 10 b.toNat (put 5 p.toNat 0x36000003)))))
  | .vldbp cont d a b p => some (put 31 cont.toNat (put 20 d.toNat (put 15 a.toNat (put 10 b.toNat (put 5 p.toNat 0x38000000)))))
  | .vstbp cont d a b p => some (put 31 cont.toNat (put 20 d.toNat (put 15 a.toNat (put 10 b.toNat (put 5 p.toNat 0x38000001)))))
  | .vscatr d a b p => some (put 20 d.toNat (put 15 a.toNat (put 10 b.toNat (put 5 p.toNat 0x3a000000))))
  | .vputr d a p => some (put 20 d.toNat (put 15 a.toNat (put 5 p.toNat 0x3a000001)))
  | .vappend a b p => some (put 15 a.toNat (put 10 b.toNat (put 5 p.toNat 0x3c000000)))
  | .vqpop d a => some (put 20 d.toNat (put 15 a.toNat 0x3c000001))
  | .vadd cont d a b p => some (put 31 cont.toNat (put 20 d.toNat (put 15 a.toNat (put 10 b.toNat (put 5 p.toNat 0x40000000)))))
  | .vaddVs cont d a s p => some (put 31 cont.toNat (put 20 d.toNat (put 15 a.toNat (put 10 s.toNat (put 5 p.toNat 0x40000010)))))
  | .vsub cont d a b p => some (put 31 cont.toNat (put 20 d.toNat (put 15 a.toNat (put 10 b.toNat (put 5 p.toNat 0x40000001)))))
  | .vsubVs cont d a s p => some (put 31 cont.toNat (put 20 d.toNat (put 15 a.toNat (put 10 s.toNat (put 5 p.toNat 0x40000011)))))
  | .vrsub cont d a b p => some (put 31 cont.toNat (put 20 d.toNat (put 15 a.toNat (put 10 b.toNat (put 5 p.toNat 0x40000002)))))
  | .vrsubVs cont d a s p => some (put 31 cont.toNat (put 20 d.toNat (put 15 a.toNat (put 10 s.toNat (put 5 p.toNat 0x40000012)))))
  | .vmul cont d a b p => some (put 31 cont.toNat (put 20 d.toNat (put 15 a.toNat (put 10 b.toNat (put 5 p.toNat 0x40000003)))))
  | .vmulVs cont d a s p => some (put 31 cont.toNat (put 20 d.toNat (put 15 a.toNat (put 10 s.toNat (put 5 p.toNat 0x40000013)))))
  | .vmulh cont d a b p => some (put 31 cont.toNat (put 20 d.toNat (put 15 a.toNat (put 10 b.toNat (put 5 p.toNat 0x40000004)))))
  | .vmulhVs cont d a s p => some (put 31 cont.toNat (put 20 d.toNat (put 15 a.toNat (put 10 s.toNat (put 5 p.toNat 0x40000014)))))
  | .vmulhn cont d a b p => some (put 31 cont.toNat (put 20 d.toNat (put 15 a.toNat (put 10 b.toNat (put 5 p.toNat 0x40000005)))))
  | .vmulhnVs cont d a s p => some (put 31 cont.toNat (put 20 d.toNat (put 15 a.toNat (put 10 s.toNat (put 5 p.toNat 0x40000015)))))
  | .vmin cont d a b p => some (put 31 cont.toNat (put 20 d.toNat (put 15 a.toNat (put 10 b.toNat (put 5 p.toNat 0x40000006)))))
  | .vminVs cont d a s p => some (put 31 cont.toNat (put 20 d.toNat (put 15 a.toNat (put 10 s.toNat (put 5 p.toNat 0x40000016)))))
  | .vmax cont d a b p => some (put 31 cont.toNat (put 20 d.toNat (put 15 a.toNat (put 10 b.toNat (put 5 p.toNat 0x40000007)))))
  | .vmaxVs cont d a s p => some (put 31 cont.toNat (put 20 d.toNat (put 15 a.toNat (put 10 s.toNat (put 5 p.toNat 0x40000017)))))
  | .vminn cont d a b p => some (put 31 cont.toNat (put 20 d.toNat (put 15 a.toNat (put 10 b.toNat (put 5 p.toNat 0x40000008)))))
  | .vminnVs cont d a s p => some (put 31 cont.toNat (put 20 d.toNat (put 15 a.toNat (put 10 s.toNat (put 5 p.toNat 0x40000018)))))
  | .vmaxn cont d a b p => some (put 31 cont.toNat (put 20 d.toNat (put 15 a.toNat (put 10 b.toNat (put 5 p.toNat 0x40000009)))))
  | .vmaxnVs cont d a s p => some (put 31 cont.toNat (put 20 d.toNat (put 15 a.toNat (put 10 s.toNat (put 5 p.toNat 0x40000019)))))
  | .vand cont d a b p => some (put 31 cont.toNat (put 20 d.toNat (put 15 a.toNat (put 10 b.toNat (put 5 p.toNat 0x4000000a)))))
  | .vandVs cont d a s p => some (put 31 cont.toNat (put 20 d.toNat (put 15 a.toNat (put 10 s.toNat (put 5 p.toNat 0x4000001a)))))
  | .vor cont d a b p => some (put 31 cont.toNat (put 20 d.toNat (put 15 a.toNat (put 10 b.toNat (put 5 p.toNat 0x4000000b)))))
  | .vorVs cont d a s p => some (put 31 cont.toNat (put 20 d.toNat (put 15 a.toNat (put 10 s.toNat (put 5 p.toNat 0x4000001b)))))
  | .vxor cont d a b p => some (put 31 cont.toNat (put 20 d.toNat (put 15 a.toNat (put 10 b.toNat (put 5 p.toNat 0x4000000c)))))
  | .vxorVs cont d a s p => some (put 31 cont.toNat (put 20 d.toNat (put 15 a.toNat (put 10 s.toNat (put 5 p.toNat 0x4000001c)))))
  | .vsll cont d a b p => some (put 31 cont.toNat (put 20 d.toNat (put 15 a.toNat (put 10 b.toNat (put 5 p.toNat 0x4000000d)))))
  | .vsllVs cont d a s p => some (put 31 cont.toNat (put 20 d.toNat (put 15 a.toNat (put 10 s.toNat (put 5 p.toNat 0x4000001d)))))
  | .vsrl cont d a b p => some (put 31 cont.toNat (put 20 d.toNat (put 15 a.toNat (put 10 b.toNat (put 5 p.toNat 0x4000000e)))))
  | .vsrlVs cont d a s p => some (put 31 cont.toNat (put 20 d.toNat (put 15 a.toNat (put 10 s.toNat (put 5 p.toNat 0x4000001e)))))
  | .vsra cont d a b p => some (put 31 cont.toNat (put 20 d.toNat (put 15 a.toNat (put 10 b.toNat (put 5 p.toNat 0x4000000f)))))
  | .vsraVs cont d a s p => some (put 31 cont.toNat (put 20 d.toNat (put 15 a.toNat (put 10 s.toNat (put 5 p.toNat 0x4000001f)))))
  | .vcmp cont d a b p cond => some (put 31 cont.toNat (put 20 d.toNat (put 15 a.toNat (put 10 b.toNat (put 5 p.toNat (put 0 cond.toNat 0x42000000))))))
  | .vcmpVs cont d a s p cond => some (put 31 cont.toNat (put 20 d.toNat (put 15 a.toNat (put 10 s.toNat (put 5 p.toNat (put 0 cond.toNat 0x42000010))))))
  | .vqadd cont d a b p => some (put 31 cont.toNat (put 20 d.toNat (put 15 a.toNat (put 10 b.toNat (put 5 p.toNat 0x44000000)))))
  | .vqaddVs cont d a s p => some (put 31 cont.toNat (put 20 d.toNat (put 15 a.toNat (put 10 s.toNat (put 5 p.toNat 0x44000010)))))
  | .vqsub cont d a b p => some (put 31 cont.toNat (put 20 d.toNat (put 15 a.toNat (put 10 b.toNat (put 5 p.toNat 0x44000001)))))
  | .vqsubVs cont d a s p => some (put 31 cont.toNat (put 20 d.toNat (put 15 a.toNat (put 10 s.toNat (put 5 p.toNat 0x44000011)))))
  | .vqmul cont d a b p => some (put 31 cont.toNat (put 20 d.toNat (put 15 a.toNat (put 10 b.toNat (put 5 p.toNat 0x44000002)))))
  | .vqmulVs cont d a s p => some (put 31 cont.toNat (put 20 d.toNat (put 15 a.toNat (put 10 s.toNat (put 5 p.toNat 0x44000012)))))
  | .vshrrnd cont d a b p => some (put 31 cont.toNat (put 20 d.toNat (put 15 a.toNat (put 10 b.toNat (put 5 p.toNat 0x44000003)))))
  | .vshrrndVs cont d a s p => some (put 31 cont.toNat (put 20 d.toNat (put 15 a.toNat (put 10 s.toNat (put 5 p.toNat 0x44000013)))))
  | .vsatn cont d a b p => some (put 31 cont.toNat (put 20 d.toNat (put 15 a.toNat (put 10 b.toNat (put 5 p.toNat 0x44000004)))))
  | .vsatnVs cont d a s p => some (put 31 cont.toNat (put 20 d.toNat (put 15 a.toNat (put 10 s.toNat (put 5 p.toNat 0x44000014)))))
  | .vhead cont d a p => some (put 31 cont.toNat (put 20 d.toNat (put 15 a.toNat (put 5 p.toNat 0x44000005))))
  | .vqneg cont d a p => some (put 31 cont.toNat (put 20 d.toNat (put 15 a.toNat (put 5 p.toNat 0x44000006))))
  | .vqabs cont d a p => some (put 31 cont.toNat (put 20 d.toNat (put 15 a.toNat (put 5 p.toNat 0x44000007))))
  | .vfadd cont d a b p => some (put 31 cont.toNat (put 20 d.toNat (put 15 a.toNat (put 10 b.toNat (put 5 p.toNat 0x46000000)))))
  | .vfaddVs cont d a s p => some (put 31 cont.toNat (put 20 d.toNat (put 15 a.toNat (put 10 s.toNat (put 5 p.toNat 0x46000010)))))
  | .vfsub cont d a b p => some (put 31 cont.toNat (put 20 d.toNat (put 15 a.toNat (put 10 b.toNat (put 5 p.toNat 0x46000001)))))
  | .vfsubVs cont d a s p => some (put 31 cont.toNat (put 20 d.toNat (put 15 a.toNat (put 10 s.toNat (put 5 p.toNat 0x46000011)))))
  | .vfmul cont d a b p => some (put 31 cont.toNat (put 20 d.toNat (put 15 a.toNat (put 10 b.toNat (put 5 p.toNat 0x46000002)))))
  | .vfmulVs cont d a s p => some (put 31 cont.toNat (put 20 d.toNat (put 15 a.toNat (put 10 s.toNat (put 5 p.toNat 0x46000012)))))
  | .vfdiv cont d a b p => some (put 31 cont.toNat (put 20 d.toNat (put 15 a.toNat (put 10 b.toNat (put 5 p.toNat 0x46000003)))))
  | .vfdivVs cont d a s p => some (put 31 cont.toNat (put 20 d.toNat (put 15 a.toNat (put 10 s.toNat (put 5 p.toNat 0x46000013)))))
  | .vfmin cont d a b p => some (put 31 cont.toNat (put 20 d.toNat (put 15 a.toNat (put 10 b.toNat (put 5 p.toNat 0x46000004)))))
  | .vfminVs cont d a s p => some (put 31 cont.toNat (put 20 d.toNat (put 15 a.toNat (put 10 s.toNat (put 5 p.toNat 0x46000014)))))
  | .vfmax cont d a b p => some (put 31 cont.toNat (put 20 d.toNat (put 15 a.toNat (put 10 b.toNat (put 5 p.toNat 0x46000005)))))
  | .vfmaxVs cont d a s p => some (put 31 cont.toNat (put 20 d.toNat (put 15 a.toNat (put 10 s.toNat (put 5 p.toNat 0x46000015)))))
  | .vfma cont d a b p => some (put 31 cont.toNat (put 20 d.toNat (put 15 a.toNat (put 10 b.toNat (put 5 p.toNat 0x46000006)))))
  | .vfmaVs cont d a s p => some (put 31 cont.toNat (put 20 d.toNat (put 15 a.toNat (put 10 s.toNat (put 5 p.toNat 0x46000016)))))
  | .vfms cont d a b p => some (put 31 cont.toNat (put 20 d.toNat (put 15 a.toNat (put 10 b.toNat (put 5 p.toNat 0x46000007)))))
  | .vfmsVs cont d a s p => some (put 31 cont.toNat (put 20 d.toNat (put 15 a.toNat (put 10 s.toNat (put 5 p.toNat 0x46000017)))))
  | .vfnma cont d a b p => some (put 31 cont.toNat (put 20 d.toNat (put 15 a.toNat (put 10 b.toNat (put 5 p.toNat 0x46000008)))))
  | .vfnmaVs cont d a s p => some (put 31 cont.toNat (put 20 d.toNat (put 15 a.toNat (put 10 s.toNat (put 5 p.toNat 0x46000018)))))
  | .vfclamp cont d a b p => some (put 31 cont.toNat (put 20 d.toNat (put 15 a.toNat (put 10 b.toNat (put 5 p.toNat 0x46000009)))))
  | .vfclampVs cont d a s p => some (put 31 cont.toNat (put 20 d.toNat (put 15 a.toNat (put 10 s.toNat (put 5 p.toNat 0x46000019)))))
  | .vfsqrt cont d a p => some (put 31 cont.toNat (put 20 d.toNat (put 15 a.toNat (put 5 p.toNat 0x4600000a))))
  | .vfabs cont d a p => some (put 31 cont.toNat (put 20 d.toNat (put 15 a.toNat (put 5 p.toNat 0x4600000b))))
  | .vfneg cont d a p => some (put 31 cont.toNat (put 20 d.toNat (put 15 a.toNat (put 5 p.toNat 0x4600000c))))
  | .vcvt cont d a t p => some (put 31 cont.toNat (put 20 d.toNat (put 15 a.toNat (put 10 t.toNat (put 5 p.toNat 0x48000000)))))
  | .vwiden cont d a t p => some (put 31 cont.toNat (put 20 d.toNat (put 15 a.toNat (put 10 t.toNat (put 5 p.toNat 0x48000001)))))
  | .vnarrow cont d a t p => some (put 31 cont.toNat (put 20 d.toNat (put 15 a.toNat (put 10 t.toNat (put 5 p.toNat 0x48000002)))))
  | .vabs cont d a p => some (put 31 cont.toNat (put 20 d.toNat (put 15 a.toNat (put 5 p.toNat 0x4a000000))))
  | .vneg cont d a p => some (put 31 cont.toNat (put 20 d.toNat (put 15 a.toNat (put 5 p.toNat 0x4a000001))))
  | .vclz cont d a p => some (put 31 cont.toNat (put 20 d.toNat (put 15 a.toNat (put 5 p.toNat 0x4a000002))))
  | .vpopc cont d a p => some (put 31 cont.toNat (put 20 d.toNat (put 15 a.toNat (put 5 p.toNat 0x4a000003))))
  | .vmov cont d a p => some (put 31 cont.toNat (put 20 d.toNat (put 15 a.toNat (put 5 p.toNat 0x4a000004))))
  | .vmovs cont d b p => some (put 31 cont.toNat (put 20 d.toNat (put 10 b.toNat (put 5 p.toNat 0x4a000005))))
  | .vmovx cont d a b => some (put 31 cont.toNat (put 20 d.toNat (put 15 a.toNat (put 10 b.toNat 0x4a000006))))
  | .vins cont d a b => some (put 31 cont.toNat (put 20 d.toNat (put 15 a.toNat (put 10 b.toNat 0x4a000007))))
  | .vsel cont d a b p => some (put 31 cont.toNat (put 20 d.toNat (put 15 a.toNat (put 10 b.toNat (put 5 p.toNat 0x4c000000)))))
  | .vcompr cont d a p => some (put 31 cont.toNat (put 20 d.toNat (put 15 a.toNat (put 5 p.toNat 0x4c000001))))
  | .vexpnd cont d a p => some (put 31 cont.toNat (put 20 d.toNat (put 15 a.toNat (put 5 p.toNat 0x4c000002))))
  | .vslideup cont d a b p => some (put 31 cont.toNat (put 20 d.toNat (put 15 a.toNat (put 10 b.toNat (put 5 p.toNat 0x4c000003)))))
  | .vslidedn cont d a b p => some (put 31 cont.toNat (put 20 d.toNat (put 15 a.toNat (put 10 b.toNat (put 5 p.toNat 0x4c000004)))))
  | .vrev cont d a p => some (put 31 cont.toNat (put 20 d.toNat (put 15 a.toNat (put 5 p.toNat 0x4c000005))))
  | .vred cont d a s o p => some (put 31 cont.toNat (put 20 d.toNat (put 15 a.toNat (put 13 s.toNat (put 10 o.toNat (put 5 p.toNat 0x50000000))))))
  | .vfred cont d a s o p => some (put 31 cont.toNat (put 20 d.toNat (put 15 a.toNat (put 13 s.toNat (put 10 o.toNat (put 5 p.toNat 0x50000001))))))
  | .vcred cont d a s o p => some (put 31 cont.toNat (put 20 d.toNat (put 15 a.toNat (put 13 s.toNat (put 10 o.toNat (put 5 p.toNat 0x50000002))))))
  | .vcadd cont d a b p => some (put 31 cont.toNat (put 20 d.toNat (put 15 a.toNat (put 10 b.toNat (put 5 p.toNat 0x58000000)))))
  | .vcaddVs cont d a s p => some (put 31 cont.toNat (put 20 d.toNat (put 15 a.toNat (put 10 s.toNat (put 5 p.toNat 0x58000010)))))
  | .vcsub cont d a b p => some (put 31 cont.toNat (put 20 d.toNat (put 15 a.toNat (put 10 b.toNat (put 5 p.toNat 0x58000001)))))
  | .vcsubVs cont d a s p => some (put 31 cont.toNat (put 20 d.toNat (put 15 a.toNat (put 10 s.toNat (put 5 p.toNat 0x58000011)))))
  | .vcmul cont d a b p o => some (put 31 cont.toNat (put 20 d.toNat (put 15 a.toNat (put 10 b.toNat (put 5 p.toNat (put 3 o.toNat 0x58000002))))))
  | .vcmulVs cont d a s p o => some (put 31 cont.toNat (put 20 d.toNat (put 15 a.toNat (put 10 s.toNat (put 5 p.toNat (put 3 o.toNat 0x58000012))))))
  | .vcmac cont d a b p o => some (put 31 cont.toNat (put 20 d.toNat (put 15 a.toNat (put 10 b.toNat (put 5 p.toNat (put 3 o.toNat 0x58000003))))))
  | .vcmacVs cont d a s p o => some (put 31 cont.toNat (put 20 d.toNat (put 15 a.toNat (put 10 s.toNat (put 5 p.toNat (put 3 o.toNat 0x58000013))))))
  | .vcmag2 cont d a p => some (put 31 cont.toNat (put 20 d.toNat (put 15 a.toNat (put 5 p.toNat 0x58000004))))
  | .vcscl cont d a b p => some (put 31 cont.toNat (put 20 d.toNat (put 15 a.toNat (put 10 b.toNat (put 5 p.toNat 0x58000005)))))
  | .vcsclVs cont d a s p => some (put 31 cont.toNat (put 20 d.toNat (put 15 a.toNat (put 10 s.toNat (put 5 p.toNat 0x58000015)))))
  | .vcrot cont d a p o => some (put 31 cont.toNat (put 20 d.toNat (put 15 a.toNat (put 5 p.toNat (put 3 o.toNat 0x58000006)))))
  | .vcconj cont d a p => some (put 31 cont.toNat (put 20 d.toNat (put 15 a.toNat (put 5 p.toNat 0x58000007))))
  | .vbfly2 cont d a b p => some (put 31 cont.toNat (put 20 d.toNat (put 15 a.toNat (put 10 b.toNat (put 5 p.toNat 0x5a000000)))))
  | .vbfly4 cont d a b p => some (put 31 cont.toNat (put 20 d.toNat (put 15 a.toNat (put 10 b.toNat (put 5 p.toNat 0x5a000001)))))
  | .vbitrev cont d a p => some (put 31 cont.toNat (put 20 d.toNat (put 15 a.toNat (put 5 p.toNat 0x5a000002))))
  | .vbperm cont d a b p => some (put 31 cont.toNat (put 20 d.toNat (put 15 a.toNat (put 10 b.toNat (put 5 p.toNat 0x5a000003)))))
  | .vbgath cont d a b p => some (put 31 cont.toNat (put 20 d.toNat (put 15 a.toNat (put 10 b.toNat (put 5 p.toNat 0x5a000004)))))
  | .vintlv cont d a b p => some (put 31 cont.toNat (put 20 d.toNat (put 15 a.toNat (put 10 b.toNat (put 5 p.toNat 0x5a000005)))))
  | .vdintlv cont d a b p => some (put 31 cont.toNat (put 20 d.toNat (put 15 a.toNat (put 10 b.toNat (put 5 p.toNat 0x5a000006)))))
  | .vrotz cont d a b p => some (put 31 cont.toNat (put 20 d.toNat (put 15 a.toNat (put 10 b.toNat (put 5 p.toNat 0x5a000007)))))
  | .vgold cont d a b p => some (put 31 cont.toNat (put 20 d.toNat (put 15 a.toNat (put 10 b.toNat (put 5 p.toNat 0x5a000008)))))
  | .vllrpk cont d a b p => some (put 31 cont.toNat (put 20 d.toNat (put 15 a.toNat (put 10 b.toNat (put 5 p.toNat 0x5a000009)))))
  | .vperm cont d a b p => some (put 31 cont.toNat (put 20 d.toNat (put 15 a.toNat (put 10 b.toNat (put 5 p.toNat 0x5c000000)))))
  | .vpermb cont d a b => some (put 31 cont.toNat (put 20 d.toNat (put 15 a.toNat (put 10 b.toNat 0x5c000001))))
  | .vxchg cont d a => some (put 31 cont.toNat (put 20 d.toNat (put 15 a.toNat 0x5c000002)))
  | .vzip cont d a b p => some (put 31 cont.toNat (put 20 d.toNat (put 15 a.toNat (put 10 b.toNat (put 5 p.toNat 0x5c000003)))))
  | .vunzip cont d a b p => some (put 31 cont.toNat (put 20 d.toNat (put 15 a.toNat (put 10 b.toNat (put 5 p.toNat 0x5c000004)))))
  | .vscget cont d a p => some (put 31 cont.toNat (put 20 d.toNat (put 15 a.toNat (put 5 p.toNat 0x5e000000))))
  | .vscset cont d a b p => some (put 31 cont.toNat (put 20 d.toNat (put 15 a.toNat (put 10 b.toNat (put 5 p.toNat 0x5e000001)))))
  | .vscnorm cont d a p => some (put 31 cont.toNat (put 20 d.toNat (put 15 a.toNat (put 5 p.toNat 0x5e000002))))
  | .vgjstep cont d a p => some (put 31 cont.toNat (put 20 d.toNat (put 15 a.toNat (put 5 p.toNat 0x60000000))))
  | .vbsolve cont d a b p => some (put 31 cont.toNat (put 20 d.toNat (put 15 a.toNat (put 10 b.toNat (put 5 p.toNat 0x60000001)))))
  | .vnsstep cont d a b p => some (put 31 cont.toNat (put 20 d.toNat (put 15 a.toNat (put 10 b.toNat (put 5 p.toNat 0x60000002)))))
  | .vwstag cont d a b p => some (put 31 cont.toNat (put 20 d.toNat (put 15 a.toNat (put 10 b.toNat (put 5 p.toNat 0x60000003)))))
  | .mma t a b => some (put 21 t.toNat (put 16 a.toNat (put 11 b.toNat 0x70000000)))
  | .mmas t a b p => some (put 21 t.toNat (put 16 a.toNat (put 11 b.toNat (put 6 p.toNat 0x70000001))))
  | .mzero t => some (put 21 t.toNat 0x70000002)
  | .mmaComplete _ => none
  | .atov t d b p => some (put 21 t.toNat (put 16 d.toNat (put 11 b.toNat (put 6 p.toNat 0x72000000))))
  | .vtoa t a b p => some (put 21 t.toNat (put 16 a.toNat (put 11 b.toNat (put 6 p.toNat 0x72000001))))
  | .ald t b => some (put 21 t.toNat (put 11 b.toNat 0x72000002))
  | .ast t b => some (put 21 t.toNat (put 11 b.toNat 0x72000003))
  | .asave t b => some (put 21 t.toNat (put 11 b.toNat 0x72000004))
  | .arst t b => some (put 21 t.toNat (put 11 b.toNat 0x72000005))
  | .cbld sc b => some (put 16 sc.toNat (put 11 b.toNat 0x74000000))
  | .cbfill a b p => some (put 16 a.toNat (put 11 b.toNat (put 6 p.toNat 0x74000001)))
  | .ecpy d a => some (put 20 d.toNat (put 15 a.toNat 0x78000000))
  | .eldpc d a b => some (put 20 d.toNat (put 15 a.toNat (put 10 b.toNat 0x78000001)))
  | .epolar d a b => some (put 20 d.toNat (put 15 a.toNat (put 10 b.toNat 0x78000002)))
  | .eenc d a b => some (put 20 d.toNat (put 15 a.toNat (put 10 b.toNat 0x78000003)))
  | .edge d a b => some (put 20 d.toNat (put 15 a.toNat (put 10 b.toNat 0x78000004)))
  | .ewait d a => some (put 20 d.toNat (put 15 a.toNat 0x78000005))
  | .estat d a => some (put 20 d.toNat (put 15 a.toNat 0x78000006))
  | .ecancel d a => some (put 20 d.toNat (put 15 a.toNat 0x78000007))
  | .vamo d a b p o => some (put 20 d.toNat (put 15 a.toNat (put 10 b.toNat (put 5 p.toNat (put 0 o.toNat 0x7a000000)))))
  | .wdecl a b => some (put 15 a.toNat (put 10 b.toNat 0x7a00000a))
  | .wupd d a b p => some (put 20 d.toNat (put 15 a.toNat (put 10 b.toNat (put 5 p.toNat 0x7a00000b))))
  | .wmerge => some 0x7a00000c
  | .wfree => some 0x7a00000d
  | .rinst d a b => some (put 20 d.toNat (put 15 a.toNat (put 10 b.toNat 0x7a00000e)))
  | .rcall d a b => some (put 20 d.toNat (put 15 a.toNat (put 10 b.toNat 0x7a00000f)))
  | .rcallv d a b p => some (put 20 d.toNat (put 15 a.toNat (put 10 b.toNat (put 5 p.toNat 0x7a000010))))
  | .rfree d b => some (put 20 d.toNat (put 10 b.toNat 0x7a000011))
  | .twset d a b => some (put 20 d.toNat (put 15 a.toNat (put 10 b.toNat 0x7c000000)))
  | .twclr d b => some (put 20 d.toNat (put 10 b.toNat 0x7c000001))
  | .twchk d a b p => some (put 20 d.toNat (put 15 a.toNat (put 10 b.toNat (put 5 p.toNat 0x7c000002))))
  | .twconf d a b p => some (put 20 d.toNat (put 15 a.toNat (put 10 b.toNat (put 5 p.toNat 0x7c000003))))
  | .twread d a => some (put 20 d.toNat (put 15 a.toNat 0x7c000004))
  | .sliceCall _ _ _ _ _ => none
  | .registerWrite _ _ _ => none
  | .frameAssign _ _ _ => none
  | .frameRelease _ _ => none
  | .frameQuery _ => none
  | .releaseComplete => none
  | .mapWrite _ _ => none
  | .mapRemove _ _ => none
  | .mapRead _ _ => none
  | .removalComplete => none
  | .migpush _ _ => none
  | .migrate _ _ => none
  | .migrationComplete _ _ => none
  | .counterHalving => none
  | .pageWalk _ _ _ => none
  | .s1invWrite _ _ => none
  | .s1invComplete _ => none
  | .fqcfgWrite _ _ => none
  | .fqheadWrite _ _ => none
  | .l2Fill _ _ _ => none
  | .l2Writeback _ => none
  | .ingestSection _ _ _ _ _ _ _ _ _ _ _ => none
  | .slotClose _ _ _ _ => none
  | .irctlWrite _ _ _ => none
  | .flctlWrite _ _ => none
  | .egressFetch _ _ => none
  | .egressTransmit _ _ => none
  | .engineStart _ => none
  | .copyComplete _ => none
  | .codingComplete _ => none
  | .engineStop _ _ => none
  | .budgetReset => none
  | .aownWrite _ _ _ => none
  | .acfgWrite _ _ => none
  | .vgcapWrite _ _ => none
  | .rtctlWrite _ _ => none
  | .wseqWrite _ _ => none
  | .pwrcapWrite _ => none
  | .governorSample _ _ => none
  | .thermalTrip _ => none
  | .rateReduction _ => none
  | .launch _ => none
  | .map _ => none
  | .unmap _ => none
  | .copy _ => none
  | .watch _ => none
  | .notify _ => none
  | .attest _ => none
  | .functionReset _ => none
  | .pageResponse _ _ _ _ _ _ => none
  | .proxyResponse _ _ => none
  | .hostAccess _ _ _ => none
  | .hostSnoop _ _ => none
  | .backInvalidateResponse _ => none
  | .twinInbound _ _ _ => none
  | .trainArrival _ _ => none
  | .trainAck _ _ => none
  | .dispatch _ => none
  | .preemptTimeout _ => none
  | .handlerTimeout _ => none
  | .yieldTimeout _ => none
  | .windowWaitExpiry _ => none
  | .forcedStop _ => none
  | .partWayStop _ _ => none
  | .deadlineReached _ _ => none
  | .abandonStop _ => none
  | .markerWrite _ _ => none
  | .setvlRestart _ => none
  | .napWake _ => none
  | .barwaitResume _ => none
  | .ewaitResume _ => none
  | .commitWaitEnd _ => none
  | .queueWaitEnd _ => none
  | .pendingLineFree _ => none
  | .tileReleaseWait _ => none
  | .qdrainEnd _ => none
  | .phendResume _ => none
  | .chainDetach _ _ => none
  | .bridgeError _ => none
  | .dbgtWrite _ _ => none
  | .frzWrite _ => none
  | .trctlWrite _ _ => none
  | .triggerFire _ _ _ => none
  | .triggerArrival _ _ _ => none
  | .triggerAction _ _ _ _ => none
  | .powerOnReset => none
  | .bringupComplete => none
  | .storeBufferDrain _ => none
  | .cancelledCommandStop _ _ => none
  | .resumeAfterDetach _ _ => none
  | .ptpServoStep _ => none
  | .twinLinkState _ => none
  | .uncorrectableError _ => none
  | .illegalWord _ => none
  | .fetchFault _ => none
  | .unknownOpEntry _ => none

/-- The bytes of an instruction in storage order; an event has none. -/
def encode (i : Instr) : List Byte :=
  match i.word with
  | some w => bytesOfWord w
  | none => []

end Sys2Proof
end

