-- ==== Sys2Proof/Machine/Num.lean ====
section
/-!
DEFINITION. Numbers and bit strings: the helper functions of R8 and R9 on unbounded integers, and
byte order (R2).
-/

namespace Sys2Proof.Machine

open Sys2Proof

/-- Bits n - 1:0 of x read as a signed integer: sext(x, n) (R9). -/
def sextN (n x : Nat) : Int :=
  if x % 2 ^ n < 2 ^ (n - 1) then (x % 2 ^ n : Nat) else (x % 2 ^ n : Nat) - (2 ^ n : Nat)

/-- Bits n - 1:0 of an exact integer (R8). -/
def lowN (n : Nat) (x : Int) : Nat := (x % (2 ^ n : Nat)).toNat

/-- sat(x, n): x clamped to the signed n-bit range (R9). -/
def satN (n : Nat) (x : Int) : Int :=
  if x < -(2 ^ (n - 1) : Nat) then -(2 ^ (n - 1) : Nat)
  else if x > (2 ^ (n - 1) : Nat) - 1 then (2 ^ (n - 1) : Nat) - 1 else x

/-- satn(x, n): x clamped to the unsigned n-bit range (R9). -/
def satnN (n : Nat) (x : Int) : Int :=
  if x < 0 then 0 else if x > (2 ^ n : Nat) - 1 then (2 ^ n : Nat) - 1 else x

/-- Floor of x / 2^n: x >> n (R8). -/
def shrI (x : Int) (n : Nat) : Int := x / (2 ^ n : Nat)

/-- x << n (R8). -/
def shlI (x : Int) (n : Nat) : Int := x * (2 ^ n : Nat)

/-- Number of one bits among bits n - 1:0. -/
def popN (n x : Nat) : Nat :=
  match n with
  | 0 => 0
  | n + 1 => popN n x + (if x.testBit n then 1 else 0)

/-- Bit length: 0 for 0, otherwise 1 + log2. -/
def bitLen (x : Nat) : Nat := if x = 0 then 0 else Nat.log2 x + 1

/-- Leading zero bits of an n-bit value. -/
def clzN (n x : Nat) : Nat := n - bitLen (x % 2 ^ n)

/-- An n-bit value with its bits reversed. -/
def revN (n x : Nat) : Nat :=
  match n with
  | 0 => 0
  | n + 1 => (if x.testBit 0 then 2 ^ n else 0) + revN n (x / 2)

/-- Redundant sign bits of a w-bit value (R135): the bits below the sign that equal it. -/
def redundant (w x : Nat) : Nat :=
  let v := x % 2 ^ w
  let m := if v < 2 ^ (w - 1) then v else 2 ^ w - 1 - v
  w - 1 - bitLen m

/-- Bytes, lowest address first, as a number (R2). -/
def leNat (l : List Byte) : Nat :=
  match l with
  | [] => 0
  | b :: r => b.toNat + 256 * leNat r

/-- The n low bytes of a number, lowest address first (R2). -/
def leBytes (n x : Nat) : List Byte :=
  match n with
  | 0 => []
  | n + 1 => BitVec.ofNat 8 x :: leBytes n (x / 256)

/-- n copies of a step, from n - 1 down: used to fold a function over 0 .. n - 1 upward. -/
def upTo {α : Type} (n : Nat) (f : Nat → α → α) (a : α) : α :=
  match n with
  | 0 => a
  | n + 1 => f n (upTo n f a)

/-- A number whose bit e is f e for e below n. -/
def bitsOf (n : Nat) (f : Nat → Bool) : Nat :=
  upTo n (fun e x => if f e then x + 2 ^ e else x) 0

/-- The least e below n with f e. -/
def firstBelow (n : Nat) (f : Nat → Bool) : Option Nat := (List.range n).find? f

/-- Ceiling division. -/
def ceilDiv (a b : Nat) : Nat := (a + b - 1) / b

/-- The w bits at bit position i × w of a long bit string. -/
def sliceAt {n : Nat} (w : Nat) (x : BitVec n) (lo : Nat) : Nat := (x.toNat >>> lo) % 2 ^ w

/-- A long bit string with its w bits at position lo replaced. -/
def spliceAt {n : Nat} (w : Nat) (x : BitVec n) (lo v : Nat) : BitVec n :=
  let old := (x.toNat >>> lo) % 2 ^ w
  BitVec.ofNat n (x.toNat - old <<< lo + (v % 2 ^ w) <<< lo)

/-- The bytes of a long bit string from byte i, n of them, lowest first. -/
def bytesOf {m : Nat} (x : BitVec m) (i n : Nat) : List Byte :=
  (List.range n).map (fun k => BitVec.ofNat 8 (x.toNat >>> (8 * (i + k))))

/-- Put an item in front of the first that it does not come after. -/
def insertBy {α : Type} (le : α → α → Bool) (x : α) (l : List α) : List α :=
  match l with
  | [] => [x]
  | y :: r => if le x y then x :: y :: r else y :: insertBy le x r

/-- A list in order; equal items keep their order. -/
def sortBy {α : Type} (le : α → α → Bool) (l : List α) : List α := l.foldr (insertBy le) []

end Sys2Proof.Machine
end

