-- ==== Sys2Proof/Machine/Float.lean ====
section
/-!
DEFINITION. Number formats: rounding shifts and fitting (R115 to R117), floating point (R119 to R123)
and the exact sums of products of R129. Every function works on element bits as natural numbers and
answers bits with the event classes it raises.
-/

namespace Sys2Proof.Machine

/-! ### Event classes (R131) -/

def evInv : Nat := 1
def evDz : Nat := 2
def evOvf : Nat := 4
def evUnf : Nat := 8
def evInx : Nat := 16
def evSat : Nat := 32
def evPiv : Nat := 64
def evWsx : Nat := 128

/-- A value with the event classes it raises. -/
structure Out where
  val : Nat
  ev : Nat
  deriving DecidableEq, Repr

/-! ### Rounding -/

/-- rshift(x, n, mode) of R116; modes 0 RNE, 1 RTZ, 2 RDN, 3 RUP, 4 RNA. -/
def rshift (x : Int) (n mode : Nat) : Int :=
  let q := shrI x n
  let r := (x - q * (2 ^ n : Nat)).toNat
  let half := 2 ^ n / 2
  if r = 0 then q
  else if mode = 1 then (if x < 0 then q + 1 else q)
  else if mode = 2 then q
  else if mode = 3 then q + 1
  else if 2 * half ≠ 2 ^ n then q
  else if r < half then q
  else if half < r then q + 1
  else if mode = 4 then (if x < 0 then q else q + 1)
  else if q % 2 = 0 then q else q + 1

/-- Fit y to a signed width under R117: the stored bits, and SAT out of range. -/
def fitS (w : Nat) (sat : Bool) (y : Int) : Out :=
  if satN w y = y then { val := lowN w y, ev := 0 }
  else { val := if sat then lowN w (satN w y) else lowN w y, ev := evSat }

/-- Fit y to an unsigned width under R117 and R190. -/
def fitU (w : Nat) (sat : Bool) (y : Int) : Out :=
  if satnN w y = y then { val := lowN w y, ev := 0 }
  else { val := if sat then lowN w (satnN w y) else lowN w y, ev := evSat }

/-! ### Formats -/

/-- A floating-point format of R119: exponent and mantissa widths, bias, and whether it is f8e4. -/
structure Fmt where
  eb : Nat
  mb : Nat
  bias : Nat
  e4 : Bool
  deriving DecidableEq, Repr

def f64 : Fmt := { eb := 11, mb := 52, bias := 1023, e4 := false }
def f32 : Fmt := { eb := 8, mb := 23, bias := 127, e4 := false }
def f16 : Fmt := { eb := 5, mb := 10, bias := 15, e4 := false }
def bf16 : Fmt := { eb := 8, mb := 7, bias := 127, e4 := false }
def f8e5 : Fmt := { eb := 5, mb := 2, bias := 15, e4 := false }
def f8e4 : Fmt := { eb := 4, mb := 3, bias := 7, e4 := true }

/-- The format of CLASS 3 with a FMT and SEW field (R104). -/
def fmtOf (fmt sew : Nat) : Fmt :=
  if sew = 0 then (if fmt = 0 then f8e4 else f8e5)
  else if sew = 1 then (if fmt = 0 then f16 else bf16)
  else if sew = 2 then f32 else f64

def Fmt.width (f : Fmt) : Nat := 1 + f.eb + f.mb
def Fmt.sign (f : Fmt) (neg : Bool) : Nat := if neg then 2 ^ (f.eb + f.mb) else 0
def Fmt.expOnes (f : Fmt) : Nat := (2 ^ f.eb - 1) * 2 ^ f.mb
/-- Infinity; f8e4 has none and the caller handles it (R119). -/
def Fmt.inf (f : Fmt) (neg : Bool) : Nat := f.sign neg + f.expOnes
/-- Largest finite magnitude (R119). -/
def Fmt.maxMag (f : Fmt) : Nat := if f.e4 then 0x7E else f.expOnes - 1
def Fmt.maxFin (f : Fmt) (neg : Bool) : Nat := f.sign neg + f.maxMag
/-- Default NaN (R119). -/
def Fmt.nan (f : Fmt) : Nat := if f.e4 then 0x7F else f.expOnes + 2 ^ (f.mb - 1)

/-- A value of a format: a NaN, an infinity, or (−1)^neg × m × 2^e. -/
inductive FVal where
  | nan (neg signalling : Bool)
  | inf (neg : Bool)
  | fin (neg : Bool) (m : Nat) (e : Int)
  deriving DecidableEq, Repr

/-- Read an encoding (R119). -/
def Fmt.read (f : Fmt) (x : Nat) : FVal :=
  let neg := x.testBit (f.eb + f.mb)
  let e := x / 2 ^ f.mb % 2 ^ f.eb
  let m := x % 2 ^ f.mb
  if f.e4 ∧ x % 128 = 0x7F then .nan neg false
  else if ¬ f.e4 ∧ e = 2 ^ f.eb - 1 then
    if m = 0 then .inf neg else .nan neg (!m.testBit (f.mb - 1))
  else if e = 0 then .fin neg m (1 - (f.bias : Int) - f.mb)
  else .fin neg (2 ^ f.mb + m) ((e : Int) - f.bias - f.mb)

def Fmt.isNan (f : Fmt) (x : Nat) : Bool := match f.read x with | .nan _ _ => true | _ => false
def Fmt.isSnan (f : Fmt) (x : Nat) : Bool := match f.read x with | .nan _ s => s | _ => false

/-- A NaN quieted: sign and payload kept, the quiet bit set (R122). -/
def Fmt.quiet (f : Fmt) (x : Nat) : Nat := if f.e4 then x else x ||| 2 ^ (f.mb - 1)

/-- The overflowed result of R120. -/
def Fmt.overflow (f : Fmt) (mode : Nat) (neg : Bool) : Nat :=
  if f.e4 then f.maxFin neg
  else if mode = 0 ∨ mode = 4 then f.inf neg
  else if mode = 1 then f.maxFin neg
  else if mode = 2 then (if neg then f.inf neg else f.maxFin neg)
  else if neg then f.maxFin neg else f.inf neg

/-- Magnitude of m × 2^e rounded to an integer multiple of 2^q under a mode, for a sign. -/
def roundMag (m : Nat) (e q : Int) (mode : Nat) (neg : Bool) : Nat :=
  if q ≤ e then m * 2 ^ (e - q).toNat
  else (rshift (if neg then -(m : Int) else m) (q - e).toNat mode).natAbs

/-- Round the non-zero magnitude m × 2^e with a sign once to a format (R120, R121). -/
def Fmt.roundFin (f : Fmt) (mode : Nat) (neg : Bool) (m : Nat) (e : Int) : Out :=
  let emin : Int := 1 - (f.bias : Int)
  let top : Int := e + Nat.log2 m
  let qU := top - f.mb
  let q := max qU (emin - f.mb)
  let r := roundMag m e q mode neg
  let exact := decide (q ≤ e) || decide (r * 2 ^ (q - e).toNat = m)
  let rU := roundMag m e qU mode neg
  -- tiny: rounded with an unbounded exponent, below the smallest normal
  let tiny := decide (rU * 2 ^ (qU - (emin - f.mb) + f.mb + 2).toNat <
    2 ^ (2 * f.mb + 2)) && decide (qU < emin - f.mb)
  let inx := if exact then 0 else evInx
  let q' := if 2 ^ (f.mb + 1) ≤ r then q + 1 else q
  let r' := if 2 ^ (f.mb + 1) ≤ r then r / 2 else r
  let mag := if r' < 2 ^ f.mb then r' else (q' + f.mb + f.bias).toNat * 2 ^ f.mb + (r' - 2 ^ f.mb)
  if f.maxMag < mag then { val := f.overflow mode neg, ev := evOvf + evInx }
  else { val := f.sign neg + mag, ev := inx + (if tiny && !exact then evUnf else 0) }

/-- Round an exact dyadic number to a format; an exact zero takes the sign given (R120). -/
def Fmt.round (f : Fmt) (mode : Nat) (zeroNeg : Bool) (m e : Int) : Out :=
  if m = 0 then { val := f.sign zeroNeg, ev := 0 }
  else f.roundFin mode (decide (m < 0)) m.natAbs e

/-! ### Operations -/

/-- The first NaN operand, quieted, with INV when any operand is signalling or the operation is
invalid in itself (R122 points 1 to 3). -/
def Fmt.nanOf (f : Fmt) (ops : List Nat) (invalid : Bool) : Option Out :=
  match ops.find? f.isNan with
  | some x => some { val := f.quiet x, ev := if ops.any f.isSnan || invalid then evInv else 0 }
  | none => none

/-- A term of an exact sum (R129): an operand or a product, negated when `neg`. -/
structure Term where
  neg : Bool
  a : Nat
  b : Option Nat
  deriving DecidableEq, Repr

/-- The value of a term whose operands are no NaN; none is 0 × ∞ (R122). -/
def Fmt.term (f : Fmt) (t : Term) : Option FVal :=
  match f.read t.a, t.b.map f.read with
  | .fin n m e, none => some (.fin (n != t.neg) m e)
  | .inf n, none => some (.inf (n != t.neg))
  | .fin n m e, some (.fin n' m' e') => some (.fin ((n != n') != t.neg) (m * m') (e + e'))
  | .inf n, some (.inf n') => some (.inf ((n != n') != t.neg))
  | .inf n, some (.fin n' m' _) => if m' = 0 then none else some (.inf ((n != n') != t.neg))
  | .fin n m _, some (.inf n') => if m = 0 then none else some (.inf ((n != n') != t.neg))
  | .nan _ _, _ => none
  | _, some (.nan _ _) => none

/-- A signed dyadic. -/
def signed (neg : Bool) (m : Nat) : Int := if neg then -(m : Int) else m

/-- Exact sum of dyadics at the smallest of their exponents. -/
def sumDy (l : List (Int × Int)) : Int × Int :=
  l.foldl (fun a b =>
    let e := min a.2 b.2
    (a.1 * (2 ^ (a.2 - e).toNat : Nat) + b.1 * (2 ^ (b.2 - e).toNat : Nat), e))
    (match l with | x :: _ => (0, x.2) | [] => (0, 0))

/-- Round the exact sum of terms once (R120 to R122, R129); `ops` is the operand order of R122. -/
def Fmt.sum (f : Fmt) (mode : Nat) (ops : List Nat) (ts : List Term) : Out :=
  let vs := ts.map f.term
  let zeroInf := ts.any (fun t =>
    match f.read t.a, t.b.map f.read with
    | .inf _, some (.fin _ m _) => m == 0
    | .fin _ m _, some (.inf _) => m == 0
    | _, _ => false)
  match f.nanOf ops zeroInf with
  | some o => o
  | none =>
    if zeroInf then { val := f.nan, ev := evInv }
    else
      let infs := vs.filterMap (fun v => match v with | some (.inf n) => some n | _ => none)
      match infs with
      | n :: r =>
        if r.all (· == n) then { val := f.inf n, ev := 0 } else { val := f.nan, ev := evInv }
      | [] =>
        let fs := vs.filterMap (fun v => match v with | some (.fin n m e) => some (n, m, e) | _ => none)
        let x := sumDy (fs.map (fun t => (signed t.1 t.2.1, t.2.2)))
        let zneg := if fs.all (fun t => t.2.1 == 0) && fs.all (·.1) then true
          else if fs.all (fun t => t.2.1 == 0) && fs.all (fun t => !t.1) then false
          else decide (mode = 2)
        f.round mode zneg x.1 x.2

def Fmt.add (f : Fmt) (mode x y : Nat) : Out :=
  f.sum mode [x, y] [{ neg := false, a := x, b := none }, { neg := false, a := y, b := none }]
def Fmt.sub (f : Fmt) (mode x y : Nat) : Out :=
  f.sum mode [x, y] [{ neg := false, a := x, b := none }, { neg := true, a := y, b := none }]
/-- One product; the sign of a zero product is the exclusive OR of the operands' signs (R120). -/
def Fmt.mul (f : Fmt) (mode x y : Nat) : Out := f.sum mode [x, y] [{ neg := false, a := x, b := some y }]
/-- ± x × y ± d (R194, R129). -/
def Fmt.fma (f : Fmt) (mode : Nat) (np nd : Bool) (x y d : Nat) : Out :=
  f.sum mode [x, y, d] [{ neg := np, a := x, b := some y }, { neg := nd, a := d, b := none }]

/-- Division (R120 to R122): the quotient with a sticky bit, rounded once. -/
def Fmt.div (f : Fmt) (mode x y : Nat) : Out :=
  match f.nanOf [x, y] false with
  | some o => o
  | none =>
    match f.read x, f.read y with
    | .inf n, .fin n' _ _ => { val := f.inf (n != n'), ev := 0 }
    | .fin n _ _, .inf n' => { val := f.sign (n != n'), ev := 0 }
    | .fin n m e, .fin n' m' e' =>
      if m' = 0 then
        if m = 0 then { val := f.nan, ev := evInv }
        else { val := if f.e4 then f.maxFin (n != n') else f.inf (n != n'), ev := evDz }
      else if m = 0 then { val := f.sign (n != n'), ev := 0 }
      else
        let k := 2 * f.mb + 6
        let q := m * 2 ^ k / m'
        let r := if m * 2 ^ k % m' = 0 then 0 else 1
        f.roundFin mode (n != n') (2 * q + r) (e - e' - k - 1)
    | _, _ => { val := f.nan, ev := evInv }

/-- Floor of the square root, from bit k down. -/
def isqrt (k n r : Nat) : Nat :=
  match k with
  | 0 => r
  | k + 1 =>
    let t := r + 2 ^ k
    if t * t ≤ n then isqrt k n t else isqrt k n r

/-- Square root (R194, R122). -/
def Fmt.sqrt (f : Fmt) (mode x : Nat) : Out :=
  match f.nanOf [x] false with
  | some o => o
  | none =>
    match f.read x with
    | .inf false => { val := x, ev := 0 }
    | .fin n m e =>
      if m = 0 then { val := x, ev := 0 }
      else if n then { val := f.nan, ev := evInv }
      else
        let k := 2 * f.mb + 6
        -- an even exponent below the value, with at least 2 × mb + 6 bits of root
        let s := if (e - 2 * k) % 2 = 0 then 2 * k else 2 * k + 1
        let v := m * 2 ^ s
        let r := isqrt (v.log2 / 2 + 1) v 0
        f.roundFin mode false (2 * r + (if r * r = v then 0 else 1)) ((e - s) / 2 - 1)
    | _ => { val := f.nan, ev := evInv }

/-- Order of encodings that are no NaN, with −0 below +0 (R195). -/
def Fmt.key (f : Fmt) (x : Nat) : Int :=
  let mag := x % 2 ^ (f.eb + f.mb)
  if x.testBit (f.eb + f.mb) then -(mag : Int) - 1 else mag

/-- Numeric order, −0 equal to +0 (R188). -/
def Fmt.num (f : Fmt) (x : Nat) : Int :=
  let mag := x % 2 ^ (f.eb + f.mb)
  if x.testBit (f.eb + f.mb) then -(mag : Int) else mag

/-- VFMIN and VFMAX (R195). -/
def Fmt.minmax (f : Fmt) (isMax : Bool) (x y : Nat) : Out :=
  if f.isSnan x || f.isSnan y then
    { val := if f.isNan x then f.quiet x else f.quiet y, ev := evInv }
  else if f.isNan x then { val := if f.isNan y then x else y, ev := 0 }
  else if f.isNan y then { val := x, ev := 0 }
  else { val := if (f.key y < f.key x) = (isMax = true) then x else y, ev := 0 }

/-- VFCLAMP (R196): d between x and y. SAT is raised for every result that differs from d, a NaN's too. -/
def Fmt.clamp (f : Fmt) (d x y : Nat) : Out :=
  match f.nanOf [d, x, y] false with
  | some o => { val := o.val, ev := o.ev ||| (if o.val = d then 0 else evSat) }
  | none =>
    let a := if f.key d < f.key x then x else d
    let r := if f.key y < f.key a then y else a
    { val := r, ev := if r = d then 0 else evSat }

/-! ### Conversions (R122 point 4, R123) -/

/-- A NaN carried into another format. -/
def carryNan (src dst : Fmt) (x : Nat) : Nat :=
  let neg := x.testBit (src.eb + src.mb)
  let m := x % 2 ^ src.mb
  if dst.e4 then dst.sign neg + 0x7F
  else
    let m' := if dst.mb ≤ src.mb then m / 2 ^ (src.mb - dst.mb) else m * 2 ^ (dst.mb - src.mb)
    dst.sign neg + (dst.expOnes + (m' ||| 2 ^ (dst.mb - 1)))

/-- Float to float (R123, R199). -/
def cvtFF (src dst : Fmt) (mode x : Nat) : Out :=
  if src = dst then
    { val := if src.isSnan x then src.quiet x else x, ev := if src.isSnan x then evInv else 0 }
  else
    match src.read x with
    | .nan _ s => { val := carryNan src dst x, ev := if s then evInv else 0 }
    | .inf n => if dst.e4 then { val := dst.sign n + 0x7F, ev := evInv } else { val := dst.inf n, ev := 0 }
    | .fin n m e => dst.round mode n (signed n m) e

/-- Float to a fixed or integer range, scaled by 2^frac (R123). -/
def cvtFI (src : Fmt) (w frac : Nat) (sgn : Bool) (mode x : Nat) : Out :=
  let bound := fun (neg : Bool) =>
    if sgn then (if neg then lowN w (-(2 ^ (w - 1) : Nat)) else 2 ^ (w - 1) - 1)
    else if neg then 0 else 2 ^ w - 1
  match src.read x with
  | .nan _ _ => { val := 0, ev := evInv }
  | .inf n => { val := bound n, ev := evInv }
  | .fin n m e =>
    let e' := e + frac
    let r := if 0 ≤ e' then signed n m * (2 ^ e'.toNat : Nat) else rshift (signed n m) (-e').toNat mode
    let fits := if sgn then decide (satN w r = r) else decide (satnN w r = r)
    if fits then
      let exact := decide (0 ≤ e') || decide (r * (2 ^ (-e').toNat : Nat) = signed n m)
      { val := lowN w r, ev := if exact then 0 else evInx }
    else { val := bound n, ev := evInv }

/-- Integer or fixed point, scaled by 2^−frac, to float (R123). -/
def cvtIF (dst : Fmt) (frac mode : Nat) (x : Int) : Out := dst.round mode false x (-(frac : Int))

end Sys2Proof.Machine
end

