-- ==== Sys2Proof/Config.lean ====
section
/-!
DEFINITION. What an implementation or a deployment fixes, and the free values: constants without a
body, so that nothing can be proved about the value each gives. A free value is applied to the
counter that State holds for it, or to the operands it depends on (notes/assumptions).
-/

namespace Sys2Proof

/-- One hard partition as the signed configuration tables give it (R23, R56, R420, R472). -/
structure PartTable where
  /-- Base device physical address, a multiple of 2 MiB (R23). -/
  base : Nat
  /-- Ordered channel list (R23). -/
  channels : List Nat
  /-- Ordered L2 slice list (R56). -/
  slices : List Nat
  /-- Tiles of the partition. -/
  tiles : List Nat
  /-- Capacity of the job table, at most 16,384 (R362). -/
  jobCap : Nat
  deriving DecidableEq, Repr, Inhabited

/-- One virtual function as the tables give it (R420, R473, R39). -/
structure VfTable where
  /-- The partition of the function. -/
  part : Nat
  /-- The key slot, which is its key identifier (R27, R30). -/
  kid : Nat
  /-- Stage-1 root of the default context, GPA bits 39:15. -/
  root : BitVec 25
  /-- ASID of the default context. -/
  asid : BitVec 12
  deriving DecidableEq, Repr, Inhabited

/-- The three fits of the package (R22). -/
inductive Fit where
  | gib256
  | gib512
  | gib768
  deriving DecidableEq, Repr, Inhabited

/-- Capacity of one channel in bytes (R22). -/
def Fit.channelBytes : Fit → Nat
  | .gib256 => 4 * 2 ^ 30
  | .gib512 => 8 * 2 ^ 30
  | .gib768 => 12 * 2 ^ 30

/-- What an agent of debug reaches: thread slots, VCs and partitions, by number (R433). -/
structure DebugTable where
  slots : List Nat
  vcs : List Nat
  parts : List Nat
  deriving DecidableEq, Repr, Inhabited

/-- The signed configuration tables that bring-up applies (R441 step 6). -/
structure SignedTables where
  /-- Partitions, by number. -/
  parts : List (Nat × PartTable)
  /-- Virtual functions, by number. -/
  vfs : List (Nat × VfTable)
  /-- Partition of each LDPC and polar engine, by engine number (R76). -/
  engines : List (Nat × Nat)
  /-- Host DMA windows as (base, size) host physical ranges (R417). -/
  dma : List (Nat × Nat)
  /-- Lowest and highest package power cap (R444). -/
  powerLo : BitVec 10
  powerHi : BitVec 10
  /-- The fit (R22). -/
  fit : Fit
  /-- Channels whose training failed (R441 step 4). -/
  failed : BitVec 64
  /-- VCs excluded by the caldera test (R442). -/
  excluded : List Nat
  /-- The twin link: enabled, INVF, aperture (R418). -/
  twinEn : Bool
  twinInvf : BitVec 9
  twinAp : BitVec 12
  /-- Source MAC address of each fronthaul port, from port 0 (R68). -/
  portMacs : List (BitVec 48)
  /-- Egress rate limit of each fronthaul port in bytes per microsecond, from port 0; 0 is none (R432). The
  manual gives the limits no unit (log entry 106). -/
  portRates : List Nat
  /-- Whether the test access port is enabled, and what it reaches (R433). -/
  tap : Bool
  tapReach : DebugTable
  /-- What the HC reaches of the registers of debug (R433). -/
  hcReach : DebugTable
  deriving DecidableEq, Repr, Inhabited

namespace Config

/-- The tables a deployment signs. -/
opaque tables : SignedTables

/-- Whether firmware verification passes at bring-up step 2 (R441). -/
opaque firmwareGood : Bool

/-- Whether keying IDE succeeds on a port at bring-up step 3 (R441): 0 is the host port, 1 the twin port. -/
opaque ideKeyed : Nat → Bool

/-- A scalar word whose value is not promised. -/
opaque freeWord : Nat → W64

/-- A vector register's contents where they are not promised (R289, R351, R353). -/
opaque freeReg : Nat → BitVec 131072

/-- A byte whose value is not promised. -/
opaque freeByte : Nat → Byte

/-- A choice the manual leaves open. -/
opaque freeBit : Nat → Bool

/-- A number the manual leaves open, such as elapsed nanoseconds. -/
opaque freeNat : Nat → Nat

/-- The SM4 block cipher (R27), which the manual cites and does not give: from key and block. -/
opaque sm4Encrypt : BitVec 128 → BitVec 128 → BitVec 128

/-- CMAC over SM4 (R27): from key, length of the message in bits and message. -/
opaque cmacSm4 : BitVec 128 → Nat → Nat → BitVec 128

/-- Data key and MAC key of a key slot that has been given a new key so many times (R27, R34). -/
opaque dataKey : Nat → Nat → BitVec 128
opaque macKey : Nat → Nat → BitVec 128

/-- Tree key of a partition (R26). -/
opaque treeKey : Nat → BitVec 128

/-- The parity checks of a base graph of TS 38.212, which the manual cites and does not give (R84): from
base graph, lifting size and check rows to the codeword positions that each check sums. -/
opaque ldpcChecks : Bool → Nat → Nat → List (List Nat)

/-- The hard decisions of an LDPC decoder after some iterations, whose arithmetic the manual does not give
(R84): from base graph, lifting size, check rows, filler bits, iterations and LLRs to the codeword. -/
opaque ldpcHard : Bool → Nat → Nat → Nat → Nat → List Int → List Bool

/-- The parity bits of an LDPC codeword (R84): from base graph, lifting size, check rows and the information
bits, fillers included. -/
opaque ldpcParity : Bool → Nat → Nat → List Bool → List Bool

/-- The paths of successive cancellation list decoding with list size 8 (R85), whose metrics the manual does
not give: from LOGN, frozen bitmap and LLRs to each path's information bits and metric, by list index. -/
opaque polarPaths : Nat → List Bool → List Int → List (List Bool × Nat)

/-- Whether the twin refuses a read of its memory by a walker, the hub or the HC (R419): from the counter of
free values and the GPA. -/
opaque twinRefusesRead : Nat → Nat → Bool

/-- The bytes of a signed attestation report (R431), from the function, its incarnation and the
nonce. -/
opaque attestReport : Nat → Nat → List Byte → List Byte

end Config

end Sys2Proof
end

