-- ==== Sys2Proof/Machine/State.lean ====
section
/-!
DEFINITION. The state of the package: plain data that holds every piece of state the manual names.
A register file or table is a list of (number, value) pairs with strictly rising numbers and no
pair that holds the table's default value; a number that is not listed holds that default. Memory
is such a list of (location, byte) pairs (Host.Cell) whose default is the zero byte.
-/

namespace Sys2Proof.Machine

open Sys2Proof

/-- A sparse table: rising keys, no default values (see Machine/Table.lean). -/
abbrev Table (α : Type) := List (Nat × α)

/-- The three privilege levels (R324). -/
inductive Mode where
  | U
  | L
  | S
  deriving DecidableEq, Repr

/-- What a thread that is not ready waits for (R282). -/
inductive Wait where
  /-- MMA or MMAS running on the array (R234). -/
  | array
  /-- MMA or MMAS queued for the array, holding its tile (R234, R238). -/
  | arrayQueue (t : BitVec 4)
  /-- SETVL on a chain slot, with the mark, final flag, CAP, YREQ and PWR it saw (R287). -/
  | chain (mark : W64) (fin : Bool) (cap : BitVec 4) (yreq : Bool) (pwr : BitVec 4)
  /-- BARWAIT or BARW on a phase of a group (R334). -/
  | barrier (group : BitVec 12) (phase : BitVec 32)
  /-- PHEND on train acknowledgements (R274 step 2). -/
  | phend
  /-- EWAIT on a node (R245). -/
  | node (id : BitVec 16)
  /-- A full engine queue or lock table (R93, R244), or a full lock table under WDECL (R247). -/
  | engineRoom
  /-- NAP with a wake count of zero (R319). -/
  | nap
  /-- A committed VAPPEND waiting for COMMIT (R181): header location, first reserved entry, count. -/
  | commit
  /-- ASAVE, ARST or a write of aown on a held tile (R238). -/
  | tileHeld (t : BitVec 4)
  /-- An owner store that needs a fifth pending line (R276). -/
  | pendingLine
  /-- QDRAIN on queues that are not empty (R348). -/
  | queues
  /-- JDONE, HALT or a FENCE on train acknowledgements (R339, R321, R270). -/
  | trains
  /-- FENCEE on engine range locks (R275). -/
  | locks
  /-- The watch unit at work (R387). -/
  | watch
  /-- An access that follows a JSTAT which read ABANDONED: the job's markers are still to be written (R273,
  R374). -/
  | settle
  /-- A fetch whose walker's update of A waits for a line (R42). -/
  | fetch
  /-- A read of a line that another agent's window lock, page migration or back-invalidate holds
  (R247, R52, R278). -/
  | line
  deriving DecidableEq, Repr

/-- A stop requested from outside (R398). -/
inductive StopReq where
  /-- FORCED with eval 1 (yield or reclaim timeout), 2 (class-0 dispatch) or 3 (debug halt). -/
  | forced (why : BitVec 2)
  /-- Abandonment of the job (R373). -/
  | abandon
  /-- SPANLOST, with the lost partner VC (R293). -/
  | spanLost (vc : BitVec 9)
  deriving DecidableEq, Repr

/-- s0 to s31, the program counter and the privilege level (R98, R145, R324). -/
structure Scalars where
  /-- Convoy address of the next convoy (R145). -/
  pc : W64
  mode : Mode
  /-- s1 to s31; s0 is never listed (R98). -/
  s : Table W64
  deriving DecidableEq, Repr

/-- Vector, predicate, length and type state (R99, R102, R103, R105, R106). -/
structure VecState where
  /-- v0 to v31: the bytes of a register in register byte order (R100), at most 16 KiB. -/
  v : Table (BitVec 131072)
  /-- p0 to p95 (R102). -/
  p : Table (BitVec 4096)
  /-- CSR 0x000. -/
  vl : BitVec 13
  /-- CSR 0x001, bits 22:0. -/
  vtype : BitVec 23
  /-- CSRs 0x004 to 0x00B, VS (R106). -/
  vstart : Table (BitVec 13)
  /-- CSR 0x00E: SLOT, BOUND, FINAL. -/
  chSlot : BitVec 10
  chBound : Bool
  chFinal : Bool
  /-- CSR 0x00F. -/
  vcur : W64
  /-- CSR 0x010. -/
  vkeep : BitVec 32
  deriving DecidableEq, Repr

/-- The lane groups a thread holds and its grant controls: vgcap 0x00C and vlg 0x00D (R105). -/
structure Held where
  cap : BitVec 4
  yreq : Bool
  pwr : BitVec 4
  loc : BitVec 4
  remote : BitVec 4
  pvc : BitVec 9
  deriving DecidableEq, Repr

/-- Flags and solver controls (R107). -/
structure Flags where
  /-- CSR 0x011: INV, DZ, OVF, UNF, INX, SAT, PIV, WSX in bits 0 to 7. -/
  vflg : BitVec 8
  /-- CSR 0x012. -/
  vflgpc : W64
  /-- CSR 0x013. -/
  vtrapen : BitVec 8
  /-- CSRs 0x014 to 0x01A: vidx.inv to vidx.piv. -/
  vidx : Table (BitVec 13)
  /-- CSR 0x01B. -/
  vhr : BitVec 6
  /-- CSR 0x01C. -/
  vpthr : BitVec 32
  /-- CSR 0x01D. -/
  vlam : BitVec 32
  /-- CSR 0x020: K, ROW, ACT. -/
  mpK : BitVec 13
  mpRow : BitVec 5
  mpAct : Bool
  /-- CSR 0x021: CBASE, CSIZE. -/
  cbase : BitVec 15
  csize : BitVec 16
  /-- CSR 0x030: THR, STNA (R58). -/
  l2thr : BitVec 40
  l2stna : Bool
  deriving DecidableEq, Repr

/-- estat 0x113 (R109). -/
structure Estat where
  mbr : BitVec 2
  nmbr : BitVec 2
  vpart : Bool
  mpart : Bool
  qfull : Bool
  pfw : Bool
  qoff : Bool
  node : BitVec 16
  deriving DecidableEq, Repr

/-- The trap records and the other L-mode CSRs 0x110 to 0x11C (R109), and s1root 0x200 (R39). -/
structure Recs where
  epc : W64
  cause : BitVec 8
  lvl : BitVec 2
  val : W64
  estat : Estat
  /-- tvec.BASE, bits 63:6. -/
  tvec : BitVec 58
  /-- escx0 to escx3. -/
  escx : Table W64
  /-- vdirty 0x119: REG, CFG, FLG, ABSENT. -/
  dReg : BitVec 32
  dCfg : Bool
  dFlg : Bool
  absent : Bool
  /-- pdirty 0x11A. -/
  dPred : BitVec 3
  ctag : BitVec 16
  /-- vsave.BASE, bits 63:12. -/
  vsave : BitVec 52
  /-- s1root: ASID, ROOT. -/
  asid : BitVec 12
  root : BitVec 25
  deriving DecidableEq, Repr

/-- One level of a loop nest (R295, R313: lnlev0–5). -/
structure NestLevel where
  creg : BitVec 5
  areg : BitVec 5
  drain : Bool
  inc : BitVec 48
  deriving DecidableEq, Repr

/-- The loop nest of a thread: CSRs 0x210 to 0x21D (R313) and the loop buffer (R295, R312). -/
structure Nest where
  open_ : Bool
  armed : Bool
  nlev : BitVec 3
  blen : BitVec 4
  pos : BitVec 4
  /-- lnbody.BODY: the address of the first body convoy divided by 4. -/
  body : BitVec 62
  lev : Table NestLevel
  init : Table W64
  /-- The loop buffer: each body convoy's address and words, in order; empty when discarded. -/
  buf : List (W64 × List W32)
  /-- A CSR write has changed what the buffer holds: it is discarded when the convoy in hand retires, or
  before the thread's next convoy (R312, R313; model's own). -/
  stale : Bool
  deriving DecidableEq, Repr

/-- Identity CSRs 0x050 to 0x052 (R108); THREAD is the slot's number. -/
structure Ident where
  vf : BitVec 9
  part : BitVec 5
  job : BitVec 32
  deadline : W64
  deriving DecidableEq, Repr

/-- One entry of a store buffer: its writes, each a location and a byte, with the key identifier
the translation gave (R171, R265). `big` marks a vector store above l2thr.THR with STNA = 1, and
`full` the lines that such a store writes whole (R57). `keep` is the VC of a scalar store, whose
data-cache copy it updates (R59), `rel` marks a release (R268), and `num` numbers the thread's store
instructions: entries of one instruction keep their order (R171, R267). A beat whose writes have several
key identifiers is one entry in several records, all but the last marked `more`. -/
structure BufEntry where
  writes : List (Nat × Byte)
  kid : Nat
  big : Bool
  full : List Nat
  keep : Option Nat
  rel : Bool
  num : Nat
  more : Bool
  deriving DecidableEq, Repr

/-- An entry that allocates as other stores do (R57). -/
def BufEntry.plain (writes : List (Nat × Byte)) (kid : Nat) : BufEntry :=
  { writes := writes, kid := kid, big := false, full := [], keep := none, rel := false, num := 0,
    more := false }

/-- A remote train in flight (R176 to R179): its number, destination, elements (location and
bytes), sending lanes, and whether it has arrived and with what result. -/
structure Train where
  num : BitVec 16
  dest : Dest
  vf : BitVec 9
  kid : Nat
  elems : List (Nat × List Byte)
  /-- The lane of each element (R177). -/
  lanes : List Nat
  /-- The COUNT of the tail flit. -/
  count : Nat
  arrived : Bool
  error : Bool
  deriving DecidableEq, Repr

/-- A declared accumulation window (R247): base address, control word, the copies (lane × 2^11 +
word ↦ value; a listed word is touched), and whether a stop has discarded it (R250). -/
structure Window where
  base : W64
  ctl : W64
  touched : List (Nat × W64)
  discarded : Bool
  deriving DecidableEq, Repr

/-- A committed VAPPEND (R181): its header's address and place (location, key identifier, ownership of a
sharing window), its first entry, the entries it has reserved, the mask of those it has not, the instruction
and its word. -/
structure Append where
  hdr : W64
  loc : Nat
  kid : Nat
  owner : Bool
  first : W64
  count : Nat
  rejected : BitVec 4096
  instr : Instr
  word : W32
  deriving DecidableEq, Repr

/-- What belongs to the thread slot rather than to the scalar context: the store buffer, trains,
counters, wake count, waits and pending stops. -/
structure SlotHw where
  /-- The slot holds a context (R280). -/
  occ : Bool
  /-- The context is on the SC (R404). -/
  mig : Bool
  /-- The context executed HALT on the SC and stays migrated and not ready (R321). -/
  parked : Bool
  /-- Wake count (R319). -/
  wake : BitVec 8
  wait : Option Wait
  /-- Pending stop requests, in order (R398). -/
  stops : List StopReq
  /-- Oldest entry first (R171). -/
  buf : List BufEntry
  /-- Number of the next store instruction (R171). -/
  storeNum : Nat
  /-- Blocks of words the thread has fetched, by location / 64, kept until its IFENCE (R277). -/
  fetched : Table (BitVec 512)
  trains : List Train
  /-- Next train number (R178). -/
  trainNum : BitVec 16
  /-- Unacknowledged-element counters by lane (R177). -/
  unack : Table Nat
  /-- Trains acknowledged with an error, in order: the location of the first element, for the next PHEND or
  FENCE (R179). -/
  trainErr : List Nat
  /-- The end of the BARWAIT the slot waits in: group, phase, and whether the group became free (R332,
  R334). -/
  barDone : Option (BitVec 12 × BitVec 32 × Bool)
  /-- Jobs that a JSTAT of the thread read as ABANDONED, whose markers its later accesses must see (R374). -/
  settles : List (BitVec 32)
  window : Option Window
  /-- Old base of a window a stop discarded, until the next window instruction (R250). -/
  lostWindow : Option W64
  append : Option Append
  /-- The slot belongs to a span held from this slot of the partner VC (R288). -/
  spanOf : Option Nat
  /-- The issue-rate reduction is in force (R290). -/
  rate : Bool
  /-- A forced FORCED handler with eval 2 is running (R368). -/
  forced2 : Bool
  /-- The slot was chosen to be freed for a class-0 job (R368). -/
  victim : Bool
  /-- Members detached from their producers, by member number (R172). -/
  detached : List (BitVec 2)
  /-- Where the convoy in hand is to stop part-way, one mark for each held group, or none (R399; model's
  own). -/
  cut : List Nat
  /-- DBGT: STEP, CLAIM, HALTREQ, TREN (R434). -/
  dbStep : Bool
  dbClaim : Bool
  dbHalt : Bool
  dbTrace : Bool
  /-- A debug halt has gone before a STEP: until an ERET returns to this mode no STEP is taken, so that it follows
  the resumed convoy (R434). -/
  stepHold : Option Mode
  /-- The convoy in hand has issued: its trace records are written (R436, R437; model's own). -/
  issued : Bool
  deriving DecidableEq, Repr

/-- One thread slot with its context. -/
structure Thread where
  sc : Scalars
  vec : VecState
  held : Held
  fl : Flags
  tr : Recs
  nest : Nest
  id : Ident
  hw : SlotHw
  deriving DecidableEq, Repr

/-- What became of a convoy member that did not retire by itself: a trap, or a wait (model's own). -/
structure TrapInfo where
  cause : Nat
  val : W64
  /-- epc is the next convoy rather than the trapping one (R393). -/
  next : Bool
  node : BitVec 16
  qfull : Bool
  qoff : Bool
  pfw : Bool
  deriving DecidableEq, Repr

/-- A fault of a batch (R50). -/
structure PFault where
  va : W64
  stage2 : Bool
  level : Nat
  bad : Bool
  gpa : Nat
  acc : Access
  deriving DecidableEq, Repr

/-- How the convoy in hand is run (model's own; no register of the machine). A member of a convoy
of several leaves its retirement, its traps and its scalar results here. -/
structure Convoy where
  /-- The convoy has more than one member. -/
  many : Bool
  /-- Number of the member in hand, and members minus 1 (R392, estat.MBR and NMBR). -/
  mbr : BitVec 2
  nmbr : BitVec 2
  /-- Length in bytes. -/
  len : Nat
  /-- Elements withheld from every member (R401). -/
  withheld : BitVec 4096
  /-- Elements at or beyond a part-way stop: for each held group the first index not performed
  (R399); empty when the convoy is not stopped. -/
  cut : List Nat
  /-- Scalars that members write, committed when the convoy retires (R146, R201). -/
  late : List (BitVec 5 × W64)
  /-- Event classes raised by the members (R134), and by each member that raised some, in order (R109). -/
  raised : BitVec 8
  raisers : List (BitVec 2 × BitVec 8)
  /-- The elements a memory member found faulted in this pass (R401). -/
  faulted : BitVec 4096
  trap : Option TrapInfo
  trapMbr : BitVec 2
  /-- The word in hand, for eval. -/
  word : W32
  /-- A vector instruction is among the members: completion clears the progress records (R400). -/
  vector : Bool
  /-- A member waits: the convoy has not completed. -/
  waits : Bool
  /-- Number of the thread's next store instruction at the convoy's issue: entries from it on are the convoy's
  own (R397). -/
  base : Nat
  /-- Batches of faults that the members of a convoy of several have found, to be appended once no other trap
  of the convoy prevails (R48, R397). -/
  batches : List (List PFault)
  deriving DecidableEq, Repr

/-- A translation cached in a TLB (R45). -/
structure TlbEntry where
  vf : BitVec 9
  asid : BitVec 12
  global : Bool
  /-- VA of the page and the power of two that is its size (18, 24 or 36). -/
  page : Nat
  logSize : Nat
  /-- Guest physical base of the page, and the stage-2 entry of one of its 2 MiB units. -/
  gpa : Nat
  gfn : Nat
  st2 : BitVec 64
  perm : BitVec 3
  um : Bool
  dirty : Bool
  deriving DecidableEq, Repr

/-- A non-leaf stage-1 entry in a tile's walker cache (R45): function, its GPA and its value. -/
structure WalkEntry where
  vf : Nat
  gpa : Nat
  val : BitVec 64
  deriving DecidableEq, Repr

/-- Where a TLB stands (R45). -/
inductive TlbPlace where
  | lane (vc group : Nat)
  | scalar (vc : Nat)
  | tile (t : Nat)
  deriving DecidableEq, Repr

/-- One valid way of an L2 set (R56, R57): its number, and its 128-byte line by physical address / 128. -/
structure L2Way where
  way : Nat
  line : Nat
  kid : Nat
  dirty : Bool
  age : Nat
  deriving DecidableEq, Repr

/-- The counters of a 512-byte group (R25): MAJOR and the eight MINORs. -/
structure Counters where
  major : BitVec 64
  minor : BitVec 56
  deriving DecidableEq, Repr

/-- Frame states (R31). -/
inductive FrameState where
  | free
  | assigned
  | releasing
  deriving DecidableEq, Repr

/-- A 2 MiB data frame (R31). -/
structure Frame where
  st : FrameState
  kid : BitVec 9
  maps : Nat
  deriving DecidableEq, Repr

/-- A vector or matrix member that a trace unit follows from issue to the end of its occupancy (R437): its
number in order of issue, slot, pipe and member number, the registers and predicates that it writes, the
numbers of the members in flight that it takes some from (R284), GROUPS and VL at issue, whether its begin event is written, whether it has
detached (R172), and, once its convoy has been performed, the event that it ends with: 1, or 4 at a stop
part-way. -/
structure Flight where
  num : Nat
  slot : Nat
  pipe : Nat
  mbr : BitVec 2
  vw : List (Nat × Nat)
  pw : List Nat
  after : List Nat
  groups : BitVec 8
  vl : BitVec 13
  begun : Bool
  detached : Bool
  last : Option Nat
  deriving DecidableEq, Repr

/-- Per-VC state: aown_t, accumulator tiles, caldera, instruction cache, scalar data cache, array
use and trace unit (R13, R59, R71, R73, R74, R234, R436, R439). -/
structure Vc where
  aown : Table (BitVec 16)
  /-- The function of the context that made each tile its own (R74). -/
  aownVf : Table (BitVec 9)
  /-- Tile t: C[m][n] in bits 32 × (32 m + n) upward (R73). -/
  acc : Table (BitVec 32768)
  /-- Caldera bytes by column × 32,768 + slice offset (R71, R78). -/
  cald : Table Byte
  /-- Poisoned 8-byte words of the caldera and the tiles (R75). -/
  caldPoison : List Nat
  accPoison : List Nat
  /-- Instruction cache: location / 64 and 64-byte block, oldest first (R59, R277). -/
  icache : List (Nat × BitVec 512)
  /-- Scalar data cache: the 64-byte lines it holds, oldest first; their data equals the home's, where it
  is held once (R59, R264). -/
  dcache : List Nat
  /-- The slot whose matrix instruction has the array, with its tile; the slot that last used it. -/
  array : Option (Nat × BitVec 4)
  lastArray : Nat
  /-- The VC is excluded (R442). -/
  excluded : Bool
  /-- TRCTL and TRPTR (R439). -/
  trEn : Bool
  trStopFull : Bool
  trPipes : BitVec 6
  trBase : BitVec 22
  trSize : BitVec 8
  trWptr : BitVec 19
  trWrap : Bool
  /-- Records since the last sync record, and records dropped (R436, R438). -/
  trSince : Nat
  trLost : Nat
  /-- The FIFO of at most 64 records on their way to the buffer, oldest first (R438). -/
  trFifo : List W64
  /-- Members in flight, in order of issue, and the number of the next (R437). -/
  flights : List Flight
  flightNum : Nat
  /-- Trigger messages with their T0 (R440): n on its way, 4 + n received and not yet acted on. -/
  trPend : List (Nat × Nat)
  deriving DecidableEq, Repr

/-- The space a range lock or a bounding range lies in (R87, R93). -/
inductive Space where
  | mem (vf : BitVec 9) (asid : BitVec 12)
  | scratch (tile : Nat)
  | caldera (vc : Nat)
  deriving DecidableEq, Repr

/-- A range lock (R93): bounds are inclusive. `window` is the declaring slot of a window lock. -/
structure Lock where
  space : Space
  lo : Nat
  hi : Nat
  write : Bool
  node : BitVec 16
  cmd : Nat
  window : Option Nat
  deriving DecidableEq, Repr

/-- The states of a node (R89, R245). -/
inductive NodeState where
  | free
  | reserved
  | pending
  | launched
  | running
  | done
  | error
  | cancelled
  deriving DecidableEq, Repr

/-- A node of the command graph (R88, R89). -/
structure Node where
  st : NodeState
  status : Nat
  count : Nat
  succ : List (BitVec 16)
  /-- The command or job that names it, and the function whose instruction gave it its present state. -/
  cmd : Option Nat
  job : Option (BitVec 32)
  vf : Nat
  deriving DecidableEq, Repr

/-- The three kinds of engine command (R76). -/
inductive EngKind where
  | copy
  | ldpc
  | polar
  deriving DecidableEq, Repr

/-- The operands of a COPY entry of a submission ring (R422): TAG, both sides, and which of them are host
DMA addresses. -/
structure RingCopy where
  tag : BitVec 16
  src : Nat
  dst : Nat
  srcHost : Bool
  dstHost : Bool
  len : Nat
  deriving DecidableEq, Repr

/-- A command in an engine's queue (R76, R77, R80, R96). -/
structure Cmd where
  id : Nat
  kind : EngKind
  encode : Bool
  desc : List Byte
  node : BitVec 16
  cls : BitVec 2
  vf : BitVec 9
  asid : BitVec 12
  root : BitVec 25
  mode : Mode
  slot : Nat
  job : BitVec 32
  cbase : BitVec 15
  csize : BitVec 16
  /-- The ring entry that the command performs, if it is no instruction's (R423). -/
  ring : Option RingCopy
  /-- Elements of a copy already performed (R96), and the old values of bytes that it has written and is still
  to read (R80); whether the engine runs the command now. -/
  progress : Nat
  old : List (Nat × Byte)
  running : Bool
  /-- Cancelled while running, and by a failed predecessor: it ends at its next boundary, with status 6 or 7 (R89,
  R92). -/
  cancelled : Bool
  predFailed : Bool
  /-- Stopped on a page fault: the fault-queue slot awaited, or none when the queue was full (R95). -/
  faulted : Option (Option Nat)
  deriving DecidableEq, Repr

/-- IRCTL, IRGEO, IRSTAT of an ingest region (R63) and the slots it has received (R65, R67). -/
structure Ingest where
  en : Bool
  ports : BitVec 8
  eaxc : BitVec 16
  a : BitVec 7
  vf : BitVec 9
  mu : BitVec 2
  comp : BitVec 2
  ld : BitVec 2
  err : Bool
  base : BitVec 22
  prbs : BitVec 9
  node : BitVec 16
  late : BitVec 16
  lateCnt : BitVec 16
  earlyCnt : BitVec 16
  fmtCnt : BitVec 16
  /-- Slots with a section received and not yet closed. -/
  seen : List Nat
  deriving DecidableEq, Repr

/-- FLCTL, FLDST, FLQ, FLSTAT of an egress flow (R68), with the fetched descriptors (R70). -/
structure Flow where
  en : Bool
  port : BitVec 3
  comp : BitVec 2
  vf : BitVec 9
  eaxc : BitVec 16
  vid : BitVec 12
  pcp : BitVec 3
  err : Bool
  dmac : BitVec 48
  tile : BitVec 4
  base : BitVec 18
  logn : BitVec 4
  sent : BitVec 32
  lateCnt : BitVec 16
  drop : BitVec 16
  /-- Descriptors fetched and not yet sent: TXTIME, descriptor word (bytes 31:16), payload. -/
  ready : List (Nat × Nat × List Byte)
  deriving DecidableEq, Repr

/-- A message that left a fronthaul port (R70): port, source and destination MAC, VLAN tag (VID, PCP), eAxC,
the descriptor's frame, subframe, slot, symbol, first PRB and PRB count, COMP, and the payload. -/
structure Sent where
  port : BitVec 3
  smac : BitVec 48
  dmac : BitVec 48
  vid : BitVec 12
  pcp : BitVec 3
  eaxc : BitVec 16
  frame : Nat
  subframe : Nat
  slotId : Nat
  symbol : Nat
  startPrb : Nat
  numPrb : Nat
  comp : BitVec 2
  payload : List Byte
  deriving DecidableEq, Repr

/-- A received section (R64). -/
structure Section where
  eaxc : Nat
  frameId : Nat
  subframe : Nat
  slotId : Nat
  symbol : Nat
  startPrb : Nat
  numPrb : Nat
  comp : Nat
  time : Nat
  prbs : List Byte
  deriving DecidableEq, Repr

/-- Per-tile state: the lock table, the nodes, the edge pool and the ingest regions (R13, R63, R88,
R93), and the queue of contexts on the SC in arrival order (R404). -/
structure Tile where
  locks : List Lock
  nodes : Table Node
  edges : Nat
  ingest : Table Ingest
  scQueue : List Nat
  deriving DecidableEq, Repr

/-- A member of a group (R331): global slot, ARR, LA and BW. -/
structure Member where
  slot : Nat
  arr : Bool
  la : BitVec 32
  bw : Bool
  deriving DecidableEq, Repr

/-- A live group-table entry (R286, R331); an entry with no member is free. -/
structure Group where
  members : List Member
  phase : BitVec 32
  deriving DecidableEq, Repr

/-- A chain slot (R294). -/
structure Chain where
  mark : W64
  fin : Bool
  deriving DecidableEq, Repr

/-- Job states (R364). -/
inductive JobState where
  | pending
  | ready
  | running
  | done
  | abandoned
  deriving DecidableEq, Repr

/-- A job-table entry (R360 to R364). -/
structure Job where
  gen : BitVec 18
  live : Bool
  st : JobState
  vf : BitVec 9
  desc : List Byte
  parent : BitVec 32
  /-- The nearest ancestor that is live: the parent, or past parents that have been retired (R370). -/
  line : BitVec 32
  node : BitVec 16
  deadline : W64
  cause : BitVec 3
  result : BitVec 32
  /-- a0 at start, for a job that VAPPEND spawned (R181). -/
  a0 : Option W64
  /-- The slot it runs on, and the save area it may be resumed from, with the ASID and root that
  translate it (R414). -/
  slot : Option Nat
  resume : Option (W64 × BitVec 12 × BitVec 25)
  /-- Order of entry into READY, and of dispatch (R366, R368). -/
  readyAt : Nat
  runAt : Nat
  /-- The markers and completion word are still to be written (R373). -/
  settling : Bool
  /-- The slot of the victim pre-empted for this class-0 job (R368). -/
  wants : Option Nat
  /-- The lane groups of that victim and of its span's partner VC, kept for the job until its first SETVL
  (R291, R368). -/
  keep : BitVec 4
  keepRem : BitVec 4
  /-- Old base of a window that a stop discarded, while the context is off its slot (R250). -/
  lost : Option W64
  /-- Train errors not yet reported, while the context is off its slot (R179). -/
  errs : List Nat
  deriving DecidableEq, Repr

/-- A slot's routine (R254): the function that installed it, its words, whether it drains. -/
structure Routine where
  vf : BitVec 9
  words : List W32
  draining : Bool
  deriving DecidableEq, Repr

/-- TRG of one trigger (R440). -/
structure Trigger where
  act : BitVec 2
  onbk : Bool
  delay : BitVec 16
  men : Bool
  maddr : BitVec 42
  deriving DecidableEq, Repr

/-- Per-partition state. -/
structure Part where
  exists_ : Bool
  table : PartTable
  /-- fqcfg, fqhead, fqtail (R49). -/
  fqTile : BitVec 4
  fqBase : BitVec 18
  fqLog : BitVec 4
  fqHead : BitVec 12
  fqTail : BitVec 12
  /-- stvec.BASE (R327) and prqcfg (R426). -/
  stvec : BitVec 58
  prqTile : BitVec 4
  prqBase : BitVec 18
  prqLog : BitVec 4
  /-- s1inv: SCOPE, ASID, VA, BUSY (R54), and the function of the context that wrote it. -/
  invScope : BitVec 2
  invVf : BitVec 9
  invAsid : BitVec 12
  invVa : BitVec 42
  invBusy : Bool
  groups : Table Group
  chains : Table Chain
  jobs : Table Job
  /-- Order counters for READY and RUNNING (R366). -/
  readyCount : Nat
  runCount : Nat
  /-- Deficits by VF × 4 + class, the queue visited last, and whether its visit goes on (R366). -/
  deficit : Table Nat
  lastQueue : Nat
  visiting : Bool
  routines : Table Routine
  /-- MIGCFG.THR (R53). -/
  migThr : BitVec 16
  freeze : Bool
  triggers : Table Trigger
  deriving DecidableEq, Repr

/-- Per-function state. -/
structure Vf where
  part : BitVec 5
  kid : BitVec 9
  root : BitVec 25
  asid : BitVec 12
  failed : Bool
  resetting : Bool
  /-- VFRST.GO (R421). -/
  frGo : Bool
  inc : BitVec 8
  drops : BitVec 16
  /-- RMVF and RMREF (R362, R370). -/
  w1 : BitVec 8
  w2 : BitVec 8
  w3 : BitVec 8
  c0 : Bool
  maxJob : BitVec 14
  rmref : BitVec 32
  /-- SLRLIM.MAX and the routine map (R254). -/
  slrMax : BitVec 7
  rmap : Table Nat
  /-- WSEQ, WLIST, WRC, WNOTE (R375). -/
  wsBase : BitVec 16
  wsCount : BitVec 17
  wsErr : Bool
  logstr : BitVec 4
  lbase : BitVec 58
  rcbase : BitVec 62
  wnote : BitVec 64
  /-- Migration pool, oldest first, and MIGPUSH's FRAME and ERR (R53). -/
  pool : List (BitVec 31)
  mpFrame : BitVec 31
  mpErr : Bool
  /-- SQCFG, SQTAIL, CQCFG, CQHEAD (R421) and the device's ring positions. -/
  sqBase : BitVec 34
  sqLog : BitVec 4
  sqTail : BitVec 12
  sqHead : BitVec 12
  cqBase : BitVec 34
  cqLog : BitVec 4
  cqHead : BitVec 12
  cqTail : BitVec 12
  cqPhase : Bool
  /-- Interrupts raised and not yet taken by the host, as MSI-X vectors, and the notify vector (R422,
  R424); the vector of completions, whose index the manual does not give, stands as 2^16. -/
  msix : List Nat
  notifyVec : BitVec 16
  /-- Handle map of proxied service calls: device handle and host handle (R428). -/
  handles : List (Nat × Nat)
  /-- Budget ALLOW and units left, by kind × 4 + class (R97). -/
  allow : Table (BitVec 16)
  left : Table (BitVec 16)
  deriving DecidableEq, Repr

/-- A tentative token of a watch sequence, with the entries it hit and its winner (R376, R382). -/
structure Draft where
  tok : BitVec 24
  hits : List Nat
  win : Option Nat
  deriving DecidableEq, Repr

/-- A watch sequence (R376). -/
structure Seq where
  inuse : Bool
  stopped : Bool
  pos : BitVec 64
  /-- Newest first, at most 7. -/
  hist : List (BitVec 24)
  /-- Entries 0 to 7, as 256-bit images (R377). -/
  entries : Table (BitVec 256)
  run : List (BitVec 24)
  /-- Oldest first, at most 8. -/
  drafts : List Draft
  deriving DecidableEq, Repr

/-- Hub, key unit, twin, power and boot registers that are single for the package. -/
structure Hub where
  /-- FRAMECMD (R34). -/
  fcFrame : BitVec 31
  fcKid : BitVec 9
  fcCount : BitVec 4
  fcState : BitVec 2
  fcOp : BitVec 3
  fcStatus : BitVec 3
  fcGo : Bool
  /-- MAPENT, MAPCMD (R44). -/
  mapEnt : BitVec 64
  mcGfn : BitVec 19
  mcVf : BitVec 9
  mcOp : BitVec 2
  mcStatus : BitVec 3
  mcGo : Bool
  /-- The MAPCMD removal is part of a write over a valid entry, with the image that the write took (R44). -/
  mcReplace : Bool
  mcImage : BitVec 64
  /-- MIGNQ, MIGNQH, MIGNQT (R53). -/
  nqBase : BitVec 46
  nqLog : BitVec 4
  nqHead : BitVec 12
  nqTail : BitVec 12
  /-- ENGPER (R97). -/
  engPer : BitVec 20
  /-- PORTUNM by port (R63). -/
  portUnm : Table Nat
  /-- Source MAC address and egress rate limit of each port (R68, R432), and the PTP time from which it may
  send its next frame. -/
  portMac : Table (BitVec 48)
  portRate : Table Nat
  portFree : Table Nat
  /-- The ENGPER period in which the budgets were last reset (R97). -/
  budgetTurn : Nat
  /-- The test access port is enabled; what it and the HC reach of the registers of debug (R433). -/
  tapOn : Bool
  tapReach : DebugTable
  hcReach : DebugTable
  /-- TWINCFG, TWINERR (R418, R419). -/
  twEn : Bool
  twUp : Bool
  twInvf : BitVec 9
  twAp : BitVec 12
  twErr : BitVec 32
  /-- PWRCAP, PWRSTAT, THERM (R444 to R446). -/
  pwCap : BitVec 10
  pwLo : BitVec 10
  pwHi : BitVec 10
  pwClamp : Bool
  pwDraw : BitVec 10
  /-- The governor's latest samples, newest first, at most four (R445). -/
  pwDraws : List (BitVec 10)
  pwPwr : BitVec 4
  pwTrip : Bool
  therm : BitVec 8
  /-- THERMTRIP is asserted and every clock is stopped (R446). -/
  clocksOff : Bool
  /-- BOOTSTAT, CHFAIL (R441). -/
  bootStep : BitVec 3
  bootErr : Bool
  bootDone : Bool
  nvcx : BitVec 8
  chfail : BitVec 64
  /-- The host port's link is up, its IDE keyed (R416, R441 step 3). -/
  hostUp : Bool
  /-- Partitions and functions of the tables applied at bring-up step 6, until step 7 puts them in service
  (R441). -/
  nextParts : Table Part
  nextVfs : Table Vf
  /-- Host DMA windows (R417). -/
  dma : List (Nat × Nat)
  /-- PTP time, TAI ns, and the greatest PTPNOW result of any thread (R342). -/
  ptp : Nat
  ptpLast : W64
  /-- The fit of the package (R22). -/
  fit : Fit
  /-- MAC failures and errors corrected by the channels' ECC, counted (R22, R29). -/
  macCount : Nat
  eccCount : Nat
  /-- Answer to the last read by the host or the twin: its bytes, or none for CXL poison or a refusal (R29,
  R278, R419). -/
  reply : Option (List Byte)
  deriving DecidableEq, Repr

/-- Memory and the levels in front of it. -/
structure Mem where
  /-- Location ↦ byte: device physical addresses below 2^52, host physical addresses at 2^52 up,
  twin-window addresses at 2^53 up (R263). -/
  cells : List Host.Cell
  /-- Owner writes of sharing windows that no WINPUB has published (R276). -/
  pending : List Host.Cell
  /-- Poisoned 8-byte words, by location / 8 (R75). -/
  poison : List Nat
  /-- L2 sets: slice × 1,024 + set ↦ ways, lowest-numbered first (R56). -/
  l2 : Table (List L2Way)
  /-- Counters by device physical address / 512 (R25). -/
  ctr : Table Counters
  /-- Tree version counters, the root's included (R25, R26): partition × 2^50 + level × 2^44 + index from
  the partition's base; level 0 counts the counter lines. -/
  tree : Table (BitVec 56)
  /-- Ciphertext and MAC of each 64-byte line in LPDDR-6, by device physical address / 64 (R25, R27). -/
  cipher : Table (BitVec 512)
  macs : Table (BitVec 56)
  /-- CMAC of each counter line, and NMAC of each tree node, keyed as `tree` is (R25). -/
  nmacs : Table (BitVec 56)
  /-- Metadata caches of the two key units: die and address / 64, oldest first (R26). -/
  metaCache : List (Nat × Nat)
  /-- Times that a key slot has been given a new key (R34, R429). -/
  keyGen : Table Nat
  /-- Stage-2 arrays: VF × 2^19 + GFN ↦ entry (R43). -/
  st2 : Table (BitVec 64)
  frames : Table Frame
  /-- Access counters of host-homed 256 KiB units, by host physical address / 2^18 (R52). -/
  access : Table Nat
  /-- Units accessed since the last condition that held migrations back has cleared (R53). -/
  recent : List Nat
  /-- Lines the directory shows as held by the host (R278), and those being back-invalidated. -/
  hostHeld : List Nat
  backInv : List Nat
  tlbs : List (TlbPlace × TlbEntry)
  /-- Walker caches by tile, and the hubs' stage-2 caches by die (VF × 2^19 + GFN and entry), oldest first
  (R45). -/
  walkCache : List (Nat × WalkEntry)
  st2Cache : List (Nat × Nat × BitVec 64)
  /-- Window locks held at the homes of their lines: declaring slot, lowest and highest location
  (R247). -/
  winLocks : List (Nat × Nat × Nat)
  deriving DecidableEq, Repr

/-- An entry of the schedule (model's own): an event to happen next, or a slot to run next. -/
inductive Sched where
  | event (i : Instr)
  | run (slot : Nat)
  deriving DecidableEq, Repr

/-- The package. `cur` is the global thread slot whose context stands in `th`; the other slots are
in `slots`. `sched`, `cv` and `free` are the model's own. -/
structure State where
  th : Thread
  cur : Nat
  slots : Table Thread
  vcs : Table Vc
  tiles : Table Tile
  parts : Table Part
  vfs : Table Vf
  seqs : Table Seq
  flows : Table Flow
  /-- Engine queues, oldest first: 0–15 copy, 16–31 LDPC, 32–39 polar (R76). -/
  engines : Table (List Cmd)
  /-- Partition of each LDPC and polar engine (R76). -/
  engPart : Table Nat
  nextCmd : Nat
  mem : Mem
  hub : Hub
  /-- Messages sent by the fronthaul ports, newest first (R70). -/
  sent : List Sent
  /-- Sections that sideshow service bridged, newest first, with the port each left by (R443). -/
  bridged : List (Nat × Section)
  /-- Result of the last routine call of SLICE_CALL: failure code, failing word, WROTE, value. -/
  sliceRes : Option (Nat × Nat × Bool × W64)
  sched : List Sched
  cv : Convoy
  /-- Counter of the free values used so far. -/
  free : Nat
  deriving DecidableEq, Repr

/-- Reasons the machine stops. -/
inductive Fault where
  /-- Raised by step while the package's clocks are stopped after THERMTRIP (R446): all state is lost
  and only a power cycle restarts the device. Safe. -/
  | clocksStopped
  deriving DecidableEq, Repr

/-- Reasons a meaning gives no next state. -/
inductive Refusal where
  /-- Raised by Dispatch for a row that has no meaning yet. Safe. -/
  | notModelled (mnemonic : String)
  deriving DecidableEq, Repr

/-! ### Values at reset -/

/-- estat after reset (R109). -/
def Estat.reset : Estat :=
  { mbr := 0, nmbr := 0, vpart := false, mpart := false, qfull := false, pfw := false,
    qoff := false, node := 0 }

/-- A convoy of one, not stopped (model's own). -/
def Convoy.single : Convoy :=
  { many := false, mbr := 0, nmbr := 0, len := 4, withheld := 0, cut := [], late := [],
    raised := 0, raisers := [], faulted := 0, trap := none, trapMbr := 0, word := 0, vector := false, waits := false,
    base := 0, batches := [] }

/-- Scalar registers after reset (R98, R113). -/
def Scalars.reset : Scalars := { pc := 0, mode := .U, s := [] }

/-- Vector state after reset (R103, R105, R106, R113). -/
def VecState.reset : VecState :=
  { v := [], p := [], vl := 0, vtype := 0x1C021A#23, vstart := [], chSlot := 0, chBound := false,
    chFinal := false, vcur := 0, vkeep := 0 }

/-- vgcap and vlg after reset (R105). -/
def Held.reset : Held :=
  { cap := 8, yreq := false, pwr := 8, loc := 1, remote := 0, pvc := 0 }

/-- Flags and controls after reset (R107, R58). -/
def Flags.reset : Flags :=
  { vflg := 0, vflgpc := 0, vtrapen := 0, vidx := [], vhr := 63, vpthr := 0, vlam := 0, mpK := 0,
    mpRow := 0, mpAct := false, cbase := 0, csize := 0x8000, l2thr := 0x400000, l2stna := true }

/-- L-mode CSRs after reset (R109); escx0–3 have none (the manual's X): zero, log entry 2. -/
def Recs.reset : Recs :=
  { epc := 0, cause := 0, lvl := 0, val := 0, estat := Estat.reset, tvec := 0, escx := [],
    dReg := 0, dCfg := false, dFlg := false, absent := false, dPred := 0, ctag := 0, vsave := 0,
    asid := 0, root := 0 }

/-- Loop-nest CSRs after reset (R313). -/
def Nest.reset : Nest :=
  { open_ := false, armed := false, nlev := 0, blen := 0, pos := 0, body := 0, lev := [],
    init := [], buf := [], stale := false }

/-- The level that an unlisted lnlev CSR holds (R313). -/
def NestLevel.reset : NestLevel := { creg := 0, areg := 0, drain := false, inc := 0 }

/-- Identity after reset (R108). -/
def Ident.reset : Ident := { vf := 0, part := 0, job := 0, deadline := 0 }

/-- An empty slot (R280, R319, R434). -/
def SlotHw.reset : SlotHw :=
  { occ := false, mig := false, parked := false, wake := 0, wait := none, stops := [], buf := [],
    storeNum := 0, fetched := [], trains := [], trainNum := 0, unack := [], trainErr := [], barDone := none, settles := [], window := none, lostWindow := none,
    append := none, spanOf := none, rate := false, forced2 := false, victim := false, detached := [], cut := [],
    dbStep := false, dbClaim := false, dbHalt := false, dbTrace := false, stepHold := none, issued := false }

/-- An empty slot with every register at its reset value. -/
def Thread.reset : Thread :=
  { sc := Scalars.reset, vec := VecState.reset, held := Held.reset, fl := Flags.reset,
    tr := Recs.reset, nest := Nest.reset, id := Ident.reset, hw := SlotHw.reset }

/-- A VC after reset (R74, R439); caldera bytes and tiles have no reset value: zero, log entry 2. -/
def Vc.reset : Vc :=
  { aown := [], aownVf := [], acc := [], cald := [], caldPoison := [], accPoison := [], icache := [],
    dcache := [], array := none, lastArray := 0, excluded := false, trEn := false,
    trStopFull := false, trPipes := 0x3F, trBase := 0, trSize := 0, trWptr := 0, trWrap := false,
    trSince := 0, trLost := 0, trFifo := [], flights := [], flightNum := 0, trPend := [] }

/-- A node slot never used (R89). -/
def Node.reset : Node :=
  { st := .free, status := 0, count := 0, succ := [], cmd := none, job := none, vf := 0 }

/-- Ingest-region registers after reset (R63). -/
def Ingest.reset : Ingest :=
  { en := false, ports := 0, eaxc := 0, a := 0, vf := 0, mu := 0, comp := 0, ld := 0, err := false,
    base := 0, prbs := 0, node := 0xFFFF, late := 0, lateCnt := 0, earlyCnt := 0, fmtCnt := 0,
    seen := [] }

/-- Flow registers after reset (R68). -/
def Flow.reset : Flow :=
  { en := false, port := 0, comp := 0, vf := 0, eaxc := 0, vid := 0, pcp := 0, err := false,
    dmac := 0, tile := 0, base := 0, logn := 0, sent := 0, lateCnt := 0, drop := 0, ready := [] }

/-- A tile after reset. -/
def Tile.reset : Tile := { locks := [], nodes := [], edges := 0, ingest := [], scQueue := [] }

/-- A free group-table entry (R331). -/
def Group.reset : Group := { members := [], phase := 0 }

/-- A chain slot after reset (R294 gives no value): zero, log entry 2. -/
def Chain.reset : Chain := { mark := 0, fin := false }

/-- A job-table entry never used (R363). -/
def Job.reset : Job :=
  { gen := 0, live := false, st := .done, vf := 0, desc := [], parent := 0, line := 0, node := 0xFFFF,
    deadline := 0, cause := 0, result := 0, a0 := none, slot := none, resume := none, readyAt := 0,
    runAt := 0, settling := false, wants := none, keep := 0, keepRem := 0,
    lost := none, errs := [] }

/-- A free routine slot (R254). -/
def Routine.reset : Routine := { vf := 0, words := [], draining := false }

/-- A trigger after reset (R440). -/
def Trigger.reset : Trigger :=
  { act := 0, onbk := false, delay := 0, men := false, maddr := 0 }

/-- A partition that does not exist. -/
def Part.reset : Part :=
  { exists_ := false, table := { base := 0, channels := [], slices := [], tiles := [], jobCap := 0 },
    fqTile := 0, fqBase := 0, fqLog := 0, fqHead := 0, fqTail := 0, stvec := 0, prqTile := 0,
    prqBase := 0, prqLog := 0, invScope := 0, invVf := 0, invAsid := 0, invVa := 0, invBusy := false,
    groups := [], chains := [], jobs := [], readyCount := 0, runCount := 0, deficit := [],
    lastQueue := 0, visiting := false, routines := [], migThr := 0, freeze := false, triggers := [] }

/-- A function after reset (R53, R254, R362, R375, R421, R97); partition 31 is none. -/
def Vf.reset : Vf :=
  { part := 31, kid := 0, root := 0, asid := 0, failed := false, resetting := false, frGo := false, inc := 0,
    drops := 0, w1 := 1, w2 := 1, w3 := 1, c0 := false, maxJob := 0, rmref := 0, slrMax := 16,
    rmap := [], wsBase := 0, wsCount := 0, wsErr := false, logstr := 0, lbase := 0, rcbase := 0,
    wnote := 0, pool := [], mpFrame := 0, mpErr := false, sqBase := 0, sqLog := 0, sqTail := 0,
    sqHead := 0, cqBase := 0, cqLog := 0, cqHead := 0, cqTail := 0, cqPhase := true,
    msix := [], notifyVec := 0, handles := [], allow := [], left := [] }

/-- A sequence not in use (R376). -/
def Seq.reset : Seq :=
  { inuse := false, stopped := false, pos := 0, hist := [], entries := [], run := [], drafts := [] }

/-- A frame never assigned (R31). -/
def Frame.reset : Frame := { st := .free, kid := 0, maps := 0 }

/-- Zero-state counters (R25, R28). -/
def Counters.reset : Counters := { major := 0, minor := 0 }

/-- Hub registers after device reset, at bring-up step 1 (R34, R44, R53, R97, R418, R441 to R446). -/
def Hub.reset : Hub :=
  { fcFrame := 0, fcKid := 0, fcCount := 0, fcState := 0, fcOp := 0, fcStatus := 0, fcGo := false,
    mapEnt := 0, mcGfn := 0, mcVf := 0, mcOp := 0, mcStatus := 0, mcGo := false, mcReplace := false,
    mcImage := 0,
    nqBase := 0, nqLog := 0, nqHead := 0, nqTail := 0, engPer := 500, portUnm := [], portMac := [], portRate := [], portFree := [], budgetTurn := 0, tapOn := false, tapReach := ⟨[], [], []⟩, hcReach := ⟨[], [], []⟩,
    twEn := false,
    twUp := false, twInvf := 0, twAp := 0, twErr := 0, pwCap := 600, pwLo := 250, pwHi := 750,
    pwClamp := false, pwDraw := 0, pwDraws := [], pwPwr := 8, pwTrip := false, therm := 0, clocksOff := false,
    bootStep := 1, bootErr := false, bootDone := false, nvcx := 0, chfail := 0, hostUp := true, nextParts := [], nextVfs := [], dma := [],
    ptp := 0, ptpLast := 0, fit := .gib512, macCount := 0, eccCount := 0, reply := none }

/-- Memory after reset: nothing listed. -/
def Mem.reset : Mem :=
  { cells := [], pending := [], poison := [], l2 := [], ctr := [], tree := [], cipher := [], macs := [],
    nmacs := [], metaCache := [], keyGen := [], st2 := [], frames := [], access := [], recent := [], hostHeld := [],
    backInv := [], tlbs := [], walkCache := [], st2Cache := [], winLocks := [] }

/-- The partition of sideshow service: tile 0 of each die and the 192 MiB of L2 (R443). -/
def Part.sideshow : Part :=
  { Part.reset with
    exists_ := true,
    table := { base := 0, channels := [], slices := List.range 96, tiles := [0, 8],
               jobCap := 16384 } }

/-- The package right after power-on reset: sideshow service with one partition and one function,
every slot empty, nothing scheduled (R441 step 1, R443). -/
def State.reset : State :=
  { th := Thread.reset, cur := 0, slots := [], vcs := [], tiles := [], parts := [(0, Part.sideshow)],
    vfs := [(0, { Vf.reset with part := 0 })], seqs := [], flows := [], engines := [], engPart := [],
    nextCmd := 1, mem := Mem.reset, hub := Hub.reset, sent := [], bridged := [], sliceRes := none, sched := [],
    cv := Convoy.single, free := 0 }

end Sys2Proof.Machine
end

