-- ==== Sys2Proof/Machine/Table.lean ====
section
/-!
DEFINITION. Sparse tables: a list of (key, value) pairs with strictly rising keys and no pair that
holds the default. Reading takes the first pair of the key; writing keeps the canonical form.
-/

namespace Sys2Proof.Machine

/-- The value at a key, or the default. -/
def tget {α : Type} (d : α) (t : Table α) (k : Nat) : α :=
  match t with
  | [] => d
  | (k', v) :: r => if k' = k then v else tget d r k

/-- The table without a key. -/
def terase {α : Type} (t : Table α) (k : Nat) : Table α :=
  match t with
  | [] => []
  | (k', v) :: r => if k' = k then terase r k else (k', v) :: terase r k

/-- The table with a pair put in its place. -/
def tinsert {α : Type} (t : Table α) (k : Nat) (v : α) : Table α :=
  match t with
  | [] => [(k, v)]
  | (k', v') :: r =>
    if k < k' then (k, v) :: (k', v') :: r
    else if k' = k then (k, v) :: r
    else (k', v') :: tinsert r k v

/-- Write a value at a key; writing the default removes the pair. -/
def tset {α : Type} [DecidableEq α] (d : α) (t : Table α) (k : Nat) (v : α) : Table α :=
  if v = d then terase t k else tinsert t k v

/-- Put an item at the end of a cache, whose set (the items that `same` joins with it) holds `cap` of
them; a full set drops its oldest. -/
def cachePut {α : Type} (same : α → α → Bool) (cap : Nat) (l : List α) (x : α) : List α :=
  let l1 := l ++ [x]
  if (l1.filter (same x)).length ≤ cap then l1 else l1.eraseP (same x)

/-- Every key is above a bound and the keys rise. -/
def tsorted {α : Type} (lo : Nat) (t : Table α) : Bool :=
  match t with
  | [] => true
  | (k, _) :: r => decide (lo ≤ k) && tsorted (k + 1) r

/-- No pair holds the default. -/
def tnodefault {α : Type} [DecidableEq α] (d : α) (t : Table α) : Bool :=
  t.all (fun p => decide (p.2 ≠ d))

/-- The canonical form of a table. -/
def twf {α : Type} [DecidableEq α] (d : α) (t : Table α) : Bool := tsorted 0 t && tnodefault d t

/-- The canonical form of memory: rising locations, no zero byte listed. -/
def Memory.wf (m : List Host.Cell) : Bool := twf (0 : Byte) m

end Sys2Proof.Machine
end

