-- ==== Sys2Proof/Machine/Ops.lean ====
section
/-!
DEFINITION. The operations the meanings share: registers, thread slots, units of the package, taking
a trap (R392 to R395) and returning from one (R318), retiring a convoy and stepping a loop nest
(R296), deciding abandonment (R372, R373).
-/

namespace Sys2Proof.Machine

open Sys2Proof

/-! ### Parts of the state -/

/-- Change the current thread. -/
def State.modTh (s : State) (f : Thread → Thread) : State := { s with th := f s.th }
/-- Change the current thread's scalar registers, pc or mode. -/
def State.modSc (s : State) (f : Scalars → Scalars) : State :=
  { s with th := { s.th with sc := f s.th.sc } }
/-- Change the current thread's vector state. -/
def State.modVec (s : State) (f : VecState → VecState) : State :=
  { s with th := { s.th with vec := f s.th.vec } }
/-- Change the current thread's held lane groups or grant controls. -/
def State.modHeld (s : State) (f : Held → Held) : State :=
  { s with th := { s.th with held := f s.th.held } }
/-- Change the current thread's flags and controls. -/
def State.modFl (s : State) (f : Flags → Flags) : State :=
  { s with th := { s.th with fl := f s.th.fl } }
/-- Change the current thread's trap records and L-mode CSRs. -/
def State.modTr (s : State) (f : Recs → Recs) : State :=
  { s with th := { s.th with tr := f s.th.tr } }
/-- Change the current thread's loop nest. -/
def State.modNest (s : State) (f : Nest → Nest) : State :=
  { s with th := { s.th with nest := f s.th.nest } }
/-- Change the current slot's own state. -/
def State.modHw (s : State) (f : SlotHw → SlotHw) : State :=
  { s with th := { s.th with hw := f s.th.hw } }
/-- Change the convoy in hand. -/
def State.modCv (s : State) (f : Convoy → Convoy) : State := { s with cv := f s.cv }
/-- Change the hub's registers. -/
def State.modHub (s : State) (f : Hub → Hub) : State := { s with hub := f s.hub }
/-- Change memory. -/
def State.modMem (s : State) (f : Mem → Mem) : State := { s with mem := f s.mem }

/-- The context on a global thread slot. -/
def State.thread (s : State) (slot : Nat) : Thread :=
  if slot = s.cur then s.th else tget Thread.reset s.slots slot

/-- Change the context on a global thread slot. -/
def State.modThread (s : State) (slot : Nat) (f : Thread → Thread) : State :=
  if slot = s.cur then { s with th := f s.th }
  else { s with slots := tset Thread.reset s.slots slot (f (tget Thread.reset s.slots slot)) }

/-- Bring another slot's context in as the current one. -/
def State.switchTo (s : State) (slot : Nat) : State :=
  if slot = s.cur then s
  else
    { s with
      th := tget Thread.reset s.slots slot
      cur := slot
      slots := tset Thread.reset (terase s.slots slot) s.cur s.th }

def State.vc (s : State) (n : Nat) : Vc := tget Vc.reset s.vcs n
def State.modVc (s : State) (n : Nat) (f : Vc → Vc) : State :=
  { s with vcs := tset Vc.reset s.vcs n (f (s.vc n)) }
def State.tile (s : State) (n : Nat) : Tile := tget Tile.reset s.tiles n
def State.modTile (s : State) (n : Nat) (f : Tile → Tile) : State :=
  { s with tiles := tset Tile.reset s.tiles n (f (s.tile n)) }
def State.part (s : State) (n : Nat) : Part := tget Part.reset s.parts n
def State.modPart (s : State) (n : Nat) (f : Part → Part) : State :=
  { s with parts := tset Part.reset s.parts n (f (s.part n)) }
def State.vf (s : State) (n : Nat) : Vf := tget Vf.reset s.vfs n
def State.modVf (s : State) (n : Nat) (f : Vf → Vf) : State :=
  { s with vfs := tset Vf.reset s.vfs n (f (s.vf n)) }

/-- The VC of a global thread slot (R13, R108). -/
def vcOf (slot : Nat) : Nat := slot / 4
/-- The tile of a VC (R13). -/
def tileOfVc (vc : Nat) : Nat := vc / 31
/-- The tile of a global thread slot. -/
def tileOf (slot : Nat) : Nat := slot / 124
/-- The die of a tile (R12). -/
def dieOfTile (t : Nat) : Nat := t / 8

def State.curVc (s : State) : Nat := vcOf s.cur
def State.curTile (s : State) : Nat := tileOf s.cur
/-- The partition of the current context (R108). -/
def State.curPart (s : State) : Nat := s.th.id.part.toNat

/-! ### Registers -/

/-- Read s[r]; s0 reads as zero (R98). -/
def State.rd (s : State) (r : BitVec 5) : W64 :=
  if r = 0#5 then 0 else tget 0 s.th.sc.s r.toNat

/-- Write s[r]; a write to s0 is discarded (R98, R299). -/
def State.wr (s : State) (r : BitVec 5) (v : W64) : State :=
  if r = 0#5 then s else s.modSc (fun c => { c with s := tset 0 c.s r.toNat v })

/-- Set the vdirty.CFG bit (R109). -/
def State.dirtyCfg (s : State) : State := s.modTr (fun r => { r with dCfg := true })
/-- Set the vdirty.FLG bit (R109). -/
def State.dirtyFlg (s : State) : State := s.modTr (fun r => { r with dFlg := true })

/-- Write vl, as hardware does (R109). -/
def State.setVl (s : State) (n : Nat) : State :=
  (s.modVec (fun v => { v with vl := BitVec.ofNat 13 n })).dirtyCfg

/-- Read predicate p[n]. -/
def State.pred (s : State) (n : Nat) : BitVec 4096 := tget 0 s.th.vec.p n

/-- Write predicate p[n], setting the bank's pdirty bit (R109). -/
def State.setPred (s : State) (n : Nat) (x : BitVec 4096) : State :=
  (s.modVec (fun v => { v with p := tset 0 v.p n x })).modTr
    (fun r => { r with dPred := r.dPred ||| BitVec.ofNat 3 (2 ^ (n / 32)) })

/-- Take the next number of the free-value counter. -/
def State.bump (s : State) : State := { s with free := s.free + 1 }

/-- Let a time pass that the manual does not fix: PTP time moves on by a free number of nanoseconds
(R342). -/
def State.tick (s : State) : State :=
  ({ s with hub := { s.hub with ptp := s.hub.ptp + Config.freeNat s.free } }).bump

/-- PTP time as 64-bit TAI nanoseconds (R342). -/
def State.now (s : State) : W64 := BitVec.ofNat 64 s.hub.ptp

/-- Number of lane groups a context holds: vlg.COUNT (R105). -/
def Held.count (h : Held) : Nat := popN 4 h.loc.toNat + popN 4 h.remote.toNat

/-- The tid CSR (R108). -/
def State.tid (s : State) : W64 :=
  BitVec.ofNat 64 (s.cur % 2048 + s.th.id.vf.toNat * 2 ^ 16 + s.th.id.part.toNat * 2 ^ 32)

/-! ### Meanings that can trap or wait -/

/-- How a meaning ends early. -/
inductive Stop where
  /-- The convoy traps. -/
  | trap (t : TrapInfo)
  /-- The thread waits; the convoy is performed again when the wait ends (R282). -/
  | wait (w : Wait)
  deriving DecidableEq, Repr

/-- A computation on the state that may end early, keeping the state it has reached. -/
abbrev M := ExceptT Stop (StateM State)

/-- A trap that leaves nothing further to record than its cause and value. -/
def plainTrap (cause : Nat) (val : W64) : TrapInfo :=
  { cause := cause, val := val, next := false, node := 0, qfull := false, qoff := false,
    pfw := false }

def trap {α : Type} (cause : Nat) (val : W64) : M α := throw (.trap (plainTrap cause val))
def waitFor {α : Type} (w : Wait) : M α := throw (.wait w)

/-- The word in hand, for eval (R144). -/
def State.evalWord (s : State) : W64 := s.cv.word.setWidth 64

/-- The trap causes of R393. -/
def Cause.illop : Nat := 1
def Cause.convoy : Nat := 2
def Cause.priv : Nat := 3
def Cause.align : Nat := 4
def Cause.pfault : Nat := 5
def Cause.perm : Nat := 6
def Cause.rlock : Nat := 7
def Cause.vfirst : Nat := 8
def Cause.afirst : Nat := 9
def Cause.yieldreq : Nat := 10
def Cause.svc : Nat := 11
def Cause.bkpt : Nat := 12
def Cause.step : Nat := 13
def Cause.arith : Nat := 14
def Cause.twatch : Nat := 15
def Cause.forced : Nat := 16
def Cause.engerr : Nat := 17
def Cause.macfail : Nat := 18
def Cause.sliceerr : Nat := 19
def Cause.spanlost : Nat := 20

/-- ILLOP and PRIV, with the word in eval (R299). -/
def illop {α : Type} : M α := do trap Cause.illop (← get).evalWord
def privTrap {α : Type} : M α := do trap Cause.priv (← get).evalWord

/-- Trap ILLOP when a check fails. -/
def need (b : Bool) : M Unit := if b then pure () else illop

/-! ### Jobs: the decision of abandonment -/

/-- A job identifier from its entry and generation (R474). -/
def jobIdOf (entry : Nat) (j : Job) : BitVec 32 :=
  BitVec.ofNat 32 (entry + j.gen.toNat * 2 ^ 14)

/-- The job an identifier names in a partition, while the entry's generation is its own. -/
def Part.job? (p : Part) (id : BitVec 32) : Option Job :=
  let j := tget Job.reset p.jobs (id.toNat % 2 ^ 14)
  if j.live ∧ j.gen.toNat = id.toNat / 2 ^ 14 then some j else none

def Job.finished (j : Job) : Bool := j.st == .done || j.st == .abandoned

/-- Decide abandonment of one job (R372): it is ABANDONED for JSTAT at once. -/
def Job.decide (cause : Nat) (j : Job) : Job :=
  if j.live ∧ ¬ j.finished then
    { j with st := .abandoned, cause := BitVec.ofNat 3 cause, settling := true }
  else j

/-- Every slot that runs a job the table shows as decided is asked to stop (R373 step 2). -/
def Part.abandonSlots (p : Part) : List Nat :=
  p.jobs.filterMap (fun e => if e.2.st == .abandoned && e.2.settling then e.2.slot else none)

/-- Ask slots to stop for abandonment (R398). -/
def State.askAbandon (s : State) (slots : List Nat) : State :=
  slots.foldl
    (fun s n => s.modThread n (fun t => { t with hw := { t.hw with stops := [.abandon] } })) s

/-- The live descendants of a job: its children and, in turn, theirs, past those that have been retired
(R370). -/
def Part.descendants (p : Part) (fuel : Nat) (ids : List (BitVec 32)) : List (BitVec 32) :=
  match fuel with
  | 0 => []
  | fuel + 1 =>
    let kids := p.jobs.filterMap (fun e =>
      if e.2.live && ids.contains e.2.line then some (jobIdOf e.1 e.2) else none)
    if kids.isEmpty then [] else kids ++ p.descendants fuel kids

/-- Retire one job (R363): its children's line passes on to the job's own. -/
def Part.retireJob (p : Part) (entry : Nat) : Part :=
  let j := tget Job.reset p.jobs entry
  { p with jobs := p.jobs.map (fun e =>
      if e.1 = entry then (e.1, { e.2 with live := false })
      else if e.2.live && e.2.line == jobIdOf entry j then (e.1, { e.2 with line := j.line })
      else e) }

/-- Retire finished jobs whose parent has finished or is not live (R363), once their markers and
completion words are written. -/
def Part.retire (p : Part) : Part :=
  (p.jobs.filter (fun e => e.2.live && e.2.finished && !e.2.settling &&
    (match p.job? e.2.parent with | none => true | some q => q.finished))).foldl
    (fun q e => q.retireJob e.1) p

/-- Decide abandonment of a job with a cause, and of every unfinished descendant with cause 2, or 5
under cause 5 (R372, R373 step 1). -/
def State.abandon (s : State) (part : Nat) (id : BitVec 32) (cause : Nat) : State :=
  let p := s.part part
  match p.job? id with
  | none => s
  | some j =>
    if j.finished then s
    else
      let kids := p.descendants p.jobs.length [id]
      let jobs := p.jobs.map (fun e =>
        let i := jobIdOf e.1 e.2
        if i = id then (e.1, e.2.decide cause)
        else if kids.contains i then (e.1, e.2.decide (if cause = 5 then 5 else 2))
        else e)
      let s := s.modPart part (fun p => ({ p with jobs := jobs } : Part).retire)
      s.askAbandon (s.part part).abandonSlots

/-- All jobs of a function are abandoned with cause 5 (R29, R372). -/
def State.abandonAll (s : State) (vf : Nat) : State :=
  let part := (s.vf vf).part.toNat
  let s := s.modPart part (fun p => ({ p with
    jobs := p.jobs.map (fun e => if e.2.vf.toNat = vf then (e.1, e.2.decide 5) else e) } : Part).retire)
  s.askAbandon (s.part part).abandonSlots

/-- A function fails (R29): its error status is set and all its jobs are abandoned with cause 5. -/
def State.failFunction (s : State) (vf : Nat) : State :=
  (s.modVf vf (fun f => { f with failed := true })).abandonAll vf

/-! ### Taking a trap -/

/-- The level number that ecause.LVL records (R109). -/
def Mode.level (m : Mode) : BitVec 2 := match m with | .U => 0 | .L => 1 | .S => 2

/-- Causes that R393 hands to L mode. -/
def causeInL (c : Nat) : Bool :=
  decide (c = Cause.rlock ∨ c = Cause.vfirst ∨ c = Cause.afirst ∨ c = Cause.yieldreq ∨
    c = Cause.forced)

/-- Causes routed by the debug controls (R393, R434). -/
def causeDebug (c : Nat) : Bool := decide (c = Cause.bkpt ∨ c = Cause.step)

/-- The mode that handles a cause raised in a mode (R392, R393, R394, R434). -/
def handlerMode (t : Thread) (c : Nat) : Mode :=
  if t.sc.mode ≠ .U then .S
  else if (causeInL c || causeDebug c && t.hw.dbClaim) && t.tr.tvec != 0 then .L
  else .S

/-- The entry address of a cause: BASE × 64 + c × 64 (R109, R327). -/
def entryOf (base : BitVec 58) (c : Nat) : W64 := BitVec.ofNat 64 (base.toNat * 64 + c * 64)

/-- Put a slot's context at the end of its tile's SC queue (R404). -/
def State.migrate (s : State) : State :=
  if s.th.hw.mig then s
  else
    (s.modHw (fun h => { h with mig := true })).modTile s.curTile
      (fun t => { t with scQueue := t.scQueue ++ [s.cur] })

/-- Take a context off the SC (R405). -/
def State.unmigrate (s : State) : State :=
  (s.modHw (fun h => { h with mig := false })).modTile s.curTile
    (fun t => { t with scQueue := t.scQueue.filter (fun n => decide (n ≠ s.cur)) })

/-- Enter a handling mode at the entry of a cause (R392 step 2). -/
def State.enterHandler (s : State) (m : Mode) (c : Nat) : State :=
  match m with
  | .S =>
    s.migrate.modSc (fun r => { r with mode := .S, pc := entryOf (s.part s.curPart).stvec c })
  | _ => s.modSc (fun r => { r with mode := .L, pc := entryOf s.th.tr.tvec c })

/-- A convoy address after the one in hand. -/
def State.nextPc (s : State) : W64 := s.th.sc.pc + BitVec.ofNat 64 s.cv.len

/-- The trap records (R392 step 1): every estat field that the cause and the stop do not set is
written as zero. -/
def State.writeRecords (s : State) (epc : W64) (t : TrapInfo) (vpart mpart : Bool) : State :=
  s.modTr (fun r =>
    { r with
      epc := epc
      cause := BitVec.ofNat 8 t.cause
      lvl := s.th.sc.mode.level
      val := t.val
      estat := { mbr := s.cv.mbr, nmbr := s.cv.nmbr, vpart := vpart, mpart := mpart,
                 qfull := t.qfull, pfw := t.pfw, qoff := t.qoff, node := t.node } })

/-- Take a trap with given progress records (R392 to R395). A wait of the convoy is over, and what ended it is
no longer known: a BARWAIT that is returned to looks at its group anew (R334). MACFAIL enters no handler: the function
fails. -/
def State.takeTrapWith (s : State) (t : TrapInfo) (vpart mpart : Bool) : State :=
  let epc := s.th.sc.pc
  let s1 := s.writeRecords epc t vpart mpart
  let s2 := s1.modHw (fun h => { h with wait := none, barDone := none, issued := false })
  if t.cause = Cause.macfail then s2.failFunction s.th.id.vf.toNat
  else s2.enterHandler (handlerMode s.th t.cause) t.cause

/-- Return from a trap (R318, R405): continue at epc at the privilege in ecause.LVL. -/
def State.returnFrom (s : State) (m : Mode) : State :=
  let s1 := if m = .S then s else s.unmigrate
  s1.modSc (fun r => { r with mode := m, pc := s.th.tr.epc })

/-! ### Loop nests and retirement -/

/-- The level of a nest. -/
def Nest.level (n : Nest) (k : Nat) : NestLevel := tget NestLevel.reset n.lev k

/-- Close the nest (R296): lnctl becomes zero and the loop buffer is left. -/
def Nest.close (n : Nest) : Nest :=
  { n with open_ := false, armed := false, nlev := 0, blen := 0, pos := 0, buf := [] }

/-- Discard a loop buffer that a CSR write has changed (R312, R313). -/
def Nest.settle (n : Nest) : Nest := if n.stale then { n with buf := [], stale := false } else n

/-- The convoy in hand is the body convoy that is next to run (R296, R313 POS). -/
def State.inBody (s : State) : Bool :=
  s.th.nest.open_ && s.th.nest.armed &&
    (match s.th.nest.buf[s.th.nest.pos.toNat]? with
     | some c => c.1 == s.th.sc.pc
     | none => false)

/-- Step the nest from level L (R296); `fuel` bounds the levels left. -/
def State.nestStep (s : State) (fuel lv : Nat) : State × Bool :=
  match fuel with
  | 0 => (s, false)
  | fuel + 1 =>
    if lv < s.th.nest.nlev.toNat then
      let l := s.th.nest.level lv
      let dec := if l.drain then s.th.vec.vl.setWidth 64 else 1#64
      let s1 := s.wr l.creg (s.rd l.creg - dec)
      let s2 := s1.wr l.areg (s1.rd l.areg + l.inc.signExtend 64)
      if 0 < (s2.rd l.creg).toInt then (s2, true)
      else (s2.wr l.creg (tget 0 s.th.nest.init lv)).nestStep fuel (lv + 1)
    else (s, false)

/-- Where the thread continues after the convoy in hand, with the nest's step (R296). A taken
branch or jump in the body closes the nest. -/
def State.advance (s : State) (taken : Option W64) : State :=
  if s.inBody then
    match taken with
    | some t => (s.modNest Nest.close).modSc (fun c => { c with pc := t })
    | none =>
      if s.th.nest.pos < s.th.nest.blen then
        (s.modNest (fun n => { n with pos := n.pos + 1 })).modSc
          (fun c => { c with pc := s.nextPc })
      else
        let r := s.nestStep 7 0
        if r.2 then
          (r.1.modNest (fun n => { n with pos := 0 })).modSc
            (fun c => { c with pc := r.1.th.nest.body.setWidth 64 <<< 2 })
        else (r.1.modNest Nest.close).modSc (fun c => { c with pc := s.nextPc })
  else s.modSc (fun c => { c with pc := taken.getD s.nextPc })

/-- Clear the records of a stopped convoy when a vector convoy completes (R106, R400), which hardware writes
whatever they held (R109). -/
def State.clearProgress (s : State) : State :=
  let s1 := s.modTr (fun r =>
    { r with estat := { r.estat with vpart := false, mpart := false, pfw := false } })
  (s1.modVec (fun v => { v with vstart := [] })).dirtyCfg

/-- Commit the scalars that vector members wrote (R201). -/
def State.commitLate (s : State) : State :=
  s.cv.late.foldl (fun s p => s.wr p.1 p.2) s

/-- The convoy in hand completes: commit its scalars, clear the records of R400, step the nest, which a CSR
write of the convoy itself may have changed (R313). -/
def State.complete (s : State) (taken : Option W64) : State :=
  let s0 := s.commitLate
  let s1 := if s.cv.vector then s0.clearProgress else s0
  (((s1.advance taken).modNest Nest.settle).modHw (fun h => { h with wait := none })).modCv
    (fun c => { c with late := [], raised := 0, raisers := [] })

/-- Take a trap of the thread's own convoy. One whose epc is the next convoy completes first. -/
def State.takeTrap (s : State) (t : TrapInfo) : State :=
  if t.next then (s.complete none).takeTrapWith t false false else s.takeTrapWith t false false

/-- The member that raised an ARITH trap (R109): the first that raised a class of the mask (log entry
109). -/
def Convoy.raiser (c : Convoy) (en : BitVec 8) : BitVec 2 :=
  ((c.raisers.find? (fun r => r.2 &&& en != 0#8)).map (·.1)).getD c.mbr

/-- A forced stop that waits for WFREE: a yield or reclaim timeout, or a debug halt (R250). -/
def waitsForWindow (r : StopReq) : Bool :=
  match r with
  | .forced why => why != 2
  | _ => false

/-- The convoy at the boundary has progress on record and runs before a stop lands: a request that falls
at one boundary with the convoy's own trap is taken at the first boundary after the thread resumes (R398). -/
def Thread.resuming (t : Thread) : Bool :=
  t.sc.mode == .U && (t.tr.estat.vpart || t.tr.estat.mpart || t.tr.estat.pfw)

/-- A request can stop the slot, at a boundary or part-way: not inside a committed VAPPEND (R181). -/
def Thread.stoppable (t : Thread) (r : StopReq) : Bool :=
  t.hw.occ && t.hw.append.isNone &&
    (match r with
     | .abandon => true
     | .spanLost _ => !t.hw.mig
     | .forced _ => !t.hw.mig && (t.hw.window.isNone || !waitsForWindow r))

/-- A request can land at the boundary where the slot stands. -/
def Thread.lands (t : Thread) (r : StopReq) : Bool :=
  t.stoppable r && (r == .abandon || !t.resuming)

/-- The first request of a slot that can land. -/
def Thread.landing (t : Thread) : Option StopReq := t.hw.stops.find? t.lands

/-- A debug halt can land at the boundary where the thread stands. -/
def Thread.haltLands (t : Thread) : Bool := t.hw.stops.contains (.forced 3) && t.lands (.forced 3)

/-- A debug halt goes before the STEP of a thread, which follows the convoy resumed in the mode in force (R434). -/
def Thread.holdStep (t : Thread) : Thread :=
  { t with hw := { t.hw with
      stepHold := if t.hw.dbStep ∧ t.hw.stepHold = none then some t.sc.mode else t.hw.stepHold } }

/-- The STEP trap after a convoy that has retired without another trap (R415, in every mode: log entry 14); a
debug halt that can land at the same boundary is taken first, and the trap follows the resumed convoy (R434). -/
def State.stepTrap (s : State) : State :=
  if s.th.hw.dbStep ∧ s.th.hw.stepHold = none then
    if s.th.haltLands then s.modTh Thread.holdStep
    else
      (s.modCv (fun c => { c with mbr := 0, nmbr := 0 })).takeTrapWith (plainTrap Cause.step 0) false false
  else s

/-- An ERET to the mode that a debug halt interrupted: the STEP that gave way to it is to follow the convoy that
runs now (R434). -/
def State.endHold (s : State) (m : Mode) : State :=
  if s.th.hw.stepHold = some m then s.modHw (fun h => { h with stepHold := none }) else s

/-- Retire the convoy in hand (R283, R397): it completes, then traps ARITH for a raised class whose
trap is enabled (R134), or STEP. -/
def State.retire (s : State) (taken : Option W64) : State :=
  let s1 := s.complete taken
  if s.cv.raised &&& s.th.fl.vtrapen ≠ 0#8 then
    (s1.modCv (fun c => { c with mbr := s.cv.raiser s.th.fl.vtrapen })).takeTrapWith
      (plainTrap Cause.arith (s.cv.raised.setWidth 64)) false false
  else s1.stepTrap

/-- End a convoy of one: retire it, or leave it to the convoy's runner when there are more members. -/
def State.finish (s : State) : State := if s.cv.many then s else s.retire none

/-- The outcome of a meaning: it retires, traps or waits. A member of a convoy of several leaves its
trap to the runner. -/
def State.conclude (s : State) (m : M Unit) : Host.Outcome State Fault Refusal :=
  match m s with
  | (.ok _, s') => .next s'.finish
  | (.error (.trap t), s') =>
    if s'.cv.many then .next (s'.modCv (fun c => { c with trap := some t, trapMbr := c.mbr }))
    else .next (s'.takeTrap t)
  | (.error (.wait w), s') =>
    .next ((s'.modCv (fun c => { c with waits := true })).modHw (fun h => { h with wait := some w }))

/-- A trap of the instruction in hand, with its own effects in place. -/
def State.trapNow (s : State) (t : TrapInfo) : Host.Outcome State Fault Refusal :=
  s.conclude (throw (.trap t))

/-- Set a scalar and retire: the whole effect of most scalar instructions. -/
def State.result (s : State) (d : BitVec 5) (v : W64) : Host.Outcome State Fault Refusal :=
  .next ((s.wr d v).finish)

/-- Privilege check: trap PRIV in U mode (R316). -/
def needPrivileged : M Unit := do if (← get).th.sc.mode = .U then privTrap

end Sys2Proof.Machine
end

