-- ==== Sys2Proof/Machine/Operands.lean ====
section
/-!
DEFINITION. Operand forms of the vector side: vtype (R103, R104), VLMAX (R101), register groups and
their striping (R99, R100), predicates and active elements (R102, R9, R400), scale bytes (R126, R127).
-/

namespace Sys2Proof.Machine

open Sys2Proof

/-! ### vtype -/

/-- The fields of vtype (R103) as numbers. -/
structure Vt where
  /-- SEW field: elements have 8 × 2^sewE bits. -/
  sewE : Nat
  cls : Nat
  fmt : Nat
  /-- NREG field: 8 × 2^nregE registers are named. -/
  nregE : Nat
  gmE : Nat
  pb : Nat
  rnd : Nat
  sat : Bool
  planes : Nat
  mid : Bool
  deriving DecidableEq, Repr

def vtOf (x : Nat) : Vt :=
  { sewE := bitsAt 3 0 x, cls := bitsAt 3 3 x, fmt := bitsAt 2 6 x, nregE := bitsAt 2 8 x,
    gmE := bitsAt 2 10 x, pb := bitsAt 2 12 x, rnd := bitsAt 3 14 x, sat := x.testBit 17,
    planes := bitsAt 4 18 x, mid := x.testBit 22 }

/-- Element width in bits. -/
def Vt.sew (t : Vt) : Nat := 8 * 2 ^ t.sewE
/-- Named registers. -/
def Vt.nreg (t : Vt) : Nat := 8 * 2 ^ t.nregE
/-- Registers of a group (R99). -/
def Vt.gm (t : Vt) : Nat := 2 ^ t.gmE
def Vt.sq (t : Vt) : Bool := t.cls == 6
def Vt.complex (t : Vt) : Bool := t.cls == 4 || t.cls == 5
/-- Element size z in bytes (R164). -/
def Vt.size (t : Vt) : Nat := 2 ^ t.sewE

/-- The legal combinations of R104. -/
def legalType (cls fmt sew : Nat) : Bool :=
  if cls = 0 ∨ cls = 1 then decide (fmt = 0 ∧ sew ≤ 3)
  else if cls = 2 then decide (fmt = 0 ∧ (sew = 1 ∨ sew = 2))
  else if cls = 3 then decide (fmt = 0 ∧ sew ≤ 3) || decide (fmt = 1 ∧ sew ≤ 1)
  else if cls = 4 ∨ cls = 5 then decide (fmt = 0 ∧ (sew = 2 ∨ sew = 3))
  else if cls = 6 then decide (fmt = 0 ∧ sew = 0)
  else false

/-- A legal vtype value: no reserved bit, field value or combination (R103, R104, R351). -/
def legalVtype (x : Nat) : Bool :=
  let t := vtOf x
  decide (x < 2 ^ 23) && legalType t.cls t.fmt t.sewE && decide (t.nregE ≤ 2 ∧ t.pb ≤ 2 ∧ t.rnd ≤ 4) &&
    decide (1 ≤ t.planes ∧ t.planes ≤ 7)

/-- VLMAX of R101 for a vtype and a number of lane groups. -/
def vlmaxOf (t : Vt) (lg : Nat) : Nat :=
  if t.sq then min (63 * lg * 256 / t.nreg) 4032 else min (lg * 131072 / t.nreg / t.sew) 4096

def State.vt (s : State) : Vt := vtOf s.th.vec.vtype.toNat
def State.lg (s : State) : Nat := s.th.held.count
def State.vlmax (s : State) : Nat := vlmaxOf s.vt s.lg
def State.vl (s : State) : Nat := s.th.vec.vl.toNat

/-! ### Gates -/

/-- The checks before any other of a vector-state instruction (R325, R328, R406). -/
def vectorGate : M Unit := do
  let s ← get
  if s.th.sc.mode = .S then illop
  else if s.th.tr.absent then trap Cause.vfirst s.evalWord

/-- A register field names a group of n registers (R99): aligned, and below NREG. -/
def groupOk (t : Vt) (n : Nat) (v : BitVec 5) : Bool :=
  decide (v.toNat % n = 0 ∧ v.toNat + n ≤ t.nreg)

/-- Check register fields as groups of vtype's size (R99, R184). -/
def needGroups (vs : List (BitVec 5)) : M Unit := do
  let t := (← get).vt
  need (vs.all (groupOk t t.gm))

/-- Two register ranges overlap. -/
def rangesMeet (a na b nb : Nat) : Bool := decide (a < b + nb ∧ b < a + na)

/-! ### Elements in registers -/

/-- Bit position of the element at position i of a register, at width w (R100, R126). -/
def bitPos (sq : Bool) (w i : Nat) : Nat := if sq then i / 63 * 512 + 8 * (1 + i % 63) else i * w

/-- Read w bits of a register. -/
def State.regBits (s : State) (r pos w : Nat) : Nat := sliceAt w (tget 0 s.th.vec.v r) pos

/-- Write w bits of a register, setting its vdirty bit (R109). -/
def State.putBits (s : State) (r pos w x : Nat) : State :=
  (s.modVec (fun v => { v with v := tset 0 v.v r (spliceAt w (tget 0 v.v r) pos x) })).modTr
    (fun t => { t with dReg := t.dReg ||| BitVec.ofNat 32 (2 ^ r) })

/-- Elements that one register of a group of n registers holds (R99). -/
def State.per (s : State) (n : Nat) : Nat := s.vlmax / n

/-- Element e of the group at v with n registers, at width w (R99, R100). -/
def State.elemOf (s : State) (n w v e : Nat) : Nat :=
  s.regBits (v + e / s.per n) (bitPos s.vt.sq w (e % s.per n)) w

/-- Element e of the group at a register field, under vtype: v[e] of R9. -/
def State.elem (s : State) (v : BitVec 5) (e : Nat) : Nat := s.elemOf s.vt.gm s.vt.sew v.toNat e

/-- Write element e of the group at v with n registers, at width w. -/
def State.putElemOf (s : State) (n w v e x : Nat) : State :=
  s.putBits (v + e / s.per n) (bitPos s.vt.sq w (e % s.per n)) w x

/-- Write element e of the group at a register field, under vtype. -/
def State.putElem (s : State) (v : BitVec 5) (e x : Nat) : State :=
  s.putElemOf s.vt.gm s.vt.sew v.toNat e x

/-- A scalar operand read at the element width: s[b][SEW−1:0] (R185). -/
def State.scalarElem (s : State) (b : BitVec 5) : Nat := (s.rd b).toNat % 2 ^ s.vt.sew

/-- The held group that holds element e under vtype (R100). -/
def State.groupOf (s : State) (e : Nat) : Nat :=
  let i := e % s.per s.vt.gm
  (if s.vt.sq then i / 63 else i * s.vt.sew / 512) % max 1 s.lg

/-! ### Predicates and active elements -/

/-- The predicate that a 5-bit field names (R102). -/
def State.predNo (s : State) (p : BitVec 5) : Nat := 32 * s.vt.pb + p.toNat

/-- The governing bit of element e: field 0 means all (R102). -/
def State.gov (s : State) (p : BitVec 5) (e : Nat) : Bool :=
  p == 0#5 || (s.pred (s.predNo p)).getLsbD e

/-- Element e is recorded as done by the resumption state (R400). -/
def State.done (s : State) (e : Nat) : Bool :=
  let st := s.th.tr.estat
  (st.vpart || st.pfw) &&
    !(st.vpart && decide ((tget 0 s.th.vec.vstart (s.groupOf e)).toNat ≤ e)) &&
    !(st.pfw && (s.pred 95).getLsbD e)

/-- active(e) of R9. -/
def State.active (s : State) (p : BitVec 5) (e : Nat) : Bool :=
  decide (e < s.vl) && s.gov p e && !s.done e

/-- Element e lies at or beyond a part-way stop (R399). -/
def State.cutOff (s : State) (e : Nat) : Bool :=
  match s.cv.cut with
  | [] => false
  | l => decide (l.getD (s.groupOf e) 0 ≤ e)

/-- Element e is performed in this pass: not withheld by a fault of the convoy, not cut off (R399,
R401). -/
def State.performs (s : State) (e : Nat) : Bool := !s.cv.withheld.getLsbD e && !s.cutOff e

/-- The active elements, in ascending order. -/
def State.actives (s : State) (p : BitVec 5) : List Nat := (List.range s.vl).filter (s.active p)

/-- The elements that an element-wise member performs now. -/
def State.todo (s : State) (p : BitVec 5) : List Nat :=
  (List.range s.vl).filter (fun e => s.active p e && s.performs e)

/-- A member that is not element-wise performs nothing in a pass with withheld elements or a stop
(R401), and on a reissue it performs in full (R402). -/
def State.wholePass (s : State) : Bool := decide (s.cv.withheld = 0#4096) && s.cv.cut.isEmpty

/-- The elements below vl that a predicate selects, whatever is recorded as done: members that are
not element-wise (R402). -/
def State.selected (s : State) (p : BitVec 5) : List Nat := (List.range s.vl).filter (s.gov p)

/-! ### Scale bytes of sq -/

/-- Read the scale byte of a block (beat) of a register (R126). -/
def State.scaleByte (s : State) (r blk : Nat) : Nat := s.regBits r (blk * 512) 8

/-- Blocks of a group that hold an element below vl: register offset, beat, first element. -/
def State.blocks (s : State) (n : Nat) : List (Nat × Nat × Nat) :=
  ((List.range s.vl).filter (fun e => decide (e % s.per n % 63 = 0))).map
    (fun e => (e / s.per n, e % s.per n / 63, e))

/-- Write every destination block's scale byte from the same block of the first vector source (R127). -/
def State.copyScales (s : State) (d src : BitVec 5) : State :=
  if s.vt.sq then
    (s.blocks s.vt.gm).foldl (fun t b =>
      if s.cutOff b.2.2 || s.done b.2.2 then t
      else t.putBits (d.toNat + b.1) (b.2.1 * 512) 8 (s.scaleByte (src.toNat + b.1) b.2.1)) s
  else s

end Sys2Proof.Machine
end

