-- ==== Sys2Proof/Machine/Members.lean ====
section
/-!
DEFINITION. What the convoy rules need to know of an instruction: its pipe (R141), whether it is a
vector-state instruction (R328), whether its completion clears the progress records (R106), what it reads and writes (R146).
-/

namespace Sys2Proof.Machine

open Sys2Proof

/-- The pipes that members of a convoy occupy (R141, R280). -/
inductive Pipe where
  | ld
  | st
  | fx
  | px
  deriving DecidableEq, Repr

/-- The pipe of a group V instruction; group C instructions have none (R141). -/
def memberPipe (i : Instr) : Option Pipe :=
  match i with
  | .add _ _ _ => none
  | .sub _ _ _ => none
  | .and _ _ _ => none
  | .or _ _ _ => none
  | .xor _ _ _ => none
  | .andn _ _ _ => none
  | .sll _ _ _ => none
  | .srl _ _ _ => none
  | .sra _ _ _ => none
  | .slt _ _ _ => none
  | .sltn _ _ _ => none
  | .mul _ _ _ => none
  | .mulh _ _ _ => none
  | .div _ _ _ => none
  | .divn _ _ _ => none
  | .rem _ _ _ => none
  | .remn _ _ _ => none
  | .clz _ _ => none
  | .popc _ _ => none
  | .brev _ _ => none
  | .addi _ _ _ => none
  | .andi _ _ _ => none
  | .ori _ _ _ => none
  | .xori _ _ _ => none
  | .slli _ _ _ => none
  | .srli _ _ _ => none
  | .srai _ _ _ => none
  | .slti _ _ _ => none
  | .lui _ _ => none
  | .addpc _ _ => none
  | .lb _ _ _ => none
  | .lh _ _ _ => none
  | .lw _ _ _ => none
  | .ld _ _ _ => none
  | .lbn _ _ _ => none
  | .lhn _ _ _ => none
  | .lwn _ _ _ => none
  | .lda _ _ _ => none
  | .sb _ _ _ => none
  | .sh _ _ _ => none
  | .sw _ _ _ => none
  | .sd _ _ _ => none
  | .sdr _ _ _ => none
  | .amo _ _ _ _ _ _ => none
  | .beq _ _ _ => none
  | .bne _ _ _ => none
  | .blt _ _ _ => none
  | .bge _ _ _ => none
  | .bltn _ _ _ => none
  | .bgen _ _ _ => none
  | .jal _ _ => none
  | .jalr _ _ _ => none
  | .lnest _ _ _ => none
  | .lbody _ => none
  | .lexit _ _ => none
  | .csrr _ _ => none
  | .csrw _ _ _ => none
  | .csrs _ _ _ => none
  | .csrc _ _ _ => none
  | .svc _ => none
  | .eret => none
  | .nap _ => none
  | .wake _ _ => none
  | .yield => none
  | .halt => none
  | .bkpt _ => none
  | .ifence => none
  | .raise _ _ => none
  | .gjoin _ _ => none
  | .gleave _ _ => none
  | .barw _ _ => none
  | .bararv _ _ => none
  | .barrlx _ _ => none
  | .barwait _ _ _ => none
  | .phend _ _ => none
  | .gsize _ _ => none
  | .tid _ => none
  | .spawn _ _ _ => none
  | .jdone _ => none
  | .jstat _ _ => none
  | .jdeadl _ _ _ => none
  | .ptpnow _ => none
  | .chbind _ _ _ => none
  | .chpub _ _ _ => none
  | .chread _ _ => none
  | .fence _ => none
  | .fencee _ _ => none
  | .qdrain _ => none
  | .winpub _ => none
  | .vcfg _ _ => none
  | .setvl _ _ => none
  | .vkeep _ _ => none
  | .vdead _ _ => none
  | .vlmaxr _ _ _ => none
  | .vindex _ _ _ _ _ => some .fx
  | .pand _ _ _ _ _ => some .px
  | .por _ _ _ _ _ => some .px
  | .pxor _ _ _ _ _ => some .px
  | .pandn _ _ _ _ _ => some .px
  | .pnot _ _ _ _ => some .px
  | .pseta _ _ _ => some .px
  | .pfirst _ _ _ _ => some .px
  | .ppopc _ _ _ _ => some .px
  | .pscan _ _ _ _ => some .px
  | .pmovl _ _ _ _ => some .px
  | .pld _ _ _ _ => some .ld
  | .pst _ _ _ _ => some .st
  | .vld _ _ _ _ => some .ld
  | .vldff _ _ _ => none
  | .vlds _ _ _ _ _ => some .ld
  | .vldx _ _ _ _ _ => some .ld
  | .vst _ _ _ _ => some .st
  | .vsts _ _ _ _ _ => some .st
  | .vstx _ _ _ _ _ => some .st
  | .vstxo _ _ _ _ _ => some .st
  | .vldbp _ _ _ _ _ => some .ld
  | .vstbp _ _ _ _ _ => some .st
  | .vscatr _ _ _ _ => none
  | .vputr _ _ _ => none
  | .vappend _ _ _ => none
  | .vqpop _ _ => none
  | .vadd _ _ _ _ _ => some .fx
  | .vaddVs _ _ _ _ _ => some .fx
  | .vsub _ _ _ _ _ => some .fx
  | .vsubVs _ _ _ _ _ => some .fx
  | .vrsub _ _ _ _ _ => some .fx
  | .vrsubVs _ _ _ _ _ => some .fx
  | .vmul _ _ _ _ _ => some .fx
  | .vmulVs _ _ _ _ _ => some .fx
  | .vmulh _ _ _ _ _ => some .fx
  | .vmulhVs _ _ _ _ _ => some .fx
  | .vmulhn _ _ _ _ _ => some .fx
  | .vmulhnVs _ _ _ _ _ => some .fx
  | .vmin _ _ _ _ _ => some .fx
  | .vminVs _ _ _ _ _ => some .fx
  | .vmax _ _ _ _ _ => some .fx
  | .vmaxVs _ _ _ _ _ => some .fx
  | .vminn _ _ _ _ _ => some .fx
  | .vminnVs _ _ _ _ _ => some .fx
  | .vmaxn _ _ _ _ _ => some .fx
  | .vmaxnVs _ _ _ _ _ => some .fx
  | .vand _ _ _ _ _ => some .fx
  | .vandVs _ _ _ _ _ => some .fx
  | .vor _ _ _ _ _ => some .fx
  | .vorVs _ _ _ _ _ => some .fx
  | .vxor _ _ _ _ _ => some .fx
  | .vxorVs _ _ _ _ _ => some .fx
  | .vsll _ _ _ _ _ => some .fx
  | .vsllVs _ _ _ _ _ => some .fx
  | .vsrl _ _ _ _ _ => some .fx
  | .vsrlVs _ _ _ _ _ => some .fx
  | .vsra _ _ _ _ _ => some .fx
  | .vsraVs _ _ _ _ _ => some .fx
  | .vcmp _ _ _ _ _ _ => some .fx
  | .vcmpVs _ _ _ _ _ _ => some .fx
  | .vqadd _ _ _ _ _ => some .fx
  | .vqaddVs _ _ _ _ _ => some .fx
  | .vqsub _ _ _ _ _ => some .fx
  | .vqsubVs _ _ _ _ _ => some .fx
  | .vqmul _ _ _ _ _ => some .fx
  | .vqmulVs _ _ _ _ _ => some .fx
  | .vshrrnd _ _ _ _ _ => some .fx
  | .vshrrndVs _ _ _ _ _ => some .fx
  | .vsatn _ _ _ _ _ => some .fx
  | .vsatnVs _ _ _ _ _ => some .fx
  | .vhead _ _ _ _ => some .fx
  | .vqneg _ _ _ _ => some .fx
  | .vqabs _ _ _ _ => some .fx
  | .vfadd _ _ _ _ _ => some .fx
  | .vfaddVs _ _ _ _ _ => some .fx
  | .vfsub _ _ _ _ _ => some .fx
  | .vfsubVs _ _ _ _ _ => some .fx
  | .vfmul _ _ _ _ _ => some .fx
  | .vfmulVs _ _ _ _ _ => some .fx
  | .vfdiv _ _ _ _ _ => some .fx
  | .vfdivVs _ _ _ _ _ => some .fx
  | .vfmin _ _ _ _ _ => some .fx
  | .vfminVs _ _ _ _ _ => some .fx
  | .vfmax _ _ _ _ _ => some .fx
  | .vfmaxVs _ _ _ _ _ => some .fx
  | .vfma _ _ _ _ _ => some .fx
  | .vfmaVs _ _ _ _ _ => some .fx
  | .vfms _ _ _ _ _ => some .fx
  | .vfmsVs _ _ _ _ _ => some .fx
  | .vfnma _ _ _ _ _ => some .fx
  | .vfnmaVs _ _ _ _ _ => some .fx
  | .vfclamp _ _ _ _ _ => some .fx
  | .vfclampVs _ _ _ _ _ => some .fx
  | .vfsqrt _ _ _ _ => some .fx
  | .vfabs _ _ _ _ => some .fx
  | .vfneg _ _ _ _ => some .fx
  | .vcvt _ _ _ _ _ => some .fx
  | .vwiden _ _ _ _ _ => some .fx
  | .vnarrow _ _ _ _ _ => some .fx
  | .vabs _ _ _ _ => some .fx
  | .vneg _ _ _ _ => some .fx
  | .vclz _ _ _ _ => some .fx
  | .vpopc _ _ _ _ => some .fx
  | .vmov _ _ _ _ => some .fx
  | .vmovs _ _ _ _ => some .fx
  | .vmovx _ _ _ _ => some .fx
  | .vins _ _ _ _ => some .fx
  | .vsel _ _ _ _ _ => some .px
  | .vcompr _ _ _ _ => some .px
  | .vexpnd _ _ _ _ => some .px
  | .vslideup _ _ _ _ _ => some .px
  | .vslidedn _ _ _ _ _ => some .px
  | .vrev _ _ _ _ => some .px
  | .vred _ _ _ _ _ _ => some .px
  | .vfred _ _ _ _ _ _ => some .px
  | .vcred _ _ _ _ _ _ => some .px
  | .vcadd _ _ _ _ _ => some .px
  | .vcaddVs _ _ _ _ _ => some .px
  | .vcsub _ _ _ _ _ => some .px
  | .vcsubVs _ _ _ _ _ => some .px
  | .vcmul _ _ _ _ _ _ => some .px
  | .vcmulVs _ _ _ _ _ _ => some .px
  | .vcmac _ _ _ _ _ _ => some .px
  | .vcmacVs _ _ _ _ _ _ => some .px
  | .vcmag2 _ _ _ _ => some .px
  | .vcscl _ _ _ _ _ => some .px
  | .vcsclVs _ _ _ _ _ => some .px
  | .vcrot _ _ _ _ _ => some .px
  | .vcconj _ _ _ _ => some .px
  | .vbfly2 _ _ _ _ _ => some .px
  | .vbfly4 _ _ _ _ _ => some .px
  | .vbitrev _ _ _ _ => some .px
  | .vbperm _ _ _ _ _ => some .px
  | .vbgath _ _ _ _ _ => some .px
  | .vintlv _ _ _ _ _ => some .px
  | .vdintlv _ _ _ _ _ => some .px
  | .vrotz _ _ _ _ _ => some .px
  | .vgold _ _ _ _ _ => some .px
  | .vllrpk _ _ _ _ _ => some .px
  | .vperm _ _ _ _ _ => some .px
  | .vpermb _ _ _ _ => some .px
  | .vxchg _ _ _ => some .px
  | .vzip _ _ _ _ _ => some .px
  | .vunzip _ _ _ _ _ => some .px
  | .vscget _ _ _ _ => some .px
  | .vscset _ _ _ _ _ => some .px
  | .vscnorm _ _ _ _ => some .px
  | .vgjstep _ _ _ _ => some .px
  | .vbsolve _ _ _ _ _ => some .px
  | .vnsstep _ _ _ _ _ => some .px
  | .vwstag _ _ _ _ _ => some .px
  | .mma _ _ _ => none
  | .mmas _ _ _ _ => none
  | .mzero _ => none
  | .mmaComplete _ => none
  | .atov _ _ _ _ => none
  | .vtoa _ _ _ _ => none
  | .ald _ _ => none
  | .ast _ _ => none
  | .asave _ _ => none
  | .arst _ _ => none
  | .cbld _ _ => none
  | .cbfill _ _ _ => none
  | .ecpy _ _ => none
  | .eldpc _ _ _ => none
  | .epolar _ _ _ => none
  | .eenc _ _ _ => none
  | .edge _ _ _ => none
  | .ewait _ _ => none
  | .estat _ _ => none
  | .ecancel _ _ => none
  | .vamo _ _ _ _ _ => none
  | .wdecl _ _ => none
  | .wupd _ _ _ _ => none
  | .wmerge => none
  | .wfree => none
  | .rinst _ _ _ => none
  | .rcall _ _ _ => none
  | .rcallv _ _ _ _ => none
  | .rfree _ _ => none
  | .twset _ _ _ => none
  | .twclr _ _ => none
  | .twchk _ _ _ _ => none
  | .twconf _ _ _ _ => none
  | .twread _ _ => none
  | .sliceCall _ _ _ _ _ => none
  | .registerWrite _ _ _ => none
  | .frameAssign _ _ _ => none
  | .frameRelease _ _ => none
  | .frameQuery _ => none
  | .releaseComplete => none
  | .mapWrite _ _ => none
  | .mapRemove _ _ => none
  | .mapRead _ _ => none
  | .removalComplete => none
  | .migpush _ _ => none
  | .migrate _ _ => none
  | .migrationComplete _ _ => none
  | .counterHalving => none
  | .pageWalk _ _ _ => none
  | .s1invWrite _ _ => none
  | .s1invComplete _ => none
  | .fqcfgWrite _ _ => none
  | .fqheadWrite _ _ => none
  | .l2Fill _ _ _ => none
  | .l2Writeback _ => none
  | .ingestSection _ _ _ _ _ _ _ _ _ _ _ => none
  | .slotClose _ _ _ _ => none
  | .irctlWrite _ _ _ => none
  | .flctlWrite _ _ => none
  | .egressFetch _ _ => none
  | .egressTransmit _ _ => none
  | .engineStart _ => none
  | .copyComplete _ => none
  | .codingComplete _ => none
  | .engineStop _ _ => none
  | .budgetReset => none
  | .aownWrite _ _ _ => none
  | .acfgWrite _ _ => none
  | .vgcapWrite _ _ => none
  | .rtctlWrite _ _ => none
  | .wseqWrite _ _ => none
  | .pwrcapWrite _ => none
  | .governorSample _ _ => none
  | .thermalTrip _ => none
  | .rateReduction _ => none
  | .launch _ => none
  | .map _ => none
  | .unmap _ => none
  | .copy _ => none
  | .watch _ => none
  | .notify _ => none
  | .attest _ => none
  | .functionReset _ => none
  | .pageResponse _ _ _ _ _ _ => none
  | .proxyResponse _ _ => none
  | .hostAccess _ _ _ => none
  | .hostSnoop _ _ => none
  | .backInvalidateResponse _ => none
  | .twinInbound _ _ _ => none
  | .trainArrival _ _ => none
  | .trainAck _ _ => none
  | .dispatch _ => none
  | .preemptTimeout _ => none
  | .handlerTimeout _ => none
  | .yieldTimeout _ => none
  | .windowWaitExpiry _ => none
  | .forcedStop _ => none
  | .partWayStop _ _ => none
  | .deadlineReached _ _ => none
  | .abandonStop _ => none
  | .markerWrite _ _ => none
  | .setvlRestart _ => none
  | .napWake _ => none
  | .barwaitResume _ => none
  | .ewaitResume _ => none
  | .commitWaitEnd _ => none
  | .queueWaitEnd _ => none
  | .pendingLineFree _ => none
  | .tileReleaseWait _ => none
  | .qdrainEnd _ => none
  | .phendResume _ => none
  | .chainDetach _ _ => none
  | .bridgeError _ => none
  | .dbgtWrite _ _ => none
  | .frzWrite _ => none
  | .trctlWrite _ _ => none
  | .triggerFire _ _ _ => none
  | .triggerArrival _ _ _ => none
  | .triggerAction _ _ _ _ => none
  | .powerOnReset => none
  | .bringupComplete => none
  | .storeBufferDrain _ => none
  | .cancelledCommandStop _ _ => none
  | .resumeAfterDetach _ _ => none
  | .ptpServoStep _ => none
  | .twinLinkState _ => none
  | .uncorrectableError _ => none
  | .illegalWord _ => none
  | .fetchFault _ => none
  | .unknownOpEntry _ => none

/-- The vector-state instructions, which trap VFIRST while the vector state is absent (R328). -/
def isVectorState (i : Instr) : Bool :=
  match i with
  | .add _ _ _ => false
  | .sub _ _ _ => false
  | .and _ _ _ => false
  | .or _ _ _ => false
  | .xor _ _ _ => false
  | .andn _ _ _ => false
  | .sll _ _ _ => false
  | .srl _ _ _ => false
  | .sra _ _ _ => false
  | .slt _ _ _ => false
  | .sltn _ _ _ => false
  | .mul _ _ _ => false
  | .mulh _ _ _ => false
  | .div _ _ _ => false
  | .divn _ _ _ => false
  | .rem _ _ _ => false
  | .remn _ _ _ => false
  | .clz _ _ => false
  | .popc _ _ => false
  | .brev _ _ => false
  | .addi _ _ _ => false
  | .andi _ _ _ => false
  | .ori _ _ _ => false
  | .xori _ _ _ => false
  | .slli _ _ _ => false
  | .srli _ _ _ => false
  | .srai _ _ _ => false
  | .slti _ _ _ => false
  | .lui _ _ => false
  | .addpc _ _ => false
  | .lb _ _ _ => false
  | .lh _ _ _ => false
  | .lw _ _ _ => false
  | .ld _ _ _ => false
  | .lbn _ _ _ => false
  | .lhn _ _ _ => false
  | .lwn _ _ _ => false
  | .lda _ _ _ => false
  | .sb _ _ _ => false
  | .sh _ _ _ => false
  | .sw _ _ _ => false
  | .sd _ _ _ => false
  | .sdr _ _ _ => false
  | .amo _ _ _ _ _ _ => false
  | .beq _ _ _ => false
  | .bne _ _ _ => false
  | .blt _ _ _ => false
  | .bge _ _ _ => false
  | .bltn _ _ _ => false
  | .bgen _ _ _ => false
  | .jal _ _ => false
  | .jalr _ _ _ => false
  | .lnest _ _ _ => false
  | .lbody _ => false
  | .lexit _ _ => false
  | .csrr _ _ => false
  | .csrw _ _ _ => false
  | .csrs _ _ _ => false
  | .csrc _ _ _ => false
  | .svc _ => false
  | .eret => false
  | .nap _ => false
  | .wake _ _ => false
  | .yield => false
  | .halt => false
  | .bkpt _ => false
  | .ifence => false
  | .raise _ _ => false
  | .gjoin _ _ => false
  | .gleave _ _ => false
  | .barw _ _ => false
  | .bararv _ _ => false
  | .barrlx _ _ => false
  | .barwait _ _ _ => false
  | .phend _ _ => false
  | .gsize _ _ => false
  | .tid _ => false
  | .spawn _ _ _ => false
  | .jdone _ => false
  | .jstat _ _ => false
  | .jdeadl _ _ _ => false
  | .ptpnow _ => false
  | .chbind _ _ _ => true
  | .chpub _ _ _ => false
  | .chread _ _ => false
  | .fence _ => false
  | .fencee _ _ => false
  | .qdrain _ => false
  | .winpub _ => false
  | .vcfg _ _ => true
  | .setvl _ _ => true
  | .vkeep _ _ => true
  | .vdead _ _ => true
  | .vlmaxr _ _ _ => true
  | .vindex _ _ _ _ _ => true
  | .pand _ _ _ _ _ => true
  | .por _ _ _ _ _ => true
  | .pxor _ _ _ _ _ => true
  | .pandn _ _ _ _ _ => true
  | .pnot _ _ _ _ => true
  | .pseta _ _ _ => true
  | .pfirst _ _ _ _ => true
  | .ppopc _ _ _ _ => true
  | .pscan _ _ _ _ => true
  | .pmovl _ _ _ _ => true
  | .pld _ _ _ _ => true
  | .pst _ _ _ _ => true
  | .vld _ _ _ _ => true
  | .vldff _ _ _ => true
  | .vlds _ _ _ _ _ => true
  | .vldx _ _ _ _ _ => true
  | .vst _ _ _ _ => true
  | .vsts _ _ _ _ _ => true
  | .vstx _ _ _ _ _ => true
  | .vstxo _ _ _ _ _ => true
  | .vldbp _ _ _ _ _ => true
  | .vstbp _ _ _ _ _ => true
  | .vscatr _ _ _ _ => true
  | .vputr _ _ _ => true
  | .vappend _ _ _ => true
  | .vqpop _ _ => true
  | .vadd _ _ _ _ _ => true
  | .vaddVs _ _ _ _ _ => true
  | .vsub _ _ _ _ _ => true
  | .vsubVs _ _ _ _ _ => true
  | .vrsub _ _ _ _ _ => true
  | .vrsubVs _ _ _ _ _ => true
  | .vmul _ _ _ _ _ => true
  | .vmulVs _ _ _ _ _ => true
  | .vmulh _ _ _ _ _ => true
  | .vmulhVs _ _ _ _ _ => true
  | .vmulhn _ _ _ _ _ => true
  | .vmulhnVs _ _ _ _ _ => true
  | .vmin _ _ _ _ _ => true
  | .vminVs _ _ _ _ _ => true
  | .vmax _ _ _ _ _ => true
  | .vmaxVs _ _ _ _ _ => true
  | .vminn _ _ _ _ _ => true
  | .vminnVs _ _ _ _ _ => true
  | .vmaxn _ _ _ _ _ => true
  | .vmaxnVs _ _ _ _ _ => true
  | .vand _ _ _ _ _ => true
  | .vandVs _ _ _ _ _ => true
  | .vor _ _ _ _ _ => true
  | .vorVs _ _ _ _ _ => true
  | .vxor _ _ _ _ _ => true
  | .vxorVs _ _ _ _ _ => true
  | .vsll _ _ _ _ _ => true
  | .vsllVs _ _ _ _ _ => true
  | .vsrl _ _ _ _ _ => true
  | .vsrlVs _ _ _ _ _ => true
  | .vsra _ _ _ _ _ => true
  | .vsraVs _ _ _ _ _ => true
  | .vcmp _ _ _ _ _ _ => true
  | .vcmpVs _ _ _ _ _ _ => true
  | .vqadd _ _ _ _ _ => true
  | .vqaddVs _ _ _ _ _ => true
  | .vqsub _ _ _ _ _ => true
  | .vqsubVs _ _ _ _ _ => true
  | .vqmul _ _ _ _ _ => true
  | .vqmulVs _ _ _ _ _ => true
  | .vshrrnd _ _ _ _ _ => true
  | .vshrrndVs _ _ _ _ _ => true
  | .vsatn _ _ _ _ _ => true
  | .vsatnVs _ _ _ _ _ => true
  | .vhead _ _ _ _ => true
  | .vqneg _ _ _ _ => true
  | .vqabs _ _ _ _ => true
  | .vfadd _ _ _ _ _ => true
  | .vfaddVs _ _ _ _ _ => true
  | .vfsub _ _ _ _ _ => true
  | .vfsubVs _ _ _ _ _ => true
  | .vfmul _ _ _ _ _ => true
  | .vfmulVs _ _ _ _ _ => true
  | .vfdiv _ _ _ _ _ => true
  | .vfdivVs _ _ _ _ _ => true
  | .vfmin _ _ _ _ _ => true
  | .vfminVs _ _ _ _ _ => true
  | .vfmax _ _ _ _ _ => true
  | .vfmaxVs _ _ _ _ _ => true
  | .vfma _ _ _ _ _ => true
  | .vfmaVs _ _ _ _ _ => true
  | .vfms _ _ _ _ _ => true
  | .vfmsVs _ _ _ _ _ => true
  | .vfnma _ _ _ _ _ => true
  | .vfnmaVs _ _ _ _ _ => true
  | .vfclamp _ _ _ _ _ => true
  | .vfclampVs _ _ _ _ _ => true
  | .vfsqrt _ _ _ _ => true
  | .vfabs _ _ _ _ => true
  | .vfneg _ _ _ _ => true
  | .vcvt _ _ _ _ _ => true
  | .vwiden _ _ _ _ _ => true
  | .vnarrow _ _ _ _ _ => true
  | .vabs _ _ _ _ => true
  | .vneg _ _ _ _ => true
  | .vclz _ _ _ _ => true
  | .vpopc _ _ _ _ => true
  | .vmov _ _ _ _ => true
  | .vmovs _ _ _ _ => true
  | .vmovx _ _ _ _ => true
  | .vins _ _ _ _ => true
  | .vsel _ _ _ _ _ => true
  | .vcompr _ _ _ _ => true
  | .vexpnd _ _ _ _ => true
  | .vslideup _ _ _ _ _ => true
  | .vslidedn _ _ _ _ _ => true
  | .vrev _ _ _ _ => true
  | .vred _ _ _ _ _ _ => true
  | .vfred _ _ _ _ _ _ => true
  | .vcred _ _ _ _ _ _ => true
  | .vcadd _ _ _ _ _ => true
  | .vcaddVs _ _ _ _ _ => true
  | .vcsub _ _ _ _ _ => true
  | .vcsubVs _ _ _ _ _ => true
  | .vcmul _ _ _ _ _ _ => true
  | .vcmulVs _ _ _ _ _ _ => true
  | .vcmac _ _ _ _ _ _ => true
  | .vcmacVs _ _ _ _ _ _ => true
  | .vcmag2 _ _ _ _ => true
  | .vcscl _ _ _ _ _ => true
  | .vcsclVs _ _ _ _ _ => true
  | .vcrot _ _ _ _ _ => true
  | .vcconj _ _ _ _ => true
  | .vbfly2 _ _ _ _ _ => true
  | .vbfly4 _ _ _ _ _ => true
  | .vbitrev _ _ _ _ => true
  | .vbperm _ _ _ _ _ => true
  | .vbgath _ _ _ _ _ => true
  | .vintlv _ _ _ _ _ => true
  | .vdintlv _ _ _ _ _ => true
  | .vrotz _ _ _ _ _ => true
  | .vgold _ _ _ _ _ => true
  | .vllrpk _ _ _ _ _ => true
  | .vperm _ _ _ _ _ => true
  | .vpermb _ _ _ _ => true
  | .vxchg _ _ _ => true
  | .vzip _ _ _ _ _ => true
  | .vunzip _ _ _ _ _ => true
  | .vscget _ _ _ _ => true
  | .vscset _ _ _ _ _ => true
  | .vscnorm _ _ _ _ => true
  | .vgjstep _ _ _ _ => true
  | .vbsolve _ _ _ _ _ => true
  | .vnsstep _ _ _ _ _ => true
  | .vwstag _ _ _ _ _ => true
  | .mma _ _ _ => true
  | .mmas _ _ _ _ => true
  | .mzero _ => true
  | .mmaComplete _ => false
  | .atov _ _ _ _ => true
  | .vtoa _ _ _ _ => true
  | .ald _ _ => true
  | .ast _ _ => true
  | .asave _ _ => true
  | .arst _ _ => true
  | .cbld _ _ => true
  | .cbfill _ _ _ => true
  | .ecpy _ _ => false
  | .eldpc _ _ _ => false
  | .epolar _ _ _ => false
  | .eenc _ _ _ => false
  | .edge _ _ _ => false
  | .ewait _ _ => false
  | .estat _ _ => false
  | .ecancel _ _ => false
  | .vamo _ _ _ _ _ => true
  | .wdecl _ _ => true
  | .wupd _ _ _ _ => true
  | .wmerge => true
  | .wfree => true
  | .rinst _ _ _ => false
  | .rcall _ _ _ => false
  | .rcallv _ _ _ _ => true
  | .rfree _ _ => false
  | .twset _ _ _ => false
  | .twclr _ _ => false
  | .twchk _ _ _ _ => true
  | .twconf _ _ _ _ => true
  | .twread _ _ => false
  | .sliceCall _ _ _ _ _ => false
  | .registerWrite _ _ _ => false
  | .frameAssign _ _ _ => false
  | .frameRelease _ _ => false
  | .frameQuery _ => false
  | .releaseComplete => false
  | .mapWrite _ _ => false
  | .mapRemove _ _ => false
  | .mapRead _ _ => false
  | .removalComplete => false
  | .migpush _ _ => false
  | .migrate _ _ => false
  | .migrationComplete _ _ => false
  | .counterHalving => false
  | .pageWalk _ _ _ => false
  | .s1invWrite _ _ => false
  | .s1invComplete _ => false
  | .fqcfgWrite _ _ => false
  | .fqheadWrite _ _ => false
  | .l2Fill _ _ _ => false
  | .l2Writeback _ => false
  | .ingestSection _ _ _ _ _ _ _ _ _ _ _ => false
  | .slotClose _ _ _ _ => false
  | .irctlWrite _ _ _ => false
  | .flctlWrite _ _ => false
  | .egressFetch _ _ => false
  | .egressTransmit _ _ => false
  | .engineStart _ => false
  | .copyComplete _ => false
  | .codingComplete _ => false
  | .engineStop _ _ => false
  | .budgetReset => false
  | .aownWrite _ _ _ => false
  | .acfgWrite _ _ => false
  | .vgcapWrite _ _ => false
  | .rtctlWrite _ _ => false
  | .wseqWrite _ _ => false
  | .pwrcapWrite _ => false
  | .governorSample _ _ => false
  | .thermalTrip _ => false
  | .rateReduction _ => false
  | .launch _ => false
  | .map _ => false
  | .unmap _ => false
  | .copy _ => false
  | .watch _ => false
  | .notify _ => false
  | .attest _ => false
  | .functionReset _ => false
  | .pageResponse _ _ _ _ _ _ => false
  | .proxyResponse _ _ => false
  | .hostAccess _ _ _ => false
  | .hostSnoop _ _ => false
  | .backInvalidateResponse _ => false
  | .twinInbound _ _ _ => false
  | .trainArrival _ _ => false
  | .trainAck _ _ => false
  | .dispatch _ => false
  | .preemptTimeout _ => false
  | .handlerTimeout _ => false
  | .yieldTimeout _ => false
  | .windowWaitExpiry _ => false
  | .forcedStop _ => false
  | .partWayStop _ _ => false
  | .deadlineReached _ _ => false
  | .abandonStop _ => false
  | .markerWrite _ _ => false
  | .setvlRestart _ => false
  | .napWake _ => false
  | .barwaitResume _ => false
  | .ewaitResume _ => false
  | .commitWaitEnd _ => false
  | .queueWaitEnd _ => false
  | .pendingLineFree _ => false
  | .tileReleaseWait _ => false
  | .qdrainEnd _ => false
  | .phendResume _ => false
  | .chainDetach _ _ => false
  | .bridgeError _ => false
  | .dbgtWrite _ _ => false
  | .frzWrite _ => false
  | .trctlWrite _ _ => false
  | .triggerFire _ _ _ => false
  | .triggerArrival _ _ _ => false
  | .triggerAction _ _ _ _ => false
  | .powerOnReset => false
  | .bringupComplete => false
  | .storeBufferDrain _ => false
  | .cancelledCommandStop _ _ => false
  | .resumeAfterDetach _ _ => false
  | .ptpServoStep _ => false
  | .twinLinkState _ => false
  | .uncorrectableError _ => false
  | .illegalWord _ => false
  | .fetchFault _ => false
  | .unknownOpEntry _ => false

/-- Instructions whose completion zeroes vstart0–7 and clears VPART, MPART and PFW (R106, R400): those
with elements, and the matrix instructions. -/
def clearsProgress (i : Instr) : Bool :=
  match i with
  | .add _ _ _ => false
  | .sub _ _ _ => false
  | .and _ _ _ => false
  | .or _ _ _ => false
  | .xor _ _ _ => false
  | .andn _ _ _ => false
  | .sll _ _ _ => false
  | .srl _ _ _ => false
  | .sra _ _ _ => false
  | .slt _ _ _ => false
  | .sltn _ _ _ => false
  | .mul _ _ _ => false
  | .mulh _ _ _ => false
  | .div _ _ _ => false
  | .divn _ _ _ => false
  | .rem _ _ _ => false
  | .remn _ _ _ => false
  | .clz _ _ => false
  | .popc _ _ => false
  | .brev _ _ => false
  | .addi _ _ _ => false
  | .andi _ _ _ => false
  | .ori _ _ _ => false
  | .xori _ _ _ => false
  | .slli _ _ _ => false
  | .srli _ _ _ => false
  | .srai _ _ _ => false
  | .slti _ _ _ => false
  | .lui _ _ => false
  | .addpc _ _ => false
  | .lb _ _ _ => false
  | .lh _ _ _ => false
  | .lw _ _ _ => false
  | .ld _ _ _ => false
  | .lbn _ _ _ => false
  | .lhn _ _ _ => false
  | .lwn _ _ _ => false
  | .lda _ _ _ => false
  | .sb _ _ _ => false
  | .sh _ _ _ => false
  | .sw _ _ _ => false
  | .sd _ _ _ => false
  | .sdr _ _ _ => false
  | .amo _ _ _ _ _ _ => false
  | .beq _ _ _ => false
  | .bne _ _ _ => false
  | .blt _ _ _ => false
  | .bge _ _ _ => false
  | .bltn _ _ _ => false
  | .bgen _ _ _ => false
  | .jal _ _ => false
  | .jalr _ _ _ => false
  | .lnest _ _ _ => false
  | .lbody _ => false
  | .lexit _ _ => false
  | .csrr _ _ => false
  | .csrw _ _ _ => false
  | .csrs _ _ _ => false
  | .csrc _ _ _ => false
  | .svc _ => false
  | .eret => false
  | .nap _ => false
  | .wake _ _ => false
  | .yield => false
  | .halt => false
  | .bkpt _ => false
  | .ifence => false
  | .raise _ _ => false
  | .gjoin _ _ => false
  | .gleave _ _ => false
  | .barw _ _ => false
  | .bararv _ _ => false
  | .barrlx _ _ => false
  | .barwait _ _ _ => false
  | .phend _ _ => false
  | .gsize _ _ => false
  | .tid _ => false
  | .spawn _ _ _ => false
  | .jdone _ => false
  | .jstat _ _ => false
  | .jdeadl _ _ _ => false
  | .ptpnow _ => false
  | .chbind _ _ _ => false
  | .chpub _ _ _ => false
  | .chread _ _ => false
  | .fence _ => false
  | .fencee _ _ => false
  | .qdrain _ => false
  | .winpub _ => false
  | .vcfg _ _ => false
  | .setvl _ _ => false
  | .vkeep _ _ => false
  | .vdead _ _ => false
  | .vlmaxr _ _ _ => false
  | .vindex _ _ _ _ _ => true
  | .pand _ _ _ _ _ => true
  | .por _ _ _ _ _ => true
  | .pxor _ _ _ _ _ => true
  | .pandn _ _ _ _ _ => true
  | .pnot _ _ _ _ => true
  | .pseta _ _ _ => true
  | .pfirst _ _ _ _ => true
  | .ppopc _ _ _ _ => true
  | .pscan _ _ _ _ => true
  | .pmovl _ _ _ _ => true
  | .pld _ _ _ _ => true
  | .pst _ _ _ _ => true
  | .vld _ _ _ _ => true
  | .vldff _ _ _ => true
  | .vlds _ _ _ _ _ => true
  | .vldx _ _ _ _ _ => true
  | .vst _ _ _ _ => true
  | .vsts _ _ _ _ _ => true
  | .vstx _ _ _ _ _ => true
  | .vstxo _ _ _ _ _ => true
  | .vldbp _ _ _ _ _ => true
  | .vstbp _ _ _ _ _ => true
  | .vscatr _ _ _ _ => true
  | .vputr _ _ _ => true
  | .vappend _ _ _ => true
  | .vqpop _ _ => true
  | .vadd _ _ _ _ _ => true
  | .vaddVs _ _ _ _ _ => true
  | .vsub _ _ _ _ _ => true
  | .vsubVs _ _ _ _ _ => true
  | .vrsub _ _ _ _ _ => true
  | .vrsubVs _ _ _ _ _ => true
  | .vmul _ _ _ _ _ => true
  | .vmulVs _ _ _ _ _ => true
  | .vmulh _ _ _ _ _ => true
  | .vmulhVs _ _ _ _ _ => true
  | .vmulhn _ _ _ _ _ => true
  | .vmulhnVs _ _ _ _ _ => true
  | .vmin _ _ _ _ _ => true
  | .vminVs _ _ _ _ _ => true
  | .vmax _ _ _ _ _ => true
  | .vmaxVs _ _ _ _ _ => true
  | .vminn _ _ _ _ _ => true
  | .vminnVs _ _ _ _ _ => true
  | .vmaxn _ _ _ _ _ => true
  | .vmaxnVs _ _ _ _ _ => true
  | .vand _ _ _ _ _ => true
  | .vandVs _ _ _ _ _ => true
  | .vor _ _ _ _ _ => true
  | .vorVs _ _ _ _ _ => true
  | .vxor _ _ _ _ _ => true
  | .vxorVs _ _ _ _ _ => true
  | .vsll _ _ _ _ _ => true
  | .vsllVs _ _ _ _ _ => true
  | .vsrl _ _ _ _ _ => true
  | .vsrlVs _ _ _ _ _ => true
  | .vsra _ _ _ _ _ => true
  | .vsraVs _ _ _ _ _ => true
  | .vcmp _ _ _ _ _ _ => true
  | .vcmpVs _ _ _ _ _ _ => true
  | .vqadd _ _ _ _ _ => true
  | .vqaddVs _ _ _ _ _ => true
  | .vqsub _ _ _ _ _ => true
  | .vqsubVs _ _ _ _ _ => true
  | .vqmul _ _ _ _ _ => true
  | .vqmulVs _ _ _ _ _ => true
  | .vshrrnd _ _ _ _ _ => true
  | .vshrrndVs _ _ _ _ _ => true
  | .vsatn _ _ _ _ _ => true
  | .vsatnVs _ _ _ _ _ => true
  | .vhead _ _ _ _ => true
  | .vqneg _ _ _ _ => true
  | .vqabs _ _ _ _ => true
  | .vfadd _ _ _ _ _ => true
  | .vfaddVs _ _ _ _ _ => true
  | .vfsub _ _ _ _ _ => true
  | .vfsubVs _ _ _ _ _ => true
  | .vfmul _ _ _ _ _ => true
  | .vfmulVs _ _ _ _ _ => true
  | .vfdiv _ _ _ _ _ => true
  | .vfdivVs _ _ _ _ _ => true
  | .vfmin _ _ _ _ _ => true
  | .vfminVs _ _ _ _ _ => true
  | .vfmax _ _ _ _ _ => true
  | .vfmaxVs _ _ _ _ _ => true
  | .vfma _ _ _ _ _ => true
  | .vfmaVs _ _ _ _ _ => true
  | .vfms _ _ _ _ _ => true
  | .vfmsVs _ _ _ _ _ => true
  | .vfnma _ _ _ _ _ => true
  | .vfnmaVs _ _ _ _ _ => true
  | .vfclamp _ _ _ _ _ => true
  | .vfclampVs _ _ _ _ _ => true
  | .vfsqrt _ _ _ _ => true
  | .vfabs _ _ _ _ => true
  | .vfneg _ _ _ _ => true
  | .vcvt _ _ _ _ _ => true
  | .vwiden _ _ _ _ _ => true
  | .vnarrow _ _ _ _ _ => true
  | .vabs _ _ _ _ => true
  | .vneg _ _ _ _ => true
  | .vclz _ _ _ _ => true
  | .vpopc _ _ _ _ => true
  | .vmov _ _ _ _ => true
  | .vmovs _ _ _ _ => true
  | .vmovx _ _ _ _ => true
  | .vins _ _ _ _ => true
  | .vsel _ _ _ _ _ => true
  | .vcompr _ _ _ _ => true
  | .vexpnd _ _ _ _ => true
  | .vslideup _ _ _ _ _ => true
  | .vslidedn _ _ _ _ _ => true
  | .vrev _ _ _ _ => true
  | .vred _ _ _ _ _ _ => true
  | .vfred _ _ _ _ _ _ => true
  | .vcred _ _ _ _ _ _ => true
  | .vcadd _ _ _ _ _ => true
  | .vcaddVs _ _ _ _ _ => true
  | .vcsub _ _ _ _ _ => true
  | .vcsubVs _ _ _ _ _ => true
  | .vcmul _ _ _ _ _ _ => true
  | .vcmulVs _ _ _ _ _ _ => true
  | .vcmac _ _ _ _ _ _ => true
  | .vcmacVs _ _ _ _ _ _ => true
  | .vcmag2 _ _ _ _ => true
  | .vcscl _ _ _ _ _ => true
  | .vcsclVs _ _ _ _ _ => true
  | .vcrot _ _ _ _ _ => true
  | .vcconj _ _ _ _ => true
  | .vbfly2 _ _ _ _ _ => true
  | .vbfly4 _ _ _ _ _ => true
  | .vbitrev _ _ _ _ => true
  | .vbperm _ _ _ _ _ => true
  | .vbgath _ _ _ _ _ => true
  | .vintlv _ _ _ _ _ => true
  | .vdintlv _ _ _ _ _ => true
  | .vrotz _ _ _ _ _ => true
  | .vgold _ _ _ _ _ => true
  | .vllrpk _ _ _ _ _ => true
  | .vperm _ _ _ _ _ => true
  | .vpermb _ _ _ _ => true
  | .vxchg _ _ _ => true
  | .vzip _ _ _ _ _ => true
  | .vunzip _ _ _ _ _ => true
  | .vscget _ _ _ _ => true
  | .vscset _ _ _ _ _ => true
  | .vscnorm _ _ _ _ => true
  | .vgjstep _ _ _ _ => true
  | .vbsolve _ _ _ _ _ => true
  | .vnsstep _ _ _ _ _ => true
  | .vwstag _ _ _ _ _ => true
  | .mma _ _ _ => true
  | .mmas _ _ _ _ => true
  | .mzero _ => true
  | .mmaComplete _ => false
  | .atov _ _ _ _ => true
  | .vtoa _ _ _ _ => true
  | .ald _ _ => true
  | .ast _ _ => true
  | .asave _ _ => true
  | .arst _ _ => true
  | .cbld _ _ => true
  | .cbfill _ _ _ => true
  | .ecpy _ _ => false
  | .eldpc _ _ _ => false
  | .epolar _ _ _ => false
  | .eenc _ _ _ => false
  | .edge _ _ _ => false
  | .ewait _ _ => false
  | .estat _ _ => false
  | .ecancel _ _ => false
  | .vamo _ _ _ _ _ => true
  | .wdecl _ _ => false
  | .wupd _ _ _ _ => true
  | .wmerge => false
  | .wfree => false
  | .rinst _ _ _ => false
  | .rcall _ _ _ => false
  | .rcallv _ _ _ _ => true
  | .rfree _ _ => false
  | .twset _ _ _ => false
  | .twclr _ _ => false
  | .twchk _ _ _ _ => true
  | .twconf _ _ _ _ => true
  | .twread _ _ => false
  | .sliceCall _ _ _ _ _ => false
  | .registerWrite _ _ _ => false
  | .frameAssign _ _ _ => false
  | .frameRelease _ _ => false
  | .frameQuery _ => false
  | .releaseComplete => false
  | .mapWrite _ _ => false
  | .mapRemove _ _ => false
  | .mapRead _ _ => false
  | .removalComplete => false
  | .migpush _ _ => false
  | .migrate _ _ => false
  | .migrationComplete _ _ => false
  | .counterHalving => false
  | .pageWalk _ _ _ => false
  | .s1invWrite _ _ => false
  | .s1invComplete _ => false
  | .fqcfgWrite _ _ => false
  | .fqheadWrite _ _ => false
  | .l2Fill _ _ _ => false
  | .l2Writeback _ => false
  | .ingestSection _ _ _ _ _ _ _ _ _ _ _ => false
  | .slotClose _ _ _ _ => false
  | .irctlWrite _ _ _ => false
  | .flctlWrite _ _ => false
  | .egressFetch _ _ => false
  | .egressTransmit _ _ => false
  | .engineStart _ => false
  | .copyComplete _ => false
  | .codingComplete _ => false
  | .engineStop _ _ => false
  | .budgetReset => false
  | .aownWrite _ _ _ => false
  | .acfgWrite _ _ => false
  | .vgcapWrite _ _ => false
  | .rtctlWrite _ _ => false
  | .wseqWrite _ _ => false
  | .pwrcapWrite _ => false
  | .governorSample _ _ => false
  | .thermalTrip _ => false
  | .rateReduction _ => false
  | .launch _ => false
  | .map _ => false
  | .unmap _ => false
  | .copy _ => false
  | .watch _ => false
  | .notify _ => false
  | .attest _ => false
  | .functionReset _ => false
  | .pageResponse _ _ _ _ _ _ => false
  | .proxyResponse _ _ => false
  | .hostAccess _ _ _ => false
  | .hostSnoop _ _ => false
  | .backInvalidateResponse _ => false
  | .twinInbound _ _ _ => false
  | .trainArrival _ _ => false
  | .trainAck _ _ => false
  | .dispatch _ => false
  | .preemptTimeout _ => false
  | .handlerTimeout _ => false
  | .yieldTimeout _ => false
  | .windowWaitExpiry _ => false
  | .forcedStop _ => false
  | .partWayStop _ _ => false
  | .deadlineReached _ _ => false
  | .abandonStop _ => false
  | .markerWrite _ _ => false
  | .setvlRestart _ => false
  | .napWake _ => false
  | .barwaitResume _ => false
  | .ewaitResume _ => false
  | .commitWaitEnd _ => false
  | .queueWaitEnd _ => false
  | .pendingLineFree _ => false
  | .tileReleaseWait _ => false
  | .qdrainEnd _ => false
  | .phendResume _ => false
  | .chainDetach _ _ => false
  | .bridgeError _ => false
  | .dbgtWrite _ _ => false
  | .frzWrite _ => false
  | .trctlWrite _ _ => false
  | .triggerFire _ _ _ => false
  | .triggerArrival _ _ _ => false
  | .triggerAction _ _ _ _ => false
  | .powerOnReset => false
  | .bringupComplete => false
  | .storeBufferDrain _ => false
  | .cancelledCommandStop _ _ => false
  | .resumeAfterDetach _ _ => false
  | .ptpServoStep _ => false
  | .twinLinkState _ => false
  | .uncorrectableError _ => false
  | .illegalWord _ => false
  | .fetchFault _ => false
  | .unknownOpEntry _ => false

/-! ### What members read and write -/

/-- The registers (first, count) and the predicates that a member reads and writes. -/
structure Uses where
  vr : List (Nat × Nat)
  vw : List (Nat × Nat)
  pr : List Nat
  pw : List Nat
  deriving DecidableEq, Repr

/-- What a group V instruction reads and writes with n registers to a group and predicates numbered by
`no` (R99, R102, R146). Governing field 0 names no predicate. Group C words are refused by rule 1 before
this is asked, and have no entry. -/
def usesOf (n : Nat) (no : BitVec 5 → Nat) (i : Instr) : Uses :=
  let g := fun (v : BitVec 5) => (v.toNat, n)
  let gv := fun (p : BitVec 5) => if p = 0#5 then [] else [no p]
  match i with
  | .vindex _ d p _ _ => ⟨[], [g d], gv p, []⟩
  | .pand _ d a b p => ⟨[], [], [no a] ++ [no b] ++ gv p, [no d]⟩
  | .por _ d a b p => ⟨[], [], [no a] ++ [no b] ++ gv p, [no d]⟩
  | .pxor _ d a b p => ⟨[], [], [no a] ++ [no b] ++ gv p, [no d]⟩
  | .pandn _ d a b p => ⟨[], [], [no a] ++ [no b] ++ gv p, [no d]⟩
  | .pnot _ d a p => ⟨[], [], [no a] ++ gv p, [no d]⟩
  | .pseta _ d p => ⟨[], [], gv p, [no d]⟩
  | .pfirst _ d a p => ⟨[], [], [no a] ++ gv p, [no d]⟩
  | .ppopc _ _ a p => ⟨[], [], [no a] ++ gv p, []⟩
  | .pscan _ d a p => ⟨[], [], [no a] ++ gv p, [no d]⟩
  | .pmovl _ d a k => ⟨[], [], [a.toNat + 32 * (k.toNat / 4)], [d.toNat + 32 * (k.toNat % 4)]⟩
  | .pld _ d _ k => ⟨[], [], [], [d.toNat + 32 * k.toNat]⟩
  | .pst _ d _ k => ⟨[], [], [d.toNat + 32 * k.toNat], []⟩
  | .vld _ d _ p => ⟨[], [g d], gv p, []⟩
  | .vlds _ d _ _ p => ⟨[], [g d], gv p, []⟩
  | .vldx _ d _ b p => ⟨[g b], [g d], gv p, []⟩
  | .vst _ d _ p => ⟨[g d], [], gv p, []⟩
  | .vsts _ d _ _ p => ⟨[g d], [], gv p, []⟩
  | .vstx _ d _ b p => ⟨[g d, g b], [], gv p, []⟩
  | .vstxo _ d _ b p => ⟨[g d, g b], [], gv p, []⟩
  | .vldbp _ d _ _ p => ⟨[], [g d], gv p, []⟩
  | .vstbp _ d _ _ p => ⟨[g d], [], gv p, []⟩
  | .vadd _ d a b p => ⟨[g a, g b], [g d], gv p, []⟩
  | .vaddVs _ d a _ p => ⟨[g a], [g d], gv p, []⟩
  | .vsub _ d a b p => ⟨[g a, g b], [g d], gv p, []⟩
  | .vsubVs _ d a _ p => ⟨[g a], [g d], gv p, []⟩
  | .vrsub _ d a b p => ⟨[g a, g b], [g d], gv p, []⟩
  | .vrsubVs _ d a _ p => ⟨[g a], [g d], gv p, []⟩
  | .vmul _ d a b p => ⟨[g a, g b], [g d], gv p, []⟩
  | .vmulVs _ d a _ p => ⟨[g a], [g d], gv p, []⟩
  | .vmulh _ d a b p => ⟨[g a, g b], [g d], gv p, []⟩
  | .vmulhVs _ d a _ p => ⟨[g a], [g d], gv p, []⟩
  | .vmulhn _ d a b p => ⟨[g a, g b], [g d], gv p, []⟩
  | .vmulhnVs _ d a _ p => ⟨[g a], [g d], gv p, []⟩
  | .vmin _ d a b p => ⟨[g a, g b], [g d], gv p, []⟩
  | .vminVs _ d a _ p => ⟨[g a], [g d], gv p, []⟩
  | .vmax _ d a b p => ⟨[g a, g b], [g d], gv p, []⟩
  | .vmaxVs _ d a _ p => ⟨[g a], [g d], gv p, []⟩
  | .vminn _ d a b p => ⟨[g a, g b], [g d], gv p, []⟩
  | .vminnVs _ d a _ p => ⟨[g a], [g d], gv p, []⟩
  | .vmaxn _ d a b p => ⟨[g a, g b], [g d], gv p, []⟩
  | .vmaxnVs _ d a _ p => ⟨[g a], [g d], gv p, []⟩
  | .vand _ d a b p => ⟨[g a, g b], [g d], gv p, []⟩
  | .vandVs _ d a _ p => ⟨[g a], [g d], gv p, []⟩
  | .vor _ d a b p => ⟨[g a, g b], [g d], gv p, []⟩
  | .vorVs _ d a _ p => ⟨[g a], [g d], gv p, []⟩
  | .vxor _ d a b p => ⟨[g a, g b], [g d], gv p, []⟩
  | .vxorVs _ d a _ p => ⟨[g a], [g d], gv p, []⟩
  | .vsll _ d a b p => ⟨[g a, g b], [g d], gv p, []⟩
  | .vsllVs _ d a _ p => ⟨[g a], [g d], gv p, []⟩
  | .vsrl _ d a b p => ⟨[g a, g b], [g d], gv p, []⟩
  | .vsrlVs _ d a _ p => ⟨[g a], [g d], gv p, []⟩
  | .vsra _ d a b p => ⟨[g a, g b], [g d], gv p, []⟩
  | .vsraVs _ d a _ p => ⟨[g a], [g d], gv p, []⟩
  | .vcmp _ d a b p _ => ⟨[g a, g b], [], gv p, [no d]⟩
  | .vcmpVs _ d a _ p _ => ⟨[g a], [], gv p, [no d]⟩
  | .vqadd _ d a b p => ⟨[g a, g b], [g d], gv p, []⟩
  | .vqaddVs _ d a _ p => ⟨[g a], [g d], gv p, []⟩
  | .vqsub _ d a b p => ⟨[g a, g b], [g d], gv p, []⟩
  | .vqsubVs _ d a _ p => ⟨[g a], [g d], gv p, []⟩
  | .vqmul _ d a b p => ⟨[g a, g b], [g d], gv p, []⟩
  | .vqmulVs _ d a _ p => ⟨[g a], [g d], gv p, []⟩
  | .vshrrnd _ d a b p => ⟨[g a, g b], [g d], gv p, []⟩
  | .vshrrndVs _ d a _ p => ⟨[g a], [g d], gv p, []⟩
  | .vsatn _ d a b p => ⟨[g a, g b], [g d], gv p, []⟩
  | .vsatnVs _ d a _ p => ⟨[g a], [g d], gv p, []⟩
  | .vhead _ d a p => ⟨[g a], [g d], gv p, []⟩
  | .vqneg _ d a p => ⟨[g a], [g d], gv p, []⟩
  | .vqabs _ d a p => ⟨[g a], [g d], gv p, []⟩
  | .vfadd _ d a b p => ⟨[g a, g b], [g d], gv p, []⟩
  | .vfaddVs _ d a _ p => ⟨[g a], [g d], gv p, []⟩
  | .vfsub _ d a b p => ⟨[g a, g b], [g d], gv p, []⟩
  | .vfsubVs _ d a _ p => ⟨[g a], [g d], gv p, []⟩
  | .vfmul _ d a b p => ⟨[g a, g b], [g d], gv p, []⟩
  | .vfmulVs _ d a _ p => ⟨[g a], [g d], gv p, []⟩
  | .vfdiv _ d a b p => ⟨[g a, g b], [g d], gv p, []⟩
  | .vfdivVs _ d a _ p => ⟨[g a], [g d], gv p, []⟩
  | .vfmin _ d a b p => ⟨[g a, g b], [g d], gv p, []⟩
  | .vfminVs _ d a _ p => ⟨[g a], [g d], gv p, []⟩
  | .vfmax _ d a b p => ⟨[g a, g b], [g d], gv p, []⟩
  | .vfmaxVs _ d a _ p => ⟨[g a], [g d], gv p, []⟩
  | .vfma _ d a b p => ⟨[g d, g a, g b], [g d], gv p, []⟩
  | .vfmaVs _ d a _ p => ⟨[g d, g a], [g d], gv p, []⟩
  | .vfms _ d a b p => ⟨[g d, g a, g b], [g d], gv p, []⟩
  | .vfmsVs _ d a _ p => ⟨[g d, g a], [g d], gv p, []⟩
  | .vfnma _ d a b p => ⟨[g d, g a, g b], [g d], gv p, []⟩
  | .vfnmaVs _ d a _ p => ⟨[g d, g a], [g d], gv p, []⟩
  | .vfclamp _ d a b p => ⟨[g d, g a, g b], [g d], gv p, []⟩
  | .vfclampVs _ d a _ p => ⟨[g d, g a], [g d], gv p, []⟩
  | .vfsqrt _ d a p => ⟨[g a], [g d], gv p, []⟩
  | .vfabs _ d a p => ⟨[g a], [g d], gv p, []⟩
  | .vfneg _ d a p => ⟨[g a], [g d], gv p, []⟩
  | .vcvt _ d a _ p => ⟨[g a], [g d], gv p, []⟩
  | .vwiden _ d a _ p => ⟨[g a], [g d], gv p, []⟩
  | .vnarrow _ d a _ p => ⟨[(a.toNat, 2 * n)], [g d], gv p, []⟩
  | .vabs _ d a p => ⟨[g a], [g d], gv p, []⟩
  | .vneg _ d a p => ⟨[g a], [g d], gv p, []⟩
  | .vclz _ d a p => ⟨[g a], [g d], gv p, []⟩
  | .vpopc _ d a p => ⟨[g a], [g d], gv p, []⟩
  | .vmov _ d a p => ⟨[g a], [g d], gv p, []⟩
  | .vmovs _ d _ p => ⟨[], [g d], gv p, []⟩
  | .vmovx _ _ a _ => ⟨[g a], [], [], []⟩
  | .vins _ d _ _ => ⟨[], [g d], [], []⟩
  | .vsel _ d a b p => ⟨[g a, g b], [g d], gv p, []⟩
  | .vcompr _ d a p => ⟨[g a], [g d], gv p, []⟩
  | .vexpnd _ d a p => ⟨[g a], [g d], gv p, []⟩
  | .vslideup _ d a _ p => ⟨[g a], [g d], gv p, []⟩
  | .vslidedn _ d a _ p => ⟨[g a], [g d], gv p, []⟩
  | .vrev _ d a p => ⟨[g a], [g d], gv p, []⟩
  | .vred _ d a s _ p => ⟨[g a] ++ (if s = 1#1 then [g d] else []), [g d], gv p, []⟩
  | .vfred _ d a s _ p => ⟨[g a] ++ (if s = 1#1 then [g d] else []), [g d], gv p, []⟩
  | .vcred _ d a s _ p => ⟨[g a] ++ (if s = 1#1 then [g d] else []), [g d], gv p, []⟩
  | .vcadd _ d a b p => ⟨[g a, g b], [g d], gv p, []⟩
  | .vcaddVs _ d a _ p => ⟨[g a], [g d], gv p, []⟩
  | .vcsub _ d a b p => ⟨[g a, g b], [g d], gv p, []⟩
  | .vcsubVs _ d a _ p => ⟨[g a], [g d], gv p, []⟩
  | .vcmul _ d a b p _ => ⟨[g a, g b], [g d], gv p, []⟩
  | .vcmulVs _ d a _ p _ => ⟨[g a], [g d], gv p, []⟩
  | .vcmac _ d a b p _ => ⟨[g d, g a, g b], [g d], gv p, []⟩
  | .vcmacVs _ d a _ p _ => ⟨[g d, g a], [g d], gv p, []⟩
  | .vcmag2 _ d a p => ⟨[g a], [g d], gv p, []⟩
  | .vcscl _ d a b p => ⟨[g a, g b], [g d], gv p, []⟩
  | .vcsclVs _ d a _ p => ⟨[g a], [g d], gv p, []⟩
  | .vcrot _ d a p _ => ⟨[g a], [g d], gv p, []⟩
  | .vcconj _ d a p => ⟨[g a], [g d], gv p, []⟩
  | .vbfly2 _ d a b p => ⟨[g a, g b], [g d], gv p, []⟩
  | .vbfly4 _ d a b p => ⟨[g a, g b], [g d], gv p, []⟩
  | .vbitrev _ d a p => ⟨[g a], [g d], gv p, []⟩
  | .vbperm _ d a b p => ⟨[g a, g b], [g d], gv p, []⟩
  | .vbgath _ d a _ p => ⟨[g a], [g d], gv p, []⟩
  | .vintlv _ d a _ p => ⟨[g a], [g d], gv p, []⟩
  | .vdintlv _ d a _ p => ⟨[g a], [g d], gv p, []⟩
  | .vrotz _ d a _ p => ⟨[g a], [g d], gv p, []⟩
  | .vgold _ d a _ p => ⟨[g a], [g d], gv p, []⟩
  | .vllrpk _ d a _ p => ⟨[(a.toNat, 2 * n)], [g d], gv p, []⟩
  | .vperm _ d a b p => ⟨[g a, g b], [g d], gv p, []⟩
  | .vpermb _ d a b => ⟨[g a, g b], [g d], [], []⟩
  | .vxchg _ d a => ⟨[g a], [g d], [], []⟩
  | .vzip _ d a b p => ⟨[g a, g b], [g d], gv p, []⟩
  | .vunzip _ d a _ p => ⟨[g a], [g d], gv p, []⟩
  | .vscget _ d a p => ⟨[g a], [g d], gv p, []⟩
  | .vscset _ d a b p => ⟨[g a, g b], [g d], gv p, []⟩
  | .vscnorm _ d a p => ⟨[g a], [g d], gv p, []⟩
  | .vgjstep _ d a p => ⟨[g d, g a], [g d, g a], gv p, []⟩
  | .vbsolve _ d a b p => ⟨[g d, g a, g b], [g d, g b], gv p, []⟩
  | .vnsstep _ d a b p => ⟨[g d, g a, g b], [g d, g b], gv p, []⟩
  | .vwstag _ d a _ p => ⟨[g a], [g d], gv p, []⟩
  | _ => ⟨[], [], [], []⟩

/-- Two register ranges share a register. -/
def rangeClash (a b : Nat × Nat) : Bool := decide (a.1 < b.1 + b.2 ∧ b.1 < a.1 + a.2)

/-- Some range of one list shares a register with some range of another. -/
def rangesClash (l m : List (Nat × Nat)) : Bool := l.any (fun a => m.any (rangeClash a))

/-- The members' uses under vtype. -/
def State.usesIn (s : State) (i : Instr) : Uses := usesOf s.vt.gm s.predNo i

/-- Two members write the same register or predicate (R146 rule 5). -/
def writesOverlap (s : State) (i j : Instr) : Bool :=
  let u := s.usesIn i
  let w := s.usesIn j
  rangesClash u.vw w.vw || u.pw.any w.pw.contains

/-- A member i reads what j writes (R146 rule 6). -/
def readsWrittenBy (s : State) (i j : Instr) : Bool :=
  let u := s.usesIn i
  let w := s.usesIn j
  rangesClash u.vr w.vw || u.pr.any w.pw.contains


/-! ### Part-way stops -/

/-- The instructions of R203 and R209, which a stop never parts: they move elements between positions. -/
def movesElements (i : Instr) : Bool :=
  match i with
  | .vcompr _ _ _ _ | .vexpnd _ _ _ _ | .vslideup _ _ _ _ _ | .vslidedn _ _ _ _ _ | .vrev _ _ _ _
  | .vbfly2 _ _ _ _ _ | .vbfly4 _ _ _ _ _ | .vbitrev _ _ _ _ | .vintlv _ _ _ _ _ | .vdintlv _ _ _ _ _
  | .vrotz _ _ _ _ _ | .vperm _ _ _ _ _ | .vpermb _ _ _ _ | .vxchg _ _ _ | .vzip _ _ _ _ _
  | .vunzip _ _ _ _ _ | .vgjstep _ _ _ _ | .vbsolve _ _ _ _ _ | .vnsstep _ _ _ _ _
  | .vwstag _ _ _ _ _ => true
  | _ => false

/-- Vector stores that enter the store buffer beat by beat (R171). -/
def storesBeats (i : Instr) : Bool :=
  match i with
  | .vst _ _ _ _ | .vsts _ _ _ _ _ | .vstx _ _ _ _ _ | .vstxo _ _ _ _ _ | .vstbp _ _ _ _ _ => true
  | _ => false

/-- Matrix products, which stop between rows (R233). -/
def isProduct (i : Instr) : Bool :=
  match i with
  | .mma _ _ _ | .mmas _ _ _ _ => true
  | _ => false

/-- A convoy of one that may stop part-way: majors 0x18 to 0x1C, products, and RCALLV (R398). -/
def oneStops (i : Instr) : Bool :=
  isProduct i ||
  (match i with
  | .vld _ _ _ _ | .vldff _ _ _ | .vlds _ _ _ _ _ | .vldx _ _ _ _ _ | .vst _ _ _ _ | .vsts _ _ _ _ _
  | .vstx _ _ _ _ _ | .vstxo _ _ _ _ _ | .vldbp _ _ _ _ _ | .vstbp _ _ _ _ _ | .rcallv _ _ _ _ => true
  | _ => false)

/-- A convoy that may stop part-way (R398). -/
def stopsPartWay (is : List Instr) : Bool :=
  match is with
  | [i] => oneStops i
  | _ => !is.any movesElements

/-! ### Trace pipes -/

/-- The pipe number of a vector or matrix instruction in a trace record, FX0 for FX (R436, R437). -/
def tracePipeNo (i : Instr) : Option Nat :=
  if isProduct i then some 5
  else
    match memberPipe i with
    | some .ld => some 0
    | some .st => some 1
    | some .fx => some 2
    | some .px => some 4
    | none =>
      match i with
      | .vldff _ _ _ => some 0
      | .mzero _ => some 5
      | _ => none


end Sys2Proof.Machine
end

