-- ==== Sys2Proof/Machine/Keys.lean ====
section
/-!
DEFINITION. The physical map (R7, R22, R23, R56, R472) and the key and counter-tree unit: metadata
(R24, R25), the counter tree (R26), encryption of data lines (R27), write-back (R28), MAC failures (R29).
-/

namespace Sys2Proof.Machine

open Sys2Proof

/-! ### The physical map -/

def scratchBase : Nat := 0x8000000000000
def hostBase : Nat := 2 ^ 52
def twinBase : Nat := 2 ^ 53
def scratchSize : Nat := 2 ^ 22

/-- The location of a scratchpad byte (R7). -/
def scratchLoc (tile off : Nat) : Nat := scratchBase + tile * 2 ^ 24 + off

/-- A location in a tile scratchpad (R7). -/
def isScratch (loc : Nat) : Bool :=
  decide (scratchBase ≤ loc ∧ loc < scratchBase + 2 ^ 28 ∧ loc % 2 ^ 24 < scratchSize)

def isHost (loc : Nat) : Bool := decide (hostBase ≤ loc ∧ loc < twinBase)
def isTwin (loc : Nat) : Bool := decide (twinBase ≤ loc)
def isDevice (loc : Nat) : Bool := decide (loc < scratchBase)

/-- Bytes of device memory that are decoded: the fitted LPDDR-6, or in sideshow service the 192 MiB
of L2 (R7, R22, R443). -/
def State.capacity (s : State) : Nat :=
  if s.hub.bootDone then 64 * s.hub.fit.channelBytes else 192 * 2 ^ 20

def State.decoded (s : State) (loc : Nat) : Bool :=
  if isDevice loc then decide (loc < s.capacity)
  else isScratch loc || (s.hub.bootDone && decide (hostBase ≤ loc) && (isTwin loc || s.hub.hostUp))

/-- Bytes of a partition's range (R23). -/
def State.partBytes (s : State) (p : Part) : Nat :=
  if s.hub.bootDone then p.table.channels.length * s.hub.fit.channelBytes else 192 * 2 ^ 20

/-- The partition whose range holds a device address. -/
def State.partOfPa (s : State) (pa : Nat) : Option (Nat × Part) :=
  s.parts.find? (fun e =>
    e.2.exists_ && decide (e.2.table.base ≤ pa ∧ pa < e.2.table.base + s.partBytes e.2))

/-- The partition of a tile. -/
def State.partOfTile (s : State) (t : Nat) : Nat :=
  match s.parts.find? (fun e => e.2.exists_ && e.2.table.tiles.contains t) with
  | some e => e.1
  | none => 31

/-- A partition's data frames: F of R24; sideshow's flat memory holds no metadata (R443). -/
def State.frameCount (s : State) (p : Part) : Nat :=
  s.partBytes p / (if s.hub.bootDone then 2376 * 1024 else 2 ^ 21)

/-- A data frame of some partition (R24). -/
def State.isDataFrame (s : State) (frame : Nat) : Bool :=
  match s.partOfPa (frame * 2 ^ 21) with
  | some (_, p) => decide ((frame * 2 ^ 21 - p.table.base) / 2 ^ 21 < s.frameCount p)
  | none => false

/-- Where a device line lies in LPDDR-6: channel, line address, bank and row. -/
structure Channel where
  channel : Nat
  w : Nat
  bank : Nat
  row : Nat
  deriving DecidableEq, Repr

/-- The place of a device address in its partition's channels (R22, R23). -/
def channelOf (t : PartTable) (pa : Nat) : Channel :=
  let l := (pa - t.base) / 128
  let n := t.channels.length
  let w := l / n
  { channel := t.channels.getD (l % n) 0, w := w, bank := (w ^^^ w / 16) % 16, row := w / 16 }

/-- The die of a channel (R472). -/
def dieOfChannel (c : Nat) : Nat := c / 32

/-- Slice and set of a device address (R56). -/
def sliceOf (t : PartTable) (pa : Nat) : Nat × Nat :=
  let l := (pa - t.base) / 128
  let m := t.slices.length
  (t.slices.getD (l % m) 0, l / m % 1024)

/-- The L2 slice that owns a device location's line, 96 when none does. -/
def State.sliceOfLoc (s : State) (loc : Nat) : Nat :=
  match s.partOfPa loc with
  | some (_, p) => (sliceOf p.table loc).1
  | none => 96

/-- The die of a location's home: slices by R472, tiles by R12; host and twin have none. -/
def State.dieOfLoc (s : State) (loc : Nat) : Option Nat :=
  if isDevice loc then some (s.sliceOfLoc loc / 48)
  else if isScratch loc then some (dieOfTile ((loc - scratchBase) / 2 ^ 24))
  else none

/-- A location is local to the current thread (R263). -/
def State.isLocal (s : State) (loc : Nat) : Bool :=
  s.dieOfLoc loc == some (dieOfTile s.curTile)

/-- The state of a frame (R31). -/
def State.frame (s : State) (f : Nat) : Frame := tget Frame.reset s.mem.frames f

/-! ### Metadata (R24 to R26) -/

/-- Where the counter lines of a partition start (R24). -/
def State.counterBase (s : State) (p : Part) : Nat := p.table.base + s.frameCount p * 2 ^ 21
/-- Where its MAC lines start (R24). -/
def State.macBase (s : State) (p : Part) : Nat := s.counterBase p + s.frameCount p * 2 ^ 16
/-- Where its tree nodes start (R24). -/
def State.treeBase (s : State) (p : Part) : Nat := s.macBase p + s.frameCount p * 2 ^ 18

/-- Number of the counter line of a device address, from the partition's base (R24). -/
def counterIndex (p : Part) (pa : Nat) : Nat := (pa - p.table.base) / 2 ^ 12
/-- Address of the counter line of a device address (R24). -/
def State.counterLine (s : State) (p : Part) (pa : Nat) : Nat := s.counterBase p + counterIndex p pa * 128
/-- Address of its MAC line (R24). -/
def State.macLine (s : State) (p : Part) (pa : Nat) : Nat :=
  s.macBase p + (pa - p.table.base) / 2 ^ 9 * 64

/-- A counter line (level 0) or tree node with its place: for a node, its number among all nodes of the
partition, the lower levels first (R24, R26; log entry 94). -/
structure TreeNode where
  level : Nat
  idx : Nat
  num : Nat
  deriving DecidableEq, Repr

/-- The counter line `idx` of `count` and its ancestors up to the top level, the first level of nodes
with at most 64 of them (R26). -/
def treePath (fuel level idx count off : Nat) : List TreeNode :=
  match fuel with
  | 0 => []
  | fuel + 1 =>
    { level := level, idx := idx, num := off + idx } ::
      (if level ≠ 0 ∧ count ≤ 64 then []
       else treePath fuel (level + 1) (idx / 8) (ceilDiv count 8) (if level = 0 then 0 else off + count))

/-- The counter line of a device address and its ancestors. -/
def State.pathOf (s : State) (p : Part) (pa : Nat) : List TreeNode :=
  treePath 14 0 (counterIndex p pa) (s.frameCount p * 512) 0

/-- Key of a counter line or node in the tables of the tree. -/
def treeKeyOf (part level idx : Nat) : Nat := part * 2 ^ 50 + level * 2 ^ 44 + idx
def TreeNode.key (part : Nat) (n : TreeNode) : Nat := treeKeyOf part n.level n.idx

/-- Device physical address of a counter line or node (R24). -/
def State.nodeAddr (s : State) (p : Part) (n : TreeNode) : Nat :=
  if n.level = 0 then s.counterBase p + n.idx * 128 else s.treeBase p + n.num * 64

def minorOf (c : Counters) (j : Nat) : Nat := c.minor.toNat / 2 ^ (7 * j) % 128
def setMinor (c : Counters) (j v : Nat) : Counters :=
  { c with minor := BitVec.ofNat 56 (c.minor.toNat - minorOf c j * 2 ^ (7 * j) + v * 2 ^ (7 * j)) }

/-- The counters of a 512-byte group (R25). -/
def Mem.counters (m : Mem) (pa : Nat) : Counters := tget Counters.reset m.ctr (pa / 512)

/-- Bits 959:0 of the counter line of 4 KiB of data (R25). -/
def Mem.counterBits (m : Mem) (pa : Nat) : Nat :=
  upTo 8 (fun g x =>
    let c := m.counters (pa / 4096 * 4096 + 512 * g)
    x + (c.major.toNat + c.minor.toNat * 2 ^ 64) * 2 ^ (120 * g)) 0

/-- Bits 447:0 of a tree node (R25): the versions of its children. -/
def Mem.nodeBits (m : Mem) (part level idx : Nat) : Nat :=
  upTo 8 (fun c x => x + (tget 0 m.tree (treeKeyOf part (level - 1) (8 * idx + c))).toNat * 2 ^ (56 * c)) 0

/-- The image of a counter line in memory (R25). -/
def Mem.counterImage (m : Mem) (part : Nat) (p : Part) (pa : Nat) : BitVec 1024 :=
  BitVec.ofNat 1024 (m.counterBits pa +
    (tget 0 m.nmacs (treeKeyOf part 0 (counterIndex p pa))).toNat * 2 ^ 960)
/-- The image of a tree node (R25). -/
def Mem.nodeImage (m : Mem) (part level idx : Nat) : BitVec 512 :=
  BitVec.ofNat 512 (m.nodeBits part level idx + (tget 0 m.nmacs (treeKeyOf part level idx)).toNat * 2 ^ 448)
/-- The image of the MAC line of a group (R25). -/
def Mem.macImage (m : Mem) (pa : Nat) : BitVec 512 :=
  BitVec.ofNat 512 (upTo 8 (fun j x => x + (tget 0 m.macs (pa / 512 * 8 + j)).toNat * 2 ^ (56 * j)) 0)

/-- The MAC of a counter line or node (R26): under the partition's tree key, over its contents, its
address and the version its parent, or the root, holds for it. -/
def State.nodeMac (s : State) (part : Nat) (p : Part) (pa : Nat) (n : TreeNode) : BitVec 56 :=
  let bits := if n.level = 0 then s.mem.counterBits pa else s.mem.nodeBits part n.level n.idx
  let len := if n.level = 0 then 960 else 448
  (Config.cmacSm4 (Config.treeKey part) (len + 108)
    (bits * 2 ^ 108 + s.nodeAddr p n * 2 ^ 56 + (tget 0 s.mem.tree (n.key part)).toNat)).setWidth 56

/-- The version of a counter line and of each of its ancestors increments, and their MACs follow (R25,
R26, R28). -/
def State.bumpTree (s : State) (part : Nat) (p : Part) (pa : Nat) : State :=
  let path := s.pathOf p pa
  let s1 := s.modMem (fun m => { m with
    tree := path.foldl (fun t n => tset 0 t (n.key part) (tget 0 t (n.key part) + 1)) m.tree })
  s1.modMem (fun m => { m with
    nmacs := path.foldl (fun t n => tinsert t (n.key part) (s1.nodeMac part p pa n)) m.nmacs })

/-! ### The metadata caches (R26) -/

/-- Blocks of 64 bytes in the 1 MiB metadata cache of a die. -/
def metaCap : Nat := 16384

/-- The key unit of a device line: the one of its channel's die (log entry 94). -/
def keyDie (p : Part) (pa : Nat) : Nat := dieOfChannel (channelOf p.table pa).channel

/-- Put a block into a metadata cache, dropping its die's oldest when it is full. -/
def metaPut (l : List (Nat × Nat)) (die addr : Nat) : List (Nat × Nat) :=
  if l.contains (die, addr / 64) then l
  else cachePut (fun a b => a.1 == b.1) metaCap l (die, addr / 64)

/-- The nodes of a path up to the first cached one: those that a fetch brings in and verifies (R26). -/
def State.uncached (s : State) (p : Part) (pa : Nat) : List TreeNode :=
  (s.pathOf p pa).takeWhile (fun n => !s.mem.metaCache.contains (keyDie p pa, s.nodeAddr p n / 64))

/-- The metadata of a line is fetched into the cache of its key unit (R26). -/
def State.metaFetch (s : State) (p : Part) (pa : Nat) : State :=
  let die := keyDie p pa
  let nodes := (s.uncached p pa).flatMap (fun n =>
    if n.level = 0 then [s.nodeAddr p n, s.nodeAddr p n + 64] else [s.nodeAddr p n])
  s.modMem (fun m => { m with
    metaCache := (nodes ++ [s.macLine p pa]).foldl (fun l a => metaPut l die a) m.metaCache })

/-! ### Data lines (R27, R28) -/

/-- The counter block of 16-byte block j of a line (R27). -/
def counterBlock (pa : Nat) (major : BitVec 64) (minor j : Nat) : BitVec 128 :=
  BitVec.ofNat 128 (pa / 64 % 2 ^ 46 * 2 ^ 82 + major.toNat * 2 ^ 18 + minor * 2 ^ 11 + j * 2 ^ 9)

/-- What encryption combines with the 64 bytes of a line (R27). -/
def keystream (key : BitVec 128) (pa : Nat) (major : BitVec 64) (minor : Nat) : BitVec 512 :=
  BitVec.ofNat 512 (upTo 4 (fun j x =>
    x + (Config.sm4Encrypt key (counterBlock pa major minor j)).toNat * 2 ^ (128 * j)) 0)

/-- The MAC of a line's ciphertext (R27). -/
def lineMac (key : BitVec 128) (cipher : BitVec 512) (pa : Nat) (major : BitVec 64) (minor : Nat) :
    BitVec 56 :=
  (Config.cmacSm4 key 629 (cipher.toNat * 2 ^ 117 + pa / 64 % 2 ^ 46 * 2 ^ 71 + major.toNat * 2 ^ 7 +
    minor)).setWidth 56

/-- The data key and the MAC key that a slot holds now (R27, R34). -/
def Mem.dataKey (m : Mem) (kid : Nat) : BitVec 128 := Config.dataKey kid (tget 0 m.keyGen kid)
def Mem.macKey (m : Mem) (kid : Nat) : BitVec 128 := Config.macKey kid (tget 0 m.keyGen kid)

/-- A 64-byte line as memory holds it, decrypted under a slot; a line in zero state reads as zeros
(R27, R28). -/
def Mem.plainLine (m : Mem) (kid pa : Nat) : BitVec 512 :=
  let c := m.counters pa
  let minor := minorOf c (pa / 64 % 8)
  if minor = 0 then 0
  else tget 0 m.cipher (pa / 64) ^^^ keystream (m.dataKey kid) pa c.major minor

/-- The MAC check of a 64-byte line under a slot passes, or the line is in zero state (R28, R29). -/
def Mem.macGood (m : Mem) (kid pa : Nat) : Bool :=
  let c := m.counters pa
  let minor := minorOf c (pa / 64 % 8)
  decide (minor = 0) || decide (tget 0 m.macs (pa / 64) =
    lineMac (m.macKey kid) (tget 0 m.cipher (pa / 64)) pa c.major minor)

/-- Encrypt a 64-byte line under given counters and write it and its MAC (R27). -/
def Mem.encryptLine (m : Mem) (kid pa : Nat) (c : Counters) (plain : BitVec 512) : Mem :=
  let minor := minorOf c (pa / 64 % 8)
  let x := plain ^^^ keystream (m.dataKey kid) pa c.major minor
  { m with
    cipher := tinsert m.cipher (pa / 64) x
    macs := tinsert m.macs (pa / 64) (lineMac (m.macKey kid) x pa c.major minor) }

/-- Counters after a write-back of line j of a group (R28); none when MAJOR cannot increment. -/
def writebackCounters (c : Counters) (j : Nat) : Option Counters :=
  if minorOf c j < 127 then some (setMinor c j (minorOf c j + 1))
  else if c.major = BitVec.ofNat 64 (2 ^ 64 - 1) then none
  else
    let c' := { c with major := c.major + 1 }
    some (upTo 8 (fun k c => if k = j ∨ minorOf c k ≠ 0 then setMinor c k 1 else c) c')

/-- A function of the tables uses a key slot; one that the tables do not name has no partition and no key. -/
def Vf.uses (f : Vf) (kid : Nat) : Bool := f.part != 31#5 && f.kid.toNat == kid

/-- The functions that own a key slot (R29). A sharing window's slot has none, and none fails for it (log
entry 95). -/
def State.owners (s : State) (kid : Nat) : List Nat :=
  (s.vfs.filter (fun e => e.2.uses kid)).map (·.1)

/-- The function of a key has failed: accesses under it are refused (R29). -/
def State.kidFailed (s : State) (kid : Nat) : Bool :=
  s.hub.bootDone && s.vfs.any (fun e => e.2.uses kid && e.2.failed)

/-- A MAC failure under a slot (R29): counted, and the functions that own the slot fail. -/
def State.macFailure (s : State) (vfs : List Nat) : State :=
  (vfs.foldl State.failFunction s).modHub (fun h => { h with macCount := h.macCount + 1 })

/-- The published byte of a location: the coherent view of the L2, memory and the other homes. -/
def State.homeByte (s : State) (loc : Nat) : Byte := tget 0 s.mem.cells loc

/-- Read a run of bytes at a home. -/
def State.peek (s : State) (loc n : Nat) : List Byte := (List.range n).map (fun k => s.homeByte (loc + k))

/-- A word at a home, as a number. -/
def State.peekNat (s : State) (loc n : Nat) : Nat := leNat (s.peek loc n)

/-- Write back the two 64-byte halves of an L2 line (R27, R28, R56): each MINOR increments; when one
passes 127, the other lines of the group that are not in zero state are read and encrypted again under
the new MAJOR. Where MAJOR cannot increment neither half is written (log entry 138). -/
def State.writeback (s : State) (line kid : Nat) : State :=
  let pa := line * 128
  match s.partOfPa pa with
  | none => s
  | some (n, p) =>
    let c0 := s.mem.counters pa
    let j := pa / 64 % 8
    match (writebackCounters c0 j).bind (fun c => writebackCounters c (j + 1)) with
    | none => s.macFailure (s.owners kid)
    | some c =>
      let at' := fun (k : Nat) => pa / 512 * 512 + 64 * k
      let mine := fun (k : Nat) => k == j || k == j + 1
      let again := (List.range 8).filter (fun k =>
        mine k || (decide (c.major ≠ c0.major) && decide (minorOf c0 k ≠ 0)))
      let plain := fun (k : Nat) =>
        if mine k then BitVec.ofNat 512 (s.peekNat (at' k) 64) else s.mem.plainLine kid (at' k)
      let m1 := again.foldl (fun m k => m.encryptLine kid (at' k) c (plain k)) s.mem
      ((s.modMem (fun _ => { m1 with ctr := tset Counters.reset m1.ctr (pa / 512) c })).bumpTree n p
        pa).metaFetch p pa

end Sys2Proof.Machine
end

