-- ==== Sys2Proof/Machine/Mem.lean ====
section
/-!
DEFINITION. Memory at its homes: L2 lines (R30, R56, R57), poison (R75), sharing windows (R276), range locks
(R93, R94).
-/

namespace Sys2Proof.Machine

open Sys2Proof

/-! ### L2 lines -/

/-- How a request allocates on a miss (R57). -/
inductive Alloc where
  /-- At an age. -/
  | age (a : Nat)
  /-- The line is read or written past the L2. -/
  | none
  deriving DecidableEq, Repr

/-- Age every line of a set until one has age 3. -/
def ageSet (ws : List L2Way) : List L2Way :=
  let m := ws.foldl (fun m w => max m w.age) 0
  ws.map (fun w => { w with age := w.age + (3 - m) })

/-- The way a fill of a set with an invalid way takes: the lowest-numbered (log entry 96). -/
def freeWay (ws : List L2Way) : Nat :=
  (firstBelow 16 (fun n => !ws.any (fun w => w.way == n))).getD 0

/-- The valid ways of a set, in order of their numbers, with one more. -/
def putWay (ws : List L2Way) (w : L2Way) : List L2Way := insertBy (fun a b => decide (a.way ≤ b.way)) w ws

/-- The words of a line are poisoned (R75). -/
def State.poisonLine (s : State) (line : Nat) : State :=
  s.modMem (fun m => { m with
    poison := ((List.range 16).map (fun k => line * 16 + k)).filter (fun w => !m.poison.contains w) ++
      m.poison })

/-- An access goes to memory for a line that the L2 has dropped without write-back (R30): the bytes are
those of memory, or the MAC check fails under the access's key. -/
def State.refetch (s : State) (line kid : Nat) : State :=
  let pa := line * 128
  if s.mem.macGood kid pa && s.mem.macGood kid (pa + 64) then
    let bs := bytesOf (s.mem.plainLine kid pa) 0 64 ++ bytesOf (s.mem.plainLine kid (pa + 64)) 0 64
    s.modMem (fun m => { m with
      cells := ((List.range 128).zip bs).foldl (fun t x => tset 0 t (pa + x.1) x.2) m.cells
      pending := m.pending.filter (fun c => decide (c.1 / 128 ≠ line)) })
  else (s.macFailure (s.owners kid)).poisonLine line

/-- The set of a device line in the tables of the L2, with the partition (R56). -/
def State.l2Set (s : State) (loc : Nat) : Option (Part × Nat) :=
  if s.hub.bootDone && isDevice loc then
    (s.partOfPa loc).map (fun e =>
      let sl := sliceOf e.2.table loc
      (e.2, sl.1 * 1024 + sl.2))
  else none

/-- An access whose key identifier differs from a present line's (R30): the line goes without write-back
and the access goes to memory. -/
def State.claim (s : State) (loc kid : Nat) : State :=
  match s.l2Set loc with
  | none => s
  | some (_, key) =>
    let line := loc / 128
    let ways := tget [] s.mem.l2 key
    if ways.any (fun w => w.line == line && w.kid != kid) then
      (s.modMem (fun m => { m with
        l2 := tset [] m.l2 key (ways.filter (fun w => w.line != line)) })).refetch line kid
    else s

/-- The lines of a run of locations. -/
def runLines (loc n : Nat) : List Nat :=
  if n = 0 then [] else (List.range ((loc + n - 1) / 128 + 1 - loc / 128)).map (fun k => loc / 128 + k)

/-- The same for every line of a run of n bytes. -/
def State.claimRun (s : State) (loc n kid : Nat) : State :=
  (runLines loc n).foldl (fun t l => t.claim (l * 128) kid) s

/-- A fill of a line (R57): the lowest-numbered invalid way, or the lowest-numbered way of age 3 after a
write-back of its line. -/
def State.l2Fill (s : State) (key : Nat) (new : L2Way) : State :=
  let ways := tget [] s.mem.l2 key
  if ways.length < 16 then
    s.modMem (fun m => { m with l2 := tset [] m.l2 key (putWay ways { new with way := freeWay ways }) })
  else
    let aged := ageSet ways
    match aged.find? (fun w => w.age == 3) with
    | none => s
    | some v =>
      (if v.dirty then s.writeback v.line v.kid else s).modMem (fun m => { m with
        l2 := tset [] m.l2 key (aged.map (fun w => if w.way = v.way then { new with way := v.way } else w)) })

/-- An access at the owning slice: a hit makes the line's age 0; a miss fetches the line's metadata and
allocates as asked (R26, R30, R56, R57). -/
def State.l2Access (s : State) (loc kid : Nat) (al : Alloc) (write : Bool) : State :=
  match s.l2Set loc with
  | none => s
  | some (p, key) =>
    let line := loc / 128
    let s1 := s.claim loc kid
    let ways := tget [] s1.mem.l2 key
    if ways.any (fun w => w.line == line) then
      s1.modMem (fun m => { m with l2 := tset [] m.l2 key (ways.map (fun w =>
        if w.line == line then { w with age := 0, dirty := w.dirty || write } else w)) })
    else
      let s2 := s1.metaFetch p loc
      match al with
      | .none => if write then s2.writeback line kid else s2
      | .age a => s2.l2Fill key { way := 0, line := line, kid := kid, dirty := write, age := a }

/-- Drop L2 lines without write-back (R32). -/
def dropLine (l2 : Table (List L2Way)) (f : L2Way → Bool) : Table (List L2Way) :=
  (l2.map (fun e => (e.1, e.2.filter (fun w => !f w)))).filter (fun e => decide (e.2 ≠ []))

/-! ### Bytes at their homes -/

/-- A physical place that a translation gives: location, key identifier, and whether the function
owns the sharing window it lies in (R276). -/
structure Phys where
  loc : Nat
  kid : Nat
  owner : Bool
  deriving DecidableEq, Repr

/-- A key identifier of a sharing window: one that no function's own key has (R35). -/
def State.windowKid (s : State) (kid : Nat) : Bool :=
  s.hub.bootDone && !(s.vfs.any (fun e => e.2.uses kid))

/-- A location of a sharing window: device memory assigned under a window's key (R35). -/
def State.inSharing (s : State) (loc kid : Nat) : Bool :=
  isDevice loc && s.windowKid kid && (s.frame (loc / 2 ^ 21)).st == .assigned

/-- The byte at a home that the window's owner reads: the pending copy when there is one (R276). -/
def State.homeByteFor (s : State) (owner : Bool) (loc : Nat) : Byte :=
  if owner then
    match s.mem.pending.find? (fun c => c.1 == loc) with
    | some c => c.2
    | none => s.homeByte loc
  else s.homeByte loc

/-- The bytes of a place at its home, as its function sees them. -/
def State.homeBytes (s : State) (p : Phys) (n : Nat) : List Byte :=
  (List.range n).map (fun k => s.homeByteFor p.owner (p.loc + k))

/-- The VCs whose data caches hold a block of a location's line: what the L2 line records of it (R59). -/
def State.dcacheHolders (s : State) (loc : Nat) : List Nat :=
  (s.vcs.filter (fun e => e.2.dcache.any (fun l => l / 2 == loc / 128))).map (·.1)

/-- Invalidate the data-cache copies of a line before a write of it is visible (R59); the VC of a scalar
store keeps the copy that the store updates. -/
def State.dropDcache (s : State) (keep : Option Nat) (loc : Nat) : State :=
  ((s.dcacheHolders loc).filter (fun v => some v != keep)).foldl (fun s v =>
    s.modVc v (fun c => { c with dcache := c.dcache.filter (fun l => decide (l / 2 ≠ loc / 128)) })) s

/-- Write one byte at its home (R264). A store by the owner of a sharing window is pending until WINPUB
(R276). -/
def State.pokeByte (s : State) (loc : Nat) (pend : Bool) (b : Byte) : State :=
  if pend then s.modMem (fun m => { m with pending := tinsert m.pending loc b })
  else s.modMem (fun m => { m with cells := tset 0 m.cells loc b })

/-- Write bytes at their homes under a key; a poisoned word that is wholly written is clean again (log
entry 97). -/
def State.pokeBytes (s : State) (kid : Nat) (keep : Option Nat) (ws : List (Nat × Byte)) : State :=
  let s1 := ws.foldl (fun s w =>
    (s.pokeByte w.1 (s.inSharing w.1 kid) w.2).dropDcache keep w.1) s
  if s.mem.poison.isEmpty then s1
  else
    s1.modMem (fun m => { m with
      poison := m.poison.filter (fun w =>
        !((List.range 8).all (fun k => ws.any (fun x => x.1 == w * 8 + k)))) })

/-- Bytes loc, loc + 1, … as a list of writes. -/
def writesOf (loc : Nat) (bs : List Byte) : List (Nat × Byte) :=
  (List.range bs.length).zip bs |>.map (fun p => (loc + p.1, p.2))

/-- Write a run of bytes at a home. -/
def State.poke (s : State) (loc kid : Nat) (bs : List Byte) : State :=
  s.pokeBytes kid none (writesOf loc bs)

/-- Count an access to a host-homed unit (R52). -/
def State.countHost (s : State) (loc : Nat) : State :=
  if isHost loc then
    let k := (loc - hostBase) / 2 ^ 18
    s.modMem (fun m => { m with
      access := tset 0 m.access k (min 0xFFFF (tget 0 m.access k + 1))
      recent := if m.recent.contains k then m.recent else k :: m.recent })
  else s

/-- The lines of a list of writes. -/
def linesOf (ws : List (Nat × Byte)) : List Nat := (ws.map (fun w => w.1 / 128)).eraseDups

/-- Touch lines at their slices, and count them where they are host-homed (R52, R57). -/
def State.touch (s : State) (ls : List Nat) (kid : Nat) (al : Nat → Alloc) (write : Bool) : State :=
  ls.foldl (fun s l => (s.l2Access (l * 128) kid (al l) write).countHost (l * 128)) s

/-- Writes performed at their homes under a key (R264): lines under another key go first (R30), the
bytes are written, and the lines are touched at their slices. -/
def State.storeHome (s : State) (kid : Nat) (keep : Option Nat) (al : Nat → Alloc)
    (ws : List (Nat × Byte)) : State :=
  let ls := linesOf ws
  ((ls.foldl (fun s l => s.claim (l * 128) kid) s).pokeBytes kid keep ws).touch ls kid al true

/-- A word of the location is poisoned (R75). -/
def State.poisoned (s : State) (loc n : Nat) : Bool :=
  s.mem.poison.any (fun w => decide (w * 8 < loc + n ∧ loc < w * 8 + 8))

/-! ### Range locks -/

/-- The own-tile and global scratchpad windows (R38). -/
def ownWindow : Nat := 0x07F0000000000000
def globalWindow : Nat := 0x07F1000000000000
def windowEnd : Nat := 0x0800000000000000

/-- The space an address lies in, and its position there, before translation (R93, R94). -/
def spaceOf (vf : BitVec 9) (asid : BitVec 12) (tile : Option Nat) (va : Nat) : Space × Nat :=
  if ownWindow ≤ va ∧ va < ownWindow + scratchSize then
    match tile with
    | some t => (.scratch t, va - ownWindow)
    | none => (.mem vf asid, va)
  else if globalWindow ≤ va ∧ va < windowEnd then
    (.scratch ((va - globalWindow) / 2 ^ 24), va % 2 ^ 24)
  else (.mem vf asid, va)

/-- A part of a range that lies in one space: its bounds there, and the address of its first byte. -/
structure Span where
  space : Space
  lo : Nat
  hi : Nat
  va : Nat
  deriving DecidableEq, Repr

/-- The parts of a range of addresses in the spaces that it runs through (R93, R94). -/
def spacesOf (vf : BitVec 9) (asid : BitVec 12) (tile : Nat) (va n : Nat) : List Span :=
  let hi := va + n - 1
  let all : Span := { space := .mem vf asid, lo := va, hi := hi, va := va }
  if hi < ownWindow ∨ windowEnd ≤ va then [all]
  else
    let wins := (ownWindow, tile) :: (List.range 16).map (fun t => (globalWindow + t * 2 ^ 24, t))
    all :: wins.filterMap (fun w =>
      if va < w.1 + scratchSize ∧ w.1 ≤ hi then
        some { space := .scratch w.2, lo := max va w.1 - w.1, hi := min hi (w.1 + scratchSize - 1) - w.1,
               va := max va w.1 }
      else none)

/-- A lock meets a byte range as a load or as a store (R94). -/
def Lock.meets (l : Lock) (self : Nat) (sp : Space) (lo hi : Nat) (store : Bool) : Bool :=
  decide (l.space = sp ∧ l.lo ≤ hi ∧ lo ≤ l.hi) && (store || l.write) &&
    decide (l.window ≠ some self)

/-- The first lock a thread access meets, in its tile's table and in the table of the tile that owns
the scratchpad (R94). -/
def State.lockHit (s : State) (sp : Space) (lo hi : Nat) (store : Bool) : Option Lock :=
  match (s.tile s.curTile).locks.find? (fun l => l.meets s.cur sp lo hi store) with
  | some l => some l
  | none =>
    match sp with
    | .scratch t => (s.tile t).locks.find? (fun l => l.meets s.cur sp lo hi store)
    | _ => none

/-- The RLOCK trap of an address and the node that holds the lock (R94, R403). -/
def rlockTrap (va : W64) (node : BitVec 16) : TrapInfo :=
  { plainTrap Cause.rlock va with node := node }

/-- The lock an access of the current thread meets, by address and size. -/
def State.lockHitVa (s : State) (va : W64) (n : Nat) (store : Bool) : Option Lock :=
  (spacesOf s.th.id.vf s.th.tr.asid s.curTile va.toNat n).findSome? (fun p =>
    s.lockHit p.space p.lo p.hi store)

/-- Check R94 for one address. -/
def checkLock (va : W64) (n : Nat) (store : Bool) : M Unit := do
  match (← get).lockHitVa va n store with
  | some l => throw (.trap (rlockTrap va (if l.window.isSome then 0xFFFF#16 else l.node)))
  | none => pure ()

end Sys2Proof.Machine
end

