-- ==== Sys2Proof/Machine/Walk.lean ====
section
/-!
DEFINITION. Address translation as it stands in memory: scratchpad windows (R38), the stage-1 walk (R40 to R42),
stage 2 (R43), permissions (R47), default contexts (R473).
-/

namespace Sys2Proof.Machine

open Sys2Proof

/-- Whose translation it is: function, ASID and root, whether UM applies, the tile of the own-tile
window, and the partition. -/
structure Ctx where
  vf : BitVec 9
  asid : BitVec 12
  root : BitVec 25
  user : Bool
  tile : Option Nat
  part : Nat
  deriving DecidableEq, Repr

/-- The context of a thread (R39). -/
def State.ctxOf (s : State) (slot : Nat) : Ctx :=
  let t := s.thread slot
  { vf := t.id.vf, asid := t.tr.asid, root := t.tr.root, user := t.sc.mode == .U,
    tile := some (tileOf slot), part := t.id.part.toNat }

/-- The context of the current thread. -/
def State.ctx (s : State) : Ctx :=
  { vf := s.th.id.vf, asid := s.th.tr.asid, root := s.th.tr.root, user := s.th.sc.mode == .U,
    tile := some s.curTile, part := s.curPart }

/-- A function's default context, at L-mode privilege and with no own tile (R473). -/
def State.defaultCtx (s : State) (vf : Nat) : Ctx :=
  let f := s.vf vf
  { vf := BitVec.ofNat 9 vf, asid := f.asid, root := f.root, user := false, tile := none,
    part := f.part.toNat }

/-- Why an access does not translate. -/
inductive XFault where
  /-- V = 0 or a bad entry: stage 2?, level minus 1, BAD, the GPA of a stage-2 lookup (R50). -/
  | page (stage2 : Bool) (level : Nat) (bad : Bool) (gpa : Nat)
  /-- A permission fault (R47). -/
  | perm
  /-- The walker read a poisoned word (R75). -/
  | mac
  /-- The walker's update of A or D waits for a line: a window lock, a migration or a host copy holds it
  (R42, R52, R247, R278). -/
  | held (loc : Nat)
  deriving DecidableEq, Repr

/-- A stage-1 entry that a walk read (R42): its GPA, place, value, whether it is a leaf, and the stage-2
entry its read passed. -/
structure TableRead where
  gpa : Nat
  phys : Phys
  val : BitVec 64
  leaf : Bool
  st2 : BitVec 64
  /-- The walker cache held the entry: nothing was read. -/
  cached : Bool
  /-- The read is one under the key of a failed function (R29). -/
  refused : Bool
  /-- The read meets a poisoned word (R75). -/
  poison : Bool
  deriving DecidableEq, Repr

/-- What a translation gives beside the place: the leaf entry's place and the bits its A and D updates
set, the entry a TLB caches, and the table reads of its walk. -/
structure Xlat where
  phys : Phys
  pte : Option (Phys × Nat)
  entry : Option TlbEntry
  reads : List TableRead
  deriving DecidableEq, Repr

/-- Bits 63:60 all equal bit 59 (R37). -/
def canonical (va : W64) : Bool := decide (va.toNat < 2 ^ 59 ∨ 2 ^ 64 - 2 ^ 59 ≤ va.toNat)

/-- A function's stage-2 entry for a guest frame (R43). -/
def State.st2Entry (s : State) (vf gfn : Nat) : BitVec 64 := tget 0 s.mem.st2 (vf * 2 ^ 19 + gfn)

def st2Home (e : BitVec 64) : Bool := e.getLsbD 4
def st2Kid (e : BitVec 64) : Nat := e.toNat / 32 % 512
def st2Frame (e : BitVec 64) : Nat := e.toNat / 2 ^ 21 % 2 ^ 31

/-- The location a stage-2 entry gives a GPA: device memory, the twin window when the host address
lies in the enabled aperture, or host memory (R43, R418). -/
def State.st2Loc (s : State) (e : BitVec 64) (gpa : Nat) : Nat :=
  let a := st2Frame e * 2 ^ 21 + gpa % 2 ^ 21
  if st2Home e then
    if s.hub.twEn ∧ a / 2 ^ 40 = s.hub.twAp.toNat then twinBase + a % 2 ^ 40 else hostBase + a
  else a

/-- Whether an entry permits an access (R43, R47): bits R, W, XP from bit `lo` up. -/
def permits (x lo : Nat) (acc : Access) : Bool :=
  match acc with
  | .load => x.testBit lo
  | .store => x.testBit (lo + 1)
  | .fetch => x.testBit (lo + 2)

/-- The place that a stage-2 entry gives a GPA: a place of host memory has no key (R27, R43), and the
function that may write a sharing window owns it (R35). -/
def State.st2Phys (s : State) (e : BitVec 64) (gpa : Nat) : Phys :=
  { loc := s.st2Loc e gpa, kid := if st2Home e then 0 else st2Kid e,
    owner := s.windowKid (st2Kid e) && !st2Home e && e.getLsbD 2 }

/-- An access under the key of a failed function is refused (R29): a thread's access takes PERM (log
entry 98). -/
def State.keyRefused (s : State) (e : BitVec 64) : Bool :=
  !st2Home e && s.vfs.any (fun f => f.2.uses (st2Kid e) && f.2.failed)

/-- The same for an access at a place: a read of a word that a failed check stopped takes the failure itself,
MACFAIL or ENGERR (R29). -/
def State.barred (s : State) (e : BitVec 64) (p : Phys) (acc : Access) : Bool :=
  s.keyRefused e && (decide (acc = .store) || !s.poisoned p.loc 1)

/-- A place that nothing decodes, or that the twin link cannot reach while it is down (R7, R419). -/
def State.unreachable (s : State) (loc : Nat) (acc : Access) : Bool :=
  !s.decoded loc || (isTwin loc && !s.hub.twUp && decide (acc ≠ .store))

/-- What a walk reads before memory and the stage-2 arrays: entries of a walker cache and of a hub's
stage-2 cache (R45); both empty for a walk that sees only what stands there now. -/
structure Caches where
  walk : List WalkEntry
  st2 : List (Nat × BitVec 64)
  deriving DecidableEq, Repr

def Caches.none : Caches := { walk := [], st2 := [] }

/-- The caches of a tile and its die (R45). -/
def State.cachesOf (s : State) (tile : Nat) : Caches :=
  { walk := (s.mem.walkCache.filter (fun e => e.1 == tile)).map (·.2)
    st2 := (s.mem.st2Cache.filter (fun e => e.1 == dieOfTile tile)).map (·.2) }

/-- A function's stage-2 entry, as a cache holds it or as the array does (R45). -/
def State.st2Via (s : State) (k : Caches) (vf gfn : Nat) : BitVec 64 :=
  match k.st2.find? (fun e => e.1 == vf * 2 ^ 19 + gfn) with
  | some e => e.2
  | none => s.st2Entry vf gfn

/-- The twin refuses a read of its memory at a GPA, of its own choice (R419). -/
def State.twinBarsRead (s : State) (loc gpa : Nat) : Bool :=
  isTwin loc && Config.twinRefusesRead s.free gpa

/-- Read a stage-1 entry at a GPA, through stage 2 (R42), or from the walker cache, which holds non-leaf
entries (R45). The owner of a sharing window reads its pending copy (R276). What a read under a failed
function's key, or of a poisoned word, does to the access is told of the whole walk. -/
def State.readEntry (s : State) (k : Caches) (vf gpa level : Nat) : Except XFault TableRead :=
  let e := s.st2Via k vf (gpa / 2 ^ 21)
  let p := s.st2Phys e gpa
  match k.walk.find? (fun w => w.vf == vf && w.gpa == gpa) with
  | some w =>
    .ok { gpa := gpa, phys := p, val := w.val, leaf := false, st2 := e, cached := true, refused := false,
          poison := false }
  | none =>
    let t := s.claim p.loc p.kid
    if !e.getLsbD 0 then .error (.page true level false gpa)
    else if !e.getLsbD 1 || s.unreachable p.loc .load || s.twinBarsRead p.loc gpa then .error .perm
    else
      let x := leNat (t.homeBytes p 8)
      .ok { gpa := gpa, phys := p, val := BitVec.ofNat 64 x, leaf := x.testBit 1, st2 := e, cached := false,
            refused := s.keyRefused e, poison := t.poisoned p.loc 8 }

/-- The rules that make a stage-1 entry bad (R41): a reserved bit, a LEAF its level does not allow,
an address that is not aligned to what it names, or a leaf with W and not R. -/
def badEntry (x level : Nat) : Bool :=
  let leaf := x.testBit 1
  let addr := bitsAt 31 12 x * 2 ^ 9
  let alignment := if leaf then (if level = 2 then 36 else if level = 3 then 24 else 18)
                   else if level = 3 then 9 else 15
  decide (bitsAt 3 9 x ≠ 0 ∨ bitsAt 9 43 x ≠ 0) || (leaf && decide (level = 1)) ||
    (!leaf && decide (level = 4)) || decide (addr % 2 ^ alignment ≠ 0) ||
    (leaf && x.testBit 3 && !x.testBit 2)

/-- The number of offset bits of a leaf at a level (R40). -/
def leafBits (level : Nat) : Nat := if level = 2 then 36 else if level = 3 then 24 else 18

/-- The end of a translation at a leaf (R40 to R43, R47): permissions of stage 1, stage 2 for the final
GPA, its permissions, then the A and D bits the walker sets. -/
def State.atLeaf (s : State) (k : Caches) (c : Ctx) (acc : Access) (va level : Nat) (r : TableRead) :
    Except XFault Xlat :=
  let x := r.val.toNat
  let nb := leafBits level
  let page := bitsAt 31 12 x * 2 ^ 9
  let gpa := page + va % 2 ^ nb
  let e := s.st2Via k c.vf.toNat (gpa / 2 ^ 21)
  let p := s.st2Phys e gpa
  if !permits x 2 acc || (c.user && !x.testBit 5) then .error .perm
  else if !e.getLsbD 0 then .error (.page true (level - 1) false gpa)
  else if !permits e.toNat 1 acc || s.barred e p acc || s.unreachable p.loc acc then .error .perm
  else
    let needD := decide (acc = .store) && !x.testBit 8
    let bits := (if x.testBit 7 then 0 else 2 ^ 7) + (if needD then 2 ^ 8 else 0)
    if bits ≠ 0 ∧ ¬ r.st2.getLsbD 2 then .error .perm
    else
      .ok
        { phys := p
          pte := if bits = 0 then none else some (r.phys, bits)
          entry := some
            { vf := c.vf, asid := c.asid, global := x.testBit 6,
              page := va / 2 ^ nb * 2 ^ nb, logSize := nb, gpa := page, gfn := gpa / 2 ^ 21,
              st2 := e, perm := BitVec.ofNat 3 (bitsAt 3 2 x &&& bitsAt 3 1 e.toNat),
              um := x.testBit 5, dirty := x.testBit 8 || decide (acc = .store) }
          reads := [] }

/-- What came of a walk: its result, and the table reads it made. -/
abbrev Tried := Except XFault Xlat × List TableRead

/-- Walk the stage-1 levels from `level` (R40); `fuel` bounds the levels left. -/
def State.walkFrom (s : State) (k : Caches) (c : Ctx) (acc : Access) (va : Nat) (fuel level table : Nat)
    (reads : List TableRead) : Tried :=
  match fuel with
  | 0 => (.error .perm, reads)
  | fuel + 1 =>
    let idx := if level = 1 then bitsAt 12 48 va else if level = 2 then bitsAt 12 36 va
      else if level = 3 then bitsAt 12 24 va else bitsAt 6 18 va
    match s.readEntry k c.vf.toNat (table + idx * 8) (level - 1) with
    | .error f => (.error f, reads)
    | .ok r =>
      let x := r.val.toNat
      let rs := reads ++ [r]
      if r.poison then (.error .mac, rs)
      else if !x.testBit 0 then (.error (.page false (level - 1) false 0), rs)
      else if badEntry x level then (.error (.page false (level - 1) true 0), rs)
      else if x.testBit 1 then
        ((s.atLeaf k c acc va level r).map (fun y => { y with reads := rs }), rs)
      else s.walkFrom k c acc va fuel (level + 1) (bitsAt 31 12 x * 2 ^ 9) rs

/-- What comes of a walk that read entries under the key of a failed function (R29). The access that meets the
word of the failed check, in a table or at its end, takes the failure itself; any other is refused. -/
def State.afterRefusals (s : State) (acc : Access) (r : Tried) : Tried :=
  if r.2.any (·.refused) then
    match r.1 with
    | .ok x => if decide (acc ≠ .store) && s.poisoned x.phys.loc 1 then r else (.error .perm, r.2)
    | .error .mac => r
    | .error _ => (.error .perm, r.2)
  else r

/-- An enabled ingest region of a tile that holds an offset (R62, R63). -/
def Ingest.bytesPerPrb (r : Ingest) : Nat := if r.comp = 1#2 then 28 else 48
def Ingest.depth (r : Ingest) : Nat := 2 ^ r.ld.toNat
def Ingest.size (r : Ingest) : Nat :=
  r.depth * 224 + r.depth * (r.a.toNat + 1) * 14 * r.prbs.toNat * r.bytesPerPrb
def Tile.ingestAt (t : Tile) (off : Nat) : Option Ingest :=
  (t.ingest.find? (fun e =>
    e.2.en && decide (e.2.base.toNat ≤ off ∧ off < e.2.base.toNat + e.2.size))).map (·.2)

/-- A range of a scratchpad meets an enabled ingest region that an access may not touch (R62): a store
or fetch, or a load of another function than the region's. -/
def State.ingestBars (s : State) (vf : BitVec 9) (acc : Access) (tile off n : Nat) : Bool :=
  (s.tile tile).ingest.any (fun e =>
    e.2.en && decide (e.2.base.toNat < off + n ∧ off < e.2.base.toNat + e.2.size) &&
      (decide (acc ≠ .load) || decide (e.2.vf ≠ vf)))

/-- The same for a range of locations. -/
def State.ingestBarsAt (s : State) (vf : BitVec 9) (acc : Access) (loc n : Nat) : Bool :=
  isScratch loc && s.ingestBars vf acc ((loc - scratchBase) / 2 ^ 24) (loc % 2 ^ 24) n

/-- A scratchpad access (R38, R62). -/
def State.scratchXlat (s : State) (c : Ctx) (acc : Access) (tile off : Nat) : Except XFault Xlat :=
  if decide (scratchSize ≤ off) || decide (15 < tile) || !(s.part c.part).table.tiles.contains tile ||
      s.ingestBars c.vf acc tile off 1 then .error .perm
  else .ok { phys := { loc := scratchLoc tile off, kid := 0, owner := false }, pte := none,
             entry := none, reads := [] }

/-- Translate an address by a walk (R37, R38, R40) that reads some caches first. -/
def State.walkVia (s : State) (k : Caches) (c : Ctx) (acc : Access) (va : W64) : Tried :=
  let a := va.toNat
  if !canonical va then (.error .perm, [])
  else if ownWindow ≤ a ∧ a < windowEnd then
    if a < ownWindow + scratchSize then
      match c.tile with
      | some t => (s.scratchXlat c acc t (a - ownWindow), [])
      | none => (.error .perm, [])
    else if globalWindow ≤ a then
      (s.scratchXlat c acc ((a - globalWindow) / 2 ^ 24) (a % 2 ^ 24), [])
    else (.error .perm, [])
  else s.afterRefusals acc (s.walkFrom k c acc (a % 2 ^ 60) 4 1 (c.root.toNat * 2 ^ 15) [])

/-- A walk that sees only what stands in memory and the stage-2 arrays. -/
def State.walk (s : State) (c : Ctx) (acc : Access) (va : W64) : Except XFault Xlat :=
  (s.walkVia Caches.none c acc va).1

/-- A walk for a run of n bytes in one 256 KiB unit: all of it must keep R62. -/
def State.walkRun (s : State) (c : Ctx) (acc : Access) (va : W64) (n : Nat) : Except XFault Xlat :=
  match s.walk c acc va with
  | .ok x => if s.ingestBarsAt c.vf acc x.phys.loc n then .error .perm else .ok x
  | .error f => .error f

/-- The runs of an n-byte access that lie in one 256 KiB unit each: address and length. -/
def pieces (va : W64) (n : Nat) : List (W64 × Nat) :=
  let first := min n (2 ^ 18 - va.toNat % 2 ^ 18)
  if first = n then [(va, n)]
  else
    (va, first) :: (List.range (ceilDiv (n - first) (2 ^ 18))).map (fun k =>
      (va + BitVec.ofNat 64 (first + k * 2 ^ 18), min (2 ^ 18) (n - first - k * 2 ^ 18)))

end Sys2Proof.Machine
end

