-- ==== Sys2Proof/Machine/Hold.lean ====
section
/-!
DEFINITION. What an access waits for at its home (R52, R247, R278), and the store buffer (R171, R265, R266).
-/

namespace Sys2Proof.Machine

open Sys2Proof

/-- The control word of WDECL (R247). -/
def winLen (x : Nat) : Nat := bitsAt 11 0 x
def winOp (x : Nat) : Nat := bitsAt 3 11 x
/-- Bytes of a word: 4 or 8. -/
def winWord (x : Nat) : Nat := if x.testBit 14 then 8 else 4

/-! ### What holds up an access at its home -/

/-- Lines of a range that host agents hold (R278). -/
def State.heldRange (s : State) (loc n : Nat) : List Nat :=
  s.mem.hostHeld.filter (fun l => decide (loc / 128 ≤ l ∧ l ≤ (loc + n - 1) / 128))

/-- A range meets a host range that is migrating (R52). -/
def State.migrating (s : State) (loc n : Nat) : Bool :=
  decide (hostBase < loc + n ∧ loc < twinBase) && s.mem.st2.any (fun e =>
    e.2.getLsbD 15 && decide (hostBase + e.2.toNat / 2 ^ 21 % 2 ^ 31 * 2 ^ 21 < loc + n ∧
      loc < hostBase + (e.2.toNat / 2 ^ 21 % 2 ^ 31 + 1) * 2 ^ 21))

/-- The runs of locations of a range that translates in a context, for window locks at the homes (R247). -/
def State.homeRuns (s : State) (c : Ctx) (va : W64) (n : Nat) : List (Nat × Nat) :=
  (pieces va n).filterMap (fun p =>
    match s.walk c .store p.1 with
    | .ok x => some (x.phys.loc, x.phys.loc + p.2 - 1)
    | .error _ => none)

/-- The window locks at the homes (R247): those that WDECL registered, and those of lines that a declared window
has come to translate to since; slot, lowest and highest location. -/
def State.windowRuns (s : State) : List (Nat × Nat × Nat) :=
  s.mem.winLocks ++ (s.cur :: s.slots.map (·.1)).flatMap (fun n =>
    match (s.thread n).hw.window with
    | none => []
    | some w =>
      (s.homeRuns (s.ctxOf n) w.base (winLen w.ctl.toNat)).map (fun r => (n, r.1, r.2)))

/-- Another slot's window lock covers a byte of a range: a thread's access meets the window (R247). -/
def State.windowLocked (s : State) (self : Option Nat) (loc n : Nat) : Bool :=
  s.windowRuns.any (fun l => decide (some l.1 ≠ self ∧ l.2.1 < loc + n ∧ loc ≤ l.2.2))

/-- An access of the current thread meets another thread's window by the places its bytes translate to now,
whatever its address (R94, R247). -/
def State.homeLocked (s : State) (acc : Access) (va : W64) (n : Nat) : Bool :=
  !s.windowRuns.isEmpty && (pieces va n).any (fun p =>
    match s.walk s.ctx acc p.1 with
    | .ok x => s.windowLocked (some s.cur) x.phys.loc p.2
    | .error _ => false)

/-- A range reaches a line of another slot's window, at which an engine, the host, the walker or a train
waits (R247). -/
def State.windowLine (s : State) (self : Option Nat) (loc n : Nat) : Bool :=
  s.windowRuns.any (fun l => decide (some l.1 ≠ self ∧ l.2.1 / 128 ≤ (loc + n - 1) / 128 ∧
    loc / 128 ≤ l.2.2 / 128))

/-- A window lock holds a write of a range up (R247): one by a thread that meets another thread's window, any
other that reaches a line of one. -/
def State.windowHolds (s : State) (self : Option Nat) (loc n : Nat) : Bool :=
  if self.isSome then s.windowLocked self loc n else s.windowLine none loc n

/-- A write of a range would wait at its home (R52, R247, R278). -/
def State.writeHeld (s : State) (self : Option Nat) (loc n : Nat) : Bool :=
  decide (n ≠ 0) && (s.windowHolds self loc n || s.migrating loc n || !(s.heldRange loc n).isEmpty)

/-- Start the back-invalidation of a line (R278). -/
def State.snoop (s : State) (line : Nat) : State :=
  if s.mem.backInv.contains line then s
  else s.modMem (fun m => { m with backInv := m.backInv ++ [line] })

/-- Call back the lines of some ranges that the host holds (R278). -/
def State.callBack (s : State) (rs : List (Nat × Nat)) : State :=
  (rs.flatMap (fun r => s.heldRange r.1 r.2)).foldl State.snoop s

/-- The lines of some locations that lie in one location's L2 set (R56). -/
def State.sameSet (s : State) (loc : Nat) (locs : List Nat) : List Nat :=
  match s.partOfPa loc with
  | none => []
  | some (_, p) =>
    ((locs.filter (fun a => decide (sliceOf p.table a = sliceOf p.table loc))).map (· / 128)).eraseDups

/-- Owner stores at some locations of sharing windows would give an L2 set a fifth pending line (R276). -/
def State.fifthOf (s : State) (locs : List Nat) : Bool :=
  locs.any (fun l => decide (4 < (s.sameSet l (locs ++ s.mem.pending.map (·.1))).length))

/-- Writes under a key would give an L2 set a fifth pending line (R276). -/
def State.fifthLine (s : State) (kid : Nat) (ws : List (Nat × Byte)) : Bool :=
  s.fifthOf ((ws.map (·.1)).filter (fun l => s.inSharing l kid))

/-- The lines of some ranges that lie in sharing windows, each by its first location: a write of one is an owner
store (R35, R276). -/
def State.ownerLines (s : State) (rs : List (Nat × Nat)) : List Nat :=
  (rs.flatMap (fun r => (runLines r.1 r.2).map (· * 128))).filter (fun l =>
    isDevice l && s.inSharing l (s.frame (l / 2 ^ 21)).kid.toNat)

/-- Writes of some ranges would wait at their homes (R52, R247, R276, R278). -/
def State.rangesHeld (s : State) (self : Option Nat) (rs : List (Nat × Nat)) : Bool :=
  rs.any (fun r => s.writeHeld self r.1 r.2) || s.fifthOf (s.ownerLines rs)

/-- What an event does that writes some ranges: its effect when none of them is held up; otherwise the
host's copies are called back and the event is still to come. -/
def State.whenFree (s : State) (self : Option Nat) (rs : List (Nat × Nat)) (done : State) : State :=
  if s.rangesHeld self rs then s.callBack rs else done

/-- A list of writes under a key would wait at its homes. -/
def State.writesHeld (s : State) (self : Option Nat) (kid : Nat) (ws : List (Nat × Byte)) : Bool :=
  ws.any (fun w => s.writeHeld self w.1 1) || s.fifthLine kid ws

/-- The ranges of a list of writes, byte by byte. -/
def rangesOf (ws : List (Nat × Byte)) : List (Nat × Nat) := ws.map (fun w => (w.1, 1))

/-! ### The store buffer -/

/-- The newest byte of a location in a store buffer, or none (R265). -/
def bufByte (buf : List BufEntry) (loc : Nat) : Option Byte :=
  match buf with
  | [] => none
  | e :: r =>
    match bufByte r loc with
    | some b => some b
    | none => (e.writes.reverse.find? (fun w => w.1 == loc)).map (·.2)

/-- A byte as the current thread reads it: its own newest buffered store, or the home (R168, R265,
R305). -/
def State.readByte (s : State) (owner : Bool) (loc : Nat) : Byte :=
  match bufByte s.th.hw.buf loc with
  | some b => b
  | none => s.homeByteFor owner loc

/-- A read of the current thread takes a byte of a poisoned word from its home (R75, R305). -/
def State.consumes (s : State) (loc n : Nat) : Bool :=
  s.poisoned loc n && (List.range n).any (fun k =>
    (bufByte s.th.hw.buf (loc + k)).isNone && s.poisoned (loc + k) 1)

/-- Put an entry at the end of the current thread's store buffer (R171). -/
def State.pushBuf (s : State) (e : BufEntry) : State :=
  if e.writes.isEmpty then s else s.modHw (fun h => { h with buf := h.buf ++ [e] })

/-- Put the entries of one store instruction into the buffer, in order, under its number (R171, R267). -/
def State.pushStore (s : State) (es : List BufEntry) : State :=
  (es.foldl (fun s e => s.pushBuf { e with num := s.th.hw.storeNum }) s).modHw
    (fun h => { h with storeNum := h.storeNum + 1 })

/-- Put the entry of a scalar store into the buffer (R59, R305). -/
def State.pushScalar (s : State) (ws : List (Nat × Byte)) (kid : Nat) (rel : Bool) : State :=
  s.pushStore [{ BufEntry.plain ws kid with keep := some s.curVc, rel := rel }]

/-- How the write of a line allocates (R57). -/
def BufEntry.allocFor (e : BufEntry) (line : Nat) : Alloc :=
  if e.big then (if e.full.contains line then .none else .age 3) else .age 2

/-- The twin refuses an access, or its link is down (R419): what the twin refuses is its own, a free
choice here. -/
def State.twinFails (s : State) : Bool := !s.hub.twUp || Config.freeBit s.free

/-- Count a store that the twin did not perform (R419). -/
def State.countTwin (s : State) : State :=
  s.modHub (fun h => { h with
    twErr := if h.twErr = BitVec.ofNat 32 (2 ^ 32 - 1) then h.twErr else h.twErr + 1 })

/-- A write under the key of a failed function is refused (R29). -/
def State.writeRefused (s : State) (kid loc : Nat) : Bool := isDevice loc && s.kidFailed kid

/-- Perform one buffer entry at its homes (R264): a twin-window store that is refused or cannot be
delivered is dropped and counted (R419), one under a failed function's key is dropped (R29). -/
def State.performEntry (s : State) (e : BufEntry) : State :=
  let tw := e.writes.filter (fun w => isTwin w.1)
  let dev := s.storeHome e.kid e.keep e.allocFor
    (e.writes.filter (fun w => !isTwin w.1 && !s.writeRefused e.kid w.1))
  if tw.isEmpty then dev
  else if s.twinFails then dev.countTwin.bump
  else (dev.pokeBytes e.kid none tw).bump

/-- An entry that a member of the convoy in hand, one of several, has made: the convoy has not retired, so the
entry is not performed (R397). -/
def State.unretired (s : State) (e : BufEntry) : Bool := s.cv.many && decide (s.cv.base ≤ e.num)

/-- Drain the store buffer of the current thread (R270 step 1, R271): every entry of a retired convoy. -/
def State.drainAll (s : State) : State :=
  ((s.th.hw.buf.filter (fun e => !s.unretired e)).foldl State.performEntry s).modHw
    (fun h => { h with buf := s.th.hw.buf.filter s.unretired })

/-- Some entry of a buffer would wait at its home. -/
def State.bufHeld (s : State) (slot : Nat) (buf : List BufEntry) : Bool :=
  buf.any (fun e => s.writesHeld (some slot) e.kid e.writes)

/-- Call back the host's copies of the lines of a buffer. -/
def State.callBackBuf (s : State) (buf : List BufEntry) : State :=
  s.callBack (buf.flatMap (fun e => rangesOf e.writes))

/-- Drain the buffer before an atomic or a release (R268, R271), waiting for what holds an entry up. -/
def drainBuffer : M Unit := do
  let s ← get
  if s.bufHeld s.cur s.th.hw.buf then
    set (s.callBackBuf s.th.hw.buf)
    waitFor .line
  else set s.drainAll

end Sys2Proof.Machine
end

