-- ==== Sys2Proof/Machine/Trans.lean ====
section
/-!
DEFINITION. Translation as an access meets it: the TLBs (R45), the walkers' updates (R42), the fault queue (R48
to R51), the checks of a scalar or wide access.
-/

namespace Sys2Proof.Machine

open Sys2Proof

/-! ### TLBs -/

/-- A cached entry serves an access (R45, R42): tags match, the page and its 2 MiB unit cover the
address, and a write needs D. -/
def TlbEntry.serves (e : TlbEntry) (c : Ctx) (acc : Access) (va : Nat) : Bool :=
  decide (e.vf = c.vf) && (e.global || decide (e.asid = c.asid)) &&
    decide (va / 2 ^ e.logSize * 2 ^ e.logSize = e.page) &&
    decide ((e.gpa + va % 2 ^ e.logSize) / 2 ^ 21 = e.gfn) &&
    (e.dirty || decide (acc ≠ .store))

/-- What a cached entry answers (R47). -/
def State.tlbAnswer (s : State) (e : TlbEntry) (c : Ctx) (acc : Access) (va : Nat) :
    Except XFault Xlat :=
  let p := s.st2Phys e.st2 (e.gpa + va % 2 ^ e.logSize)
  if !permits e.perm.toNat 0 acc || (c.user && !e.um) || s.barred e.st2 p acc || s.unreachable p.loc acc then
    .error .perm
  else .ok { phys := p, pte := none, entry := none, reads := [] }

/-- Two translations that no access can tell apart. -/
def sameXlat (fresh old : Except XFault Xlat) : Bool :=
  match fresh, old with
  | .ok a, .ok b => decide (a.phys = b.phys ∧ a.pte = b.pte)
  | .error a, .error b => decide (a = b)
  | _, _ => false

/-- The caches that a walk for the TLBs at some places reads (R45). -/
def State.cachesFor (s : State) (places : List TlbPlace) : Caches :=
  (places.findSome? (fun p => match p with | .tile t => some (s.cachesOf t) | _ => none)).getD Caches.none

/-- Translate through the TLBs at some places, and on a miss through the walker and stage-2 caches of
their tile: a hit makes no walk. A cached entry that differs from a fresh walk may or may not still be held,
so a free choice decides which of the two answers (R45, R55). -/
def State.translate (s : State) (places : List TlbPlace) (c : Ctx) (acc : Access) (va : W64) :
    Tried × Bool :=
  let fresh := s.walkVia Caches.none c acc va
  if !canonical va then (fresh, false)
  else
    let old : Tried :=
      match s.mem.tlbs.find? (fun e => places.contains e.1 && e.2.serves c acc (va.toNat % 2 ^ 60)) with
      | some e => (s.tlbAnswer e.2 c acc (va.toNat % 2 ^ 60), [])
      | none => s.walkVia (s.cachesFor places) c acc va
    if sameXlat fresh.1 old.1 then (old, false)
    else if Config.freeBit s.free then (old, true) else (fresh, true)

/-- Entries of each place (R45). -/
def TlbPlace.cap : TlbPlace → Nat
  | .lane _ _ => 64
  | .scalar _ => 32
  | .tile _ => 4096

/-- The set of an entry in a TLB (R45): the first levels are fully associative, a second-level TLB has
256 sets of 16 ways, chosen by the page's number (log entry 99). -/
def TlbPlace.set (p : TlbPlace) (e : TlbEntry) : Nat :=
  match p with
  | .tile _ => e.page / 2 ^ e.logSize % 256
  | _ => 0

/-- Entries that a set of a TLB holds (R45). -/
def TlbPlace.ways : TlbPlace → Nat
  | .tile _ => 16
  | p => p.cap

/-- Put an entry into a TLB in place of any entry for the same page, dropping the oldest of its set when
that is full. -/
def tlbFill (l : List (TlbPlace × TlbEntry)) (p : TlbPlace) (e : TlbEntry) :
    List (TlbPlace × TlbEntry) :=
  let l1 := l.filter (fun x => !(x.1 == p && x.2.vf == e.vf && x.2.asid == e.asid &&
    x.2.page == e.page && x.2.logSize == e.logSize && x.2.gfn == e.gfn))
  cachePut (fun a b => a.1 == b.1 && a.1.set a.2 == b.1.set b.2) p.ways l1 (p, e)

/-- Non-leaf entries that a walker cache holds, and stage-2 entries of a hub's cache (R45). -/
def walkCap : Nat := 64
def st2Cap : Nat := 2048

/-- A non-leaf entry enters the walker cache of a tile (R45). -/
def walkPut (l : List (Nat × WalkEntry)) (tile : Nat) (w : WalkEntry) : List (Nat × WalkEntry) :=
  cachePut (fun a b => a.1 == b.1) walkCap
    (l.filter (fun e => !(e.1 == tile && e.2.vf == w.vf && e.2.gpa == w.gpa))) (tile, w)

/-- A stage-2 entry enters the cache of a die's hub half (R45). -/
def st2Put (l : List (Nat × Nat × BitVec 64)) (die key : Nat) (e : BitVec 64) :
    List (Nat × Nat × BitVec 64) :=
  cachePut (fun a b => a.1 == b.1) st2Cap
    (l.filter (fun x => !(x.1 == die && x.2.1 == key))) (die, key, e)

/-- The table reads of a walk reach their slices, at age 0, and count toward migration (R42, R52, R57). -/
def State.walkTouch (s : State) (rs : List TableRead) : State :=
  (rs.filter (fun r => !r.cached)).foldl (fun s r =>
    s.touch [r.phys.loc / 128] r.phys.kid (fun _ => .age 0) false) s

/-- A successful walk fills the walker cache of a tile and the stage-2 cache of its die (R45). -/
def State.walkFill (s : State) (places : List TlbPlace) (x : Xlat) : State :=
  match x.entry with
  | none => s
  | some e =>
    let vf := e.vf.toNat
    places.foldl (fun s p =>
      match p with
      | .tile t =>
        let d := dieOfTile t
        s.modMem (fun m => { m with
          walkCache := (x.reads.filter (fun r => !r.leaf)).foldl (fun l r =>
            walkPut l t { vf := vf, gpa := r.gpa, val := r.val }) m.walkCache
          st2Cache := st2Put (x.reads.foldl (fun l r =>
            st2Put l d (vf * 2 ^ 19 + r.gpa / 2 ^ 21) r.st2) m.st2Cache) d (vf * 2 ^ 19 + e.gfn) e.st2 })
      | _ => s) s

/-- The walker's OR of A and D at the line's home (R42), as a write of the function. -/
def State.setAD (s : State) (pte : Option (Phys × Nat)) : State :=
  match pte with
  | none => s
  | some (p, bits) =>
    s.storeHome p.kid none (fun _ => .age 0)
      (writesOf p.loc (leBytes 8 (leNat (s.homeBytes p 8) ||| bits)))

/-- The state after a translation has succeeded: the walk's reads reach their slices, the walker sets A and
D, and the caches and TLBs are filled (R42, R45). -/
def State.applyXlat (s : State) (places : List TlbPlace) (x : Xlat) : State :=
  let s1 := ((s.walkTouch x.reads).setAD x.pte).walkFill places x
  match x.entry with
  | none => s1
  | some e =>
    s1.modMem (fun m => { m with tlbs := places.foldl (fun l p => tlbFill l p e) m.tlbs })

/-- The line of a walker's update when something holds it up (R42, R52, R247, R276, R278). -/
def State.updateHeld (s : State) (x : Xlat) : Option Nat :=
  match x.pte with
  | some (p, _) => if s.rangesHeld none [(p.loc, 8)] then some p.loc else none
  | none => none

/-- An access asks the twin for an answer: a load or fetch of its window, or a walker's OR there. -/
def asksTwin (acc : Access) (x : Xlat) : Bool :=
  (isTwin x.phys.loc && decide (acc ≠ .store)) || x.pte.any (fun q => isTwin q.1.loc)

/-- An access whose load, fetch or walker's OR the twin refuses permission-faults (R42, R419). -/
def State.twinRefuses (s : State) (acc : Access) (x : Xlat) : Bool := asksTwin acc x && s.twinFails

/-- Translate and, on success, apply the walker's updates; an update that waits leaves the access to be
tried again. -/
def State.resolve (s : State) (places : List TlbPlace) (c : Ctx) (acc : Access) (va : W64) :
    Except XFault Xlat × State :=
  let r := s.translate places c acc va
  let s1 := if r.2 then s.bump else s
  match r.1.1 with
  | .ok x =>
    match s1.updateHeld x with
    | some l => (.error (.held l), s1.callBack [(l, 8)])
    | none =>
      if asksTwin acc x then
        (if s1.twinRefuses acc x then (.error .perm, s1.bump) else (.ok x, s1.bump.applyXlat places x))
      else (.ok x, s1.applyXlat places x)
  | .error f => (.error f, if s.hub.twEn then (s1.walkTouch r.1.2).bump else s1.walkTouch r.1.2)

/-- The TLBs of scalar accesses and fetches of the current thread. -/
def State.scalarPlaces (s : State) : List TlbPlace := [.scalar s.curVc, .tile s.curTile]

/-- The lane groups a context holds, in order: VC and group; those of its own VC first, then those of
the partner VC (R100, R288). -/
def Held.groups (h : Held) (vc : Nat) : List (Nat × Nat) :=
  ((List.range 4).filter (fun g => h.loc.getLsbD g)).map (fun g => (vc, g)) ++
    ((List.range 4).filter (fun g => h.remote.getLsbD g)).map (fun g => (h.pvc.toNat, g))

/-- The owning lane group of an element address (R46): its TLB slice, then the second-level TLB of the
group's own tile. -/
def State.lanePlaces (s : State) (va : Nat) : List TlbPlace :=
  let gs := s.th.held.groups s.curVc
  let g := gs.getD (va / 256 % max 1 gs.length) (s.curVc, 0)
  [.lane g.1 g.2, .tile (tileOfVc g.1)]

/-! ### The fault queue -/

/-- How a batch was taken (R49 to R51). -/
inductive QResult where
  | taken
  | full
  | off
  /-- An entry that a fault is compared or merged with holds a poisoned word (R75). -/
  | mac
  deriving DecidableEq, Repr

/-- The canonical VA of the 256 KiB unit that holds an address (R50). -/
def unitOf (va : W64) : Nat := va.toNat / 2 ^ 18 * 2 ^ 18

/-- RD, WR, EX as a number (R50). -/
def accBits : Access → Nat
  | .load => 1
  | .store => 2
  | .fetch => 4

def Part.fqOn (p : Part) : Bool := decide (4 ≤ p.fqLog.toNat ∧ p.fqLog.toNat ≤ 12)
def Part.fqCap (p : Part) : Nat := 2 ^ p.fqLog.toNat
def Part.fqUsed (p : Part) : Nat := (p.fqTail.toNat + p.fqCap - p.fqHead.toNat % p.fqCap) % p.fqCap
/-- Location of an entry slot (R49). One beyond the 4 MiB of its tile wraps to its start, and TILE names
any tile (log entry 100). -/
def Part.fqSlot (p : Part) (n : Nat) : Nat :=
  scratchLoc p.fqTile.toNat ((p.fqBase.toNat * 16 + n * 32) % scratchSize)

/-- A fault-queue entry as a 256-bit number (R50). -/
def fqEntry (f : PFault) (kinds : Nat) (last : Bool) (vf asid thread time : Nat) : Nat :=
  unitOf f.va + kinds * 2 ^ 64 + (if f.stage2 then 2 ^ 67 else 0) + f.level * 2 ^ 68 +
    (if f.bad then 2 ^ 70 else 0) + (if last then 2 ^ 71 else 0) + vf * 2 ^ 96 + asid * 2 ^ 105 +
    thread * 2 ^ 144 + (if f.stage2 then f.gpa / 256 * 2 ^ 160 else 0) + time * 2 ^ 192

/-- The slots from HEAD to TAIL. -/
def Part.fqSlots (p : Part) : List Nat :=
  (List.range p.fqUsed).map (fun i => (p.fqHead.toNat + i) % p.fqCap)

/-- The entry between HEAD and TAIL that a fault merges into (R50). -/
def State.fqMatch (s : State) (p : Part) (vf asid : Nat) (f : PFault) : Option Nat :=
  p.fqSlots.find? (fun n =>
    let x := s.peekNat (p.fqSlot n) 32
    decide (bitsAt 64 0 x = unitOf f.va ∧ bitsAt 1 67 x = (if f.stage2 then 1 else 0) ∧
      bitsAt 9 96 x = vf ∧ bitsAt 12 105 x = asid))

/-- Merge a fault into an entry: the kinds are ORed and MERGED increments (R50). -/
def State.fqMerge (s : State) (p : Part) (n kinds : Nat) : State :=
  let x := s.peekNat (p.fqSlot n) 32
  let k := bitsAt 3 64 x
  let m := bitsAt 16 128 x
  let x' := x - k * 2 ^ 64 + (k ||| kinds) * 2 ^ 64 - m * 2 ^ 128 + min 0xFFFF (m + 1) * 2 ^ 128
  s.poke (p.fqSlot n) 0 (leBytes 32 x')

/-- One fault per distinct unit and stage, with the kinds of its faults, in ascending VA and stage 1
before stage 2 (R50); GPA, LEVEL and BAD are those of the first of them (log entry 101). -/
def batchOf (fs : List PFault) : List (PFault × Nat) :=
  let key := fun (f : PFault) => unitOf f.va * 2 + (if f.stage2 then 1 else 0)
  let t : Table (PFault × Nat) := fs.foldl (fun t f =>
    match t.find? (fun e => e.1 == key f) with
    | some (k, g, b) => tinsert t k (g, b ||| accBits f.acc)
    | none => tinsert t (key f) (f, accBits f.acc)) []
  t.map (·.2)

/-- Append a batch to the partition's fault queue (R48 to R51): all of it in one step, or, when its
new entries do not fit or the queue is disabled, nothing. -/
def State.appendBatch (s : State) (part : Nat) (vf : BitVec 9) (asid : BitVec 12) (thread : Nat)
    (fs : List PFault) : State × QResult :=
  let p := s.part part
  if !p.fqOn then (s, .off)
  else if p.fqSlots.any (fun n => s.poisoned (p.fqSlot n) 32) then (s, .mac)
  else
    let b := batchOf fs
    let news := b.filter (fun e => (s.fqMatch p vf.toNat asid.toNat e.1).isNone)
    if p.fqCap - 1 - p.fqUsed < news.length then (s, .full)
    else
      let s := s.tick
      let s1 := b.foldl (fun s' e =>
        match s.fqMatch p vf.toNat asid.toNat e.1 with
        | some n => s'.fqMerge p n e.2
        | none => s') s
      let s2 := ((List.range news.length).zip news).foldl (fun s' e =>
        let n := (p.fqTail.toNat + e.1) % p.fqCap
        s'.poke (p.fqSlot n) 0
          (leBytes 32 (fqEntry e.2.1 e.2.2 (e.1 + 1 == news.length) vf.toNat asid.toNat thread
            (s.hub.ptp % 2 ^ 64)))) s1
      (s2.modPart part (fun p' =>
        { p' with fqTail := BitVec.ofNat 12 ((p.fqTail.toNat + news.length) % p.fqCap) }), .taken)

/-- The trap of a batch of page faults: QFULL and QOFF as R50 and R51 give. A poisoned word of the queue stops
the thread's function, with no address (R75). -/
def pfaultTrap (va : W64) (q : QResult) (pfw : Bool) : TrapInfo :=
  if q = .mac then plainTrap Cause.macfail 0
  else { plainTrap Cause.pfault va with qfull := q != .taken, qoff := q == .off, pfw := pfw }

/-- A fault as a batch member, with the access that found it. -/
def PFault.of (va : W64) (acc : Access) : XFault → Option PFault
  | .page st lv bad gpa => some { va := va, stage2 := st, level := lv, bad := bad, gpa := gpa, acc := acc }
  | _ => none

/-- Trap for the faults of an access that performs nothing and leaves pf alone: PERM for the lowest
permission fault, else PFAULT with the batch (R48). The faults are in ascending element order. -/
def faultTrap {α : Type} (fs : List (W64 × Access × XFault)) : M α := do
  match fs.find? (fun f => f.2.2 == .perm) with
  | some f => trap Cause.perm f.1
  | none =>
    let s ← get
    let batch := fs.filterMap (fun f => PFault.of f.1 f.2.1 f.2.2)
    let r := s.appendBatch s.curPart s.th.id.vf s.th.tr.asid s.cur batch
    set r.1
    let va := match fs with | f :: _ => f.1 | [] => 0
    throw (.trap (pfaultTrap va r.2 false))

/-- A release waits for the acknowledgement of every earlier train (R268). -/
def awaitTrains : M Unit := do
  if (← get).th.hw.trains ≠ [] then waitFor .trains

/-- An element of a train on its way falls on a range (R264). -/
def State.trainAt (s : State) (loc n : Nat) : Bool :=
  s.th.hw.trains.any (fun t => !t.arrived && t.elems.any (fun e =>
    decide (e.1 < loc + n ∧ loc < e.1 + e.2.length)))

/-- A job that the thread's JSTAT read as ABANDONED has markers still to be written (R374). -/
def State.settlesPending (s : State) : Bool :=
  s.th.hw.settles.any (fun id =>
    match (s.part s.curPart).job? id with | some j => j.settling | none => false)

/-- What a place of n bytes waits for before an access of the current thread: the markers of a job read as
ABANDONED are written (R273), and a byte that an own train is still to write waits for it (R264). -/
def checkArrivals (p : Phys) (n : Nat) : M Unit := do
  let s ← get
  if s.settlesPending then waitFor .settle
  if s.trainAt p.loc n then waitFor .trains

/-- The same for an access that another thread's window traps with RLOCK (R247). -/
def checkHome (va : W64) (p : Phys) (n : Nat) : M Unit := do
  checkArrivals p n
  let s ← get
  if s.windowLocked (some s.cur) p.loc n then throw (.trap (rlockTrap va 0xFFFF#16))

/-- Translate an address in a context for the current thread. The walker's OR of A or D is an acquire and a
release of the thread (R42): its buffer drains and its trains are acknowledged first. A walker that waits makes
the thread wait. -/
def resolveIn (places : List TlbPlace) (ctx : State → Ctx) (acc : Access) (va : W64) :
    M (Except XFault Xlat) := do
  let s ← get
  match (s.translate places (ctx s) acc va).1.1 with
  | .ok x =>
    if x.pte.isSome then
      drainBuffer
      awaitTrains
  | .error _ => pure ()
  let u ← get
  let r := u.resolve places (ctx u) acc va
  set r.2
  match r.1 with
  | .error (.held _) => waitFor .line
  | x => pure x

/-- Translate an address of the current thread; a walker that reads a poisoned word stops the function (R75). -/
def resolveNow (places : List TlbPlace) (acc : Access) (va : W64) : M (Except XFault Xlat) := do
  match ← resolveIn places State.ctx acc va with
  | .error .mac => trap Cause.macfail va
  | x => pure x

/-- The place of one address as the scalar port translates it, with no check of what stands there (R305). -/
def translatePlace (acc : Access) (va : W64) : M Phys := do
  let s ← get
  match ← resolveNow s.scalarPlaces acc va with
  | .error f => faultTrap [(va, acc, f)]
  | .ok x => pure x.phys

/-- Translate one scalar access of n bytes of the current thread, after its alignment and lock checks
(R305). -/
def translateScalar (acc : Access) (va : W64) (n : Nat) : M Phys := do
  let p ← translatePlace acc va
  checkHome va p n
  pure p

/-- Alignment of a scalar access (R299, R305). -/
def checkAlign (va : W64) (n : Nat) : M Unit :=
  if va.toNat % n = 0 then pure () else trap Cause.align va

/-- A line enters a scalar data cache of 256 sets of 4 ways (R59, log entry 99). -/
def dcachePut (l : List Nat) (x : Nat) : List Nat := cachePut (fun a b => a % 256 == b % 256) 4 l x

/-- The L2 and data-cache traffic of a scalar load (R57, R59): a line that the data cache holds is read
there; one read from memory enters it. -/
def State.scalarTouch (s : State) (p : Phys) : State :=
  if isDevice p.loc || isHost p.loc then
    if (s.vc s.curVc).dcache.contains (p.loc / 64) then s
    else
      (s.touch [p.loc / 128] p.kid (fun _ => .age 0) false).modVc s.curVc
        (fun v => { v with dcache := dcachePut v.dcache (p.loc / 64) })
  else s

/-- Bytes of a place for the current thread (R305): newest buffered byte or home. A poisoned word that is
read stops the function (R75). -/
def takeBytes (va : W64) (p : Phys) (n : Nat) : M (List Byte) := do
  let s ← get
  if s.consumes p.loc n then trap Cause.macfail va
  pure ((List.range n).map (fun k => s.readByte p.owner (p.loc + k)))

/-- A scalar load reads a line that the VC's data cache holds (R59). -/
def State.dcacheHit (s : State) (p : Phys) : Bool :=
  (isDevice p.loc || isHost p.loc) && (s.vc s.curVc).dcache.contains (p.loc / 64)

/-- Read n bytes with a scalar load; a copy in the data cache is clean whatever its home has become (R75). -/
def readBytes (va : W64) (p : Phys) (n : Nat) : M (List Byte) := do
  let hit := (← get).dcacheHit p
  modify (fun s => s.scalarTouch p)
  if hit then
    let s ← get
    pure ((List.range n).map (fun k => s.readByte p.owner (p.loc + k)))
  else takeBytes va p n

/-- Check and translate every piece of a wide access before any of it is performed (R237, R244,
R256, R338, R359, R389): ALIGN, RLOCK, then PERM or PFAULT as a batch with pf not written. A piece that the
test refuses permission-faults. -/
def translateWideBy (refused : W64 → M Bool) (acc : Access) (va : W64) (n align : Nat) :
    M (List (Phys × Nat)) := do
  checkAlign va align
  checkLock va n (decide (acc = .store))
  let ps := pieces va n
  let mut good := []
  let mut bad := []
  for p in ps do
    if ← refused p.1 then bad := bad ++ [(p.1, acc, .perm)]
    else
    let s ← get
    match ← resolveNow s.scalarPlaces acc p.1 with
    | .ok x =>
      checkHome p.1 x.phys p.2
      if (← get).ingestBarsAt s.th.id.vf acc x.phys.loc p.2 then bad := bad ++ [(p.1, acc, .perm)]
      else good := good ++ [(x.phys, p.2)]
    | .error f => bad := bad ++ [(p.1, acc, f)]
  if bad.isEmpty then pure good else faultTrap bad

/-- Check and translate every piece of a wide load or store. -/
def translateWide (acc : Access) (va : W64) (n align : Nat) : M (List (Phys × Nat)) :=
  translateWideBy (fun _ => pure false) acc va n align

/-- Read a wide range after its translation (R168): every line of it reaches its slice (R57). -/
def readWide (va : W64) (ps : List (Phys × Nat)) : M (List Byte) := do
  let mut out := []
  for p in ps do
    modify (fun s => s.touch (runLines p.1.loc p.2) p.1.kid (fun _ => .age 0) false)
    let b ← takeBytes va p.1 p.2
    out := out ++ b
  pure out

/-- Load n bytes as one wide read: the descriptors and images of several instructions. -/
def loadWide (va : W64) (n align : Nat) : M (List Byte) := do
  let ps ← translateWide .load va n align
  readWide va ps

end Sys2Proof.Machine
end

