-- ==== Sys2Proof/Machine/Debug.lean ====
section
/-!
DEFINITION. Who reaches the registers of debug (R433); trace units and triggers (R436 to R440): records and
their FIFO, members in flight, firing triggers.
-/

namespace Sys2Proof.Machine

open Sys2Proof

/-! ### Agents (R433) -/

/-- A register of debug: DBGT, FRZ, TRCTL and TRPTR, TRG. -/
def isDebugReg (a : Nat) : Bool := decide (0x900000 ≤ a ∧ a < 0xA00000)

/-- A register of debug within what a table assigns to an agent (R433): DBGT by its slot, TRCTL and TRPTR by
their VC, TRG by its partition; of FRZ an agent reaches the bits of its partitions. -/
def assignedTo (t : DebugTable) (a : Nat) : Bool :=
  if a < 0x904000 then t.slots.contains ((a - 0x900000) / 8)
  else if a = 0x904000 then true
  else if a < 0x910000 then false
  else if a < 0x920000 then t.vcs.contains ((a - 0x910000) / 0x10)
  else t.parts.contains ((a - 0x920000) / 0x20)

/-- The partitions whose FRZ bits and triggers the HC reaches: all of them until bring-up applies the tables
(log entry 123). -/
def State.hcDebug (s : State) : List Nat :=
  if s.hub.bootStep = 7 then s.hub.hcReach.parts else List.range 20

/-- The partitions that the test access port reaches; none unless the tables enable it. -/
def State.tapDebug (s : State) : List Nat := if s.hub.tapOn then s.hub.tapReach.parts else []

/-- The test access port reaches a register of debug. -/
def State.tapReaches (s : State) (a : Nat) : Bool :=
  isDebugReg a && s.hub.tapOn && assignedTo s.hub.tapReach a

/-- The HC reaches a register of debug: every one until bring-up applies the tables (log entry 123). -/
def State.hcReaches (s : State) (a : Nat) : Bool :=
  isDebugReg a && (decide (s.hub.bootStep ≠ 7) || assignedTo s.hub.hcReach a)

/-- One of the two agents reaches a register of debug. -/
def State.debugReaches (s : State) (a : Nat) : Bool := s.hcReaches a || s.tapReaches a

/-- The partitions whose bits a write of FRZ reaches: those of the agent that makes it. Which of the two it is is
a free choice (log entry 123). -/
def State.frzParts (s : State) : List Nat := if Config.freeBit s.free then s.tapDebug else s.hcDebug

/-! ### Records (R436, R438, R439) -/

/-- Records that a VC's capture buffer holds: SIZE × 4 KiB of 8 bytes (R439). -/
def Vc.trRecords (v : Vc) : Nat := v.trSize.toNat * 512

/-- The buffer holds something, is aligned and does not pass 4 MiB (R439). -/
def Vc.trFits (v : Vc) : Bool :=
  decide (0 < v.trRecords ∧ v.trBase.toNat % 16 = 0 ∧
    v.trBase.toNat + v.trSize.toNat * 4096 ≤ scratchSize)

/-- The VC captures: SIZE = 0 disables it (R439). -/
def Vc.captures (v : Vc) : Bool := v.trEn && v.trFits

/-- Write one 8-byte record to a VC's capture buffer (R436, R439): past store buffers and range locks;
a full buffer wraps, or stops capture under STOPFULL. -/
def State.putRecord (s : State) (vc : Nat) (x : W64) : State :=
  let v := s.vc vc
  if v.trFits then
    let n := v.trWptr.toNat
    let s1 := s.poke (scratchLoc (tileOfVc vc) (v.trBase.toNat + 8 * n)) 0 (leBytes 8 x.toNat)
    let full := decide (v.trRecords ≤ n + 1)
    s1.modVc vc (fun v =>
      { v with
        trWptr := if full then 0 else BitVec.ofNat 19 (n + 1)
        trWrap := v.trWrap || full
        trEn := v.trEn && !(full && v.trStopFull) })
  else s

/-- The FIFO of a trace unit writes its n oldest records to the buffer; the rest is lost once a full buffer has
stopped the capture (R438, R439). -/
def State.traceDrain (s : State) (vc : Nat) : Nat → State
  | 0 => s
  | n + 1 =>
    match (s.vc vc).trFifo with
    | [] => s
    | x :: r =>
      if (s.vc vc).captures then ((s.modVc vc (fun v => { v with trFifo := r })).putRecord vc x).traceDrain vc n
      else s.modVc vc (fun v => { v with trFifo := [] })

/-- A record enters the FIFO of 64, which has written some number of its records by then; one that finds it
full is dropped and counted (R438). `then_` is what else changes when it enters. -/
def State.pushRecord (s : State) (vc : Nat) (x : W64) (then_ : Vc → Vc) : State :=
  ((s.traceDrain vc (Config.freeNat s.free % 65)).bump).modVc vc (fun v =>
    if !v.captures then v
    else if v.trFifo.length < 64 then { then_ v with trFifo := v.trFifo ++ [x] }
    else { v with trLost := min 0xFFFF (v.trLost + 1) })

/-- The sync record of a time (R436). -/
def syncRecord (time : Nat) : W64 := BitVec.ofNat 64 (3 + time % 2 ^ 62 * 4)

/-- A sync record of a time (R436). A trigger's arrival leaves one in the buffer of a VC that does not capture
too (R440). -/
def State.putSync (s : State) (vc time : Nat) : State :=
  if (s.vc vc).captures then s.pushRecord vc (syncRecord time) (fun v => { v with trSince := 0 })
  else s.putRecord vc (syncRecord time)

/-- A record, with the sync record due after every 4,096 (R436). -/
def State.trace (s : State) (vc : Nat) (x : W64) (then_ : Vc → Vc) : State :=
  let s1 := s.pushRecord vc x (fun v => { then_ v with trSince := v.trSince + 1 })
  if 4096 ≤ (s1.vc vc).trSince then s1.putSync vc s1.hub.ptp else s1

/-- An overflow record of an interval (R436), with the records dropped since the last one (R438). -/
def State.traceOverflow (s : State) (vc elapsed : Nat) : State :=
  s.trace vc (BitVec.ofNat 64 (2 + elapsed % 2 ^ 32 * 4 + (s.vc vc).trLost * 2 ^ 34))
    (fun v => { v with trLost := 0 })

/-- A pipe event of a member (R436): EV, PIPE, SLOT, MBR, GROUPS, VL. The cycles since the VC's previous record
are a free value; past 1,023 of them an overflow record goes before the event, whose DELTA is 0. -/
def State.tracePipe (s : State) (vc : Nat) (f : Flight) (ev : Nat) : State :=
  let v := s.vc vc
  if v.captures ∧ (s.thread f.slot).hw.dbTrace ∧ v.trPipes.toNat.testBit f.pipe then
    let elapsed := Config.freeNat s.free
    let s1 := if 1023 < elapsed then s.bump.traceOverflow vc elapsed else s.bump
    s1.trace vc (BitVec.ofNat 64 (ev * 4 + f.pipe * 32 + f.slot % 4 * 2 ^ 8 + f.mbr.toNat * 2 ^ 10 +
      (if 1023 < elapsed then 0 else elapsed) * 2 ^ 12 + f.groups.toNat * 2 ^ 22 + f.vl.toNat * 2 ^ 30)) id
  else s

/-- The convoy record of an issue (R436). -/
def State.traceConvoy (s : State) (members : Nat) : State :=
  let vc := s.curVc
  if (s.vc vc).captures ∧ s.th.hw.dbTrace then
    s.trace vc (BitVec.ofNat 64
      (1 + (members - 1) * 4 + s.cur % 4 * 16 + s.th.sc.pc.toNat / 4 % 2 ^ 58 * 64)) id
  else s

/-! ### Members in flight (R437) -/

/-- A member may start: no earlier member of its thread holds its pipe, the members that it takes registers
from have started, and the array has taken a product, from which the one before has left (R234, R280, R283,
R284). -/
def Vc.mayBegin (v : Vc) (f : Flight) : Bool :=
  !f.begun && (f.pipe != 5 || f.last.isSome) &&
    v.flights.all (fun g =>
      !(decide (g.num < f.num) && g.slot == f.slot && g.pipe == f.pipe) &&
        !(f.pipe == 5 && g.pipe == 5 && g.begun) && (g.begun || !f.after.contains g.num))

/-- A member in flight waits for a member that it takes registers from. -/
def Vc.fed (v : Vc) (f : Flight) : Bool := v.flights.any (fun g => f.after.contains g.num)

/-- A member may leave its pipe: the members that it takes registers from have left, it has not detached, and
the array has finished a product (R172, R234, R283). A stop part-way takes it out as it stands (R437). -/
def Vc.mayEnd (v : Vc) (f : Flight) : Bool :=
  f.begun && f.last.isSome && !(f.pipe == 5 && v.array.any (fun a => a.1 == f.slot)) &&
    (f.last == some 4 || (!f.detached && !v.fed f))

/-- Change a member in flight. -/
def State.modFlight (s : State) (vc num : Nat) (g : Flight → Flight) : State :=
  s.modVc vc (fun v => { v with flights := v.flights.map (fun f => if f.num = num then g f else f) })

/-- The detached consumers of a VC whose producers are complete restart (R172, R283, R437). -/
def State.resumeFed (s : State) (vc : Nat) : State :=
  ((s.vc vc).flights.filter (fun f => f.detached && !(s.vc vc).fed f)).foldl (fun u f =>
    ((u.tracePipe vc f 3).modFlight vc f.num (fun g => { g with detached := false })).modThread f.slot (fun t =>
      { t with hw := { t.hw with detached := t.hw.detached.filter (fun m => m != f.mbr) } })) s

/-- A member starts, or leaves its pipe, with its record (R437); the consumers that waited for it restart. -/
def State.moveFlight (s : State) (vc : Nat) (f : Flight) : State :=
  if f.begun then
    ((s.tracePipe vc f (f.last.getD 1)).modVc vc (fun v =>
      { v with flights := v.flights.filter (fun g => decide (g.num ≠ f.num)) })).resumeFed vc
  else (s.tracePipe vc f 0).modFlight vc f.num (fun g => { g with begun := true })

/-- Members start and leave their pipes, at most n times and until a condition holds. Which goes first of two
that may is not fixed: a free choice. With `ends` false members only start. -/
def State.pump (s : State) (vc : Nat) (ends : Bool) (stop : Vc → Bool) : Nat → State
  | 0 => s
  | n + 1 =>
    let v := s.vc vc
    let l := v.flights.filter (fun f => v.mayBegin f || (ends && v.mayEnd f))
    if stop v then s
    else
      match l[Config.freeNat s.free % l.length]? with
      | none => s
      | some f => (s.bump.moveFlight vc f).pump vc ends stop n

/-- Some number of starts and ends, as time has passed: a free value. -/
def State.passTime (s : State) (vc : Nat) (ends : Bool) : State :=
  if (s.vc vc).flights.isEmpty then s
  else s.bump.pump vc ends (fun _ => false) (Config.freeNat s.free % (2 * (s.vc vc).flights.length + 1))

/-- The starts and ends that go before a condition holds. -/
def State.pumpUntil (s : State) (vc : Nat) (stop : Vc → Bool) : State :=
  s.pump vc true stop (2 * (s.vc vc).flights.length)

/-- Every pipe that a convoy needs is free in the groups of its slot (R281). -/
def Vc.pipesFree (v : Vc) (slot : Nat) (pipes : List Nat) : Bool :=
  v.flights.all (fun f => !(f.slot == slot && pipes.contains f.pipe))

/-- The array has taken the product of a slot: the one before has left it, with its record (R234). -/
def State.arrayTaken (s : State) (slot : Nat) : State :=
  if (s.vc (vcOf slot)).flights.any (fun f => f.slot == slot && f.pipe == 5 && f.last.isNone) then
    s.pumpUntil (vcOf slot) (fun v => v.flights.all (fun f => !(f.pipe == 5 && f.last.isSome)))
  else s

/-- The members of a slot's convoy have been performed: they end with an event, 1, or 4 at a stop part-way. -/
def State.markFlights (s : State) (slot ev : Nat) : State :=
  if (s.vc (vcOf slot)).flights.isEmpty then s
  else s.modVc (vcOf slot) (fun v => { v with flights := v.flights.map (fun f =>
    if f.slot = slot ∧ f.last = none then { f with last := some ev } else f) })

/-- The pipes and numbers of the members that leave pipe records, FX0 before FX1 (R437). -/
def pipesOf (fx n : Nat) (ms : List (Instr × W32)) : List (Nat × Nat × Instr) :=
  match ms with
  | [] => []
  | (i, _) :: r =>
    match tracePipeNo i with
    | some 2 => (2 + fx, n, i) :: pipesOf 1 (n + 1) r
    | some k => (k, n, i) :: pipesOf fx (n + 1) r
    | none => pipesOf fx (n + 1) r

/-- A member of the current thread enters its VC's trace unit. -/
def State.addFlight (s : State) (pipe mbr : Nat) (i : Instr) : State :=
  let u := s.usesIn i
  s.modVc s.curVc (fun v =>
    { v with
      flightNum := v.flightNum + 1
      flights := v.flights ++ [{
        num := v.flightNum, slot := s.cur, pipe := pipe, mbr := BitVec.ofNat 2 mbr, vw := u.vw, pw := u.pw
        after := (v.flights.filter (fun g =>
          g.slot == s.cur && (rangesClash u.vr g.vw || u.pr.any g.pw.contains))).map (·.num)
        groups := s.th.held.remote ++ s.th.held.loc, vl := s.th.vec.vl
        begun := false, detached := false, last := none }] })

/-- The vector members of an issue (R437). They are followed whether or not records are emitted: TREN, EN and
PIPES count at each event. -/
def State.addFlights (s : State) (ms : List (Instr × W32)) : State :=
  (pipesOf 0 0 ms).foldl (fun u m => u.addFlight m.1 m.2.1 m.2.2) s

/-- The first member in flight of a slot with a number, whose convoy has been performed. -/
def Vc.flight? (v : Vc) (slot : Nat) (mbr : BitVec 2) (detached : Bool) : Option Flight :=
  v.flights.find? (fun f => f.slot == slot && f.mbr == mbr && f.last.isSome && f.detached == detached)

/-- A consumer detaches when its window closes, after it has started and while it waits for a producer (R172,
R437). -/
def State.detachFlight (s : State) (slot : Nat) (mbr : BitVec 2) : State :=
  let vc := vcOf slot
  match (s.vc vc).flight? slot mbr false with
  | none => s
  | some f =>
    let begun := fun (v : Vc) => v.flights.any (fun g => g.num == f.num && g.begun)
    let s1 := (s.passTime vc false).pumpUntil vc begun
    if begun (s1.vc vc) && (s1.vc vc).fed f then
      (s1.tracePipe vc f 2).modFlight vc f.num (fun g => { g with detached := true })
    else s1

/-- A detached consumer restarts once its producers are complete (R172, R283, R437). -/
def State.resumeFlight (s : State) (slot : Nat) (mbr : BitVec 2) : State :=
  let vc := vcOf slot
  match (s.vc vc).flight? slot mbr true with
  | none => s
  | some f => (s.passTime vc true).pumpUntil vc (fun v => !v.fed f)

/-! ### Triggers (R440) -/

/-- A partition's VCs. -/
def State.vcsOf (s : State) (part : Nat) : List Nat :=
  (s.part part).table.tiles.flatMap (fun t => (List.range 31).map (fun k => t * 31 + k))

/-- Fire a trigger with an origin time (R440): a message goes to every VC of the partition. -/
def State.fireTrigger (s : State) (part n time : Nat) : State :=
  (s.vcsOf part).foldl (fun s v => s.modVc v (fun c => { c with trPend := c.trPend ++ [(n, time)] })) s

/-- Fire the triggers of the current thread's partition that a condition selects. -/
def State.fireWhere (s : State) (f : Trigger → Bool) : State :=
  (List.range 4).foldl (fun s n =>
    if f (tget Trigger.reset (s.part s.curPart).triggers n) then
      s.fireTrigger s.curPart n s.hub.ptp else s) s

/-- A convoy at MADDR issues (R440). -/
def State.matchConvoy (s : State) : State :=
  s.fireWhere (fun t => t.men && t.maddr == (s.th.sc.pc >>> 2).setWidth 42)

end Sys2Proof.Machine
end

