-- ==== Sys2Proof/Machine/Flags.lean ====
section
/-!
DEFINITION. Event flags and headroom: merging under R131 to R133, the raised classes of a convoy
(R134), vhr (R135), and the write-back of element results (R185, R186).
-/

namespace Sys2Proof.Machine

open Sys2Proof

/-- What an element computes: its bits, the classes it raises, and the redundant sign bits of the
fixed-point results it writes (R135). -/
structure Res where
  val : Nat
  ev : Nat
  heads : List Nat
  deriving DecidableEq, Repr

/-- Redundant sign bits of the fixed-point results in an element: CLASS 2, and each component of
CLASS 4 (R135, R186). -/
def Vt.headsOf (t : Vt) (v : Nat) : List Nat :=
  if t.cls = 2 then [redundant t.sew v]
  else if t.cls = 4 then [redundant (t.sew / 2) v, redundant (t.sew / 2) (v / 2 ^ (t.sew / 2))]
  else []

/-- A result under vtype, with its headroom. -/
def Vt.res (t : Vt) (o : Out) : Res := { val := o.val, ev := o.ev, heads := t.headsOf o.val }

/-- The union of the classes raised. -/
def raisedOf (l : List (Nat × Nat)) : Nat := l.foldl (fun m r => m ||| r.2) 0

/-- The lowest element that raised class k. -/
def lowestOf (l : List (Nat × Nat)) (k : Nat) : Option Nat :=
  (l.filter (fun r => r.2.testBit k)).foldl
    (fun a r => match a with | none => some r.1 | some x => some (min x r.1)) none

/-- The index register of each class (R132): WSX's index goes to vidx.piv, the lower of the two. -/
def vidxAfter (t : Table (BitVec 13)) (l : List (Nat × Nat)) : Table (BitVec 13) :=
  let put := fun (t : Table (BitVec 13)) (k : Nat) (o : Option Nat) =>
    match o with | some e => tset 0 t k (BitVec.ofNat 13 e) | none => t
  let t1 := (List.range 6).foldl (fun t k => put t k (lowestOf l k)) t
  match lowestOf l 6, lowestOf l 7 with
  | some a, some b => put t1 6 (some (min a b))
  | some a, none => put t1 6 (some a)
  | none, b => put t1 6 b

/-- Merge the classes that elements raised (R132). -/
def State.mergeFlags (s : State) (l : List (Nat × Nat)) : State :=
  let m := raisedOf l
  if m = 0 then s
  else
    ((s.modFl (fun f =>
      { f with vflg := f.vflg ||| BitVec.ofNat 8 m, vflgpc := s.th.sc.pc,
               vidx := vidxAfter f.vidx l })).dirtyFlg).modCv
      (fun c => { c with raised := c.raised ||| BitVec.ofNat 8 m
                         raisers := c.raisers ++ [(c.mbr, BitVec.ofNat 8 m)] })

/-- Fold counts of redundant sign bits into vhr (R135). -/
def State.foldHead (s : State) (l : List Nat) : State :=
  match l with
  | [] => s
  | _ =>
    (s.modFl (fun f => { f with vhr := BitVec.ofNat 6 (l.foldl min f.vhr.toNat) })).dirtyFlg

/-- Flags and headroom of a set of element results. -/
def State.account (s : State) (rs : List (Nat × Res)) : State :=
  (s.mergeFlags (rs.map (fun r => (r.1, r.2.ev)))).foldHead
    (rs.foldl (fun l r => l ++ r.2.heads) [])

/-- Write results to elements of a group, with their flags and headroom (R185, R186). -/
def State.writeElems (s : State) (d : BitVec 5) (rs : List (Nat × Res)) : State :=
  (rs.foldl (fun t r => t.putElem d r.1 r.2.val) s).account rs

/-- Compute and write every element to be performed: sources are read before anything is written. -/
def State.mapElems (s : State) (d p : BitVec 5) (f : Nat → Res) : State :=
  s.writeElems d ((s.todo p).map (fun e => (e, f e)))

/-- The checks of every vector member of group V that R184 gives: the SC and ABSENT, the register
groups, then the type. -/
def vectorChecks (regs : List (BitVec 5)) (types : Vt → Bool) : M Vt := do
  vectorGate
  needGroups regs
  let t := (← get).vt
  need (types t)
  pure t

/-- CLASS is one of a list. -/
def Vt.isIn (l : List Nat) (t : Vt) : Bool := l.contains t.cls

/-- Write bits of a predicate: those of the given elements, the rest below vl unchanged, bits vl and
above cleared (R189, R357). -/
def State.writePred (s : State) (d : Nat) (bits : List (Nat × Bool)) : State :=
  let old := s.pred d
  let kept := old.toNat % 2 ^ s.vl
  let x := bits.foldl (fun x b =>
    let x0 := if x.testBit b.1 then x - 2 ^ b.1 else x
    if b.2 then x0 + 2 ^ b.1 else x0) kept
  s.setPred d (BitVec.ofNat 4096 x)

end Sys2Proof.Machine
end

