-- ==== Sys2Proof/Machine/Csr.lean ====
section
/-!
DEFINITION. The CSRs: numbers, maps and access codes (R58, R103 to R110, R39, R49, R54, R313, R326,
R327, R426), the value rules of each register, and the CSR instructions (R314, R315).
-/

namespace Sys2Proof.Machine

open Sys2Proof

/-! ### Access codes -/

/-- Writable bits of a CSR by access code (R5): RW, RWL, RWS. -/
structure CsrMap where
  rw : Nat
  rwl : Nat
  rws : Nat
  deriving DecidableEq, Repr

def CsrMap.ro : CsrMap := { rw := 0, rwl := 0, rws := 0 }
def CsrMap.ofRw (m : Nat) : CsrMap := { rw := m, rwl := 0, rws := 0 }
def CsrMap.ofRwl (m : Nat) : CsrMap := { rw := 0, rwl := m, rws := 0 }
def CsrMap.ofRws (m : Nat) : CsrMap := { rw := 0, rwl := 0, rws := m }
def CsrMap.writable (m : CsrMap) : Nat := m.rw ||| m.rwl ||| m.rws

/-- The defined CSRs and their access codes; none for a number that no chapter defines (R110). -/
def csrMap (n : Nat) : Option CsrMap :=
  if n = 0x000 then some (.ofRwl 0x1FFF)
  else if n = 0x001 then some (.ofRwl 0x7FFFFF)
  else if n = 0x002 then some .ro
  else if 0x004 ≤ n ∧ n ≤ 0x00B then some (.ofRwl 0x1FFF)
  else if n = 0x00C then some (.ofRws 0x10F)
  else if n = 0x00D then some .ro
  else if n = 0x00E then some (.ofRwl 0xFFF)
  else if n = 0x00F then some (.ofRwl (2 ^ 64 - 1))
  else if n = 0x010 then some (.ofRw 0xFFFFFFFF)
  else if n = 0x011 then some (.ofRw 0xFF)
  else if n = 0x012 then some (.ofRw (2 ^ 64 - 1))
  else if n = 0x013 then some (.ofRw 0xFF)
  else if 0x014 ≤ n ∧ n ≤ 0x01A then some (.ofRw 0x1FFF)
  else if n = 0x01B then some (.ofRw 0x3F)
  else if n = 0x01C ∨ n = 0x01D then some (.ofRw 0xFFFFFFFF)
  else if n = 0x020 then some (.ofRwl 0x800000000003FFFF)
  else if n = 0x021 then some (.ofRws 0xFFFF7FFF)
  else if n = 0x030 then some (.ofRw 0x1FFFFFFFFFF)
  else if 0x050 ≤ n ∧ n ≤ 0x052 then some .ro
  else if 0x100 ≤ n ∧ n ≤ 0x10F then some (.ofRwl 0xFFFF)
  else if n = 0x110 then some (.ofRwl (2 ^ 64 - 1))
  else if n = 0x111 then some (.ofRwl 0x3FF)
  else if n = 0x112 then some (.ofRwl (2 ^ 64 - 1))
  else if n = 0x113 then some (.ofRwl 0xFFFF01FF)
  else if n = 0x114 then some (.ofRws (2 ^ 64 - 2 ^ 6))
  else if 0x115 ≤ n ∧ n ≤ 0x118 then some (.ofRwl (2 ^ 64 - 1))
  else if n = 0x119 then some (.ofRwl (2 ^ 63 + 0x3FFFFFFFF))
  else if n = 0x11A then some (.ofRwl 7)
  else if n = 0x11B then some (.ofRwl 0xFFFF)
  else if n = 0x11C then some (.ofRws (2 ^ 64 - 2 ^ 12))
  else if n = 0x200 then some (.ofRws 0xFFFFFF8FFF)
  else if n = 0x201 then some (.ofRws (0x3FFF + (2 ^ 60 - 2 ^ 18)))
  else if n = 0x202 then some (.ofRws 0x3FFFFFF)
  else if n = 0x203 then some (.ofRws 0xFFF)
  else if n = 0x204 then some .ro
  else if n = 0x205 then some (.ofRws (2 ^ 64 - 2 ^ 6))
  else if n = 0x206 then some .ro
  else if n = 0x210 then some (.ofRwl 0x1FFF)
  else if n = 0x211 then some (.ofRwl (2 ^ 64 - 4))
  else if 0x212 ≤ n ∧ n ≤ 0x217 then some (.ofRwl (2 ^ 64 - 2 ^ 16 + 0x7FF))
  else if 0x218 ≤ n ∧ n ≤ 0x21D then some (.ofRwl (2 ^ 64 - 1))
  else none

/-- Numbers that U mode cannot reach (R109, R315). -/
def csrHidden (n : Nat) : Bool := decide (0x110 ≤ n ∧ n ≤ 0x11C ∨ 0x200 ≤ n)

/-- CSRs of the vector side: not reached on the SC but for vgcap and acfg (R404), and trapping VFIRST
from U mode while ABSENT is 1 (R406). -/
def csrVector (n : Nat) : Bool := decide (n ≤ 0x021 ∨ 0x100 ≤ n ∧ n ≤ 0x10F)

/-! ### Reading -/

def bit (b : Bool) (k : Nat) : Nat := if b then 2 ^ k else 0

/-- lnctl (R313). -/
def Nest.ctl (n : Nest) : Nat :=
  bit n.open_ 0 + bit n.armed 1 + n.nlev.toNat * 4 + n.blen.toNat * 32 + n.pos.toNat * 512

/-- lnlev (R313). -/
def NestLevel.word (l : NestLevel) : Nat :=
  l.creg.toNat + l.areg.toNat * 32 + bit l.drain 10 + l.inc.toNat * 2 ^ 16

/-- estat (R109). -/
def Estat.word (e : Estat) : Nat :=
  e.mbr.toNat + e.nmbr.toNat * 4 + bit e.vpart 4 + bit e.mpart 5 + bit e.qfull 6 + bit e.pfw 7 +
    bit e.qoff 8 + e.node.toNat * 2 ^ 16

/-- fqcfg and prqcfg (R49, R426). -/
def ringCfg (tile : BitVec 4) (base : BitVec 18) (log : BitVec 4) : Nat :=
  tile.toNat + base.toNat * 16 + log.toNat * 2 ^ 22

/-- The value of a CSR of the current thread, reserved bits zero (R314). -/
def State.csr (s : State) (n : Nat) : Nat :=
  let t := s.th
  let p := s.part s.curPart
  if n = 0x000 then t.vec.vl.toNat
  else if n = 0x001 then t.vec.vtype.toNat
  else if n = 0x002 then s.vlmax
  else if 0x004 ≤ n ∧ n ≤ 0x00B then (tget 0 t.vec.vstart (n - 0x004)).toNat
  else if n = 0x00C then t.held.cap.toNat + bit t.held.yreq 8 + t.held.pwr.toNat * 2 ^ 16
  else if n = 0x00D then
    t.held.loc.toNat + t.held.remote.toNat * 16 + t.held.count * 256 + t.held.pvc.toNat * 2 ^ 16
  else if n = 0x00E then t.vec.chSlot.toNat + bit t.vec.chBound 10 + bit t.vec.chFinal 11
  else if n = 0x00F then t.vec.vcur.toNat
  else if n = 0x010 then t.vec.vkeep.toNat
  else if n = 0x011 then t.fl.vflg.toNat
  else if n = 0x012 then t.fl.vflgpc.toNat
  else if n = 0x013 then t.fl.vtrapen.toNat
  else if 0x014 ≤ n ∧ n ≤ 0x01A then (tget 0 t.fl.vidx (n - 0x014)).toNat
  else if n = 0x01B then t.fl.vhr.toNat
  else if n = 0x01C then t.fl.vpthr.toNat
  else if n = 0x01D then t.fl.vlam.toNat
  else if n = 0x020 then t.fl.mpK.toNat + t.fl.mpRow.toNat * 2 ^ 13 + bit t.fl.mpAct 63
  else if n = 0x021 then t.fl.cbase.toNat + t.fl.csize.toNat * 2 ^ 16
  else if n = 0x030 then t.fl.l2thr.toNat + bit t.fl.l2stna 40
  else if n = 0x050 then s.tid.toNat
  else if n = 0x051 then t.id.job.toNat
  else if n = 0x052 then t.id.deadline.toNat
  else if 0x100 ≤ n ∧ n ≤ 0x10F then (tget 0 (s.vc s.curVc).aown (n - 0x100)).toNat
  else if n = 0x110 then t.tr.epc.toNat
  else if n = 0x111 then t.tr.cause.toNat + t.tr.lvl.toNat * 256
  else if n = 0x112 then t.tr.val.toNat
  else if n = 0x113 then t.tr.estat.word
  else if n = 0x114 then t.tr.tvec.toNat * 64
  else if 0x115 ≤ n ∧ n ≤ 0x118 then (tget 0 t.tr.escx (n - 0x115)).toNat
  else if n = 0x119 then
    t.tr.dReg.toNat + bit t.tr.dCfg 32 + bit t.tr.dFlg 33 + bit t.tr.absent 63
  else if n = 0x11A then t.tr.dPred.toNat
  else if n = 0x11B then t.tr.ctag.toNat
  else if n = 0x11C then t.tr.vsave.toNat * 2 ^ 12
  else if n = 0x200 then t.tr.asid.toNat + t.tr.root.toNat * 2 ^ 15
  else if n = 0x201 then
    p.invScope.toNat + p.invAsid.toNat * 4 + p.invVa.toNat * 2 ^ 18 + bit p.invBusy 63
  else if n = 0x202 then ringCfg p.fqTile p.fqBase p.fqLog
  else if n = 0x203 then p.fqHead.toNat
  else if n = 0x204 then p.fqTail.toNat
  else if n = 0x205 then p.stvec.toNat * 64
  else if n = 0x206 then ringCfg p.prqTile p.prqBase p.prqLog
  else if n = 0x210 then t.nest.ctl
  else if n = 0x211 then t.nest.body.toNat * 4
  else if 0x212 ≤ n ∧ n ≤ 0x217 then (t.nest.level (n - 0x212)).word
  else if 0x218 ≤ n ∧ n ≤ 0x21D then (tget 0 t.nest.init (n - 0x218)).toNat
  else 0

/-! ### Registers with rules of their own -/

/-- The contents of registers are not promised: free values (R351, R353). -/
def State.forget (s : State) (rs : List Nat) : State :=
  rs.foldl (fun s r =>
    (s.modVec (fun v => { v with v := tset 0 v.v r (Config.freeReg s.free) })).bump) s

/-- Write vtype with a legal value (R104, R351): on a change of NREG the registers' contents are not
promised and vkeep loses the bits at or above the new NREG. -/
def State.setVtype (s : State) (x : Nat) : State :=
  let t := vtOf x
  let s1 := (s.modVec (fun v => { v with vtype := BitVec.ofNat 23 x })).dirtyCfg
  if t.nregE = s.vt.nregE then s1
  else
    (s1.modVec (fun v => { v with vkeep := BitVec.ofNat 32 (v.vkeep.toNat % 2 ^ t.nreg) })).forget
      (List.range 32)

/-- A vtype value may be written: legal, with vl within its VLMAX (R104, R351). -/
def State.vtypeOk (s : State) (x : Nat) : Bool :=
  legalVtype x && decide (s.vl ≤ vlmaxOf (vtOf x) s.lg)

/-- vgcap.CAP after a write of a field value (R105). -/
def capAfter (old : BitVec 4) (x : Nat) : BitVec 4 :=
  if 1 ≤ x % 16 ∧ x % 16 ≤ 8 then BitVec.ofNat 4 x else old

/-- Write vgcap's CAP and YREQ (R105). -/
def Held.write (h : Held) (x : Nat) : Held := { h with cap := capAfter h.cap x, yreq := x.testBit 8 }

/-- Write acfg, or leave it when the value breaks R107. -/
def Flags.writeAcfg (f : Flags) (x : Nat) : Flags :=
  let b := bitsAt 15 0 x
  let z := bitsAt 16 16 x
  if b % 64 ≠ 0 ∨ 32768 < b + z then f
  else { f with cbase := BitVec.ofNat 15 b, csize := BitVec.ofNat 16 z }

/-- Record the owner of a tile, and the function of the context that made it the owner (R74). -/
def Vc.markOwner (v : Vc) (t : Nat) (o : BitVec 16) (vf : BitVec 9) : Vc :=
  { v with aown := tset 0 v.aown t o, aownVf := if o = 0#16 then terase v.aownVf t else tset 0 v.aownVf t vf }

/-- Write aown of a tile of a VC, by a context of a function: a change of its value zeroes the tile
(R74). -/
def Vc.setOwner (v : Vc) (t : Nat) (o : BitVec 16) (vf : BitVec 9) : Vc :=
  if tget 0 v.aown t = o then v.markOwner t o vf
  else { v.markOwner t o vf with acc := terase v.acc t,
                                 accPoison := v.accPoison.filter (fun w => decide (w / 512 ≠ t)) }

/-- The thread slots of a VC. -/
def slotsOfVc (vc : Nat) : List Nat := [4 * vc, 4 * vc + 1, 4 * vc + 2, 4 * vc + 3]

/-- A tile is held by a matrix instruction of another slot, running or queued (R234, R238). -/
def State.tileBusy (s : State) (slot : Nat) (t : BitVec 4) : Bool :=
  (match (s.vc (vcOf slot)).array with
    | some (o, u) => decide (o ≠ slot ∧ u = t)
    | none => false) ||
  (slotsOfVc (vcOf slot)).any (fun n =>
    decide (n ≠ slot) && (s.thread n).hw.wait == some (.arrayQueue t))

/-- A fault queue's settings after a write of fqcfg: a change sets TAIL to HEAD (R51). -/
def Part.writeFqcfg (p : Part) (x : Nat) : Part :=
  let tile := BitVec.ofNat 4 x
  let base := BitVec.ofNat 18 (x / 16)
  let log := BitVec.ofNat 4 (x / 2 ^ 22)
  let same := decide (tile = p.fqTile ∧ base = p.fqBase ∧ log = p.fqLog)
  { p with fqTile := tile, fqBase := base, fqLog := log, fqTail := if same then p.fqTail else p.fqHead }

/-- fqhead after a write (R49): the value modulo the capacity; a disabled queue keeps its HEAD as
written. -/
def Part.writeFqhead (p : Part) (x : Nat) : Part :=
  { p with fqHead := BitVec.ofNat 12 (if p.fqOn then x % 4096 % p.fqCap else x) }

/-- A stopped engine command after a write of fqhead (R95): runnable again when its entry is consumed,
or, stopped on a full queue, at any change. -/
def Cmd.afterHead (before after : Part) (c : Cmd) : Cmd :=
  match c.faulted with
  | some (some n) =>
    if before.fqSlots.contains n && !after.fqSlots.contains n then { c with faulted := none } else c
  | some none => if before.fqHead = after.fqHead then c else { c with faulted := none }
  | none => c

/-- Write fqhead of a partition (R49, R95). -/
def State.writeFqhead (s : State) (part x : Nat) : State :=
  let p := s.part part
  let q := p.writeFqhead x
  { s.modPart part (fun _ => q) with
    engines := s.engines.map (fun e => (e.1, e.2.map (fun c =>
      if (s.vf c.vf.toNat).part.toNat = part then c.afterHead p q else c))) }

/-- Start a stage-1 invalidation (R54): the fields are kept and BUSY reads 1. One register per partition, with
the function of the context that wrote it (log entry 115). -/
def Part.writeInv (p : Part) (vf : BitVec 9) (x : Nat) : Part :=
  { p with invVf := vf, invScope := BitVec.ofNat 2 x, invAsid := BitVec.ofNat 12 (x / 4),
           invVa := BitVec.ofNat 42 (x / 2 ^ 18), invBusy := true }

/-- lnctl after a write (R313): a bad value closes the nest; the loop buffer is to be discarded. -/
def Nest.writeCtl (n : Nest) (x : Nat) : Nest :=
  let armed := x.testBit 1
  let nlev := bitsAt 3 2 x
  let blen := bitsAt 4 5 x
  let pos := bitsAt 4 9 x
  let bad := decide (6 < nlev ∨ blen < pos ∨ armed = true ∧ nlev = 0)
  { n with open_ := x.testBit 0 && !bad, armed := armed, nlev := BitVec.ofNat 3 nlev,
           blen := BitVec.ofNat 4 blen, pos := BitVec.ofNat 4 pos, stale := true }

def NestLevel.ofWord (x : Nat) : NestLevel :=
  { creg := BitVec.ofNat 5 x, areg := BitVec.ofNat 5 (x / 32), drain := x.testBit 10,
    inc := BitVec.ofNat 48 (x / 2 ^ 16) }

def Estat.ofWord (x : Nat) : Estat :=
  { mbr := BitVec.ofNat 2 x, nmbr := BitVec.ofNat 2 (x / 4), vpart := x.testBit 4,
    mpart := x.testBit 5, qfull := x.testBit 6, pfw := x.testBit 7, qoff := x.testBit 8,
    node := BitVec.ofNat 16 (x / 2 ^ 16) }

/-! ### Writing -/

/-- The check of R315 step 5 that traps ILLOP: vl above VLMAX, an illegal vtype, s1inv while busy. -/
def State.csrValueOk (s : State) (n x : Nat) : Bool :=
  if n = 0x000 then decide (x ≤ s.vlmax)
  else if n = 0x001 then s.vtypeOk x
  else if n = 0x201 then !(s.part s.curPart).invBusy
  else true

/-- Write a value, with read-only bits as before, to a CSR of the current thread (R315 step 5), with
its dirty bits (R109). -/
def State.csrSet (s : State) (n x : Nat) : State :=
  if n = 0x000 then s.setVl x
  else if n = 0x001 then s.setVtype x
  else if 0x004 ≤ n ∧ n ≤ 0x00B then
    (s.modVec (fun v => { v with vstart := tset 0 v.vstart (n - 0x004) (BitVec.ofNat 13 x) })).dirtyCfg
  else if n = 0x00C then s.modHeld (fun h => h.write x)
  else if n = 0x00E then
    (s.modVec (fun v => { v with chSlot := BitVec.ofNat 10 x, chBound := x.testBit 10,
                                 chFinal := x.testBit 11 })).dirtyCfg
  else if n = 0x00F then (s.modVec (fun v => { v with vcur := BitVec.ofNat 64 x })).dirtyCfg
  else if n = 0x010 then
    (s.modVec (fun v => { v with vkeep := BitVec.ofNat 32 (x % 2 ^ s.vt.nreg) })).dirtyCfg
  else if n = 0x011 then (s.modFl (fun f => { f with vflg := BitVec.ofNat 8 x })).dirtyFlg
  else if n = 0x012 then (s.modFl (fun f => { f with vflgpc := BitVec.ofNat 64 x })).dirtyFlg
  else if n = 0x013 then s.modFl (fun f => { f with vtrapen := BitVec.ofNat 8 x })
  else if 0x014 ≤ n ∧ n ≤ 0x01A then
    (s.modFl (fun f => { f with vidx := tset 0 f.vidx (n - 0x014) (BitVec.ofNat 13 x) })).dirtyFlg
  else if n = 0x01B then (s.modFl (fun f => { f with vhr := BitVec.ofNat 6 x })).dirtyFlg
  else if n = 0x01C then s.modFl (fun f => { f with vpthr := BitVec.ofNat 32 x })
  else if n = 0x01D then s.modFl (fun f => { f with vlam := BitVec.ofNat 32 x })
  else if n = 0x020 then
    s.modFl (fun f => { f with mpK := BitVec.ofNat 13 x, mpRow := BitVec.ofNat 5 (x / 2 ^ 13),
                               mpAct := x.testBit 63 })
  else if n = 0x021 then s.modFl (fun f => f.writeAcfg x)
  else if n = 0x030 then
    s.modFl (fun f => { f with l2thr := BitVec.ofNat 40 x, l2stna := x.testBit 40 })
  else if 0x100 ≤ n ∧ n ≤ 0x10F then
    s.modVc s.curVc (fun v => v.setOwner (n - 0x100) (BitVec.ofNat 16 x) s.th.id.vf)
  else if n = 0x110 then s.modTr (fun t => { t with epc := BitVec.ofNat 64 x })
  else if n = 0x111 then
    s.modTr (fun t => { t with cause := BitVec.ofNat 8 x, lvl := BitVec.ofNat 2 (x / 256) })
  else if n = 0x112 then s.modTr (fun t => { t with val := BitVec.ofNat 64 x })
  else if n = 0x113 then s.modTr (fun t => { t with estat := Estat.ofWord x })
  else if n = 0x114 then s.modTr (fun t => { t with tvec := BitVec.ofNat 58 (x / 64) })
  else if 0x115 ≤ n ∧ n ≤ 0x118 then
    s.modTr (fun t => { t with escx := tset 0 t.escx (n - 0x115) (BitVec.ofNat 64 x) })
  else if n = 0x119 then
    s.modTr (fun t => { t with dReg := BitVec.ofNat 32 x, dCfg := x.testBit 32, dFlg := x.testBit 33,
                               absent := x.testBit 63 })
  else if n = 0x11A then s.modTr (fun t => { t with dPred := BitVec.ofNat 3 x })
  else if n = 0x11B then s.modTr (fun t => { t with ctag := BitVec.ofNat 16 x })
  else if n = 0x11C then s.modTr (fun t => { t with vsave := BitVec.ofNat 52 (x / 2 ^ 12) })
  else if n = 0x200 then
    s.modTr (fun t => { t with asid := BitVec.ofNat 12 x, root := BitVec.ofNat 25 (x / 2 ^ 15) })
  else if n = 0x201 then s.modPart s.curPart (fun p => p.writeInv s.th.id.vf x)
  else if n = 0x202 then s.modPart s.curPart (fun p => p.writeFqcfg x)
  else if n = 0x203 then s.writeFqhead s.curPart x
  else if n = 0x205 then s.modPart s.curPart (fun p => { p with stvec := BitVec.ofNat 58 (x / 64) })
  else if n = 0x210 then s.modNest (fun t => t.writeCtl x)
  else if n = 0x211 then s.modNest (fun t => { t with body := BitVec.ofNat 62 (x / 4), stale := true })
  else if 0x212 ≤ n ∧ n ≤ 0x217 then
    s.modNest (fun t => { t with lev := tset NestLevel.reset t.lev (n - 0x212) (NestLevel.ofWord x) })
  else if 0x218 ≤ n ∧ n ≤ 0x21D then
    s.modNest (fun t => { t with init := tset 0 t.init (n - 0x218) (BitVec.ofNat 64 x) })
  else s

/-- What a CSR instruction writes, from the old value (R314): none, s[a], or bits set or cleared. -/
inductive CsrOp where
  | none
  | write (x : Nat)
  | set (x : Nat)
  | clear (x : Nat)
  deriving DecidableEq, Repr

/-- The value after an operation on 64 bits. -/
def CsrOp.value (o : CsrOp) (old : Nat) : Option Nat :=
  match o with
  | .none => Option.none
  | .write x => some x
  | .set x => some (old ||| x)
  | .clear x => some (old - (old &&& x))

/-- The checks of R315 steps 1 to 4 and R406, in order, and the value to be written. -/
def csrCheck (n : Nat) (o : CsrOp) : M (Nat × Option Nat) := do
  let s ← get
  match csrMap n with
  | none => illop
  | some m =>
    if s.th.sc.mode = .U && csrHidden n then privTrap
    if s.th.sc.mode = .S && csrVector n && n != 0x00C && n != 0x021 then illop
    let old := s.csr n
    match o.value old with
    | none =>
      if s.th.sc.mode = .U && s.th.tr.absent && csrVector n then trap Cause.vfirst s.evalWord
      pure (old, none)
    | some x =>
      if m.writable = 0 then illop
      let diff := old ^^^ x
      if s.th.sc.mode = .U && diff &&& (m.rwl ||| m.rws) != 0 then privTrap
      if s.th.sc.mode = .L && diff &&& m.rws != 0 then privTrap
      if s.th.sc.mode = .U && s.th.tr.absent && csrVector n then trap Cause.vfirst s.evalWord
      pure (old, some ((old &&& (2 ^ 64 - 1 - m.writable)) ||| (x &&& m.writable)))

/-- A CSR instruction (R314, R315). A write of aown waits while another slot's matrix instruction
holds the tile (R238). -/
def State.csrAccess (s : State) (d : BitVec 5) (n : Nat) (o : CsrOp) :
    Host.Outcome State Fault Refusal :=
  s.conclude (do
    let (old, new) ← csrCheck n o
    match new with
    | none => modify (fun t => t.wr d (BitVec.ofNat 64 old))
    | some x =>
      need (s.csrValueOk n x)
      if 0x100 ≤ n ∧ n ≤ 0x10F then
        if s.tileBusy s.cur (BitVec.ofNat 4 n) then waitFor (.tileHeld (BitVec.ofNat 4 n))
      modify (fun t => (t.csrSet n x).wr d (BitVec.ofNat 64 old)))

def execCsrr (d : BitVec 5) (csr : BitVec 12) (s : State) : Host.Outcome State Fault Refusal :=
  s.csrAccess d csr.toNat .none
def execCsrw (d a : BitVec 5) (csr : BitVec 12) (s : State) : Host.Outcome State Fault Refusal :=
  s.csrAccess d csr.toNat (.write (s.rd a).toNat)
def execCsrs (d a : BitVec 5) (csr : BitVec 12) (s : State) : Host.Outcome State Fault Refusal :=
  s.csrAccess d csr.toNat (if a = 0#5 then .none else .set (s.rd a).toNat)
def execCsrc (d a : BitVec 5) (csr : BitVec 12) (s : State) : Host.Outcome State Fault Refusal :=
  s.csrAccess d csr.toNat (if a = 0#5 then .none else .clear (s.rd a).toNat)

end Sys2Proof.Machine
end

