-- ==== Sys2Proof/Machine/Access.lean ====
section
/-!
DEFINITION. The scalar accesses of the current thread: loads and stores (R304, R305), atomics at the
home (R306, R307, R271), and the waits that acquires and releases place (R268).
-/

namespace Sys2Proof.Machine

open Sys2Proof

/-- Pending lines of the L2 set of a location (R276): those at the home, and those that owner stores on
their way in the buffers and trains of any thread of the package are about to make. -/
def State.pendingLines (s : State) (loc : Nat) : List Nat :=
  let of := fun (t : Thread) =>
    t.hw.buf.flatMap (fun e => (e.writes.map (·.1)).filter (fun l => s.inSharing l e.kid)) ++
      t.hw.trains.flatMap (fun x => if x.arrived then [] else
        (x.elems.map (·.1)).filter (fun l => s.inSharing l x.kid))
  s.sameSet loc (s.mem.pending.map (·.1) ++ of s.th ++ s.slots.flatMap (fun e => of e.2))

/-- The owner writes of an instruction would give an L2 set a fifth pending line (R276, log entry 117). -/
def State.noRoom (s : State) (ps : List Phys) : Bool :=
  let mine := ps.filter (fun p => s.inSharing p.loc p.kid)
  mine.any (fun p =>
    decide (4 < (s.sameSet p.loc (mine.map (·.loc)) ++ s.pendingLines p.loc).eraseDups.length))

/-- Owner stores wait for a WINPUB (R276): they would give a set a fifth pending line, and lines are pending there
that one can publish. The stores of an instruction whose own lines are more than four then enter the buffer, which
drains them as room comes (log entry 117). -/
def State.storeWaits (s : State) (ps : List Phys) : Bool :=
  let mine := ps.filter (fun p => s.inSharing p.loc p.kid)
  s.noRoom ps && mine.any (fun p => !(s.pendingLines p.loc).isEmpty)

/-- An owner store waits while its line would be the fifth pending one of its set (R276). -/
def storeRoom (ps : List Phys) : M Unit := do
  if (← get).storeWaits ps then waitFor .pendingLine

/-- The same for writes that are performed at once. -/
def pendingRoom (ps : List Phys) : M Unit := do
  if (← get).noRoom ps then waitFor .pendingLine

/-- Load n bytes at an address of the current thread (R305). -/
def loadScalar (va : W64) (n : Nat) : M Nat := do
  checkAlign va n
  checkLock va n false
  let p ← translateScalar .load va n
  let bs ← readBytes va p n
  pure (leNat bs)

/-- Store the n low bytes of a value through the store buffer (R305). -/
def storeScalar (va : W64) (n : Nat) (v : Nat) : M Unit := do
  checkAlign va n
  checkLock va n true
  let p ← translateScalar .store va n
  storeRoom [p]
  modify (fun s => s.pushScalar (writesOf p.loc (leBytes n v)) p.kid false)

/-- A far atomic meets a word that a failed check stopped, under the key that failed: it takes the failure
itself, as a load does, and is not refused (R29). -/
def State.atomicStopped (s : State) (va : W64) : Bool :=
  match s.walk s.ctx .load va with
  | .ok x => x.entry.any (fun e => e.perm.getLsbD 1 && s.keyRefused e.st2) && s.poisoned x.phys.loc 1
  | .error _ => false

/-- Translate an atomic's place: it needs both R and W (R306); one that the twin refuses permission-faults
(R419). -/
def translateAtomic (va : W64) (n : Nat) : M Phys := do
  let s ← get
  match s.walk s.ctx .load va with
  | .error .perm => trap Cause.perm va
  | _ =>
    match ← resolveNow s.scalarPlaces .store va with
    | .error f =>
      if f = .perm ∧ s.atomicStopped va then trap Cause.macfail va
      faultTrap [(va, .store, f)]
    | .ok x =>
      checkHome va x.phys n
      let u ← get
      if isTwin x.phys.loc then
        set u.bump
        if u.twinFails then trap Cause.perm va
      pure x.phys

/-- Replace n bytes at a home by a function of them, with no access between, and give the old value
(R307). The store buffer has drained (R271). -/
def atomicNow (p : Phys) (n : Nat) (f : Nat → Nat) : M Nat := do
  let s := (← get).claim p.loc p.kid
  let old := leNat (s.homeBytes p n)
  set (s.storeHome p.kid none (fun _ => .age 0) (writesOf p.loc (leBytes n (f old))))
  pure old

/-- The waits of writes at their homes before any is performed (R52, R247, R276, R278): places and their
lengths. -/
def homeWaits (ps : List (Phys × Nat)) : M Unit := do
  let s ← get
  let rs := ps.map (fun p => (p.1.loc, p.2))
  if rs.any (fun r => s.writeHeld (some s.cur) r.1 r.2) then
    set (s.callBack rs)
    waitFor .line
  pendingRoom (ps.map (·.1))

/-- The same for atomics of n bytes. -/
def atomicWaits (ps : List Phys) (n : Nat) : M Unit := homeWaits (ps.map (fun p => (p, n)))

/-- An atomic at a home: its waits, then the replacement. -/
def atomicAt (p : Phys) (n : Nat) (f : Nat → Nat) : M Nat := do
  atomicWaits [p] n
  atomicNow p n f

/-- The operations of AMO and VAMO on w-bit values (R142, R306): add, and, or, xor, min, max, minn,
maxn, swap, cas. -/
def amoNew (op w old src cmp : Nat) : Nat :=
  if op = 0 then (old + src) % 2 ^ w
  else if op = 1 then old &&& src
  else if op = 2 then old ||| src
  else if op = 3 then old ^^^ src
  else if op = 4 then (if sextN w old ≤ sextN w src then old else src)
  else if op = 5 then (if sextN w old < sextN w src then src else old)
  else if op = 6 then min old src
  else if op = 7 then max old src
  else if op = 8 then src
  else if old = cmp then src else old

/-- AMO's access (R306): alignment, locks, translation, drain, then the operation at the home. -/
def atomicScalar (va : W64) (n : Nat) (rel : Bool) (f : Nat → Nat) : M Nat := do
  checkAlign va n
  checkLock va n true
  let p ← translateAtomic va n
  drainBuffer
  if rel then awaitTrains
  modify (fun s => s.claim p.loc p.kid)
  if (← get).poisoned p.loc n then trap Cause.macfail va
  atomicAt p n f

end Sys2Proof.Machine
end

