-- ==== Sys2Proof/Machine/Graph.lean ====
section
/-!
DEFINITION. The command graph (R88 to R92), jobs and their settlement (R338, R339, R363, R364, R371,
R374), groups (R331 to R336), leaving a thread slot (R321, R336, R339).
-/

namespace Sys2Proof.Machine

open Sys2Proof

/-! ### Nodes -/

/-- The node of an identifier tile:slot (R88). -/
def State.node (s : State) (id : BitVec 16) : Node :=
  tget Node.reset (s.tile (id.toNat / 4096)).nodes (id.toNat % 4096)

def State.modNode (s : State) (id : BitVec 16) (f : Node → Node) : State :=
  s.modTile (id.toNat / 4096) (fun t =>
    let k := id.toNat % 4096
    { t with nodes := tset Node.reset t.nodes k (f (tget Node.reset t.nodes k)) })

/-- A node identifier whose tile lies in a partition (R88). -/
def State.nodeIn (s : State) (part : Nat) (id : BitVec 16) : Bool :=
  (s.part part).table.tiles.contains (id.toNat / 4096)

def Node.finished (n : Node) : Bool := n.st == .done || n.st == .error || n.st == .cancelled

/-- The node holds an unfinished command or job (R90). -/
def Node.holds (n : Node) : Bool := n.st == .pending || n.st == .launched || n.st == .running

/-- STATE of the node word (R245). -/
def NodeState.code : NodeState → Nat
  | .free => 0
  | .reserved => 1
  | .pending => 2
  | .launched => 3
  | .running => 4
  | .done => 5
  | .error => 6
  | .cancelled => 7

/-- The node word (R245). -/
def Node.word (n : Node) : Nat :=
  (if n.finished then n.status % 16 else 0) + n.st.code * 16 + n.count % 2 ^ 16 * 2 ^ 16

/-- Release the range locks of a command (R92 step 4). -/
def State.releaseLocks (s : State) (cmd : Nat) : State :=
  let keep := fun (l : Lock) => decide (l.cmd ≠ cmd) || l.window.isSome
  { s with tiles := s.tiles.map (fun e => (e.1, { e.2 with locks := e.2.locks.filter keep })) }

/-- Take a command out of its engine's queue. -/
def State.dropCmd (s : State) (cmd : Nat) : State :=
  let es := s.engines.map (fun e => (e.1, e.2.filter (fun c => decide (c.id ≠ cmd))))
  { s with engines := es.filter (fun e => decide (e.2 ≠ [])) }

/-! ### Job descriptors (R360, R361) -/

def Job.field (j : Job) (lo n : Nat) : Nat := leNat ((j.desc.drop lo).take n)
def Job.entry (j : Job) : Nat := j.field 0 8
def Job.arg (j : Job) (k : Nat) : Nat := j.field (8 + 8 * k) 8
def Job.ctl (j : Job) : Nat := j.field 64 8
def Job.cls (j : Job) : Nat := j.ctl % 4
def Job.lgs (j : Job) : Nat := j.ctl / 4 % 16
def Job.aff (j : Job) : Nat := j.ctl / 256 % 2 ^ 16
def Job.vtypeWord (j : Job) : Nat := j.field 72 4
def Job.cwa (j : Job) : Nat := j.field 80 8
/-- Abandon targets: address, length, marker (R360). -/
def Job.target (j : Job) (k : Nat) : Nat × Nat × Nat :=
  if k = 0 then (j.field 88 8, j.field 96 4, j.field 104 8)
  else (j.field 112 8, j.field 100 4, j.field 120 8)

/-- A job waits for a slot: READY, or RUNNING with a context to resume (R364, R414). -/
def Job.waiting (j : Job) : Bool :=
  j.live && (j.st == .ready || (j.st == .running && j.resume.isSome && j.slot.isNone))

/-- The dispatch queue of a job: VF × 4 + class (R366). -/
def Job.queue (j : Job) : Nat := j.vf.toNat * 4 + j.cls

/-- The deficit of an empty queue is 0 (R366). -/
def Part.dropDeficits (p : Part) : Part :=
  { p with deficit := p.deficit.filter (fun d => p.jobs.any (fun e => e.2.waiting && e.2.queue == d.1)) }

/-- A job enters READY (R364); a queue that was empty starts without a deficit (R366). -/
def State.jobReady (s : State) (part : Nat) (id : BitVec 32) : State :=
  s.modPart part (fun q =>
    let p := q.dropDeficits
    { p with
      readyCount := p.readyCount + 1
      jobs := p.jobs.map (fun e =>
        if jobIdOf e.1 e.2 = id ∧ e.2.st = .pending then
          (e.1, { e.2 with st := .ready, readyAt := p.readyCount })
        else e) })

/-- A node with count zero and a command or job launches (R89). -/
def State.launchNode (s : State) (id : BitVec 16) : State :=
  let n := s.node id
  if n.st = .pending ∧ n.count = 0 then
    let s1 := s.modNode id (fun n => { n with st := .launched })
    match n.job with
    | some j => s1.jobReady (s.partOfTile (id.toNat / 4096)) j
    | none => s1
  else s

/-- One predecessor of a node is DONE (R89). -/
def State.decrement (s : State) (id : BitVec 16) : State :=
  let n := s.node id
  if n.st = .reserved ∨ n.st = .pending then
    (s.modNode id (fun n => { n with count := n.count - 1 })).launchNode id
  else s

/-- Return a number of edges to the pool of a node's tile (R88). -/
def State.freeEdges (s : State) (id : BitVec 16) (n : Nat) : State :=
  s.modTile (id.toNat / 4096) (fun t => { t with edges := t.edges - n })

/-- A running command is cancelled: it ends at its next boundary (R92). The first cause stands. -/
def Cmd.cancel (c : Cmd) (predFailed : Bool) : Cmd :=
  if c.cancelled then c else { c with cancelled := true, predFailed := predFailed }

/-- Cancel the running command of a node. -/
def State.cancelRunning (s : State) (cmd : Option Nat) (predFailed : Bool) : State :=
  { s with engines := s.engines.map (fun e =>
      (e.1, e.2.map (fun c => if some c.id = cmd then c.cancel predFailed else c))) }

/-- Cancel nodes with status 7 and, in turn, their successors (R92 step 5): a queued command is
dropped with its locks, a running one stops at its next boundary, a job is abandoned with cause 4 (R371). A
cancelled node keeps its count (log entry 144). -/
def State.cancelNodes (s : State) (fuel : Nat) (ids : List (BitVec 16)) : State :=
  match fuel, ids with
  | 0, _ => s
  | _, [] => s
  | fuel + 1, id :: r =>
    let n := s.node id
    if n.st = .reserved ∨ n.st = .pending ∨ n.st = .launched then
      let s1 := (s.modNode id (fun n => { n with st := .cancelled, status := 7, succ := [] })).freeEdges
        id n.succ.length
      let s2 := match n.cmd with
        | some c => (s1.releaseLocks c).dropCmd c
        | none => s1
      let s3 := match n.job with
        | some j => s2.abandon (s.partOfTile (id.toNat / 4096)) j 4
        | none => s2
      s3.cancelNodes fuel (r ++ n.succ)
    else if n.st = .running then (s.cancelRunning n.cmd true).cancelNodes fuel r
    else s.cancelNodes fuel r

/-- Number of edges in the graph, a bound on the nodes a cancellation can reach. -/
def State.edgeCount (s : State) : Nat :=
  s.tiles.foldl (fun k e => e.2.nodes.foldl (fun k n => k + n.2.succ.length) k) 1

/-- A node finishes (R92 steps 3 to 5) with a state and a status. -/
def State.finishNode (s : State) (id : BitVec 16) (st : NodeState) (status : Nat) : State :=
  if id = 0xFFFF#16 ∨ (s.node id).finished then s
  else
    let n := s.node id
    let s1 := s.modNode id (fun n => { n with st := st, status := status, succ := [], count := 0 })
    let s2 := match n.cmd with | some c => s1.releaseLocks c | none => s1
    let s3 := s2.freeEdges id n.succ.length
    if st = .done then n.succ.foldl State.decrement s3
    else s3.cancelNodes (s.edgeCount + n.succ.length) n.succ

/-- The node of a job finishes (R371), if it still names the job. -/
def State.finishJobNode (s : State) (id : BitVec 16) (job : BitVec 32) (st : NodeState) (status : Nat) :
    State :=
  if (s.node id).job = some job then s.finishNode id st status else s

/-- A command or job of a function names a node (R89): it launches when the count is zero. -/
def State.nameNode (s : State) (vf : Nat) (id : BitVec 16) (cmd : Option Nat) (job : Option (BitVec 32)) :
    State :=
  if id = 0xFFFF#16 then s
  else
    s.modNode id (fun n =>
      if n.st = .reserved then
        { n with st := if n.count = 0 then .launched else .pending, cmd := cmd, job := job, vf := vf }
      else
        { st := .launched, status := 0, count := 0, succ := [], cmd := cmd, job := job, vf := vf })

/-! ### Writes in a default context (R473) -/

/-- The runs of a range that a function writes or reads under its default context, with their
translations: none when one of them faults. -/
def State.defaultRuns (s : State) (vf : Nat) (acc : Access) (va : W64) (n : Nat) :
    Option (List (W64 × Nat × Xlat)) :=
  if n = 0 then some []
  else (pieces va n).mapM (fun p =>
    match s.walkRun (s.defaultCtx vf) acc p.1 p.2 with
    | .ok x => some (p.1, p.2, x)
    | .error _ => none)

/-- The walk for a range under a default context reads a poisoned word (R75). -/
def State.defaultMac (s : State) (vf : Nat) (acc : Access) (va : W64) (n : Nat) : Bool :=
  (pieces va n).any (fun p =>
    match s.walkRun (s.defaultCtx vf) acc p.1 p.2 with
    | .error .mac => true
    | _ => false)

/-- The ranges of memory that some runs write: their bytes and the table lines of the walker's updates. -/
def runRanges (ps : List (W64 × Nat × Xlat)) : List (Nat × Nat) :=
  ps.flatMap (fun p => (p.2.2.phys.loc, p.2.1) :: (p.2.2.pte.toList.map (fun q => (q.1.loc, 8))))

/-- The ranges of memory that a write under a default context changes. -/
def State.defaultRanges (s : State) (vf : Nat) (va : W64) (n : Nat) : List (Nat × Nat) :=
  match s.defaultRuns vf .store va n with
  | some ps => runRanges ps
  | none => []

/-- Write bytes for a function under its default context, in ascending order (R373, R374). The whole range
is translated first; nothing is written when it does not translate, or when the twin refuses a walker's OR (R419).
A walk that reads a poisoned word stops the function (R75). -/
def State.defaultWrite (s : State) (vf : Nat) (va : W64) (bs : List Byte) : State × Bool :=
  match s.defaultRuns vf .store va bs.length with
  | none => (if s.defaultMac vf .store va bs.length then s.macFailure [vf] else s, false)
  | some ps =>
    if ps.any (fun p => s.twinRefuses .store p.2.2) then (s.bump, false)
    else
    (ps.foldl (fun t p =>
      (t.applyXlat [] p.2.2).performEntry
        (BufEntry.plain (writesOf p.2.2.phys.loc ((bs.drop (p.1 - va).toNat).take p.2.1))
          p.2.2.phys.kid)) s, true)

/-! ### Jobs -/

/-- Change the job of an identifier while its entry's generation is its own. -/
def State.modJob (s : State) (part : Nat) (id : BitVec 32) (f : Job → Job) : State :=
  s.modPart part (fun p =>
    match p.job? id with
    | none => p
    | some j => { p with jobs := tset Job.reset p.jobs (id.toNat % 2 ^ 14) (f j) })

/-- The completion word (R374). -/
def completionWord (j : Job) (mkf : Bool) : Nat :=
  if j.st = .abandoned then 4 + j.cause.toNat * 8 + (if mkf then 2 ^ 8 else 0)
  else 3 + j.result.toNat * 2 ^ 32

/-- Write a job's completion word; skipped when it does not translate (R374). -/
def State.writeCompletion (s : State) (j : Job) (mkf : Bool) : State :=
  if j.cwa = 0 then s
  else (s.defaultWrite j.vf.toNat (BitVec.ofNat 64 j.cwa) (leBytes 8 (completionWord j mkf))).1

/-- The checks of R361 on a descriptor, for a partition's tiles. -/
def descriptorOk (p : Part) (d : List Byte) : Bool :=
  let j := { Job.reset with desc := d }
  decide (j.field 76 4 = 0 ∧ j.ctl / 64 % 4 = 0 ∧ j.ctl / 2 ^ 24 % 256 = 0 ∧ j.entry % 4 = 0 ∧
    j.cwa % 8 = 0 ∧ (j.target 0).1 % 8 = 0 ∧ (j.target 1).1 % 8 = 0 ∧ (j.target 0).2.1 % 8 = 0 ∧
    (j.target 1).2.1 % 8 = 0 ∧ 1 ≤ j.lgs ∧ j.lgs ≤ 8) &&
  legalVtype j.vtypeWord && decide (¬ (j.cls = 0 ∧ j.field 56 8 = 0)) &&
  (j.aff == 0 || p.table.tiles.any (fun t => j.aff.testBit t))

/-- A class is permitted to a function (R362). -/
def Vf.permits (f : Vf) (cls : Nat) : Bool :=
  if cls = 0 then f.c0 else if cls = 1 then f.w1 != 0 else if cls = 2 then f.w2 != 0 else f.w3 != 0

/-- Live jobs of a function. -/
def Part.liveJobs (p : Part) (vf : Nat) : Nat :=
  (p.jobs.filter (fun e => e.2.live && e.2.vf.toNat == vf)).length

/-- The lowest free entry of a job table (R362). -/
def Part.freeEntry (p : Part) : Option Nat :=
  firstBelow (min p.table.jobCap 16384) (fun n => !(tget Job.reset p.jobs n).live)

/-- Why a job is refused: the codes of R338 but for the node's. -/
def State.jobRefusal (s : State) (part vf : Nat) (d : List Byte) : Option Nat :=
  let p := s.part part
  let j := { Job.reset with desc := d }
  if !descriptorOk p d then some 1
  else if !(s.vf vf).permits j.cls then some 4
  else if p.freeEntry.isNone || decide ((s.vf vf).maxJob.toNat ≠ 0 ∧
      (s.vf vf).maxJob.toNat ≤ p.liveJobs vf) then some 3
  else none

/-- The next generation of a job-table entry: it starts at 1 (R363). -/
def nextGen (g : BitVec 18) : BitVec 18 := if g + 1 = 0 then 1 else g + 1

/-- Accept a job (R338, R364, R365): the identifier and the state after. -/
def State.acceptJob (s : State) (part vf : Nat) (d : List Byte) (parent : BitVec 32)
    (node : BitVec 16) (a0 : Option W64) : BitVec 32 × State :=
  let p := s.part part
  let n := p.freeEntry.getD 0
  let old := tget Job.reset p.jobs n
  let j : Job :=
    { Job.reset with
      gen := nextGen old.gen
      live := true
      st := .pending
      vf := BitVec.ofNat 9 vf
      desc := d
      parent := parent
      line := parent
      node := node
      deadline := BitVec.ofNat 64 (leNat ((d.drop 56).take 8))
      a0 := a0 }
  let id := jobIdOf n j
  let s1 := (s.modPart part (fun p => { p with jobs := tset Job.reset p.jobs n j })).nameNode vf
    node none (some id)
  let s2 := if node = 0xFFFF#16 ∨ (s1.node node).st = .launched then s1.jobReady part id else s1
  let due := decide ((j.cls = 0 ∨ j.deadline ≠ 0) ∧ j.deadline.toNat ≤ s.hub.ptp % 2 ^ 64)
  (id, if due then s2.abandon part id 1 else s2)

/-! ### Groups -/

def Group.live (g : Group) : Bool := !g.members.isEmpty

/-- Completion of a phase: every member has arrived (R333). -/
def Group.check (g : Group) : Group :=
  if g.live && g.members.all (·.arr) then
    { members := g.members.map (fun m => { m with arr := false }), phase := g.phase + 1 }
  else g

/-- A member leaves (R332): its arrival goes with it, and completion is checked again. The entry is
free when the last member leaves. -/
def Group.leave (g : Group) (slot : Nat) : Group :=
  let ms := g.members.filter (fun m => decide (m.slot ≠ slot))
  if ms.isEmpty then Group.reset
  else if ms.length = g.members.length then g
  else ({ g with members := ms } : Group).check

/-- A thread leaves every group of its partition (R336). -/
def Part.leaveGroups (p : Part) (slot : Nat) : Part :=
  let gs := p.groups.map (fun e => (e.1, e.2.leave slot))
  { p with groups := gs.filter (fun e => decide (e.2 ≠ Group.reset)) }

/-- The end that a wait on a phase of a group has come to (R332, R334): the group is free, or the phase has
passed. -/
def Group.waitEnd (g : Group) (q : BitVec 32) : Option Bool :=
  if !g.live then some true else if 0 ≤ (g.phase - q - 1).toInt then some false else none

/-- A thread of a partition that waits in BARWAIT or BARW has its wait ended by what has become of its
group (R332, R334). -/
def Thread.endBarrier (p : Part) (part : Nat) (t : Thread) : Thread :=
  match t.hw.wait with
  | some (.barrier n q) =>
    if t.id.part.toNat = part ∧ t.hw.barDone = none then
      match (tget Group.reset p.groups n.toNat).waitEnd q with
      | some freed => { t with hw := { t.hw with barDone := some (n, q, freed) } }
      | none => t
    else t
  | _ => t

/-- Every wait on the groups of a partition that has come to its end is ended (R332, R334). -/
def State.endBarriers (s : State) (part : Nat) : State :=
  let p := s.part part
  { s with th := s.th.endBarrier p part
           slots := s.slots.map (fun e => (e.1, e.2.endBarrier p part)) }

/-! ### Leaving a slot -/

/-- Discard a slot's accumulation window and release its locks (R250). -/
def State.dropWindow (s : State) (slot : Nat) (lost : Bool) : State :=
  match (s.thread slot).hw.window with
  | none => s
  | some w =>
    let s1 := s.modThread slot (fun t =>
      { t with hw := { t.hw with window := none, lostWindow := if lost then some w.base else none } })
    { s1 with
      tiles := s1.tiles.map (fun e =>
        (e.1, { e.2 with locks := e.2.locks.filter (fun l => decide (l.window ≠ some slot)) }))
      mem := { s1.mem with winLocks := s1.mem.winLocks.filter (fun l => decide (l.1 ≠ slot)) } }

/-- A slot with no context: its registers at reset, its debug controls as they were, a requested halt that has
not landed among them (R434). -/
def Thread.emptied (t : Thread) : Thread :=
  { Thread.reset with hw := { SlotHw.reset with
      dbStep := t.hw.dbStep, dbClaim := t.hw.dbClaim, dbHalt := t.hw.dbHalt, dbTrace := t.hw.dbTrace } }

/-- The partner slot of a spanned thread (R288). -/
def Thread.partnerSlot (t : Thread) (slot : Nat) : Option Nat :=
  if t.held.remote = 0#4 then none else some (4 * t.held.pvc.toNat + slot % 4)

/-- The lane groups of a victim that frees its slot are kept for the class-0 job that is to take it, those that it
gained after it was chosen among them (R368). -/
def Job.keepAll (j : Job) (slot : Nat) (h : Held) : Job :=
  if j.wants = some slot then { j with keep := j.keep ||| h.loc, keepRem := j.keepRem ||| h.remote } else j

/-- Give up a slot: its lane groups, its partner slot and the slot itself (R321, R339, R373). A tile
that its matrix instruction holds is released. `leave` tells whether the thread leaves its groups, as
it does at its job's end (R336) and not at HALT. Members that are cut off end stopped (R437). -/
def State.emptySlot (s : State) (slot : Nat) (leave : Bool) : State :=
  let t := s.thread slot
  let s0 := s.modPart t.id.part.toNat (fun p =>
    { p with jobs := p.jobs.map (fun e => (e.1, e.2.keepAll slot t.held)) })
  let s1 := (s0.markFlights slot 4).dropWindow slot false
  let s2 := if leave then
      (s1.modPart t.id.part.toNat (fun p => p.leaveGroups slot)).endBarriers t.id.part.toNat
    else s1
  let s3 := s2.modTile (tileOf slot) (fun u =>
    { u with scQueue := u.scQueue.filter (fun n => decide (n ≠ slot)) })
  let s4 := match (s3.vc (vcOf slot)).array with
    | some (o, _) => if o = slot then s3.modVc (vcOf slot) (fun v => { v with array := none }) else s3
    | none => s3
  let s5 := match t.partnerSlot slot with
    | some q => s4.modThread q Thread.emptied
    | none => s4
  s5.modThread slot Thread.emptied

/-- A job is settled DONE (R339 step 4): result, completion word, node, retirement. -/
def State.settleDone (s : State) (part : Nat) (id : BitVec 32) (result : BitVec 32) : State :=
  match (s.part part).job? id with
  | none => s
  | some j =>
    if j.finished then s
    else
      let j' := { j with st := .done, result := result, slot := none, resume := none }
      let s1 := (s.modJob part id (fun _ => j')).writeCompletion j' false
      (s1.finishJobNode j.node id .done 1).modPart part Part.retire

/-- How a read that a unit of the device makes for a context ends. -/
inductive UnitRead where
  /-- Its bytes stand at a place. -/
  | found (p : Phys)
  /-- It does not translate, or may not read there (R47, R62). -/
  | missing
  /-- It meets a poisoned word (R75). -/
  | mac
  /-- The walker's update of A waits (R42). -/
  | held
  deriving DecidableEq, Repr

/-- A unit of the device reads n bytes of one page in a context: the walk with its update, the count of a host-homed
unit, the line at its home (R30, R42, R52). -/
def State.unitRead (s : State) (c : Ctx) (va : W64) (n : Nat) : UnitRead × State :=
  match s.resolve [] c .load va with
  | (.ok x, u) =>
    if u.ingestBarsAt c.vf .load x.phys.loc n then (.missing, u)
    else
      let t := u.touch (runLines x.phys.loc n) x.phys.kid (fun _ => .age 0) false
      (if t.poisoned x.phys.loc n then .mac else .found x.phys, t)
  | (.error .mac, u) => (.mac, u)
  | (.error (.held _), u) => (.held, u)
  | (.error _, u) => (.missing, u)

/-- The word of n bytes at an offset of a place, as its function sees it. -/
def State.wordAt (s : State) (p : Phys) (k n : Nat) : Nat := leNat (s.homeBytes { p with loc := p.loc + k } n)

/-- The ringmaster reads the header field RESUME at a context's save area (R409, R413); nothing is read where vsave
is 0. -/
def State.readResume (s : State) (slot : Nat) : UnitRead × State :=
  let t := s.thread slot
  if t.tr.vsave = 0#52 then (.missing, s)
  else s.unitRead { s.ctxOf slot with user := false } (BitVec.ofNat 64 (t.tr.vsave.toNat * 4096 + 0x2C8)) 8

/-- Group members under another number: a context off its slot keeps its memberships under the number
4,096 + its job's entry (log entry 21). -/
def Part.renameMember (p : Part) (a b : Nat) : Part :=
  { p with groups := p.groups.map (fun e =>
      (e.1, { e.2 with members := e.2.members.map (fun m =>
        if m.slot = a then { m with slot := b } else m) })) }

/-- The number under which a context off its slot stays in its groups. -/
def parkedNumber (id : BitVec 32) : Nat := 4096 + id.toNat % 2 ^ 14

/-- A context halts; with RESUME set it may be placed again by the ringmaster (R413, R414). -/
def State.parkJob (s : State) (slot : Nat) (resume : Bool) : State :=
  let t := s.thread slot
  let r := if resume then
      some (BitVec.ofNat 64 (t.tr.vsave.toNat * 4096), t.tr.asid, t.tr.root) else none
  let part := t.id.part.toNat
  (s.modPart part (fun p => { p.dropDeficits.renameMember slot (parkedNumber t.id.job) with
      readyCount := p.readyCount + 1 })).modJob part t.id.job
    (fun j => { j with slot := none, resume := r, readyAt := (s.part part).readyCount,
                       lost := t.hw.lostWindow, errs := t.hw.trainErr,
                       keep := 0, keepRem := 0 })

end Sys2Proof.Machine
end

