-- ==== Sys2Proof/Machine/Sync.lean ====
section
/-!
DEFINITION. Releases, train waits and wakes that several families share (R268, R274, R179, R319).
-/

namespace Sys2Proof.Machine

open Sys2Proof

/-- A release (R268): the store buffer drains, then every earlier train is acknowledged. -/
def release : M Unit := do
  drainBuffer
  awaitTrains

/-- The address that a flit or an eval gives a location: its 52-bit device or host physical address, or its
address in the twin window (R178, R179, R418). -/
def State.addrOf (s : State) (loc : Nat) : Nat :=
  if isTwin loc then s.hub.twAp.toNat * 2 ^ 40 + loc % 2 ^ 40
  else if isHost loc then loc - hostBase
  else loc

/-- A train acknowledged with an error traps ENGERR once, at the first PHEND, or FENCE that waits for it
(R179). -/
def trainError (mine : Nat → Bool) : M Unit := do
  let s ← get
  match s.th.hw.trainErr.find? mine with
  | some loc =>
    set (s.modHw (fun h => { h with trainErr := h.trainErr.erase loc }))
    trap Cause.engerr (BitVec.ofNat 64 (s.addrOf loc))
  | none => pure ()

/-- Add a wake to a slot's count, saturating at 255 (R319). -/
def State.wakeSlot (s : State) (slot : Nat) : State :=
  s.modThread slot (fun t =>
    { t with hw := { t.hw with wake := if t.hw.wake = 255#8 then 255#8 else t.hw.wake + 1 } })

end Sys2Proof.Machine
end

