-- ==== Sys2Proof/Machine/VAccess.lean ====
section
/-!
DEFINITION. What the vector memory instructions share: the order of checks (R165), element faults
(R48, R401), L2 allocation (R57), reading elements (R168), store-buffer entries by beat (R171).
-/

namespace Sys2Proof.Machine

open Sys2Proof

/-- The elements an access of a member is for: active, not found faulted by an earlier member of the convoy
(R401). All of them are checked for alignment and locks (R165). -/
def State.wanted (s : State) (p : BitVec 5) : List Nat :=
  (List.range s.vl).filter (fun e => s.active p e && !s.cv.faulted.getLsbD e)

/-- Those of them that lie short of a part-way stop (R399): they are translated. -/
def State.short {α : Type} (s : State) (as : List (Nat × α)) : List (Nat × α) :=
  as.filter (fun a => !s.cutOff a.1)

/-- Trap ALIGN for the lowest element whose address is no multiple of z (R165 step 3). -/
def alignElems (z : Nat) (as : List (Nat × W64)) : M Unit :=
  match as.find? (fun a => decide (a.2.toNat % z ≠ 0)) with
  | some a => trap Cause.align a.2
  | none => pure ()

/-- Trap RLOCK for an address that meets another thread's window at its home (R94, R247). -/
def checkHomeLock (acc : Access) (va : W64) (n : Nat) : M Unit := do
  if (← get).homeLocked acc va n then throw (.trap (rlockTrap va 0xFFFF#16))

/-- Trap RLOCK for the lowest element that meets a lock, in a table or at its home (R165 step 4, R94, R247). -/
def lockElems (n : Nat) (store : Bool) : List (Nat × W64) → M Unit
  | [] => pure ()
  | a :: r => do
    checkLock a.2 n store
    checkHomeLock (if store then .store else .load) a.2 n
    lockElems n store r

/-- Element translations: those that succeed and those that fault, in ascending order. -/
structure Touch where
  ok : List (Nat × W64 × Phys)
  bad : List (Nat × W64 × XFault)
  deriving DecidableEq, Repr

/-- Translate each element in its owning lane group (R46, R165 step 5), with a check of each place. -/
def translateChecked (check : W64 → Phys → M Unit) (acc : Access) (as : List (Nat × W64)) : M Touch := do
  let mut ok := []
  let mut bad := []
  for a in as do
    let s ← get
    match ← resolveNow (s.lanePlaces a.2.toNat) acc a.2 with
    | .ok x =>
      check a.2 x.phys
      ok := ok ++ [(a.1, a.2, x.phys)]
    | .error f => bad := bad ++ [(a.1, a.2, f)]
  pure { ok := ok, bad := bad }

/-- Translate each element of n bytes in its owning lane group (R46, R165 step 5). -/
def translateElems (acc : Access) (as : List (Nat × W64)) (n : Nat) : M Touch :=
  translateChecked (fun va p => checkHome va p n) acc as

/-- A mask of elements. -/
def maskOf (es : List Nat) : BitVec 4096 :=
  BitVec.ofNat 4096 (es.foldl (fun m e => m ||| 2 ^ e) 0)

/-- The trap of the faulted elements (R48): pf receives their mask, PERM for the lowest permission
fault, otherwise PFAULT with the batch. In a convoy of several the mask and the batch go to its runner (R397,
R401). -/
def elementFaults (acc : Access) (bad : List (Nat × W64 × XFault)) : M Unit := do
  match bad with
  | [] => pure ()
  | b :: _ =>
    let withMask := fun (s : State) =>
      let m := maskOf (bad.map (·.1))
      let s1 := s.modCv (fun c => { c with faulted := c.faulted ||| m })
      if s.cv.many then s1 else s1.setPred 95 m
    match bad.find? (fun f => f.2.2 == .perm) with
    | some f =>
      modify withMask
      throw (.trap { plainTrap Cause.perm f.2.1 with pfw := true })
    | none =>
      let s ← get
      let batch := bad.filterMap (fun f => PFault.of f.2.1 acc f.2.2)
      if s.cv.many then
        modify (fun s => (withMask s).modCv (fun c => { c with batches := c.batches ++ [batch] }))
        throw (.trap (pfaultTrap b.2.1 .taken true))
      let r := s.appendBatch s.curPart s.th.id.vf s.th.tr.asid s.cur batch
      set (if r.2 = .mac then r.1 else withMask r.1)
      throw (.trap (pfaultTrap b.2.1 r.2 true))

/-- n beats of 64 bytes as one access, all translated before any is performed; a fault traps as a batch
with pf not written (R237, R359). -/
def wholeBeats (acc : Access) (va : W64) (n : Nat) : M (List (Nat × W64 × Phys)) := do
  checkAlign va 64
  let beats := (List.range n).map (fun k => (k, va + BitVec.ofNat 64 (64 * k)))
  lockElems 64 (decide (acc = .store)) beats
  let t ← translateElems acc beats 64
  if t.bad.isEmpty then pure t.ok
  else faultTrap (t.bad.map (fun b => (b.2.1, acc, b.2.2)))

/-! ### Loads -/

/-- How a load of a footprint allocates (R57). -/
def State.loadAlloc (s : State) (footprint : Nat) : Alloc :=
  if footprint ≤ s.th.fl.l2thr.toNat then .age 0 else .none

/-- The L2 traffic of a set of places, one access for each line (R57, R52). -/
def State.touchLines (s : State) (ps : List Phys) (al : Alloc) (write : Bool) : State :=
  ((ps.map (fun p => (p.loc / 128, p.kid))).eraseDups).foldl
    (fun s l => (s.l2Access (l.1 * 128) l.2 al write).countHost (l.1 * 128)) s

/-- Bytes of a place as the thread reads them: its own newest buffered store, or the home (R168).
A poisoned word stops the function (R75). -/
def readPlace (va : W64) (p : Phys) (n : Nat) : M Nat := do pure (leNat (← takeBytes va p n))

/-- Read the places of some elements; nothing is written before all of them are read (R29). -/
def readPlaces (n : Nat) : List (Nat × W64 × Phys) → M (List (Nat × Nat))
  | [] => pure []
  | a :: r => do
    let x ← readPlace a.2.1 a.2.2 n
    let l ← readPlaces n r
    pure ((a.1, x) :: l)

/-- The elements of a translation that are performed in this pass. -/
def State.performed (s : State) (l : List (Nat × W64 × Phys)) : List (Nat × W64 × Phys) :=
  l.filter (fun a => s.performs a.1)

/-- Load translated elements of z bytes into a group (R168); they fold into no range register (log entry 145). -/
def loadPlaces (d : BitVec 5) (z : Nat) (now : List (Nat × W64 × Phys)) (footprint : Nat) : M Unit := do
  modify (fun s => s.touchLines (now.map (·.2.2)) (s.loadAlloc footprint) false)
  let xs ← readPlaces z now
  modify (fun s => xs.foldl (fun s x => s.putElem d x.1 x.2) s)

/-- Load elements of z bytes into a group (R165, R168): checks, translation, the elements that do not
fault, then the trap of those that do. -/
def loadElems (d : BitVec 5) (z : Nat) (as : List (Nat × W64)) (footprint : Nat) : M Unit := do
  alignElems z as
  lockElems z false as
  let t ← translateElems .load ((← get).short as) z
  loadPlaces d z ((← get).performed t.ok) footprint
  elementFaults .load t.bad

/-! ### Stores -/

/-- The beat of a register that holds an element under vtype (R100, R171). -/
def State.beatOf (s : State) (e : Nat) : Nat × Nat :=
  let i := e % s.per s.vt.gm
  (e / s.per s.vt.gm, if s.vt.sq then i / 63 else i * s.vt.sew / 512)

/-- The write of one element: the beat it belongs to, its key identifier and its bytes. -/
structure Write where
  beat : Nat × Nat
  kid : Nat
  bytes : List (Nat × Byte)
  deriving DecidableEq, Repr

/-- The beats of a store, in order: the writes of each (R171). -/
def beatsOf (ws : List Write) : List (List Write) :=
  match ws with
  | [] => []
  | w :: r =>
    match beatsOf r with
    | (x :: xs) :: t => if x.beat = w.beat then (w :: x :: xs) :: t else [w] :: (x :: xs) :: t
    | t => [w] :: t

/-- The records of one beat's entry, in order: neighbours of one key identifier share a record, and all
but the last are marked. -/
def recordsOf (ws : List Write) : List BufEntry :=
  match ws with
  | [] => []
  | w :: r =>
    match recordsOf r with
    | [] => [BufEntry.plain w.bytes w.kid]
    | e :: t =>
      if e.kid = w.kid then { e with writes := w.bytes ++ e.writes } :: t
      else { BufEntry.plain w.bytes w.kid with more := true } :: e :: t

/-- Lines that a list of writes covers whole (R57). -/
def fullLines (bs : List (Nat × Byte)) : List Nat :=
  ((bs.map (fun b => b.1 / 128)).eraseDups).filter (fun l =>
    (List.range 128).all (fun k => bs.any (fun b => b.1 == l * 128 + k)))

/-- A store of a footprint above THR with STNA = 1 (R57). -/
def State.bigStore (s : State) (footprint : Nat) : Bool :=
  decide (s.th.fl.l2thr.toNat < footprint) && s.th.fl.l2stna

/-- Two writes of a beat fall on one byte. -/
def overlaps (ws : List Write) : Bool :=
  let bs := (ws.flatMap (·.bytes)).map (·.1)
  decide (bs.eraseDups.length < bs.length)

/-- A list in an order that free choices give. -/
def freeOrder {α : Type} (free : Nat) : Nat → List α → List α
  | 0, l => l
  | n + 1, l =>
    let k := Config.freeNat (free + n) % l.length
    match l[k]? with
    | some x => x :: freeOrder free n (l.eraseIdx k)
    | none => l

/-- The elements of one beat of VSTX become visible in any order (R171): where two fall on one byte, free
choices decide which prevails. -/
def State.shuffle (s : State) (ws : List Write) : List Write × State :=
  if overlaps ws then (freeOrder s.free ws.length ws, { s with free := s.free + ws.length }) else (ws, s)

/-- The beats of VSTX in a free order within each. -/
def State.shuffleAll (s : State) : List (List Write) → List (List Write) × State
  | [] => ([], s)
  | b :: r =>
    let x := s.shuffle b
    let y := x.2.shuffleAll r
    (x.1 :: y.1, y.2)

/-- Put the entries of a vector store into the buffer, one for each beat (R171). -/
def State.pushEntries (s : State) (ws : List Write) (big any : Bool) : State :=
  let full := if big then fullLines (ws.flatMap (·.bytes)) else []
  let bs := beatsOf ws
  let r := if any then s.shuffleAll bs else (bs, s)
  r.2.pushStore ((r.1.flatMap recordsOf).map (fun e => { e with big := big, full := full }))

/-- Store elements of z bytes of a group (R165, R170, R171). -/
def storeElems (d : BitVec 5) (z : Nat) (as : List (Nat × W64)) (footprint : Nat) (any : Bool) :
    M Unit := do
  alignElems z as
  lockElems z true as
  let t ← translateElems .store ((← get).short as) z
  let s ← get
  let now := s.performed t.ok
  storeRoom (now.map (·.2.2))
  modify (fun s => s.pushEntries (now.map (fun a =>
    { beat := s.beatOf a.1, kid := a.2.2.kid,
      bytes := writesOf a.2.2.loc (leBytes z (s.elem d a.1)) })) (s.bigStore footprint) any)
  elementFaults .store t.bad

end Sys2Proof.Machine
end

