-- ==== Sys2Proof/Machine/Accum.lean ====
section
/-!
DEFINITION. Accumulator tiles: ownership (R74), transfers (R236 to R238), MZERO (R235).
-/

namespace Sys2Proof.Machine

open Sys2Proof

/-! ### Tiles -/

/-- Word i of a tile's image (R73). -/
def accWord (x : BitVec 32768) (i : Nat) : Nat := sliceAt 32 x (32 * i)

/-- A tile of the current VC. -/
def State.acc (s : State) (t : BitVec 4) : BitVec 32768 := tget 0 (s.vc s.curVc).acc t.toNat

/-- Words of a tile, in order, as its image. -/
def accOf (ws : List Nat) : BitVec 32768 :=
  BitVec.ofNat 32768 (ws.foldr (fun w x => w % 2 ^ 32 + x * 2 ^ 32) 0)

/-- Write a whole tile: its poisoned words are clean again (R75). -/
def Vc.setAcc (v : Vc) (t : BitVec 4) (x : BitVec 32768) : Vc :=
  { v with acc := tset 0 v.acc t.toNat x,
           accPoison := v.accPoison.filter (fun w => decide (w / 512 ≠ t.toNat)) }

/-- Write one word of a tile. -/
def Vc.setAccWord (v : Vc) (t : BitVec 4) (i x : Nat) : Vc :=
  { v with acc := tset 0 v.acc t.toNat (spliceAt 32 (tget 0 v.acc t.toNat) (32 * i) x) }

/-- Write words of a tile in one instruction, with their numbers: a poisoned 8-byte word of which both are written
is clean again (R75, log entry 97). -/
def Vc.setAccWords (v : Vc) (t : BitVec 4) (ws : List (Nat × Nat)) : Vc :=
  let u := ws.foldl (fun v w => v.setAccWord t w.1 w.2) v
  let has := fun (i : Nat) => ws.any (fun w => w.1 == i)
  { u with accPoison := u.accPoison.filter (fun w =>
      !(w / 512 == t.toNat && has (w % 512 * 2) && has (w % 512 * 2 + 1))) }

/-- A word of a tile that is poisoned stops the function that consumes it; it has no address (R75). -/
def tileClean (t : BitVec 4) (ws : List Nat) : M Unit := do
  let s ← get
  if (s.vc s.curVc).accPoison.any (fun w =>
      decide (w / 512 = t.toNat) && ws.any (fun i => decide (i / 2 = w % 512))) then
    trap Cause.macfail 0

/-- The ownership check of a named tile (R74): it passes for the context's own tile and for an unowned one. -/
def checkOwner (t : BitVec 4) : M Unit := do
  let s ← get
  let c := s.th.tr.ctag
  let o := tget 0 (s.vc s.curVc).aown t.toNat
  if c = 0#16 ∨ (o ≠ 0#16 ∧ o ≠ c) then trap Cause.afirst (t.setWidth 64)

/-- Ownership of a named tile (R74): the context's own tile, or an unowned one that it claims, zeroed;
otherwise AFIRST. -/
def claimTile (t : BitVec 4) : M Unit := do
  checkOwner t
  let s ← get
  if tget 0 (s.vc s.curVc).aown t.toNat = 0#16 then
    set (s.modVc s.curVc (fun v => v.setOwner t.toNat s.th.tr.ctag s.th.id.vf))

/-- Words of a named tile that an instruction consumes: an unowned tile is to be zeroed and holds no poison. -/
def tileReady (t : BitVec 4) (ws : List Nat) : M Unit := do
  checkOwner t
  let s ← get
  if tget 0 (s.vc s.curVc).aown t.toNat ≠ 0#16 then tileClean t ws

/-- Ownership of a tile that an instruction reads: one that consumes a poisoned word claims nothing (R10,
R75). -/
def claimClean (t : BitVec 4) (ws : List Nat) : M Unit := do
  tileReady t ws
  claimTile t

/-- Wait while another slot's matrix instruction holds the tile (R238). -/
def awaitTile (t : BitVec 4) : M Unit := do
  let s ← get
  if s.tileBusy s.cur t then waitFor (.tileHeld t)

/-- mprog becomes 0 when a matrix instruction completes (R233). -/
def State.clearMprog (s : State) : State :=
  s.modFl (fun f => { f with mpK := 0, mpRow := 0, mpAct := false })

/-- MZERO (R235). -/
def execMzero (t : BitVec 4) (s : State) : Host.Outcome State Fault Refusal :=
  s.conclude (do
    vectorGate
    claimTile t
    modify (fun u => (u.modVc u.curVc (fun v => v.setAcc t 0)).clearMprog))

/-! ### Registers and tiles (R236) -/

/-- The checks of ATOV and VTOA; the first row's word. -/
def rowChecks (v b : BitVec 5) : M Nat := do
  let t ← vectorChecks [v] (fun t => decide (t.sewE = 2) && !t.sq)
  let s ← get
  let r := (s.rd b).toNat
  need (decide (r < 32 ∧ r * 32 + s.vl ≤ 1024))
  let _ := t
  pure (r * 32)

/-- ATOV (R236). -/
def execAtov (t : BitVec 4) (d b p : BitVec 5) (s : State) : Host.Outcome State Fault Refusal :=
  s.conclude (do
    let w ← rowChecks d b
    if !(s.actives p).isEmpty then
      let es := s.todo p
      claimClean t (es.map (w + ·))
      modify (fun u => es.foldl (fun x e => x.putElem d e (accWord (u.acc t) (w + e))) u))

/-- VTOA (R236). -/
def execVtoa (t : BitVec 4) (a b p : BitVec 5) (s : State) : Host.Outcome State Fault Refusal :=
  s.conclude (do
    let w ← rowChecks a b
    if !(s.actives p).isEmpty then
      claimTile t
      modify (fun u => u.modVc u.curVc (fun v =>
        v.setAccWords t ((u.todo p).map (fun e => (w + e, u.elem a e))))))

/-! ### Tiles and memory (R237, R238) -/

/-- Read a tile's image from 64 translated beats. -/
def readTile (ps : List (Nat × W64 × Phys)) : M (BitVec 32768) := do
  modify (fun u => u.touchLines (ps.map (·.2.2)) (u.loadAlloc 4096) false)
  let xs ← readPlaces 64 ps
  pure (BitVec.ofNat 32768 (xs.foldl (fun x b => x + b.2 * 2 ^ (512 * b.1)) 0))

/-- Write a tile of the current VC. -/
def State.setTile (s : State) (t : BitVec 4) (x : BitVec 32768) : State :=
  s.modVc s.curVc (fun v => v.setAcc t x)

/-- Load a tile's image from 64 translated beats. -/
def loadTile (t : BitVec 4) (ps : List (Nat × W64 × Phys)) : M Unit := do
  let x ← readTile ps
  modify (fun u => u.setTile t x)

/-- Put a tile's image into the store buffer, beat by beat in ascending order (R237). -/
def storeTile (t : BitVec 4) (ps : List (Nat × W64 × Phys)) : M Unit := do
  tileClean t (List.range 1024)
  storeRoom (ps.map (·.2.2))
  modify (fun u =>
    let bs := leBytes 4096 (u.acc t).toNat
    u.pushEntries (ps.map (fun b =>
      { beat := (0, b.1), kid := b.2.2.kid, bytes := writesOf b.2.2.loc ((bs.drop (64 * b.1)).take 64) }))
      (u.bigStore 4096) false)

/-- ALD (R237): the image is read before an unowned tile is claimed (R10). -/
def execAld (t : BitVec 4) (b : BitVec 5) (s : State) : Host.Outcome State Fault Refusal :=
  s.conclude (do
    vectorGate
    let ps ← wholeBeats .load (s.rd b) 64
    checkOwner t
    let x ← readTile ps
    claimTile t
    modify (fun u => u.setTile t x))

/-- AST (R237). -/
def execAst (t : BitVec 4) (b : BitVec 5) (s : State) : Host.Outcome State Fault Refusal :=
  s.conclude (do
    vectorGate
    let ps ← wholeBeats .store (s.rd b) 64
    claimClean t (List.range 1024)
    storeTile t ps)

/-- The checks of ASAVE and ARST before any other (R238, R325, R328). -/
def handlerGate : M Unit := do
  if (← get).th.sc.mode = .S then illop
  needPrivileged
  vectorGate

/-- ASAVE (R238): whatever the owner. -/
def execAsave (t : BitVec 4) (b : BitVec 5) (s : State) : Host.Outcome State Fault Refusal :=
  s.conclude (do
    handlerGate
    let ps ← wholeBeats .store (s.rd b) 64
    awaitTile t
    storeTile t ps)

/-- ARST (R238): the owner is set without zeroing. -/
def execArst (t : BitVec 4) (b : BitVec 5) (s : State) : Host.Outcome State Fault Refusal :=
  s.conclude (do
    handlerGate
    need (s.th.tr.ctag != 0)
    let ps ← wholeBeats .load (s.rd b) 64
    awaitTile t
    loadTile t ps
    modify (fun u => u.modVc u.curVc (fun v => v.markOwner t.toNat s.th.tr.ctag s.th.id.vf)))

end Sys2Proof.Machine
end

