-- ==== Sys2Proof/Machine/Group.lean ====
section
/-!
DEFINITION. Groups and phases: major 0x12 (R330 to R335, R274).
-/

namespace Sys2Proof.Machine

open Sys2Proof

/-- The group of the current thread's partition with a number. -/
def State.group (s : State) (n : Nat) : Group := tget Group.reset (s.part s.curPart).groups n

def State.modGroup (s : State) (n : Nat) (f : Group → Group) : State :=
  s.modPart s.curPart (fun p =>
    { p with groups := tset Group.reset p.groups n (f (tget Group.reset p.groups n)) })

/-- The member record of a slot. -/
def Group.member (g : Group) (slot : Nat) : Option Member := g.members.find? (fun m => m.slot == slot)

/-- An arrival of a member in the open phase, with completion checked (R333). -/
def Group.arrive (g : Group) (slot : Nat) : Group :=
  ({ g with members := g.members.map (fun m =>
      if m.slot = slot then { m with arr := true } else m) } : Group).check

/-- Change the member record of a slot. -/
def Group.modMember (g : Group) (slot : Nat) (f : Member → Member) : Group :=
  { g with members := g.members.map (fun m => if m.slot = slot then f m else m) }

/-- The phase of a group has passed Q (R334). -/
def Group.passed (g : Group) (q : BitVec 32) : Bool := decide (0 ≤ (g.phase - q - 1).toInt)

/-- Change a group of the current partition; the waits that this ends are ended (R332, R334). -/
def State.changeGroup (s : State) (n : Nat) (f : Group → Group) : State :=
  (s.modGroup n f).endBarriers s.curPart

/-- The end of the wait in hand, once: whether the group became free. -/
def waitEnded (n : Nat) (q : BitVec 32) : M (Option Bool) := do
  let s ← get
  match s.th.hw.barDone with
  | some (n', q', freed) =>
    set (s.modHw (fun h => { h with barDone := none }))
    pure (if n'.toNat = n ∧ q' = q then some freed else none)
  | none => pure none

/-- The group number of s[a]: every bit outside 11:0 zero (R328, R330). -/
def groupNumber (a : BitVec 5) : M Nat := do
  let x := ((← get).rd a).toNat
  need (decide (x < 4096))
  pure x

/-- The current thread as a member of a group, ILLOP otherwise (R333). -/
def needMember (n : Nat) : M Member := do
  let s ← get
  match (s.group n).member s.cur with
  | some m => pure m
  | none => illop

/-- Groups of the partition that the current thread belongs to. -/
def State.memberships (s : State) : Nat :=
  ((s.part s.curPart).groups.filter (fun e => (e.2.member s.cur).isSome)).length

/-- GJOIN (R332). -/
def execGjoin (d a : BitVec 5) (s : State) : Host.Outcome State Fault Refusal :=
  s.conclude (do
    let n ← groupNumber a
    let g := s.group n
    let me : Member := { slot := s.cur, arr := false, la := 0, bw := false }
    if (g.member s.cur).isSome then modify (fun t => t.wr d 2)
    else if 8 ≤ s.memberships then modify (fun t => t.wr d 3)
    else if g.live then
      modify (fun t => (t.modGroup n (fun g => { g with members := g.members ++ [me] })).wr d 0)
    else modify (fun t => (t.modGroup n (fun _ => { members := [me], phase := 0 })).wr d 1))

/-- GLEAVE (R332). -/
def execGleave (d a : BitVec 5) (s : State) : Host.Outcome State Fault Refusal :=
  s.conclude (do
    let n ← groupNumber a
    if ((s.group n).member s.cur).isSome then
      modify (fun t => (t.changeGroup n (fun g => g.leave s.cur)).wr d 0)
    else modify (fun t => t.wr d 1))

/-- Arrive in the open phase and write its number to d (R333). -/
def arriveIn (n : Nat) (d : BitVec 5) : M Unit :=
  modify (fun t => (t.changeGroup n (fun g => g.arrive t.cur)).wr d ((t.group n).phase.setWidth 64))

/-- BARW (R334): one arrival per phase, then the wait; d receives the phase waited on. -/
def execBarw (d a : BitVec 5) (s : State) : Host.Outcome State Fault Refusal :=
  s.conclude (do
    let n ← groupNumber a
    let m ← needMember n
    if !m.bw then
      release
      modify (fun t => t.changeGroup n (fun g =>
        (g.modMember t.cur (fun m => { m with la := g.phase, bw := true })).arrive t.cur))
    let t ← get
    match (t.group n).member t.cur with
    | none => illop
    | some m =>
      let _ ← waitEnded n m.la
      let t ← get
      if (t.group n).passed m.la then
        set ((t.modGroup n (fun g => g.modMember t.cur (fun m => { m with bw := false }))).wr d
          (m.la.setWidth 64))
      else waitFor (.barrier (BitVec.ofNat 12 n) m.la))

/-- BARARV (R333): a release, then the arrival. -/
def execBararv (d a : BitVec 5) (s : State) : Host.Outcome State Fault Refusal :=
  s.conclude (do
    let n ← groupNumber a
    let _ ← needMember n
    release
    arriveIn n d)

/-- BARRLX (R333): the arrival alone. -/
def execBarrlx (d a : BitVec 5) (s : State) : Host.Outcome State Fault Refusal :=
  s.conclude (do
    let n ← groupNumber a
    let _ ← needMember n
    arriveIn n d)

/-- BARWAIT (R334). -/
def execBarwait (d a b : BitVec 5) (s : State) : Host.Outcome State Fault Refusal :=
  s.conclude (do
    let n ← groupNumber a
    need (decide ((s.rd b).toNat < 2 ^ 32))
    let g := s.group n
    match ← waitEnded n ((s.rd b).setWidth 32) with
    | some freed => modify (fun t => t.wr d (if freed then 1 else 0))
    | none =>
    if !g.live then modify (fun t => t.wr d 1)
    else if g.passed ((s.rd b).setWidth 32) then modify (fun t => t.wr d 0)
    else waitFor (.barrier (BitVec.ofNat 12 n) ((s.rd b).setWidth 32)))

/-- PHEND (R274): drain, train acknowledgements, release, arrival. -/
def execPhend (d a : BitVec 5) (s : State) : Host.Outcome State Fault Refusal :=
  s.conclude (do
    let n ← groupNumber a
    let _ ← needMember n
    drainBuffer
    if (← get).th.hw.trains ≠ [] then waitFor .phend
    trainError (fun _ => true)
    arriveIn n d)

/-- GSIZE (R335). -/
def execGsize (d a : BitVec 5) (s : State) : Host.Outcome State Fault Refusal :=
  s.conclude (do
    let n ← groupNumber a
    let g := s.group n
    modify (fun t => t.wr d (if g.live then
      BitVec.ofNat 64 (g.members.length + (g.members.filter (·.arr)).length * 2 ^ 16 +
        g.phase.toNat * 2 ^ 32) else 0)))

/-- TID (R335). -/
def execTid (d : BitVec 5) (s : State) : Host.Outcome State Fault Refusal := s.result d s.tid

end Sys2Proof.Machine
end

