-- ==== Sys2Proof/Machine/Job.lean ====
section
/-!
DEFINITION. Jobs, time and chain slots: major 0x13 (R337 to R344, R474).
-/

namespace Sys2Proof.Machine

open Sys2Proof

/-- A refusal code of SPAWN (R338). -/
def refusal (c : Nat) : W64 := BitVec.ofNat 64 (2 ^ 63 + c)

/-- SPAWN (R338): the descriptor is read as a load; a release toward the child (R273, R275). -/
def execSpawn (d a b : BitVec 5) (s : State) : Host.Outcome State Fault Refusal :=
  let node := BitVec.ofNat 16 (s.rd b).toNat
  s.conclude (do
    need (decide ((s.rd b).toNat < 2 ^ 16))
    let desc ← loadWide (s.rd a) 128 128
    let t ← get
    if node ≠ 0xFFFF#16 ∧ ¬ t.nodeIn t.curPart node then modify (fun t => t.wr d (refusal 2))
    else if node ≠ 0xFFFF#16 ∧ (t.node node).holds then trap Cause.engerr (node.setWidth 64)
    else
      match t.jobRefusal t.curPart t.th.id.vf.toNat desc with
      | some c => modify (fun t => t.wr d (refusal c))
      | none =>
        release
        modify (fun t =>
          let r := t.acceptJob t.curPart t.th.id.vf.toNat desc t.th.id.job node none
          r.2.wr d (r.1.setWidth 64)))

/-- The completion word of a job that still waits for its line: a window lock, a migration or the host's
copies hold it (R52, R247, R278). -/
def State.completionRanges (s : State) (j : Job) : List (Nat × Nat) :=
  if j.cwa = 0 then [] else s.defaultRanges j.vf.toNat (BitVec.ofNat 64 j.cwa) 8

/-- JDONE (R339). -/
def execJdone (a : BitVec 5) (s : State) : Host.Outcome State Fault Refusal :=
  if s.th.sc.mode = .S then s.trapNow (plainTrap Cause.priv s.evalWord)
  else if s.th.hw.window.isSome then s.trapNow (plainTrap Cause.illop s.evalWord)
  else
    match (do drainBuffer; awaitTrains : M Unit) s with
    | (.ok _, t) =>
      let id := t.th.id.job
      let rs := match (t.part t.curPart).job? id with
        | some j => if j.finished then [] else t.completionRanges j
        | none => []
      if t.rangesHeld (some t.cur) rs then
        .next ((t.callBack rs).modHw (fun h => { h with wait := some .line }))
      else
      let u := t.settleDone t.curPart id ((s.rd a).setWidth 32)
      .next ((u.modJob t.curPart id (fun j => { j with slot := none })).emptySlot t.cur true)
    | (.error (.trap i), t) => .next (t.takeTrap i)
    | (.error (.wait w), t) => .next (t.modHw (fun h => { h with wait := some w }))

/-- STATE of the job word (R340). -/
def JobState.code : JobState → Nat
  | .pending => 0
  | .ready => 1
  | .running => 2
  | .done => 3
  | .abandoned => 4

/-- The job word (R340): a job of another function, or one retired, reads as 7. -/
def State.jobWord (s : State) (id : BitVec 32) : Nat :=
  match (s.part s.curPart).job? id with
  | none => 7
  | some j =>
    if j.vf ≠ s.th.id.vf then 7
    else j.st.code + j.cls * 2 ^ 8 + (if j.st = .done then j.result.toNat * 2 ^ 32 else 0)

/-- JSTAT (R340); one that reads a job as ABANDONED makes the thread's later accesses wait for the job's
markers (R273, R374). -/
def execJstat (d a : BitVec 5) (s : State) : Host.Outcome State Fault Refusal :=
  let id : BitVec 32 := (s.rd a).setWidth 32
  s.conclude (do
    need (decide ((s.rd a).toNat < 2 ^ 32))
    modify (fun t => (t.wr d (BitVec.ofNat 64 (s.jobWord id))).modHw (fun h => { h with
      settles := if s.jobWord id % 8 = 4 then id :: h.settles else h.settles })))

/-- The job that JDEADL may name: the issuing job, or one of its descendants (R341). -/
def State.deadlineJob (s : State) (x : BitVec 32) : Option (BitVec 32 × Job) :=
  let p := s.part s.curPart
  let me := s.th.id.job
  let id := if x = 0#32 then me else x
  if id = me ∨ (p.descendants p.jobs.length [me]).contains id then (p.job? id).map (fun j => (id, j))
  else none

/-- The deadline after JDEADL (R341): U mode only lowers it; an old 0 of class 1 to 3 is none. -/
def newDeadline (user : Bool) (j : Job) (x : W64) : W64 :=
  if x = 0#64 then j.deadline
  else if user && !(j.deadline == 0#64 && j.cls != 0) then (if x.ult j.deadline then x else j.deadline)
  else x

/-- JDEADL (R341, R396). -/
def execJdeadl (d a b : BitVec 5) (s : State) : Host.Outcome State Fault Refusal :=
  s.conclude (do
    match s.deadlineJob ((s.rd a).setWidth 32) with
    | none => modify (fun t => t.wr d 0)
    | some (id, j) =>
      let dl := newDeadline (decide (s.th.sc.mode = .U)) j (s.rd b)
      if s.rd b = 0#64 then modify (fun t => t.wr d j.deadline)
      else
        modify (fun t =>
          let t0 := t.tick
          let t1 := t0.modJob t0.curPart id (fun j => { j with deadline := dl })
          let t2 := match j.slot with
            | some n => t1.modThread n (fun h => { h with id := { h.id with deadline := dl } })
            | none => t1
          let t3 := if id = t0.th.id.job then
              { t2 with th := { t2.th with id := { t2.th.id with deadline := dl } } } else t2
          let t4 := t3.wr d dl
          if dl.toNat ≤ t0.now.toNat then t4.abandon t0.curPart id 1 else t4))

/-- PTPNOW (R342): the time has moved on by an amount that nothing fixes. While a time base that the servo has
moved back lies behind the latest result, every thread reads that result again: no thread's results decrease,
and those of one nanosecond are equal. -/
def execPtpnow (d : BitVec 5) (s : State) : Host.Outcome State Fault Refusal :=
  let t := s.tick
  let x := if t.now.ult t.hub.ptpLast then t.hub.ptpLast else t.now
  .next (((t.modHub (fun h => { h with ptpLast := x })).wr d x).finish)

/-- The chain slot of the current partition with a number (R294). -/
def State.chain (s : State) (n : Nat) : Chain := tget Chain.reset (s.part s.curPart).chains n

/-- A slot word's SLOT and flags 16 and 17; every other bit must be zero (R343). -/
def slotWord (a : BitVec 5) : M (Nat × Bool × Bool) := do
  let x := ((← get).rd a).toNat
  need (decide (x - bitsAt 2 16 x * 2 ^ 16 < 1024))
  pure (x % 1024, x.testBit 16, x.testBit 17)

/-- CHBIND (R343): bind or unbind. -/
def execChbind (d a b : BitVec 5) (s : State) : Host.Outcome State Fault Refusal :=
  s.conclude (do
    vectorGate
    let (n, unbind, f) ← slotWord a
    need (!f)
    if unbind then
      need (b == 0#5)
      modify (fun t => ((t.modVec (fun v =>
        { v with chSlot := 0, chBound := false, chFinal := false })).dirtyCfg).wr d
          (s.th.vec.vcur + s.th.vec.vl.setWidth 64))
    else
      modify (fun t => ((t.modVec (fun v =>
        { v with chSlot := BitVec.ofNat 10 n, chBound := true, chFinal := false, vcur := s.rd b,
                 vl := 0 })).dirtyCfg).wr d (s.chain n).mark))

/-- A chain slot after CHPUB (R344). -/
def Chain.publish (c : Chain) (reset fin : Bool) (x : W64) : Chain :=
  if reset then { mark := x, fin := fin }
  else { mark := if c.mark.ult x then x else c.mark, fin := c.fin || fin }

/-- CHPUB (R344): a release, then the slot changes. -/
def execChpub (d a b : BitVec 5) (s : State) : Host.Outcome State Fault Refusal :=
  s.conclude (do
    let (n, fin, rst) ← slotWord a
    release
    modify (fun t =>
      let c := (t.chain n).publish rst fin (s.rd b)
      (t.modPart t.curPart (fun p => { p with chains := tset Chain.reset p.chains n c })).wr d c.mark))

/-- CHREAD (R344): the mark, or the final flag. -/
def execChread (d a : BitVec 5) (s : State) : Host.Outcome State Fault Refusal :=
  s.conclude (do
    let (n, flag, f) ← slotWord a
    need (!f)
    modify (fun t => t.wr d (if flag then (if (s.chain n).fin then 1 else 0) else (s.chain n).mark)))

end Sys2Proof.Machine
end

