-- ==== Sys2Proof/Machine/Place.lean ====
section
/-!
DEFINITION. Lane groups and slots: which are held (R280), where the ringmaster places a waiting job (R366,
R367, R368), and what it leaves to a growing thread (R288, R291).
-/

namespace Sys2Proof.Machine

open Sys2Proof

/-! ### Lane groups -/

/-- The lane groups of a VC that its own threads and its partner's spans hold (R280). -/
def State.groupsHeld (s : State) (vc : Nat) : BitVec 4 :=
  let own := (List.range 4).foldl (fun m k =>
    let t := s.thread (4 * vc + k)
    if t.hw.occ then m ||| t.held.loc else m) 0#4
  s.slots.foldl (fun m e =>
    if e.2.hw.occ && e.2.held.remote != 0 && e.2.held.pvc.toNat == vc then m ||| e.2.held.remote
    else m)
    (if s.th.hw.occ && s.th.held.remote != 0 && s.th.held.pvc.toNat == vc then
      own ||| s.th.held.remote else own)

/-- The partner VC of a VC (R288). -/
def partnerVc (vc : Nat) : Nat := if vc < 248 then vc + 248 else vc - 248

/-- A slot that holds no context and no span (R288, R366). -/
def State.slotEmpty (s : State) (slot : Nat) : Bool :=
  !(s.thread slot).hw.occ && (s.thread slot).hw.spanOf.isNone

/-- Release the highest-numbered groups of a mask until it has k; or take the lowest free ones (R288). -/
def resize (fuel : Nat) (held free : BitVec 4) (k : Nat) : BitVec 4 :=
  match fuel with
  | 0 => held
  | fuel + 1 =>
    let n := popN 4 held.toNat
    if k < n then
      resize fuel (held &&& ~~~ BitVec.ofNat 4 (2 ^ (bitLen held.toNat - 1))) free k
    else if n < k then
      match firstBelow 4 (fun i => free.toNat.testBit i && !held.toNat.testBit i) with
      | some i => resize fuel (held ||| BitVec.ofNat 4 (2 ^ i)) free k
      | none => held
    else held

/-! ### Placement (R366, R367) -/

/-- A context's lane groups as its save area records them: local and remote counts (R409, VLG). -/
structure Need where
  loc : Nat
  rem : Nat
  deriving DecidableEq, Repr

/-- Lane groups of a VC that no thread holds. -/
def State.freeGroups (s : State) (vc : Nat) : BitVec 4 := ~~~ s.groupsHeld vc

/-- The lowest k set bits of a mask of lane groups. -/
def lowestBits (m : BitVec 4) (k : Nat) : BitVec 4 := resize 4 0 m k

/-- Jobs of a partition that wait, with their entries. -/
def Part.waitingJobs (p : Part) : List (Nat × Job) := p.jobs.filter (fun e => e.2.waiting)

/-- Slots that victims have given up, or are to give up, for other class-0 jobs than an entry's (R368). -/
def Part.wanted (p : Part) (entry : Nat) : List Nat :=
  p.waitingJobs.filterMap (fun e => if e.1 = entry then none else e.2.wants)

/-- The slot whose lane groups are kept for a job: its victim's, then its own until its first SETVL. -/
def Job.keeper (j : Job) : Option Nat :=
  if j.waiting then j.wants else if j.live && j.st == .running then j.slot else none

/-- Lane groups of a VC that victims have given up for other jobs than an entry's (R291, R368). -/
def State.keptGroups (s : State) (part entry vc : Nat) : BitVec 4 :=
  (s.part part).jobs.foldl (fun m e =>
    match e.2.keeper with
    | none => m
    | some n =>
      if e.1 = entry then m
      else if vcOf n = vc then m ||| e.2.keep
      else if partnerVc (vcOf n) = vc then m ||| e.2.keepRem else m) 0#4

/-- Free lane groups of a VC that are not kept for other jobs than an entry's. -/
def State.groupsFor (s : State) (part entry vc : Nat) : BitVec 4 :=
  s.freeGroups vc &&& ~~~ s.keptGroups part entry vc

/-- A slot of a VC can take the context of an entry's job, of a need (R366, R368, R414). -/
def State.slotTakes (s : State) (part entry slot : Nat) (n : Need) : Bool :=
  let fits := fun (v k : Nat) => decide (k ≤ popN 4 (s.groupsFor part entry v).toNat)
  let takes := fun (k : Nat) => s.slotEmpty k && !(s.vc (vcOf k)).excluded &&
    !((s.part part).wanted entry).contains k
  let vc := vcOf slot
  let p := partnerVc vc
  takes slot && fits vc n.loc &&
    (n.rem == 0 || ((s.part part).table.tiles.contains (tileOfVc p) && takes (4 * p + slot % 4) &&
      fits p n.rem))

/-- The slots of a VC that can take an entry's need. -/
def State.slotsTaking (s : State) (part entry vc : Nat) (n : Need) : List Nat :=
  (slotsOfVc vc).filter (fun k => s.slotTakes part entry k n)

/-- The VCs of a tile. -/
def vcsOfTile (t : Nat) : List Nat := (List.range 31).map (fun k => t * 31 + k)

/-- The first element of a list with the least cost. -/
def leastBy (cost : Nat → Nat) : List Nat → Option Nat
  | [] => none
  | x :: r =>
    match leastBy cost r with
    | none => some x
    | some y => if cost x ≤ cost y then some x else some y

/-- Tile, VC and slot of a job (R367). -/
def State.placeFor (s : State) (part entry aff : Nat) (n : Need) : Option Nat :=
  let tiles := ((s.part part).table.tiles).filter (fun t =>
    (vcsOfTile t).any (fun v => s.slotsTaking part entry v n != []))
  let mine := tiles.filter (fun t => aff.testBit t)
  let held := fun t => (vcsOfTile t).foldl (fun k v => k + popN 4 (s.groupsHeld v).toNat) 0
  match leastBy (fun t => held t * 16 + t) (if mine.isEmpty then tiles else mine) with
  | none => none
  | some t =>
    match leastBy (fun v => (4 - popN 4 (s.freeGroups v).toNat) * 512 + v)
        ((vcsOfTile t).filter (fun v => s.slotsTaking part entry v n != [])) with
    | none => none
    | some v => (s.slotsTaking part entry v n).head?

/-! ### Save areas (R409) -/

/-- The context in which the ringmaster reads a halted context's header (R409). -/
def State.headerCtx (s : State) (j : Job) (asid : BitVec 12) (root : BitVec 25) : Ctx :=
  { s.defaultCtx j.vf.toNat with asid := asid, root := root }

/-- The ringmaster's read of a halted context's header (R414); a context that starts has none. -/
def State.readHeader (s : State) (j : Job) : UnitRead × State :=
  match j.resume with
  | none => (.missing, s)
  | some (va, asid, root) => s.unitRead (s.headerCtx j asid root) va 0x2D0

/-- What a job needs: one lane group to start, the recorded counts to resume (R367, R414). A header that a poisoned
table stops needs no more than to be read (R75). -/
def State.needOf (s : State) (j : Job) : Option Need :=
  match j.resume with
  | none => some { loc := 1, rem := 0 }
  | some (va, asid, root) =>
    match s.walk (s.headerCtx j asid root) .load va with
    | .ok x =>
      let w := s.wordAt x.phys 0x2A0 8
      some { loc := popN 4 (w % 16), rem := popN 4 (w / 16 % 16) }
    | .error .mac => some { loc := 1, rem := 0 }
    | .error _ => none

/-- The slot for an entry's job now: the one that its victim has given up, else the one of R367. -/
def State.slotFor (s : State) (part entry : Nat) (j : Job) : Option Nat :=
  (s.needOf j).bind (fun n =>
    match j.wants with
    | some k => if s.slotTakes part entry k n then some k else s.placeFor part entry j.aff n
    | none => s.placeFor part entry j.aff n)

/-- Lane groups that a waiting job is to take on a VC, beyond those kept for it: there if it is to be placed
there, or on the partner VC of its span. -/
def State.groupsAsked (s : State) (part vc entry : Nat) (j : Job) : Nat :=
  let at' := (s.slotFor part entry j).orElse (fun _ => j.wants)
  match s.needOf j, at'.map vcOf with
  | some n, some v =>
    let kept := j.wants.map vcOf == some v
    if v = vc then n.loc - (if kept then popN 4 j.keep.toNat else 0)
    else if partnerVc v = vc then n.rem - (if kept then popN 4 j.keepRem.toNat else 0)
    else 0
  | _, _ => 0

/-- Lane groups of a VC that are for contexts the ringmaster is to place there, before a growing thread
takes any (R291). -/
def State.keptBack (s : State) (part vc : Nat) : Nat :=
  let empty := ((slotsOfVc vc).filter s.slotEmpty).length
  let asked := ((s.part part).waitingJobs.map (fun e => s.groupsAsked part vc e.1 e.2)).filter (· ≠ 0)
  (asked.take (max 1 empty)).foldl (· + ·) 0

/-- Lane groups of a VC that the current thread, growing, may take (R288, R291). -/
def State.growthGroups (s : State) (vc : Nat) : BitVec 4 :=
  let free := s.groupsFor s.curPart (s.th.id.job.toNat % 2 ^ 14) vc
  free &&& ~~~ lowestBits free (s.keptBack s.curPart vc)

end Sys2Proof.Machine
end

