-- ==== Sys2Proof/Machine/VConfig.lean ====
section
/-!
DEFINITION. Vector configuration and VINDEX: majors 0x15 and 0x16 (R350 to R355), the grant (R287,
R288), moving register contents and the park region (R289, R408 to R410).
-/

namespace Sys2Proof.Machine

open Sys2Proof

/-! ### Lane groups -/

/-- The held set that a SETVL applies: LOCAL, REMOTE and the partner (R288). -/
structure Hold where
  loc : BitVec 4
  remote : BitVec 4
  pvc : BitVec 9
  deriving DecidableEq, Repr

def Hold.count (h : Hold) : Nat := popN 4 h.loc.toNat + popN 4 h.remote.toNat

/-- The largest of 1, 2 and 4 within two bounds, at least 1. -/
def half (t k : Nat) : Nat := if 4 ≤ t ∧ 4 ≤ k then 4 else if 2 ≤ t ∧ 2 ≤ k then 2 else 1

/-- target_set(t) of R288. -/
def State.targetSet (s : State) (t : Nat) : Hold :=
  let h := s.th.held
  let free := s.growthGroups s.curVc
  let nFree := popN 4 free.toNat
  let nLoc := popN 4 h.loc.toNat
  if h.remote = 0#4 then
    let p := partnerVc s.curVc
    let spanOk := decide (t = 8 ∧ nLoc + nFree = 4) &&
      (s.part s.curPart).table.tiles.contains (tileOfVc p) && !(s.vc p).excluded &&
      decide (s.growthGroups p = 0xF) &&
      s.slotEmpty (4 * p + s.cur % 4)
    if spanOk then { loc := 0xF, remote := 0xF, pvc := BitVec.ofNat 9 p }
    else { loc := resize 4 h.loc free (half t (nLoc + nFree)), remote := 0, pvc := h.pvc }
  else
    let freeR := s.growthGroups h.pvc.toNat
    let nRem := popN 4 h.remote.toNat
    if t < 2 then { loc := resize 4 h.loc free 1, remote := 0, pvc := h.pvc }
    else
      let k := half (t / 2) (min (nLoc + nFree) (nRem + popN 4 freeR.toNat))
      { loc := resize 4 h.loc free k, remote := resize 4 h.remote freeR k, pvc := h.pvc }

/-- Apply the held set, taking or releasing the partner slot (R288). No more lane groups are kept for the
thread's job (R368). -/
def State.applyHold (s : State) (h : Hold) : State :=
  let old := s.th.held
  let s1 := if old.remote ≠ 0#4 ∧ h.remote = 0#4 then
      s.modThread (4 * old.pvc.toNat + s.cur % 4) Thread.emptied
    else if h.remote ≠ 0#4 then
      s.modThread (4 * h.pvc.toNat + s.cur % 4) (fun t => { t with hw := { t.hw with spanOf := some s.cur } })
    else s
  ((s1.modHeld (fun x => { x with loc := h.loc, remote := h.remote, pvc := h.pvc })).modHw
    (fun w => { w with rate := false })).modJob s.curPart s.th.id.job
      (fun j => { j with keep := 0, keepRem := 0 })

/-! ### Parking (R289, R410) -/

/-- Length of a register in bytes for a number of groups (R289). -/
def regBytes (t : Vt) (count : Nat) : Nat := count * 16384 / t.nreg

/-- The park region of register v at a save area (R408). -/
def parkVa (t : Vt) (vsave v : Nat) : Nat := vsave + 0x30000 + v * (0x20000 / t.nreg)

/-- Translate ranges of the thread's own address space, all before any is performed, as one batch (R48,
R289), with a check of each place: the places of each range, in order. -/
def translateRanges (check : W64 → Phys → Nat → M Unit) (places : State → W64 → List TlbPlace) (acc : Access)
    (rs : List (W64 × Nat)) : M (List (List (W64 × Phys × Nat))) := do
  let mut good := []
  let mut bad := []
  for r in rs do
    let mut here := []
    for p in pieces r.1 r.2 do
      let s ← get
      match ← resolveNow (places s p.1) acc p.1 with
      | .ok x =>
        check p.1 x.phys p.2
        if (← get).ingestBarsAt s.th.id.vf acc x.phys.loc p.2 then bad := bad ++ [(p.1, acc, .perm)]
        else here := here ++ [(p.1, x.phys, p.2)]
      | .error f => bad := bad ++ [(p.1, acc, f)]
    good := good ++ [here]
  if bad.isEmpty then pure good else faultTrap bad

/-- Ranges of an access that windows trap (R247). -/
def translateBy (places : State → W64 → List TlbPlace) (acc : Access) (rs : List (W64 × Nat)) :
    M (List (List (W64 × Phys × Nat))) :=
  translateRanges checkHome places acc rs

/-- Ranges of the parking area, which the thread's scalar port translates and no lock stops (R352). -/
def translateAll (acc : Access) (rs : List (W64 × Nat)) : M (List (List (W64 × Phys × Nat))) :=
  translateRanges (fun _ p n => checkArrivals p n) (fun s _ => s.scalarPlaces) acc rs

/-- Store bytes at the places of a range, as a store of the thread. -/
def State.storeAt (s : State) (ps : List (W64 × Phys × Nat)) (bs : List Byte) : State :=
  s.pushStore ((ps.foldl (fun (u : List BufEntry × List Byte) p =>
    (u.1 ++ [BufEntry.plain (writesOf p.2.1.loc (u.2.take p.2.2)) p.2.1.kid], u.2.drop p.2.2))
    ([], bs)).1)

/-- Read the bytes of a range at its places. -/
def readAt (va : W64) (ps : List (W64 × Phys × Nat)) : M (List Byte) := readWide va (ps.map (·.2))

/-- Registers in a mask, below NREG. -/
def regsOf (m : BitVec 32) (n : Nat) : List Nat := (List.range n).filter (fun v => m.toNat.testBit v)

/-- The word of PKRANGE (R409). -/
def pkRange (lo hi : Nat) : Nat := lo % 2 ^ 21 + hi % 2 ^ 21 * 2 ^ 32

/-- Change registers as hardware does, marking them written (R109). -/
def State.modRegs (s : State) (vs : List Nat) (f : Nat → BitVec 131072 → BitVec 131072) : State :=
  (s.modVec (fun x => { x with v := vs.foldl (fun t v => tset 0 t v (f v (tget 0 t v))) x.v })).modTr
    (fun r => { r with dReg := vs.foldl (fun d v => d ||| BitVec.ofNat 32 (2 ^ v)) r.dReg })

/-- Keep the registers of vkeep at a new length, with what was cut cleared (R289). -/
def State.trimKept (s : State) (ln : Nat) : State :=
  s.modRegs (regsOf s.th.vec.vkeep s.vt.nreg) (fun _ x => BitVec.ofNat 131072 (x.toNat % 2 ^ (8 * ln)))

/-- Address of PKMASK and PKRANGE in the save area (R409). -/
def State.parkHeader (s : State) : W64 := BitVec.ofNat 64 (s.th.tr.vsave.toNat * 4096 + 0x2A8)

/-- The part from byte `lo` of a register's park region, for each of some registers (R408). -/
def State.parkRanges (s : State) (vs : List Nat) (lo n : Nat) : List (W64 × Nat) :=
  vs.map (fun v => (BitVec.ofNat 64 (parkVa s.vt (s.th.tr.vsave.toNat * 4096) v + lo), n))

/-- Registers shrink from lo to ln bytes: park what is cut (R289, R410). -/
def shrinkRegs (lo ln : Nat) : M Unit := do
  let s ← get
  if s.th.tr.vsave ≠ 0#52 then
    let regs := regsOf s.th.vec.vkeep s.vt.nreg
    let ps ← translateAll .store ((s.parkHeader, 16) :: s.parkRanges regs ln (lo - ln))
    let hdr := ps.headD []
    let old ← readAt s.parkHeader hdr
    let hi := bitsAt 21 96 (leNat old)
    modify (fun u =>
      let u1 := (ps.tail.zip regs).foldl (fun u p =>
        u.storeAt p.1 (bytesOf (tget 0 s.th.vec.v p.2) ln (lo - ln))) u
      u1.storeAt hdr (leBytes 8 s.th.vec.vkeep.toNat ++ leBytes 8 (pkRange ln (max hi lo))))
  modify (fun s => s.trimKept ln)

/-- Registers grow from lo to ln bytes: restore what was parked, zero the rest (R289, R410). Which bytes
were parked stands in the header, which is translated and read first. -/
def growRegs (lo ln : Nat) : M Unit := do
  let s ← get
  if s.th.tr.vsave ≠ 0#52 then
    let hdr := (← translateAll .store [(s.parkHeader, 16)]).headD []
    let old ← readAt s.parkHeader hdr
    let pkmask := BitVec.ofNat 32 (leNat old)
    let pklo := bitsAt 21 64 (leNat old)
    let pkhi := bitsAt 21 96 (leNat old)
    let a := max lo pklo
    let n := min ln pkhi - a
    let regs := if n = 0 then [] else regsOf (pkmask &&& s.th.vec.vkeep) s.vt.nreg
    let ps ← translateAll .load (s.parkRanges regs a n)
    let mut got := []
    for p in ps.zip regs do
      let bs ← readAt s.parkHeader p.1
      got := got ++ [(p.2, bs)]
    modify (fun u => (got.foldl (fun u g =>
      u.modRegs [g.1] (fun _ x => BitVec.ofNat 131072 (x.toNat + leNat g.2 * 2 ^ (8 * a))))
        (u.trimKept lo)).storeAt hdr
      (leBytes 8 (if pkhi ≤ ln then 0 else pkmask.toNat) ++ leBytes 8 (pkRange ln pkhi)))
  else modify (fun s => s.trimKept lo)

/-- Move register contents to a new held set (R289): registers outside vkeep are not promised. -/
def moveRegs (h : Hold) : M Unit := do
  let s ← get
  if h.loc ≠ s.th.held.loc ∨ h.remote ≠ s.th.held.remote then
    let lo := regBytes s.vt s.lg
    let ln := regBytes s.vt h.count
    if ln < lo then shrinkRegs lo ln
    else if lo < ln then growRegs lo ln
    modify (fun s => s.forget
      ((List.range 32).filter (fun v => !s.th.vec.vkeep.toNat.testBit v || decide (s.vt.nreg ≤ v))))

/-! ### The instructions -/

/-- VCFG (R351, R410). -/
def execVcfg (d a : BitVec 5) (s : State) : Host.Outcome State Fault Refusal :=
  let x := (s.rd a).toNat
  s.conclude (do
    vectorGate
    need (s.vtypeOk x)
    if (vtOf x).nregE ≠ s.vt.nregE ∧ s.th.tr.vsave ≠ 0#52 then
      let ps ← translateAll .store [(s.parkHeader, 8)]
      modify (fun t => t.storeAt (ps.headD []) (leBytes 8 0))
    modify (fun t => (t.setVtype x).wr d (s.th.vec.vtype.setWidth 64)))

/-- SETVL (R287, R352). -/
def execSetvl (d a : BitVec 5) (s : State) : Host.Outcome State Fault Refusal :=
  let req := (s.rd a).toNat
  s.conclude (do
    vectorGate
    let h := s.th.held
    let now : Hold := { loc := h.loc, remote := h.remote, pvc := h.pvc }
    if s.th.hw.window.isNone ∧ h.yreq then
      modify (fun t => t.modHeld (fun x => { x with yreq := false }))
      trap Cause.yieldreq 0
    let hold := if s.th.hw.window.isSome then now
      else s.targetSet (min h.cap.toNat h.pwr.toNat)
    let vmax := vlmaxOf s.vt hold.count
    let v := s.th.vec
    let ch := s.chain v.chSlot.toNat
    let cur := v.vcur.toNat + v.vl.toNat
    let allow := if v.chBound then ch.mark.toNat - cur else req
    let grant := min req (min vmax allow)
    if grant = 0 ∧ 0 < req ∧ v.chBound ∧ ¬ ch.fin then
      waitFor (.chain ch.mark ch.fin h.cap h.yreq h.pwr)
    moveRegs hold
    modify (fun t =>
      let t1 := t.applyHold hold
      let t2 := if v.chBound then
          t1.modVec (fun x => { x with vcur := BitVec.ofNat 64 cur, chFinal := ch.fin }) else t1
      (t2.setVl grant).wr d (BitVec.ofNat 64 grant)))

/-- VKEEP (R353). -/
def execVkeep (d a : BitVec 5) (s : State) : Host.Outcome State Fault Refusal :=
  let x := (s.rd a).toNat
  s.conclude (do
    vectorGate
    need (decide (x < 2 ^ 32))
    let k := BitVec.ofNat 32 ((s.th.vec.vkeep.toNat ||| x) % 2 ^ s.vt.nreg)
    modify (fun t => ((t.modVec (fun v => { v with vkeep := k })).dirtyCfg).wr d (k.setWidth 64)))

/-- VDEAD (R353): the named registers' contents are not promised. -/
def execVdead (d a : BitVec 5) (s : State) : Host.Outcome State Fault Refusal :=
  let x := (s.rd a).toNat
  s.conclude (do
    vectorGate
    need (decide (x < 2 ^ 32))
    let m := BitVec.ofNat 32 (x % 2 ^ s.vt.nreg)
    let k := s.th.vec.vkeep &&& ~~~ m
    modify (fun t => ((((t.modVec (fun v => { v with vkeep := k })).dirtyCfg).modTr
      (fun r => { r with dReg := r.dReg &&& ~~~ m })).forget (regsOf m 32)).wr d (k.setWidth 64)))

/-- VLMAXR (R354). -/
def execVlmaxr (d a b : BitVec 5) (s : State) : Host.Outcome State Fault Refusal :=
  let x := (s.rd a).toNat
  let n := if s.rd b = 0#64 then s.lg else (s.rd b).toNat
  s.conclude (do
    vectorGate
    modify (fun t => t.wr d (if legalVtype x && decide (n ≤ 8) then
      BitVec.ofNat 64 (vlmaxOf (vtOf x) n) else 0)))

/-- VINDEX on one element (R355). -/
def vindexOf (t : Vt) (start step : Int) (e : Nat) : Res :=
  let x := start + e * step
  if t.cls = 3 then t.res (cvtIF (fmtOf t.fmt t.sewE) 0 t.rnd x)
  else t.res { val := lowN t.sew x, ev := 0 }

/-- VINDEX (R355). -/
def execVindex (_cont : Bool) (d p : BitVec 5) (i : BitVec 8) (k : BitVec 7) (s : State) :
    Host.Outcome State Fault Refusal :=
  s.conclude (do
    let t ← vectorChecks [d] (Vt.isIn [0, 1, 2, 3, 6])
    modify (fun u => u.mapElems d p (vindexOf t i.toInt k.toInt)))

end Sys2Proof.Machine
end

