-- ==== Sys2Proof/Machine/Caldera.lean ====
section
/-!
DEFINITION. The caldera (R71, R72) and its loads: major 0x3A (R239 to R242).
-/

namespace Sys2Proof.Machine

open Sys2Proof

/-! ### Bytes of the caldera -/

/-- A caldera offset: column × 32,768 + slice offset (R78). -/
def caldAt (col off : Nat) : Nat := col * 32768 + off

/-- A byte of a VC's caldera. -/
def Vc.caldByte (v : Vc) (k : Nat) : Byte := tget 0 v.cald k

/-- Write caldera bytes; a poisoned word that is wholly written is clean again (R75). -/
def Vc.putCald (v : Vc) (ws : List (Nat × Byte)) : Vc :=
  { v with
    cald := ws.foldl (fun t x => tset 0 t x.1 x.2) v.cald
    caldPoison := v.caldPoison.filter (fun w =>
      !((List.range 8).all (fun k => ws.any (fun x => x.1 == 8 * w + k)))) }

/-- Bytes of one plane of K rows: whole chunks of 512 (R71). -/
def planeStride (k : Nat) : Nat := ceilDiv k 512 * 64

/-- A range of slice offsets lies in a window of a base and a size (R72). -/
def inWindow (base size cb span : Nat) : Bool :=
  decide (span = 0 ∨ (base ≤ cb ∧ cb + span ≤ base + size))

/-- The acfg window of the current thread holds a range. -/
def State.inAcfg (s : State) (cb span : Nat) : Bool :=
  inWindow s.th.fl.cbase.toNat s.th.fl.csize.toNat cb span

/-! ### Locks on ranges of a load or fill -/

/-- The lowest position at or above `lo` and at most `hi` that a lock covers. -/
def Lock.firstIn (l : Lock) (lo : Nat) : Nat := max l.lo lo - lo

/-- The lowest byte, by address, among several ranges that meets a lock (R240). -/
def lowestHit {α : Type} (hits : List (Nat × α)) : Option (Nat × α) :=
  hits.foldl (fun b h =>
    match b with | none => some h | some x => if h.1 < x.1 then some h else some x) none

/-- Locks of the tables that check a space (R94). -/
def State.locksFor (s : State) (sp : Space) : List Lock :=
  (s.tile s.curTile).locks ++ (match sp with | .scratch t => (s.tile t).locks | _ => [])

/-- Locks of the tables that a range meets as a load: the address of its first byte in each (R94). -/
def State.tableHits (s : State) (r : W64 × Nat) : List (Nat × Option (BitVec 16)) :=
  (spacesOf s.th.id.vf s.th.tr.asid s.curTile r.1.toNat r.2).flatMap (fun p =>
    (s.locksFor p.space).filterMap (fun l =>
      if l.meets s.cur p.space p.lo p.hi false then
        some (p.va + l.firstIn p.lo, if l.window.isSome then none else some l.node) else none))

/-- Windows of other threads that a range meets at its homes, in the same form (R247). -/
def State.windowHits (s : State) (r : W64 × Nat) : List (Nat × Option (BitVec 16)) :=
  (pieces r.1 r.2).flatMap (fun p =>
    match s.walk s.ctx .load p.1 with
    | .error _ => []
    | .ok x => s.windowRuns.filterMap (fun l =>
        if l.1 ≠ s.cur ∧ l.2.1 < x.phys.loc + p.2 ∧ x.phys.loc ≤ l.2.2 then
          some (p.1.toNat + (max l.2.1 x.phys.loc - x.phys.loc), none) else none))

/-- Trap RLOCK at the lowest byte of the ranges of an access, given by address and length. -/
def checkRows (rows : List (W64 × Nat)) : M Unit := do
  let s ← get
  match lowestHit (rows.flatMap (fun r => s.tableHits r ++ s.windowHits r)) with
  | some h => throw (.trap (rlockTrap (BitVec.ofNat 64 h.1) (h.2.getD 0xFFFF#16)))
  | none => pure ()

/-- Trap RLOCK at the lowest caldera offset of a write of `span` bytes in every slice (R240, R241). -/
def checkCald (cb span : Nat) : M Unit := do
  let s ← get
  if span ≠ 0 then
    let hits := (List.range 32).flatMap (fun col =>
      (s.tile s.curTile).locks.filterMap (fun l =>
        if l.meets s.cur (.caldera s.curVc) (caldAt col cb) (caldAt col cb + span - 1) true then
          some (caldAt col cb + l.firstIn (caldAt col cb), l) else none))
    match lowestHit hits with
    | some h => throw (.trap (rlockTrap (BitVec.ofNat 64 h.1) h.2.node))
    | none => pure ()

/-! ### CBLD (R239, R240) -/

/-- The planes of column n: byte i of plane j holds bit 7 − j of the elements of rows 8i to 8i + 7, and
0 for rows at or beyond K. -/
def planeWrites (cb planes rows : Nat) (el : Nat → Nat → Nat) : List (Nat × Byte) :=
  (List.range 32).flatMap (fun n =>
    (List.range planes).flatMap (fun j =>
      (List.range (planeStride rows)).map (fun i =>
        (caldAt n (cb + j * planeStride rows + i),
          BitVec.ofNat 8 (bitsOf 8 (fun r =>
            decide (8 * i + r < rows) && (el (8 * i + r) n).testBit (7 - j)))))))

/-- Address of row k. -/
def rowAddr (base pitch : W64) (k : Nat) : W64 := base + BitVec.ofNat 64 k * pitch

/-- Read the rows of a load at their places, from row k on. -/
def readRows (base pitch : W64) (k : Nat) : List (List (W64 × Phys × Nat)) → M (List (Nat × Nat))
  | [] => pure []
  | r :: rs => do
    let bs ← readAt (rowAddr base pitch k) r
    let l ← readRows base pitch (k + 1) rs
    pure ((k, leNat bs) :: l)

/-- CBLD (R239, R240). -/
def execCbld (sc b : BitVec 5) (s : State) : Host.Outcome State Fault Refusal :=
  let x := (s.rd sc).toNat
  let base := s.rd b
  let cb := bitsAt 15 0 x
  let bt := bitsAt 2 15 x
  let bpl := bitsAt 3 17 x
  let kr := bitsAt 13 20 x
  let pitch : W64 := BitVec.ofNat 64 (x / 2 ^ 33)
  let e := if bt = 0 then 2 else 1
  let span := if bt = 2 then (bpl + 1) * planeStride kr else kr * e
  s.conclude (do
    vectorGate
    need (decide (bt ≠ 3 ∧ (if bt = 2 then 1 ≤ bpl else bpl = 0) ∧ 1 ≤ kr ∧ kr ≤ 4096 ∧
      cb % (if bt = 2 then 64 else e) = 0))
    need (s.inAcfg cb span)
    checkAlign base e
    if 2 ≤ kr ∧ pitch.toNat % e ≠ 0 then trap Cause.align (base + pitch)
    checkRows ((List.range kr).map (fun k => (rowAddr base pitch k, 32 * e)))
    checkCald cb span
    let all ← translateBy (fun u va => u.lanePlaces va.toNat) .load ((List.range kr).map (fun k => (rowAddr base pitch k, 32 * e)))
    let got ← readRows base pitch 0 all
    let rows : Table Nat := got.foldl (fun t r => tset 0 t r.1 r.2) []
    let el := fun (k n : Nat) => tget 0 rows k / 2 ^ (8 * (n * e)) % 2 ^ (8 * e)
    let ws := if bt = 2 then planeWrites cb (bpl + 1) kr el
      else (List.range 32).flatMap (fun n => (List.range kr).flatMap (fun k =>
        writesOf (caldAt n (cb + k * e)) (leBytes e (el k n))))
    modify (fun u => u.modVc u.curVc (fun v => v.putCald ws)))

/-! ### CBFILL (R241) -/

/-- A CLASS 3 type of 8 or 16 bits, or i8. -/
def fillType (t : Vt) : Bool := (t.cls == 3 && decide (t.sewE ≤ 1)) || (t.cls == 0 && t.sewE == 0)

/-- CBFILL (R241). -/
def execCbfill (a b p : BitVec 5) (s : State) : Host.Outcome State Fault Refusal :=
  let x := (s.rd b).toNat
  s.conclude (do
    let t ← vectorChecks [a] fillType
    let planes := t.cls == 0
    let rows := s.vl / 32
    let span := if planes then (t.planes + 1) * planeStride rows else rows * t.size
    need (decide (x < 2 ^ 15 ∧ s.vl % 32 = 0 ∧ x % (if planes then 64 else t.size) = 0) &&
      (!planes || p == 0#5))
    need (s.inAcfg x span)
    if s.vl ≠ 0 then
      checkCald x span
      modify (fun u =>
        let ws := if planes then planeWrites x (t.planes + 1) rows (fun k n => u.elem a (32 * k + n))
          else (u.todo p).flatMap (fun e =>
            writesOf (caldAt (e % 32) (x + e / 32 * t.size)) (leBytes t.size (u.elem a e)))
        u.modVc u.curVc (fun v => v.putCald ws)))

end Sys2Proof.Machine
end

