-- ==== Sys2Proof/Machine/Fetch.lean ====
section
/-!
DEFINITION. Fetching a convoy: the loop buffer (R295, R312), the instruction cache (R59, R277), the
64-byte block of the head (R148), forming members under R145.
-/

namespace Sys2Proof.Machine

open Sys2Proof

/-- Why a convoy cannot be formed or issued. -/
inductive FetchStop where
  /-- A trap with its cause, value and member. -/
  | trap (cause : Nat) (val : W64) (mbr nmbr : Nat)
  /-- A translation fault of the head's block, with its address (R148 step 1). -/
  | fault (va : W64) (f : XFault)
  /-- The walker's update of A waits for a line (R42); the convoy is tried again. -/
  | wait
  deriving DecidableEq, Repr

/-- The word at an offset of a 64-byte block. -/
def wordAt (blk : BitVec 512) (off : Nat) : W32 := BitVec.ofNat 32 (blk.toNat >>> (8 * off))

/-- Form members from a block under R145 and R148 step 2: the words, or the CONVOY breach as reason
and member. -/
def formWords (blk : BitVec 512) (fuel off n : Nat) : Except (Nat × Nat × W32) (List W32) :=
  match fuel with
  | 0 => .ok []
  | fuel + 1 =>
    let w := wordAt blk off
    if !w.getLsbD 31 then .ok [w]
    else if n = 3 then .error (2, 3, w)
    else if off = 60 then .error (4, n, w)
    else
      match formWords blk fuel (off + 4) (n + 1) with
      | .ok l => .ok (w :: l)
      | .error e => .error e

/-- eval of a CONVOY trap (R147). -/
def convoyVal (reason mbr : Nat) (w : W32) : W64 :=
  BitVec.ofNat 64 (reason + mbr * 16 + w.toNat * 2 ^ 32)

/-- The 64-byte block of a place at its home, as its function sees it. -/
def State.blockAt (s : State) (p : Phys) : BitVec 512 :=
  BitVec.ofNat 512 (leNat (s.homeBytes { p with loc := p.loc / 64 * 64 } 64))

/-- The copies of a block that a thread of the current VC may still fetch from: its own fetched words, and
the instruction cache (R59, R277). -/
def State.blockCopies (s : State) (key : Nat) : List (BitVec 512) :=
  ((s.th.hw.fetched.find? (fun e => e.1 == key)).map (·.2)).toList ++
    (((s.vc s.curVc).icache.find? (fun e => e.1 == key)).map (·.2)).toList

/-- A block enters an instruction cache of 256 sets of 4 ways (R59, log entry 99). -/
def icachePut (l : List (Nat × BitVec 512)) (key : Nat) (b : BitVec 512) : List (Nat × BitVec 512) :=
  cachePut (fun x y => x.1 % 256 == y.1 % 256) 4 (l.filter (fun e => decide (e.1 ≠ key))) (key, b)

/-- Keep a block among the thread's fetched words, and in the instruction cache when it came from its
home. -/
def State.keepBlock (s : State) (key : Nat) (b : BitVec 512) (fill : Bool) : State :=
  let s1 := s.modHw (fun h => { h with fetched := tinsert h.fetched key b })
  if fill then s1.modVc s1.curVc (fun v => { v with icache := icachePut v.icache key b }) else s1

/-- The block as the thread fetches it, none for a poisoned word at the home (R75). A copy that differs from
the home may or may not still be held, so a free choice decides (R59, R277); a fetch from the home reaches
the L2 (R57). -/
def State.fetchBlock (s0 : State) (p : Phys) : Option (BitVec 512) × State :=
  let s := s0.claim p.loc p.kid
  let key := p.loc / 64
  let olds := s.blockCopies key
  let fresh := s.blockAt p
  let stale := olds.filter (fun b => decide (b ≠ fresh))
  let n := if stale.isEmpty then 0 else Config.freeNat s.free % (stale.length + 1)
  let s1 := if stale.isEmpty then s else s.bump
  match stale[n]? with
  | some b => if stale.isEmpty then (none, s1) else (some b, s1.keepBlock key b false)
  | none =>
    if olds.contains fresh then (some fresh, s1.keepBlock key fresh false)
    else if s1.poisoned (p.loc / 64 * 64) 64 then (none, s1)
    else
      let s2 := s1.touch [p.loc / 128] p.kid (fun _ => .age 0) false
      (some fresh, s2.keepBlock key fresh true)

/-- Whether a fetch may be translated, and the state in which it is: where the walker is to set A, the
thread's buffer drains and its trains are acknowledged first, as for an acquire and release (R42). -/
def State.fetchReady (s : State) (pc : W64) : Bool × State :=
  match (s.translate s.scalarPlaces s.ctx .fetch pc).1.1 with
  | .ok x =>
    if x.pte.isNone then (true, s)
    else if s.bufHeld s.cur s.th.hw.buf then (false, s.callBackBuf s.th.hw.buf)
    else (s.drainAll.th.hw.trains.isEmpty, s.drainAll)
  | .error _ => (true, s)

/-- Fetch and form the convoy at an address of the current thread, without its loop buffer. Fetches are not
checked against locks (R94). -/
def State.fetchAt (s : State) (pc : W64) : Except FetchStop (List W32) × State :=
  if pc.toNat % 4 ≠ 0 then (.error (.trap Cause.align pc 0 0), s)
  else if !(s.fetchReady pc).1 then (.error .wait, (s.fetchReady pc).2)
  else
    let u := (s.fetchReady pc).2
    let r := u.resolve u.scalarPlaces u.ctx .fetch pc
    match r.1 with
    | .error (.held _) => (.error .wait, r.2)
    | .error .mac => (.error (.trap Cause.macfail pc 0 0), r.2)
    | .error f => (.error (.fault pc f), r.2)
    | .ok x =>
      let b := r.2.fetchBlock x.phys
      match b.1 with
      | none => (.error (.trap Cause.macfail pc 0 0), b.2)
      | some blk =>
        match formWords blk 4 (pc.toNat % 64) 0 with
        | .ok ws => (.ok ws, b.2)
        | .error (reason, mbr, w) =>
          (.error (.trap Cause.convoy (convoyVal reason mbr w) 0 0), b.2)

/-- Form the convoys of a nest's body (R312): n convoys from an address, up to the first that cannot
be formed, which is given with its address. -/
def State.formBody (s : State) (n : Nat) (pc : W64) :
    List (W64 × List W32) × Option (W64 × FetchStop) × State :=
  match n with
  | 0 => ([], none, s)
  | n + 1 =>
    match s.fetchAt pc with
    | (.ok ws, s1) =>
      let r := s1.formBody n (pc + BitVec.ofNat 64 (4 * ws.length))
      ((pc, ws) :: r.1, r.2)
    | (.error e, s1) => ([], some (pc, e), s1)

/-- Address of the first body convoy. -/
def Nest.start (n : Nest) : W64 := n.body.setWidth 64 <<< 2

/-- The body is needed and the loop buffer does not hold it (R312): the program counter is among the
words that a body can cover. -/
def State.needsBody (s : State) : Bool :=
  let n := s.th.nest
  n.open_ && n.armed && decide (n.buf.length ≤ n.pos.toNat) &&
    decide ((s.th.sc.pc - n.start).toNat < 256)

/-- Fill the loop buffer when it is needed (R312); gives the convoy of the body that cannot be formed. -/
def State.fillBody (s : State) : Option (W64 × FetchStop) × State :=
  if s.needsBody then
    let r := s.formBody (s.th.nest.blen.toNat + 1) s.th.nest.start
    (if r.1.length ≤ s.th.nest.pos.toNat then r.2.1 else none,
      r.2.2.modNest (fun x => { x with buf := r.1 }))
  else (none, s)

/-- The address that follows the body's last convoy (R312), or the stop found in forming it. -/
def State.bodyEnd (s : State) : Except FetchStop W64 × State :=
  let n := s.th.nest
  let r := if n.buf.length = n.blen.toNat + 1 then (n.buf, none, s)
    else s.formBody (n.blen.toNat + 1) n.start
  match r.2.1 with
  | some e => (.error e.2, r.2.2)
  | none =>
    (.ok (n.start + BitVec.ofNat 64 (r.1.foldl (fun k c => k + 4 * c.2.length) 0)), r.2.2)

/-- The convoy at the program counter: from the loop buffer when the nest replays it, else fetched. -/
def State.fetchConvoy (s : State) : Except FetchStop (List W32) × State :=
  if s.inBody then
    match s.th.nest.buf[s.th.nest.pos.toNat]? with
    | some c => (.ok c.2, s)
    | none => s.fetchAt s.th.sc.pc
  else s.fetchAt s.th.sc.pc

/-- Take the trap of a convoy that cannot be formed (R148), with epc at the program counter; a fetch whose
walker waits leaves the thread waiting. -/
def State.fetchTrap (s : State) (f : FetchStop) : State :=
  match f with
  | .trap c v m n =>
    (s.modCv (fun cv => { cv with mbr := BitVec.ofNat 2 m, nmbr := BitVec.ofNat 2 n })).takeTrapWith
      (plainTrap c v) false false
  | .wait => s.modHw (fun h => { h with wait := some .fetch })
  | .fault va .perm => s.takeTrapWith (plainTrap Cause.perm va) false false
  | .fault va f =>
    let r := s.appendBatch s.curPart s.th.id.vf s.th.tr.asid s.cur ((PFault.of va .fetch f).toList)
    r.1.takeTrapWith (pfaultTrap va r.2 false) false false

end Sys2Proof.Machine
end

