-- ==== Sys2Proof/Machine/Scalar.lean ====
section
/-!
DEFINITION. Integer register and immediate instructions: majors 0x01 to 0x04 (R300 to R303).
-/

namespace Sys2Proof.Machine

open Sys2Proof

/-- A 1 or a 0 (R300, SLT). -/
def flagWord (b : Bool) : W64 := if b then 1 else 0

/-- sext(imm12, 12) (R302). -/
def sext12 (i : BitVec 12) : W64 := i.signExtend 64

/-- sext(imm20, 20) × 4,096 (R303). -/
def upper20 (i : BitVec 20) : W64 := i.signExtend 64 <<< 12

/-- DIV (R301). -/
def divS (x y : W64) : W64 := if y = 0#64 then BitVec.allOnes 64 else x.sdiv y

/-- REM (R301). -/
def remS (x y : W64) : W64 := if y = 0#64 then x else x.srem y

/-- DIVN (R301). -/
def divU (x y : W64) : W64 := if y = 0#64 then BitVec.allOnes 64 else x / y

/-- REMN (R301). -/
def remU (x y : W64) : W64 := if y = 0#64 then x else x % y

/-- MULH: the high half of the signed product (R300). -/
def mulHigh (x y : W64) : W64 := BitVec.ofInt 64 (x.toInt * y.toInt / 2 ^ 64)

def execAdd (d a b : BitVec 5) (s : State) : Host.Outcome State Fault Refusal :=
  s.result d (s.rd a + s.rd b)
def execSub (d a b : BitVec 5) (s : State) : Host.Outcome State Fault Refusal :=
  s.result d (s.rd a - s.rd b)
def execAnd (d a b : BitVec 5) (s : State) : Host.Outcome State Fault Refusal :=
  s.result d (s.rd a &&& s.rd b)
def execOr (d a b : BitVec 5) (s : State) : Host.Outcome State Fault Refusal :=
  s.result d (s.rd a ||| s.rd b)
def execXor (d a b : BitVec 5) (s : State) : Host.Outcome State Fault Refusal :=
  s.result d (s.rd a ^^^ s.rd b)
def execAndn (d a b : BitVec 5) (s : State) : Host.Outcome State Fault Refusal :=
  s.result d (s.rd a &&& ~~~ s.rd b)
def execSll (d a b : BitVec 5) (s : State) : Host.Outcome State Fault Refusal :=
  s.result d (s.rd a <<< ((s.rd b).toNat % 64))
def execSrl (d a b : BitVec 5) (s : State) : Host.Outcome State Fault Refusal :=
  s.result d (s.rd a >>> ((s.rd b).toNat % 64))
def execSra (d a b : BitVec 5) (s : State) : Host.Outcome State Fault Refusal :=
  s.result d ((s.rd a).sshiftRight ((s.rd b).toNat % 64))
def execSlt (d a b : BitVec 5) (s : State) : Host.Outcome State Fault Refusal :=
  s.result d (flagWord ((s.rd a).slt (s.rd b)))
def execSltn (d a b : BitVec 5) (s : State) : Host.Outcome State Fault Refusal :=
  s.result d (flagWord ((s.rd a).ult (s.rd b)))
def execMul (d a b : BitVec 5) (s : State) : Host.Outcome State Fault Refusal :=
  s.result d (s.rd a * s.rd b)
def execMulh (d a b : BitVec 5) (s : State) : Host.Outcome State Fault Refusal :=
  s.result d (mulHigh (s.rd a) (s.rd b))
def execDiv (d a b : BitVec 5) (s : State) : Host.Outcome State Fault Refusal :=
  s.result d (divS (s.rd a) (s.rd b))
def execDivn (d a b : BitVec 5) (s : State) : Host.Outcome State Fault Refusal :=
  s.result d (divU (s.rd a) (s.rd b))
def execRem (d a b : BitVec 5) (s : State) : Host.Outcome State Fault Refusal :=
  s.result d (remS (s.rd a) (s.rd b))
def execRemn (d a b : BitVec 5) (s : State) : Host.Outcome State Fault Refusal :=
  s.result d (remU (s.rd a) (s.rd b))
def execClz (d a : BitVec 5) (s : State) : Host.Outcome State Fault Refusal :=
  s.result d (BitVec.ofNat 64 (clzN 64 (s.rd a).toNat))
def execPopc (d a : BitVec 5) (s : State) : Host.Outcome State Fault Refusal :=
  s.result d (BitVec.ofNat 64 (popN 64 (s.rd a).toNat))
def execBrev (d a : BitVec 5) (s : State) : Host.Outcome State Fault Refusal :=
  s.result d (BitVec.ofNat 64 (revN 64 (s.rd a).toNat))

def execAddi (d a : BitVec 5) (i : BitVec 12) (s : State) : Host.Outcome State Fault Refusal :=
  s.result d (s.rd a + sext12 i)
def execAndi (d a : BitVec 5) (i : BitVec 12) (s : State) : Host.Outcome State Fault Refusal :=
  s.result d (s.rd a &&& sext12 i)
def execOri (d a : BitVec 5) (i : BitVec 12) (s : State) : Host.Outcome State Fault Refusal :=
  s.result d (s.rd a ||| sext12 i)
def execXori (d a : BitVec 5) (i : BitVec 12) (s : State) : Host.Outcome State Fault Refusal :=
  s.result d (s.rd a ^^^ sext12 i)
def execSlli (d a : BitVec 5) (n : BitVec 6) (s : State) : Host.Outcome State Fault Refusal :=
  s.result d (s.rd a <<< n.toNat)
def execSrli (d a : BitVec 5) (n : BitVec 6) (s : State) : Host.Outcome State Fault Refusal :=
  s.result d (s.rd a >>> n.toNat)
def execSrai (d a : BitVec 5) (n : BitVec 6) (s : State) : Host.Outcome State Fault Refusal :=
  s.result d ((s.rd a).sshiftRight n.toNat)
def execSlti (d a : BitVec 5) (i : BitVec 12) (s : State) : Host.Outcome State Fault Refusal :=
  s.result d (flagWord ((s.rd a).slt (sext12 i)))
def execLui (d : BitVec 5) (i : BitVec 20) (s : State) : Host.Outcome State Fault Refusal :=
  s.result d (upper20 i)
def execAddpc (d : BitVec 5) (i : BitVec 20) (s : State) : Host.Outcome State Fault Refusal :=
  s.result d (s.th.sc.pc + upper20 i)

end Sys2Proof.Machine
end

