-- ==== Sys2Proof/Machine/Control.lean ====
section
/-!
DEFINITION. Branches, jumps and loop nests: majors 0x0C to 0x0F (R308 to R313, R295, R296).
-/

namespace Sys2Proof.Machine

open Sys2Proof

/-- The target of a branch: A + sext(off12, 12) × 4 (R308). -/
def State.branchTarget (s : State) (o : BitVec 12) : W64 := s.th.sc.pc + (sext12 o <<< 2)

/-- A branch that is taken under a condition (R308). -/
def State.branchIf (s : State) (c : Bool) (o : BitVec 12) : Host.Outcome State Fault Refusal :=
  .next (s.retire (if c then some (s.branchTarget o) else none))

def execBeq (a b : BitVec 5) (o : BitVec 12) (s : State) : Host.Outcome State Fault Refusal :=
  s.branchIf (s.rd a == s.rd b) o
def execBne (a b : BitVec 5) (o : BitVec 12) (s : State) : Host.Outcome State Fault Refusal :=
  s.branchIf (s.rd a != s.rd b) o
def execBlt (a b : BitVec 5) (o : BitVec 12) (s : State) : Host.Outcome State Fault Refusal :=
  s.branchIf ((s.rd a).slt (s.rd b)) o
def execBge (a b : BitVec 5) (o : BitVec 12) (s : State) : Host.Outcome State Fault Refusal :=
  s.branchIf (!(s.rd a).slt (s.rd b)) o
def execBltn (a b : BitVec 5) (o : BitVec 12) (s : State) : Host.Outcome State Fault Refusal :=
  s.branchIf ((s.rd a).ult (s.rd b)) o
def execBgen (a b : BitVec 5) (o : BitVec 12) (s : State) : Host.Outcome State Fault Refusal :=
  s.branchIf (!(s.rd a).ult (s.rd b)) o

/-- JAL (R309). -/
def execJal (d : BitVec 5) (o : BitVec 20) (s : State) : Host.Outcome State Fault Refusal :=
  .next ((s.wr d (s.th.sc.pc + 4)).retire (some (s.th.sc.pc + (o.signExtend 64 <<< 2))))

/-- JALR (R309): the target is checked before anything is written. -/
def execJalr (d a : BitVec 5) (i : BitVec 12) (s : State) : Host.Outcome State Fault Refusal :=
  let t := s.rd a + sext12 i
  if t.toNat % 4 ≠ 0 then s.trapNow (plainTrap Cause.align t)
  else .next ((s.wr d (s.th.sc.pc + 4)).retire (some t))

/-- LNEST's control word (R310): INC, DRAIN, and bits 63:49 zero. -/
def lnestLevel (c a : BitVec 5) (w : W64) : NestLevel :=
  { creg := c, areg := a, drain := w.getLsbD 48, inc := w.setWidth 48 }

/-- The nest after an LNEST: opened with level 0, or with its next outer level (R311). -/
def Nest.define (n : Nest) (l : NestLevel) (count : W64) : Nest :=
  let k := if n.open_ then n.nlev.toNat else 0
  { n with open_ := true, armed := false, nlev := BitVec.ofNat 3 (k + 1), blen := 0, pos := 0,
           lev := tset NestLevel.reset n.lev k l, init := tset 0 n.init k count, buf := [] }

/-- LNEST (R311, R295). -/
def execLnest (d a b : BitVec 5) (s : State) : Host.Outcome State Fault Refusal :=
  s.conclude (do
    need (d != 0#5)
    need (decide ((s.rd b).toNat < 2 ^ 49))
    need (!(s.th.nest.open_ && (s.th.nest.armed || decide (6 ≤ s.th.nest.nlev.toNat))))
    modify (fun t => t.modNest (fun n => n.define (lnestLevel d a (s.rd b)) (s.rd d))))

/-- LBODY (R311): n - 1 stands in the d field; the body is formed at once (R312). -/
def execLbody (n : BitVec 5) (s : State) : Host.Outcome State Fault Refusal :=
  if n.toNat < 16 ∧ s.th.nest.open_ ∧ ¬ s.th.nest.armed then
    let s1 := (s.retire none).modNest (fun x =>
      { x with armed := true, blen := n.setWidth 4, pos := 0,
               body := ((s.th.sc.pc + 4) >>> 2).setWidth 62, buf := [] })
    .next s1.fillBody.2
  else s.trapNow (plainTrap Cause.illop s.evalWord)

/-- LEXIT (R312): closes the nest and continues after its body when the operands are equal. -/
def execLexit (a b : BitVec 5) (s : State) : Host.Outcome State Fault Refusal :=
  if ¬ (s.th.nest.open_ ∧ s.th.nest.armed) then s.trapNow (plainTrap Cause.illop s.evalWord)
  else if s.rd a = s.rd b then
    match s.bodyEnd with
    | (.ok e, s1) => .next ((s1.modNest Nest.close).retire (some e))
    | (.error f, s1) => .next (s1.fetchTrap f)
  else .next (s.retire none)

end Sys2Proof.Machine
end

