-- ==== Sys2Proof/Machine/Engine.lean ====
section
/-!
DEFINITION. Engine commands and the node instructions: major 0x3C (R243 to R245), with the descriptors
of R78 to R85 and the ranges of R87 and R93.
-/

namespace Sys2Proof.Machine

open Sys2Proof

/-! ### Copy descriptors (R78, R79) -/

structure Dim where
  count : Nat
  sstr : Int
  dstr : Int
  deriving DecidableEq, Repr

structure CopyDesc where
  src : Nat
  dst : Nat
  ndim : Nat
  ses : Nat
  des : Nat
  conv : Nat
  scal : Bool
  dcal : Bool
  pack : Bool
  bfp : Bool
  pln : Nat
  node : BitVec 16
  /-- Dimensions 0 to 5. -/
  dims : List Dim
  /-- A reserved bit or byte is set. -/
  bad : Bool
  deriving DecidableEq, Repr

/-- Bytes lo to lo + n − 1 of a descriptor as a number. -/
def descField (d : List Byte) (lo n : Nat) : Nat := leNat ((d.drop lo).take n)

def copyDesc (d : List Byte) : CopyDesc :=
  let f := descField d
  let c := f 16 8
  { src := f 0 8, dst := f 8 8, ndim := bitsAt 3 0 c, ses := bitsAt 2 3 c, des := bitsAt 2 5 c,
    conv := bitsAt 4 7 c, scal := c.testBit 11, dcal := c.testBit 12, pack := c.testBit 13,
    bfp := c.testBit 14, pln := bitsAt 3 15 c, node := BitVec.ofNat 16 (c / 2 ^ 32),
    dims := (List.range 6).map (fun j =>
      { count := f (32 + 12 * j) 4, sstr := sextN 32 (f (36 + 12 * j) 4),
        dstr := sextN 32 (f (40 + 12 * j) 4) }),
    bad := decide (bitsAt 14 18 c ≠ 0 ∨ c / 2 ^ 48 ≠ 0 ∨ f 24 8 ≠ 0 ∨ f 104 24 ≠ 0) }

/-- The dimensions that a copy uses. -/
def CopyDesc.used (c : CopyDesc) : List Dim := c.dims.take c.ndim

/-- CONV's rule on the element sizes (R81). -/
def convSizes (conv ses des : Nat) : Bool :=
  if conv = 0 then decide (ses = des)
  else if conv ≤ 2 then decide (ses < des)
  else if conv = 3 then decide (des < ses)
  else if conv ≤ 5 then decide (ses = 2 ∧ des = 1)
  else if conv ≤ 7 then decide (ses = 1 ∧ des = 2)
  else if conv ≤ 9 then decide (ses = 2 ∧ des = 0)
  else false

/-- Bytes that one element, pass or PRB covers on a side (R80, R82, R83). -/
def CopyDesc.srcSize (c : CopyDesc) : Nat := if c.bfp then 28 else 2 ^ c.ses
def CopyDesc.dstSize (c : CopyDesc) : Nat :=
  if c.bfp then 48 else if c.pack then 64 * (c.pln + 1) else 2 ^ c.des

/-- A used dimension has no iterations: the copy makes no access (R80). -/
def CopyDesc.isEmpty (c : CopyDesc) : Bool := c.used.any (fun d => d.count == 0)

/-- The lowest and highest reach of a stride over its iterations. -/
def reachOf (count : Nat) (str : Int) : Int × Int :=
  let x := ((count : Int) - 1) * str
  (min 0 x, max 0 x)

/-- Bounding range of a side (R87): its lowest and highest byte. -/
def CopyDesc.range (c : CopyDesc) (dst : Bool) : Int × Int :=
  let base : Int := if dst then c.dst else c.src
  let size : Nat := if dst then c.dstSize else c.srcSize
  let r := c.used.map (fun d => reachOf d.count (if dst then d.dstr else d.sstr))
  (r.foldl (fun x y => x + y.1) base, r.foldl (fun x y => x + y.2) base + size - 1)

/-- Tuples of some dimensions. -/
def tuplesOf (ds : List Dim) : Nat := ds.foldl (fun n d => n * d.count) 1

/-- Offset that tuple k adds to a side's base (R80). -/
def offsetOf (ds : List Dim) (dst : Bool) (k : Nat) : Int :=
  match ds with
  | [] => 0
  | d :: r =>
    (k % d.count : Nat) * (if dst then d.dstr else d.sstr) + offsetOf r dst (k / d.count)

/-- Bytes of the caldera lie within a window of slice offsets (R72). -/
def caldInside (cbase csize : Nat) (a : Int) (n : Nat) : Bool :=
  decide (0 ≤ a ∧ a + n ≤ 2 ^ 20) && ((csize == 32768 && cbase == 0) ||
    (List.range n).all (fun i =>
      let o := (a.toNat + i) % 32768
      decide (cbase ≤ o ∧ o < cbase + csize)))

/-- A caldera side keeps within a window (R72, R80): no byte of any tuple leaves it. -/
def CopyDesc.inCald (c : CopyDesc) (dst : Bool) (cbase csize : Nat) : Bool :=
  let base : Int := ((if dst then c.dst else c.src : Nat) : Int)
  let size : Nat := if dst then c.dstSize else c.srcSize
  (List.range (tuplesOf c.used)).all (fun k => caldInside cbase csize (base + offsetOf c.used dst k) size)

/-- The node status of a copy that fails its checks (R80, R82, R83); of several, the first of 2, 3 and 5 (log
entry 142). -/
def CopyDesc.status (c : CopyDesc) (cbase csize : Nat) : Option Nat :=
  let unused := c.dims.drop c.ndim
  let first := c.dims.getD 0 { count := 0, sstr := 0, dstr := 0 }
  let packOk := !c.pack || decide (c.ses = 0 ∧ c.des = 0 ∧ c.conv = 0 ∧ c.bfp = false ∧
    first.count = 512 ∧ first.dstr = 0 ∧ 1 ≤ c.pln)
  let bfpOk := !c.bfp || decide (c.ses = 0 ∧ c.des = 0 ∧ c.conv = 0 ∧ c.pack = false)
  if c.ndim = 0 ∨ c.ndim = 7 ∨ c.bad ∨ (c.pack = false ∧ c.pln ≠ 0) ∨
      unused.any (fun d => decide (d.count ≠ 0 ∨ d.sstr ≠ 0 ∨ d.dstr ≠ 0)) ∨
      ¬ convSizes c.conv c.ses c.des ∨ ¬ packOk ∨ ¬ bfpOk then some 2
  else if c.src % 2 ^ c.ses ≠ 0 ∨ c.dst % 2 ^ c.des ≠ 0 ∨
      c.used.any (fun d => decide (d.sstr % (2 ^ c.ses : Nat) ≠ 0 ∨ d.dstr % (2 ^ c.des : Nat) ≠ 0)) then
    some 3
  else if c.isEmpty then none
  else if (c.scal && !c.inCald false cbase csize) || (c.dcal && !c.inCald true cbase csize) then some 5
  else none

/-! ### Coding descriptors (R84, R85) -/

structure LdpcDesc where
  llr : W64
  dout : W64
  harq : W64
  stw : W64
  bg2 : Bool
  zc : Nat
  nrow : Nat
  f : Nat
  itmax : Nat
  et : Bool
  hm : Nat
  node : BitVec 16
  deriving DecidableEq, Repr

def ldpcDesc (d : List Byte) : LdpcDesc :=
  let w := fun lo => BitVec.ofNat 64 (descField d lo 8)
  let c := descField d 32 8
  { llr := w 0, dout := w 8, harq := w 16, stw := w 24, bg2 := c.testBit 0, zc := bitsAt 9 1 c,
    nrow := bitsAt 6 10 c, f := bitsAt 15 16 c, itmax := bitsAt 5 31 c, et := c.testBit 36,
    hm := bitsAt 2 37 c, node := BitVec.ofNat 16 (c / 2 ^ 39) }

def LdpcDesc.cols (l : LdpcDesc) : Nat := if l.bg2 then 10 else 22
def LdpcDesc.k (l : LdpcDesc) : Nat := l.cols * l.zc
def LdpcDesc.ncb (l : LdpcDesc) : Nat := (l.cols + l.nrow - 2) * l.zc
/-- LLR i is that of a filler bit (R84): codeword positions start at 2 × ZC. -/
def LdpcDesc.filler (l : LdpcDesc) (i : Nat) : Bool := decide (l.k - l.f ≤ i + 2 * l.zc ∧ i + 2 * l.zc < l.k)

/-- The lifting sizes of TS 38.212 Table 5.3.2-1: a × 2^j up to 384. -/
def liftingSize (z : Nat) : Bool :=
  [2, 3, 5, 7, 9, 11, 13, 15].any (fun a => (List.range 8).any (fun j => a * 2 ^ j == z)) &&
    decide (z ≤ 384)

structure PolarDesc where
  llr : W64
  dout : W64
  froz : W64
  stw : W64
  logn : Nat
  k : Nat
  crc : Nat
  node : BitVec 16
  deriving DecidableEq, Repr

def polarDesc (d : List Byte) : PolarDesc :=
  let w := fun lo => BitVec.ofNat 64 (descField d lo 8)
  let c := descField d 32 8
  { llr := w 0, dout := w 8, froz := w 16, stw := w 24, logn := bitsAt 4 0 c, k := bitsAt 10 4 c,
    crc := bitsAt 2 14 c, node := BitVec.ofNat 16 (c / 2 ^ 16) }

/-- KIND of a coding descriptor: true for polar (R85). -/
def kindBit (d : List Byte) : Bool := (descField d 40 1).testBit 0

/-- Bytes 63:40 but for the KIND bit of an encode are zero (R84, R85). -/
def tailOk (d : List Byte) (encode : Bool) : Bool :=
  decide (descField d 40 24 = if encode && kindBit d then 1 else 0)

/-- The status of a coding command that fails its checks, before any access but those of FROZ (R84 to
R86): 2 for a field, else 3 for a misaligned STW (log entry 143). -/
def codingStatus (kind : EngKind) (encode : Bool) (d : List Byte) : Option Nat :=
  let c := descField d 32 8
  let bad := match kind with
    | .polar =>
      let q := polarDesc d
      decide (q.logn < 5 ∨ 10 < q.logn ∨ c / 2 ^ 32 ≠ 0)
    | _ =>
      let l := ldpcDesc d
      !liftingSize l.zc || decide (l.nrow < 4 ∨ (if l.bg2 then 42 else 46) < l.nrow ∨ l.k ≤ l.f ∨
        c / 2 ^ 55 ≠ 0) ||
        (if encode then decide (l.hm ≠ 0) else decide (l.itmax = 0 ∨ l.hm = 3))
  if bad || !tailOk d encode then some 2
  else if descField d 24 8 % 8 ≠ 0 then some 3 else none

/-! ### Ranges (R87, R93) -/

/-- A byte range that a command reads or writes. -/
structure Side where
  space : Space
  lo : Nat
  hi : Nat
  write : Bool
  deriving DecidableEq, Repr

/-- The parts of a range of a function's addresses, seen from the issuing thread's tile: one in each
scratchpad that the range runs through, and one in memory when it has addresses outside the windows. -/
def vaSides (c : Cmd) (va : W64) (n : Nat) (write : Bool) : List Side :=
  let hi := va.toNat + n - 1
  let mem : Side := { space := .mem c.vf c.asid, lo := va.toNat, hi := hi, write := write }
  let inTs := (spacesOf c.vf c.asid (tileOf c.slot) va.toNat n).filterMap (fun p =>
    match p.space with
    | .scratch t => some { space := .scratch t, lo := p.lo, hi := p.hi, write := write : Side }
    | _ => none)
  if inTs.isEmpty ∨ va.toNat < ownWindow ∨ windowEnd ≤ hi then mem :: inTs else inTs

/-- The bounding ranges of a command (R87, R93); none for one that makes no access, nor for a ring entry,
which no thread issued (log entry 79). -/
def Cmd.sides (c : Cmd) : List Side :=
  match c.kind with
  | .copy =>
    let d := copyDesc c.desc
    if c.ring.isSome || (d.status c.cbase.toNat c.csize.toNat).isSome || d.isEmpty then []
    else
      let side := fun (dst cal : Bool) =>
        let r := d.range dst
        let n := (r.2 - r.1 + 1).toNat
        if cal then [{ space := .caldera (vcOf c.slot), lo := r.1.toNat, hi := r.1.toNat + n - 1,
                       write := dst : Side }]
        else vaSides c (BitVec.ofInt 64 r.1) n dst
      side false d.scal ++ side true d.dcal
  | .ldpc =>
    let l := ldpcDesc c.desc
    let stw := vaSides c l.stw 8 true
    if (codingStatus .ldpc c.encode c.desc).isSome then stw
    else
      let info := ceilDiv (l.k - l.f) 8
      let code := if c.encode then ceilDiv l.ncb 8 else l.ncb
      vaSides c l.llr (if c.encode then info else code) false ++
        vaSides c l.dout (if c.encode then code else info) true ++ stw ++
        (if l.hm = 0 then [] else vaSides c l.harq code true)
  | .polar =>
    let q := polarDesc c.desc
    let stw := vaSides c q.stw 8 true
    if (codingStatus .polar c.encode c.desc).isSome then stw
    else
      let n := 2 ^ q.logn
      let info := ceilDiv q.k 8
      vaSides c q.llr (if c.encode then info else n) false ++
        vaSides c q.dout (if c.encode then n / 8 else info) true ++ vaSides c q.froz (n / 8) false ++ stw

/-- The tables in which a side is registered: the issuing tile's and, for a scratchpad, its owner's
(R93). -/
def Side.tables (tile : Nat) (x : Side) : List Nat :=
  match x.space with | .scratch t => if t = tile then [tile] else [tile, t] | _ => [tile]

/-- The range-lock table of a tile has room for the sides of a command: 64 entries (R13, R93). -/
def State.locksFit (s : State) (tile : Nat) (xs : List Side) : Bool :=
  (List.range 16).all (fun t =>
    let n := (xs.filter (fun x => (x.tables tile).contains t)).length
    decide (n = 0 ∨ (s.tile t).locks.length + n ≤ 64))

/-- Register the sides of a command (R93). -/
def State.registerLocks (s : State) (c : Cmd) : State :=
  let tile := tileOf c.slot
  c.sides.foldl (fun u x =>
    (x.tables tile).foldl (fun u t => u.modTile t (fun w =>
      { w with locks := w.locks ++
          [{ space := x.space, lo := x.lo, hi := x.hi, write := x.write, node := c.node, cmd := c.id,
             window := none }] })) u) s

/-! ### Issue (R244) -/

/-- Commands in an engine's queue. -/
def State.queue (s : State) (e : Nat) : List Cmd := tget [] s.engines e

/-- Capacity of an engine's queue (R76). -/
def queueCap (e : Nat) : Nat := if e < 16 then 64 else 16

/-- The engines of a kind in ENG's numbering: the first engine's number and their count. -/
def kindEngines (k : EngKind) : Nat × Nat :=
  match k with | .copy => (0, 16) | .ldpc => (16, 16) | .polar => (32, 8)

/-- The die of a coding engine (R76). -/
def dieOfEngine (e : Nat) : Nat := if e < 32 then (e - 16) / 8 else (e - 32) / 4

/-- The partition of an engine (R76); 31 when it has none. -/
def State.engineIn (s : State) (part e : Nat) : Bool := decide (tget 31 s.engPart e = part)

/-- The partition's engine of a kind with the shortest queue; the issuing die wins ties, then the lower
number (R244 step 2). -/
def State.anyEngine (s : State) (k : EngKind) : Option Nat :=
  let r := kindEngines k
  let es := ((List.range r.2).map (· + r.1)).filter (s.engineIn s.curPart)
  let cost := fun e => 2 * (s.queue e).length + (if dieOfEngine e = dieOfTile s.curTile then 0 else 1)
  es.foldl (fun b e =>
    match b with | none => some e | some x => if cost e < cost x then some e else some x) none

/-- The engine that an engine selector names (R244 steps 2 and 3). -/
def State.chosenEngine (s : State) (k : EngKind) (x : Nat) : Option Nat :=
  if x.testBit 8 then s.anyEngine k
  else
    let r := kindEngines k
    if x % 16 < r.2 ∧ s.engineIn s.curPart (r.1 + x % 16) then some (r.1 + x % 16) else none

/-- The class of the current thread's job (R76). -/
def State.jobClass (s : State) : Nat :=
  match (s.part s.curPart).job? s.th.id.job with
  | some j => j.cls
  | none => 3

/-- The command that the current thread issues with a descriptor. -/
def State.newCmd (s : State) (k : EngKind) (encode : Bool) (d : List Byte) (node : BitVec 16) : Cmd :=
  { id := s.nextCmd, kind := k, encode := encode, desc := d, node := node,
    cls := BitVec.ofNat 2 s.jobClass, vf := s.th.id.vf, asid := s.th.tr.asid, root := s.th.tr.root,
    mode := s.th.sc.mode, slot := s.cur, job := s.th.id.job, cbase := s.th.fl.cbase,
    csize := s.th.fl.csize, ring := none, progress := 0, old := [], running := false,
    cancelled := false, predFailed := false, faulted := none }

/-- Register, name the node and enter the queue (R244 step 6). -/
def State.enqueue (s : State) (e : Nat) (c : Cmd) : State :=
  let s1 := (s.registerLocks c).nameNode c.vf.toNat c.node (some c.id) none
  { s1 with engines := tset [] s1.engines e (s1.queue e ++ [c]), nextCmd := s.nextCmd + 1 }

/-- Steps 3 to 6 of R244: the code for d. -/
def submit (eng : Option Nat) (k : EngKind) (encode : Bool) (desc : List Byte) (node : BitVec 16) :
    M Nat := do
  match eng with
  | none => pure 3
  | some e =>
    let s ← get
    if node ≠ 0xFFFF#16 ∧ ¬ s.nodeIn s.curPart node then pure 2
    else
      if node ≠ 0xFFFF#16 ∧ (s.node node).holds then trap Cause.engerr (node.setWidth 64)
      release
      let u ← get
      let c := u.newCmd k encode desc node
      if queueCap e ≤ (u.queue e).length ∨ ¬ u.locksFit u.curTile c.sides then waitFor .engineRoom
      set (u.enqueue e c)
      pure 0

/-- The node of a coding descriptor. -/
def codingNode (k : EngKind) (desc : List Byte) : BitVec 16 :=
  match k with | .polar => (polarDesc desc).node | _ => (ldpcDesc desc).node

/-- ELDPC, EPOLAR and EENC (R244): the kind may come from the descriptor. -/
def State.codingIssue (s : State) (d a b : BitVec 5) (encode : Bool) (kind : List Byte → EngKind) :
    Host.Outcome State Fault Refusal :=
  let x := (s.rd b).toNat
  s.conclude (do
    let desc ← loadWide (s.rd a) 64 64
    need (decide (x = x % 16 + x / 256 % 2 * 256))
    let k := kind desc
    let code ← submit (s.chosenEngine k x) k encode desc (codingNode k desc)
    modify (fun u => u.wr d (BitVec.ofNat 64 code)))

/-- ECPY (R244). -/
def execEcpy (d a : BitVec 5) (s : State) : Host.Outcome State Fault Refusal :=
  s.conclude (do
    let desc ← loadWide (s.rd a) 128 64
    let code ← submit (some s.curTile) .copy false desc (copyDesc desc).node
    modify (fun u => u.wr d (BitVec.ofNat 64 code)))
/-- ELDPC (R244). -/
def execEldpc (d a b : BitVec 5) (s : State) : Host.Outcome State Fault Refusal :=
  s.codingIssue d a b false (fun _ => .ldpc)
/-- EPOLAR (R244). -/
def execEpolar (d a b : BitVec 5) (s : State) : Host.Outcome State Fault Refusal :=
  s.codingIssue d a b false (fun _ => .polar)
/-- EENC (R244): KIND selects the engine (R85). -/
def execEenc (d a b : BitVec 5) (s : State) : Host.Outcome State Fault Refusal :=
  s.codingIssue d a b true (fun desc => if kindBit desc then .polar else .ldpc)

/-! ### Nodes (R90, R245) -/

/-- Edges of one tile's pool (R88). -/
def edgePool : Nat := 16384

/-- EDGE p, q (R90): the code, and the graph after it. -/
def State.addEdge (s : State) (p q : BitVec 16) : Nat × State :=
  let part := s.curPart
  let ok := fun (n : BitVec 16) => decide (n ≠ 0xFFFF#16) && s.nodeIn part n
  if !(ok p && ok q) then (5, s)
  else if (s.node q).holds then (2, s)
  else if (s.node p).st = .done then (1, s)
  else if (s.node p).finished then
    let s1 := if (s.node q).st = .reserved then s.cancelNodes (s.edgeCount + 1) [q]
      else s.modNode q (fun n => { n with st := .cancelled, status := 7, count := 0, succ := [], cmd := none, job := none })
    (4, s1)
  else if edgePool ≤ (s.tile (p.toNat / 4096)).edges then (3, s)
  else
    let s1 := s.modNode p (fun n =>
      if n.st = .free then { Node.reset with st := .reserved, succ := [q], vf := s.th.id.vf.toNat }
      else { n with succ := n.succ ++ [q] })
    let s2 := s1.modTile (p.toNat / 4096) (fun t => { t with edges := t.edges + 1 })
    (0, s2.modNode q (fun n =>
      if n.st = .reserved then { n with count := n.count + 1 }
      else { Node.reset with st := .reserved, count := 1, succ := n.succ,
                             vf := s.th.id.vf.toNat }))

/-- A node identifier operand (R245). -/
def nodeArg (x : W64) : M (BitVec 16) := do
  need (decide (x.toNat < 2 ^ 16))
  pure (x.setWidth 16)

/-- EDGE (R90, R245). -/
def execEdge (d a b : BitVec 5) (s : State) : Host.Outcome State Fault Refusal :=
  s.conclude (do
    let p ← nodeArg (s.rd a)
    let q ← nodeArg (s.rd b)
    modify (fun u =>
      let r := u.addEdge p q
      r.2.wr d (BitVec.ofNat 64 r.1)))

/-- The node word that the node instructions write (R245). -/
def State.nodeWord (s : State) (id : BitVec 16) : Nat :=
  if id = 0xFFFF#16 ∨ ¬ s.nodeIn s.curPart id then 0xFF else (s.node id).word

/-- EWAIT (R245): it waits while the node is neither FREE nor finished. -/
def execEwait (d a : BitVec 5) (s : State) : Host.Outcome State Fault Refusal :=
  s.conclude (do
    let id ← nodeArg (s.rd a)
    let n := s.node id
    if decide (s.nodeWord id ≠ 0xFF) && !(n.st == .free || n.finished) then waitFor (.node id)
    modify (fun u => u.wr d (BitVec.ofNat 64 (u.nodeWord id))))

/-- ESTAT (R245). -/
def execEstat (d a : BitVec 5) (s : State) : Host.Outcome State Fault Refusal :=
  s.conclude (do
    let id ← nodeArg (s.rd a)
    modify (fun u => u.wr d (BitVec.ofNat 64 (u.nodeWord id))))

/-- Cancel an unfinished node with status 6 (R89, R92): a queued command is dropped, a running one stops
at its next boundary, a job is abandoned with cause 3 (R371). -/
def State.cancelNode (s : State) (id : BitVec 16) : State :=
  let n := s.node id
  if n.finished || n.st == .free then s
  else
    match n.job with
    | some j => s.abandon (s.partOfTile (id.toNat / 4096)) j 3
    | none =>
      if n.st = .running then s.cancelRunning n.cmd false
      else
        let s1 := match n.cmd with | some c => s.dropCmd c | none => s
        s1.finishNode id .cancelled 6

/-- ECANCEL (R245). -/
def execEcancel (d a : BitVec 5) (s : State) : Host.Outcome State Fault Refusal :=
  s.conclude (do
    let id ← nodeArg (s.rd a)
    let w := s.nodeWord id
    modify (fun u => (if w = 0xFF then u else u.cancelNode id).wr d (BitVec.ofNat 64 w)))

end Sys2Proof.Machine
end

