-- ==== Sys2Proof/Machine/Watch.lean ====
section
/-!
DEFINITION. The watch unit: sequences and entries (R375 to R377), checks and their actions (R378 to
R381), confirming drafts (R384), major 0x3E (R382 to R391).
-/

namespace Sys2Proof.Machine

open Sys2Proof

/-! ### Entries (R377) -/

/-- The wildcard of a pattern, which is never a token. -/
def wildcard : Nat := 0xFFFFFF

/-- KIND, ACTION, LEN and NBIT of an entry. -/
def entryKind (x : BitVec 256) : Nat := bitsAt 2 0 x.toNat
def entryAction (x : BitVec 256) : Nat := bitsAt 3 2 x.toNat
def entryLen (x : BitVec 256) : Nat := bitsAt 3 5 x.toNat
def entryNotify (x : BitVec 256) : Nat := if x.getLsbD 8 then 2 ^ bitsAt 6 9 x.toNat else 0
def entryOnce (x : BitVec 256) : Bool := x.getLsbD 15
def entryTok (x : BitVec 256) (k : Nat) : Nat := bitsAt 24 (64 + 24 * k) x.toNat
def entryLimit (x : BitVec 256) : Nat := bitsAt 32 64 x.toNat
def entryCount (x : BitVec 256) : Nat := bitsAt 32 96 x.toNat

/-- Bits that an entry's kind uses; every other bit is reserved (R377). -/
def entryBits (x : BitVec 256) : Nat :=
  let toks := (2 ^ (24 * (entryLen x + 1)) - 1) * 2 ^ 64
  if entryKind x = 0 then 3
  else if entryKind x = 1 then 0xFFFF + toks
  else if entryKind x = 2 then 0xFF1F + (2 ^ 113 - 1) * 2 ^ 64
  else 0xE3 + toks

/-- An image that keeps R377 and has LO ≤ HI. -/
def entryOk (x : BitVec 256) : Bool :=
  decide (x.toNat &&& entryBits x = x.toNat) && decide (entryAction x ≤ 4) &&
    (entryKind x != 2 || decide (bitsAt 24 129 x.toNat ≤ bitsAt 24 153 x.toNat)) &&
    (entryKind x != 3 || (List.range (entryLen x + 1)).all (fun k => entryTok x k != wildcard))

/-- A budget entry counts a token (R378). -/
def entryCounts (x : BitVec 256) (t : Nat) : Bool :=
  entryKind x == 2 &&
    (!x.getLsbD 128 || decide (bitsAt 24 129 x.toNat ≤ t ∧ t ≤ bitsAt 24 153 x.toNat))

/-- The count of a budget entry after a token. -/
def countAfter (x : BitVec 256) : Nat := min (2 ^ 32 - 1) (entryCount x + 1)

/-- An entry hits (R378); `h` is H, newest first, with the token at its head. -/
def entryHits (x : BitVec 256) (h : List (BitVec 24)) (t : Nat) : Bool :=
  if entryKind x = 1 then
    (List.range (entryLen x + 1)).all (fun k =>
      match h[k]? with
      | none => false
      | some u =>
        entryTok x (entryLen x - k) == wildcard || entryTok x (entryLen x - k) == u.toNat)
  else entryCounts x t && countAfter x == entryLimit x

/-- An entry after a check: its count, and empty once it hits under ONCE (R379, R380 steps 1 and 4). -/
def entryAfter (x : BitVec 256) (h : List (BitVec 24)) (t : Nat) : BitVec 256 :=
  if entryHits x h t && entryOnce x then 0
  else if entryCounts x t then spliceAt 32 x 96 (countAfter x)
  else x

/-! ### Checks (R378, R379) -/

/-- What a check finds: the entries that hit, the winner, and the entries after it. -/
structure Check where
  hits : List Nat
  win : Option Nat
  notes : Nat
  entries : Table (BitVec 256)
  deriving DecidableEq, Repr

/-- Entry i of a table of entries. -/
def entryOf' (es : Table (BitVec 256)) (i : Nat) : BitVec 256 := tget 0 es i

/-- Check a token at the head of H on entries (R378, R379). -/
def checkToken (es : Table (BitVec 256)) (h : List (BitVec 24)) (t : Nat) : Check :=
  let hits := (List.range 8).filter (fun i => entryHits (entryOf' es i) h t)
  let act := fun i => entryAction (entryOf' es i)
  let stop := hits.any (fun i => act i == 1)
  { hits := hits
    win := hits.find? (fun i => act i != 0 && !(stop && (act i == 2 || act i == 3)))
    notes := hits.foldl (fun m i => m ||| entryNotify (entryOf' es i)) 0
    entries := (List.range 8).foldl
      (fun u i => tset 0 u i (entryAfter (entryOf' es i) h t)) es }

/-- The ACTION of a check's winner; 0 without one. -/
def Check.action (c : Check) (es : Table (BitVec 256)) : Nat :=
  match c.win with | some i => entryAction (entryOf' es i) | none => 0

/-- History and entries as a sequence's drafts leave them: counts and ONCE tentatively, no action
(R378, R384; log entry 20). -/
def afterDrafts (h : List (BitVec 24)) (es : Table (BitVec 256)) :
    List (BitVec 24) → List (BitVec 24) × Table (BitVec 256)
  | [] => (h, es)
  | t :: r => afterDrafts (t :: h) (checkToken es (t :: h) t.toNat).entries r

/-! ### Sequences of a function -/

/-- The sequence q of a function's window (R375). -/
def State.seq (s : State) (vf q : Nat) : Seq := tget Seq.reset s.seqs ((s.vf vf).wsBase.toNat + q)

def State.modSeq (s : State) (vf q : Nat) (f : Seq → Seq) : State :=
  let k := (s.vf vf).wsBase.toNat + q
  { s with seqs := tset Seq.reset s.seqs k (f (tget Seq.reset s.seqs k)) }

/-- Raise an interrupt of a function toward the host (R424). -/
def State.raiseMsix (s : State) (vf : Nat) (vec : BitVec 16) : State :=
  s.modVf vf (fun f => { f with msix := f.msix ++ [vec.toNat] })

/-- OR bits into WNOTE; a change from 0 raises the notify interrupt (R375, R380 step 3). -/
def State.notify (s : State) (vf bits : Nat) : State :=
  let f := s.vf vf
  let w := f.wnote ||| BitVec.ofNat 64 bits
  let s1 := s.modVf vf (fun f => { f with wnote := w })
  if f.wnote = 0#64 ∧ w ≠ 0#64 then s1.raiseMsix vf f.notifyVec else s1

/-! ### FORK (R381) -/

/-- Bytes of a list slot. -/
def Vf.slotBytes (f : Vf) : Nat := 64 * 2 ^ f.logstr.toNat
/-- Address of list slot q. -/
def Vf.slotVa (f : Vf) (q : Nat) : W64 := BitVec.ofNat 64 (f.lbase.toNat * 64 + q * f.slotBytes)
/-- Address of the reference count of a page. -/
def Vf.countVa (f : Vf) (p : Nat) : W64 := BitVec.ofNat 64 (f.rcbase.toNat * 4 + 4 * p)

/-- Translated runs of a range: address, length and translation. -/
abbrev Runs := List (W64 × Nat × Xlat)

/-- The places of n bytes under a function's default context, piece by piece; none when some piece does
not translate (R473, R62). -/
def State.defaultPlaces (s : State) (vf : Nat) (acc : Access) (va : W64) (n : Nat) :
    Option (List (W64 × Nat × Xlat)) :=
  (pieces va n).foldr (fun p l =>
    match l, s.walkRun (s.defaultCtx vf) acc p.1 p.2 with
    | some l, .ok x => some ((p.1, p.2, x) :: l)
    | _, _ => none) (some [])

/-- The bytes at some places, as their homes hold them. -/
def State.bytesAt (s : State) (ps : List (W64 × Nat × Xlat)) : List Byte :=
  ps.flatMap (fun p =>
    (List.range p.2.1).map (fun k => s.homeByteFor p.2.2.phys.owner (p.2.2.phys.loc + k)))

/-- Write bytes at some places of an address, at their homes. -/
def State.writeAt (s : State) (ps : List (W64 × Nat × Xlat)) (va : W64) (bs : List Byte) : State :=
  ps.foldl (fun t p =>
    (t.applyXlat [] p.2.2).performEntry (BufEntry.plain
      (writesOf p.2.2.phys.loc ((bs.drop (p.1 - va).toNat).take p.2.1)) p.2.2.phys.kid)) s

/-- Reads of some places by a unit of the device: the walkers' updates, and the lines at their homes (R30, R52,
R57). -/
def State.readRuns (s : State) (ps : Runs) : State :=
  ps.foldl (fun t p => (t.applyXlat [] p.2.2).touch (runLines p.2.2.phys.loc p.2.1) p.2.2.phys.kid
    (fun _ => .age 0) false) s

/-- The twin refuses an access of some places (R419), and the state after it was asked. -/
def State.runsRefused (s : State) (acc : Access) (ps : Runs) : Bool := ps.any (fun p => s.twinRefuses acc p.2.2)
def State.twinAsked (s : State) (acc : Access) (ps : Runs) : State :=
  if ps.any (fun p => asksTwin acc p.2.2) then s.bump else s

/-- A word of some places is poisoned (R75). -/
def State.runsPoisoned (s : State) (ps : Runs) : Bool := ps.any (fun p => s.poisoned p.2.2.phys.loc p.2.1)

/-- How a fork ends: with its child, with FERR, or with a poisoned word read (R75, R381). -/
inductive ForkEnd where
  | child (c : Nat)
  | ferr
  | mac
  deriving DecidableEq, Repr

/-- The places of n bytes that a fork needs: FERR where they do not translate or the twin refuses them (R381,
R419). -/
def State.forkPlaces (s : State) (vf : Nat) (acc : Access) (va : W64) (n : Nat) : Except ForkEnd Runs :=
  match s.defaultPlaces vf acc va n with
  | some ps => if s.runsRefused acc ps then .error .ferr else .ok ps
  | none => .error (if s.defaultMac vf acc va n then .mac else .ferr)

/-- Both of two needs of a fork: FERR goes before a poisoned word. -/
def bothOf {α β : Type} (a : Except ForkEnd α) (b : Except ForkEnd β) : Except ForkEnd (α × β) :=
  match a, b with
  | .ok x, .ok y => .ok (x, y)
  | .error .mac, .error e => .error e
  | .error e, _ => .error e
  | _, .error e => .error e

/-- The reference counts of some pages, each with R and W (R306, R381). -/
def State.countPlaces (s : State) (vf : Nat) : List Nat → Except ForkEnd (List Runs)
  | [] => .ok []
  | p :: r =>
    let va := (s.vf vf).countVa p
    let mine := bothOf (s.forkPlaces vf .load va 4) (s.forkPlaces vf .store va 4)
    (bothOf mine (s.countPlaces vf r)).map (fun x => x.1.2 :: x.2)

/-- The far atomic add of one to a reference count (R381). -/
def State.addOne (s : State) (c : Runs) : State :=
  match c with
  | [] => s
  | p :: _ =>
    let q := p.2.2.phys
    let t := (s.applyXlat [] p.2.2).claim q.loc q.kid
    t.storeHome q.kid none (fun _ => .age 0) (writesOf q.loc (leBytes 4 (leNat (t.homeBytes q 4) + 1)))

/-- The child of a fork and the places of its parent's list with its count word, up to the count's own check
(R381); a poisoned count word is found before the list's length is known. -/
def State.forkList (s : State) (vf q : Nat) : Except ForkEnd (Nat × Runs × Runs) :=
  let f := s.vf vf
  match firstBelow f.wsCount.toNat (fun c => !(s.seq vf c).inuse) with
  | none => .error .ferr
  | some child =>
    match bothOf (s.forkPlaces vf .load (f.slotVa q) 8) (s.forkPlaces vf .store (f.slotVa child) 8) with
    | .error e => .error e
    | .ok (head, _) =>
      let s1 := s.readRuns head
      let n := leNat (s1.bytesAt head)
      if s1.runsPoisoned head then .error .mac
      else if (f.slotBytes - 8) / 4 < n then .error .ferr
      else
        (bothOf (s.forkPlaces vf .load (f.slotVa q) (8 + 4 * n))
          (s.forkPlaces vf .store (f.slotVa child) (8 + 4 * n))).map (fun x => (child, x.1, x.2))

/-- FORK of sequence q (R381): its child, or how it fails, and the state: nothing is changed by FERR, and a
poisoned word stops the function once every address that can be known has translated (R75). -/
def State.fork (s : State) (vf q : Nat) : ForkEnd × State :=
  let f := s.vf vf
  match s.forkList vf q with
  | .error e =>
    (e, if e = .mac then (s.readRuns ((s.defaultPlaces vf .load (f.slotVa q) 8).getD [])).macFailure [vf] else s)
  | .ok (child, src, dst) =>
    let s1 := s.readRuns src
    let bs := s1.bytesAt src
    let locs := src.flatMap (fun p => (List.range p.2.1).map (fun k => p.2.2.phys.loc + k))
    let clean := (List.range ((bs.length - 8) / 4)).filter (fun i => !s1.poisoned (locs.getD (8 + 4 * i) 0) 4)
    match s.countPlaces vf (clean.map (fun i => leNat ((bs.drop (8 + 4 * i)).take 4))) with
    | .error e => (e, if e = .mac then s1.macFailure [vf] else s)
    | .ok cs =>
      if s1.runsPoisoned src || cs.any s1.runsPoisoned then (.mac, s1.macFailure [vf])
      else
        let s2 := cs.foldl State.addOne (s1.writeAt dst (f.slotVa child) bs)
        (.child child, s2.modSeq vf child (fun _ =>
          { s.seq vf q with inuse := true, stopped := false, drafts := [] }))

/-! ### Applying a check (R380) -/

/-- What an applied check reports: the check, its action, INJX, FERR and ARG. -/
structure Applied where
  chk : Check
  act : Nat
  injx : Bool
  ferr : Bool
  arg : Nat
  deriving DecidableEq, Repr

/-- Apply the check of token t on sequence q, consuming a run token that supplied it (R380, R382). -/
def State.applyCheck (s : State) (vf q : Nat) (t : BitVec 24) : Applied × State :=
  let sq := s.seq vf q
  let h := t :: sq.hist
  let c := checkToken sq.entries h t.toNat
  let act := c.action sq.entries
  let s1 := (s.modSeq vf q (fun x =>
    { x with run := x.run.drop 1, entries := c.entries, hist := h.take 7, pos := x.pos + 1 })).notify
      vf c.notes
  let plain : Applied := { chk := c, act := act, injx := false, ferr := false, arg := 0 }
  if act = 1 then (plain, s1.modSeq vf q (fun x => { x with stopped := true, run := [] }))
  else if act = 2 then
    let r := s1.fork vf q
    let s2 := if s1.hub.twEn then r.2.bump else r.2
    match r.1 with
    | .child c => ({ plain with arg := c }, s2)
    | _ => ({ plain with ferr := true }, s2)
  else if act = 3 then
    let i := c.win.getD 0
    let d := if i < 7 then entryOf' c.entries (i + 1) else 0
    if entryKind d = 3 ∧ (s1.seq vf q).run = [] then
      (plain, s1.modSeq vf q (fun x => { x with
        run := (List.range (entryLen d + 1)).map (fun k => BitVec.ofNat 24 (entryTok d k)) }))
    else ({ plain with injx := true }, s1)
  else if act = 4 then ({ plain with arg := sq.pos.toNat % 2 ^ 24 }, s1)
  else (plain, s1)

/-- WIN, WVAL and ACT at their places in a result word. -/
def Applied.winner (a : Applied) (win wval act : Nat) : Nat :=
  match a.chk.win with
  | some i => i * 2 ^ win + 2 ^ wval + a.act * 2 ^ act
  | none => 0

/-- The TWCHK result word (R383). -/
def twchkWord (a : Applied) (t : Nat) (stopped forced defer : Bool) : Nat :=
  t + bit (!a.chk.hits.isEmpty) 24 + a.winner 25 28 29 + bit stopped 32 + bit forced 33 +
    bit a.injx 34 + bit a.ferr 35 + bit defer 36 + a.arg % 2 ^ 24 * 2 ^ 40

/-- One element of TWCHK (R382): the result word, whether a TRAP entry won, and the state after. -/
def State.checkOne (s : State) (vf : Nat) (x y : Nat) : Nat × Bool × State :=
  let q := x % 2 ^ 16
  let t := y % 2 ^ 24
  let draft := x.testBit 32
  let sq := s.seq vf q
  let n := sq.drafts.length
  if x - bitsAt 1 32 x * 2 ^ 32 ≥ 2 ^ 16 ∨ 2 ^ 24 ≤ y ∨ (s.vf vf).wsCount.toNat ≤ q ∨ ¬ sq.inuse ∨
      t = wildcard ∨ (draft ∧ n = 8) ∨ (¬ draft ∧ 0 < n) then (2 ^ 37, false, s)
  else if sq.stopped then (t + 2 ^ 32, false, s)
  else
    let forced := decide (n < sq.run.length)
    let tok := if forced then sq.run.getD n 0 else BitVec.ofNat 24 t
    if draft then
      let hd := afterDrafts sq.hist sq.entries (sq.drafts.map (·.tok))
      let c := checkToken hd.2 (tok :: hd.1) tok.toNat
      let act := c.action hd.2
      let a : Applied := { chk := c, act := act, injx := false, ferr := false,
                           arg := if act = 4 then (sq.pos.toNat + n) % 2 ^ 24 else 0 }
      (twchkWord a tok.toNat false forced true, false,
        s.modSeq vf q (fun x =>
          { x with drafts := x.drafts ++ [{ tok := tok, hits := c.hits, win := c.win }] }))
    else
      let r := s.applyCheck vf q tok
      (twchkWord r.1 tok.toNat (r.2.seq vf q).stopped forced false, decide (r.1.act = 4), r.2)

/-- Apply accepted drafts until one has a winner (R384): how many were accepted, and the last check. -/
def State.applyDrafts (s : State) (vf q n : Nat) : List (BitVec 24) → Nat × Option Applied × State
  | [] => (n, none, s)
  | t :: r =>
    let a := s.applyCheck vf q t
    if a.1.chk.win.isSome then (n + 1, some a.1, a.2) else a.2.applyDrafts vf q (n + 1) r

/-- One element of TWCONF (R384, R385): the result word, whether a TRAP entry won, the state after. -/
def State.confirmOne (s : State) (vf : Nat) (x y : Nat) : Nat × Bool × State :=
  let q := x % 2 ^ 16
  let sq := s.seq vf q
  if 2 ^ 16 ≤ x ∨ (s.vf vf).wsCount.toNat ≤ q ∨ ¬ sq.inuse then (2 ^ 19, false, s)
  else
    let m := min (min y 8) sq.drafts.length
    let r := s.applyDrafts vf q 0 ((sq.drafts.take m).map (·.tok))
    let s1 := r.2.2.modSeq vf q (fun x => { x with drafts := [] })
    let w := r.1 + (sq.drafts.length - r.1) * 16 + bit (decide (r.1 < m)) 8 +
      bit (s1.seq vf q).stopped 16
    match r.2.1 with
    | none => (w, false, s1)
    | some a =>
      (w + a.winner 9 12 13 + bit a.injx 17 + bit a.ferr 18 + a.arg % 2 ^ 24 * 2 ^ 40,
        decide (a.act = 4), s1)

/-! ### The instructions -/

/-- Run an element function over the active elements, writing the results: the elements that trap. -/
def State.watchAll (s : State) (f : State → Nat → Nat → Nat × Bool × State) (d a b : BitVec 5) :
    List Nat → List Nat × State
  | [] => ([], s)
  | e :: r =>
    let x := f s (s.elem a e) (s.elem b e)
    let t := (x.2.2.putElem d e x.1).watchAll f d a b r
    (if x.2.1 then e :: t.1 else t.1, t.2)

/-- Bytes of memory that differ between two states. -/
def changedCells (s t : State) : List (Nat × Nat) :=
  (t.mem.cells.filter (fun c => !s.mem.cells.contains c) ++
    s.mem.cells.filter (fun c => !t.mem.cells.contains c)).map (fun c => (c.1, 1))

/-- What the forks between two states wrote: each child's list slot and its pages' counts (R381), and the
table entries that the walkers changed (R42). -/
def State.forkRanges (s t : State) (vf : Nat) : List (Nat × Nat) :=
  let f := s.vf vf
  let places := fun (va : W64) (n : Nat) =>
    (((s.defaultPlaces vf .store va n).getD []).map (fun p => (p.2.2.phys.loc, p.2.1)))
  let word := fun (va : W64) (n : Nat) => leNat (t.bytesAt ((t.defaultPlaces vf .store va n).getD []))
  changedCells s t ++ t.seqs.flatMap (fun e =>
    if e.2.inuse && !(tget Seq.reset s.seqs e.1).inuse then
      let va := f.slotVa (e.1 - f.wsBase.toNat)
      let n := word va 8
      places va (8 + 4 * n) ++ (List.range n).flatMap (fun i =>
        places (f.countVa (word (va + BitVec.ofNat 64 (8 + 4 * i)) 4)) 4)
    else [])

/-- TWCHK and TWCONF: type and overlap rules, the elements in order, then TWATCH (R382, R384, R386). A fork
whose writes would wait at their homes makes the thread wait before anything is performed (R278, R387). -/
def watchElems (f : State → Nat → Nat → Nat × Bool × State) (d a b p : BitVec 5) : M Unit := do
  let t ← vectorChecks [d, a, b] (fun t => t.isIn [0, 1] && decide (t.sewE = 3))
  need (!rangesMeet d.toNat t.gm a.toNat t.gm && !rangesMeet d.toNat t.gm b.toNat t.gm)
  let s ← get
  let r := s.watchAll f d a b (s.actives p)
  let ws := s.forkRanges r.2 s.th.id.vf.toNat
  if s.rangesHeld (some s.cur) ws then
    set (s.callBack ws)
    waitFor .line
  set r.2
  match r.1 with
  | [] => pure ()
  | e :: l =>
    modify (fun u => u.setPred 95 (maskOf (e :: l)))
    throw (.trap { plainTrap Cause.twatch (BitVec.ofNat 64 (e + (l.length + 1) * 2 ^ 16)) with
      next := true, pfw := true })

/-- TWCHK (R382). -/
def execTwchk (d a b p : BitVec 5) (s : State) : Host.Outcome State Fault Refusal :=
  s.conclude (watchElems (fun u => u.checkOne s.th.id.vf.toNat) d a b p)

/-- TWCONF (R384). -/
def execTwconf (d a b p : BitVec 5) (s : State) : Host.Outcome State Fault Refusal :=
  s.conclude (watchElems (fun u => u.confirmOne s.th.id.vf.toNat) d a b p)

/-- The control word of a maintenance instruction: no bit outside a mask (R388). -/
def controlWord (b : BitVec 5) (mask : Nat) : M Nat := do
  let x := ((← get).rd b).toNat
  need (decide (x &&& mask = x))
  pure x

/-- The sequence that INIT starts (R389). -/
def Seq.init : Seq := { Seq.reset with inuse := true }

/-- TWSET (R389). -/
def execTwset (d a b : BitVec 5) (s : State) : Host.Outcome State Fault Refusal :=
  s.conclude (do
    let x ← controlWord b 0x37FFFF
    let q := x % 2 ^ 16
    let init := x.testBit 20
    let skip := x.testBit 21
    let bs ← if skip then pure [] else loadWide (s.rd a) 32 32
    let image := BitVec.ofNat 256 (leNat bs)
    let u ← get
    let vf := u.th.id.vf.toNat
    let sq := u.seq vf q
    if (u.vf vf).wsCount.toNat ≤ q then modify (fun u => u.wr d 1)
    else if !init && !sq.inuse then modify (fun u => u.wr d 2)
    else if !skip && !entryOk image then modify (fun u => u.wr d 3)
    else if !init && !sq.drafts.isEmpty then modify (fun u => u.wr d 4)
    else
      modify (fun u =>
        let u1 := if init then u.modSeq vf q (fun _ => Seq.init) else u
        let u2 := if skip then u1
          else u1.modSeq vf q (fun y => { y with entries := tset 0 y.entries (bitsAt 3 16 x) image })
        u2.wr d 0))

/-- TWCLR (R390). -/
def execTwclr (d b : BitVec 5) (s : State) : Host.Outcome State Fault Refusal :=
  s.conclude (do
    let x ← controlWord b 0x17FFFF
    let q := x % 2 ^ 16
    let all := x.testBit 20
    need (!all || decide (bitsAt 3 16 x = 0))
    let vf := s.th.id.vf.toNat
    let sq := s.seq vf q
    if (s.vf vf).wsCount.toNat ≤ q then modify (fun u => u.wr d 1)
    else if !sq.inuse then modify (fun u => u.wr d 2)
    else if all then modify (fun u => (u.modSeq vf q (fun _ => Seq.reset)).wr d 0)
    else if !sq.drafts.isEmpty then modify (fun u => u.wr d 4)
    else
      modify (fun u => (u.modSeq vf q (fun y =>
        { y with entries := tset 0 y.entries (bitsAt 3 16 x) 0 })).wr d 0))

/-- A token of a list, or 0xFF_FFFF beyond it. -/
def tokenAt (l : List (BitVec 24)) (i : Nat) : Nat :=
  match l[i]? with | some t => t.toNat | none => wildcard

/-- The value that TWREAD gives (R391). -/
def Seq.read (sq : Seq) (sel idx : Nat) : Nat :=
  if sel = 0 then
    bit sq.inuse 0 + bit sq.stopped 1 + sq.hist.length * 4 + sq.run.length * 2 ^ 5 +
      sq.drafts.length * 2 ^ 9
  else if sel = 1 then sq.pos.toNat
  else if sel = 2 then tokenAt sq.hist idx
  else if sel ≤ 6 then bitsAt 64 (64 * (sel - 3)) (entryOf' sq.entries idx).toNat
  else if sel = 7 then tokenAt sq.run idx
  else tokenAt (sq.drafts.map (·.tok)) idx

/-- TWREAD (R391). -/
def execTwread (d a : BitVec 5) (s : State) : Host.Outcome State Fault Refusal :=
  s.conclude (do
    let x ← controlWord a 0x7FFFFF
    let q := x % 2 ^ 16
    let sel := bitsAt 4 16 x
    need (decide (sel ≤ 9))
    let f := s.vf s.th.id.vf.toNat
    let v := if sel = 9 then f.wnote.toNat
      else if f.wsCount.toNat ≤ q then 2 ^ 64 - 1
      else (s.seq s.th.id.vf.toNat q).read sel (bitsAt 3 20 x)
    modify (fun u => u.wr d (BitVec.ofNat 64 v)))

end Sys2Proof.Machine
end

