-- ==== Sys2Proof/Machine/EvFront.lean ====
section
/-!
DEFINITION. The fronthaul unit and soft errors: ingest regions (R63 to R67), egress flows (R68 to
R70), uncorrectable errors (R75).
-/

namespace Sys2Proof.Machine

open Sys2Proof

/-- PTP time moves on to the time of an event (R342); none when that time is already past. -/
def State.atTime (s : State) (time : Nat) : Option State :=
  if s.hub.ptp ≤ time then some (s.modHub (fun h => { h with ptp := time })) else none

/-- Increment a 16-bit saturating counter. -/
def sat16 (x : BitVec 16) (n : Nat) : BitVec 16 := BitVec.ofNat 16 (min 0xFFFF (x.toNat + n))

/-! ### Slot times (R66) -/

/-- The GPS epoch, 1980-01-06 00:00:00 UTC, as TAI nanoseconds. -/
def gpsEpoch : Nat := 315964819 * 10 ^ 9

/-- Start of the frame with an 8-bit number that lies nearest a time (R66). -/
def frameStart (frameId time : Nat) : Int :=
  let cycle : Int := 256 * 10 ^ 7
  let d := ((time : Int) - gpsEpoch - frameId * 10 ^ 7) % cycle
  if d ≤ cycle / 2 then time - d else time - d + cycle

/-- T(s, symbol): nominal start of a symbol of slot s of the 256-frame cycle, nearest a time (R66). -/
def symbolStart (mu s symbol time : Nat) : Int :=
  frameStart (s / (10 * 2 ^ mu) % 256) time + (s % (10 * 2 ^ mu) * 1000000 / 2 ^ mu : Nat) +
    (symbol * 1000000 / (14 * 2 ^ mu) : Nat)

/-! ### Ingest (R63 to R67) -/

def Tile.region (t : Tile) (n : Nat) : Ingest := tget Ingest.reset t.ingest n
def State.modRegion (s : State) (tile n : Nat) (f : Ingest → Ingest) : State :=
  s.modTile tile (fun t => { t with ingest := tset Ingest.reset t.ingest n (f (t.region n)) })

/-- A region accepts a port and an eAxC ID (R63, R64). -/
def Ingest.accepts (r : Ingest) (port eaxc : Nat) : Bool :=
  r.en && r.ports.toNat.testBit port &&
    decide (r.eaxc.toNat ≤ eaxc ∧ eaxc ≤ r.eaxc.toNat + r.a.toNat)

/-- Sideshow service bridges ports 2k and 2k + 1 frame for frame (R443). -/
def State.bridge (s : State) (port : Nat) (x : Section) : State :=
  { s with bridged := (if port % 2 = 0 then port + 1 else port - 1, x) :: s.bridged }

/-- Place a section in a region of a tile, or count it (R64 to R66). A section that is not placed is none that
its slot has received (R67, log entry 105); a poisoned status record stops the region's function (R75). -/
def State.ingest (s : State) (tile n : Nat) (x : Section) : State :=
  let r := (s.tile tile).region n
  let mu := r.mu.toNat
  let sl := (x.frameId * 10 + x.subframe) * 2 ^ mu + x.slotId
  let cnt := if x.numPrb = 0 then r.prbs.toNat - x.startPrb else x.numPrb
  let t := symbolStart mu sl x.symbol x.time
  if r.prbs.toNat < x.startPrb + cnt ∨ x.comp ≠ r.comp.toNat ∨ 256 ≤ x.frameId ∨ 10 ≤ x.subframe ∨
      2 ^ mu ≤ x.slotId ∨ 14 ≤ x.symbol then
    s.modRegion tile n (fun r => { r with fmtCnt := sat16 r.fmtCnt 1 })
  else if t + (r.late.toNat * 64 : Nat) < x.time then
    s.modRegion tile n (fun r => { r with lateCnt := sat16 r.lateCnt 1 })
  else if (x.time : Int) < t - ((r.depth - 1) * 1000000 / 2 ^ mu : Nat) then
    s.modRegion tile n (fun r => { r with earlyCnt := sat16 r.earlyCnt 1 })
  else
    let q := sl % r.depth
    let b := r.bytesPerPrb
    let base := r.base.toNat
    let at' := base + r.depth * 224 +
      (((q * (r.a.toNat + 1) + (x.eaxc - r.eaxc.toNat)) * 14 + x.symbol) * r.prbs.toNat + x.startPrb) * b
    let rec' := scratchLoc tile (base + (q * 14 + x.symbol) * 16)
    if s.poisoned (rec' + 8) 8 then s.macFailure [r.vf.toNat]
    else
    let s1 := s.poke (scratchLoc tile at') 0 (x.prbs.take (cnt * b))
    let old := if s1.peekNat (rec' + 12) 2 = sl then s1.peekNat (rec' + 8) 4 else 0
    let s2 := s1.poke rec' 0
      (leBytes 8 x.time ++ leBytes 4 (old + cnt) ++ leBytes 2 sl ++ leBytes 2 0)
    s2.modRegion tile n (fun r => { r with seen := if r.seen.contains sl then r.seen else r.seen ++ [sl] })

/-- The regions that accept a port and an eAxC ID. -/
def State.regionsFor (s : State) (port eaxc : Nat) : List (Nat × Nat) :=
  s.tiles.flatMap (fun t =>
    (t.2.ingest.filter (fun r => r.2.accepts port eaxc)).map (fun r => (t.1, r.1)))

/-- A section of a U-plane message arrives at a port (R63 to R66); PORTUNM counts each unmatched one (log entry
140). In sideshow service it leaves by the other port of the pair 2k, 2k + 1 (R443). -/
def execIngestSection (port eaxc frameId subframe slotId symbol startPrb numPrb comp time : Nat)
    (prbs : List Byte) (s : State) : Host.Outcome State Fault Refusal :=
  match s.atTime time with
  | none => .next s
  | some s1 =>
    let x : Section :=
      { eaxc := eaxc, frameId := frameId, subframe := subframe, slotId := slotId, symbol := symbol,
        startPrb := startPrb, numPrb := numPrb, comp := comp, time := time, prbs := prbs }
    if !s.hub.bootDone then .next (s1.bridge port x)
    else
      match s1.regionsFor port eaxc with
      | [] => .next (s1.modHub (fun h =>
          { h with portUnm := tset 0 h.portUnm port (tget 0 h.portUnm port + 1) }))
      | rs => .next (rs.foldl (fun t r => t.ingest r.1 r.2 x) s1)

/-- An ingest signal (R89): a RESERVED node without a command is DONE; any other ignores it. -/
def State.signalNode (s : State) (id : BitVec 16) : State :=
  if id ≠ 0xFFFF#16 ∧ (s.node id).st = .reserved then s.finishNode id .done 1 else s

/-- Time passes the end of a slot that received a section: its node is signalled (R67, R89). -/
def execSlotClose (tile region sl time : Nat) (s : State) : Host.Outcome State Fault Refusal :=
  let r := (s.tile tile).region region
  match s.atTime time with
  | none => .next s
  | some s1 =>
    if r.en && r.seen.contains sl &&
        decide (symbolStart r.mu.toNat sl 13 time + (r.late.toNat * 64 : Nat) < time) then
      let s2 := s1.modRegion tile region (fun r => { r with seen := r.seen.filter (fun x => x != sl) })
      .next (s2.signalNode r.node)
    else .next s

/-- IRCTL's fields from a write, EN aside (R63). -/
def Ingest.write (r : Ingest) (x : Nat) : Ingest :=
  { r with ports := BitVec.ofNat 8 (x / 2), eaxc := BitVec.ofNat 16 (x / 2 ^ 9),
           a := BitVec.ofNat 7 (x / 2 ^ 25), vf := BitVec.ofNat 9 (x / 2 ^ 32),
           mu := BitVec.ofNat 2 (x / 2 ^ 41), comp := BitVec.ofNat 2 (x / 2 ^ 43),
           ld := BitVec.ofNat 2 (x / 2 ^ 45) }

/-- The region may be enabled beside the tile's other regions (R63). -/
def Tile.regionOk (t : Tile) (n : Nat) (r : Ingest) : Bool :=
  decide (r.comp.toNat ≤ 1 ∧ 1 ≤ r.prbs.toNat ∧ r.prbs.toNat ≤ 273 ∧ r.base.toNat % 64 = 0 ∧
    r.base.toNat + r.size ≤ scratchSize) &&
    t.ingest.all (fun e => decide (e.1 = n) || !e.2.en ||
      decide (e.2.base.toNat + e.2.size ≤ r.base.toNat ∨ r.base.toNat + r.size ≤ e.2.base.toNat))

/-- A write of IRCTL (R63); in sideshow service no region can be enabled (R443). Enabling forgets the slots that
received sections before (log entry 141). -/
def execIrctlWrite (tile region : Nat) (data : W64) (s : State) : Host.Outcome State Fault Refusal :=
  let t := s.tile tile
  let r := (t.region region).write data.toNat
  if !data.getLsbD 0 then .next (s.modRegion tile region (fun _ => { r with en := false }))
  else if s.hub.bootDone && t.regionOk region r then
    .next (s.modRegion tile region (fun _ =>
      { r with en := true, err := false, lateCnt := 0, earlyCnt := 0, fmtCnt := 0, seen := [] }))
  else .next (s.modRegion tile region (fun _ => { r with en := false, err := true }))

/-! ### Egress (R68 to R70) -/

def State.flow (s : State) (f : Nat) : Flow := tget Flow.reset s.flows f
def State.modFlow (s : State) (f : Nat) (g : Flow → Flow) : State :=
  { s with flows := tset Flow.reset s.flows f (g (s.flow f)) }

/-- Location of a flow's queue header (R69). -/
def Flow.header (f : Flow) : Nat := scratchLoc f.tile.toNat (f.base.toNat * 16)
/-- TAIL and HEAD words of the queue. -/
def State.flowTail (s : State) (f : Flow) : Nat := s.peekNat f.header 8
def State.flowHead (s : State) (f : Flow) : Nat := s.peekNat (f.header + 8) 8

/-- FLCTL's fields from a write, EN aside (R68). -/
def Flow.write (f : Flow) (x : Nat) : Flow :=
  { f with port := BitVec.ofNat 3 (x / 2), comp := BitVec.ofNat 2 (x / 2 ^ 4),
           vf := BitVec.ofNat 9 (x / 2 ^ 8), eaxc := BitVec.ofNat 16 (x / 2 ^ 32),
           vid := BitVec.ofNat 12 (x / 2 ^ 48), pcp := BitVec.ofNat 3 (x / 2 ^ 60) }

/-- The flow may be enabled (R68). -/
def State.flowOk (s : State) (n : Nat) (f : Flow) : Bool :=
  decide (f.comp.toNat ≤ 1 ∧ 4 ≤ f.logn.toNat ∧ f.logn.toNat ≤ 10 ∧ f.base.toNat % 4 = 0 ∧
    f.base.toNat * 16 + 64 + 2 ^ f.logn.toNat * 32 ≤ scratchSize) &&
    (s.part (s.vf f.vf.toNat).part.toNat).table.tiles.contains f.tile.toNat &&
    s.flows.all (fun e => decide (e.1 = n) || !e.2.en ||
      decide (e.2.port ≠ f.port ∨ e.2.eaxc ≠ f.eaxc))

/-- Remove a flow: EN clears, and the posted descriptors that have not been sent are dropped (R70). With a
poisoned TAIL or HEAD their number is not known: the flow's function fails (R75, log entry 120). -/
def State.removeFlow (s : State) (n : Nat) : State :=
  let f := s.flow n
  if !f.en then s
  else if s.poisoned f.header 16 then
    (s.modFlow n (fun f => { f with en := false, ready := [] })).macFailure [f.vf.toNat]
  else
    s.modFlow n (fun f => { f with
      en := false, ready := [],
      drop := sat16 f.drop ((s.flowTail f + 2 ^ 64 - s.flowHead f) % 2 ^ 64) })

/-- A write of FLCTL (R68). A poisoned TAIL leaves the flow disabled and stops its function (R75, log entry
120). -/
def execFlctlWrite (flow : Nat) (data : W64) (s : State) : Host.Outcome State Fault Refusal :=
  let f := (s.flow flow).write data.toNat
  if !data.getLsbD 0 then
    .next ((s.removeFlow flow).modFlow flow (fun f => f.write data.toNat))
  else if s.flowOk flow f && s.poisoned f.header 8 then
    .next ((s.modFlow flow (fun _ => { f with en := false, err := false, ready := [] })).macFailure
      [f.vf.toNat])
  else if s.flowOk flow f then
    .next ((s.modFlow flow (fun _ =>
      { f with en := true, err := false, sent := 0, lateCnt := 0, drop := 0, ready := [] })).poke
      (f.header + 8) 0 (leBytes 8 (s.flowTail f)))
  else
    .next ((s.removeFlow flow).modFlow flow (fun f =>
      { f.write data.toNat with en := false, err := true }))

/-- Advance HEAD (R70 step 5); a poisoned HEAD stops the flow's function (R75). -/
def State.advanceFlow (s : State) (f : Flow) : State :=
  if s.poisoned (f.header + 8) 8 then s.macFailure [f.vf.toNat]
  else s.poke (f.header + 8) 0 (leBytes 8 (s.flowHead f + 1))

/-- Fields of a descriptor (R69), as a 256-bit number. -/
def txTime (d : Nat) : Nat := bitsAt 64 0 d
def txStart (d : Nat) : Nat := bitsAt 16 128 d
def txNum (d : Nat) : Nat := bitsAt 16 144 d

/-- The fields of a descriptor are in range (R69). -/
def txOk (d : Nat) : Bool :=
  decide (bitsAt 64 192 d = 0 ∧ txStart d ≤ 272 ∧ 1 ≤ txNum d ∧ txStart d + txNum d ≤ 273 ∧
    bitsAt 8 160 d ≤ 13 ∧ bitsAt 8 176 d ≤ 9)

/-- Bytes of a PRB on the wire. -/
def Flow.bytesPerPrb (f : Flow) : Nat := if f.comp = 1#2 then 28 else 48

/-- The lines of walkers' updates that something holds up (R42, R52, R247, R278). -/
def State.updatesHeld (s : State) (ps : List (W64 × Nat × Xlat)) : List (Nat × Nat) :=
  ps.filterMap (fun p => (s.updateHeld p.2.2).map (fun l => (l, 8)))

/-- A descriptor's TXTIME lies more than 10 µs in the past (R70), a bound that sideshow service multiplies by
8/3 (R443). -/
def State.tooLate (s : State) (tx time : Nat) : Bool :=
  if s.hub.bootDone then decide (tx + 10000 < time) else decide (3 * tx + 80000 < 3 * time)

/-- Drop the descriptor at HEAD, counted in DROP (R70). -/
def State.dropDescriptor (s : State) (n : Nat) (f : Flow) : State :=
  (s.modFlow n (fun f => { f with drop := sat16 f.drop 1 })).advanceFlow f

/-- The fronthaul unit takes the next posted descriptor of a flow (R70 steps 1 to 3), once the lines of its
walkers' updates are free. One whose payload does not translate, or that the twin refuses (R419), is dropped; a
poisoned word stops the flow's function (R75). -/
def execEgressFetch (flow time : Nat) (s : State) : Host.Outcome State Fault Refusal :=
  let f := s.flow flow
  let vf := f.vf.toNat
  match s.atTime time with
  | none => .next s
  | some s1 =>
    let n := s.flowHead f
    let desc := f.header + 64 + n % 2 ^ f.logn.toNat * 32
    if !f.en || !f.ready.isEmpty || decide (s.flowTail f = n) then .next s
    else if s.poisoned f.header 16 then .next (s1.macFailure [vf])
    else if s.poisoned desc 32 then .next ((s1.dropDescriptor flow f).macFailure [vf])
    else
      let d := s.peekNat desc 32
      let va := BitVec.ofNat 64 (bitsAt 64 64 d)
      let n := txNum d * f.bytesPerPrb
      match (if txOk d then s.defaultPlaces vf .load va n else none) with
      | none =>
        let t := s1.dropDescriptor flow f
        .next (if txOk d && s.defaultMac vf .load va n then t.macFailure [vf] else t)
      | some ps =>
        if s1.runsRefused .load ps then .next ((s1.twinAsked .load ps).dropDescriptor flow f)
        else if s1.tooLate (txTime d) time then
          .next ((s1.modFlow flow (fun f => { f with lateCnt := sat16 f.lateCnt 1 })).advanceFlow f)
        else if !(s1.updatesHeld ps).isEmpty then .next (s1.callBack (s1.updatesHeld ps))
        else
          let s2 := (s1.twinAsked .load ps).readRuns ps
          if s2.runsPoisoned ps then
            .next ((s2.dropDescriptor flow f).macFailure [vf])
          else
            .next (s2.modFlow flow (fun f =>
              { f with ready := [(txTime d, d / 2 ^ 128, s2.bytesAt ps)] }))

/-- The message of a fetched descriptor (R70 step 4), from its port's own address (R68); `w` holds
descriptor bytes 31:16. -/
def Flow.message (f : Flow) (smac : BitVec 48) (w : Nat) (payload : List Byte) : Sent :=
  { port := f.port, smac := smac, dmac := f.dmac, vid := f.vid, pcp := f.pcp, eaxc := f.eaxc,
    frame := bitsAt 8 56 w, subframe := bitsAt 8 48 w, slotId := bitsAt 8 40 w,
    symbol := bitsAt 8 32 w, startPrb := bitsAt 16 0 w,
    numPrb := if bitsAt 16 0 w = 0 ∧ bitsAt 16 16 w = 273 then 0 else bitsAt 16 16 w,
    comp := f.comp, payload := payload }

/-- The time that a payload keeps its port under the port's rate limit, in ns (R432, log entry 106). -/
def portTime (rate n : Nat) : Nat := if rate = 0 then 0 else ceilDiv (n * 1000) rate

/-- At TXTIME the message leaves the port; the flows of a port go by TXTIME (R70 steps 4 and 5), and a
message that exceeds the port's rate limit is held back (R432). -/
def execEgressTransmit (flow time : Nat) (s : State) : Host.Outcome State Fault Refusal :=
  let f := s.flow flow
  match s.atTime time, f.ready with
  | some s1, (tx, w, payload) :: rest =>
    let earlier := s.flows.any (fun e => e.2.en && e.2.port == f.port &&
      (match e.2.ready with | (t, _) :: _ => decide (t < tx) | [] => false))
    let port := f.port.toNat
    if !f.en || decide (time < tx) || earlier || decide (time < tget 0 s.hub.portFree port) then .next s
    else
      let s2 := { s1.modHub (fun h => { h with
          portFree := tset 0 h.portFree port (time + portTime (tget 0 h.portRate port) payload.length) }) with
        sent := f.message (tget 0 s.hub.portMac port) w payload :: s1.sent }
      .next ((s2.modFlow flow (fun f => { f with ready := rest, sent := f.sent + 1 })).advanceFlow f)
  | _, _ => .next s

/-! ### Uncorrectable errors (R75) -/

/-- Poison an 8-byte word. -/
def State.poisonWord (s : State) (w : Nat) : State :=
  s.modMem (fun m => { m with poison := if m.poison.contains w then m.poison else m.poison ++ [w] })

/-- The line is dirty in the L2. -/
def State.dirtyLine (s : State) (line : Nat) : Bool :=
  s.mem.l2.any (fun e => e.2.any (fun w => w.line == line && w.dirty))

/-- On-chip errors that the SECDED codes have corrected since the last uncorrectable one are counted (R75): no
event reports them, so that their number is a free value (log entry 137). -/
def State.countCorrected (s : State) : State :=
  (s.modHub (fun h => { h with eccCount := h.eccCount + Config.freeNat s.free })).bump

/-- An uncorrectable error (R75): a clean line is refetched; in a dirty line, whose word the event does
not name, a free choice of word is poisoned; a word of another store is poisoned. -/
def execUncorrectableError (place : ErrPlace) (s0 : State) : Host.Outcome State Fault Refusal :=
  let s := s0.countCorrected
  match place with
  | .l2Line line =>
    if s.dirtyLine line then .next ((s.poisonWord (line * 16 + Config.freeNat s.free % 16)).bump)
    else .next s
  | .scratchWord loc => .next (if isScratch loc then s.poisonWord (loc / 8) else s)
  | .calderaWord vc off =>
    .next (s.modVc vc (fun v =>
      { v with caldPoison := if v.caldPoison.contains (off / 8) then v.caldPoison
                             else v.caldPoison ++ [off / 8] }))
  | .tileWord vc tile off =>
    let w := tile * 512 + off / 8
    .next (s.modVc vc (fun v =>
      { v with accPoison := if v.accPoison.contains w then v.accPoison else v.accPoison ++ [w] }))

end Sys2Proof.Machine
end

