-- ==== Sys2Proof/Machine/Matrix.lean ====
section
/-!
DEFINITION. Matrix multiply: major 0x38 (R229 to R234), with the accumulation of R130.
-/

namespace Sys2Proof.Machine

open Sys2Proof

/-! ### Operands -/

/-- The A types of R229. -/
def matrixType (t : Vt) : Bool := fillType t || t.sq

/-- The B word (R230). -/
structure BWord where
  cb : Nat
  bpl : Nat
  ku : Nat
  /-- A reserved bit is set. -/
  bad : Bool
  deriving DecidableEq, Repr

def bWord (x : Nat) : BWord :=
  { cb := bitsAt 15 0 x, bpl := bitsAt 3 16 x, ku := bitsAt 13 32 x,
    bad := x.testBit 15 || decide (bitsAt 13 19 x ≠ 0 ∨ x / 2 ^ 45 ≠ 0) }

/-- Bytes of B in each slice for Kb rows (R230). -/
def BWord.span (w : BWord) (t : Vt) (kb : Nat) : Nat :=
  if t.cls = 3 then kb * t.size else (w.bpl + 1) * planeStride kb

/-- The checks of R230 beside those on KU. -/
def State.bOk (s : State) (t : Vt) (w : BWord) (kb : Nat) : Bool :=
  !w.bad && (if t.cls = 3 then w.bpl == 0 else decide (1 ≤ w.bpl)) && decide (s.vl % 32 = 0) &&
    decide (w.cb % (if t.cls = 3 then t.size else 64) = 0) && s.inAcfg w.cb (w.span t kb)

/-- B[k][n]: bits of a float, or a plane value (R71, R125). -/
def BWord.elem (w : BWord) (v : Vc) (t : Vt) (kb k n : Nat) : Int :=
  if t.cls = 3 then
    leNat ((List.range t.size).map (fun i => v.caldByte (caldAt n (w.cb + k * t.size + i))))
  else
    sextN (w.bpl + 1) ((List.range (w.bpl + 1)).foldl (fun x j =>
      2 * x + (if (v.caldByte (caldAt n (w.cb + j * planeStride kb + k / 8))).getLsbD (k % 8)
        then 1 else 0)) 0)

/-- A byte of column n that a step at row k reads. -/
def BWord.reads (w : BWord) (t : Vt) (kb k off : Nat) : Bool :=
  if t.cls = 3 then decide (w.cb + k * t.size ≤ off ∧ off < w.cb + k * t.size + t.size)
  else (List.range (w.bpl + 1)).any (fun j => off == w.cb + j * planeStride kb + k / 8)

/-! ### Accumulation (R130) -/

/-- p × 2^e rounded to an integer, ties to even (R127). -/
def scaleProduct (p e : Int) : Int := if 0 ≤ e then shlI p e.toNat else rshift p (-e).toNat 0

/-- One rank-one step on an accumulator word: A's element with its block scale, B's, and C. -/
def accumulate (t : Vt) (a : Nat) (scale : Int) (b : Int) (c : Nat) : Out :=
  if t.cls = 3 then
    let f := fmtOf t.fmt t.sewE
    let x := cvtFF f f32 0 a
    let y := cvtFF f f32 0 b.toNat
    let r := f32.fma 0 false false x.val y.val c
    { val := r.val, ev := (x.ev ||| y.ev) ||| r.ev }
  else
    let p := sextN 8 a * b
    let z := sextN 32 c + (if t.sq then scaleProduct p scale else p)
    { val := lowN 32 z, ev := if satN 32 z = z then 0 else evOvf }

/-- A matrix instruction in hand: its steps as pairs of a present-step number and its uncompressed row,
in order. -/
structure Product where
  t : Vt
  a : BitVec 5
  w : BWord
  kb : Nat
  steps : List (Nat × Nat)
  deriving DecidableEq, Repr

/-- The scale of the block of element e of a group at a register field. -/
def State.scaleOf (s : State) (a : BitVec 5) (e : Nat) : Int :=
  let per := s.per s.vt.gm
  sextN 8 (s.scaleByte (a.toNat + e / per) (e % per / 63))

/-- The step and row at which a stop's marks cut the product; a step without a row is cut before its first, and a mark
past the last row of a step stands at the next step. -/
def Convoy.stopMark (c : Convoy) : Option (Nat × Nat) :=
  match c.cut with
  | k :: m :: _ => some (if 32 ≤ m then (k + 1, 0) else (k, m))
  | [k] => some (k, 0)
  | [] => none

/-- Row m of step k is done now: not before mprog's point (R233), and before a stop's. -/
def State.rowNow (s : State) (k m : Nat) : Bool :=
  !(s.th.fl.mpAct && decide (k < s.th.fl.mpK.toNat ∨ (k = s.th.fl.mpK.toNat ∧ m < s.th.fl.mpRow.toNat))) &&
    (match s.cv.stopMark with
      | some (k1, m1) => decide (k < k1 ∨ (k = k1 ∧ m < m1))
      | none => true)

/-- Element C[m][n] after its steps, in ascending order, with the classes raised (R130, R231). -/
def State.cell (s : State) (p : Product) (m n c : Nat) : Out :=
  p.steps.foldl (fun o st =>
    if s.rowNow st.2 m then
      let e := 32 * st.1 + m
      let r := accumulate p.t (s.elem p.a e) (if p.t.sq then s.scaleOf p.a e else 0)
        (p.w.elem (s.vc s.curVc) p.t p.kb st.2 n) o.val
      { val := r.val, ev := o.ev ||| r.ev }
    else o) { val := c, ev := 0 }

/-- Perform the steps on a tile (R231), with its flags. -/
def State.multiply (s : State) (t : BitVec 4) (p : Product) : State :=
  let cs := (List.range 1024).map (fun i => s.cell p (i / 32) (i % 32) (accWord (s.acc t) i))
  (s.modVc s.curVc (fun v => v.setAcc t (accOf (cs.map (·.val))))).mergeFlags
    ((List.range 1024).zip (cs.map (·.ev)))

/-- The caldera words that the steps read hold no poison (R75). -/
def caldClean (p : Product) : M Unit := do
  let s ← get
  if (s.vc s.curVc).caldPoison.any (fun x => (List.range 8).any (fun i =>
      p.steps.any (fun st => p.w.reads p.t p.kb st.2 ((8 * x + i) % 32768)))) then
    trap Cause.macfail 0

/-- The caldera words and tile that the steps read hold no poison (R75). -/
def operandsClean (t : BitVec 4) (p : Product) : M Unit := do
  caldClean p
  tileClean t (List.range 1024)

/-- The same for a tile that the product is still to claim. -/
def operandsReady (t : BitVec 4) (p : Product) : M Unit := do
  tileReady t []
  caldClean p
  tileReady t (List.range 1024)

/-- mprog at a stop (R233): the first step not finished and its first row not updated; 0 when the stop
finds every step finished. -/
def State.markProgress (s : State) (p : Product) : State :=
  match s.cv.stopMark with
  | some (k, m) =>
    match p.steps.find? (fun st => decide (k ≤ st.2)) with
    | some st =>
      let row := if st.2 = k then m else 0
      if s.th.fl.mpAct ∧ (st.2 < s.th.fl.mpK.toNat ∨
          (st.2 = s.th.fl.mpK.toNat ∧ row < s.th.fl.mpRow.toNat)) then s
      else s.modFl (fun f =>
        { f with mpAct := true, mpK := BitVec.ofNat 13 st.2, mpRow := BitVec.ofNat 5 row })
    | none => s.clearMprog
  | none => s

/-! ### The array (R234) -/

/-- The slots of a VC in the order in which they take the array. -/
def arrayOrder (vc last : Nat) : List Nat :=
  (List.range 4).map (fun i => 4 * vc + (last + 1 + i) % 4)

/-- The array takes this slot now: it is free, and no queued slot comes before it. -/
def State.arrayTurn (s : State) : Bool :=
  let v := s.vc s.curVc
  v.array.isNone &&
    ((arrayOrder s.curVc (v.lastArray % 4)).find? (fun n =>
      decide (n = s.cur) ||
        (match (s.thread n).hw.wait with | some (.arrayQueue _) => true | _ => false)) == some s.cur)

/-- Issue a matrix multiply (R228, R231 to R234). With a stop's marks in hand it performs the part before
them, otherwise all of it; the array then runs until MMA_COMPLETE, and the thread waits. Either way the slot
is the last that has used the array. -/
def State.matrix (s : State) (t : BitVec 4) (body : M (Option Product)) :
    Host.Outcome State Fault Refusal :=
  let o := s.conclude (do
    match ← body with
    | none => modify State.clearMprog
    | some p =>
      operandsReady t p
      claimTile t
      if !(← get).arrayTurn then waitFor (.arrayQueue t)
      if s.cv.cut.isEmpty then
        modify (fun u => ((u.multiply t p).clearMprog).modVc u.curVc (fun v =>
          { v with array := some (u.cur, t), lastArray := u.cur }))
      else modify (fun u => ((u.multiply t p).markProgress p).modVc u.curVc (fun v =>
        { v with lastArray := u.cur })))
  match o with
  | .next u =>
    if (s.vc s.curVc).array.isNone ∧ (u.vc s.curVc).array = some (s.cur, t) then
      .next (u.modHw (fun h => { h with wait := some .array }))
    else .next u
  | o => o

/-- MMA (R231). -/
def execMma (t : BitVec 4) (a b : BitVec 5) (s : State) : Host.Outcome State Fault Refusal :=
  s.matrix t (do
    let vt ← vectorChecks [a] matrixType
    let w := bWord (s.rd b).toNat
    let k := s.vl / 32
    need (w.ku == 0 && s.bOk vt w k)
    pure (if s.vl = 0 then none
      else some { t := vt, a := a, w := w, kb := k, steps := (List.range k).map (fun i => (i, i)) }))

/-- MMAS (R232). -/
def execMmas (t : BitVec 4) (a b p : BitVec 5) (s : State) : Host.Outcome State Fault Refusal :=
  s.matrix t (do
    let vt ← vectorChecks [a] matrixType
    let w := bWord (s.rd b).toNat
    let mask := s.pred (s.predNo p)
    let ks := (List.range w.ku).filter (fun k => mask.getLsbD k)
    need (p != 0#5 && decide (1 ≤ w.ku ∧ w.ku ≤ 4096) && s.bOk vt w w.ku)
    need (decide (ks.length = s.vl / 32))
    pure (if s.vl = 0 then none
      else some { t := vt, a := a, w := w, kb := w.ku, steps := (List.range ks.length).zip ks }))

end Sys2Proof.Machine
end

