-- ==== Sys2Proof/Machine/Fence.lean ====
section
/-!
DEFINITION. Fences and drains: major 0x14 (R345 to R349, R269, R270, R275, R276).
-/

namespace Sys2Proof.Machine

open Sys2Proof

/-- The train destination that holds a location (R176). -/
def State.destOf (s : State) (loc : Nat) : Dest :=
  if isScratch loc then .tile ((loc - scratchBase) / 2 ^ 24)
  else if isTwin loc then .twin
  else if isHost loc then .coherence (dieOfTile s.curTile)
  else .slice (s.sliceOfLoc loc)

/-- A scope covers a train destination (R269): 0 thread, 1 core, 2 tile, 3 die, 4 package, 5 system. -/
def State.covers (s : State) (scope : Nat) (d : Dest) : Bool :=
  if scope ≤ 1 then false
  else
    match d with
    | .tile t =>
      if scope = 2 then decide (t = s.curTile)
      else if scope = 3 then decide (dieOfTile t = dieOfTile s.curTile) else true
    | .slice n =>
      if scope = 2 then false
      else if scope = 3 then decide (n / 48 = dieOfTile s.curTile) else true
    | .coherence _ => decide (4 ≤ scope)
    | .twin => decide (5 ≤ scope)

/-- FENCE (R270, R346): the buffer drains, then the trains that the scope covers are acknowledged. -/
def execFence (sc : BitVec 5) (s : State) : Host.Outcome State Fault Refusal :=
  s.conclude (do
    drainBuffer
    let t ← get
    if t.th.hw.trains.any (fun x => t.covers sc.toNat x.dest) then waitFor .trains
    trainError (fun loc => t.covers sc.toNat (t.destOf loc)))

/-- FENCEE (R347, R275): the buffer drains, then no lock of the tile overlaps the range. -/
def execFencee (a b : BitVec 5) (s : State) : Host.Outcome State Fault Refusal :=
  let x := (s.rd b).toNat
  let len := x % 2 ^ 48
  let va := (s.rd a).toNat
  let ranges := if x.testBit 63 then [{ space := Space.caldera s.curVc, lo := va, hi := va + len - 1, va := va }]
    else spacesOf s.th.id.vf s.th.tr.asid s.curTile va len
  s.conclude (do
    need (decide (bitsAt 15 48 x = 0))
    drainBuffer
    if len ≠ 0 then
      if ((← get).tile s.curTile).locks.any (fun l =>
          ranges.any (fun r => decide (l.space = r.space ∧ l.lo ≤ r.hi ∧ r.lo ≤ l.hi))) then
        waitFor .locks)

/-- QDRAIN (R348): the decoupling queues are empty between the convoys of this model (log entry 9). -/
def execQdrain (_m : BitVec 4) (s : State) : Host.Outcome State Fault Refusal := .next s.finish

/-- A store on a window is still on its way in some other thread: buffered, or in a train (R276 step 2). One that
needs the room of a WINPUB, and those behind it, are not awaited by it (log entry 117). -/
def State.storesLeft (s : State) (kid : Nat) : Bool :=
  s.slots.any (fun e => decide (e.1 ≠ s.cur) &&
    ((e.2.hw.buf.takeWhile (fun b => !s.fifthLine b.kid b.writes)).any (fun b =>
        b.kid == kid && b.writes.any (fun w => s.inSharing w.1 kid)) ||
      e.2.hw.trains.any (fun t => !t.arrived && t.kid == kid &&
        (t.elems.takeWhile (fun x => !s.fifthLine kid (writesOf x.1 x.2))).any (fun w => s.inSharing w.1 kid))))

/-- The pending copies of the window with a key identifier. -/
def State.pendingOf (s : State) (kid : Nat) : List Host.Cell :=
  s.mem.pending.filter (fun c => (s.frame (c.1 / 2 ^ 21)).kid.toNat == kid)

/-- Publish the pending copies of the window with a key identifier (R276 step 3). -/
def State.publish (s : State) (kid : Nat) : State :=
  let mine := fun (c : Host.Cell) => (s.frame (c.1 / 2 ^ 21)).kid.toNat == kid
  let now := s.pendingOf kid
  let s1 := s.modMem (fun m =>
    { m with pending := m.pending.filter (fun c => !mine c)
             cells := now.foldl (fun t c => tset 0 t c.1 c.2) m.cells })
  now.foldl (fun t c => t.dropDcache none c.1) s1

/-- WINPUB (R349, R276): the buffer drains, every earlier store of the function on the window is performed,
the host's copies of the lines are called back (R278), and the window is published. It reads and writes nothing
at its address, so no lock stops it (R94, R247). Its release needs no wait of its own: the buffer and the trains
are done before the window is published. -/
def execWinpub (a : BitVec 5) (s : State) : Host.Outcome State Fault Refusal :=
  s.conclude (do
    let p ← translatePlace .store (s.rd a)
    if !(p.owner && isDevice p.loc) then trap Cause.perm (s.rd a)
    release
    let t ← get
    if t.storesLeft p.kid then waitFor .pendingLine
    let rs := (t.pendingOf p.kid).map (fun c => (c.1, 1))
    if rs.any (fun r => !(t.heldRange r.1 r.2).isEmpty) then
      set (t.callBack rs)
      waitFor .line
    set (t.publish p.kid))

end Sys2Proof.Machine
end

