-- ==== Sys2Proof/Machine/VMem.lean ====
section
/-!
DEFINITION. Vector loads and stores: majors 0x18 to 0x1C (R163 to R175).
-/

namespace Sys2Proof.Machine

open Sys2Proof

/-- Addresses of the elements that an access is for, from the base by an offset of each (R168). -/
def State.elemAddrs (s : State) (base : W64) (p : BitVec 5) (off : Nat → W64) : List (Nat × W64) :=
  (s.wanted p).map (fun e => (e, base + off e))

/-- e × z. -/
def State.unitOff (s : State) (e : Nat) : W64 := BitVec.ofNat 64 (e * s.vt.size)
/-- e × stride, a signed stride read at issue. -/
def strideOff (x : W64) (e : Nat) : W64 := BitVec.ofNat 64 e * x
/-- zext(vb[e], SEW). -/
def State.indexOff (s : State) (b : BitVec 5) (e : Nat) : W64 := BitVec.ofNat 64 (s.elem b e)

/-- vl × element bytes (R57). -/
def State.unitFootprint (s : State) : Nat := s.vl * s.vt.size
/-- vl × |stride|, element bytes for a stride of 0 (R57). -/
def State.strideFootprint (s : State) (x : W64) : Nat :=
  if x = 0#64 then s.vt.size else s.vl * x.toInt.natAbs
/-- vl × 128 bytes (R57). -/
def State.indexFootprint (s : State) : Nat := s.vl * 128

/-- A vector load with offsets (R165, R168). -/
def State.vload (s : State) (d a p : BitVec 5) (regs : List (BitVec 5)) (sqOk : Bool) (fp : Nat)
    (off : Nat → W64) : Host.Outcome State Fault Refusal :=
  s.conclude (do
    let t ← vectorChecks regs (fun t => sqOk || !t.sq)
    loadElems d t.size (s.elemAddrs (s.rd a) p off) fp)

/-- A vector store with offsets (R165, R170). -/
def State.vstore (s : State) (d a p : BitVec 5) (regs : List (BitVec 5)) (sqOk : Bool) (fp : Nat)
    (any : Bool) (off : Nat → W64) : Host.Outcome State Fault Refusal :=
  s.conclude (do
    let t ← vectorChecks regs (fun t => sqOk || !t.sq)
    storeElems d t.size (s.elemAddrs (s.rd a) p off) fp any)

/-- VLD (R168). -/
def execVld (_cont : Bool) (d a p : BitVec 5) (s : State) : Host.Outcome State Fault Refusal :=
  s.vload d a p [d] true s.unitFootprint s.unitOff
/-- VLDS (R168). -/
def execVlds (_cont : Bool) (d a b p : BitVec 5) (s : State) : Host.Outcome State Fault Refusal :=
  s.vload d a p [d] true (s.strideFootprint (s.rd b)) (strideOff (s.rd b))
/-- VLDX (R168): not under sq. -/
def execVldx (_cont : Bool) (d a b p : BitVec 5) (s : State) : Host.Outcome State Fault Refusal :=
  s.vload d a p [d, b] false s.indexFootprint (s.indexOff b)
/-- VST (R170). -/
def execVst (_cont : Bool) (d a p : BitVec 5) (s : State) : Host.Outcome State Fault Refusal :=
  s.vstore d a p [d] true s.unitFootprint false s.unitOff
/-- VSTS (R170). -/
def execVsts (_cont : Bool) (d a b p : BitVec 5) (s : State) : Host.Outcome State Fault Refusal :=
  s.vstore d a p [d] true (s.strideFootprint (s.rd b)) false (strideOff (s.rd b))
/-- VSTX (R170, R171): beat order. -/
def execVstx (_cont : Bool) (d a b p : BitVec 5) (s : State) : Host.Outcome State Fault Refusal :=
  s.vstore d a p [d, b] false s.indexFootprint true (s.indexOff b)
/-- VSTXO (R170, R171): element order. -/
def execVstxo (_cont : Bool) (d a b p : BitVec 5) (s : State) : Host.Outcome State Fault Refusal :=
  s.vstore d a p [d, b] false s.indexFootprint false (s.indexOff b)

/-- VLDFF (R169): trims vl to the elements before the first faulted one; traps when that is the lowest
active element. -/
def execVldff (d a p : BitVec 5) (s : State) : Host.Outcome State Fault Refusal :=
  s.conclude (do
    let t ← vectorChecks [d] (fun _ => true)
    let as := s.elemAddrs (s.rd a) p s.unitOff
    alignElems t.size as
    lockElems t.size false as
    let r ← translateElems .load as t.size
    match r.bad with
    | [] => loadPlaces d t.size r.ok s.unitFootprint
    | f :: _ =>
      if as.head?.map (·.1) = some f.1 then faultTrap [(f.2.1, .load, f.2.2)]
      else
        loadPlaces d t.size (r.ok.filter (fun x => decide (x.1 < f.1))) s.unitFootprint
        modify (fun u => u.setVl f.1))

/-! ### Bit-plane transfers -/

/-- Address of element e's byte of plane row j (R173). -/
def planeAddr (base : W64) (e j : Nat) : W64 :=
  base + BitVec.ofNat 64 (512 * (e / 512) + 64 * j + e % 512 / 8)

/-- The block of an element under sq. -/
def blockOf (e : Nat) : Nat := e / 63

/-- The addresses of the bytes of each element (R173): its plane bytes, and under sq its block's scale
byte, attributed to the lowest reached element of the block. -/
def State.planeBytes (s : State) (base sc : W64) (rows : Nat) (es : List Nat) : List (Nat × W64) :=
  es.flatMap (fun e =>
    (List.range rows).map (fun j => (e, planeAddr base e j)) ++
      (if s.vt.sq && es.find? (fun x => blockOf x == blockOf e) == some e then
        [(e, sc + BitVec.ofNat 64 (blockOf e))] else []))

/-- The bytes of elements in the order in which the rules name them: by element, then by address (R173). -/
def byteOrder {α : Type} (l : List (Nat × W64 × α)) : List (Nat × W64 × α) :=
  sortBy (fun x y => decide (x.1 < y.1) || (decide (x.1 = y.1) && decide (x.2.1.toNat ≤ y.2.1.toNat))) l

/-- VLDBP's container (R125): x from n plane bits, row 0 the sign. -/
def planeContainer (x n : Nat) (mid : Bool) : Nat :=
  let v := sextN n x
  lowN 8 (if mid && decide (n < 8) then 2 * v + 1 else v)

/-- The checks of VLDBP and VSTBP (R173): i8 or sq, sb 0 under i8, the plane base a multiple of 64,
then locks, byte by byte; the bytes sorted by address within each element. -/
def planeChecks (d b : BitVec 5) (base : W64) (store : Bool) (bytes : List (Nat × W64)) : M Unit := do
  let t ← vectorChecks [d] (fun t => (t.cls == 0 && t.sewE == 0) || t.sq)
  need (t.sq || b == 0#5)
  if bytes ≠ [] then
    if base.toNat % 64 ≠ 0 then trap Cause.align base
    lockElems 1 store (sortBy (fun x y =>
      decide (x.1 < y.1) || (decide (x.1 = y.1) && decide (x.2.toNat ≤ y.2.toNat))) bytes)

/-- The byte at an address among bytes that were read. -/
def byteAt (l : List (W64 × Nat)) (va : W64) : Nat := ((l.find? (fun y => y.1 == va)).map (·.2)).getD 0

/-- Read some translated bytes, once each; nothing is written before all of them are read (R29). -/
def readBytesAt : List (Nat × W64 × Phys) → M (List (W64 × Nat))
  | [] => pure []
  | a :: r => do
    let x ← readPlace a.2.1 a.2.2 1
    let l ← readBytesAt r
    pure ((a.2.1, x) :: l)

/-- Write an element of VLDBP from its plane bytes, and under sq the scale byte of its block (R174). -/
def State.putPlanes (s : State) (d : BitVec 5) (base sc : W64) (got : List (W64 × Nat)) (e : Nat) : State :=
  let n := s.vt.planes + 1
  let x := (List.range n).foldl (fun x j =>
    2 * x + (if (byteAt got (planeAddr base e j)).testBit (e % 8) then 1 else 0)) 0
  let s1 := s.putElem d e (planeContainer x n s.vt.mid)
  let k := sc + BitVec.ofNat 64 (blockOf e)
  if s.vt.sq && got.any (fun y => y.1 == k) then
    s1.putBits (d.toNat + e / s.per s.vt.gm) (e % s.per s.vt.gm / 63 * 512) 8 (byteAt got k)
  else s1

/-- The bytes that VLDBP reads in a pass, of those that translate: the plane bytes of the elements it performs, and the
scale byte of each block that holds one of them, whichever element that byte is attributed to (R174). -/
def State.planesRead (s : State) (sc : W64) (ok : List (Nat × W64 × Phys)) (now : List Nat) :
    List (Nat × W64 × Phys) :=
  ok.filter (fun x => now.contains x.1 ||
    (s.vt.sq && x.2.1 == sc + BitVec.ofNat 64 (blockOf x.1) && now.any (fun e => blockOf e == blockOf x.1)))

/-- VLDBP (R174). -/
def execVldbp (_cont : Bool) (d a b p : BitVec 5) (s : State) : Host.Outcome State Fault Refusal :=
  let n := s.vt.planes + 1
  let es := s.wanted p
  let bytes := s.planeBytes (s.rd a) (s.rd b) n es
  s.conclude (do
    planeChecks d b (s.rd a) false bytes
    let t ← translateElems .load ((← get).short bytes) 1
    let u ← get
    let done := es.filter (fun e => !t.bad.any (fun x => x.1 == e) && u.performs e)
    let now := s.planesRead (s.rd b) t.ok done
    set (u.touchLines (now.map (·.2.2)) (u.loadAlloc u.vl) false)
    let got ← readBytesAt now
    modify (fun u => done.foldl (State.putPlanes · d (s.rd a) (s.rd b) got) u)
    elementFaults .load (byteOrder t.bad))

/-- The byte that VSTBP writes for plane j of the eight elements from e0 (R175): an element contributes
when it lies below vl, is selected and not withheld. -/
def State.planeByte (s : State) (d p : BitVec 5) (withheld : Nat → Bool) (e0 j : Nat) : Byte :=
  BitVec.ofNat 8 (bitsOf 8 (fun k =>
    let e := e0 + k
    decide (e < s.vl) && s.gov p e && !withheld e && (s.elem d e).testBit (7 - j)))

/-- The store of VSTBP (R175): the plane bytes of the elements in `now`, then their blocks' scale bytes, each
byte once and in ascending order of address; `held` names the withheld elements, whose bits stay 0 (R401),
`ok` the places. -/
def State.planeWrites (s : State) (d p : BitVec 5) (base sc : W64) (held : Nat → Bool)
    (ok : List (Nat × W64 × Phys)) (now : List Nat) : List Write :=
  let rows := now.flatMap (fun e => (List.range 8).filterMap (fun j =>
    (ok.find? (fun y => y.2.1 == planeAddr base e j)).map (fun y =>
      (y.2.1.toNat, y.2.2, s.planeByte d p held (e / 8 * 8) j))))
  let scales := now.filterMap (fun e =>
    if s.vt.sq then
      (ok.find? (fun y => y.2.1 == sc + BitVec.ofNat 64 (blockOf e))).map (fun y =>
        (y.2.1.toNat, y.2.2, BitVec.ofNat 8
          (s.scaleByte (d.toNat + e / s.per s.vt.gm) (e % s.per s.vt.gm / 63))))
    else none)
  let inOrder := fun (l : List (Nat × Phys × Byte)) => sortBy (fun x y => decide (x.1 ≤ y.1)) l.eraseDups
  let ws := fun (tag : Nat) (l : List (Nat × Phys × Byte)) => (inOrder l).map (fun y =>
    ({ beat := (tag, y.1 / 64), kid := y.2.1.kid, bytes := [(y.2.1.loc, y.2.2)] } : Write))
  ws 0 rows ++ ws 1 scales

/-- VSTBP (R175). -/
def execVstbp (_cont : Bool) (d a b p : BitVec 5) (s : State) : Host.Outcome State Fault Refusal :=
  let es := s.wanted p
  let base := s.rd a
  let bytes := s.planeBytes base (s.rd b) 8 es
  s.conclude (do
    planeChecks d b base true bytes
    let t ← translateElems .store ((← get).short bytes) 1
    let u ← get
    let held := fun (e : Nat) => t.bad.any (fun x => x.1 == e) || u.cv.withheld.getLsbD e
    let now := es.filter (fun e => !held e && u.performs e)
    storeRoom ((t.ok.filter (fun y => !held y.1)).map (·.2.2))
    modify (fun u => u.pushEntries (u.planeWrites d p base (s.rd b) u.cv.withheld.getLsbD t.ok now)
      (u.bigStore u.vl) false)
    elementFaults .store (byteOrder t.bad))

end Sys2Proof.Machine
end

