-- ==== Sys2Proof/Machine/Train.lean ====
section
/-!
DEFINITION. Remote trains and append queues: majors 0x1D and 0x1E (R176 to R182).
-/

namespace Sys2Proof.Machine

open Sys2Proof

/-! ### Trains -/

/-- The lane that holds an element (R177, R248): eight lanes to a held group. -/
def State.laneOf (s : State) (e : Nat) : Nat :=
  let i := e % s.per s.vt.gm
  8 * s.groupOf e + i * s.vt.sew % 512 / 64

/-- Add an element to the train of its destination and key, or begin one (R176). -/
def addToTrain (ts : List Train) (dest : Dest) (vf : BitVec 9) (kid loc lane : Nat) (bs : List Byte) :
    List Train :=
  match ts with
  | [] => [{ num := 0, dest := dest, vf := vf, kid := kid, elems := [(loc, bs)], lanes := [lane],
             count := 1, arrived := false, error := false }]
  | t :: r =>
    if t.dest = dest ∧ t.kid = kid then
      { t with elems := t.elems ++ [(loc, bs)], lanes := t.lanes ++ [lane], count := t.count + 1 } :: r
    else t :: addToTrain r dest vf kid loc lane bs

/-- The flits of a train (R178): head, one for each element, tail. -/
def State.flits (s : State) (slot : Nat) (t : Train) : List (BitVec 128) :=
  BitVec.ofNat 128 (t.num.toNat + slot % 2048 * 2 ^ 16 + t.vf.toNat * 2 ^ 27 + t.kid % 512 * 2 ^ 36) ::
    (t.elems.map (fun e =>
      BitVec.ofNat 128 (s.addrOf e.1 % 2 ^ 52 + (bitLen e.2.length - 1) % 4 * 2 ^ 52 +
        leNat e.2 * 2 ^ 64)) ++
      [BitVec.ofNat 128 (t.count % 2 ^ 13 + t.num.toNat * 2 ^ 13)])

/-- Number the trains of an instruction in the order they are sent (R178). -/
def numberTrains (n : BitVec 16) : List Train → List Train
  | [] => []
  | t :: r => { t with num := n } :: numberTrains (n + 1) r

/-- Send trains: they leave in order, and the lanes' counters rise (R177). -/
def State.sendTrains (s : State) (ts : List Train) : State :=
  s.modHw (fun h =>
    { h with
      trains := h.trains ++ numberTrains h.trainNum ts
      trainNum := h.trainNum + BitVec.ofNat 16 ts.length
      unack := (ts.flatMap (·.lanes)).foldl (fun u l => tset 0 u l (tget 0 u l + 1)) h.unack })

/-- A remote scatter or put (R176, R177): checks and translation at the source, the drain, then one train
for each destination. -/
def State.remote (s : State) (d p : BitVec 5) (regs : List (BitVec 5)) (base : W64)
    (off : Nat → W64) : Host.Outcome State Fault Refusal :=
  s.conclude (do
    let t ← vectorChecks regs (fun t => !t.sq)
    let as := s.elemAddrs base p off
    alignElems t.size as
    lockElems t.size true as
    let r ← translateElems .store ((← get).short as) t.size
    if r.ok ≠ [] then drainBuffer
    let u ← get
    let now := u.performed r.ok
    storeRoom (now.map (·.2.2))
    let ts := now.foldl (fun ts a =>
      addToTrain ts (u.destOf a.2.2.loc) u.th.id.vf a.2.2.kid a.2.2.loc (u.laneOf a.1)
        (leBytes t.size (u.elem d a.1))) []
    set (u.sendTrains ts)
    elementFaults .store r.bad)

/-- VSCATR (R176). -/
def execVscatr (d a b p : BitVec 5) (s : State) : Host.Outcome State Fault Refusal :=
  s.remote d p [d, b] (s.rd a) (s.indexOff b)
/-- VPUTR (R176). -/
def execVputr (d a p : BitVec 5) (s : State) : Host.Outcome State Fault Refusal :=
  s.remote d p [d] (s.rd a) s.unitOff

/-! ### Append queues -/

/-- The fields of a queue header (R180). -/
structure Queue where
  head : Nat
  tail : Nat
  commit : Nat
  cap : Nat
  thr : Nat
  ring : Nat
  spawn : Nat
  deriving DecidableEq, Repr

def queueOf (bs : List Byte) : Queue :=
  let f := fun (lo n : Nat) => leNat ((bs.drop lo).take n)
  { head := f 0 8, tail := f 8 8, commit := f 16 8, cap := f 24 4, thr := f 28 4, ring := f 32 8,
    spawn := f 40 8 }

/-- The place of n bytes in a translated range. -/
def placeIn (ps : List (W64 × Phys × Nat)) (va : W64) (n : Nat) : Option Phys :=
  (ps.find? (fun p => decide (p.1.toNat ≤ va.toNat ∧ va.toNat + n ≤ p.1.toNat + p.2.2))).map (fun p =>
    { p.2.1 with loc := p.2.1.loc + (va.toNat - p.1.toNat) })

/-- Address of entry n of the stream (R180). -/
def Queue.entry (q : Queue) (n : Nat) : W64 := BitVec.ofNat 64 (q.ring + n % q.cap * 4)

/-- Write bytes at a place as one access at its home (allocating at age 0, R167). -/
def State.homeWrite (s : State) (p : Phys) (bs : List Byte) : State :=
  s.storeHome p.kid none (fun _ => .age 0) (writesOf p.loc bs)

/-- Write an entry of a queue's ring, as a store: one of the twin window that the twin refuses or cannot be
given is dropped and counted (R419). -/
def State.entryWrite (s : State) (p : Phys) (bs : List Byte) : State :=
  if !isTwin p.loc then s.homeWrite p bs
  else if s.twinFails then s.countTwin.bump
  else (s.homeWrite p bs).bump

/-- An atomic of a place permission-faults where the twin refuses it or its link is down (R419). -/
def twinGrants (va : W64) (p : Phys) : M Unit := do
  let s ← get
  if isTwin p.loc then
    set s.bump
    if s.twinFails then trap Cause.perm va

/-- A refused spawn is counted in RMREF (R370). -/
def State.countRefusal (s : State) (vf : Nat) : State :=
  s.modVf vf (fun f =>
    { f with rmref := if f.rmref = BitVec.ofNat 32 (2 ^ 32 - 1) then f.rmref else f.rmref + 1 })

/-- The place of the descriptor that an append queue's spawn is to read, in the thread's context (R181); none where
it is misaligned or may not be read. -/
def spawnPlace (desc : W64) : M (Except XFault Phys) := do
  if desc.toNat % 128 ≠ 0 then pure (.error .perm)
  else
    let s ← get
    match ← resolveIn s.scalarPlaces State.ctx .load desc with
    | .ok x =>
      if (← get).ingestBarsAt s.th.id.vf .load x.phys.loc 128 then pure (.error .perm) else pure (.ok x.phys)
    | .error f => pure (.error f)

/-- The spawn of an append queue that crosses its threshold (R181, R370), from the place of its descriptor: a0
holds the header's VA; a refusal is counted, and a descriptor that cannot be read is refused. The thread is woken. A
poisoned word stops the function (R75). -/
def queueSpawn (hdr desc : W64) (place : Except XFault Phys) : M Unit := do
  let s ← get
  let part := s.curPart
  let vf := s.th.id.vf.toNat
  match place with
  | .ok p =>
    modify (fun u => u.touch [p.loc / 128] p.kid (fun _ => .age 0) false)
    if (← get).poisoned p.loc 128 then trap Cause.macfail desc
    let bs := (← get).homeBytes p 128
    modify (fun u => if u.jobRefusal part vf bs = none then
      (u.acceptJob part vf bs u.th.id.job 0xFFFF#16 (some hdr)).2 else u.countRefusal vf)
  | .error .mac => trap Cause.macfail desc
  | .error _ => modify (fun u => u.countRefusal vf)
  modify (fun u => u.wakeSlot u.cur)

/-- The place of a committed VAPPEND's header. -/
def Append.place (a : Append) : Phys := { loc := a.loc, kid := a.kid, owner := a.owner }

/-- The header of a committed VAPPEND as its home holds it. -/
def State.appendQueue (s : State) (a : Append) : Queue :=
  queueOf ((s.claim a.loc a.kid).homeBytes a.place 64)

/-- A committed VAPPEND has no more to do. -/
def State.endAppend (s : State) : State := s.modHw (fun h => { h with append := none })

/-- The end of a committed VAPPEND (R181): once COMMIT reaches its first entry, it publishes, and pf receives
what it has not appended. A poisoned header stops the function (R75). The descriptor of a crossing's spawn is
translated before COMMIT moves, for its walk may wait; the spawn follows the update of COMMIT, which a poisoned
descriptor does not undo (log entry 118). -/
def commitAppend (a : Append) : M Unit := do
  modify (fun s => s.claim a.loc a.kid)
  let s ← get
  if s.poisoned a.loc 64 then
    set s.endAppend
    trap Cause.macfail a.hdr
  let q := s.appendQueue a
  if q.commit ≠ a.first.toNat then waitFor .commit
  let place := { a.place with loc := a.loc + 16 }
  homeWaits [(place, 8)]
  let before := (q.commit + 2 ^ 64 - q.head) % 2 ^ 64
  let crosses := decide (q.spawn ≠ 0 ∧ before < q.thr ∧ q.thr ≤ before + a.count)
  let desc := BitVec.ofNat 64 q.spawn
  let job : Except XFault Phys ← if crosses then spawnPlace desc else pure (.error .perm)
  modify State.endAppend
  twinGrants a.hdr place
  modify (fun u => u.homeWrite place (leBytes 8 (a.first.toNat + a.count)))
  if crosses then queueSpawn a.hdr desc job
  modify (fun u => u.setPred 95 a.rejected)

/-- Read a queue header at its place (R180), which reaches its slice. -/
def readQueue (hdr : W64) (place : Phys) : M Queue := do
  modify (fun u => u.touch [place.loc / 128] place.kid (fun _ => .age 0) false)
  let bs ← takeBytes hdr place 64
  let q := queueOf bs
  if q.ring % 4 ≠ 0 then trap Cause.align (BitVec.ofNat 64 q.ring)
  pure q

/-- Number of the owning lane group of an address among those held (R46). -/
def State.groupAt (s : State) (va : Nat) : Nat := va / 256 % max 1 (s.th.held.groups s.curVc).length

/-- The parts of a range of one 256 KiB unit that the held lane groups translate (R46): for each group that
owns an address of it, what follows its first. -/
def State.groupRuns (s : State) (va : W64) (n : Nat) : List (W64 × Nat) :=
  let c := max 1 (s.th.held.groups s.curVc).length
  (List.range (min c ((va.toNat + n + 255) / 256 - va.toNat / 256))).map (fun k =>
    if k = 0 then (va, n)
    else
      let d := (va.toNat / 256 + k) * 256 - va.toNat
      (va + BitVec.ofNat 64 d, n - d))

/-- Translate a queue's ring, as a store, in the lane groups that own it (R46, R181). -/
def translateRing (ring : W64) (n : Nat) : M (List (List (W64 × Phys × Nat))) := do
  let s ← get
  translateBy (fun u va => u.lanePlaces va.toNat) .store
    ((pieces ring n).flatMap (fun p => s.groupRuns p.1 p.2))

/-- The place of a ring's 4 bytes, as the lane group that owns them translates them. -/
def State.ringPlace (s : State) (ps : List (W64 × Phys × Nat)) (va : W64) : Option Phys :=
  placeIn (ps.filter (fun p => s.groupAt p.1.toNat == s.groupAt va.toNat)) va 4

/-- Translate the 64 bytes of a queue header, which its alignment keeps in one lane group's unit (R46). It is
updated as an atomic. -/
def queuePlace (hdr : W64) : M Phys := do
  checkAlign hdr 64
  checkLock hdr 64 true
  match (← translateBy (fun u va => u.lanePlaces va.toNat) .store [(hdr, 64)]).flatten with
  | x :: _ =>
    twinGrants hdr x.2.1
    pure x.2.1
  | [] => pure { loc := 0, kid := 0, owner := false }

/-- What a VAPPEND that reserves m entries of a queue has committed to. -/
def State.reservation (s : State) (i : Instr) (hdr : W64) (place : Phys) (q : Queue) (m : Nat)
    (rejected : BitVec 4096) : Append :=
  { hdr := hdr, loc := place.loc, kid := place.kid, owner := place.owner, first := BitVec.ofNat 64 q.tail,
    count := m, rejected := rejected, instr := i, word := s.cv.word }

/-- VAPPEND (R181): reserve, write, wait for COMMIT, publish. -/
def execVappend (a b p : BitVec 5) (s : State) : Host.Outcome State Fault Refusal :=
  let hdr := s.rd a
  s.conclude (do
    match s.th.hw.append with
    | some x => commitAppend x
    | none =>
      vectorGate
      let es := s.actives p
      if es ≠ [] then
        let place ← queuePlace hdr
        release
        let q ← readQueue hdr place
        let ring := BitVec.ofNat 64 q.ring
        if q.cap ≠ 0 then checkLock ring (q.cap * 4) true
        let rp := (← if q.cap = 0 then pure [] else translateRing ring (q.cap * 4)).flatten
        let used := (q.tail + 2 ^ 64 - q.head) % 2 ^ 64
        let m := min es.length (q.cap - used)
        let tail := { place with loc := place.loc + 8 }
        let slots := (List.range m).filterMap (fun i => s.ringPlace rp (q.entry ((q.tail + i) % 2 ^ 64)))
        homeWaits ((tail, 8) :: slots.map (fun y => (y, 4)))
        let rejected := maskOf (es.drop m)
        let x := s.reservation (.vappend a b p) hdr place q m rejected
        modify (fun u =>
          let u1 := u.homeWrite tail (leBytes 8 (q.tail + m))
          let u2 := (slots.zip es).foldl (fun u x => u.entryWrite x.1 (leBytes 4 ((s.rd b).toNat + x.2))) u1
          u2.modHw (fun h => { h with append := some x }))
        commitAppend x)

/-- VQPOP (R182): k entries from HEAD, then HEAD and vl. -/
def execVqpop (d a : BitVec 5) (s : State) : Host.Outcome State Fault Refusal :=
  let hdr := s.rd a
  s.conclude (do
    let _ ← vectorChecks [d] (fun t => (t.cls == 0 || t.cls == 1) && t.sewE == 2)
    if s.vl = 0 then modify (fun u => u.setVl 0)
    else
      let place ← queuePlace hdr
      let q ← readQueue hdr place
      let k := min s.vl ((q.commit + 2 ^ 64 - q.head) % 2 ^ 64)
      let as := (List.range k).map (fun e => (e, q.entry ((q.head + e) % 2 ^ 64)))
      lockElems 4 false as
      let r ← translateElems .load as 4
      if r.bad.isEmpty then
        drainBuffer
        homeWaits [(place, 8)]
      modify (fun u => u.touchLines (r.ok.map (·.2.2)) (.age 0) false)
      let xs ← readPlaces 4 r.ok
      modify (fun u => xs.foldl (fun u x => u.putElem d x.1 x.2) u)
      elementFaults .load r.bad
      modify (fun u => (u.homeWrite place (leBytes 8 (q.head + k))).setVl k))

end Sys2Proof.Machine
end

