-- ==== Sys2Proof/Machine/Window.lean ====
section
/-!
DEFINITION. Vector far atomics (R246) and accumulation windows (R247 to R250).
-/

namespace Sys2Proof.Machine

open Sys2Proof

/-! ### VAMO (R246) -/

/-- The elements of a translation that the twin refuses (R419), and the state after its choices. -/
def State.refusedAtTwin (s : State) : List (Nat × W64 × Phys) → List Nat × State
  | [] => ([], s)
  | a :: r =>
    if isTwin a.2.2.loc then
      let t := s.bump.refusedAtTwin r
      (if s.twinFails then a.1 :: t.1 else t.1, t.2)
    else s.refusedAtTwin r

/-- Translate the places of far atomics, with a check of each: each needs both R and W (R246, R306), one that the
twin refuses permission-faults (R419), and one that meets the word of a failed check takes the failure (R29). -/
def translateAtomicsChecked (check : W64 → Phys → M Unit) (as : List (Nat × W64)) : M Touch := do
  let s ← get
  let noRead := fun (va : W64) => match s.walk s.ctx .load va with | .error .perm => true | _ => false
  let t ← translateChecked check .store (as.filter (fun a => !noRead a.2))
  let u ← get
  match t.bad.find? (fun b => b.2.2 == .perm && u.atomicStopped b.2.1) with
  | some b => trap Cause.macfail b.2.1
  | none => pure ()
  let refused := u.refusedAtTwin t.ok
  set refused.2
  let perm := (as.filter (fun a => noRead a.2 || refused.1.contains a.1)).map (fun a =>
    (a.1, a.2, XFault.perm))
  pure { ok := t.ok.filter (fun a => !refused.1.contains a.1),
         bad := sortBy (fun x y => decide (x.1 ≤ y.1)) (t.bad ++ perm) }

/-- Translate the places of far atomics of n bytes. -/
def translateAtomics (as : List (Nat × W64)) (n : Nat) : M Touch :=
  translateAtomicsChecked (fun va p => checkHome va p n) as

/-- Lines that atomics of n bytes are to be performed on: those under another key go first (R30), and a
poisoned word stops the function before any atomic is performed (R29, R75). -/
def claimAll (n : Nat) : List (W64 × Phys) → M Unit
  | [] => pure ()
  | a :: r => do
    modify (fun s => s.claim a.2.loc a.2.kid)
    if (← get).poisoned a.2.loc n then trap Cause.macfail a.1
    claimAll n r

/-- VAMO (R246). -/
def execVamo (d a b p : BitVec 5) (o : BitVec 4) (s : State) : Host.Outcome State Fault Refusal :=
  s.conclude (do
    let t ← vectorChecks [d, b] (fun t => t.isIn [0, 1] && decide (2 ≤ t.sewE))
    need (decide (o.toNat ≤ 9) && (o != 9#4 || decide (d.toNat + 2 * t.gm ≤ t.nreg)))
    let as := s.elemAddrs (s.rd a) p (s.indexOff b)
    alignElems t.size as
    lockElems t.size true as
    let r ← translateAtomics ((← get).short as) t.size
    if !r.ok.isEmpty then drainBuffer
    let now := (← get).performed r.ok
    atomicWaits (now.map (·.2.2)) t.size
    claimAll t.size (now.map (·.2))
    for x in now do
      let u ← get
      let old ← atomicNow x.2.2 t.size (fun old =>
        amoNew o.toNat t.sew old (u.elem d x.1) (u.elemOf t.gm t.sew (d.toNat + t.gm) x.1))
      modify (fun u => u.putElem d x.1 old)
    elementFaults .store r.bad)

/-! ### Windows -/

/-- Operation OP of a window on two words (R247). -/
def winApply (x old new : Nat) : Out :=
  let op := winOp x
  let w := 8 * winWord x
  if op = 1 then (if w = 32 then f32 else f64).add 0 old new
  else
    { val :=
        if op = 0 then (old + new) % 2 ^ w
        else if op = 2 then (if sextN w old ≤ sextN w new then old else new)
        else if op = 3 then (if sextN w old < sextN w new then new else old)
        else if op = 4 then min old new
        else if op = 5 then max old new
        else if op = 6 then old ||| new
        else old &&& new
      ev := 0 }

/-- WDECL (R247). -/
def execWdecl (a b : BitVec 5) (s : State) : Host.Outcome State Fault Refusal :=
  let base := s.rd a
  let x := (s.rd b).toNat
  let len := winLen x
  s.conclude (do
    vectorGate
    need (decide (x < 2 ^ 15 ∧ 8 ≤ len ∧ len ≤ 1024 ∧ len % winWord x = 0) &&
      s.th.hw.window.isNone)
    checkAlign base 64
    checkLock base len true
    if (s.homeRuns s.ctx base len).any (fun r => s.windowLocked (some s.cur) r.1 (r.2 - r.1 + 1)) then
      throw (.trap (rlockTrap base 0xFFFF#16))
    let sp := spaceOf s.th.id.vf s.th.tr.asid (some s.curTile) base.toNat
    let side : List Nat := match sp.1 with
      | .scratch t => if t = s.curTile then [t] else [s.curTile, t]
      | _ => [s.curTile]
    if side.any (fun t => decide (64 ≤ (s.tile t).locks.length)) then waitFor .engineRoom
    let lock : Lock :=
      { space := sp.1, lo := sp.2, hi := sp.2 + len - 1, write := true, node := 0xFFFF, cmd := 0,
        window := some s.cur }
    modify (fun u =>
      let u1 := side.foldl (fun u t => u.modTile t (fun w => { w with locks := w.locks ++ [lock] })) u
      let u2 := u1.modMem (fun m =>
        { m with winLocks := m.winLocks ++ (s.homeRuns s.ctx base len).map (fun r => (s.cur, r.1, r.2)) })
      let win : Window := { base := base, ctl := BitVec.ofNat 64 x, touched := [], discarded := false }
      u2.modHw (fun h => { h with window := some win })))

/-- A window instruction after a stop discarded the window traps ILLOP once, with the old base (R250). -/
def windowLost : M Unit := do
  let s ← get
  match s.th.hw.lostWindow with
  | some old =>
    set (s.modHw (fun h => { h with lostWindow := none }))
    trap Cause.illop old
  | none => pure ()

/-- The type that updates a window (R248). -/
def winType (x : Nat) (t : Vt) : Bool :=
  (if winOp x = 1 then t.cls == 3 else t.isIn [0, 1]) && decide (t.size = winWord x)

/-- Key of a copy's word: lane × 2^11 + word. -/
def copyKey (lane word : Nat) : Nat := lane * 2 ^ 11 + word

/-- Update one copy (R248): the table of touched words, and the classes raised. -/
def touchCopy (x : Nat) (t : Table W64) (key new : Nat) : Table W64 × Nat :=
  match t.find? (fun e => e.1 == key) with
  | some e =>
    let o := winApply x e.2.toNat new
    (tinsert t key (BitVec.ofNat 64 o.val), o.ev)
  | none => (tinsert t key (BitVec.ofNat 64 new), 0)

/-- WUPD (R248). -/
def execWupd (d a b p : BitVec 5) (s : State) : Host.Outcome State Fault Refusal :=
  s.conclude (do
    vectorGate
    windowLost
    match s.th.hw.window with
    | none => illop
    | some w =>
      let x := w.ctl.toNat
      let t ← vectorChecks [d, b] (winType x)
      let as := s.elemAddrs (s.rd a) p (s.indexOff b)
      match as.find? (fun e =>
          let off := (e.2 - w.base).toNat
          decide (winLen x < off + t.size ∨ e.2.toNat % t.size ≠ 0)) with
      | some e => trap Cause.illop e.2
      | none => pure ()
      lockElems t.size true as
      modify (fun u =>
        let r := (as.filter (fun e => u.performs e.1)).foldl (fun (acc : Table W64 × List (Nat × Nat)) e =>
          let q := touchCopy x acc.1 (copyKey (u.laneOf e.1) ((e.2 - w.base).toNat / t.size))
            (u.elem d e.1)
          (q.1, acc.2 ++ [(e.1, q.2)])) (w.touched, [])
        (u.modHw (fun h => { h with window := some { w with touched := r.1 } })).mergeFlags r.2))

/-- The window's words with their places, from the translated pieces. -/
def windowWords (w : Window) (ps : List (Phys × Nat)) : List (Nat × Phys) :=
  let n := winWord w.ctl.toNat
  let first := match ps with | p :: _ => p.2 | [] => 0
  (List.range (winLen w.ctl.toNat / n)).filterMap (fun i =>
    if i * n < first then ps.head?.map (fun p => (i, { p.1 with loc := p.1.loc + i * n }))
    else (ps[1]?).map (fun p => (i, { p.1 with loc := p.1.loc + (i * n - first) })))

/-- The touched copies of a word, in lane order. -/
def Window.copies (w : Window) (lanes i : Nat) : List Nat :=
  (List.range lanes).filterMap (fun l =>
    (w.touched.find? (fun e => e.1 == copyKey l i)).map (fun e => e.2.toNat))

/-- Fold the copies of a word into its old value, with the classes raised (R249). -/
def foldCopies (x old : Nat) (cs : List Nat) : Out :=
  cs.foldl (fun o c =>
    let r := winApply x o.val c
    { val := r.val, ev := o.ev ||| r.ev }) { val := old, ev := 0 }

/-- A far atomic of the current thread is refused where it stands: the place lacks R (R306), or lies in the twin
window and the twin refuses it (R419). One that meets the word of a failed check takes the failure (R29). -/
def atomicRefused (va : W64) : M Bool := do
  let s ← get
  match s.walk s.ctx .load va with
  | .error .perm => pure true
  | .ok x =>
    if s.atomicStopped va then trap Cause.macfail va
    if isTwin x.phys.loc then
      set s.bump
      pure s.twinFails
    else pure false
  | .error _ => pure false

/-- WMERGE (R249, R272). -/
def execWmerge (s : State) : Host.Outcome State Fault Refusal :=
  s.conclude (do
    vectorGate
    windowLost
    match s.th.hw.window with
    | none => illop
    | some w =>
      let x := w.ctl.toNat
      let ps ← translateWideBy atomicRefused .store w.base (winLen x) 64
      drainBuffer
      let work := (windowWords w ps).filterMap (fun q =>
        let cs := w.copies (8 * s.lg) q.1
        if cs.isEmpty then none else some (q.1, q.2, cs))
      atomicWaits (work.map (·.2.1)) (winWord x)
      claimAll (winWord x) (work.map (fun q => (w.base + BitVec.ofNat 64 (q.1 * winWord x), q.2.1)))
      let mut evs := []
      for q in work do
        let old ← atomicNow q.2.1 (winWord x) (fun old => (foldCopies x old q.2.2).val)
        evs := evs ++ [(q.1, (foldCopies x old q.2.2).ev)]
      modify (fun u => (u.mergeFlags evs).modHw (fun h =>
        { h with window := some { w with touched := [] } })))

/-- WFREE (R250). -/
def execWfree (s : State) : Host.Outcome State Fault Refusal :=
  s.conclude (do
    vectorGate
    windowLost
    modify (fun u => u.dropWindow u.cur false))

end Sys2Proof.Machine
end

