-- ==== Sys2Proof/Machine/EvWait.lean ====
section
/-!
DEFINITION. Ends of waits (R282): the array (R234), chains (R287), NAP (R319), phases (R334), nodes
(R245), append queues (R181), engine room (R244), pending lines (R276), tiles (R238), queues (R348),
trains (R274), detached consumers (R172, R283), the issue-rate reduction (R290). A thread whose wait has
ended performs its waiting instruction again.
-/

namespace Sys2Proof.Machine

open Sys2Proof

/-- End the wait of a slot when its reason has gone. -/
def State.endWait (s : State) (slot : Nat) (ended : Wait → Bool) : State :=
  match (s.thread slot).hw.wait with
  | some w =>
    if ended w then s.modThread slot (fun t => { t with hw := { t.hw with wait := none } }) else s
  | none => s

/-- The array finishes the matrix instruction of a slot: its convoy has retired, and the thread returns
to the carousel (R234). -/
def State.arrayDone (s : State) (slot : Nat) : State :=
  match (s.vc (vcOf slot)).array with
  | some (o, _) =>
    if o = slot then
      (s.modVc (vcOf slot) (fun v => { v with array := none })).endWait slot (fun w => w == .array)
    else s
  | none => s

/-- MMA_COMPLETE (R234). -/
def execMmaComplete (slot : Nat) (s : State) : Host.Outcome State Fault Refusal :=
  .next (s.arrayDone slot)

/-- The chain slot of a slot's partition. -/
def State.chainOf (s : State) (slot : Nat) : Chain :=
  let t := s.thread slot
  tget Chain.reset (s.part t.id.part.toNat).chains t.vec.chSlot.toNat

/-- SETVL_RESTART (R287): the mark, the final flag, CAP, YREQ or PWR is no longer what the SETVL saw. -/
def execSetvlRestart (slot : Nat) (s : State) : Host.Outcome State Fault Refusal :=
  let c := s.chainOf slot
  let h := (s.thread slot).held
  .next (s.endWait slot (fun w =>
    match w with
    | .chain mark fin cap yreq pwr =>
      decide (c.mark ≠ mark ∨ c.fin ≠ fin ∨ h.cap ≠ cap ∨ h.yreq ≠ yreq ∨ h.pwr ≠ pwr)
    | _ => false))

/-- NAP_WAKE (R319). -/
def execNapWake (slot : Nat) (s : State) : Host.Outcome State Fault Refusal :=
  let t := s.thread slot
  .next (s.endWait slot (fun w => w == .nap && (t.hw.wake != 0 || t.held.yreq)))

/-- BARWAIT_RESUME (R334): the phase has passed, or the group has become free. -/
def execBarwaitResume (slot : Nat) (s : State) : Host.Outcome State Fault Refusal :=
  let part := (s.thread slot).id.part.toNat
  let t := (s.thread slot).endBarrier (s.part part) part
  .next (match t.hw.wait, t.hw.barDone with
    | some (.barrier _ _), some _ =>
      s.modThread slot (fun _ => { t with hw := { t.hw with wait := none } })
    | _, _ => s)

/-- EWAIT_RESUME (R245). -/
def execEwaitResume (slot : Nat) (s : State) : Host.Outcome State Fault Refusal :=
  .next (s.endWait slot (fun w =>
    match w with
    | .node id => (s.node id).st == .free || (s.node id).finished
    | _ => false))

/-- The COMMIT word of the queue that a slot's VAPPEND has reserved in has reached its first entry. -/
def State.commitReached (s : State) (slot : Nat) : Bool :=
  match (s.thread slot).hw.append with
  | none => false
  | some a => (s.appendQueue a).commit == a.first.toNat

/-- COMMIT_WAIT_END (R181). -/
def execCommitWaitEnd (slot : Nat) (s : State) : Host.Outcome State Fault Refusal :=
  .next (s.endWait slot (fun w => w == .commit && s.commitReached slot))

/-- QUEUE_WAIT_END (R93, R244): the instruction looks for room again. -/
def execQueueWaitEnd (slot : Nat) (s : State) : Host.Outcome State Fault Refusal :=
  .next (s.endWait slot (fun w => w == .engineRoom))

/-- PENDING_LINE_FREE (R276): the store looks for room again. -/
def execPendingLineFree (slot : Nat) (s : State) : Host.Outcome State Fault Refusal :=
  .next (s.endWait slot (fun w => w == .pendingLine))

/-- TILE_RELEASE_WAIT (R238). -/
def execTileReleaseWait (slot : Nat) (s : State) : Host.Outcome State Fault Refusal :=
  .next (s.endWait slot (fun w =>
    match w with
    | .tileHeld t => !s.tileBusy slot t
    | _ => false))

/-- QDRAIN_END (R348). -/
def execQdrainEnd (slot : Nat) (s : State) : Host.Outcome State Fault Refusal :=
  .next (s.endWait slot (fun w => w == .queues))

/-- PHEND_RESUME (R274). -/
def execPhendResume (slot : Nat) (s : State) : Host.Outcome State Fault Refusal :=
  .next (s.endWait slot (fun w => w == .phend && (s.thread slot).hw.trains.isEmpty))

/-- CHAIN_DETACH (R172): a consumer member no longer follows its producer; only timing depends on it,
and the trace records it on the member's pipe (R436, EV 2). -/
def execChainDetach (slot : Nat) (mbr : BitVec 2) (s : State) : Host.Outcome State Fault Refusal :=
  if (s.thread slot).hw.occ && !(s.thread slot).hw.detached.contains mbr then
    .next ((s.modThread slot (fun t =>
      { t with hw := { t.hw with detached := t.hw.detached ++ [mbr] } })).detachFlight slot mbr)
  else .next s

/-- RESUME_AFTER_DETACH (R283): the producer has delivered its last element group (R436, EV 3). -/
def execResumeAfterDetach (slot : Nat) (mbr : BitVec 2) (s : State) :
    Host.Outcome State Fault Refusal :=
  if (s.thread slot).hw.detached.contains mbr then
    .next ((s.modThread slot (fun t =>
      { t with hw := { t.hw with detached := t.hw.detached.filter (fun m => m != mbr) } })).resumeFlight slot mbr)
  else .next s

/-- RATE_REDUCTION (R290): the thread still holds more groups than PWR. -/
def execRateReduction (slot : Nat) (s : State) : Host.Outcome State Fault Refusal :=
  .next (s.modThread slot (fun t =>
    if t.hw.occ ∧ t.held.pwr.toNat < t.held.count then { t with hw := { t.hw with rate := true } }
    else t))

end Sys2Proof.Machine
end

