-- ==== Sys2Proof/Machine/EvDebug.lean ====
section
/-!
DEFINITION. Debug events: DBGT (R434), FRZ (R435), capture control (R439), triggers (R440).
-/

namespace Sys2Proof.Machine

open Sys2Proof

/-- Ask a slot to stop for FORCED with an eval (R398); one request of a kind is kept. -/
def State.askForced (s : State) (slot : Nat) (why : BitVec 2) : State :=
  s.modThread slot (fun t =>
    if t.hw.occ ∧ ¬ t.hw.stops.contains (.forced why) ∧ ¬ t.hw.stops.contains .abandon then
      { t with hw := { t.hw with stops := t.hw.stops ++ [.forced why] } }
    else t)

/-- A write of DBGT (R434), by an agent that reaches the slot (R433). A halt asked of an empty slot waits for a
context. -/
def execDbgtWrite (slot : Nat) (data : W64) (s : State) : Host.Outcome State Fault Refusal :=
  if !s.debugReaches (0x900000 + 8 * slot) then .next s
  else
  let s1 := s.modThread slot (fun t => { t with hw := { t.hw with
    dbStep := data.getLsbD 0, dbClaim := data.getLsbD 1, dbTrace := data.getLsbD 3,
    dbHalt := t.hw.dbHalt || data.getLsbD 2 } })
  .next (if data.getLsbD 2 then s1.askForced slot 3 else s1)

/-- A write of FRZ (R435): the bit of each partition that the writing agent reaches (R433). -/
def execFrzWrite (data : W64) (s : State) : Host.Outcome State Fault Refusal :=
  .next (((List.range 20).filter s.frzParts.contains).foldl (fun t p =>
    t.modPart p (fun q => { q with freeze := data.toNat.testBit p })) s.bump)

/-! ### Capture (R439) -/

/-- The fields of TRCTL from a write; a change of BASE or SIZE returns WPTR and WRAP to 0. EN is left at
0 when the buffer passes 4 MiB or BASE is misaligned. -/
def Vc.writeTrctl (v : Vc) (x : Nat) : Vc :=
  let base := BitVec.ofNat 22 (x / 2 ^ 8)
  let size := BitVec.ofNat 8 (x / 2 ^ 30)
  let same := decide (base = v.trBase ∧ size = v.trSize)
  { v with
    trEn := x.testBit 0 && decide (base.toNat % 16 = 0 ∧ base.toNat + size.toNat * 4096 ≤ scratchSize)
    trStopFull := x.testBit 1
    trPipes := BitVec.ofNat 6 (x / 4)
    trBase := base
    trSize := size
    trWptr := if same then v.trWptr else 0
    trWrap := if same then v.trWrap else false }

/-- What a VC has recorded by now goes to its buffer: some members start and end, then the FIFO empties, so that
a reader who sees EN read 0 finds every record written (R438). -/
def State.endCapture (s : State) (vc : Nat) : State := (s.passTime vc true).traceDrain vc 64

/-- Start of a capture: a sync record (R436). Records that a full buffer left in the FIFO when it stopped the
last one are gone (R439). -/
def State.startCapture (s : State) (vc : Nat) : State :=
  (s.modVc vc (fun v => { v with trFifo := [] })).putSync vc s.hub.ptp

/-- A write of TRCTL (R439), by an agent that reaches the VC (R433): what the FIFO holds goes to the buffer as
it was, which may stop the capture; a capture that starts, or starts again, writes its sync record. -/
def execTrctlWrite (vc : Nat) (data : W64) (s : State) : Host.Outcome State Fault Refusal :=
  if !s.debugReaches (0x910000 + 0x10 * vc) then .next s
  else
    let s0 := s.endCapture vc
    let s1 := s0.modVc vc (fun v => v.writeTrctl data.toNat)
    .next (if (s1.vc vc).captures && !(s0.vc vc).captures then s1.startCapture vc else s1)

/-! ### Triggers (R440) -/

/-- A trigger fires with an origin time. -/
def execTriggerFire (part : Nat) (n : BitVec 2) (time : Nat) (s : State) :
    Host.Outcome State Fault Refusal :=
  match s.atTime time with
  | none => .next s
  | some s1 => .next (s1.fireTrigger part n.toNat time)

/-- Change the first pair of a list that a test selects. -/
def modFirstPair (f : Nat × Nat → Bool) (g : Nat × Nat → Nat × Nat) : List (Nat × Nat) → List (Nat × Nat)
  | [] => []
  | x :: r => if f x then g x :: r else x :: modFirstPair f g r

/-- A trigger's message reaches a VC of its partition, which writes a sync record that holds T0, capturing or not; the
message now waits for its action, as entry 4 + n. -/
def execTriggerArrival (part : Nat) (n : BitVec 2) (vc : Nat) (s : State) :
    Host.Outcome State Fault Refusal :=
  let mine := fun (x : Nat × Nat) => x.1 == n.toNat
  match if (s.vcsOf part).contains vc then (s.vc vc).trPend.find? mine else none with
  | none => .next s
  | some (_, t0) =>
    .next ((s.putSync vc t0).modVc vc (fun v =>
      { v with trPend := modFirstPair mine (fun x => (x.1 + 4, x.2)) v.trPend }))

/-- The time at which a received message acts. -/
def State.actionTime (s : State) (part : Nat) (x : Nat × Nat) : Nat :=
  x.2 + (tget Trigger.reset (s.part part).triggers (x.1 - 4)).delay.toNat

/-- One received message acts before another: it is due earlier, or at the same instant with a lower number. -/
def State.actsBefore (s : State) (part : Nat) (x y : Nat × Nat) : Bool :=
  decide (s.actionTime part x < s.actionTime part y ∨ s.actionTime part x = s.actionTime part y ∧ x.1 < y.1)

/-- The message that a VC of a partition acts on next, of those it has received. -/
def State.nextAction (s : State) (part vc : Nat) : Option (Nat × Nat) :=
  let l := if (s.vcsOf part).contains vc then (s.vc vc).trPend.filter (fun x => decide (4 ≤ x.1)) else []
  l.find? (fun x => !l.any (fun y => s.actsBefore part y x))

/-- A VC applies ACT at T0 + DELAY; messages act in the order in which they are due, and triggers of one instant
in ascending number. A buffer that would pass 4 MiB, or of SIZE 0, leaves EN at 0 (R439). -/
def execTriggerAction (part : Nat) (n : BitVec 2) (vc time : Nat) (s : State) :
    Host.Outcome State Fault Refusal :=
  match s.atTime time, s.nextAction part vc with
  | some s1, some x =>
    if time < s.actionTime part x ∨ x.1 ≠ n.toNat + 4 then .next s
    else
      let s2 := s1.modVc vc (fun v => { v with trPend := v.trPend.erase x })
      let g := tget Trigger.reset (s.part part).triggers n.toNat
      if g.act = 1#2 then
        if (s.vc vc).trFits ∧ ¬ (s.vc vc).trEn then
          .next ((s2.modVc vc (fun v => { v with trEn := true })).startCapture vc)
        else .next s2
      else if g.act = 0#2 then .next s2
      else
        let s3 := (s2.endCapture vc).modVc vc (fun v => { v with trEn := false })
        .next (if g.act = 3#2 then s3.modPart part (fun p => { p with freeze := true }) else s3)
  | _, _ => .next s

end Sys2Proof.Machine
end

