-- ==== Sys2Proof/Machine/EvFrames.lean ====
section
/-!
DEFINITION. Frames, stage-2 entries, migration and translation events: FRAMECMD (R31 to R34), MAPCMD
(R44), migration (R52, R53), walks and invalidation (R40, R54), fault-queue registers (R49, R51), L2
fills and write-backs (R29, R56).
-/

namespace Sys2Proof.Machine

open Sys2Proof

/-- Keep the pairs of a table whose key lies outside a range. -/
def dropRange {α : Type} (t : Table α) (lo n : Nat) : Table α :=
  t.filter (fun e => decide (e.1 < lo ∨ lo + n ≤ e.1))

/-! ### Frames (R31 to R34) -/

def State.modFrame (s : State) (f : Nat) (g : Frame → Frame) : State :=
  s.modMem (fun m => { m with
    frames := tset Frame.reset m.frames f (g (tget Frame.reset m.frames f)) })

/-- The frames of a command: FRAME to FRAME + COUNT (R34). -/
def framesOf (frame : BitVec 31) (count : BitVec 4) : List Nat :=
  (List.range (count.toNat + 1)).map (fun k => frame.toNat + k)

/-- The counters of a frame are all zero (R31). -/
def State.countersZero (s : State) (f : Nat) : Bool :=
  s.mem.ctr.all (fun e => decide (e.1 / 4096 ≠ f))

/-- A frame that ASSIGN accepts (R31). -/
def State.assignable (s : State) (f : Nat) : Bool :=
  s.isDataFrame f && (s.frame f).st == .free && s.countersZero f

/-- Assign frames under a key identifier (R31); every line of them is in zero state and reads as zeros
(R28, R33). -/
def State.assignFrames (s : State) (fs : List Nat) (kid : BitVec 9) : State :=
  fs.foldl (fun t f =>
    (t.modFrame f (fun _ => { st := .assigned, kid := kid, maps := 0 })).modMem (fun m => { m with
      cells := dropRange m.cells (f * 2 ^ 21) (2 ^ 21) })) s

/-- A frame that RELEASE accepts (R31). -/
def State.releasable (s : State) (f : Nat) : Bool :=
  (s.frame f).st == .assigned && (s.frame f).maps == 0

/-- A device location in one of some frames. -/
def inFrames (fs : List Nat) (loc : Nat) : Bool := fs.contains (loc / 2 ^ 21)

/-- Start the release of frames (R32 steps 1 to 3): the L2 lines under their key go without write-back,
the lines the host holds are back-invalidated. -/
def State.startRelease (s : State) (fs : List Nat) : State :=
  let kid := fun f => (s.frame f).kid.toNat
  let s1 := fs.foldl (fun t f => t.modFrame f (fun x => { x with st := .releasing })) s
  let s2 := s1.modMem (fun m => { m with
    l2 := dropLine m.l2 (fun w => inFrames fs (w.line * 128) && w.kid == kid (w.line * 128 / 2 ^ 21)) })
  (s2.mem.hostHeld.filter (fun l => inFrames fs (l * 128))).foldl State.snoop s2

/-- The host holds no line of the frames (R32 step 3). -/
def State.sweepDone (s : State) (fs : List Nat) : Bool :=
  s.mem.hostHeld.all (fun l => !inFrames fs (l * 128))

/-- End the release of one frame that is RELEASING (R31, R32 step 4): every counter line is zero, so every byte reads as zero,
and the versions above the counter lines move on; the frame is FREE. -/
def State.freeFrame (s : State) (f : Nat) : State :=
  if (s.frame f).st ≠ .releasing then s
  else
  let pa := f * 2 ^ 21
  let s1 := s.modMem (fun m => { m with
    cells := dropRange m.cells pa (2 ^ 21)
    pending := dropRange m.pending pa (2 ^ 21)
    poison := m.poison.filter (fun w => decide (w * 8 / 2 ^ 21 ≠ f))
    l2 := dropLine m.l2 (fun w => w.line * 128 / 2 ^ 21 == f)
    ctr := m.ctr.filter (fun e => decide (e.1 / 4096 ≠ f))
    frames := terase m.frames f })
  match s.partOfPa pa with
  | none => s1
  | some (n, p) => (List.range 512).foldl (fun t k => t.bumpTree n p (pa + 4096 * k)) s1

/-- FRAMECMD's fields as a command writes them (R34). -/
def Hub.frameCmd (h : Hub) (frame : BitVec 31) (kid : BitVec 9) (count : BitVec 4) (op : BitVec 3)
    (status : Nat) (go : Bool) : Hub :=
  { h with fcFrame := frame, fcKid := kid, fcCount := count, fcOp := op,
           fcStatus := BitVec.ofNat 3 status, fcGo := go }

/-- FRAMECMD ASSIGN (R31, R34). A command that holds both a bad frame and one that R31 refuses ends with
STATUS 3: the manual gives no priority (log entry 103). -/
def execFrameAssign (frame : BitVec 31) (kid : BitVec 9) (count : BitVec 4) (s : State) :
    Host.Outcome State Fault Refusal :=
  let fs := framesOf frame count
  if s.hub.fcGo then .next s
  else if !fs.all s.isDataFrame then
    .next (s.modHub (fun h => h.frameCmd frame kid count 1 3 false))
  else if !fs.all s.assignable then
    .next (s.modHub (fun h => h.frameCmd frame kid count 1 2 false))
  else .next ((s.assignFrames fs kid).modHub (fun h => h.frameCmd frame kid count 1 0 false))

/-- FRAMECMD RELEASE (R31, R32, R34): busy until the sequence completes. -/
def execFrameRelease (frame : BitVec 31 × BitVec 9) (count : BitVec 4) (s : State) :
    Host.Outcome State Fault Refusal :=
  let fs := framesOf frame.1 count
  if s.hub.fcGo then .next s
  else if !fs.all s.isDataFrame then
    .next (s.modHub (fun h => h.frameCmd frame.1 frame.2 count 2 3 false))
  else if !fs.all s.releasable then
    .next (s.modHub (fun h => h.frameCmd frame.1 frame.2 count 2 2 false))
  else .next ((s.startRelease fs).modHub (fun h => h.frameCmd frame.1 frame.2 count 2 1 true))

/-- FRAMECMD QUERY (R34). -/
def execFrameQuery (frame : BitVec 31 × BitVec 9 × BitVec 4) (s : State) :
    Host.Outcome State Fault Refusal :=
  let f := s.frame frame.1.toNat
  if s.hub.fcGo then .next s
  else if !s.isDataFrame frame.1.toNat then
    .next (s.modHub (fun h => h.frameCmd frame.1 frame.2.1 frame.2.2 3 3 false))
  else
    .next (s.modHub (fun h =>
      let h1 := h.frameCmd frame.1 (if f.st = .free then 0 else f.kid) (BitVec.ofNat 4 (min 15 f.maps)) 3 0 false
      { h1 with fcState := match f.st with | .free => 0 | .assigned => 1 | .releasing => 2 }))

/-- The counter reset of a RELEASE completes (R32): the frames are FREE and the command is done. -/
def execReleaseComplete (s : State) : Host.Outcome State Fault Refusal :=
  let fs := framesOf s.hub.fcFrame s.hub.fcCount
  if s.hub.fcGo && s.hub.fcOp == 2 && s.sweepDone fs then
    .next ((fs.foldl State.freeFrame s).modHub (fun h => { h with fcStatus := 0, fcGo := false }))
  else .next s

/-! ### Stage-2 entries (R43, R44) -/

def State.setSt2 (s : State) (vf gfn : Nat) (e : BitVec 64) : State :=
  s.modMem (fun m => { m with st2 := tset 0 m.st2 (vf * 2 ^ 19 + gfn) e })

/-- Drop every cached copy of a stage-2 entry: TLBs, stage-2 caches, and the walker-cache entries read
through it (R31, R44, R45, R52). -/
def State.dropSt2 (s : State) (vf gfn : Nat) : State :=
  s.modMem (fun m => { m with
    tlbs := m.tlbs.filter (fun x => !(x.2.vf.toNat == vf && x.2.gfn == gfn))
    st2Cache := m.st2Cache.filter (fun x => decide (x.2.1 ≠ vf * 2 ^ 19 + gfn))
    walkCache := m.walkCache.filter (fun x => !(x.2.vf == vf && x.2.gpa / 2 ^ 21 == gfn)) })

/-- A host physical range of 2 MiB lies in a host DMA window (R44, R417). -/
def State.inDma (s : State) (hpa n : Nat) : Bool :=
  s.hub.dma.any (fun w => decide (w.1 ≤ hpa ∧ hpa + n ≤ w.1 + w.2))

/-- An entry that the map port accepts (R31, R44). -/
def State.entryAccepted (s : State) (e : BitVec 64) : Bool :=
  if st2Home e then s.inDma (st2Frame e * 2 ^ 21) (2 ^ 21)
  else
    let f := s.frame (st2Frame e)
    f.st == .assigned && f.kid.toNat == st2Kid e

/-- Add to the map count of the frame that an entry maps (R31). -/
def State.countMap (s : State) (e : BitVec 64) (up : Bool) : State :=
  if st2Home e then s
  else s.modFrame (st2Frame e) (fun f => { f with maps := if up then f.maps + 1 else f.maps - 1 })

/-- Write an accepted entry over an invalid one. -/
def State.mapEntry (s : State) (vf gfn : Nat) (e : BitVec 64) : State :=
  (s.setSt2 vf gfn e).countMap e true

/-- The start of a removal: the entry is invalid for every new walk, its other bits kept until the
removal completes. -/
def State.startUnmap (s : State) (vf gfn : Nat) : State :=
  s.setSt2 vf gfn (s.st2Entry vf gfn &&& ~~~ 1#64)

/-- A store or train element on its way to a location that a test selects, or a committed VAPPEND whose header
lies there. -/
def Thread.pendingAt (t : Thread) (f : Nat → Bool) : Bool :=
  t.hw.buf.any (fun e => e.writes.any (fun w => f w.1)) ||
    t.hw.trains.any (fun x => !x.arrived && x.elems.any (fun e => f e.1)) ||
    (match t.hw.append with | some a => f a.loc | none => false)

def State.pendingAt (s : State) (f : Nat → Bool) : Bool :=
  s.th.pendingAt f || s.slots.any (fun e => e.2.pendingAt f)

/-- A store translated through an entry has not reached its home, or its range is migrating: the removal is
not acknowledged (R31, R33, R52). -/
def State.unmapWaits (s : State) (vf gfn : Nat) : Bool :=
  let lo := s.st2Loc (s.st2Entry vf gfn) 0
  (s.st2Entry vf gfn).getLsbD 15 || s.pendingAt (fun l => decide (lo ≤ l ∧ l < lo + 2 ^ 21))

/-- The end of a removal (R31): no copy is cached, and the map count decrements. -/
def State.endUnmap (s : State) (vf gfn : Nat) : State :=
  let e := s.st2Entry vf gfn
  ((s.setSt2 vf gfn 0).dropSt2 vf gfn).countMap e false

/-- MAPCMD's fields as a command writes them (R44). -/
def Hub.mapCmd (h : Hub) (gfn : BitVec 19) (vf : BitVec 9) (op : BitVec 2) (status : Nat)
    (go replace : Bool) : Hub :=
  { h with mcGfn := gfn, mcVf := vf, mcOp := op, mcStatus := BitVec.ofNat 3 status, mcGo := go,
           mcReplace := replace }

/-- Reserved bits of an entry image (R43). -/
def st2Reserved (e : BitVec 64) : Bool := decide (bitsAt 5 16 e.toNat ≠ 0 ∨ bitsAt 12 52 e.toNat ≠ 0)

/-- MAPCMD, write MAPENT (R44); MIG is read-only at the port (R43). -/
def execMapWrite (gfn : BitVec 19) (vf : BitVec 9) (s : State) : Host.Outcome State Fault Refusal :=
  let e := s.hub.mapEnt &&& ~~~ 0x8000#64
  let v := vf.toNat
  let done := fun (t : State) (status : Nat) =>
    t.modHub (fun h => h.mapCmd gfn vf 1 status false false)
  if s.hub.mcGo then .next s
  else if 384 ≤ v ∨ ¬ e.getLsbD 0 ∨ st2Reserved e then .next (done s 3)
  else if !s.entryAccepted e then .next (done s 2)
  else if (s.st2Entry v gfn.toNat).getLsbD 0 then
    .next ((s.startUnmap v gfn.toNat).modHub (fun h =>
      { h.mapCmd gfn vf 1 1 true true with mcImage := e }))
  else .next (done (s.mapEntry v gfn.toNat e) 0)

/-- MAPCMD, remove (R44): an entry that is not valid is bad. -/
def execMapRemove (gfn : BitVec 19) (vf : BitVec 9) (s : State) : Host.Outcome State Fault Refusal :=
  if s.hub.mcGo then .next s
  else if 384 ≤ vf.toNat ∨ ¬ (s.st2Entry vf.toNat gfn.toNat).getLsbD 0 then
    .next (s.modHub (fun h => h.mapCmd gfn vf 2 3 false false))
  else
    .next ((s.startUnmap vf.toNat gfn.toNat).modHub (fun h => h.mapCmd gfn vf 2 1 true false))

/-- MAPCMD, read into MAPENT (R44). -/
def execMapRead (gfn : BitVec 19) (vf : BitVec 9) (s : State) : Host.Outcome State Fault Refusal :=
  if s.hub.mcGo then .next s
  else if 384 ≤ vf.toNat then .next (s.modHub (fun h => h.mapCmd gfn vf 3 3 false false))
  else
    .next (s.modHub (fun h =>
      { h.mapCmd gfn vf 3 0 false false with mapEnt := s.st2Entry vf.toNat gfn.toNat }))

/-- A removal completes (R31, R44) once the accesses through the entry are done; the write that it was
part of follows, with the image that the command took, or is refused with the old entry in place. -/
def execRemovalComplete (s : State) : Host.Outcome State Fault Refusal :=
  let v := s.hub.mcVf.toNat
  let g := s.hub.mcGfn.toNat
  let e := s.hub.mcImage
  let done := fun (t : State) (status : Nat) => t.modHub (fun h =>
    { h with mcStatus := BitVec.ofNat 3 status, mcGo := false, mcReplace := false })
  if !s.hub.mcGo || s.unmapWaits v g then .next s
  else if !s.hub.mcReplace then .next (done (s.endUnmap v g) 0)
  else if s.entryAccepted e then .next (done ((s.endUnmap v g).mapEntry v g e) 0)
  else .next (done (s.setSt2 v g (s.st2Entry v g ||| 1#64)) 2)

/-! ### Migration (R52, R53) -/

/-- Migrations of a function in progress: entries with MIG set. -/
def State.migrations (s : State) (vf : Nat) : Nat :=
  (s.mem.st2.filter (fun e => decide (e.1 / 2 ^ 19 = vf) && e.2.getLsbD 15)).length

/-- The function's pool has no frame for another migration (R52). -/
def State.poolEmpty (s : State) (vf : Nat) : Bool := decide ((s.vf vf).pool.length ≤ s.migrations vf)

/-- The 256 KiB units of the host range of an entry. -/
def unitsOf (e : BitVec 64) : List Nat := (List.range 8).map (fun k => st2Frame e * 8 + k)

/-- A condition that held the migrations of some functions back has cleared: their units that were accessed
before it wait for their next access (R53). -/
def State.migrationsCleared (s : State) (mine : Nat → Bool) : State :=
  let units := (s.mem.st2.filter (fun e => mine (e.1 / 2 ^ 19) && st2Home e.2)).flatMap (fun e => unitsOf e.2)
  s.modMem (fun m => { m with recent := m.recent.filter (fun u => !units.contains u) })

/-- MIGPUSH (R53). -/
def execMigpush (vf : Nat) (frame : BitVec 31) (s : State) : Host.Outcome State Fault Refusal :=
  let f := s.vf vf
  let x := s.frame frame.toNat
  let ok := x.st == .assigned && f.uses x.kid.toNat && !(s.vfs.any (fun e => e.2.pool.contains frame)) &&
    decide (f.pool.length < 64)
  .next ((if ok && s.poolEmpty vf then s.migrationsCleared (· == vf) else s).modVf vf (fun f =>
    { f with mpFrame := frame, mpErr := !ok, pool := if ok then f.pool ++ [frame] else f.pool }))

def Hub.noticeOn (h : Hub) : Bool := decide (4 ≤ h.nqLog.toNat ∧ h.nqLog.toNat ≤ 12)
def Hub.noticeCap (h : Hub) : Nat := 2 ^ h.nqLog.toNat
/-- The ring of migration notices is full with one slot unused (R53, log entry 139). -/
def Hub.noticeFull (h : Hub) : Bool :=
  decide ((h.nqTail.toNat + 1) % h.noticeCap = h.nqHead.toNat % h.noticeCap)

/-- A unit has reached the threshold of a function's partition (R52). -/
def State.hot (s : State) (vf unit : Nat) : Bool :=
  let thr := (s.part (s.vf vf).part.toNat).migThr.toNat
  decide (thr ≠ 0 ∧ thr ≤ tget 0 s.mem.access unit)

/-- An entry that the hub may migrate (R52). -/
def migratable (e : BitVec 64) : Bool := e.getLsbD 0 && st2Home e && !e.getLsbD 14 && !e.getLsbD 15

/-- No migration of a function may start (R53). -/
def State.migrationBlocked (s : State) (vf : Nat) : Bool :=
  s.poolEmpty vf || !s.hub.noticeOn || s.hub.noticeFull

/-- A migration may start (R52, R53): at an access to a unit that has reached the threshold. -/
def State.canMigrate (s : State) (vf gfn : Nat) : Bool :=
  let e := s.st2Entry vf gfn
  migratable e && !s.migrationBlocked vf &&
    (unitsOf e).any (fun u => s.hot vf u && s.mem.recent.contains u)

/-- A migration starts (R52 step 1): MIG is set, and writes to the range wait from now on. -/
def execMigrate (vf : Nat) (gfn : BitVec 19) (s : State) : Host.Outcome State Fault Refusal :=
  let g := gfn.toNat
  if s.canMigrate vf g then
    .next ((s.setSt2 vf g (s.st2Entry vf g ||| 0x8000#64)).modMem (fun m => { m with
      tlbs := m.tlbs.map (fun x =>
        if x.2.vf.toNat = vf ∧ x.2.gfn = g then (x.1, { x.2 with st2 := x.2.st2 ||| 0x8000#64 })
        else x)
      st2Cache := m.st2Cache.map (fun x =>
        if x.2.1 = vf * 2 ^ 19 + g then (x.1, x.2.1, x.2.2 ||| 0x8000#64) else x) }))
  else .next s

/-- Where a byte of a range lies after the range has moved. -/
def moved (src dst loc : Nat) : Nat :=
  if src ≤ loc ∧ loc < src + 2 ^ 21 then dst + (loc - src) else loc

/-- The runs of writes that lie inside a range and outside it, in order. -/
def splitRuns (inside : Nat × Byte → Bool) : List (Nat × Byte) → List (Bool × List (Nat × Byte))
  | [] => []
  | w :: r =>
    match splitRuns inside r with
    | (b, ws) :: t => if b = inside w then (b, w :: ws) :: t else (inside w, [w]) :: (b, ws) :: t
    | [] => [(inside w, [w])]

/-- The records of one beat, all but the last marked, the last as the beat's was. -/
def markRecords (last : Bool) : List BufEntry → List BufEntry
  | [] => []
  | [e] => [{ e with more := last }]
  | e :: r => { e with more := true } :: markRecords last r

/-- A waiting write of a moved range proceeds at the new home (R52 step 5). The writes of a record stay in one
beat, in their order (R171). -/
def BufEntry.move (src dst kid : Nat) (e : BufEntry) : List BufEntry :=
  let inside := fun (w : Nat × Byte) => decide (src ≤ w.1 ∧ w.1 < src + 2 ^ 21)
  markRecords e.more ((splitRuns inside e.writes).map (fun r =>
    if r.1 then
      { e with writes := r.2.map (fun w => (moved src dst w.1, w.2)), kid := kid,
               full := e.full.map (fun l => moved src dst (l * 128) / 128) }
    else { e with writes := r.2 }))

def Train.move (src dst kid : Nat) (t : Train) : Train :=
  if t.elems.any (fun x => decide (src ≤ x.1 ∧ x.1 < src + 2 ^ 21)) then
    { t with kid := kid, elems := t.elems.map (fun x => (moved src dst x.1, x.2)) }
  else t

def Thread.moveRange (src dst kid : Nat) (t : Thread) : Thread :=
  { t with hw := { t.hw with buf := t.hw.buf.flatMap (BufEntry.move src dst kid)
                             trains := t.hw.trains.map (Train.move src dst kid)
                             append := t.hw.append.map (fun a =>
                               if src ≤ a.loc ∧ a.loc < src + 2 ^ 21 then
                                 { a with loc := moved src dst a.loc, kid := kid } else a) } }

/-- Copy a host range into a device frame (R52 step 2), encrypting every line (R27); the range's poisoned
words and window locks go with it, in place of the frame's. -/
def State.copyRange (s : State) (src dst kid : Nat) : State :=
  let bytes := (s.mem.cells.filter (fun c => decide (src ≤ c.1 ∧ c.1 < src + 2 ^ 21))).map
    (fun c => (moved src dst c.1, c.2))
  let s1 := s.modMem (fun m => { m with
    cells := bytes.foldl (fun t c => tset 0 t c.1 c.2) (dropRange m.cells dst (2 ^ 21))
    poison := m.poison.filter (fun w => decide ((w * 8 < src ∨ src + 2 ^ 21 ≤ w * 8) ∧
        (w * 8 < dst ∨ dst + 2 ^ 21 ≤ w * 8))) ++
      (m.poison.filter (fun w => decide (src ≤ w * 8 ∧ w * 8 < src + 2 ^ 21))).map
        (fun w => moved src dst (w * 8) / 8)
    winLocks := m.winLocks.map (fun l => (l.1, moved src dst l.2.1, moved src dst l.2.2)) })
  (List.range (2 ^ 14)).foldl (fun t k => t.writeback (dst / 128 + k) kid) s1

/-- Post a notice (R53). -/
def State.postNotice (s : State) (hframe vf gfn dframe : Nat) : State :=
  let h := s.hub
  let x := hframe + vf * 2 ^ 31 + gfn * 2 ^ 40 + dframe * 2 ^ 64
  (s.poke (h.nqBase.toNat * 64 + h.nqTail.toNat * 16) 0 (leBytes 16 x)).modHub (fun h =>
    { h with nqTail := BitVec.ofNat 12 ((h.nqTail.toNat + 1) % h.noticeCap) })

/-- A frame of a function's pool can still take a range: it is ASSIGNED under the function's key and nothing
maps it (R31, R33). -/
def State.poolFrameOk (s : State) (vf : Nat) (frame : BitVec 31) : Bool :=
  let x := s.frame frame.toNat
  x.st == .assigned && (s.vf vf).uses x.kid.toNat && x.maps == 0

/-- A migration completes (R52 steps 2 to 5), once the host holds no line of the range nor of the frame. Pool frames that have
been released or mapped meanwhile are passed over; with none left the range stays where it is (log entry
104). -/
def execMigrationComplete (vf : Nat) (gfn : BitVec 19) (s : State) :
    Host.Outcome State Fault Refusal :=
  let g := gfn.toNat
  let e := s.st2Entry vf g
  let src := hostBase + st2Frame e * 2 ^ 21
  if !e.getLsbD 15 then .next s
  else if !(s.heldRange src (2 ^ 21)).isEmpty then .next (s.callBack [(src, 2 ^ 21)])
  else
  match (s.vf vf).pool.dropWhile (fun f => !s.poolFrameOk vf f) with
  | [] =>
    .next ((s.setSt2 vf g (e &&& ~~~ 0x8000#64)).modVf vf (fun f => { f with pool := [] }))
  | frame :: rest =>
    if !(s.heldRange (frame.toNat * 2 ^ 21) (2 ^ 21)).isEmpty then
      .next (s.callBack [(frame.toNat * 2 ^ 21, 2 ^ 21)])
    else if s.hub.noticeOn && !s.hub.noticeFull then
      let kid := (s.frame frame.toNat).kid.toNat
      let dst := frame.toNat * 2 ^ 21
      let new := BitVec.ofNat 64
        (bitsAt 4 0 e.toNat + kid * 2 ^ 5 + bit (e.getLsbD 14) 14 + frame.toNat * 2 ^ 21)
      let s1 := ((s.copyRange src dst kid).setSt2 vf g new).dropSt2 vf g
      let s2 := (s1.countMap new true).modVf vf (fun f => { f with pool := rest })
      let s3 := s2.postNotice (st2Frame e) vf g frame.toNat
      .next { s3 with
        th := s3.th.moveRange src dst kid
        slots := s3.slots.map (fun x => (x.1, x.2.moveRange src dst kid)) }
    else .next s

/-- A migration that a unit has reached the threshold for is held back, or waits for the first access after
that: the unit's counter keeps its value until it starts (R53). -/
def State.keepsCount (s : State) (unit : Nat) : Bool :=
  s.mem.st2.any (fun x => migratable x.2 && (unitsOf x.2).contains unit && s.hot (x.1 / 2 ^ 19) unit)

/-- Every 1 ms the access counters are halved (R52), but for those that keep their value (R53). -/
def execCounterHalving (s : State) : Host.Outcome State Fault Refusal :=
  .next (s.modMem (fun m => { m with
    access := (m.access.map (fun e => if s.keepsCount e.1 then e else (e.1, e.2 / 2))).filter
      (fun e => decide (e.2 ≠ 0)) }))

/-! ### Walks, invalidation, the fault queue -/

/-- A walk for an access of a slot completes and fills the tile's TLBs (R40, R42, R45); one that faults
leaves the fault to the access that asked for it (R48). An OR of A or D waits for the thread's stores and
trains, as an acquire and release, and for the line (R42, R268). -/
def execPageWalk (slot : Nat) (va : W64) (acc : Access) (s : State) :
    Host.Outcome State Fault Refusal :=
  let t := s.thread slot
  if t.hw.occ then
    match s.walk (s.ctxOf slot) acc va with
    | .ok x =>
      if x.pte.isSome && (!t.hw.buf.isEmpty || !t.hw.trains.isEmpty) then .next s
      else
        match s.updateHeld x with
        | some l => .next (s.callBack [(l, 8)])
        | none =>
          if s.twinRefuses acc x then .next s.bump
          else .next ((if asksTwin acc x then s.bump else s).applyXlat [.scalar (vcOf slot), .tile (tileOf slot)] x)
    | .error _ => .next s
  else .next s

/-- The context of a slot as the current one, for an event on its registers. -/
def State.onSlot (s : State) (slot : Nat) (f : State → State) : State :=
  if (s.thread slot).hw.occ then (f (s.switchTo slot)).switchTo s.cur else s

/-- A write of s1inv by a context in S mode (R54); while busy it traps and writes nothing. -/
def execS1invWrite (slot : Nat) (data : W64) (s : State) : Host.Outcome State Fault Refusal :=
  .next (s.onSlot slot (fun t =>
    if t.th.sc.mode = .S ∧ ¬ (t.part t.curPart).invBusy then t.csrSet 0x201 data.toNat else t))

/-- A cached entry that an invalidation names (R54). -/
def Part.drops (p : Part) (e : TlbEntry) : Bool :=
  let va := p.invVa.toNat * 2 ^ 18
  let covers := decide (e.page ≤ va ∧ va < e.page + 2 ^ e.logSize)
  decide (e.vf = p.invVf) &&
    (if p.invScope = 0 then true
     else if p.invScope = 1 then !e.global && e.asid == p.invAsid
     else if p.invScope = 2 then covers && (e.global || e.asid == p.invAsid)
     else covers)

def TlbPlace.tileNo : TlbPlace → Nat
  | .lane vc _ => tileOfVc vc
  | .scalar vc => tileOfVc vc
  | .tile t => t

/-- A store or train of the invalidation's function is on its way (R54). -/
def State.invWaits (s : State) (part : Nat) : Bool :=
  let p := s.part part
  let mine := fun (t : Thread) => t.id.vf == p.invVf && t.pendingAt (fun _ => true)
  mine s.th || s.slots.any (fun e => mine e.2)

/-- An invalidation completes (R54) once the function's accesses have reached their homes: the
partition's TLBs hold no matching entry, its walker caches none of the function, and BUSY clears. -/
def execS1invComplete (part : Nat) (s : State) : Host.Outcome State Fault Refusal :=
  let p := s.part part
  if p.invBusy && !s.invWaits part then
    .next ((s.modMem (fun m => { m with
      tlbs := m.tlbs.filter (fun x => !(p.table.tiles.contains x.1.tileNo && p.drops x.2))
      walkCache := m.walkCache.filter (fun x =>
        !(p.table.tiles.contains x.1 && x.2.vf == p.invVf.toNat)) })).modPart
        part (fun p => { p with invBusy := false }))
  else .next s

/-- A write of fqcfg (R51). -/
def execFqcfgWrite (part : Nat) (data : W64) (s : State) : Host.Outcome State Fault Refusal :=
  .next (s.modPart part (fun p => p.writeFqcfg data.toNat))

/-- A write of fqhead (R49, R95). -/
def execFqheadWrite (part : Nat) (data : W64) (s : State) : Host.Outcome State Fault Refusal :=
  .next (s.writeFqhead part data.toNat)

/-! ### Lines (R29, R56) -/

/-- A frame has a counter line under a node of a partition's tree (R25, R26). -/
def frameUnder (p : Part) (level idx frame : Nat) : Bool :=
  let first := counterIndex p (frame * 2 ^ 21)
  decide (idx * 8 ^ level < first + 512 ∧ first < (idx + 1) * 8 ^ level)

/-- The functions with an assigned frame under a node (R29). -/
def State.ownersUnder (s : State) (part level idx : Nat) (p : Part) : List Nat :=
  ((s.mem.frames.filter (fun f =>
    f.2.st == .assigned && (s.partOfPa (f.1 * 2 ^ 21)).map (·.1) == some part &&
      frameUnder p level idx f.1)).flatMap (fun f => s.owners f.2.kid.toNat)).eraseDups

/-- Both halves of a line are in zero state, so that no check of their data is made (R28). -/
def State.zeroLine (s : State) (line : Nat) : Bool :=
  let pa := line * 128
  minorOf (s.mem.counters pa) (pa / 64 % 8) == 0 && minorOf (s.mem.counters pa) (pa / 64 % 8 + 1) == 0

/-- A line read from memory for an access under a slot (R30): its own check decides whether it allocates under
that slot. -/
def State.fillUnder (s : State) (line kid : Nat) : State :=
  let pa := line * 128
  if s.mem.macGood kid pa && s.mem.macGood kid (pa + 64) then s.l2Access pa kid (.age 0) false
  else (s.macFailure (s.owners kid)).poisonLine line

/-- A line from LPDDR-6 that no way holds reaches its slice for an access under the key that its frame is assigned
to: the interlock lets no other key identifier through (R29, R33). Good, or corrected by ECC (R22), it
allocates if its own check passes under that key (R30). After a MAC failure no data is returned: the event is
counted, the functions that own a failed data line's key, or that have a frame under a failed counter line or
node, fail, and the line's words stop whatever reads them: a thread with MACFAIL, an engine command with ENGERR,
the host with CXL poison (R75). A line in zero state and a cached node are not checked (R26, R28). -/
def execL2Fill (line kid : Nat) (mac : MacOutcome) (s : State) : Host.Outcome State Fault Refusal :=
  let pa := line * 128
  match s.l2Set pa, s.partOfPa pa with
  | some (_, key), some (n, p) =>
    let f := s.frame (pa / 2 ^ 21)
    if (tget [] s.mem.l2 key).any (fun w => w.line == line) || f.st != .assigned || f.kid.toNat != kid then .next s
    else
      match mac with
      | .good => .next (s.fillUnder line kid)
      | .corrected =>
        .next ((s.fillUnder line kid).modHub (fun h => { h with eccCount := h.eccCount + 1 }))
      | .dataLine =>
        .next (if s.zeroLine line then s else (s.macFailure (s.owners kid)).poisonLine line)
      | .counterNode level =>
        .next (if (s.uncached p pa).any (fun x => x.level == level) then
          (s.macFailure (s.ownersUnder n level (counterIndex p pa / 8 ^ level) p)).poisonLine line
        else s)
  | _, _ => .next s

/-- A dirty line is written back and becomes clean (R27, R28, R56). -/
def execL2Writeback (line : Nat) (s : State) : Host.Outcome State Fault Refusal :=
  match s.partOfPa (line * 128) with
  | none => .next s
  | some (_, p) =>
    let sl := sliceOf p.table (line * 128)
    let key := sl.1 * 1024 + sl.2
    let ways := tget [] s.mem.l2 key
    match ways.find? (fun w => w.line == line && w.dirty) with
    | none => .next s
    | some w =>
      .next ((s.modMem (fun m => { m with
        l2 := tset [] m.l2 key (ways.map (fun x =>
          if x.line = line then { x with dirty := false } else x)) })).writeback line w.kid)

end Sys2Proof.Machine
end

