-- ==== Sys2Proof/Machine/Ring.lean ====
section
/-!
DEFINITION. Guest physical ranges as the HC translates them (R423), and a function's submission and
completion rings (R421, R422, R424).
-/

namespace Sys2Proof.Machine

open Sys2Proof

/-! ### Guest physical ranges -/

/-- The place of a GPA in a function's stage-2 array, when it is mapped for an access (R423). -/
def State.gpaPhys (s : State) (vf : Nat) (acc : Access) (gpa : Nat) : Option Phys :=
  let e := s.st2Entry vf (gpa / 2 ^ 21)
  let p := s.st2Phys e gpa
  if 2 ^ 40 ≤ gpa ∨ ¬ e.getLsbD 0 ∨ ¬ permits e.toNat 1 acc ∨ s.barred e p acc ∨ s.unreachable p.loc acc ∨
      (acc = .load ∧ s.twinBarsRead p.loc gpa) then none
  else some p

/-- Places of a range with a length, piece by piece. -/
abbrev Places := List (Phys × Nat)

/-- The 2 MiB pieces of n bytes from an address: offset and length of each. -/
def gpaPieces (a n : Nat) : List (Nat × Nat) :=
  ((List.range ((a + n - 1) / 2 ^ 21 - a / 2 ^ 21 + 1)).map (fun k =>
    let lo := max a ((a / 2 ^ 21 + k) * 2 ^ 21)
    (lo - a, min (a + n) ((a / 2 ^ 21 + k + 1) * 2 ^ 21) - lo)))

/-- Places of n bytes at a GPA; none when one is not mapped. -/
def State.gpaPlaces (s : State) (vf : Nat) (acc : Access) (gpa n : Nat) : Option Places :=
  (gpaPieces gpa n).foldr (fun p l =>
    match s.gpaPhys vf acc (gpa + p.1), l with
    | some x, some l => some ((x, p.2) :: l)
    | _, _ => none) (some [])

/-- The bytes of some places, as their homes hold them; a line under another key is read from memory (R30). -/
def State.placeBytes (s : State) (ps : Places) : List Byte :=
  ps.flatMap (fun p => (s.claimRun p.1.loc p.2 p.1.kid).homeBytes p.1 p.2)

/-- The lines of some places as a read of them leaves the L2: one under another key goes (R30). -/
def State.claimPlaces (s : State) (ps : Places) : State :=
  ps.foldl (fun t p => t.claimRun p.1.loc p.2 p.1.kid) s

/-- A word of some places is poisoned (R75). -/
def State.placesPoisoned (s : State) (ps : Places) : Bool :=
  ps.any (fun p => (s.claimRun p.1.loc p.2 p.1.kid).poisoned p.1.loc p.2)

/-- Write bytes at some places. -/
def State.writePlaces (s : State) (ps : Places) (bs : List Byte) : State :=
  (ps.foldl (fun (u : State × List Byte) p =>
    (u.1.performEntry (BufEntry.plain (writesOf p.1.loc (u.2.take p.2)) p.1.kid), u.2.drop p.2))
    (s, bs)).1

/-! ### Rings (R421, R422, R424) -/

def ringOn (log : BitVec 4) : Bool := decide (4 ≤ log.toNat ∧ log.toNat ≤ 12)
/-- The position after one, in a ring of 2^log entries. -/
def ringNext (log : BitVec 4) (n : BitVec 12) : BitVec 12 :=
  BitVec.ofNat 12 ((n.toNat + 1) % 2 ^ log.toNat)

/-- A posted submission entry waits to be taken. -/
def Vf.sqPosted (f : Vf) : Bool :=
  ringOn f.sqLog && decide (f.sqHead.toNat % 2 ^ f.sqLog.toNat ≠ f.sqTail.toNat % 2 ^ f.sqLog.toNat)

/-- The completion ring can take an entry. -/
def Vf.cqRoom (f : Vf) : Bool :=
  ringOn f.cqLog && decide ((f.cqTail.toNat + 1) % 2 ^ f.cqLog.toNat ≠ f.cqHead.toNat % 2 ^ f.cqLog.toNat)

/-- COPY entries of a function that are still to complete (R423). -/
def State.copiesLeft (s : State) (vf : Nat) : Nat :=
  s.engines.foldl (fun k e => k + e.2.countP (fun c => c.ring.isSome && c.vf.toNat == vf)) 0

/-- The completion ring has room for another entry beside those of the COPY entries on their way. -/
def State.cqSpare (s : State) (vf : Nat) : Bool :=
  let f := s.vf vf
  let cap := 2 ^ f.cqLog.toNat
  f.cqRoom && decide ((f.cqTail.toNat + cap - f.cqHead.toNat % cap) % cap + s.copiesLeft vf + 1 < cap)

/-- Places of the submission entry at the head, when one can be taken. -/
def State.sqPlaces (s : State) (vf : Nat) : Option Places :=
  let f := s.vf vf
  if f.sqPosted && s.cqSpare vf then
    s.gpaPlaces vf .load (f.sqBase.toNat * 64 + f.sqHead.toNat % 2 ^ f.sqLog.toNat * 64) 64
  else none

/-- The submission entry at the head holds a poisoned word (R75). -/
def State.sqPoisoned (s : State) (vf : Nat) : Bool :=
  match s.sqPlaces vf with | some ps => s.placesPoisoned ps | none => false

/-- The submission entry at the head, read from the guest's ring. -/
def State.sqEntry (s : State) (vf : Nat) : Option Nat :=
  if s.sqPoisoned vf then none else (s.sqPlaces vf).map (fun ps => leNat (s.placeBytes ps))

/-- OP and TAG of an entry. -/
def sqOp (x : Nat) : Nat := x % 256
def sqTag (x : Nat) : Nat := bitsAt 16 16 x

/-- The bits that an entry's OP names (R422); 0 for an unknown OP. -/
def sqBits (op : Nat) : Nat :=
  let head := 0xFF + 0xFFFF * 2 ^ 16
  let f := fun (lo n : Nat) => (2 ^ n - 1) * 2 ^ lo
  if op = 1 then head + f 64 64
  else if op = 2 then head + f 64 19 + f 128 10 + f 160 3
  else if op = 3 then head + f 64 19 + f 128 10
  else if op = 4 then head + f 64 64 + f 128 64 + f 192 33 + f 256 2
  else if op = 5 then head + f 64 17 + f 128 64 + f 192 64
  else if op = 6 then head + f 64 64 + f 128 16
  else if op = 7 then head + f 64 64 + f 128 32 + f 256 256
  else 0

/-- The OP is known and every reserved byte and bit is zero. -/
def sqLegal (x : Nat) : Bool := sqBits (sqOp x) != 0 && decide (x &&& sqBits (sqOp x) = x)

/-- The vector of completions, whose index the manual does not give. -/
def completionVector : Nat := 2 ^ 16

/-- The HC has read the submission entry at the head (R30). -/
def State.reachSq (s : State) (vf : Nat) : State := s.claimPlaces ((s.sqPlaces vf).getD [])

/-- The entry at the head, which the HC has read, is accepted. -/
def State.takeSq (s : State) (vf : Nat) : State :=
  (s.reachSq vf).modVf vf (fun f => { f with sqHead := ringNext f.sqLog f.sqHead })

/-- Write a completion entry and raise the function's interrupt (R424); the phase inverts with each pass
of the ring. -/
def State.postCompletion (s : State) (vf tag status result : Nat) : State :=
  let f := s.vf vf
  let x := tag + status * 2 ^ 16 + (if f.cqPhase then 2 ^ 63 else 0) + result % 2 ^ 64 * 2 ^ 64
  let at' := f.cqBase.toNat * 64 + f.cqTail.toNat % 2 ^ f.cqLog.toNat * 16
  let s1 := match s.gpaPlaces vf .store at' 16 with
    | some ps => s.writePlaces ps (leBytes 16 x)
    | none => s
  let n := ringNext f.cqLog f.cqTail
  s1.modVf vf (fun f =>
    { f with cqTail := n, cqPhase := if n = 0 then !f.cqPhase else f.cqPhase,
             msix := f.msix ++ [completionVector] })

/-- Where the next completion goes; none when the ring is not mapped. -/
def State.cqPlaces (s : State) (vf : Nat) : Places :=
  let f := s.vf vf
  (s.gpaPlaces vf .store (f.cqBase.toNat * 64 + f.cqTail.toNat % 2 ^ f.cqLog.toNat * 16) 16).getD []

/-- Writes of some places would wait at their homes (R52, R247, R276, R278). -/
def State.placesHeld (s : State) (ps : Places) : Bool := s.rangesHeld none (ps.map (fun p => (p.1.loc, p.2)))

/-- The next completion would wait at its home, and the call for the host's copies of its line. -/
def State.cqHeld (s : State) (vf : Nat) : Bool := s.placesHeld (s.cqPlaces vf)
def State.callBackCq (s : State) (vf : Nat) : State :=
  s.callBack ((s.cqPlaces vf).map (fun p => (p.1.loc, p.2)))

/-- A side of a COPY entry (R417, R422): the place of byte k, none when it is not mapped. -/
def State.ringPhys (s : State) (vf : Nat) (host : Bool) (acc : Access) (a k : Nat) : Option Phys :=
  if host then
    if s.inDma (a + k) 1 then some { loc := hostBase + a + k, kid := 0, owner := false } else none
  else s.gpaPhys vf acc (a + k)

end Sys2Proof.Machine
end

