-- ==== Sys2Proof/Machine/EvEngine.lean ====
section
/-!
DEFINITION. Engines at work: starting, stopping and finishing commands (R77, R92, R95, R96), the copy
command (R80 to R83), the COPY entries of rings (R423), coding commands (R84 to R86), budgets (R97).
-/

namespace Sys2Proof.Machine

open Sys2Proof

/-! ### Queues (R77, R87, R97) -/

/-- Change the command with an identifier. -/
def State.modCmd (s : State) (id : Nat) (f : Cmd → Cmd) : State :=
  { s with engines := s.engines.map (fun e => (e.1, e.2.map (fun c => if c.id = id then f c else c))) }

/-- The command that an engine runs. -/
def State.running (s : State) (e : Nat) : Option Cmd := (s.queue e).find? (·.running)

/-- KIND of a budget: 0 copy, 1 LDPC, 2 polar (R97). -/
def EngKind.num : EngKind → Nat
  | .copy => 0
  | .ldpc => 1
  | .polar => 2

/-- Index of a command's budget. -/
def Cmd.budget (c : Cmd) : Nat := c.kind.num * 4 + c.cls.toNat

/-- Units left in a function's budget; 0xFFFF is unlimited (R97). -/
def Vf.unitsLeft (f : Vf) (k : Nat) : Option Nat :=
  if tget 0xFFFF#16 f.allow k = 0xFFFF#16 then none else some (tget 0xFFFF#16 f.left k).toNat

/-- The budget is used up. -/
def State.spent (s : State) (c : Cmd) : Bool := (s.vf c.vf.toNat).unitsLeft c.budget == some 0

/-- Charge units to a command's budget. -/
def State.charge (s : State) (c : Cmd) (n : Nat) : State :=
  match (s.vf c.vf.toNat).unitsLeft c.budget with
  | none => s
  | some k => s.modVf c.vf.toNat (fun f =>
      { f with left := tset 0xFFFF#16 f.left c.budget (BitVec.ofNat 16 (k - n)) })

/-- Two sides that order commands of one queue (R87): one scratchpad or caldera, overlapping, at least
one written. -/
def Side.orders (x y : Side) : Bool :=
  (match x.space with | .mem _ _ => false | _ => true) && x.space == y.space &&
    decide (x.lo ≤ y.hi ∧ y.lo ≤ x.hi) && (x.write || y.write)

/-- An earlier command of the queue holds a command back (R87). -/
def heldBack (before : List Cmd) (c : Cmd) : Bool :=
  before.any (fun b => b.sides.any (fun x => c.sides.any (fun y => x.orders y)))

/-- The partition of an engine (R76). -/
def State.enginePart (s : State) (e : Nat) : Nat := if e < 16 then s.partOfTile e else tget 31 s.engPart e

/-- A command's node has launched (R89); a command without a node has. -/
def State.launched (s : State) (c : Cmd) : Bool :=
  c.node == 0xFFFF#16 || (s.node c.node).st == .launched

/-- Commands of a queue that are runnable (R77, R95). -/
def State.runnableFrom (s : State) (before : List Cmd) : List Cmd → List Cmd
  | [] => []
  | c :: r =>
    let ok := s.launched c && !heldBack before c && !s.spent c && c.faulted.isNone && !c.running
    let rest := s.runnableFrom (before ++ [c]) r
    if ok then c :: rest else rest

def State.runnable (s : State) (e : Nat) : List Cmd := s.runnableFrom [] (s.queue e)

/-- An engine's next command (R77): class 0 first, then the oldest. -/
def State.nextCommand (s : State) (e : Nat) : Option Cmd :=
  match (s.runnable e).find? (fun c => c.cls == 0) with
  | some c => some c
  | none => (s.runnable e).head?

/-- Change the node of a command. -/
def State.nodeState (s : State) (id : BitVec 16) (st : NodeState) : State :=
  if id = 0xFFFF#16 then s else s.modNode id (fun n => { n with st := st })

/-- An idle engine starts or resumes its next command (R77, R89). -/
def execEngineStart (eng : Nat) (s : State) : Host.Outcome State Fault Refusal :=
  if (s.running eng).isSome || (s.part (s.enginePart eng)).freeze then .next s
  else
    match s.nextCommand eng with
    | none => .next s
    | some c => .next ((s.modCmd c.id (fun c => { c with running := true })).nodeState c.node .running)

/-- A command stops and waits (R95, R96). -/
def State.stopCmd (s : State) (c : Cmd) (faulted : Option (Option Nat)) : State :=
  (s.modCmd c.id (fun c => { c with running := false, faulted := faulted })).nodeState c.node .launched

/-- STATUS of the completion of a ring entry whose command ends (R424). -/
def ringStatus (st : NodeState) (status : Nat) : Nat :=
  match st with
  | .done => 0
  | .cancelled => 2
  | _ => if status = 4 then 4 else 1

/-- A command ends (R92 steps 3 to 5); a ring entry's command posts its completion (R424). -/
def State.endCmd (s : State) (c : Cmd) (st : NodeState) (status : Nat) : State :=
  let s1 := ((s.dropCmd c.id).releaseLocks c.id).finishNode c.node st status
  match c.ring with
  | some r => s1.postCompletion c.vf.toNat r.tag.toNat (ringStatus st status) 0
  | none => s1

/-- A command ends in ERROR; a MAC failure fails the function too (R29). -/
def State.failCmd (s : State) (c : Cmd) (status : Nat) : State :=
  let s1 := if status = 8 then s.macFailure [c.vf.toNat] else s
  s1.endCmd c .error status

/-- A ring entry's command cannot post its completion yet: the ring is full, or the host holds the line. -/
def State.ringBlocked (s : State) (c : Cmd) : Bool :=
  c.ring.isSome && (!(s.vf c.vf.toNat).cqRoom || s.cqHeld c.vf.toNat)

/-! ### Accesses of a command -/

/-- The context of a command's accesses (R76). -/
def State.cmdCtx (s : State) (c : Cmd) : Ctx :=
  { vf := c.vf, asid := c.asid, root := c.root, user := c.mode == .U, tile := some (tileOf c.slot),
    part := (s.vf c.vf.toNat).part.toNat }

/-- Places of an access of a command, or its first fault. -/
def State.cmdPlaces (s : State) (c : Cmd) (acc : Access) (va : W64) (n : Nat) :
    Except (W64 × XFault) (List (W64 × Nat × Xlat)) :=
  (pieces va n).foldr (fun p l =>
    match s.walkRun (s.cmdCtx c) acc p.1 p.2, l with
    | .error f, _ => .error (p.1, f)
    | _, .error f => .error f
    | .ok x, .ok l => .ok ((p.1, p.2, x) :: l)) (.ok [])

/-- Why an engine access cannot be made now. -/
inductive EngStop where
  /-- It ends the command with a status. -/
  | status (n : Nat)
  /-- It page-faults. -/
  | fault (va : W64) (acc : Access) (f : XFault)
  /-- A window lock, a migration, a host copy or a full set of pending lines holds a line of a range (R247, R52,
  R276, R278). -/
  | held (loc n : Nat)
  deriving DecidableEq, Repr

/-- An access that cannot be made, with the state that its reads leave. -/
abbrev Stopped := EngStop × State

/-- The state after a stop: an access that waits has not begun. -/
def Stopped.after (e : Stopped) (before : State) : State :=
  match e.1 with
  | .held _ _ => before
  | _ => e.2

/-- The table reads of an access whose piece at an address does not translate reach their slices (R30, R42). -/
def State.cmdWalked (s : State) (c : Cmd) (acc : Access) (va at' : W64) (n : Nat) : State :=
  let walk := fun (a : W64) => (s.walkVia Caches.none (s.cmdCtx c) acc a).2
  s.walkTouch (((pieces va n).takeWhile (fun p => p.1 != at')).flatMap (fun p => walk p.1) ++ walk at')

/-- A range that an engine's access waits for. -/
def State.engWaits (s : State) (acc : Access) (p : Phys) (n : Nat) : Bool :=
  s.windowLine none p.loc n || (decide (acc = .store) && s.rangesHeld none [(p.loc, n)])

/-- What holds an engine's access to a place back, if anything: its range, or the line of the walker's
update. -/
def State.engHeld (s : State) (acc : Access) (n : Nat) (x : Xlat) : Option EngStop :=
  if s.engWaits acc x.phys n then some (.held x.phys.loc n)
  else (s.updateHeld x).map (fun l => .held l 8)

/-- Places of an access, ready to be made. -/
def State.engPlaces (s : State) (c : Cmd) (acc : Access) (va : W64) (n : Nat) :
    Except Stopped (List (W64 × Nat × Xlat)) :=
  match s.cmdPlaces c acc va n with
  | .error (a, f) =>
    let why : EngStop := match f with | .perm => .status 4 | .mac => .status 8 | _ => .fault a acc f
    .error (why, s.cmdWalked c acc va a n)
  | .ok ps =>
    match ps.findSome? (fun p => s.engHeld acc p.2.1 p.2.2) with
    | some e => .error (e, s)
    | none => if ps.any (fun p => s.twinRefuses acc p.2.2) then .error (.status 4, s) else .ok ps

/-- Engine reads reach every line and allocate at age 2 (R57); a poisoned word, or a line under another key that
fails its MAC check, ends the command (R29, R30, R75). -/
def State.engRead (s : State) (ps : List (W64 × Nat × Xlat)) : Except Stopped (List Byte × State) :=
  let s1 := ps.foldl (fun t p =>
    (t.applyXlat [] p.2.2).touch (runLines p.2.2.phys.loc p.2.1) p.2.2.phys.kid (fun _ => .age 2) false) s
  if ps.any (fun p => s1.poisoned p.2.2.phys.loc p.2.1) then .error (.status 8, s1) else .ok (s1.bytesAt ps, s1)

/-- STW of a coding command: one place in both forms. -/
def Cmd.stw (c : Cmd) : W64 := BitVec.ofNat 64 (descField c.desc 24 8)

/-- The status word's place in a coding command that ends in ERROR, when STW is aligned and translates; none
when nothing is written (R86). -/
def State.stwPlaces (s : State) (c : Cmd) : List (W64 × Nat × Xlat) :=
  if c.kind ≠ .copy ∧ c.stw.toNat % 8 = 0 then
    match s.cmdPlaces c .store c.stw 8 with
    | .ok ps => ps
    | .error _ => []
  else []

/-- A command ends in ERROR. A coding command writes its status word first (R86); while something holds that
word's line, the command goes on (R247, R52, R278). -/
def State.failAny (s : State) (c : Cmd) (status : Nat) : State :=
  let ps := s.stwPlaces c
  match ps.findSome? (fun p => s.engHeld .store p.2.1 p.2.2) with
  | some (.held loc n) => s.callBack [(loc, n)]
  | _ => (s.writeAt ps c.stw (leBytes 8 status)).failCmd c status

/-- What a stop does to the running command (R95): a page fault is appended with THREAD the issuing
thread, and the command waits for its entry, or for a change of fqhead when the queue is full. -/
def State.engStopped (s : State) (c : Cmd) (why : EngStop) : State :=
  match why with
  | .status n => s.failAny c n
  | .held loc n => s.callBack [(loc, n)]
  | .fault va acc f =>
    match PFault.of va acc f with
    | none => s.failAny c 4
    | some pf =>
      let part := (s.vf c.vf.toNat).part.toNat
      let slot := match s.fqMatch (s.part part) c.vf.toNat c.asid.toNat pf with
        | some n => n
        | none => (s.part part).fqTail.toNat
      match s.appendBatch part c.vf c.asid c.slot [pf] with
      | (s1, .taken) => s1.stopCmd c (some (some slot))
      | (s1, .full) => s1.stopCmd c (some none)
      | (s1, .off) => s1.failAny c 4
      | (s1, .mac) => s1.failAny c 8

/-! ### The copy command (R80 to R83) -/

/-- Elements, passes or PRBs of a copy: dimension 0 of a packing copy is one pass (R82). -/
def CopyDesc.loops (c : CopyDesc) : List Dim := if c.pack then c.used.drop 1 else c.used

/-- Tuples of the loops. -/
def CopyDesc.total (c : CopyDesc) : Nat := tuplesOf c.loops

def CopyDesc.at' (c : CopyDesc) (dst : Bool) (k : Nat) : Int :=
  ((if dst then c.dst else c.src : Nat) : Int) + offsetOf c.loops dst k

/-- The runs of a side that tuple k covers: a packing pass gathers 512 single elements (R80, R82). -/
def CopyDesc.runs (c : CopyDesc) (dst : Bool) (k : Nat) : List (Int × Nat) :=
  if c.pack && !dst then
    let str := (c.dims.getD 0 ⟨0, 0, 0⟩).sstr
    (List.range 512).map (fun i => (c.at' false k + (i : Nat) * str, 1))
  else [(c.at' dst k, if dst then c.dstSize else c.srcSize)]

/-- A float of one format in another, rounding to nearest even; a NaN becomes the default NaN with its
sign (R81). -/
def engFloat (src dst : Fmt) (x : Nat) : Nat :=
  if src.isNan x then dst.sign (x.testBit (src.eb + src.mb)) + dst.nan else (cvtFF src dst 0 x).val

/-- CONV (R81). -/
def engConvert (conv ses des x : Nat) : Nat :=
  if conv = 1 then lowN (8 * 2 ^ des) (sextN (8 * 2 ^ ses) x)
  else if conv = 3 then x % 2 ^ (8 * 2 ^ des)
  else if conv = 4 then engFloat f32 bf16 x
  else if conv = 5 then engFloat f32 f16 x
  else if conv = 6 then engFloat bf16 f32 x
  else if conv = 7 then engFloat f16 f32 x
  else if conv = 8 then engFloat f32 f8e4 x
  else if conv = 9 then engFloat f32 f8e5 x
  else x

/-- Bits lo to lo + n − 1 of a stream of bytes, most significant bit first (R83). -/
def streamBits (bs : List Byte) (lo n : Nat) : Nat :=
  (List.range n).foldl (fun x i =>
    let k := lo + i
    2 * x + ((bs.getD (k / 8) 0).toNat >>> (7 - k % 8)) % 2) 0

/-- One PRB decompressed (R83). -/
def bfpPrb (bs : List Byte) : List Byte :=
  let e := (bs.getD 0 0).toNat % 16
  (List.range 24).flatMap (fun r =>
    leBytes 2 (lowN 16 (satN 16 (shlI (sextN 9 (streamBits (bs.drop 1) (9 * r) 9)) e))))

/-- Plane rows of 512 elements (R82). -/
def packRows (planes : Nat) (xs : List Byte) : List Byte :=
  (List.range planes).flatMap (fun j => (List.range 64).map (fun b =>
    BitVec.ofNat 8 (bitsOf 8 (fun i => (xs.getD (8 * b + i) 0).toNat.testBit (7 - j)))))

/-- What a source run gives: bytes and the state after the read. -/
def State.copyRead (s : State) (c : Cmd) (cal : Bool) (a : Int) (n : Nat) :
    Except Stopped (List Byte × State) :=
  if cal then
    let v := s.vc (vcOf c.slot)
    if v.caldPoison.any (fun w => decide ((w : Int) * 8 < a + n ∧ a < w * 8 + 8)) then .error (.status 8, s)
    else .ok ((List.range n).map (fun k => v.caldByte (a.toNat + k)), s)
  else
    match s.engPlaces c .load (BitVec.ofInt 64 a) n with
    | .error e => .error e
    | .ok ps => s.engRead ps

/-- The bytes of some source runs, in order. -/
def State.gather (s : State) (c : Cmd) (cal : Bool) : List (Int × Nat) → Except Stopped (List Byte × State)
  | [] => .ok ([], s)
  | r :: rs =>
    match s.copyRead c cal r.1 r.2 with
    | .error e => .error e
    | .ok (b, s1) => (s1.gather c cal rs).map (fun x => (b ++ x.1, x.2))

/-- What a tuple writes, from its source bytes (R80 to R83). -/
def CopyDesc.output (d : CopyDesc) (bs : List Byte) : List Byte :=
  if d.bfp then bfpPrb bs
  else if d.pack then packRows (d.pln + 1) bs
  else leBytes d.dstSize (engConvert d.conv d.ses d.des (leNat bs))

/-- Where the bytes of a side of tuple k lie: locations, or offsets in the caldera; none that does not
translate. -/
def State.sideLocs (s : State) (c : Cmd) (d : CopyDesc) (dst : Bool) (k : Nat) : List Nat :=
  (d.runs dst k).flatMap (fun r =>
    if (if dst then d.dcal else d.scal) then (List.range r.2).map (fun i => r.1.toNat + i)
    else
      match s.cmdPlaces c (if dst then .store else .load) (BitVec.ofInt 64 r.1) r.2 with
      | .ok ps => ps.flatMap (fun p => (List.range p.2.1).map (fun i => p.2.2.phys.loc + i))
      | .error _ => [])

/-- Both sides lie in memory and scratchpads, or both in the caldera: they may overlap. -/
def CopyDesc.oneSpace (d : CopyDesc) : Bool := d.scal == d.dcal

/-- The bytes that tuple j would write from what stands now. -/
def State.outputNow (s : State) (c : Cmd) (d : CopyDesc) (j : Nat) : List Byte :=
  match s.gather c d.scal (d.runs false j) with
  | .ok (bs, _) => d.output bs
  | .error _ => []

/-- The other value of a source byte that the command also writes, read at tuple k as it stands now (R80):
the one before the command's write when that is done, else the one that a later tuple gives it. -/
def State.otherValue (s : State) (c : Cmd) (d : CopyDesc) (k loc : Nat) : Option Byte :=
  match c.old.find? (fun o => o.1 == loc) with
  | some o => some o.2
  | none =>
    ((List.range d.total).find? (fun j => decide (k ≤ j) && (s.sideLocs c d true j).contains loc)).bind
      (fun j => (s.outputNow c d j)[(s.sideLocs c d true j).idxOf loc]?)

/-- The source bytes of tuple k; one that the command also writes reads as its old or its new value, by a
free choice (R80). -/
def State.copySource (s : State) (c : Cmd) (d : CopyDesc) (k : Nat) :
    Except Stopped (List Byte × State) :=
  match s.gather c d.scal (d.runs false k) with
  | .error e => .error e
  | .ok (bs, s1) =>
    if !d.oneSpace then .ok (bs, s1)
    else
      let locs := s.sideLocs c d false k
      let pick := fun (i : Nat) (b : Byte) =>
        match s.otherValue c d k (locs.getD i 0) with
        | some x => if Config.freeBit (s1.free + i) then x else b
        | none => b
      .ok ((List.range bs.length).zip bs |>.map (fun p => pick p.1 p.2),
        { s1 with free := s1.free + bs.length })

/-- Bytes that tuple k is about to write and a later tuple reads, with the values they have now. -/
def State.oldBytes (s : State) (c : Cmd) (d : CopyDesc) (k : Nat) : List (Nat × Byte) :=
  if !d.oneSpace then []
  else
    let reads := fun (l : Nat) => (List.range d.total).any (fun j =>
      decide (k < j) && (s.sideLocs c d false j).contains l)
    ((s.sideLocs c d true k).filter (fun l => reads l && !c.old.any (fun o => o.1 == l))).map (fun l =>
      (l, if d.dcal then (s.vc (vcOf c.slot)).caldByte l else s.homeByte l))

/-- One tuple of a copy (R80). -/
def State.descTuple (s : State) (c : Cmd) (d : CopyDesc) (k : Nat) : Except Stopped State :=
  match s.copySource c d k with
  | .error e => .error e
  | .ok (bs, s1) =>
    let out := d.output bs
    let a := d.at' true k
    let s2 := s1.modCmd c.id (fun x => { x with old := x.old ++ s.oldBytes c d k })
    if d.dcal then
      .ok (s2.modVc (vcOf c.slot) (fun v => v.putCald (writesOf a.toNat out)))
    else
      match s1.engPlaces c .store (BitVec.ofInt 64 a) out.length with
      | .error e => .error e
      | .ok ps => .ok (s2.writeAt ps (BitVec.ofInt 64 a) out)

/-! ### COPY entries of a ring (R423) -/

/-- Location of byte k of a side of a ring entry; none that is not mapped. -/
def State.ringLoc (s : State) (c : Cmd) (r : RingCopy) (dst : Bool) (k : Nat) : Option Phys :=
  if dst then s.ringPhys c.vf.toNat r.dstHost .store r.dst k else s.ringPhys c.vf.toNat r.srcHost .load r.src k

/-- Byte k of a ring entry's copy (R80, R423): each byte is an element. A byte that the copy both reads and
writes is read as its old or its new value. -/
def State.ringTuple (s : State) (c : Cmd) (r : RingCopy) (k : Nat) : Except Stopped State :=
  match s.ringLoc c r false k, s.ringLoc c r true k with
  | some p, some q =>
    if s.engWaits .load p 1 then .error (.held p.loc 1, s)
    else if s.engWaits .store q 1 then .error (.held q.loc 1, s)
    else if isTwin p.loc && s.twinFails then .error (.status 4, s)
    else
      let s1 := s.touch [p.loc / 128] p.kid (fun _ => .age 2) false
      if s1.poisoned p.loc 1 then .error (.status 8, s1)
      else
      let now := s1.homeByteFor p.owner p.loc
      let other := match c.old.find? (fun o => o.1 == p.loc) with
        | some o => o.2
        | none =>
          match (List.range r.len).find? (fun j => decide (k ≤ j) &&
              (s.ringLoc c r true j).map (·.loc) == some p.loc) with
          | some j => match s.ringLoc c r false j with
            | some x => s.homeByteFor x.owner x.loc
            | none => now
          | none => now
      let b := if Config.freeBit s.free then other else now
      let read := (List.range r.len).any (fun j => decide (k < j) &&
        (s.ringLoc c r false j).map (·.loc) == some q.loc)
      let s2 := s1.bump.modCmd c.id (fun x =>
        { x with old := if read && !x.old.any (fun o => o.1 == q.loc) then
            x.old ++ [(q.loc, s.homeByteFor q.owner q.loc)] else x.old })
      .ok (s2.performEntry (BufEntry.plain [(q.loc, b)] q.kid))
  | _, _ => .error (.status 4, s)

/-- Elements of a copy command, and the destination bytes of each. -/
def Cmd.total (c : Cmd) : Nat := match c.ring with | some r => r.len | none => (copyDesc c.desc).total
def Cmd.unit (c : Cmd) : Nat := match c.ring with | some _ => 1 | none => (copyDesc c.desc).dstSize

/-- Element k of a copy command. -/
def State.copyTuple (s : State) (c : Cmd) (k : Nat) : Except Stopped State :=
  match c.ring with
  | some r => s.ringTuple c r k
  | none => s.descTuple c (copyDesc c.desc) k

/-- How a run of a copy ends. -/
inductive CopyEnd where
  /-- Every tuple is performed. -/
  | done
  /-- The tuples asked for are performed, or the budget is used up. -/
  | paused
  | stopped (why : EngStop)
  deriving DecidableEq, Repr

/-- The command as its engine's queue holds it now. -/
def State.cmdNow (s : State) (c : Cmd) : Cmd :=
  (s.engines.findSome? (fun e => e.2.find? (fun x => x.id == c.id))).getD c

/-- Perform up to `fuel` tuples from the command's progress, charging a unit for every 4 KiB of
destination bytes (R80, R96, R97). -/
def State.copyRun (s : State) (c : Cmd) (fuel : Nat) : CopyEnd × State :=
  match fuel with
  | 0 => (if c.total ≤ c.progress then .done else .paused, s)
  | fuel + 1 =>
    if c.total ≤ c.progress then (.done, s)
    else if s.spent c then (.paused, s)
    else
      match s.copyTuple c c.progress with
      | .error e => (.stopped e.1, e.after s)
      | .ok s1 =>
        let k := c.progress
        let units := (k + 1) * c.unit / 4096 - k * c.unit / 4096
        let s2 := (s1.charge c units).modCmd c.id (fun c => { c with progress := k + 1 })
        s2.copyRun (s2.cmdNow { c with progress := k + 1 }) fuel

/-- Status of a copy that fails its checks, and whether it makes no access; a ring entry was checked by the
HC. -/
def Cmd.copyStatus (c : Cmd) : Option Nat :=
  if c.ring.isSome then none else (copyDesc c.desc).status c.cbase.toNat c.csize.toNat
def Cmd.copyEmpty (c : Cmd) : Bool := c.ring.isNone && (copyDesc c.desc).isEmpty

/-- The running copy of an engine performs some tuples and then ends, pauses or stops. -/
def State.copyStep (s : State) (c : Cmd) (steps : Nat) (paused : State → State) : State :=
  match c.copyStatus with
  | some n => s.failCmd c n
  | none =>
    if c.copyEmpty then s.endCmd c .done 1
    else
      match s.copyRun c steps with
      | (.done, s1) => s1.endCmd c .done 1
      | (.paused, s1) => paused s1
      | (.stopped e, s1) => s1.engStopped c e

/-- A cause of R96 holds for the running command of an engine. -/
def State.mustStop (s : State) (eng : Nat) (c : Cmd) : Bool :=
  s.spent c || (c.cls != 0 && (s.runnable eng).any (fun x => x.cls == 0)) ||
    (s.part (s.enginePart eng)).freeze

/-- A copy command finishes (R80); one whose budget runs out first stops there (R97), and one that must stop
for a cause of R96 does not run on. -/
def execCopyComplete (eng : Nat) (s : State) : Host.Outcome State Fault Refusal :=
  match s.running eng with
  | none => .next s
  | some c =>
    if c.kind ≠ .copy ∨ c.cancelled ∨ s.mustStop eng c then .next s
    else if s.ringBlocked c then .next (s.callBackCq c.vf.toNat)
    else .next (s.copyStep c c.total (fun t => t.stopCmd c none))

/-- Engine time is charged to a coding command: a free number of units, at most those that are left (R97).
-/
def State.chargeTime (s : State) (c : Cmd) : State := (s.charge c (Config.freeNat s.free)).bump

/-- A running command stops at its next boundary (R96): a copy after some more tuples, with its progress
kept; a coding command with nothing written, its engine time charged. -/
def execEngineStop (eng steps : Nat) (s : State) : Host.Outcome State Fault Refusal :=
  match s.running eng with
  | none => .next s
  | some c =>
    if !s.mustStop eng c || c.cancelled then .next s
    else if c.kind ≠ .copy then .next ((s.chargeTime c).stopCmd c none)
    else if s.ringBlocked c then .next (s.stopCmd c none)
    else .next (s.copyStep c steps (fun t => t.stopCmd c none))

/-- Status of a cancelled command's node (R89). -/
def Cmd.cancelStatus (c : Cmd) : Nat := if c.predFailed then 7 else 6

/-- A running command that has been cancelled reaches its boundary (R92): CANCELLED, status 6, or 7 for a failed
predecessor. -/
def execCancelledCommandStop (eng steps : Nat) (s : State) : Host.Outcome State Fault Refusal :=
  match s.running eng with
  | none => .next s
  | some c =>
    if !c.cancelled then .next s
    else if c.kind ≠ .copy then .next (s.endCmd c .cancelled c.cancelStatus)
    else if s.ringBlocked c then .next (s.callBackCq c.vf.toNat)
    else
      let s1 := if c.copyStatus.isSome || c.copyEmpty then s else (s.copyRun c steps).2
      .next (s1.endCmd c .cancelled c.cancelStatus)

/-! ### Coding commands (R84 to R86) -/

/-- Packed bits, bit i at bit i mod 8 of byte i div 8 (R84). -/
def unpack (bs : List Byte) (n : Nat) : List Bool :=
  (List.range n).map (fun i => (bs.getD (i / 8) 0).getLsbD (i % 8))
def pack (bits : List Bool) : List Byte :=
  (List.range (ceilDiv bits.length 8)).map (fun b =>
    BitVec.ofNat 8 (bitsOf 8 (fun i => bits.getD (8 * b + i) false)))

/-- The parity-check-free polar transform of 2^n bits (R85): output j is the sum of the inputs whose
index has every bit of j. -/
def polarTransform (u : List Bool) : List Bool :=
  (List.range u.length).map (fun j =>
    (List.range u.length).foldl (fun x i => x ^^ (decide (i &&& j = j) && u.getD i false)) false)

/-- Put information bits at the unfrozen positions, zero at the frozen ones (R85). -/
def spread : List Bool → List Bool → List Bool
  | [], _ => []
  | true :: f, u => false :: spread f u
  | false :: f, b :: u => b :: spread f u
  | false :: f, [] => false :: spread f []

/-- What a coding command writes: an address with its bytes, and its status word. -/
structure Coded where
  outs : List (W64 × List Byte)
  word : Nat
  deriving DecidableEq, Repr

/-- Read bytes of a coding command. -/
def State.codeRead (s : State) (c : Cmd) (va : W64) (n : Nat) : Except Stopped (List Byte × State) :=
  if n = 0 then .ok ([], s)
  else
    match s.engPlaces c .load va n with
    | .error e => .error e
    | .ok ps => s.engRead ps

/-- Parity checks that a codeword does not satisfy (R84). -/
def unsatisfied (checks : List (List Nat)) (code : List Bool) : Nat :=
  checks.countP (fun c => c.foldl (fun x i => x ^^ code.getD i false) false)

/-- The codeword after n iterations (R84): the LLRs of filler positions are ignored, and filler bits are
known zeros. LLRs that all mean 0 are the zero codeword (R463, log entry 119). -/
def LdpcDesc.decided (l : LdpcDesc) (h : List Int) (n : Nat) : List Bool :=
  let known := (List.range l.ncb).map (fun i => if l.filler i then 0 else h.getD i 0)
  let code := Config.ldpcHard l.bg2 l.zc l.nrow l.f n known
  let zero := (List.range l.ncb).all (fun i => l.filler i || decide (0 < h.getD i 0))
  (List.range ((l.cols + l.nrow) * l.zc)).map (fun i =>
    code.getD i false && !zero && !decide (l.k - l.f ≤ i ∧ i < l.k))

/-- Iterations that a decode runs (R84): ITMAX, or with ET the first after which every used check is
satisfied. -/
def LdpcDesc.iterations (l : LdpcDesc) (h : List Int) : Nat :=
  let checks := Config.ldpcChecks l.bg2 l.zc l.nrow
  if l.et then
    ((List.range l.itmax).find? (fun n => unsatisfied checks (l.decided h (n + 1)) == 0)).elim l.itmax (· + 1)
  else l.itmax

/-- An LDPC command's outputs (R84, R86); ITER counts from 1, and PASS of an encode is free (log entry
107). -/
def State.ldpcWork (s : State) (c : Cmd) : Except Stopped (Coded × State) :=
  let l := ldpcDesc c.desc
  if c.encode then
    match s.codeRead c l.llr (ceilDiv (l.k - l.f) 8) with
    | .error e => .error e
    | .ok (bs, s1) =>
      let info := unpack bs (l.k - l.f) ++ List.replicate l.f false
      let code := info ++ Config.ldpcParity l.bg2 l.zc l.nrow info
      .ok ({ outs := [(l.dout, pack ((List.range l.ncb).map (fun i => code.getD (i + 2 * l.zc) false)))],
             word := 1 + bit (Config.freeBit s1.free) 9 }, s1.bump)
  else
    match s.codeRead c l.llr l.ncb with
    | .error e => .error e
    | .ok (bs, s1) =>
      match (if l.hm = 1 then s1.codeRead c l.harq l.ncb else .ok ([], s1)) with
      | .error e => .error e
      | .ok (hq, s2) =>
        let llr := bs.map (·.toInt)
        let h := if l.hm = 1 then
            (List.range l.ncb).map (fun i => satN 8 ((hq.getD i 0).toInt + llr.getD i 0)) else llr
        let n := l.iterations h
        let code := l.decided h n
        let bad := unsatisfied (Config.ldpcChecks l.bg2 l.zc l.nrow) code
        let harq := if l.hm = 0 then [] else [(l.harq, h.map (BitVec.ofInt 8))]
        .ok ({ outs := (l.dout, pack (code.take (l.k - l.f))) :: harq,
               word := 1 + n * 16 + bit (bad == 0) 9 + min 0xFFFF bad * 2 ^ 10 }, s2)

/-- Length and generator polynomial, without its leading term, of CRC6, CRC11 and CRC24C (R85), as TS 38.212
gives them (log entry 108). -/
def crcOf (crcl : Nat) : Nat × Nat :=
  if crcl = 1 then (6, 0x21) else if crcl = 2 then (11, 0x621) else if crcl = 3 then (24, 0xB2B117) else (0, 0)

/-- The remainder of some bits, first bit first, with zero initial state. -/
def crcRemainder (n poly : Nat) (bits : List Bool) : Nat :=
  bits.foldl (fun r b =>
    let top := r.testBit (n - 1) ^^ b
    let x := 2 * r % 2 ^ n
    if top then x ^^^ poly else x) 0

/-- The last bits of a path are the CRC of those before (R85). -/
def crcPasses (crcl : Nat) (bits : List Bool) : Bool :=
  let g := crcOf crcl
  crcRemainder g.1 g.2 (bits.take (bits.length - g.1)) ==
    (bits.drop (bits.length - g.1)).foldl (fun x b => 2 * x + bit b 0) 0

/-- The most likely of some paths with their list indices: the least metric, the lowest index among equals
(log entry 107). -/
def likeliest : List (Nat × List Bool × Nat) → Option (Nat × List Bool × Nat)
  | [] => none
  | p :: r =>
    match likeliest r with
    | none => some p
    | some q => if p.2.2 ≤ q.2.2 then some p else some q

/-- The path that a polar decode gives out (R85): the most likely one whose CRC passes, or the most likely
when none passes. -/
def polarChoice (crcl k : Nat) (paths : List (List Bool × Nat)) : Nat × List Bool × Nat :=
  let ps := (List.range 8).map (fun i =>
    let p := paths.getD i ([], 0)
    (i, (List.range k).map (fun b => p.1.getD b false), p.2))
  let good := ps.filter (fun p => crcPasses crcl p.2.1)
  (likeliest (if good.isEmpty then ps else good)).getD (0, [], 0)

/-- A polar command's outputs (R85, R86): status 2 when K does not fit FROZ. PASS of an encode, and of a
decode without CRC, is free (log entry 107). -/
def State.polarWork (s : State) (c : Cmd) : Except Stopped (Coded × State) :=
  let q := polarDesc c.desc
  let n := 2 ^ q.logn
  match s.codeRead c q.froz (n / 8) with
  | .error e => .error e
  | .ok (fz, s1) =>
    let frozen := unpack fz n
    if (frozen.filter (!·)).length ≠ q.k then .error (.status 2, s1)
    else if c.encode then
      match s1.codeRead c q.llr (ceilDiv q.k 8) with
      | .error e => .error e
      | .ok (bs, s2) =>
        .ok ({ outs := [(q.dout, pack (polarTransform (spread frozen (unpack bs q.k))))],
               word := 1 + bit (Config.freeBit s2.free) 9 }, s2.bump)
    else
      match s1.codeRead c q.llr n with
      | .error e => .error e
      | .ok (bs, s2) =>
        let r := polarChoice q.crc q.k (Config.polarPaths q.logn frozen (bs.map (·.toInt)))
        let pass := if q.crc = 0 then Config.freeBit s2.free else crcPasses q.crc r.2.1
        .ok ({ outs := [(q.dout, pack r.2.1)],
               word := 1 + bit pass 9 + r.1 * 2 ^ 26 + min 0xFFFFFFFF r.2.2 * 2 ^ 32 }, s2.bump)

/-- Places of every output, all before any is written (R86). -/
def State.outPlaces (s : State) (c : Cmd) :
    List (W64 × List Byte) → Except Stopped (List (W64 × List Byte × List (W64 × Nat × Xlat)))
  | [] => .ok []
  | o :: r =>
    match (if o.2.isEmpty then .ok [] else s.engPlaces c .store o.1 o.2.length), s.outPlaces c r with
    | .ok ps, .ok l => .ok ((o.1, o.2, ps) :: l)
    | .error e, _ => .error e
    | _, .error e => .error e

/-- A coding command finishes (R86): its outputs, then its status word, then its node. One whose budget its
engine time uses up stops with nothing written (R96, R97). -/
def execCodingComplete (eng : Nat) (s : State) : Host.Outcome State Fault Refusal :=
  match s.running eng with
  | none => .next s
  | some c =>
    if c.kind = .copy ∨ c.cancelled ∨ s.mustStop eng c then .next s
    else
      match codingStatus c.kind c.encode c.desc with
      | some n => .next (s.failAny c n)
      | none =>
        match (if c.kind = .ldpc then s.ldpcWork c else s.polarWork c) with
        | .error e => .next ((e.after s).engStopped c e.1)
        | .ok (w, s1) =>
          match s1.outPlaces c (w.outs ++ [(c.stw, leBytes 8 w.word)]) with
          | .error e => .next ((e.after s).engStopped c e.1)
          | .ok ps =>
            let s2 := s1.chargeTime c
            if s2.spent c then .next (s2.stopCmd c none)
            else .next ((ps.foldl (fun t o => t.writeAt o.2.2 o.1 o.2.1) s2).endCmd c .done 1)

/-! ### Budgets -/

/-- A TAI multiple of PERIOD, the one just passed or the next: every count returns to its ALLOW (R97). -/
def execBudgetReset (s : State) : Host.Outcome State Fault Refusal :=
  let period := s.hub.engPer.toNat * 1000
  let turn := s.hub.ptp / period
  let next := if turn = s.hub.budgetTurn then turn + 1 else turn
  .next { s.modHub (fun h => { h with budgetTurn := next, ptp := max h.ptp (next * period) }) with
    vfs := s.vfs.map (fun e => (e.1, { e.2 with left := e.2.allow })) }

end Sys2Proof.Machine
end

