-- ==== Sys2Proof/Machine/EvSched.lean ====
section
/-!
DEFINITION. The ringmaster: placing jobs (R366, R367), starting them (R113), restoring contexts (R408,
R409, R414), pre-empting for class 0 (R368), the safety net (R365, R372, R373).
-/

namespace Sys2Proof.Machine

open Sys2Proof

/-! ### Starting and restoring -/

/-- A non-zero tag that no context on a VC carries and no tile of it is owned under (R113): which one is
free. -/
def State.freshTag (s : State) (vc : Nat) : BitVec 16 :=
  let used := (slotsOfVc vc).map (fun n => (s.thread n).tr.ctag) ++ (s.vc vc).aown.map (·.2)
  let base := Config.freeNat s.free
  match firstBelow 64 (fun k => !used.contains (BitVec.ofNat 16 ((base + k) % 65535 + 1))) with
  | some k => BitVec.ofNat 16 ((base + k) % 65535 + 1)
  | none => 1

/-- The identity CSRs of a job's context (R108). -/
def Job.ident (j : Job) (part entry : Nat) : Ident :=
  { vf := j.vf, part := BitVec.ofNat 5 part, job := jobIdOf entry j, deadline := j.deadline }

/-- An occupied slot at the start of a context, its debug controls as they were; a halt that has not landed is
asked of the context (R434). -/
def Thread.occupied (t : Thread) : SlotHw :=
  { t.emptied.hw with occ := true, stops := if t.hw.dbHalt then [.forced 3] else [] }

/-- The state of a thread at the start of a job (R113, R39). -/
def State.startState (s : State) (part entry slot : Nat) (j : Job) : Thread → Thread := fun t =>
  let vf := s.vf j.vf.toNat
  let arg := fun (k : Nat) => if k = 0 then j.a0.getD (BitVec.ofNat 64 (j.arg 0))
    else BitVec.ofNat 64 (j.arg k)
  { Thread.reset with
    sc := { pc := BitVec.ofNat 64 j.entry, mode := .U,
            s := (List.range 6).foldl (fun u k => tset 0 u (3 + k) (arg k)) [] }
    vec := { VecState.reset with vtype := BitVec.ofNat 23 j.vtypeWord }
    held := { Held.reset with cap := BitVec.ofNat 4 j.lgs, pwr := s.hub.pwPwr,
                              loc := lowestBits (s.groupsFor part entry (vcOf slot)) 1 }
    tr := { Recs.reset with asid := vf.asid, root := vf.root, ctag := s.freshTag (vcOf slot) }
    id := j.ident part entry
    hw := t.occupied }

/-- The loop-nest CSRs of a header (R409, R313). -/
def headerNest (f : Nat → Nat) : Nest :=
  let n := { Nest.reset with
    body := BitVec.ofNat 62 (f 0x220 / 4)
    lev := (List.range 6).foldl (fun u k =>
      tset NestLevel.reset u k (NestLevel.ofWord (f (0x228 + 8 * k)))) []
    init := (List.range 6).foldl (fun u k => tset 0 u k (BitVec.ofNat 64 (f (0x258 + 8 * k)))) [] }
  n.writeCtl (f 0x218)

/-- The mode a privilege number names; 3 names none. -/
def modeOf (l : Nat) : Option Mode :=
  if l = 0 then some .U else if l = 1 then some .L else if l = 2 then some .S else none

/-- The state of a context restored from a header (R414); tvec is 0, escx0–3 are not promised, vector
state is absent; a window that its stop discarded is still known as lost (R250), and its trains' errors are
still to be reported (R179). -/
def State.restoreState (s : State) (part entry slot : Nat) (j : Job) (f : Nat → Nat) (va : W64) :
    Thread → Thread := fun t =>
  let vlg := f 0x2A0
  let used := (slotsOfVc (vcOf slot)).map (fun n => (s.thread n).tr.ctag)
  let tag := BitVec.ofNat 16 (f 0x288)
  let cap := f 0x170 % 16
  let fresh := (List.range 32).foldl (fun u r => tset 0 u r (Config.freeReg (s.free + r))) []
  let preds := (List.range 96).foldl (fun u r =>
    tset 0 u r ((Config.freeReg (s.free + 32 + r)).setWidth 4096)) []
  { Thread.reset with
    sc := { pc := BitVec.ofNat 64 (f 0x100), mode := (modeOf (f 0x108 / 256 % 4)).getD .U,
            s := (List.range 31).foldl (fun u k =>
              tset 0 u (k + 1) (BitVec.ofNat 64 (f (8 * (k + 1))))) [] }
    vec := { VecState.reset with v := fresh, p := preds }
    held := { cap := if 1 ≤ cap ∧ cap ≤ 8 then BitVec.ofNat 4 cap else BitVec.ofNat 4 j.lgs,
              yreq := false, pwr := s.hub.pwPwr,
              loc := lowestBits (s.groupsFor part entry (vcOf slot)) (popN 4 (vlg % 16)),
              remote := lowestBits (s.groupsFor part entry (partnerVc (vcOf slot))) (popN 4 (vlg / 16 % 16)),
              pvc := if vlg / 16 % 16 = 0 then 0 else BitVec.ofNat 9 (partnerVc (vcOf slot)) }
    tr := { Recs.reset with
            epc := BitVec.ofNat 64 (f 0x100)
            cause := BitVec.ofNat 8 (f 0x108)
            lvl := BitVec.ofNat 2 (f 0x108 / 256)
            val := BitVec.ofNat 64 (f 0x110)
            estat := Estat.ofWord (f 0x118)
            escx := (List.range 4).foldl (fun u k => tset 0 u k (Config.freeWord (s.free + 128 + k))) []
            ctag := if tag = 0 ∨ used.contains tag then s.freshTag (vcOf slot) else tag
            vsave := BitVec.ofNat 52 (va.toNat / 4096)
            absent := true
            asid := BitVec.ofNat 12 (f 0x208)
            root := BitVec.ofNat 25 (f 0x208 / 2 ^ 15) }
    nest := headerNest f
    id := j.ident part entry
    hw := { t.occupied with lostWindow := j.lost, trainErr := j.errs } }

/-- The job takes the slot: RUNNING, an IFENCE of the VC (R113, R364, R367). -/
def State.takeSlot (s : State) (part entry slot : Nat) : State :=
  let s1 := s.modPart part (fun p =>
    { p with
      runCount := p.runCount + 1
      jobs := p.jobs.map (fun e =>
        if e.1 = entry then
          (e.1, { e.2 with st := .running, slot := some slot, resume := none, runAt := p.runCount,
                           wants := none, lost := none, errs := [],
                           keep := if e.2.wants == some slot then e.2.keep else 0,
                           keepRem := if e.2.wants == some slot then e.2.keepRem else 0 })
        else e) })
  s1.modVc (vcOf slot) (fun v => { v with icache := [] })

/-- Restore a context from the words of its header (R414). -/
def State.resumeJob (s : State) (part entry slot : Nat) (j : Job) (va : W64) (f : Nat → Nat) : State :=
  let s1 := s.modThread slot (s.restoreState part entry slot j f va)
  let s2 := { s1 with free := s1.free + 132 }
  let s3 := (s2.takeSlot part entry slot).modPart part (fun p =>
    p.renameMember (parkedNumber (jobIdOf entry j)) slot)
  let rem := f 0x2A0 / 16 % 16
  let s4 := if rem = 0 then s3
    else s3.modThread (4 * partnerVc (vcOf slot) + slot % 4) (fun t =>
      { t with hw := { t.hw with spanOf := some slot } })
  let at' := s4.switchTo slot
  let s5 := if (modeOf (f 0x108 / 256 % 4)).isNone then
      at'.takeTrapWith (plainTrap Cause.illop 0) false false
    else if at'.th.sc.mode = .S then at'.migrate else at'
  s5.switchTo s.cur

/-- Start or resume a waiting job on a slot (R113, R367, R414). A poisoned word of the header fails the
function (R75); a header whose walk waits, or that cannot be read, leaves the job waiting. -/
def State.startJob (s : State) (part entry slot : Nat) (j : Job) : State :=
  match j.resume with
  | none => (s.modThread slot (s.startState part entry slot j)).bump.takeSlot part entry slot
  | some (va, _, _) =>
    let r := s.readHeader j
    match r.1 with
    | .found p => r.2.resumeJob part entry slot j va (fun k => r.2.wordAt p k 8)
    | .mac => r.2.macFailure [j.vf.toNat]
    | _ => r.2

/-- A waiting job's header can be read now: its walk waits for nothing (R42). -/
def State.headerReady (s : State) (j : Job) : Bool := (s.readHeader j).1 != .held

/-! ### Deficit round robin (R366) -/

/-- Weight of a queue (R362). -/
def State.weight (s : State) (q : Nat) : Nat :=
  let f := s.vf (q / 4)
  (if q % 4 = 1 then f.w1 else if q % 4 = 2 then f.w2 else f.w3).toNat

/-- The queue visited after one, in ascending order with wrap. -/
def nextQueue (qs : List Nat) (q : Nat) : Nat :=
  match leastBy (·) (qs.filter (fun k => decide (q < k))) with
  | some k => k
  | none => (leastBy (·) qs).getD 0

/-- Go on with the visits, from a queue that is being visited, until one may dispatch: its deficit covers the
LG of its oldest placeable job. Each visit adds the queue's weight. -/
def visit (qs : List Nat) (lg : Nat → Option Nat) (weight : Nat → Nat) (fuel q : Nat) (d : Table Nat) :
    Option (Nat × Table Nat) :=
  match fuel with
  | 0 => none
  | fuel + 1 =>
    if (lg q).any (fun k => decide (k ≤ tget 0 d q)) then some (q, d)
    else
      let n := nextQueue qs q
      visit qs lg weight fuel n (tset 0 d n (tget 0 d n + weight n))

/-- The oldest job of a queue among some (R366). -/
def oldest (js : List (Nat × Job)) (q : Nat) : Option (Nat × Job) :=
  (js.filter (fun e => e.2.queue == q)).foldl (fun b e =>
    match b with
    | none => some e
    | some x => if e.2.readyAt < x.2.readyAt then some e else some x) none

/-- The class-0 job with the earliest deadline, ties to the lower identifier (R366). -/
def earliest (js : List (Nat × Job)) : Option (Nat × Job) :=
  (js.filter (fun e => e.2.cls == 0)).foldl (fun b e =>
    match b with
    | none => some e
    | some x =>
      if e.2.deadline.toNat < x.2.deadline.toNat ∨
          (e.2.deadline = x.2.deadline ∧ (jobIdOf e.1 e.2).toNat < (jobIdOf x.1 x.2).toNat) then some e
      else some x) none

/-! ### Pre-emption for class 0 (R368) -/

/-- Threads that may be chosen: those of RUNNING jobs of class 1 to 3 that are not chosen already. -/
def State.victims (s : State) (part : Nat) : List (Nat × Job) :=
  ((s.part part).jobs.filterMap (fun e =>
    match e.2.slot with
    | some n =>
      if e.2.live && e.2.st == .running && e.2.cls != 0 && (s.thread n).hw.occ &&
          !(s.thread n).hw.victim then some (n, e.2) else none
    | none => none))

/-- The better of two victims for an affinity: no window, an affinity tile, the higher class, the more
recent dispatch. -/
def State.betterVictim (s : State) (aff : Nat) (x y : Nat × Job) : Bool :=
  let key := fun (v : Nat × Job) =>
    ((if (s.thread v.1).hw.window.isNone then 1 else 0) * 2 +
      (if aff.testBit (tileOf v.1) then 1 else 0)) * 4 + v.2.cls
  decide (key y < key x ∨ (key x = key y ∧ y.2.runAt < x.2.runAt))

def State.victim (s : State) (part aff : Nat) : Option Nat :=
  ((s.victims part).foldl (fun b x =>
    match b with
    | none => some x
    | some y => if s.betterVictim aff x y then some x else some y) none).map (·.1)

/-- Set the YREQ of a victim (R368 step 1); chain and NAP waits see it (R287, R319). Its slot and
lane groups are for a class-0 job, of a table entry. -/
def State.chooseVictim (s : State) (part entry slot : Nat) : State :=
  (s.modThread slot (fun t =>
    { t with held := { t.held with yreq := true }, hw := { t.hw with victim := true } })).modPart part
    (fun p => { p with jobs := p.jobs.map (fun e =>
      if e.1 = entry then
        (e.1, { e.2 with wants := some slot, keep := (s.thread slot).held.loc,
                         keepRem := (s.thread slot).held.remote })
      else e) })

/-! ### DISPATCH -/

/-- The waiting jobs of a partition that some slot can take now. -/
def State.placeable (s : State) (part : Nat) : List (Nat × Job) :=
  (s.part part).waitingJobs.filter (fun e => (s.slotFor part e.1 e.2).isSome)

/-- The visit of the queue in hand ends when no slot remains for a job of class 1 to 3 (R366). -/
def State.endVisit (s : State) (part : Nat) : State :=
  if (s.placeable part).any (fun e => e.2.cls != 0) then s
  else s.modPart part (fun p => { p with visiting := false })

/-- The dispatch of one job of class 1 to 3, by deficit round robin (R366). -/
def State.dispatchShared (s : State) (part : Nat) : State :=
  let p := (s.part part).dropDeficits
  let able := (s.placeable part).filter (fun e => e.2.cls != 0)
  let qs := ((p.waitingJobs.filter (fun e => e.2.cls != 0)).map (fun e => e.2.queue)).eraseDups
  let lg := fun q => (oldest able q).map (fun e => e.2.lgs)
  let first := nextQueue qs p.lastQueue
  let begin_ := if p.visiting then (p.lastQueue, p.deficit)
    else (first, tset 0 p.deficit first (tget 0 p.deficit first + s.weight first))
  let found := if able.isEmpty then none
    else visit qs lg s.weight (9 * (qs.length + 1)) begin_.1 begin_.2
  match found with
  | none => (s.modPart part Part.dropDeficits).endVisit part
  | some (q, d) =>
    match oldest able q with
    | none => s
    | some (n, j) =>
      if !s.headerReady j then (s.readHeader j).2 else
      let s1 := s.modPart part (fun p =>
        { p with lastQueue := q, visiting := true, deficit := tset 0 d q (tget 0 d q - j.lgs) })
      ((s1.startJob part n ((s.slotFor part n j).getD 0) j).modPart part Part.dropDeficits).endVisit part

/-- DISPATCH (R366 to R368, R414): one placement, class 0 first. For the earliest class-0 job that no slot
can take and that has no victim yet, a victim is asked to yield; without one, the jobs of class 1 to 3 go
on. -/
def execDispatch (part : Nat) (s : State) : Host.Outcome State Fault Refusal :=
  match earliest (s.placeable part) with
  | some (n, j) => .next ((s.startJob part n ((s.slotFor part n j).getD 0) j).endVisit part)
  | none =>
    let stuck := earliest ((s.part part).waitingJobs.filter (fun e => e.2.wants.isNone))
    match stuck.bind (fun e => (s.victim part e.2.aff).map (fun v => (e.1, v))) with
    | some (n, v) => .next (s.chooseVictim part n v)
    | none => .next (s.dispatchShared part)

/-! ### The safety net -/

/-- DEADLINE_REACHED (R365, R372): every unfinished job whose deadline the time has reached. -/
def execDeadlineReached (part time : Nat) (s : State) : Host.Outcome State Fault Refusal :=
  match s.atTime time with
  | none => .next s
  | some s1 =>
    let due := (s1.part part).jobs.filter (fun e =>
      e.2.live && !e.2.finished && (e.2.cls == 0 || e.2.deadline != 0) &&
        decide (e.2.deadline.toNat ≤ time))
    .next (due.foldl (fun t e => t.abandon part (jobIdOf e.1 e.2) 1) s1)

/-- The unfinished engine commands of a job (R373 step 3). -/
def State.commandsOf (s : State) (part : Nat) (id : BitVec 32) : List Cmd :=
  s.engines.flatMap (fun e => e.2.filter (fun c =>
    c.job == id && decide ((s.vf c.vf.toNat).part.toNat = part)))

/-- Cancel a job's commands: a queued one at once, a running one at its next boundary (R373 step 3). -/
def State.cancelCommands (s : State) (part : Nat) (id : BitVec 32) : State :=
  (s.commandsOf part id).foldl (fun t c =>
    if c.running then t.modCmd c.id (fun c => c.cancel false)
    else t.endCmd c .cancelled 6) s

/-- One marker target (R373 step 4): whether it was skipped. -/
def State.writeTarget (s : State) (j : Job) (k : Nat) : Bool × State :=
  let (va, len, marker) := j.target k
  if len = 0 then (false, s)
  else
    let r := s.defaultWrite j.vf.toNat (BitVec.ofNat 64 va)
      ((List.range (len / 8)).flatMap (fun _ => leBytes 8 marker))
    (!r.2, r.1)

/-- What the markers and the completion word of a job change in memory (R373 steps 4 and 5). -/
def State.settleRanges (s : State) (j : Job) : List (Nat × Nat) :=
  if j.cause = 5#3 then []
  else
    ([0, 1].flatMap (fun k =>
      s.defaultRanges j.vf.toNat (BitVec.ofNat 64 (j.target k).1) (j.target k).2.1)) ++ s.completionRanges j

/-- MARKER_WRITE (R373 steps 3 to 5): once the job's thread has stopped and its commands are cancelled,
the markers, the completion word, and the node while it names the job. The lines it writes are waited for. -/
def execMarkerWrite (part : Nat) (job : BitVec 32) (s : State) : Host.Outcome State Fault Refusal :=
  match (s.part part).job? job with
  | none => .next s
  | some j =>
    if j.st ≠ .abandoned ∨ ¬ j.settling ∨ j.slot.isSome then .next s
    else
      let s1 := s.cancelCommands part job
      if s1.commandsOf part job ≠ [] then .next s1
      else
        let s2 := (s1.modPart part (fun p => p.leaveGroups (parkedNumber job))).endBarriers part
        let s3 :=
          if j.cause = 5#3 then s2
          else
            let a := s2.writeTarget j 0
            let b := a.2.writeTarget j 1
            b.2.writeCompletion j (a.1 || b.1)
        let s4 := s3.modJob part job (fun j => { j with settling := false, resume := none })
        .next (s1.whenFree none (s1.settleRanges j)
          ((s4.finishJobNode j.node job .cancelled 6).modPart part Part.retire))

end Sys2Proof.Machine
end

