-- ==== Sys2Proof/Machine/Slice.lean ====
section
/-!
DEFINITION. Slice routines (R251 to R262): the slice machine, verification, installation and calls.
-/

namespace Sys2Proof.Machine

open Sys2Proof

/-! ### The slice instruction set (R252) -/

def sliceOp (w : W32) : Nat := bitsAt 6 26 w.toNat
def sliceD (w : W32) : Nat := bitsAt 3 23 w.toNat
def sliceA (w : W32) : Nat := bitsAt 3 20 w.toNat
def sliceB (w : W32) : Nat := bitsAt 3 17 w.toNat
/-- imm16, signed. -/
def sliceImm (w : W32) : Int := sextN 16 w.toNat

/-- Fields an op uses: d, a, b, imm16; none for an illegal op. -/
def sliceUses (op : Nat) : Option (Bool × Bool × Bool × Bool) :=
  if 0x01 ≤ op ∧ op ≤ 0x04 then some (true, true, false, true)
  else if op = 0x05 ∨ op = 0x06 then some (false, true, true, true)
  else if op = 0x0A then some (true, true, false, true)
  else if (0x0E ≤ op ∧ op ≤ 0x10) ∨ op = 0x15 then some (true, true, true, true)
  else if (0x08 ≤ op ∧ op ≤ 0x0D) ∨ (0x11 ≤ op ∧ op ≤ 0x14) ∨ op = 0x16 ∨
      (0x18 ≤ op ∧ op ≤ 0x1A) then some (true, true, true, false)
  else if 0x20 ≤ op ∧ op ≤ 0x23 then some (false, true, true, true)
  else if op = 0x24 then some (false, false, false, true)
  else if op = 0x28 then some (false, true, false, false)
  else if op = 0x29 then some (false, false, false, true)
  else none

/-- A legal slice word (R252). -/
def sliceLegal (w : W32) : Bool :=
  match sliceUses (sliceOp w) with
  | none => false
  | some (d, a, b, i) =>
    let imm := w.toNat % 2 ^ 16
    !w.getLsbD 16 && (d || sliceD w == 0) && (a || sliceA w == 0) && (b || sliceB w == 0) &&
      (i || imm == 0) && (sliceOp w != 0x15 || decide (imm ≤ 5)) &&
      (sliceOp w != 0x29 || decide (16 ≤ imm ∧ imm ≤ 255))

/-- A conditional branch, and any branch (R252). -/
def sliceCond (op : Nat) : Bool := decide (0x20 ≤ op ∧ op ≤ 0x23)
def sliceBranch (op : Nat) : Bool := sliceCond op || op == 0x24
/-- RET or FAIL. -/
def sliceEnds (op : Nat) : Bool := op == 0x28 || op == 0x29

/-- Cost in fabric cycles (R252). -/
def sliceCost (op : Nat) : Nat :=
  if 0x01 ≤ op ∧ op ≤ 0x04 then 2 else if op = 0x18 then 4 else if op = 0x19 then 2 else 1

/-! ### The slice machine (R251) -/

/-- Registers x1 to x7, the working line, and whether a store has executed. -/
structure SliceSt where
  x : Table W64
  w : List Byte
  wrote : Bool
  deriving DecidableEq, Repr

def SliceSt.get (s : SliceSt) (r : Nat) : W64 := if r = 0 then 0 else tget 0 s.x r
def SliceSt.put (s : SliceSt) (r : Nat) (v : W64) : SliceSt :=
  if r = 0 then s else { s with x := tset 0 s.x r v }

/-- How a call ends (R261): a value, or a code with the failing word. -/
inductive SliceEnd where
  | ret (v : W64)
  | fail (code idx : Nat)
  deriving DecidableEq, Repr

/-- What an instruction does next. -/
inductive SliceNext where
  | go (i : Nat) (s : SliceSt)
  | done (e : SliceEnd)
  deriving DecidableEq, Repr

/-- Offset and range of a load or store of n bytes (R252). -/
def SliceSt.range (s : SliceSt) (w : W32) (n : Nat) : Option Nat :=
  let o := (s.get (sliceA w)).toInt + sliceImm w
  if 0 ≤ o ∧ o + n ≤ 128 ∧ o % n = 0 then some o.toNat else none

/-- The 64-bit results of the register operations (R252); `y` is x[b], `z` the old x[d]. -/
def sliceAlu (op : Nat) (imm : Int) (x y z : W64) : W64 :=
  let sh := ((y.toInt + imm) % 64).toNat
  let a := sextN 32 x.toNat
  let b := sextN 32 y.toNat
  if op = 0x08 then x + y
  else if op = 0x09 then x - y
  else if op = 0x0A then x + BitVec.ofInt 64 imm
  else if op = 0x0B then x &&& y
  else if op = 0x0C then x ||| y
  else if op = 0x0D then x ^^^ y
  else if op = 0x0E then x <<< sh
  else if op = 0x0F then x >>> sh
  else if op = 0x10 then x.sshiftRight sh
  else if op = 0x11 then x + y
  else if op = 0x12 then BitVec.ofInt 64 (satN 32 (a + b))
  else if op = 0x13 then BitVec.ofInt 64 (satN 32 (a - b))
  else if op = 0x14 then BitVec.ofInt 64 (satnN 32 ((x.toNat % 2 ^ 32 : Nat) + (y.toNat % 2 ^ 32 : Nat)))
  else if op = 0x15 then
    let c := if imm = 0 then decide (x = y) else if imm = 1 then decide (x ≠ y)
      else if imm = 2 then decide (x.toInt < y.toInt) else if imm = 3 then decide (y.toInt ≤ x.toInt)
      else if imm = 4 then decide (x.toNat < y.toNat) else decide (y.toNat ≤ x.toNat)
    if c then 1 else 0
  else if op = 0x16 then (if z ≠ 0#64 then x else y)
  else if op = 0x18 then BitVec.ofNat 64 (f32.add 0 (x.toNat % 2 ^ 32) (y.toNat % 2 ^ 32)).val
  else if op = 0x19 then BitVec.ofNat 64 (f32.minmax true (x.toNat % 2 ^ 32) (y.toNat % 2 ^ 32)).val
  else
    BitVec.ofNat 64 (lowN 16 (satN 16 (sextN 16 x.toNat + sextN 16 y.toNat)) +
      lowN 16 (satN 16 (sextN 16 (x.toNat / 2 ^ 16) + sextN 16 (y.toNat / 2 ^ 16))) * 2 ^ 16)

/-- One instruction at word i (R252, R253). -/
def SliceSt.step (s : SliceSt) (i : Nat) (w : W32) : SliceNext :=
  let op := sliceOp w
  let x := s.get (sliceA w)
  let y := s.get (sliceB w)
  if 0x01 ≤ op ∧ op ≤ 0x04 then
    let n := if op ≤ 0x02 then 4 else 2
    match s.range w n with
    | none => .done (.fail 1 i)
    | some o =>
      let v := leNat ((s.w.drop o).take n)
      let v' := if op = 0x01 ∨ op = 0x03 then BitVec.ofInt 64 (sextN (8 * n) v) else BitVec.ofNat 64 v
      .go (i + 1) (s.put (sliceD w) v')
  else if op = 0x05 ∨ op = 0x06 then
    let n := if op = 0x05 then 4 else 2
    match s.range w n with
    | none => .done (.fail 1 i)
    | some o =>
      .go (i + 1) { s with w := s.w.take o ++ leBytes n y.toNat ++ s.w.drop (o + n), wrote := true }
  else if op = 0x28 then .done (.ret x)
  else if op = 0x29 then .done (.fail (w.toNat % 256) i)
  else if sliceBranch op then
    let taken :=
      if op = 0x20 then decide (x = y) else if op = 0x21 then decide (x ≠ y)
      else if op = 0x22 then decide (x.toInt < y.toInt) else if op = 0x23 then decide (y.toInt ≤ x.toInt)
      else true
    .go (if taken then ((i : Int) + sliceImm w).toNat else i + 1) s
  else if op = 0x11 ∧ satN 64 (x.toInt + y.toInt) ≠ x.toInt + y.toInt then .done (.fail 2 i)
  else .go (i + 1) (s.put (sliceD w) (sliceAlu op (sliceImm w) x y (s.get (sliceD w))))

/-- Run from word i: every step of a verified routine moves forward, so `fuel` of its length is enough;
a call that leaves the routine fails with code 1 there. -/
def SliceSt.run (ws : List W32) (fuel i : Nat) (s : SliceSt) : SliceEnd × SliceSt :=
  match fuel with
  | 0 => (.fail 1 i, s)
  | fuel + 1 =>
    match ws[i]? with
    | none => (.fail 1 i, s)
    | some w =>
      match s.step i w with
      | .done e => (e, s)
      | .go j s' => SliceSt.run ws fuel j s'

/-! ### Calls (R258 to R261) -/

/-- The slot that a function's routine number names (R254); 64 is none. -/
def Vf.routine (f : Vf) (n : Nat) : Nat := tget 64 f.rmap n

/-- Run a routine on the line of a place (R260, R261): how it ends, whether it stored, and the state at
the line's release. -/
def State.callSlice (s : State) (part slot : Nat) (p : Phys) (a b : W64) : SliceEnd × Bool × State :=
  let base := p.loc / 128 * 128
  let ws := (tget Routine.reset (s.part part).routines slot).words
  let st : SliceSt :=
    { x := tset 0 (tset 0 (tset 0 [] 1 a) 2 b) 3 (BitVec.ofNat 64 (p.loc % 128))
      w := (List.range 128).map (fun k => s.homeByteFor p.owner (base + k))
      wrote := false }
  let r := SliceSt.run ws ws.length 0 st
  let s1 := (s.dropDcache none base).dropDcache none (base + 64)
  (r.1, r.2.wrote,
    if r.2.wrote then s1.storeHome p.kid none (fun _ => .age 0) (writesOf base r.2.w)
    else s1.touch [base / 128] p.kid (fun _ => .age 0) false)

/-- The line of a place. -/
def Phys.line (p : Phys) : Phys := { p with loc := p.loc / 128 * 128 }

/-- eval of SLICEERR (R261). -/
def sliceVal (code idx : Nat) (wrote : Bool) (n elem : Nat) : W64 :=
  BitVec.ofNat 64 (code + idx * 2 ^ 8 + (if wrote then 2 ^ 13 else 0) + n * 2 ^ 16 + elem * 2 ^ 20)

/-- N of a call word; a set bit above it traps ILLOP (R258). -/
def callNumber (x : W64) : M Nat := do
  need (decide (x.toNat < 16))
  pure x.toNat

/-- The slot of N, or SLICEERR with code 3 (R258 step 1). -/
def callSlot (n : Nat) : M Nat := do
  let s ← get
  let slot := (s.vf s.th.id.vf.toNat).routine n
  if slot = 64 then trap Cause.sliceerr (sliceVal 3 0 false n 0)
  pure slot

/-- Check the locks over the whole line of a call address, in the tables and at its home (R94, R247, R258 step
3). -/
def checkLine (va : W64) : M Unit := do
  let s ← get
  let base := BitVec.ofNat 64 (va.toNat / 128 * 128)
  match s.lockHitVa base 128 true with
  | some l => throw (.trap (rlockTrap va (if l.window.isSome then 0xFFFF#16 else l.node)))
  | none => if s.homeLocked .store base 128 then throw (.trap (rlockTrap va 0xFFFF#16))

/-- Check windows over the whole line of a call (R247, R258 step 3). -/
def checkLineHome (va : W64) (p : Phys) : M Unit := checkHome va p.line 128

/-- Before calls are performed (R258 step 4): their lines wait for what holds them, the host's copies are
called back, and a poisoned line or a MAC failure stops the function. -/
def holdLines (as : List (W64 × Phys)) : M Unit := do
  homeWaits (as.map (fun a => (a.2.line, 128)))
  claimAll 128 (as.map (fun a => (a.1, a.2.line)))

/-- RCALL (R258). -/
def execRcall (d a b : BitVec 5) (s : State) : Host.Outcome State Fault Refusal :=
  let va := s.rd a
  s.conclude (do
    need (a != 31)
    let n ← callNumber (s.rd (a + 1))
    let slot ← callSlot n
    drainBuffer
    checkLine va
    let p ← translateAtomic va 1
    if !isDevice p.loc then trap Cause.perm va
    checkLineHome va p
    holdLines [(va, p)]
    let u ← get
    let r := u.callSlice u.curPart slot p (s.rd d) (s.rd b)
    set r.2.2
    match r.1 with
    | .ret v => modify (fun u => u.wr d v)
    | .fail code idx =>
      throw (.trap { plainTrap Cause.sliceerr (sliceVal code idx r.2.1 n 0) with next := true }))

/-- The calls of RCALLV in ascending element order: results are written, failures are gathered as
element, code, word and WROTE (R259, R261). -/
def callAll (slot d gm : Nat) : List (Nat × W64 × Phys) → M (List (Nat × Nat × Nat × Bool))
  | [] => pure []
  | x :: rest => do
    let u ← get
    let r := u.callSlice u.curPart slot x.2.2 (BitVec.ofNat 64 (u.elemOf gm 64 d x.1))
      (BitVec.ofNat 64 (u.elemOf gm 64 (d + gm) x.1))
    set r.2.2
    let mine : List (Nat × Nat × Nat × Bool) := match r.1 with
      | .ret _ => []
      | .fail code idx => [(x.1, code, idx, r.2.1)]
    match r.1 with
    | .ret v => modify (fun u => u.putElemOf gm 64 d x.1 v.toNat)
    | .fail _ _ => pure ()
    let more ← callAll slot d gm rest
    pure (mine ++ more)

/-- RCALLV (R259). -/
def execRcallv (d a b p : BitVec 5) (s : State) : Host.Outcome State Fault Refusal :=
  s.conclude (do
    let t ← vectorChecks [d, b] (fun t => t.isIn [0, 1] && decide (t.sewE = 3))
    need (decide (d.toNat + 2 * t.gm ≤ t.nreg) && a != 31)
    let n ← callNumber (s.rd (a + 1))
    let as := s.elemAddrs (s.rd a) p (s.indexOff b)
    if !as.isEmpty then
      let slot ← callSlot n
      for x in as do checkLine x.2
      let r ← translateAtomicsChecked checkLineHome as
      let host := (r.ok.filter (fun x => !isDevice x.2.2.loc)).map (fun x => (x.1, x.2.1, XFault.perm))
      let bad := sortBy (fun x y => decide (x.1 ≤ y.1)) (r.bad ++ host)
      if !bad.isEmpty then faultTrap (bad.map (fun f => (f.2.1, .store, f.2.2)))
      drainBuffer
      let now := (← get).performed r.ok
      holdLines (now.map (·.2))
      let fails ← callAll slot d.toNat t.gm now
      match fails with
      | [] => pure ()
      | (e, code, idx, wrote) :: _ =>
        modify (fun u => u.setPred 95 (maskOf (fails.map (·.1))))
        throw (.trap { plainTrap Cause.sliceerr (sliceVal code idx wrote n e) with
          next := true, pfw := true }))

/-! ### Installation (R255 to R257) -/

/-- S mode only (R255). -/
def needSupervisor : M Unit := do if (← get).th.sc.mode ≠ .S then privTrap

/-- The greatest cost of a path from word i to a RET or FAIL (R256). -/
def pathCost (ws : List W32) (fuel i : Nat) : Nat :=
  match fuel with
  | 0 => 0
  | fuel + 1 =>
    match ws[i]? with
    | none => 0
    | some w =>
      let op := sliceOp w
      let target := ((i : Int) + sliceImm w).toNat
      let rest :=
        if sliceEnds op then 0
        else if op = 0x24 then pathCost ws fuel target
        else if sliceCond op then max (pathCost ws fuel target) (pathCost ws fuel (i + 1))
        else pathCost ws fuel (i + 1)
      sliceCost op + rest

/-- The first word at which a check fails. -/
def firstWord (ws : List W32) (f : Nat → W32 → Bool) : Option Nat :=
  firstBelow ws.length (fun i => match ws[i]? with | some w => f i w | none => false)

/-- Verification in the order of R256: the failing code with IDX, or none; and COST. -/
def verifyImage (ws : List W32) : Option (Nat × Nat) × Nat :=
  match firstWord ws (fun _ w => !sliceLegal w) with
  | some i => (some (3, i), 0)
  | none =>
    match firstWord ws (fun i w => sliceBranch (sliceOp w) &&
        decide (sliceImm w < 1 ∨ (ws.length : Int) ≤ i + sliceImm w)) with
    | some i => (some (4, i), 0)
    | none =>
      if !(match ws.getLast? with | some w => sliceEnds (sliceOp w) | none => false) then
        (some (5, ws.length - 1), 0)
      else
        let c := pathCost ws ws.length 0
        (if 96 < c then some (6, 0) else none, min c 127)

/-- Slots that a function holds: USED of SLRLIM (R254). -/
def Part.slotsUsed (p : Part) (vf : BitVec 9) : Nat :=
  (p.routines.filter (fun e => e.2.words ≠ [] && e.2.vf == vf)).length

/-- The lowest free routine slot (R254). -/
def Part.freeSlot (p : Part) : Option Nat :=
  firstBelow 64 (fun n => (tget Routine.reset p.routines n).words == [])

/-- Install a verified image (R256); a replaced slot has no running call and is free at once. -/
def State.install (s : State) (vf : BitVec 9) (n slot : Nat) (ws : List W32) : State :=
  let old := (s.vf vf.toNat).routine n
  let s1 := s.modPart s.curPart (fun p =>
    let rs := if old = 64 then p.routines else tset Routine.reset p.routines old Routine.reset
    { p with routines := tset Routine.reset rs slot { vf := vf, words := ws, draining := false } })
  s1.modVf vf.toNat (fun f => { f with rmap := tset 64 f.rmap n slot })

/-- RINST (R256). -/
def execRinst (d a b : BitVec 5) (s : State) : Host.Outcome State Fault Refusal :=
  let x := (s.rd b).toNat
  let n := x % 16
  let len := bitsAt 5 8 x + 1
  s.conclude (do
    needSupervisor
    need (decide (bitsAt 3 5 x = 0 ∧ x < 2 ^ 13))
    let bs ← loadWide (s.rd a) (4 * len) 128
    let ws := (List.range len).map (fun i => BitVec.ofNat 32 (leNat ((bs.drop (4 * i)).take 4)))
    let v := verifyImage ws
    let u ← get
    let vf := u.th.id.vf
    let p := u.part u.curPart
    let word := fun (code slot idx : Nat) =>
      BitVec.ofNat 64 (code + slot * 2 ^ 8 + v.2 * 2 ^ 16 + idx * 2 ^ 24)
    match v.1 with
    | some (code, idx) => modify (fun u => u.wr d (word code 0 idx))
    | none =>
      if (u.vf vf.toNat).routine n ≠ 64 ∧ ¬ x.testBit 4 then modify (fun u => u.wr d (word 1 0 0))
      else
        match p.freeSlot with
        | none => modify (fun u => u.wr d (word 2 0 0))
        | some slot =>
          if (u.vf vf.toNat).slrMax.toNat ≤ p.slotsUsed vf then
            modify (fun u => u.wr d (word 2 0 0))
          else modify (fun u => (u.install vf n slot ws).wr d (word 0 slot 0)))

/-- RFREE (R257). -/
def execRfree (d b : BitVec 5) (s : State) : Host.Outcome State Fault Refusal :=
  let x := (s.rd b).toNat
  s.conclude (do
    needSupervisor
    need (decide (x < 16))
    modify (fun u =>
      let vf := u.th.id.vf.toNat
      let slot := (u.vf vf).routine x
      if slot = 64 then u.wr d 1
      else
        ((u.modVf vf (fun f => { f with rmap := tset 64 f.rmap x 64 })).modPart u.curPart
          (fun p => { p with routines := tset Routine.reset p.routines slot Routine.reset })).wr d 0))

end Sys2Proof.Machine
end

