-- ==== Sys2Proof/Machine/EvStop.lean ====
section
/-!
DEFINITION. Stops from outside (R250, R292, R293, R368, R373, R397, R398), writes of a thread's CSRs and
of RTCTL (R74, R107, R287, R411), illegal words (R144), fetch faults (R148), calls of a slice (R260).
-/

namespace Sys2Proof.Machine

open Sys2Proof

/-! ### Requests -/

/-- PREEMPT_TIMEOUT (R368 step 2): the victim's slot is not free 0.4 µs after it was chosen. As for the
other timeouts, a context on the SC counts toward none (R398). -/
def execPreemptTimeout (slot : Nat) (s : State) : Host.Outcome State Fault Refusal :=
  .next (if (s.thread slot).hw.victim && !(s.thread slot).hw.mig then s.askForced slot 2 else s)

/-- HANDLER_TIMEOUT (R368 step 3): the FORCED handler of a victim has not reached HALT. -/
def execHandlerTimeout (slot : Nat) (s : State) : Host.Outcome State Fault Refusal :=
  let t := s.thread slot
  .next (if t.hw.occ && t.hw.forced2 && !t.hw.parked && !t.hw.mig then s.abandon t.id.part.toNat t.id.job 6 else s)

/-- YIELD_TIMEOUT (R292): a yield or a reclaim has met no SETVL for 5 µs. -/
def execYieldTimeout (slot : Nat) (s : State) : Host.Outcome State Fault Refusal :=
  let t := s.thread slot
  .next (if !t.hw.mig && (t.held.yreq || decide (t.held.cap.toNat < t.held.count)) then
    s.askForced slot 1 else s)

/-- WINDOW_WAIT_EXPIRY (R250): the stop waits no longer, and the window is discarded. -/
def execWindowWaitExpiry (slot : Nat) (s : State) : Host.Outcome State Fault Refusal :=
  .next (if (s.thread slot).hw.stops.any waitsForWindow && !(s.thread slot).hw.mig then s.dropWindow slot true else s)

/-- The occupied slots. -/
def State.occupied (s : State) : List Nat :=
  (s.cur :: s.slots.map (·.1)).filter (fun n => (s.thread n).hw.occ)

/-- BRIDGE_ERROR (R293): every span with its partner on a die ends. -/
def execBridgeError (die : Nat) (s : State) : Host.Outcome State Fault Refusal :=
  .next (s.occupied.foldl (fun u n => u.modThread n (fun t =>
    if t.held.remote ≠ 0#4 ∧ dieOfTile (tileOfVc t.held.pvc.toNat) = die ∧
        ¬ t.hw.stops.contains .abandon ∧ ¬ t.hw.stops.contains (.spanLost t.held.pvc) then
      { t with hw := { t.hw with stops := t.hw.stops ++ [.spanLost t.held.pvc] } }
    else t)) s)

/-! ### Landing at a boundary (R397, R398) -/

/-- Progress that a stop records: VPART, MPART and PFW (R399, R400). -/
structure Progress where
  vpart : Bool
  mpart : Bool
  pfw : Bool
  deriving DecidableEq, Repr

/-- A stop at a boundary records none. -/
def Progress.none : Progress := { vpart := false, mpart := false, pfw := false }

/-- A trap of a slot where a stop lands; members in flight end stopped (R437). -/
def State.trapAt (s : State) (slot : Nat) (t : TrapInfo) (g : Progress) : State :=
  (s.markFlights slot 4).onSlot slot (fun u =>
    ((u.takeTrapWith { t with pfw := g.pfw } g.vpart g.mpart).modHw
      (fun h => { h with cut := [] })).modCv (fun _ => Convoy.single))

/-- FORCED lands (R393, R398, R413): a window is discarded; a debug halt goes before a STEP (R434). -/
def State.landForced (s : State) (slot : Nat) (why : BitVec 2) (g : Progress) : State :=
  let s1 := if why = 3 then s.modThread slot Thread.holdStep else s
  ((s1.dropWindow slot true).trapAt slot (plainTrap Cause.forced (why.setWidth 64)) g).modThread
    slot (fun t => { t with hw := { t.hw with
      stops := t.hw.stops.erase (.forced why)
      forced2 := t.hw.forced2 || why == 2
      dbHalt := if why = 3 then false else t.hw.dbHalt } })

/-- What is left of a register when its remote groups are lost (R100, R293): the beats of its l local groups,
out of l + r, in the striping that these alone give it. -/
def localBeats (nreg l r : Nat) (x : BitVec 131072) : BitVec 131072 :=
  BitVec.ofNat 131072 ((List.range (l * 256 / nreg)).foldl (fun a b =>
    a + bitsAt 512 (512 * (b / l * (l + r) + b % l)) x.toNat * 2 ^ (512 * b)) 0)

/-- SPANLOST lands (R293): the remote groups and the partner slot are released, and the remote halves of all
vector registers are lost. -/
def State.landSpanLost (s : State) (slot : Nat) (vc : BitVec 9) (g : Progress) : State :=
  let s1 := match (s.thread slot).partnerSlot slot with
    | some q => s.modThread q Thread.emptied
    | none => s
  let s2 := s1.onSlot slot (fun u =>
    let l := popN 4 u.th.held.loc.toNat
    let r := popN 4 u.th.held.remote.toNat
    (u.modVec (fun v => { v with v := v.v.map (fun e => (e.1, localBeats u.vt.nreg l r e.2)) })).modHeld
      (fun h => { h with remote := 0, pvc := 0 }))
  (s2.trapAt slot (plainTrap Cause.spanlost (vc.setWidth 64)) g).modThread slot
    (fun t => { t with hw := { t.hw with stops := t.hw.stops.erase (.spanLost vc) } })

/-- Abandonment lands (R373 steps 2 and 3): trains already sent are acknowledged first; retired stores are
performed, once their lines can be written; then the context is discarded. -/
def State.landAbandon (s : State) (slot : Nat) : State :=
  let t := s.thread slot
  if t.hw.trains ≠ [] then s
  else if s.bufHeld slot t.hw.buf then s.callBackBuf t.hw.buf
  else
    let part := t.id.part.toNat
    (((t.hw.buf.foldl State.performEntry s).emptySlot slot true).modJob part t.id.job
      (fun j => { j with slot := none })).cancelCommands part t.id.job

/-- A request lands. -/
def State.land (s : State) (slot : Nat) (r : StopReq) (g : Progress) : State :=
  match r with
  | .abandon => s.landAbandon slot
  | .forced why => s.landForced slot why g
  | .spanLost vc => s.landSpanLost slot vc g

/-- A matrix instruction in flight completes before a stop lands (R398). -/
def State.landFirst (s : State) (slot : Nat) (f : StopReq → Bool) : State :=
  let s1 := s.arrayDone slot
  match (s1.thread slot).landing with
  | some r => if f r then (s1.modCv (fun _ => Convoy.single)).land slot r Progress.none else s
  | none => s

/-- FORCED_STOP (R398): a FORCED, debug-halt or SPANLOST request lands at the boundary where the thread
stands. -/
def execForcedStop (slot : Nat) (s : State) : Host.Outcome State Fault Refusal :=
  .next (s.landFirst slot (fun r => r != .abandon))

/-- ABANDON_STOP (R373). -/
def execAbandonStop (slot : Nat) (s : State) : Host.Outcome State Fault Refusal :=
  .next (s.landFirst slot (fun r => r == .abandon))

/-- PART_WAY_STOP (R398, R399): the convoy in flight is to stop part-way, each held group at its mark (a
matrix instruction at step and row, R233); step performs it so, and the stop lands there. -/
def execPartWayStop (slot : Nat) (marks : List Nat) (s : State) : Host.Outcome State Fault Refusal :=
  let h := (s.thread slot).hw
  .next (if h.occ && !h.mig && h.stops != [] && h.wait != some .array && h.append.isNone then
    s.modThread slot (fun t => { t with hw := { t.hw with cut := marks } })
    else s)

/-! ### CSR writes of a slot -/

/-- Chain and NAP waits see a change of CAP or YREQ (R287, R319). -/
def State.grantChanged (s : State) (slot : Nat) : State :=
  s.endWait slot (fun w =>
    match w with
    | .chain _ _ cap yreq _ =>
      let h := (s.thread slot).held
      decide (h.cap ≠ cap ∨ h.yreq ≠ yreq)
    | .nap => (s.thread slot).held.yreq
    | _ => false)

/-- AOWN_WRITE (R74, R238): a CSR write of an owner by an L-mode context. -/
def execAownWrite (slot : Nat) (tile : BitVec 4) (data : W64) (s : State) :
    Host.Outcome State Fault Refusal :=
  let t := s.thread slot
  .next (if t.hw.occ && t.sc.mode == .L && !s.tileBusy slot tile then
    s.modVc (vcOf slot) (fun v => v.setOwner tile.toNat (data.setWidth 16) t.id.vf)
    else s)

/-- ACFG_WRITE (R72, R107). -/
def execAcfgWrite (slot : Nat) (data : W64) (s : State) : Host.Outcome State Fault Refusal :=
  .next (s.modThread slot (fun t =>
    if t.hw.occ ∧ t.sc.mode = .S then { t with fl := t.fl.writeAcfg data.toNat } else t))

/-- VGCAP_WRITE (R105, R287): CAP and YREQ. -/
def execVgcapWrite (slot : Nat) (data : W64) (s : State) : Host.Outcome State Fault Refusal :=
  let s1 := s.modThread slot (fun t =>
    if t.hw.occ ∧ t.sc.mode = .S then { t with held := t.held.write data.toNat } else t)
  .next (s1.grantChanged slot)

/-- RTCTL_WRITE (R411): CAP falls to at most the value written, YREQ is set. -/
def execRtctlWrite (slot : Nat) (data : W64) (s : State) : Host.Outcome State Fault Refusal :=
  let x := data.toNat
  let s1 := s.modThread slot (fun t =>
    if t.hw.occ then
      { t with held := { t.held with
          cap := if 1 ≤ x % 16 ∧ x % 16 ≤ 8 then BitVec.ofNat 4 (min t.held.cap.toNat (x % 16))
                 else t.held.cap
          yreq := t.held.yreq || x.testBit 8 } }
    else t)
  .next (s1.grantChanged slot)

/-! ### Words that do not run -/

/-- The current thread may run: its slot holds a context that is not parked, and, on the SC, it is
the first in the queue of its tile that is not waiting in NAP (R281, R321, R404). -/
def State.canRun (s : State) : Bool :=
  s.th.hw.occ && !s.th.hw.parked &&
    (!s.th.hw.mig ||
      ((s.tile s.curTile).scQueue.find? (fun n =>
        let t := s.thread n
        !(t.hw.wait == some .nap && t.hw.wake == 0#8 && !t.held.yreq))) == some s.cur)

/-- ILLEGAL_WORD (R144, R148 step 3): the current thread executes a word that is illegal. -/
def execIllegalWord (word : BitVec 32) (s : State) : Host.Outcome State Fault Refusal :=
  .next (if s.canRun then
    (s.modCv (fun _ => Convoy.single)).trapAt s.cur (plainTrap Cause.illop (word.setWidth 64))
      Progress.none else s)

/-- FETCH_FAULT (R148 step 1): the block of the current thread's convoy head does not translate. -/
def execFetchFault (va : W64) (s : State) : Host.Outcome State Fault Refusal :=
  if s.canRun ∧ s.th.hw.append.isNone ∧ va.toNat / 64 = s.th.sc.pc.toNat / 64 then
    match s.walk s.ctx .fetch s.th.sc.pc with
    | .ok _ => .next s
    | .error f =>
      .next (((s.modCv (fun _ => Convoy.single)).fetchTrap (.fault s.th.sc.pc f)).modCv
        (fun _ => Convoy.single))
  else .next s

/-! ### A call at a slice -/

/-- A valid entry of a function's stage-2 array through which it may write a device location. -/
def State.writeEntry (s : State) (vf loc : Nat) : Option (BitVec 64) :=
  (s.mem.st2.find? (fun e => decide (e.1 / 2 ^ 19 = vf) && e.2.getLsbD 0 && !st2Home e.2 &&
    permits e.2.toNat 1 .load && permits e.2.toNat 1 .store && !s.keyRefused e.2 &&
    decide ((s.st2Phys e.2 0).loc = loc / 2 ^ 21 * 2 ^ 21))).map (·.2)

/-- SLICE_CALL (R260, R261, R262): routine n of a function runs on the line of a device location that the
function may write. The line is waited for, as is room for a pending one (R276); a poisoned one fails the function (R75). -/
def execSliceCall (vf n loc : Nat) (opA opB : W64) (s : State) : Host.Outcome State Fault Refusal :=
  let slot := (s.vf vf).routine n
  let part := (s.vf vf).part.toNat
  match s.writeEntry vf loc with
  | none => .next s
  | some e =>
    let p := s.st2Phys e (loc % 2 ^ 21)
    let line := p.line.loc
    if slot = 64 ∨ ¬ isDevice loc ∨ ¬ s.decoded loc then .next s
    else if s.writeHeld none line 128 then .next (s.callBack [(line, 128)])
    else if s.noRoom [p] then .next s
    else
      let s1 := s.claim line p.kid
      if s1.poisoned line 128 then .next (s1.macFailure [vf])
      else
        let r := s1.callSlice part slot p opA opB
        let res := match r.1 with
          | .ret v => (0, 0, r.2.1, v)
          | .fail code idx => (code, idx, r.2.1, 0#64)
        .next { r.2.2 with sliceRes := some res }

end Sys2Proof.Machine
end

