-- ==== Sys2Proof/Machine/EvHost.lean ====
section
/-!
DEFINITION. The host: submission and completion rings (R422 to R424), function reset (R429), page
responses (R425 to R427), proxied service calls (R428).
-/

namespace Sys2Proof.Machine

open Sys2Proof

/-! ### Entries (R422, R423) -/

/-- What the HC does with the entry at the head of a function's ring (R423): nothing during a reset (R429);
a poisoned word of the entry fails the function (R75); the entry waits while the line of its completion is
held. -/
def State.onEntry (s : State) (vf : Nat) (f : Nat → State) : State :=
  if (s.vf vf).resetting then s
  else if s.sqPoisoned vf then (s.reachSq vf).macFailure [vf]
  else if s.cqHeld vf then s.callBackCq vf
  else match s.sqEntry vf with | some x => f x | none => s

/-- The HC serves the next entry, when its OP is the given one (R423): a function answers STATUS, RESULT
and the state after. -/
def State.serve (s : State) (vf op : Nat) (f : Nat → State → Nat × Nat × State) :
    Host.Outcome State Fault Refusal :=
  .next (s.onEntry vf (fun x =>
    if !sqLegal x || sqOp x != op then s
    else
      let r := f x (s.takeSq vf)
      r.2.2.postCompletion vf (sqTag x) r.1 r.2.1))

/-- An entry with an unknown OP or a reserved field that is not zero (R422). -/
def execUnknownOpEntry (vf : Nat) (s : State) : Host.Outcome State Fault Refusal :=
  .next (s.onEntry vf (fun x =>
    if sqLegal x then s else (s.takeSq vf).postCompletion vf (sqTag x) 3 0))

/-- LAUNCH (R423, R370): a job with PARENT 0. A poisoned descriptor fails the function (R75). -/
def execLaunch (vf : Nat) (s : State) : Host.Outcome State Fault Refusal :=
  s.serve vf 1 (fun x t =>
    let gpa := bitsAt 64 64 x
    let part := (t.vf vf).part.toNat
    if gpa % 128 ≠ 0 then (1, 0, t)
    else
      match t.gpaPlaces vf .load gpa 128 with
      | none => (4, 0, t)
      | some ps =>
        let u := t.claimPlaces ps
        if t.placesPoisoned ps then (1, 0, u.macFailure [vf])
        else
          let d := t.placeBytes ps
          match u.jobRefusal part vf d with
          | some _ => (1, 0, u)
          | none =>
            let r := u.acceptJob part vf d 0 0xFFFF none
            (0, r.1.toNat, r.2))

/-- A range of GFNs of MAP and UNMAP keeps its stated range. -/
def gfnRange (x : Nat) : Option (List Nat) :=
  let g := bitsAt 19 64 x
  let n := bitsAt 10 128 x
  if 1 ≤ n ∧ n ≤ 512 ∧ g + n ≤ 2 ^ 19 then some ((List.range n).map (fun k => g + k)) else none

/-- Frames that the HC may draw for a function: free frames of its partition, in an order that nothing
fixes; a function's quota is the HC's own. -/
def State.drawable (s : State) (vf n : Nat) : Option (List Nat) :=
  let p := s.part (s.vf vf).part.toNat
  let fs := ((List.range (s.frameCount p)).map (fun k => p.table.base / 2 ^ 21 + k)).filter s.assignable
  if n ≤ fs.length ∧ Config.freeBit s.free then some ((fs.rotateLeft (Config.freeNat s.free)).take n)
  else none

/-- MAP (R423): frames are assigned under R31 and mapped with the permissions asked for. -/
def execMap (vf : Nat) (s : State) : Host.Outcome State Fault Refusal :=
  s.serve vf 2 (fun x t =>
    match gfnRange x with
    | none => (1, 0, t)
    | some gs =>
      if gs.any (fun g => t.st2Entry vf g != 0#64) then (1, 0, t)
      else
        match t.drawable vf gs.length with
        | none => (1, 0, t.bump)
        | some fs =>
          let kid := (t.vf vf).kid
          let e := fun (f : Nat) =>
            BitVec.ofNat 64 (1 + bitsAt 3 160 x * 2 + kid.toNat * 2 ^ 5 + f * 2 ^ 21)
          (0, 0, (gs.zip fs).foldl (fun u p => u.mapEntry vf p.1 (e p.2)) (t.bump.assignFrames fs kid)))

/-- UNMAP (R422): each entry is removed; the entry waits for accesses on their way. -/
def execUnmap (vf : Nat) (s : State) : Host.Outcome State Fault Refusal :=
  match (s.sqEntry vf).bind gfnRange with
  | some gs =>
    if gs.any (s.unmapWaits vf) then .next s
    else
      s.serve vf 3 (fun _ t =>
        if gs.any (fun g => !(t.st2Entry vf g).getLsbD 0) then (4, 0, t)
        else (0, 0, gs.foldl (fun u g => u.endUnmap vf g) t))
  | none => s.serve vf 3 (fun _ t => (1, 0, t))

/-- STATUS of a side of COPY that is refused when it is served (R417, R422): a GPA that is not mapped, or
host addresses outside the DMA windows. -/
def State.copySide (s : State) (vf : Nat) (host : Bool) (acc : Access) (a n : Nat) : Option Nat :=
  if host then (if s.inDma a n then none else some 1)
  else if (s.gpaPlaces vf acc a n).isSome then none else some 4

/-- The operands of a COPY entry (R422). -/
def ringCopyOf (x : Nat) : RingCopy :=
  { tag := BitVec.ofNat 16 (sqTag x), src := bitsAt 64 64 x, dst := bitsAt 64 128 x,
    srcHost := x.testBit 256, dstHost := x.testBit 257, len := bitsAt 33 192 x }

/-- The class-3 command of a COPY entry, on the copy engine of a tile (R423). -/
def State.ringCmd (s : State) (vf tile : Nat) (r : RingCopy) : Cmd :=
  { id := s.nextCmd, kind := .copy, encode := false, desc := [], node := 0xFFFF, cls := 3,
    vf := BitVec.ofNat 9 vf, asid := 0, root := 0, mode := .U, slot := 124 * tile, job := 0, cbase := 0,
    csize := 0, ring := some r, progress := 0, old := [], running := false, cancelled := false, predFailed := false,
    faulted := none }

/-- COPY (R423): a copy command of the function at class 3, in the queue of a copy engine of its partition
that has room; which one is free. The entry completes when the command ends. -/
def execCopy (vf : Nat) (s : State) : Host.Outcome State Fault Refusal :=
  .next (s.onEntry vf (fun x =>
    if !sqLegal x || sqOp x != 4 then s
    else
      let r := ringCopyOf x
      let refuse := fun (k : Nat) => (s.takeSq vf).postCompletion vf r.tag.toNat k 0
      if r.len = 0 ∨ 2 ^ 32 < r.len then refuse 1
      else
        match s.copySide vf r.srcHost .load r.src r.len, s.copySide vf r.dstHost .store r.dst r.len with
        | some k, _ => refuse k
        | _, some k => refuse k
        | none, none =>
          let es := (s.part (s.vf vf).part.toNat).table.tiles.filter (fun e =>
            decide ((s.queue e).length < queueCap e))
          match es[Config.freeNat s.free % max 1 es.length]? with
          | none => s
          | some e =>
            let t := (s.takeSq vf).bump
            t.enqueue e (t.ringCmd vf e r)))

/-- A watch window that a function may be given (R375). -/
def State.windowOk (s : State) (vf base count : Nat) : Bool :=
  let f := s.vf vf
  let same := decide (base = f.wsBase.toNat ∧ count = f.wsCount.toNat)
  decide (base + count ≤ 65536) &&
    s.vfs.all (fun e => e.1 == vf || decide (count = 0 ∨ e.2.wsCount = 0 ∨
      base + count ≤ e.2.wsBase.toNat ∨ e.2.wsBase.toNat + e.2.wsCount.toNat ≤ base)) &&
    (same || s.seqs.all (fun q => !(q.2.inuse &&
      decide (f.wsBase.toNat ≤ q.1 ∧ q.1 < f.wsBase.toNat + f.wsCount.toNat))))

/-- Write WSEQ, or refuse it with ERR set (R375). -/
def State.writeWseq (s : State) (vf base count : Nat) : State :=
  if s.windowOk vf base count then
    s.modVf vf (fun f =>
      { f with wsBase := BitVec.ofNat 16 base, wsCount := BitVec.ofNat 17 count, wsErr := false })
  else s.modVf vf (fun f => { f with wsErr := true })

/-- WLIST and WRC from their images (R375). -/
def Vf.writeWlist (f : Vf) (x : Nat) : Vf :=
  { f with logstr := BitVec.ofNat 4 x, lbase := BitVec.ofNat 58 (x / 64) }
def Vf.writeWrc (f : Vf) (x : Nat) : Vf := { f with rcbase := BitVec.ofNat 62 (x / 4) }

/-- WATCH (R423): the HC chooses the window's BASE, among those that R375 accepts. -/
def execWatch (vf : Nat) (s : State) : Host.Outcome State Fault Refusal :=
  s.serve vf 5 (fun x t =>
    let n := bitsAt 17 64 x
    let b := Config.freeNat t.free
    match firstBelow 65536 (fun k => t.windowOk vf ((b + k) % 65536) n) with
    | none => (1, 0, t.bump)
    | some k =>
      let base := (b + k) % 65536
      (0, base, (t.bump.writeWseq vf base n).modVf vf (fun f =>
        (f.writeWlist (bitsAt 64 128 x)).writeWrc (bitsAt 64 192 x))))

/-- NOTIFY (R422). -/
def execNotify (vf : Nat) (s : State) : Host.Outcome State Fault Refusal :=
  s.serve vf 6 (fun x t =>
    (0, (t.vf vf).wnote.toNat, t.modVf vf (fun f =>
      { f with wnote := f.wnote &&& ~~~ BitVec.ofNat 64 (bitsAt 64 64 x),
               notifyVec := BitVec.ofNat 16 (bitsAt 16 128 x) })))

/-- ATTEST (R431): the report is written into the buffer, which must hold it, once its lines can be
written. -/
def execAttest (vf : Nat) (s : State) : Host.Outcome State Fault Refusal :=
  let x := (s.sqEntry vf).getD 0
  let gpa := bitsAt 64 64 x
  let rep := Config.attestReport vf (s.vf vf).inc.toNat (leBytes 32 (bitsAt 256 256 x))
  let ps := s.gpaPlaces vf .store gpa rep.length
  let fits := decide (gpa % 64 = 0 ∧ rep.length ≤ bitsAt 32 128 x)
  if sqOp x = 7 && fits && s.placesHeld (ps.getD []) then
    .next (s.callBack ((ps.getD []).map (fun p => (p.1.loc, p.2))))
  else
    s.serve vf 7 (fun _ t =>
      if !fits then (1, 0, t)
      else
        match ps with
        | none => (4, 0, t)
        | some ps => (0, rep.length, t.writePlaces ps rep))

/-! ### Function reset (R429) -/

/-- The commands of a function are cancelled, whatever has become of their jobs (R89): a queued one at once,
a running one at its next boundary. A ring entry's command waits while its completion is held. -/
def State.cancelUnits (s : State) (vf : Nat) : State :=
  (s.engines.flatMap (fun e => e.2.filter (fun c => c.vf.toNat == vf))).foldl (fun t c =>
    if c.running then t.modCmd c.id (fun c => c.cancel false)
    else if t.ringBlocked c then t.callBackCq vf
    else t.endCmd c .cancelled 6) s

/-- The nodes that a function's threads have reserved and that no command holds are cancelled (R89, log entry
112). -/
def State.cancelReserved (s : State) (vf : Nat) : State :=
  (s.tiles.flatMap (fun t => (t.2.nodes.filter (fun n => n.2.st == .reserved && n.2.vf == vf)).map
    (fun n => BitVec.ofNat 16 (t.1 * 4096 + n.1)))).foldl (fun u id => u.finishNode id .cancelled 6) s

/-- Steps 1 and 2: every job is abandoned with cause 5, commands and nodes are cancelled. -/
def State.startReset (s : State) (vf : Nat) : State :=
  (((s.modVf vf (fun f => { f with resetting := true })).abandonAll vf).cancelUnits vf).cancelReserved vf

/-- Nothing of the function's jobs is left to stop (R373 steps 2 to 5). -/
def State.resetReady (s : State) (vf : Nat) : Bool :=
  (s.part (s.vf vf).part.toNat).jobs.all (fun e =>
    e.2.vf.toNat != vf || !e.2.live || (e.2.finished && !e.2.settling && e.2.slot.isNone)) &&
    !s.occupied.any (fun n => (s.thread n).id.vf.toNat == vf) &&
    !s.engines.any (fun e => e.2.any (fun c => c.vf.toNat == vf))

/-- Step 3: the posted entries complete with RESET, up to one whose completion waits for its line or for room in
the completion ring. The tag of an entry that cannot be read is free, and a poisoned one is a MAC failure of the
function too (R75); with the completion ring disabled an entry has no place to complete in (log entry 122). -/
def State.flushRing (s : State) (vf fuel : Nat) : State :=
  match fuel with
  | 0 => s
  | fuel + 1 =>
    if !(s.vf vf).sqPosted then s
    else if !ringOn (s.vf vf).cqLog then (s.takeSq vf).flushRing vf fuel
    else if s.cqHeld vf then s.callBackCq vf
    else if !s.cqSpare vf then s
    else
      match s.sqEntry vf with
      | some x => ((s.takeSq vf).postCompletion vf (sqTag x) 2 0).flushRing vf fuel
      | none =>
        let t := (s.takeSq vf).bump.postCompletion vf (Config.freeNat s.free % 2 ^ 16) 2 0
        (if s.sqPoisoned vf then t.macFailure [vf] else t).flushRing vf fuel

/-- Step 5: egress flows and ingest regions of the function. -/
def State.dropFronthaul (s : State) (vf : Nat) : State :=
  let s1 := (s.flows.filter (fun e => e.2.vf.toNat == vf)).foldl (fun t e => t.removeFlow e.1) s
  { s1 with tiles := s1.tiles.map (fun t => (t.1, { t.2 with
      ingest := t.2.ingest.map (fun r =>
        if r.2.vf.toNat = vf then (r.1, { r.2 with en := false }) else r) })) }

/-- The tiles that contexts of the function made their own are unowned (R74). -/
def State.dropOwners (s : State) (vf : Nat) : State :=
  (s.vcsOf (s.vf vf).part.toNat).foldl (fun u v => u.modVc v (fun c =>
    (c.aown.filter (fun e => decide ((tget 0 c.aownVf e.1).toNat = vf))).foldl
      (fun w e => w.setOwner e.1 0 0) c)) s

/-- Steps 4 and 6: the handle map, slice routines, watch sequences and WNOTE. -/
def State.clearUnits (s : State) (vf : Nat) : State :=
  let f := s.vf vf
  let s1 := s.modPart f.part.toNat (fun p =>
    { p with routines := p.routines.filter (fun r => r.2.vf.toNat != vf) })
  let s2 := { s1 with
    seqs := dropRange s1.seqs f.wsBase.toNat f.wsCount.toNat }
  s2.modVf vf (fun f => { f with handles := [], rmap := [], wnote := 0 })

/-- Entry `key` of the stage-2 arrays is being removed by MAPCMD (R44). -/
def State.removing (s : State) (key : Nat) : Bool :=
  s.hub.mcGo && decide (s.hub.mcVf.toNat * 2 ^ 19 + s.hub.mcGfn.toNat = key)

/-- Step 7: the valid entries of the function's stage-2 array are removed, each once the accesses through it
are done; the frames of its key that nothing maps any longer start their release (R31, R32). -/
def State.unmapFunction (s : State) (vf : Nat) : State :=
  let es := s.mem.st2.filter (fun e => decide (e.1 / 2 ^ 19 = vf) && !s.removing e.1)
  let s1 := es.foldl (fun t e =>
    let g := e.1 % 2 ^ 19
    if !e.2.getLsbD 0 then t.setSt2 vf g 0
    else if t.unmapWaits vf g then t else t.endUnmap vf g) s
  let s2 := s1.modVf vf (fun f => { f with pool := [] })
  s2.startRelease ((s2.mem.frames.filter (fun f =>
    (s.vf vf).uses f.2.kid.toNat && f.2.st == .assigned && f.2.maps == 0)).map (·.1))

/-- Frames under a function's key; a function that the tables do not name has no key. -/
def State.framesUnder (s : State) (vf : Nat) : List (Nat × Frame) :=
  s.mem.frames.filter (fun f => (s.vf vf).uses f.2.kid.toNat && f.2.st != .free)

/-- The RC installs a new key in the slot of a function of the tables (R34, R429 step 7). -/
def State.rekey (s : State) (vf : Nat) : State :=
  if (s.vf vf).part = 31#5 then s
  else
    let kid := (s.vf vf).kid.toNat
    s.modMem (fun m => { m with keyGen := tset 0 m.keyGen kid (tget 0 m.keyGen kid + 1) })

/-- The end of step 7, and step 8: the frames in release become FREE; once the function's array is empty and
no frame is under its key, the slot has a new key and the reset ends (R34, R429). -/
def State.endReset (s : State) (vf : Nat) : State :=
  let fs := ((s.framesUnder vf).filter (fun f => f.2.st == .releasing && s.sweepDone [f.1])).map (·.1)
  let s1 := fs.foldl State.freeFrame s
  if (s1.framesUnder vf).isEmpty && !s1.mem.st2.any (fun e => decide (e.1 / 2 ^ 19 = vf)) then
    (s1.rekey vf).modVf vf (fun f => { f with inc := f.inc + 1, failed := false, resetting := false })
  else s1

/-- FUNCTION_RESET (R429): the first event starts the reset; while it runs, the event takes it as far as
it can go, to its end once the function's threads and commands have stopped, its ring entries have
completed and the host's copies of its frames are back. -/
def execFunctionReset (vf : Nat) (s : State) : Host.Outcome State Fault Refusal :=
  if !(s.vf vf).resetting then .next (s.startReset vf)
  else if !s.resetReady vf then .next (s.cancelUnits vf)
  else
    let s1 := s.flushRing vf 4096
    if (s1.vf vf).sqPosted then .next s1
    else
      let s2 := ((((s1.cancelReserved vf).dropFronthaul vf).clearUnits vf).dropOwners vf)
      .next ((s2.unmapFunction vf).endReset vf)

/-! ### Page requests and service calls -/

/-- A response whose INC is stale is counted (R427, R428). -/
def State.countDrop (s : State) (vf : Nat) : State :=
  s.modVf vf (fun f => { f with drops := sat16 f.drops 1 })

/-- The HC has consumed a request (R426): RQHEAD advances while requests are posted (log entry 110). -/
def State.consumeRequest (s : State) (hdr : Nat) : State :=
  let head := s.peekNat (hdr + 8) 8
  if s.peekNat hdr 8 = head then s else s.poke (hdr + 8) 0 (leBytes 8 ((head + 1) % 2 ^ 64))

/-- PAGE_RESPONSE (R425 to R427): the request is consumed; the record, RSTAIL and the wake follow, unless
the record's INC is stale. A poisoned word of the header that it reads stops the function (R75). -/
def execPageResponse (part : Nat) (tag : BitVec 16) (inc status : BitVec 8) (slot : BitVec 16) (vf : Nat)
    (s : State) : Host.Outcome State Fault Refusal :=
  let p := s.part part
  let log := p.prqLog.toNat
  let hdr := scratchLoc p.prqTile.toNat (p.prqBase.toNat * 16)
  let stale := decide ((s.vf vf).inc ≠ inc)
  if log < 2 ∨ 10 < log then .next s
  else if s.poisoned hdr 16 || (!stale && s.poisoned (hdr + 16) 8) then .next (s.macFailure [vf])
  else
    let s0 := s.consumeRequest hdr
    if stale then .next (s0.countDrop vf)
    else
      let n := s.peekNat (hdr + 16) 8
      let rec' := leBytes 2 tag.toNat ++ leBytes 1 inc.toNat ++ leBytes 1 status.toNat ++
        leBytes 2 slot.toNat ++ leBytes 10 0
      let s1 := s0.poke (hdr + 64 + 2 ^ log * 32 + n % 2 ^ log * 16) 0 rec'
      .next ((s1.poke (hdr + 16) 0 (leBytes 8 ((n + 1) % 2 ^ 64))).wakeSlot (slot.toNat % 2048))

/-- PROXY_RESPONSE (R428): a stale response is dropped and counted. Another goes to the proxy ring, which
lies in host memory; the call may have opened a handle, which the map then relates to the host's (log entry
111). -/
def execProxyResponse (vf : Nat) (inc : BitVec 8) (s : State) : Host.Outcome State Fault Refusal :=
  .next (if (s.vf vf).inc ≠ inc then s.countDrop vf
    else
      let f := s.free
      let opened := if Config.freeBit f then [(Config.freeNat f, Config.freeNat (f + 1))] else []
      { s.modVf vf (fun f => { f with handles := f.handles ++ opened }) with free := f + 2 })

end Sys2Proof.Machine
end

