-- ==== Sys2Proof/Machine/EvOrder.lean ====
section
/-!
DEFINITION. Ordering events: store-buffer drains (R266, R267), trains (R177, R179), the host (R278, R279)
and the twin (R418, R419).
-/

namespace Sys2Proof.Machine

open Sys2Proof

/-! ### Store buffers -/

/-- The beats of a buffer, oldest first: the records of one beat go together (R171). -/
def beatGroups : List BufEntry → List (List BufEntry)
  | [] => []
  | e :: r =>
    match e.more, beatGroups r with
    | true, g :: gs => (e :: g) :: gs
    | _, gs => [e] :: gs

/-- All writes of a beat. -/
def beatWrites (g : List BufEntry) : List (Nat × Byte) := g.flatMap (·.writes)

/-- A beat has a location local to a slot (R263). -/
def State.drainLocal (s : State) (slot : Nat) (g : List BufEntry) : Bool :=
  (beatWrites g).any (fun w => s.dieOfLoc w.1 == some (dieOfTile (tileOf slot)))

/-- A beat is performed only after an earlier one: both have local locations (R266), they write one location (R264),
they are of one store instruction (R171), or the later one is a release (R268). -/
def State.keepsOrder (s : State) (slot : Nat) (x y : List BufEntry) : Bool :=
  (s.drainLocal slot x && s.drainLocal slot y) ||
    (beatWrites x).any (fun a => (beatWrites y).any (fun b => a.1 == b.1)) ||
    x.any (fun a => y.any (fun b => a.num == b.num)) || y.any (·.rel)

/-- The beats that may be performed next, with their numbers in the buffer. -/
def State.nextBeats (s : State) (slot : Nat) (gs : List (List BufEntry)) : List Nat :=
  (List.range gs.length).filter (fun i =>
    !(List.range i).any (fun j => s.keepsOrder slot (gs.getD j []) (gs.getD i [])))

/-- An entry of a slot's store buffer is performed at its home. Entries with local locations go in order; no order
is promised for the others, so a free choice decides which of them is next (R266, R267). It waits for the
host's copies, another slot's window lock, a migration and room for a pending line. -/
def execStoreBufferDrain (slot : Nat) (s : State) : Host.Outcome State Fault Refusal :=
  let gs := beatGroups (s.thread slot).hw.buf
  let next := s.nextBeats slot gs
  match next[Config.freeNat s.free % max 1 next.length]? with
  | none => .next s
  | some i =>
    let g := gs.getD i []
    if g.any (fun e => s.writesHeld (some slot) e.kid e.writes) then .next (s.callBackBuf g)
    else
      let s1 := if next.length = 1 then s else s.bump
      .next ((g.foldl State.performEntry s1).modThread slot (fun t =>
        { t with hw := { t.hw with buf := (gs.eraseIdx i).flatten } }))

/-! ### Trains -/

/-- Change the first train of a list that a test selects. -/
def modFirst (f : Train → Bool) (g : Train → Train) : List Train → List Train
  | [] => []
  | t :: r => if f t then g t :: r else t :: modFirst f g r

/-- The writes of a train's elements (R179). -/
def Train.writes (t : Train) : List (Nat × Byte) := t.elems.flatMap (fun x => writesOf x.1 x.2)

/-- A destination refuses an element: its address is not decoded (R7), it is a store to an enabled ingest
region (R62), or its key's function has failed (R29). -/
def State.elementRefused (s : State) (t : Train) (loc n : Nat) : Bool :=
  !s.decoded loc || s.ingestBarsAt t.vf .store loc n || (isDevice loc && s.kidFailed t.kid)

/-- Perform an element of a train as a store under the train's key, unless its destination refuses it (R179). -/
def State.performElem (s : State) (t : Train) (x : Nat × List Byte) : State :=
  if s.elementRefused t x.1 x.2.length then s
  else s.performEntry (BufEntry.plain (writesOf x.1 x.2) t.kid)

/-- Perform the elements of a train in order (R179). -/
def State.performTrain (s : State) (t : Train) : State := t.elems.foldl (fun u x => u.performElem t x) s

/-- Perform the elements of a train up to the first that waits at its home (R52, R247, R276, R278): those that are
left, and the state. -/
def State.performUntil (s : State) (t : Train) :
    List (Nat × List Byte) → List (Nat × List Byte) × State
  | [] => ([], s)
  | x :: r =>
    if s.writesHeld none t.kid (writesOf x.1 x.2) then (x :: r, s) else (s.performElem t x).performUntil t r

/-- The acknowledgement of a train carries an error: its count is wrong (R179), or an element is refused. -/
def State.trainFails (s : State) (t : Train) : Bool :=
  decide (t.count ≠ t.elems.length) || t.elems.any (fun x => s.elementRefused t x.1 x.2.length)

/-- A train reaches its destination (R179): trains of one slot to one destination go in order. An element waits at
its home for a window, also one of its own slot (R247), a migration, the host's copies and room for a pending line;
those before it are performed. A train that the twin refuses or that its port cannot deliver is answered with an
error (R419). -/
def execTrainArrival (slot : Nat) (dest : Dest) (s : State) : Host.Outcome State Fault Refusal :=
  let mine := fun (t : Train) => t.dest == dest && !t.arrived
  match (s.thread slot).hw.trains.find? mine with
  | none => .next s
  | some t =>
    let change := fun (u : State) (f : Train → Train) => u.modThread slot (fun h =>
      { h with hw := { h.hw with trains := modFirst mine f h.hw.trains } })
    let mark := fun (u : State) (err : Bool) => change u (fun t => { t with arrived := true, error := t.error || err })
    if s.writesHeld none t.kid t.writes then
      let r := s.performUntil t t.elems
      let gone := t.elems.take (t.elems.length - r.1.length)
      if r.1 = [] then .next (mark r.2 (s.trainFails t))
      else
        .next ((change r.2 (fun t =>
          { t with elems := r.1, count := t.count - gone.length,
                   error := t.error || gone.any (fun x => s.elementRefused t x.1 x.2.length) })).callBack
          (rangesOf (r.1.flatMap (fun x => writesOf x.1 x.2))))
    else if dest = .twin ∧ s.twinFails then .next (mark s.bump true)
    else .next (mark (s.performTrain t) (s.trainFails t))

/-- The lanes' counters fall by a train's elements (R177). -/
def lowerLanes (u : Table Nat) (lanes : List Nat) : Table Nat :=
  lanes.foldl (fun u l => tset 0 u l (tget 0 u l - 1)) u

/-- A train's acknowledgement reaches its slot (R177, R179); an error is kept, with the location of the
train's first element, for the thread's next PHEND or FENCE. -/
def execTrainAck (slot : Nat) (dest : Dest) (s : State) : Host.Outcome State Fault Refusal :=
  let back := fun (t : Train) => t.dest == dest && t.arrived
  match (s.thread slot).hw.trains.find? back with
  | none => .next s
  | some t =>
    .next (s.modThread slot (fun h =>
      { h with hw := { h.hw with
          trains := h.hw.trains.eraseP back
          unack := lowerLanes h.hw.unack t.lanes
          trainErr := if t.error then h.hw.trainErr ++ (t.elems.head?.map (·.1)).toList
                      else h.hw.trainErr } }))

/-! ### Host (R278, R279) -/

/-- The key identifier under which a device frame is assigned. -/
def State.kidOf (s : State) (loc : Nat) : Nat := (s.frame (loc / 2 ^ 21)).kid.toNat

/-- A line of device memory waits: another agent's window lock holds it, or its host copy is being called
back (R247, R278). -/
def State.hostWaits (s : State) (line : Nat) : Bool :=
  s.windowLine none (line * 128) 128 || s.mem.backInv.contains line

/-- The host may be given a line and write it: its frame is ASSIGNED and its key's function has not failed
(R29, R31). In sideshow service the host port has no CXL.mem (R443). -/
def State.hostMay (s : State) (line : Nat) : Bool :=
  let loc := line * 128
  s.hub.bootDone && (s.frame (loc / 2 ^ 21)).st == .assigned && !s.kidFailed (s.kidOf loc)

/-- What the host reads of a line (R29, R75): its bytes, or CXL poison; zeros where the frame is not ASSIGNED
(log entry 93). -/
def State.hostReply (s : State) (line : Nat) : Option (List Byte) :=
  let loc := line * 128
  if s.kidFailed (s.kidOf loc) then none
  else if (s.frame (loc / 2 ^ 21)).st ≠ .assigned then some (List.replicate 128 0)
  else if s.poisoned loc 128 then none
  else some (s.peek loc 128)

def State.answer (s : State) (r : Option (List Byte)) : State := s.modHub (fun h => { h with reply := r })

/-- The directory shows a line as held by the host (R279). -/
def State.giveHost (s : State) (line : Nat) : State :=
  s.modMem (fun m => { m with hostHeld := if m.hostHeld.contains line then m.hostHeld else m.hostHeld ++ [line] })

/-- A host read or write of a 128-byte line of device memory, at its home slice (R278). A read leaves the
line with the host, as its directory shows (R279). Reads allocate at age 0 and writes at age 2 (log entry
54); a line whose frame is not ASSIGNED reads as zeros and drops writes (log entry 93). A line that is
waited for is not reached yet, and sideshow service has no such access (R443). -/
def execHostAccess (write : Bool) (line : Nat) (data : List Byte) (s : State) :
    Host.Outcome State Fault Refusal :=
  let loc := line * 128
  let kid := s.kidOf loc
  if !s.hub.bootDone || !s.hub.hostUp || !isDevice loc || !s.decoded loc || s.hostWaits line then .next s
  else if !s.hostMay line then .next (if write then s else s.answer (s.hostReply line))
  else if write then
    .next (((writesOf loc (data.take 128)).foldl (fun t w =>
      (t.pokeByte w.1 false w.2).dropDcache none w.1) (s.claim loc kid)).touch [line] kid (fun _ => .age 2)
        true)
  else
    let s1 := (s.touch [line] kid (fun _ => .age 0) false)
    .next (if (s1.hostReply line).isSome then (s1.giveHost line).answer (s1.hostReply line)
      else s1.answer none)

/-- A host snoop is answered from the directory and the L2, without a wait (R279). The host may take the line
with it where it may hold the line, unless a window lock or a back-invalidation of its own holds it (R247,
R278; log entry 121). Sideshow service offers CXL.io alone (R443). -/
def execHostSnoop (line : Nat) (take : Bool) (s : State) : Host.Outcome State Fault Refusal :=
  let loc := line * 128
  if !s.hub.bootDone || !s.hub.hostUp || !isDevice loc || !s.decoded loc then .next s
  else
    let r := s.hostReply line
    let give := take && s.hostMay line && !s.hostWaits line && r.isSome
    .next ((if give then s.giveHost line else s).answer r)

/-- The host answers a back-invalidate snoop: it holds the line no longer (R278). -/
def execBackInvalidateResponse (line : Nat) (s : State) : Host.Outcome State Fault Refusal :=
  if s.mem.backInv.contains line then
    .next (s.modMem (fun m =>
      { m with backInv := m.backInv.filter (fun l => l != line)
               hostHeld := m.hostHeld.filter (fun l => l != line) }))
  else .next s

/-! ### Twin (R418, R419) -/

/-- The permissions an inbound access needs: an atomic both R and W (R306). -/
def inboundAccesses : Inbound → List Access
  | .load _ => [.load]
  | .store => [.store]
  | .atomic _ => [.load, .store]

/-- Bytes that an inbound access covers: an atomic's data holds its operand and, for CAS, the comparand. -/
def inboundSize (a : Inbound) (data : List Byte) : Nat :=
  match a with
  | .load n => n
  | .store => data.length
  | .atomic op => if op = 9#4 then data.length / 2 else data.length

/-- An inbound access is one that the twin performs: within one 2 MiB unit, an atomic of 4 or 8 aligned
bytes and an operation of R142. -/
def inboundLegal (a : Inbound) (gpa : Nat) (data : List Byte) : Bool :=
  let n := inboundSize a data
  decide (1 ≤ n ∧ gpa % 2 ^ 21 + n ≤ 2 ^ 21) &&
    (match a with | .atomic op => decide (op.toNat ≤ 9 ∧ (n = 4 ∨ n = 8) ∧ gpa % n = 0) | _ => true)

/-- An inbound access of the twin, as an access of INVF through its stage-2 array (R419): refused when the
entry is invalid, lacks a permission or has HOME = 1. Its lines allocate as those of a device access of its
kind (log entry 54), and it waits where such an access does. -/
def execTwinInbound (acc : Inbound) (gpa : BitVec 40) (data : List Byte) (s : State) :
    Host.Outcome State Fault Refusal :=
  let e := s.st2Entry s.hub.twInvf.toNat (gpa.toNat / 2 ^ 21)
  let p := s.st2Phys e gpa.toNat
  let n := inboundSize acc data
  let bs := data.take n
  let write := (inboundAccesses acc).contains Access.store
  if !s.hub.twEn || !s.hub.twUp || !e.getLsbD 0 || st2Home e || s.keyRefused e ||
      !(inboundAccesses acc).all (permits e.toNat 1) || !s.decoded p.loc || !inboundLegal acc gpa.toNat data then
    .next (s.answer none)
  else if s.windowLine none p.loc n ||
      (write && s.writesHeld none p.kid (writesOf p.loc (s.homeBytes p n))) then
    .next (if write then s.callBack [(p.loc, n)] else s)
  else
    let s1 := (runLines p.loc n).foldl (fun t l => t.claim (l * 128) p.kid) s
    if acc ≠ .store ∧ s1.poisoned p.loc n then .next ((s1.macFailure [s.hub.twInvf.toNat]).answer none)
    else
    match acc with
    | .store => .next (s.performEntry (BufEntry.plain (writesOf p.loc bs) p.kid))
    | .load _ =>
      .next ((s1.touch (runLines p.loc n) p.kid (fun _ => .age 0) false).answer (some (s1.homeBytes p n)))
    | .atomic op =>
      let old := leNat (s1.homeBytes p n)
      let new := amoNew op.toNat (8 * n) old (leNat bs) (leNat (data.drop n))
      .next ((s1.storeHome p.kid none (fun _ => .age 0) (writesOf p.loc (leBytes n new))).answer
        (some (leBytes n old)))

/-- The twin link trains and is keyed, or is lost (R418). A port that step 3 of bring-up has not keyed yet, or whose
keying failed, stays down (R441). -/
def execTwinLinkState (up : Bool) (s : State) : Host.Outcome State Fault Refusal :=
  .next (s.modHub (fun h => { h with
    twUp := up && Config.ideKeyed 1 && decide (3 < h.bootStep.toNat) }))

end Sys2Proof.Machine
end

