-- ==== Sys2Proof/Machine/EvPower.lean ====
section
/-!
DEFINITION. The watch window's write (R375), the power governor and temperature (R444 to R446), bring-up
(R441 to R443), the PTP servo (R342, R365).
-/

namespace Sys2Proof.Machine

open Sys2Proof

/-- A write of WSEQ (R375). -/
def execWseqWrite (vf : Nat) (data : W64) (s : State) : Host.Outcome State Fault Refusal :=
  .next (s.writeWseq vf (bitsAt 16 0 data.toNat) (bitsAt 17 16 data.toNat))

/-! ### Power (R444, R445) -/

/-- A cap within LO and HI. -/
def Hub.clampCap (h : Hub) (x : BitVec 10) : BitVec 10 :=
  if x.ult h.pwLo then h.pwLo else if h.pwHi.ult x then h.pwHi else x

/-- A write of PWRCAP (R444). -/
def execPwrcapWrite (data : W64) (s : State) : Host.Outcome State Fault Refusal :=
  let x := data.setWidth 10
  .next (s.modHub (fun h => { h with pwCap := h.clampCap x, pwClamp := h.clampCap x != x }))

/-- Write vgcap.PWR of every thread. -/
def State.setPower (s : State) (p : BitVec 4) : State :=
  s.occupied.foldl (fun u n => u.modThread n (fun t => { t with held := { t.held with pwr := p } }))
    (s.modHub (fun h => { h with pwPwr := p }))

/-- PWR after a sample (R445, R446): 1 during the thermal throttle; halved above the cap, doubled after
10 µs below 90% of it. -/
def Hub.nextPower (h : Hub) (draw : BitVec 10) (calm : Bool) : BitVec 4 :=
  if h.pwTrip then 1
  else if h.pwCap.ult draw then BitVec.ofNat 4 (max 1 (h.pwPwr.toNat / 2))
  else if calm && decide (draw.toNat * 10 < h.pwCap.toNat * 9) then
    BitVec.ofNat 4 (min 8 (2 * h.pwPwr.toNat))
  else h.pwPwr

/-- A sample among the latest four, and DRAW, their average over 1 µs (R445; log entry 124). -/
def Hub.sampled (h : Hub) (draw : BitVec 10) : Hub :=
  let l := draw :: h.pwDraws.take 3
  { h with pwDraws := l, pwDraw := BitVec.ofNat 10 ((l.foldl (fun n d => n + d.toNat) 0) / 4) }

/-- A sample of the governor, every 250 ns (R445). -/
def execGovernorSample (draw : BitVec 10) (calm : Bool) (s : State) : Host.Outcome State Fault Refusal :=
  .next ((s.modHub (fun h => h.sampled draw)).setPower (s.hub.nextPower draw calm))

/-- The hottest sensor's reading (R446): throttle at 105 °C until below 95 °C, every clock stopped at
115 °C. -/
def execThermalTrip (temp : BitVec 8) (s : State) : Host.Outcome State Fault Refusal :=
  let s1 := s.modHub (fun h => { h with therm := temp })
  if 115 ≤ temp.toNat then .next (s1.modHub (fun h => { h with clocksOff := true }))
  else if 105 ≤ temp.toNat then .next ((s1.modHub (fun h => { h with pwTrip := true })).setPower 1)
  else if temp.toNat < 95 then .next (s1.modHub (fun h => { h with pwTrip := false }))
  else .next s1

/-! ### Bring-up (R441 to R443) -/

/-- A bound on the power cap, within 250 W to 750 W (R444). -/
def powerBound (x : BitVec 10) : BitVec 10 := BitVec.ofNat 10 (max 250 (min 750 x.toNat))

/-- A list names units of the package, each once. -/
def namesOnce (l : List Nat) (count : Nat) : Bool :=
  decide (1 ≤ l.length ∧ l.eraseDups.length = l.length) && l.all (fun x => decide (x < count))

/-- The lists of a partition keep to R13, R23 and R56. -/
def tableSound (p : PartTable) : Bool :=
  namesOnce p.channels 64 && namesOnce p.slices 96 && namesOnce p.tiles 16 && decide (p.base % 2 ^ 21 = 0)

/-- Bytes of a partition's range (R23). -/
def tableBytes (p : PartTable) (fit : Fit) : Nat := p.channels.length * fit.channelBytes

/-- Two partitions share no channel, slice, tile or address (R13, R23, R56). -/
def tableApart (p q : PartTable) (fit : Fit) : Bool :=
  !p.channels.any q.channels.contains && !p.slices.any q.slices.contains &&
    !p.tiles.any q.tiles.contains &&
    decide (p.base + tableBytes p fit ≤ q.base ∨ q.base + tableBytes q fit ≤ p.base)

/-- A partition of the tables is created: it names no failed channel and no excluded VC (R441), and its lists
keep to the rules that bind the tables (log entry 113). -/
def partCreated (t : SignedTables) (e : Nat × PartTable) : Bool :=
  decide (e.1 < 20) && tableSound e.2 && e.2.channels.all (fun c => !t.failed.getLsbD c) &&
    !(t.excluded.any (fun v => e.2.tiles.contains (tileOfVc v))) &&
    t.parts.all (fun o => o.1 == e.1 || tableApart e.2 o.2 t.fit)

/-- The partitions and functions of the tables, after reset. -/
def tableParts (t : SignedTables) : Table Part :=
  (t.parts.filter (partCreated t)).foldl (fun u e =>
    tinsert u e.1 { Part.reset with exists_ := true, table := e.2 }) []

def tableVfs (t : SignedTables) : Table Vf :=
  (t.vfs.filter (fun e => (tableParts t).any (fun p => p.1 == e.2.part))).foldl (fun u e =>
    tset Vf.reset u e.1
      { Vf.reset with part := BitVec.ofNat 5 e.2.part, kid := BitVec.ofNat 9 e.2.kid,
                      root := e.2.root, asid := e.2.asid }) []

/-- The tables take effect (R441 step 6): DMA windows, power limits, egress limits, engines, the twin link, the
debug agents; the partitions and functions are made, to be in service from step 7 on. -/
def Hub.applyTables (h : Hub) (t : SignedTables) : Hub :=
  { h with
    dma := t.dma, pwLo := powerBound t.powerLo, pwHi := powerBound t.powerHi
    twEn := t.twinEn, twInvf := t.twinInvf, twAp := t.twinAp
    portMac := (List.range 8).foldl (fun u k => tset 0 u k (t.portMacs.getD k 0)) []
    portRate := (List.range 8).foldl (fun u k => tset 0 u k (t.portRates.getD k 0)) []
    tapOn := t.tap, tapReach := t.tapReach, hcReach := t.hcReach
    nextParts := tableParts t, nextVfs := tableVfs t }

/-- The stores that a slot's thread has retired, and the trains that it has sent, are performed (R373 step 2). -/
def State.settleSlot (s : State) (slot : Nat) : State :=
  let h := (s.thread slot).hw
  (h.trains.filter (fun t => !t.arrived)).foldl State.performTrain (h.buf.foldl State.performEntry s)

/-- A context of sideshow service leaves its slot, its job abandoned (R373 cause 5; log entry 125). -/
def State.stopContext (s : State) (slot : Nat) : State :=
  let part := (s.thread slot).id.part.toNat
  let job := (s.thread slot).id.job
  ((((s.settleSlot slot).abandon part job 5).emptySlot slot true).modJob part job
    (fun j => { j with slot := none })).cancelCommands part job

/-- VCs are excluded: their slots hold no context, nor do they hold a part of one that spans onto them (R442). -/
def State.excludeVcs (s : State) (bad : List Nat) : State :=
  let on := fun (n : Nat) => bad.contains (vcOf n) ||
    ((s.thread n).held.remote != 0 && bad.contains (s.thread n).held.pvc.toNat)
  bad.foldl (fun u n => u.modVc n (fun v => { v with excluded := true }))
    ((s.occupied.filter on).foldl State.stopContext s)

/-- The boot step in progress ends and the next one begins (R441): 1 the boot ROM, 2 the firmware's
verification, which if it fails leaves the device in sideshow (R430), 3 IDE on both ports, 4 the channels, 5 the
calderas (R442), 6 the tables. BRINGUP_COMPLETE is step 7. -/
def State.bootNext (s : State) : State :=
  let t := Config.tables
  let go := fun (u : State) => u.modHub (fun h => { h with bootStep := s.hub.bootStep + 1, bootErr := false })
  if s.hub.bootDone || s.hub.bootErr then s
  else
    match s.hub.bootStep.toNat with
    | 1 => go s
    | 2 => if Config.firmwareGood then go s else s.modHub (fun h => { h with bootErr := true })
    | 3 => go (s.modHub (fun h => { h with hostUp := Config.ideKeyed 0, twUp := Config.ideKeyed 1 }))
    | 4 => go (s.modHub (fun h => { h with chfail := t.failed }))
    | 5 =>
      let bad := t.excluded.eraseDups
      go ((s.excludeVcs bad).modHub (fun h => { h with nvcx := BitVec.ofNat 8 bad.length }))
    | 6 => go (s.modHub (fun h => h.applyTables t))
    | _ => s

/-- Power-on reset: the state after reset, sideshow service with the boot ROM's step in progress, from which
the RC's further steps follow (R441, `State.bootNext`). The schedule and the free-value counter are the model's
own. -/
def execPowerOnReset (s : State) : Host.Outcome State Fault Refusal :=
  .next { State.reset with sched := s.sched, free := s.free }

/-- Bring-up completes (R441 step 7, R443): sideshow jobs are stopped without markers, their retired stores and
sent trains performed; the L2 is cleared; the partitions and functions of the tables are in service. -/
def execBringupComplete (s : State) : Host.Outcome State Fault Refusal :=
  let t := Config.tables
  if s.hub.bootDone || s.hub.bootErr || s.hub.bootStep != 7 then .next s
  else
    let u := s.occupied.foldl State.settleSlot s
    .next { u with
      th := Thread.reset
      cur := 0
      slots := []
      vcs := (s.vcs.map (fun e => (e.1, { Vc.reset with excluded := e.2.excluded }))).filter
        (fun e => decide (e.2 ≠ Vc.reset))
      tiles := []
      parts := s.hub.nextParts
      vfs := s.hub.nextVfs
      seqs := []
      engines := []
      engPart := t.engines.foldl (fun u e => tset 31 u e.1 e.2) []
      mem := { Mem.reset with cells := u.mem.cells.filter (fun c => decide (scratchBase ≤ c.1)) }
      hub := { u.hub with bootDone := true, fit := t.fit, nextParts := [], nextVfs := [] } }

/-- The PTP servo steps the time base, forwards or backwards (R365). -/
def execPtpServoStep (time : Nat) (s : State) : Host.Outcome State Fault Refusal :=
  .next (s.modHub (fun h => { h with ptp := time }))

end Sys2Proof.Machine
end

