-- ==== Sys2Proof/Machine/EvRegs.lean ====
section
/-!
DEFINITION. The memory-mapped registers (R5 to R7): what a read gives, and REGISTER_WRITE, the write of a
register that has no row of its own, each by the agent that its chapter names. A read-only field, a reserved
bit, an address with no register and an agent that may not reach it are ignored.
-/

namespace Sys2Proof.Machine

open Sys2Proof

/-- Base of the memory-mapped registers (R7). -/
def regBase : Nat := 0xF000000000000

/-- FRAMECMD's RW fields (R34). Operations 1 to 3 are rows of their own; GO with any other sets STATUS. -/
def Hub.writeFramecmd (h : Hub) (x : Nat) : Hub :=
  let op := bitsAt 3 48 x
  if h.fcGo || (x.testBit 63 && decide (1 ≤ op ∧ op ≤ 3)) then h
  else
    { h with fcFrame := BitVec.ofNat 31 x, fcKid := BitVec.ofNat 9 (x / 2 ^ 31),
             fcCount := BitVec.ofNat 4 (x / 2 ^ 40), fcOp := BitVec.ofNat 3 op,
             fcStatus := if x.testBit 63 then (if op = 0 then 0 else 3) else h.fcStatus }

/-- MAPCMD's RW fields (R44), in the same way; every operation but none is a row of its own. -/
def Hub.writeMapcmd (h : Hub) (x : Nat) : Hub :=
  let op := bitsAt 2 28 x
  if h.mcGo || (x.testBit 63 && op != 0) then h
  else
    { h with mcGfn := BitVec.ofNat 19 x, mcVf := BitVec.ofNat 9 (x / 2 ^ 19), mcOp := BitVec.ofNat 2 op,
             mcStatus := if x.testBit 63 then 0 else h.mcStatus }

/-- MIGNQ (R53). -/
def Hub.writeMignq (h : Hub) (x : Nat) : Hub :=
  { h with nqBase := BitVec.ofNat 46 (x / 64), nqLog := BitVec.ofNat 4 (x / 2 ^ 52) }

/-- IRGEO, ignored while EN is 1 (R63). -/
def Ingest.writeGeo (r : Ingest) (x : Nat) : Ingest :=
  if r.en then r
  else { r with base := BitVec.ofNat 22 x, prbs := BitVec.ofNat 9 (x / 2 ^ 22),
                node := BitVec.ofNat 16 (x / 2 ^ 32), late := BitVec.ofNat 16 (x / 2 ^ 48) }

/-- FLQ, ignored while EN is 1 (R68). -/
def Flow.writeQueue (f : Flow) (x : Nat) : Flow :=
  if f.en then f
  else { f with tile := BitVec.ofNat 4 x, base := BitVec.ofNat 18 (x / 16),
                logn := BitVec.ofNat 4 (x / 2 ^ 22) }

/-- ENGBUD of a kind (R97). -/
def Vf.writeBudget (f : Vf) (kind x : Nat) : Vf :=
  { f with allow := (List.range 4).foldl (fun t c =>
      tset 0xFFFF#16 t (kind * 4 + c) (BitVec.ofNat 16 (x / 2 ^ (16 * c)))) f.allow }

/-- RMVF (R362). -/
def Vf.writeRights (f : Vf) (x : Nat) : Vf :=
  { f with w1 := BitVec.ofNat 8 x, w2 := BitVec.ofNat 8 (x / 2 ^ 8), w3 := BitVec.ofNat 8 (x / 2 ^ 16),
           c0 := x.testBit 24, maxJob := BitVec.ofNat 14 (x / 2 ^ 32) }

/-- TWINCFG (R418). -/
def Hub.writeTwin (h : Hub) (x : Nat) : Hub :=
  { h with twEn := x.testBit 0, twInvf := BitVec.ofNat 9 (x / 2 ^ 12), twAp := BitVec.ofNat 12 (x / 2 ^ 32) }

/-- TRG, FIRE aside (R440). -/
def Trigger.write (x : Nat) : Trigger :=
  { act := BitVec.ofNat 2 x, onbk := x.testBit 3, delay := BitVec.ofNat 16 (x / 16), men := x.testBit 20,
    maddr := BitVec.ofNat 42 (x / 2 ^ 22) }

/-- A write of TRG: FIRE fires the trigger now (R440). -/
def State.writeTrg (s : State) (part n x : Nat) : State :=
  let s1 := s.modPart part (fun p => { p with triggers := tset Trigger.reset p.triggers n (Trigger.write x) })
  if x.testBit 2 then s1.fireTrigger part n s.hub.ptp else s1

/-- A function's registers in BAR0 (R421); the doorbell is ignored during a reset (R429). CQHEAD is none: the guest
consumes the RESET completions by it. -/
def State.writeBar (s : State) (vf off x : Nat) : State :=
  let f := s.vf vf
  let busy := f.sqPosted
  let held := ringOn f.cqLog && f.cqTail != f.cqHead
  if off = 0x00 then
    if busy then s
    else s.modVf vf (fun f => { f with sqBase := BitVec.ofNat 34 (x / 64), sqLog := BitVec.ofNat 4 (x / 2 ^ 40) })
  else if off = 0x08 then
    if f.resetting then s else s.modVf vf (fun f => { f with sqTail := BitVec.ofNat 12 x })
  else if off = 0x10 then
    if held then s
    else s.modVf vf (fun f => { f with cqBase := BitVec.ofNat 34 (x / 64), cqLog := BitVec.ofNat 4 (x / 2 ^ 40) })
  else if off = 0x18 then s.modVf vf (fun f => { f with cqHead := BitVec.ofNat 12 x })
  else if off = 0x28 then
    let s1 := s.modVf vf (fun f => { f with frGo := x.testBit 0 })
    if x.testBit 0 ∧ ¬ f.resetting then s1.startReset vf else s1
  else s

/-- The registers of functions: an 8-byte register each (R254, R362), or one of 0x20 bytes (R97, R375). -/
def State.writeVfReg (s : State) (a x : Nat) : State :=
  if 0x300000 ≤ a ∧ a < 0x304000 then
    let v := (a - 0x300000) / 0x20
    let k := (a - 0x300000) % 0x20 / 8
    if v < 384 ∧ k < 3 then s.modVf v (fun f => f.writeBudget k x) else s
  else if 0x400000 ≤ a ∧ a < 0x400C00 then
    if x % 128 ≤ 64 then s.modVf ((a - 0x400000) / 8) (fun f => { f with slrMax := BitVec.ofNat 7 x }) else s
  else if 0x500000 ≤ a ∧ a < 0x500C00 then s.modVf ((a - 0x500000) / 8) (fun f => f.writeRights x)
  else if 0x600000 ≤ a ∧ a < 0x603000 then
    let v := (a - 0x600000) / 0x20
    let r := (a - 0x600000) % 0x20
    if r = 0x08 then s.modVf v (fun f => f.writeWlist x)
    else if r = 0x10 then s.modVf v (fun f => f.writeWrc x)
    else if r = 0x18 then s.modVf v (fun f => { f with wnote := f.wnote &&& ~~~ BitVec.ofNat 64 x })
    else s
  else s

/-- The registers of the hub, the fronthaul unit and the partitions. -/
def State.writeHubReg (s : State) (a x : Nat) : State :=
  if a = 0x100000 then s.modHub (fun h => h.writeFramecmd x)
  else if a = 0x100008 then s.modHub (fun h => { h with mapEnt := BitVec.ofNat 64 x })
  else if a = 0x100010 then s.modHub (fun h => h.writeMapcmd x)
  else if 0x101000 ≤ a ∧ a < 0x1010A0 then
    s.modPart ((a - 0x101000) / 8) (fun p => { p with migThr := BitVec.ofNat 16 x })
  else if a = 0x101E00 then s.modHub (fun h => h.writeMignq x)
  else if a = 0x101E08 then s.modHub (fun h => { h with nqHead := BitVec.ofNat 12 x })
  else if 0x200000 ≤ a ∧ a < 0x202000 then
    if a % 0x40 = 8 then
      s.modRegion ((a - 0x200000) / 0x200) ((a - 0x200000) % 0x200 / 0x40) (fun r => r.writeGeo x)
    else s
  else if 0x220000 ≤ a ∧ a < 0x222000 then
    let f := (a - 0x220000) / 0x20
    if a % 0x20 = 8 then s.modFlow f (fun g => { g with dmac := BitVec.ofNat 48 x })
    else if a % 0x20 = 0x10 then s.modFlow f (fun g => g.writeQueue x)
    else s
  else if a = 0x304000 then
    let p := x % 2 ^ 20
    if 10 ≤ p ∧ p ≤ 1000000 then s.modHub (fun h => { h with engPer := BitVec.ofNat 20 p }) else s
  else s.writeVfReg a x

/-- Registers of which the manual gives no address (log entry 22), which the HC writes: prqcfg of a
partition (R426), at partition × 0x1000 + 0x206, and the default context of a function (R473), at
0x100000 + VF × 8, in the layout of s1root. -/
def State.writeUnplaced (s : State) (a x : Nat) : State :=
  if a < 0x14000 then
    if a % 0x1000 = 0x206 then
      s.modPart (a / 0x1000) (fun p =>
        { p with prqTile := BitVec.ofNat 4 x, prqBase := BitVec.ofNat 18 (x / 16),
                 prqLog := BitVec.ofNat 4 (x / 2 ^ 22) })
    else s
  else if 0x100000 ≤ a ∧ a < 0x100C00 then
    s.modVf ((a - 0x100000) / 8) (fun f =>
      { f with asid := BitVec.ofNat 12 x, root := BitVec.ofNat 25 (x / 2 ^ 15) })
  else s

/-- Registers of debug (R440). -/
def State.writeDebugReg (s : State) (a x : Nat) : State :=
  if 0x920000 ≤ a ∧ a < 0x920280 then s.writeTrg ((a - 0x920000) / 0x20) (a % 0x20 / 8) x else s

/-! ### Reads (R5 to R7) -/

/-- A word made of fields, each at its lowest bit; the other bits read as zero (R6). -/
def wordOf (fields : List (Nat × Nat)) : W64 :=
  BitVec.ofNat 64 (fields.foldl (fun x f => x + f.2 * 2 ^ f.1) 0)

/-- A function's registers in BAR0 (R421). -/
def Vf.readBar (f : Vf) (off : Nat) : W64 :=
  if off = 0x00 then wordOf [(6, f.sqBase.toNat), (40, f.sqLog.toNat)]
  else if off = 0x08 then wordOf [(0, f.sqTail.toNat)]
  else if off = 0x10 then wordOf [(6, f.cqBase.toNat), (40, f.cqLog.toNat)]
  else if off = 0x18 then wordOf [(0, f.cqHead.toNat)]
  else if off = 0x20 then
    wordOf [(0, bit f.failed 0), (1, bit f.resetting 0), (8, f.inc.toNat), (16, f.drops.toNat)]
  else if off = 0x28 then wordOf [(0, bit f.frGo 0)]
  else 0

/-- FRAMECMD and MAPCMD (R34, R44). -/
def Hub.readFramecmd (h : Hub) : W64 :=
  wordOf [(0, h.fcFrame.toNat), (31, h.fcKid.toNat), (40, h.fcCount.toNat), (44, h.fcState.toNat),
    (48, h.fcOp.toNat), (60, h.fcStatus.toNat), (63, bit h.fcGo 0)]
def Hub.readMapcmd (h : Hub) : W64 :=
  wordOf [(0, h.mcGfn.toNat), (19, h.mcVf.toNat), (28, h.mcOp.toNat), (32, h.mcStatus.toNat),
    (63, bit h.mcGo 0)]

/-- PSL and PCL (R472): entry i of a list, with VALID. -/
def listWord (l : List Nat) (i valid : Nat) : W64 :=
  match l[i]? with
  | some n => wordOf [(0, n), (valid, 1)]
  | none => 0

/-- IRCTL, IRGEO and IRSTAT (R63). -/
def Ingest.readReg (r : Ingest) (off : Nat) : W64 :=
  if off = 0x00 then
    wordOf [(0, bit r.en 0), (1, r.ports.toNat), (9, r.eaxc.toNat), (25, r.a.toNat), (32, r.vf.toNat),
      (41, r.mu.toNat), (43, r.comp.toNat), (45, r.ld.toNat), (63, bit r.err 0)]
  else if off = 0x08 then
    wordOf [(0, r.base.toNat), (22, r.prbs.toNat), (32, r.node.toNat), (48, r.late.toNat)]
  else if off = 0x10 then
    wordOf [(0, r.lateCnt.toNat), (16, r.earlyCnt.toNat), (32, r.fmtCnt.toNat)]
  else 0

/-- FLCTL, FLDST, FLQ and FLSTAT (R68). -/
def Flow.readReg (f : Flow) (off : Nat) : W64 :=
  if off = 0x00 then
    wordOf [(0, bit f.en 0), (1, f.port.toNat), (4, f.comp.toNat), (8, f.vf.toNat), (32, f.eaxc.toNat),
      (48, f.vid.toNat), (60, f.pcp.toNat), (63, bit f.err 0)]
  else if off = 0x08 then wordOf [(0, f.dmac.toNat)]
  else if off = 0x10 then wordOf [(0, f.tile.toNat), (4, f.base.toNat), (22, f.logn.toNat)]
  else wordOf [(0, f.sent.toNat), (32, f.lateCnt.toNat), (48, f.drop.toNat)]

/-- The registers of the hub, the key unit and the partitions (R34, R44, R53, R63, R68, R472). -/
def State.readHubReg (s : State) (a : Nat) : W64 :=
  let h := s.hub
  if a = 0x100000 then h.readFramecmd
  else if a = 0x100008 then h.mapEnt
  else if a = 0x100010 then h.readMapcmd
  else if 0x101000 ≤ a ∧ a < 0x1010A0 then (s.part ((a - 0x101000) / 8)).migThr.setWidth 64
  else if 0x101200 ≤ a ∧ a < 0x101E00 then
    let f := s.vf ((a - 0x101200) / 8)
    wordOf [(0, f.mpFrame.toNat), (31, bit f.mpErr 0), (32, f.pool.length)]
  else if a = 0x101E00 then wordOf [(6, h.nqBase.toNat), (52, h.nqLog.toNat)]
  else if a = 0x101E08 then h.nqHead.setWidth 64
  else if a = 0x101E10 then h.nqTail.setWidth 64
  else if 0x102000 ≤ a ∧ a < 0x107000 then
    let p := s.part ((a - 0x102000) / 0x400)
    listWord (if p.exists_ then p.table.slices else []) ((a - 0x102000) % 0x400 / 8) 7
  else if 0x108000 ≤ a ∧ a < 0x10A800 then
    let p := s.part ((a - 0x108000) / 0x200)
    listWord (if p.exists_ then p.table.channels else []) ((a - 0x108000) % 0x200 / 8) 6
  else if 0x200000 ≤ a ∧ a < 0x202000 then
    (tget Ingest.reset (s.tile ((a - 0x200000) / 0x200)).ingest ((a - 0x200000) % 0x200 / 0x40)).readReg
      (a % 0x40)
  else if 0x210000 ≤ a ∧ a < 0x210040 then BitVec.ofNat 64 (tget 0 h.portUnm ((a - 0x210000) / 8))
  else if 0x220000 ≤ a ∧ a < 0x222000 then
    (tget Flow.reset s.flows ((a - 0x220000) / 0x20)).readReg (a % 0x20)
  else 0

/-- The registers of functions (R97, R254, R362, R370, R375). -/
def State.readVfReg (s : State) (a : Nat) : W64 :=
  if 0x300000 ≤ a ∧ a < 0x303000 then
    let f := s.vf ((a - 0x300000) / 0x20)
    let k := (a - 0x300000) % 0x20 / 8
    if k < 3 then wordOf ((List.range 4).map (fun c =>
      (16 * c, (tget 0xFFFF#16 f.allow (k * 4 + c)).toNat))) else 0
  else if a = 0x304000 then s.hub.engPer.setWidth 64
  else if 0x400000 ≤ a ∧ a < 0x400C00 then
    let v := (a - 0x400000) / 8
    let f := s.vf v
    wordOf [(0, f.slrMax.toNat), (8, (s.part f.part.toNat).slotsUsed (BitVec.ofNat 9 v))]
  else if 0x500000 ≤ a ∧ a < 0x500C00 then
    let f := s.vf ((a - 0x500000) / 8)
    wordOf [(0, f.w1.toNat), (8, f.w2.toNat), (16, f.w3.toNat), (24, bit f.c0 0), (32, f.maxJob.toNat)]
  else if 0x500C00 ≤ a ∧ a < 0x501800 then (s.vf ((a - 0x500C00) / 8)).rmref.setWidth 64
  else if 0x600000 ≤ a ∧ a < 0x603000 then
    let f := s.vf ((a - 0x600000) / 0x20)
    let r := (a - 0x600000) % 0x20
    if r = 0x00 then wordOf [(0, f.wsBase.toNat), (16, f.wsCount.toNat), (62, bit f.wsErr 0)]
    else if r = 0x08 then wordOf [(0, f.logstr.toNat), (6, f.lbase.toNat)]
    else if r = 0x10 then wordOf [(2, f.rcbase.toNat)]
    else f.wnote
  else 0

/-- RTCTL of a slot (R411). -/
def Thread.rtctl (t : Thread) : W64 :=
  wordOf [(0, t.held.cap.toNat), (8, bit t.held.yreq 0), (16, bit t.hw.occ 0), (17, bit t.hw.mig 0),
    (32, t.tr.ctag.toNat)]

/-- DBGT of a slot (R434); HALTREQ reads 1 until the stop lands. -/
def Thread.dbgt (t : Thread) : W64 :=
  wordOf [(0, bit t.hw.dbStep 0), (1, bit t.hw.dbClaim 0), (2, bit t.hw.dbHalt 0), (3, bit t.hw.dbTrace 0)]

/-- TRCTL and TRPTR of a VC (R439). -/
def Vc.trctl (v : Vc) : W64 :=
  wordOf [(0, bit v.trEn 0), (1, bit v.trStopFull 0), (2, v.trPipes.toNat), (8, v.trBase.toNat),
    (30, v.trSize.toNat)]
def Vc.trptr (v : Vc) : W64 := wordOf [(0, v.trWptr.toNat), (19, bit v.trWrap 0)]

/-- TRG (R440); FIRE reads 0. -/
def Trigger.readReg (g : Trigger) : W64 :=
  wordOf [(0, g.act.toNat), (3, bit g.onbk 0), (4, g.delay.toNat), (20, bit g.men 0), (22, g.maddr.toNat)]

/-- The registers of debug (R434, R435, R439, R440). -/
def State.readDebugReg (s : State) (a : Nat) : W64 :=
  if 0x900000 ≤ a ∧ a < 0x903E00 then (s.thread ((a - 0x900000) / 8)).dbgt
  else if a = 0x904000 then wordOf ((List.range 20).map (fun p => (p, bit (s.part p).freeze 0)))
  else if 0x910000 ≤ a ∧ a < 0x911F00 then
    let v := s.vc ((a - 0x910000) / 0x10)
    if a % 0x10 = 0 then v.trctl else v.trptr
  else if 0x920000 ≤ a ∧ a < 0x920280 then
    (tget Trigger.reset (s.part ((a - 0x920000) / 0x20)).triggers (a % 0x20 / 8)).readReg
  else 0

/-- TWINCFG and TWINERR, BOOTSTAT, CHFAIL, PWRCAP, PWRSTAT and THERM (R418, R419, R441, R444 to R446). -/
def State.readChipReg (s : State) (a : Nat) : W64 :=
  let h := s.hub
  if a = 0x800000 then
    wordOf [(0, bit h.twEn 0), (1, bit h.twUp 0), (12, h.twInvf.toNat), (32, h.twAp.toNat)]
  else if a = 0x800008 then h.twErr.setWidth 64
  else if a = 0xA00000 then
    wordOf [(0, h.pwCap.toNat), (16, h.pwLo.toNat), (32, h.pwHi.toNat), (63, bit h.pwClamp 0)]
  else if a = 0xA00008 then
    wordOf [(0, h.pwDraw.toNat), (10, h.pwPwr.toNat),
      (14, bit (s.occupied.any (fun n => (s.thread n).hw.rate)) 0), (15, bit h.pwTrip 0)]
  else if a = 0xA00010 then h.therm.setWidth 64
  else if a = 0xA00018 then
    wordOf [(0, h.bootStep.toNat), (3, bit h.bootErr 0), (4, bit h.bootDone 0), (8, h.nvcx.toNat)]
  else if a = 0xA00020 then h.chfail
  else 0

/-- A memory-mapped register as the HC reads it (R7): an address that no chapter defines reads as zero. -/
def State.readReg (s : State) (a : Nat) : W64 :=
  if a % 8 ≠ 0 then 0
  else if a < 0x300000 then s.readHubReg a
  else if a < 0x700000 then s.readVfReg a
  else if a < 0x703E00 then (s.thread ((a - 0x700000) / 8)).rtctl
  else if 0x900000 ≤ a ∧ a < 0xA00000 then s.readDebugReg a
  else s.readChipReg a

/-- What an agent of debug reads of one of its registers: of FRZ the bits of its partitions (R433). -/
def State.debugRead (s : State) (parts : List Nat) (a : Nat) : W64 :=
  if a = 0x904000 then
    wordOf (((List.range 20).filter parts.contains).map (fun p => (p, bit (s.part p).freeze 0)))
  else s.readReg a

/-- What an agent reads of a memory-mapped register (R5 to R7, R53, R421, R433): the host its functions'
BAR0 pages while its port is up, the HC every register, the RC those of the twin link, power and boot, the
test access port and the HC those of debug that they reach; none for a register out of its reach. -/
def State.registerRead (s : State) (agent : Agent) (addr : Nat) : Option W64 :=
  let a := addr - regBase
  match agent with
  | .host =>
    if s.hub.hostUp ∧ addr < 384 * 2 ^ 16 then some ((s.vf (addr / 2 ^ 16)).readBar (addr % 2 ^ 16)) else none
  | .hc =>
    if !(decide (regBase ≤ addr)) then none
    else if 0x900000 ≤ a ∧ a < 0xA00000 then
      if s.hcReaches a then some (s.debugRead s.hcDebug a) else none
    else some (s.readReg a)
  | .rc => if regBase + 0x800000 ≤ addr ∧ ¬ (0x900000 ≤ a ∧ a < 0xA00000) then some (s.readReg a) else none
  | .debug =>
    if regBase ≤ addr && s.tapReaches a then some (s.debugRead s.tapDebug a) else none

/-! ### Writes -/

/-- Migrations that the notice ring held back go on at the next access to their unit, once a write of MIGNQ
or MIGNQH has made room (R53). -/
def State.noticeCleared (before after : State) : State :=
  let blocked := fun (s : State) => !s.hub.noticeOn || s.hub.noticeFull
  if blocked before && !blocked after then after.migrationsCleared (fun _ => true) else after

/-- REGISTER_WRITE (R5, R6). The host's addresses are VF × 64 KiB + the offset in BAR0. -/
def execRegisterWrite (agent : Agent) (addr : Nat) (data : W64) (s : State) :
    Host.Outcome State Fault Refusal :=
  let x := data.toNat
  let a := addr - regBase
  .next (
    if addr % 8 ≠ 0 ∧ ¬ (agent = .hc ∧ addr < regBase) then s
    else
      match agent with
      | .host => if s.hub.hostUp ∧ addr < 384 * 2 ^ 16 then s.writeBar (addr / 2 ^ 16) (addr % 2 ^ 16) x else s
      | .rc => if addr = regBase + 0x800000 then s.modHub (fun h => h.writeTwin x) else s
      | .debug => if regBase ≤ addr && s.tapReaches a then s.writeDebugReg a x else s
      | .hc =>
        if addr < regBase then s.writeUnplaced addr x
        else if 0x920000 ≤ a ∧ a < 0xA00000 then if s.hcReaches a then s.writeDebugReg a x else s
        else s.noticeCleared (s.writeHubReg a x))

end Sys2Proof.Machine
end

