-- ==== Sys2Proof/Machine/Pred.lean ====
section
/-!
DEFINITION. Predicate instructions: major 0x17 (R356 to R359).
-/

namespace Sys2Proof.Machine

open Sys2Proof

/-- A scalar that a vector member writes: at once in a convoy of one, otherwise when the convoy retires
(R146, R201). -/
def State.wrLate (s : State) (d : BitVec 5) (v : W64) : State :=
  if s.cv.many then s.modCv (fun c => { c with late := c.late ++ [(d, v)] }) else s.wr d v

/-- An element-wise predicate operation (R357). -/
def State.predOp (s : State) (d p : BitVec 5) (f : Nat → Bool) : Host.Outcome State Fault Refusal :=
  s.conclude (do
    vectorGate
    modify (fun u => u.writePred (u.predNo d) ((u.todo p).map (fun e => (e, f e)))))

/-- Bit e of the predicate that a field names (R356). -/
def State.pbit (s : State) (a : BitVec 5) (e : Nat) : Bool := (s.pred (s.predNo a)).getLsbD e

def execPand (_cont : Bool) (d a b p : BitVec 5) (s : State) : Host.Outcome State Fault Refusal :=
  s.predOp d p (fun e => s.pbit a e && s.pbit b e)
def execPor (_cont : Bool) (d a b p : BitVec 5) (s : State) : Host.Outcome State Fault Refusal :=
  s.predOp d p (fun e => s.pbit a e || s.pbit b e)
def execPxor (_cont : Bool) (d a b p : BitVec 5) (s : State) : Host.Outcome State Fault Refusal :=
  s.predOp d p (fun e => s.pbit a e ^^ s.pbit b e)
def execPandn (_cont : Bool) (d a b p : BitVec 5) (s : State) : Host.Outcome State Fault Refusal :=
  s.predOp d p (fun e => s.pbit a e && !s.pbit b e)
def execPnot (_cont : Bool) (d a p : BitVec 5) (s : State) : Host.Outcome State Fault Refusal :=
  s.predOp d p (fun e => !s.pbit a e)
def execPseta (_cont : Bool) (d p : BitVec 5) (s : State) : Host.Outcome State Fault Refusal :=
  s.predOp d p (fun _ => true)

/-- A predicate operation that is not element-wise (R357, R401, R402). -/
def State.predWhole (s : State) (d p : BitVec 5) (f : Nat → Bool) : Host.Outcome State Fault Refusal :=
  s.conclude (do
    vectorGate
    if s.wholePass then
      modify (fun u => u.writePred (u.predNo d) ((u.selected p).map (fun e => (e, f e)))))

/-- PFIRST (R357). -/
def execPfirst (_cont : Bool) (d a p : BitVec 5) (s : State) : Host.Outcome State Fault Refusal :=
  s.predWhole d p (fun e => (s.selected p).find? (s.pbit a) == some e)

/-- PSCAN (R357). -/
def execPscan (_cont : Bool) (d a p : BitVec 5) (s : State) : Host.Outcome State Fault Refusal :=
  s.predWhole d p (fun e => (s.selected p).any (fun x => decide (x ≤ e) && s.pbit a x))

/-- PPOPC (R357): the count goes to the scalar that the vd field names. -/
def execPpopc (_cont : Bool) (d a p : BitVec 5) (s : State) : Host.Outcome State Fault Refusal :=
  s.conclude (do
    vectorGate
    if s.wholePass then
      modify (fun u => u.wrLate d (BitVec.ofNat 64 ((u.selected p).filter (u.pbit a)).length)))

/-- PMOVL (R358). -/
def execPmovl (_cont : Bool) (d a : BitVec 5) (k : BitVec 4) (s : State) :
    Host.Outcome State Fault Refusal :=
  s.conclude (do
    vectorGate
    modify (fun u => u.setPred (d.toNat + 32 * (k.toNat % 4)) (u.pred (a.toNat + 32 * (k.toNat / 4)))))

/-- A predicate in memory: bit e at bit e mod 8 of byte e div 8 (R359). -/
def predBytes (x : BitVec 4096) : List Byte := leBytes 512 x.toNat

/-- PLD (R359). -/
def execPld (_cont : Bool) (d a : BitVec 5) (k : BitVec 2) (s : State) :
    Host.Outcome State Fault Refusal :=
  s.conclude (do
    vectorGate
    let ps ← wholeBeats .load (s.rd a) 8
    modify (fun u => u.touchLines (ps.map (·.2.2)) (u.loadAlloc 512) false)
    let xs ← readPlaces 64 ps
    modify (fun u => u.setPred (d.toNat + 32 * k.toNat) (BitVec.ofNat 4096
      (xs.foldl (fun x b => x + b.2 * 2 ^ (512 * b.1)) 0))))

/-- PST (R359): 8 beats in ascending address order. -/
def execPst (_cont : Bool) (d a : BitVec 5) (k : BitVec 2) (s : State) :
    Host.Outcome State Fault Refusal :=
  s.conclude (do
    vectorGate
    let ps ← wholeBeats .store (s.rd a) 8
    storeRoom (ps.map (·.2.2))
    let bs := predBytes (s.pred (d.toNat + 32 * k.toNat))
    modify (fun u => u.pushEntries (ps.map (fun b =>
      { beat := (0, b.1), kid := b.2.2.kid, bytes := writesOf b.2.2.loc ((bs.drop (64 * b.1)).take 64) }))
      (u.bigStore 512) false))

end Sys2Proof.Machine
end

