-- ==== Sys2Proof/Machine/ScalarMem.lean ====
section
/-!
DEFINITION. Scalar loads, stores and far atomics: majors 0x08 to 0x0A (R304 to R307).
-/

namespace Sys2Proof.Machine

open Sys2Proof

/-- EA of R304. -/
def State.ea (s : State) (a : BitVec 5) (o : BitVec 12) : W64 := s.rd a + sext12 o

/-- A load that extends its n bytes by f (R304). -/
def State.loadTo (s : State) (d a : BitVec 5) (o : BitVec 12) (n : Nat) (f : Nat → W64) :
    Host.Outcome State Fault Refusal :=
  s.conclude (do
    let v ← loadScalar (s.ea a o) n
    modify (fun t => t.wr d (f v)))

/-- A store of the n low bytes of s[d] (R304). -/
def State.storeFrom (s : State) (d a : BitVec 5) (o : BitVec 12) (n : Nat) :
    Host.Outcome State Fault Refusal :=
  s.conclude (storeScalar (s.ea a o) n (s.rd d).toNat)

/-- Sign extension from n bytes. -/
def sextBytes (n v : Nat) : W64 := BitVec.ofInt 64 (sextN (8 * n) v)

def execLb (d a : BitVec 5) (o : BitVec 12) (s : State) : Host.Outcome State Fault Refusal :=
  s.loadTo d a o 1 (sextBytes 1)
def execLh (d a : BitVec 5) (o : BitVec 12) (s : State) : Host.Outcome State Fault Refusal :=
  s.loadTo d a o 2 (sextBytes 2)
def execLw (d a : BitVec 5) (o : BitVec 12) (s : State) : Host.Outcome State Fault Refusal :=
  s.loadTo d a o 4 (sextBytes 4)
def execLd (d a : BitVec 5) (o : BitVec 12) (s : State) : Host.Outcome State Fault Refusal :=
  s.loadTo d a o 8 (BitVec.ofNat 64)
def execLbn (d a : BitVec 5) (o : BitVec 12) (s : State) : Host.Outcome State Fault Refusal :=
  s.loadTo d a o 1 (BitVec.ofNat 64)
def execLhn (d a : BitVec 5) (o : BitVec 12) (s : State) : Host.Outcome State Fault Refusal :=
  s.loadTo d a o 2 (BitVec.ofNat 64)
def execLwn (d a : BitVec 5) (o : BitVec 12) (s : State) : Host.Outcome State Fault Refusal :=
  s.loadTo d a o 4 (BitVec.ofNat 64)
/-- LDA: as LD, and an acquire; every later access of a thread is performed after it in this model
(R268). -/
def execLda (d a : BitVec 5) (o : BitVec 12) (s : State) : Host.Outcome State Fault Refusal :=
  s.loadTo d a o 8 (BitVec.ofNat 64)
def execSb (d a : BitVec 5) (o : BitVec 12) (s : State) : Host.Outcome State Fault Refusal :=
  s.storeFrom d a o 1
def execSh (d a : BitVec 5) (o : BitVec 12) (s : State) : Host.Outcome State Fault Refusal :=
  s.storeFrom d a o 2
def execSw (d a : BitVec 5) (o : BitVec 12) (s : State) : Host.Outcome State Fault Refusal :=
  s.storeFrom d a o 4
def execSd (d a : BitVec 5) (o : BitVec 12) (s : State) : Host.Outcome State Fault Refusal :=
  s.storeFrom d a o 8
/-- SDR: as SD, performed after every earlier access and every earlier train's acknowledgement
(R268): it waits for the trains before it enters the FIFO buffer. -/
def execSdr (d a : BitVec 5) (o : BitVec 12) (s : State) : Host.Outcome State Fault Refusal :=
  s.conclude (do
    checkAlign (s.ea a o) 8
    checkLock (s.ea a o) 8 true
    let p ← translateScalar .store (s.ea a o) 8
    storeRoom [p]
    awaitTrains
    modify (fun t => t.pushScalar (writesOf p.loc (leBytes 8 (s.rd d).toNat)) p.kid true))

/-- AMO (R306): `r` is ORD, `w` is W, `o` is OP. -/
def execAmo (d a b : BitVec 5) (r : BitVec 2) (w : BitVec 1) (o : BitVec 4) (s : State) :
    Host.Outcome State Fault Refusal :=
  let n := if w = 0#1 then 4 else 8
  let src := (s.rd b).toNat % 2 ^ (8 * n)
  let cmp := (s.rd d).toNat % 2 ^ (8 * n)
  s.conclude (do
    let old ← atomicScalar (s.rd a) n (decide (r = 2#2 ∨ r = 3#2))
      (fun x => amoNew o.toNat (8 * n) x src cmp)
    modify (fun t => t.wr d (sextBytes n old)))

end Sys2Proof.Machine
end

