-- ==== Sys2Proof/Machine/VInt.lean ====
section
/-!
DEFINITION. Integer vector instructions and compares: majors 0x20 and 0x21 (R183 to R189), and the
element-wise forms that the other arithmetic majors share (R185).
-/

namespace Sys2Proof.Machine

open Sys2Proof

/-- The second operand of format VV: a vector register or a scalar (R139). -/
inductive Src where
  | vec (b : BitVec 5)
  | sca (b : BitVec 5)
  deriving DecidableEq, Repr

/-- The vector registers that a second operand names. -/
def Src.regs (y : Src) : List (BitVec 5) := match y with | .vec b => [b] | .sca _ => []

/-- y of R185 for element e. -/
def State.src (s : State) (y : Src) (e : Nat) : Nat :=
  match y with | .vec b => s.elem b e | .sca b => s.scalarElem b

/-- Element-wise work under vtype on a destination and its sources (R184, R185): element e receives
f t e, and under sq the destination blocks take the scales of the first source (R127). With no active
element it writes nothing. -/
def State.elemWise (s : State) (types : Vt → Bool) (d a p : BitVec 5) (more : List (BitVec 5))
    (f : State → Vt → Nat → Res) : Host.Outcome State Fault Refusal :=
  s.conclude (do
    let t ← vectorChecks (d :: a :: more) types
    modify (fun u =>
      if (u.actives p).isEmpty then u else (u.mapElems d p (f u t)).copyScales d a))

/-- Two-source element-wise work: f of the element of a and of y. -/
def State.binary (s : State) (types : Vt → Bool) (d a : BitVec 5) (y : Src) (p : BitVec 5)
    (f : Vt → Nat → Nat → Out) : Host.Outcome State Fault Refusal :=
  s.elemWise types d a p y.regs (fun u t e => t.res (f t (u.elem a e) (u.src y e)))

/-- One-source element-wise work. -/
def State.unary (s : State) (types : Vt → Bool) (d a p : BitVec 5) (f : Vt → Nat → Out) :
    Host.Outcome State Fault Refusal :=
  s.elemWise types d a p [] (fun u t e => t.res (f t (u.elem a e)))

/-- x read as a signed element. -/
def Vt.sext (t : Vt) (x : Nat) : Int := sextN t.sew x

/-- A result that wraps and raises nothing (R114). -/
def Vt.wrap (t : Vt) (x : Int) : Out := { val := lowN t.sew x, ev := 0 }

/-- An operation of major 0x20 on CLASS 0, 1, 2 and 6 (R187). -/
def State.intOp (s : State) (d a : BitVec 5) (y : Src) (p : BitVec 5) (f : Vt → Nat → Nat → Int) :
    Host.Outcome State Fault Refusal :=
  s.binary (Vt.isIn [0, 1, 2, 6]) d a y p (fun t x y => t.wrap (f t x y))

/-- A bitwise operation of major 0x20, on every class (R187). -/
def State.bitOp (s : State) (d a : BitVec 5) (y : Src) (p : BitVec 5) (f : Nat → Nat → Nat) :
    Host.Outcome State Fault Refusal :=
  s.binary (fun _ => true) d a y p (fun t x y => t.wrap (f x y))

/-! ### Major 0x20 (R187) -/

def execVadd (_cont : Bool) (d a b p : BitVec 5) (s : State) :
    Host.Outcome State Fault Refusal :=
  s.intOp d a (.vec b) p (fun _ x y => x + y)
def execVaddVs (_cont : Bool) (d a b p : BitVec 5) (s : State) :
    Host.Outcome State Fault Refusal :=
  s.intOp d a (.sca b) p (fun _ x y => x + y)
def execVsub (_cont : Bool) (d a b p : BitVec 5) (s : State) :
    Host.Outcome State Fault Refusal :=
  s.intOp d a (.vec b) p (fun _ x y => x - y)
def execVsubVs (_cont : Bool) (d a b p : BitVec 5) (s : State) :
    Host.Outcome State Fault Refusal :=
  s.intOp d a (.sca b) p (fun _ x y => x - y)
def execVrsub (_cont : Bool) (d a b p : BitVec 5) (s : State) :
    Host.Outcome State Fault Refusal :=
  s.intOp d a (.vec b) p (fun _ x y => y - x)
def execVrsubVs (_cont : Bool) (d a b p : BitVec 5) (s : State) :
    Host.Outcome State Fault Refusal :=
  s.intOp d a (.sca b) p (fun _ x y => y - x)
def execVmul (_cont : Bool) (d a b p : BitVec 5) (s : State) :
    Host.Outcome State Fault Refusal :=
  s.intOp d a (.vec b) p (fun _ x y => x * y)
def execVmulVs (_cont : Bool) (d a b p : BitVec 5) (s : State) :
    Host.Outcome State Fault Refusal :=
  s.intOp d a (.sca b) p (fun _ x y => x * y)
def execVmulh (_cont : Bool) (d a b p : BitVec 5) (s : State) :
    Host.Outcome State Fault Refusal :=
  s.intOp d a (.vec b) p (fun t x y => shrI (t.sext x * t.sext y) t.sew)
def execVmulhVs (_cont : Bool) (d a b p : BitVec 5) (s : State) :
    Host.Outcome State Fault Refusal :=
  s.intOp d a (.sca b) p (fun t x y => shrI (t.sext x * t.sext y) t.sew)
def execVmulhn (_cont : Bool) (d a b p : BitVec 5) (s : State) :
    Host.Outcome State Fault Refusal :=
  s.intOp d a (.vec b) p (fun t x y => shrI (x * y) t.sew)
def execVmulhnVs (_cont : Bool) (d a b p : BitVec 5) (s : State) :
    Host.Outcome State Fault Refusal :=
  s.intOp d a (.sca b) p (fun t x y => shrI (x * y) t.sew)
def execVmin (_cont : Bool) (d a b p : BitVec 5) (s : State) :
    Host.Outcome State Fault Refusal :=
  s.intOp d a (.vec b) p (fun t x y => min (t.sext x) (t.sext y))
def execVminVs (_cont : Bool) (d a b p : BitVec 5) (s : State) :
    Host.Outcome State Fault Refusal :=
  s.intOp d a (.sca b) p (fun t x y => min (t.sext x) (t.sext y))
def execVmax (_cont : Bool) (d a b p : BitVec 5) (s : State) :
    Host.Outcome State Fault Refusal :=
  s.intOp d a (.vec b) p (fun t x y => max (t.sext x) (t.sext y))
def execVmaxVs (_cont : Bool) (d a b p : BitVec 5) (s : State) :
    Host.Outcome State Fault Refusal :=
  s.intOp d a (.sca b) p (fun t x y => max (t.sext x) (t.sext y))
def execVminn (_cont : Bool) (d a b p : BitVec 5) (s : State) :
    Host.Outcome State Fault Refusal :=
  s.intOp d a (.vec b) p (fun _ x y => min x y)
def execVminnVs (_cont : Bool) (d a b p : BitVec 5) (s : State) :
    Host.Outcome State Fault Refusal :=
  s.intOp d a (.sca b) p (fun _ x y => min x y)
def execVmaxn (_cont : Bool) (d a b p : BitVec 5) (s : State) :
    Host.Outcome State Fault Refusal :=
  s.intOp d a (.vec b) p (fun _ x y => max x y)
def execVmaxnVs (_cont : Bool) (d a b p : BitVec 5) (s : State) :
    Host.Outcome State Fault Refusal :=
  s.intOp d a (.sca b) p (fun _ x y => max x y)
def execVand (_cont : Bool) (d a b p : BitVec 5) (s : State) :
    Host.Outcome State Fault Refusal :=
  s.bitOp d a (.vec b) p (· &&& ·)
def execVandVs (_cont : Bool) (d a b p : BitVec 5) (s : State) :
    Host.Outcome State Fault Refusal :=
  s.bitOp d a (.sca b) p (· &&& ·)
def execVor (_cont : Bool) (d a b p : BitVec 5) (s : State) :
    Host.Outcome State Fault Refusal :=
  s.bitOp d a (.vec b) p (· ||| ·)
def execVorVs (_cont : Bool) (d a b p : BitVec 5) (s : State) :
    Host.Outcome State Fault Refusal :=
  s.bitOp d a (.sca b) p (· ||| ·)
def execVxor (_cont : Bool) (d a b p : BitVec 5) (s : State) :
    Host.Outcome State Fault Refusal :=
  s.bitOp d a (.vec b) p (· ^^^ ·)
def execVxorVs (_cont : Bool) (d a b p : BitVec 5) (s : State) :
    Host.Outcome State Fault Refusal :=
  s.bitOp d a (.sca b) p (· ^^^ ·)
def execVsll (_cont : Bool) (d a b p : BitVec 5) (s : State) :
    Host.Outcome State Fault Refusal :=
  s.intOp d a (.vec b) p (fun t x y => x * (2 ^ (y % t.sew) : Nat))
def execVsllVs (_cont : Bool) (d a b p : BitVec 5) (s : State) :
    Host.Outcome State Fault Refusal :=
  s.intOp d a (.sca b) p (fun t x y => x * (2 ^ (y % t.sew) : Nat))
def execVsrl (_cont : Bool) (d a b p : BitVec 5) (s : State) :
    Host.Outcome State Fault Refusal :=
  s.intOp d a (.vec b) p (fun t x y => shrI x (y % t.sew))
def execVsrlVs (_cont : Bool) (d a b p : BitVec 5) (s : State) :
    Host.Outcome State Fault Refusal :=
  s.intOp d a (.sca b) p (fun t x y => shrI x (y % t.sew))
def execVsra (_cont : Bool) (d a b p : BitVec 5) (s : State) :
    Host.Outcome State Fault Refusal :=
  s.intOp d a (.vec b) p (fun t x y => shrI (t.sext x) (y % t.sew))
def execVsraVs (_cont : Bool) (d a b p : BitVec 5) (s : State) :
    Host.Outcome State Fault Refusal :=
  s.intOp d a (.sca b) p (fun t x y => shrI (t.sext x) (y % t.sew))

/-! ### Compare: major 0x21 (R188, R189) -/

/-- The classes on which a condition is defined. -/
def cmpTypes (cond : Nat) (t : Vt) : Bool :=
  if cond ≤ 1 then t.isIn [0, 1, 2, 4, 6] else if cond ≤ 9 then t.isIn [0, 1, 2, 6] else t.isIn [3]

/-- The condition on two elements, and the classes it raises. -/
def cmpHolds (cond : Nat) (t : Vt) (x y : Nat) : Bool × Nat :=
  let f := fmtOf t.fmt t.sewE
  let nan := f.isNan x || f.isNan y
  let snan := f.isSnan x || f.isSnan y
  if cond = 0 then (decide (x = y), 0)
  else if cond = 1 then (decide (x ≠ y), 0)
  else if cond = 2 then (decide (t.sext x < t.sext y), 0)
  else if cond = 3 then (decide (t.sext x ≤ t.sext y), 0)
  else if cond = 4 then (decide (t.sext y < t.sext x), 0)
  else if cond = 5 then (decide (t.sext y ≤ t.sext x), 0)
  else if cond = 6 then (decide (x < y), 0)
  else if cond = 7 then (decide (x ≤ y), 0)
  else if cond = 8 then (decide (y < x), 0)
  else if cond = 9 then (decide (y ≤ x), 0)
  else if cond = 10 then (!nan && decide (f.num x = f.num y), if snan then evInv else 0)
  else if cond = 11 then (!nan && decide (f.num x < f.num y), if nan then evInv else 0)
  else if cond = 12 then (!nan && decide (f.num x ≤ f.num y), if nan then evInv else 0)
  else (nan, if snan then evInv else 0)

/-- VCMP (R188, R189). -/
def State.compare (s : State) (cond : Nat) (d a : BitVec 5) (y : Src) (p : BitVec 5) :
    Host.Outcome State Fault Refusal :=
  s.conclude (do
    let t ← vectorChecks (a :: y.regs) (cmpTypes cond)
    modify (fun u =>
      let rs := (u.todo p).map (fun e => (e, cmpHolds cond t (u.elem a e) (u.src y e)))
      (u.writePred (u.predNo d) (rs.map (fun r => (r.1, r.2.1)))).mergeFlags
        (rs.map (fun r => (r.1, r.2.2)))))

def execVcmp (_cont : Bool) (d a b p : BitVec 5) (cond : BitVec 4) (s : State) :
    Host.Outcome State Fault Refusal :=
  s.compare cond.toNat d a (.vec b) p
def execVcmpVs (_cont : Bool) (d a b p : BitVec 5) (cond : BitVec 4) (s : State) :
    Host.Outcome State Fault Refusal :=
  s.compare cond.toNat d a (.sca b) p

end Sys2Proof.Machine
end

