-- ==== Sys2Proof/Machine/VConv.lean ====
section
/-!
DEFINITION. Conversions: major 0x24 (R197 to R199).
-/

namespace Sys2Proof.Machine

open Sys2Proof

/-- A scalar type of R104: CLASS 0 to 3, FMT and SEW field. -/
structure Ty where
  cls : Nat
  fmt : Nat
  sewE : Nat
  deriving DecidableEq, Repr

/-- The component type of a complex type, and any other type itself (R118). -/
def Ty.comp (t : Ty) : Ty :=
  if t.cls = 4 then { cls := 2, fmt := 0, sewE := t.sewE - 1 }
  else if t.cls = 5 then { cls := 3, fmt := 0, sewE := t.sewE - 1 }
  else t

def Ty.width (t : Ty) : Nat := 8 * 2 ^ t.sewE
def Ty.format (t : Ty) : Fmt := fmtOf t.fmt t.sewE
/-- Fraction bits: SEW − 1 for fixed point (R115). -/
def Ty.frac (t : Ty) : Nat := if t.cls = 2 then t.width - 1 else 0
/-- The stored integer. -/
def Ty.int (t : Ty) (x : Nat) : Int := if t.cls = 1 then x else sextN t.width x
/-- Fit an integer into a type's range (R117). -/
def Ty.fit (t : Ty) (sat : Bool) (y : Int) : Out :=
  if t.cls = 1 then fitU t.width sat y else fitS t.width sat y

/-- Convert a scalar value between two types (R199). -/
def convert (src dst : Ty) (sat : Bool) (mode x : Nat) : Out :=
  if src.cls = 3 then
    if dst.cls = 3 then cvtFF src.format dst.format mode x
    else cvtFI src.format dst.width dst.frac (decide (dst.cls ≠ 1)) mode x
  else if dst.cls = 3 then cvtIF dst.format src.frac mode (src.int x)
  else if src.cls = 2 ∧ dst.cls = 2 then
    if src.sewE < dst.sewE then dst.fit sat (shlI (src.int x) 16)
    else if dst.sewE < src.sewE then dst.fit sat (rshift (src.int x) 16 mode)
    else { val := x, ev := 0 }
  else dst.fit sat (src.int x)

/-- Convert an element, a complex one component by component (R199). -/
def convertElem (src dst : Ty) (sat : Bool) (mode x : Nat) : Out :=
  if dst.cls = 4 ∨ dst.cls = 5 then
    let re := convert src.comp dst.comp sat mode (x % 2 ^ src.comp.width)
    let im := convert src.comp dst.comp sat mode (x / 2 ^ src.comp.width)
    { val := re.val + im.val * 2 ^ dst.comp.width, ev := re.ev ||| im.ev }
  else convert src dst sat mode x

/-- The type a type code names at a source SEW field (R197). -/
def codeType (t : BitVec 4) (sewE : Nat) : Ty :=
  { cls := t.toNat % 8, fmt := t.toNat / 8, sewE := sewE }

/-- The destination type in vtype. -/
def Vt.ty (t : Vt) : Ty := { cls := t.cls, fmt := t.fmt, sewE := t.sewE }

/-- The pair of types may be converted (R197). -/
def convOk (src dst : Ty) : Bool :=
  legalType src.cls src.fmt src.sewE && decide (src.cls ≠ 6 ∧ dst.cls ≠ 6) &&
    ((src.cls == 4 || src.cls == 5) == (dst.cls == 4 || dst.cls == 5))

/-- A conversion from a source group of gs × GM registers of a source type (R198). -/
def State.conv (s : State) (d a p : BitVec 5) (gs : Nat) (apart : Bool) (src : Vt → Option Ty) :
    Host.Outcome State Fault Refusal :=
  s.conclude (do
    let t ← vectorChecks [d] (fun _ => true)
    need (groupOk t (gs * t.gm) a)
    match src t with
    | none => illop
    | some st =>
      need (convOk st t.ty)
      need (!(apart && rangesMeet d.toNat t.gm a.toNat (gs * t.gm)))
      modify (fun u => u.mapElems d p (fun e =>
        t.res (convertElem st t.ty t.sat t.rnd (u.elemOf (gs * t.gm) st.width a.toNat e)))))

/-- VCVT (R197). -/
def execVcvt (_cont : Bool) (d a : BitVec 5) (k : BitVec 4) (p : BitVec 5) (s : State) :
    Host.Outcome State Fault Refusal :=
  s.conv d a p 1 false (fun t => some (codeType k t.sewE))
/-- VWIDEN (R197): the source is half as wide. -/
def execVwiden (_cont : Bool) (d a : BitVec 5) (k : BitVec 4) (p : BitVec 5) (s : State) :
    Host.Outcome State Fault Refusal :=
  s.conv d a p 1 true (fun t => if t.sewE = 0 then none else some (codeType k (t.sewE - 1)))
/-- VNARROW (R197): the source is twice as wide and fills a double group. -/
def execVnarrow (_cont : Bool) (d a : BitVec 5) (k : BitVec 4) (p : BitVec 5) (s : State) :
    Host.Outcome State Fault Refusal :=
  s.conv d a p 2 true (fun t => if t.sewE = 3 then none else some (codeType k (t.sewE + 1)))

end Sys2Proof.Machine
end

