-- ==== Sys2Proof/Machine/VFix.lean ====
section
/-!
DEFINITION. Fixed-point vector instructions: major 0x22 (R190 to R193).
-/

namespace Sys2Proof.Machine

open Sys2Proof

/-- Width of an element or, for a complex class, of a component (R190). -/
def Vt.w (t : Vt) : Nat := if t.complex then t.sew / 2 else t.sew

/-- Apply an operation to two elements, or to their components (R118, R190). -/
def Vt.perComp (t : Vt) (f : Nat → Nat → Out) (x y : Nat) : Out :=
  if t.complex then
    let h := 2 ^ (t.sew / 2)
    let re := f (x % h) (y % h)
    let im := f (x / h) (y / h)
    { val := re.val + im.val * h, ev := re.ev ||| im.ev }
  else f x y

/-- An operand of w bits as the exact integer its class gives (R190). -/
def Vt.int (t : Vt) (x : Nat) : Int := if t.cls = 1 then x else sextN t.w x

/-- Fit a result under R117 and R190. -/
def Vt.fit (t : Vt) (y : Int) : Out := if t.cls = 1 then fitU t.w t.sat y else fitS t.w t.sat y

/-- VSHRRND's result for an amount (R191). -/
def Vt.shiftRound (t : Vt) (n : Int) (x : Nat) : Out :=
  if 0 ≤ n then { val := lowN t.w (rshift (t.int x) n.toNat t.rnd), ev := 0 }
  else t.fit (shlI (t.int x) (-n).toNat)

/-- VSATN's result for a bit count (R192). -/
def Vt.clampTo (t : Vt) (n : Nat) (x : Nat) : Out :=
  let r := if t.cls = 1 then satnN n (t.int x) else satN n (t.int x)
  { val := lowN t.w r, ev := if r = t.int x then 0 else evSat }

/-- VSATN's bit count: y[6:0] clamped into 1 to w. -/
def Vt.satCount (t : Vt) (y : Nat) : Nat := min (max (y % 128) 1) t.w

/-- VQADD (R190). -/
def execVqadd (_cont : Bool) (d a b p : BitVec 5) (s : State) :
    Host.Outcome State Fault Refusal :=
  s.binary (Vt.isIn [0, 1, 2, 4]) d a (.vec b) p
    (fun t => t.perComp (fun x y => t.fit (t.int x + t.int y)))
/-- VQADD (R190), scalar form. -/
def execVqaddVs (_cont : Bool) (d a b p : BitVec 5) (s : State) :
    Host.Outcome State Fault Refusal :=
  s.binary (Vt.isIn [0, 1, 2, 4]) d a (.sca b) p
    (fun t => t.perComp (fun x y => t.fit (t.int x + t.int y)))
/-- VQSUB (R190). -/
def execVqsub (_cont : Bool) (d a b p : BitVec 5) (s : State) :
    Host.Outcome State Fault Refusal :=
  s.binary (Vt.isIn [0, 1, 2, 4]) d a (.vec b) p
    (fun t => t.perComp (fun x y => t.fit (t.int x - t.int y)))
/-- VQSUB (R190), scalar form. -/
def execVqsubVs (_cont : Bool) (d a b p : BitVec 5) (s : State) :
    Host.Outcome State Fault Refusal :=
  s.binary (Vt.isIn [0, 1, 2, 4]) d a (.sca b) p
    (fun t => t.perComp (fun x y => t.fit (t.int x - t.int y)))
/-- VQMUL (R190). -/
def execVqmul (_cont : Bool) (d a b p : BitVec 5) (s : State) :
    Host.Outcome State Fault Refusal :=
  s.binary (Vt.isIn [2, 4]) d a (.vec b) p
    (fun t => t.perComp (fun x y => t.fit (rshift (t.int x * t.int y) (t.w - 1) t.rnd)))
/-- VQMUL (R190), scalar form. -/
def execVqmulVs (_cont : Bool) (d a b p : BitVec 5) (s : State) :
    Host.Outcome State Fault Refusal :=
  s.binary (Vt.isIn [2, 4]) d a (.sca b) p
    (fun t => t.perComp (fun x y => t.fit (rshift (t.int x * t.int y) (t.w - 1) t.rnd)))
/-- VSHRRND (R191). -/
def execVshrrnd (_cont : Bool) (d a b p : BitVec 5) (s : State) :
    Host.Outcome State Fault Refusal :=
  s.binary (Vt.isIn [0, 1, 2, 4]) d a (.vec b) p
    (fun t x y => t.perComp (fun x _ => t.shiftRound (sextN 8 y) x) x x)
/-- VSHRRND (R191), scalar form. -/
def execVshrrndVs (_cont : Bool) (d a b p : BitVec 5) (s : State) :
    Host.Outcome State Fault Refusal :=
  s.binary (Vt.isIn [0, 1, 2, 4]) d a (.sca b) p
    (fun t x y => t.perComp (fun x _ => t.shiftRound (sextN 8 y) x) x x)
/-- VSATN (R192). -/
def execVsatn (_cont : Bool) (d a b p : BitVec 5) (s : State) :
    Host.Outcome State Fault Refusal :=
  s.binary (Vt.isIn [0, 1, 2, 4]) d a (.vec b) p
    (fun t x y => t.perComp (fun x _ => t.clampTo (t.satCount y) x) x x)
/-- VSATN (R192), scalar form. -/
def execVsatnVs (_cont : Bool) (d a b p : BitVec 5) (s : State) :
    Host.Outcome State Fault Refusal :=
  s.binary (Vt.isIn [0, 1, 2, 4]) d a (.sca b) p
    (fun t x y => t.perComp (fun x _ => t.clampTo (t.satCount y) x) x x)

/-- The redundant sign bits of an element or of its components (R135, R193). -/
def Vt.signBits (t : Vt) (x : Nat) : List Nat :=
  if t.complex then [redundant t.w x, redundant t.w (x / 2 ^ t.w)] else [redundant t.w x]

/-- VHEAD (R193): it folds the counts of its sources. -/
def execVhead (_cont : Bool) (d a p : BitVec 5) (s : State) :
    Host.Outcome State Fault Refusal :=
  s.elemWise (Vt.isIn [0, 2, 4]) d a p [] (fun u t e =>
    { val := (t.perComp (fun x _ => { val := redundant t.w x, ev := 0 }) (u.elem a e) 0).val,
      ev := 0, heads := t.signBits (u.elem a e) })
/-- VQNEG (R190). -/
def execVqneg (_cont : Bool) (d a p : BitVec 5) (s : State) :
    Host.Outcome State Fault Refusal :=
  s.unary (Vt.isIn [0, 2, 4]) d a p
    (fun t x => t.perComp (fun x _ => t.fit (-t.int x)) x x)
/-- VQABS (R190). -/
def execVqabs (_cont : Bool) (d a p : BitVec 5) (s : State) :
    Host.Outcome State Fault Refusal :=
  s.unary (Vt.isIn [0, 2, 4]) d a p
    (fun t x => t.perComp (fun x _ => t.fit (t.int x).natAbs) x x)

end Sys2Proof.Machine
end

