-- ==== Sys2Proof/Machine/VCplx.lean ====
section
/-!
DEFINITION. Complex arithmetic: major 0x2C (R210, R129).
-/

namespace Sys2Proof.Machine

open Sys2Proof

/-- The format of a component under CLASS 5 (R118). -/
def Vt.compFmt (t : Vt) : Fmt := fmtOf 0 (t.sewE - 1)
/-- Real and imaginary parts of a complex element (R118). -/
def Vt.re (t : Vt) (x : Nat) : Nat := x % 2 ^ (t.sew / 2)
def Vt.im (t : Vt) (x : Nat) : Nat := x / 2 ^ (t.sew / 2) % 2 ^ (t.sew / 2)
/-- A complex element of two components. -/
def Vt.pair (t : Vt) (re im : Out) : Out :=
  { val := re.val + im.val * 2 ^ (t.sew / 2), ev := re.ev ||| im.ev }

/-- One component of a complex result: the signed sum of terms. Under CLASS 4 the exact sum, shifted by
w − 1 when it holds products, single terms then scaled up; under CLASS 5 the exact sum rounded once,
with the operands in the order of R122. -/
def Vt.compSum (t : Vt) (ops : List Nat) (ts : List Term) : Out :=
  if t.cls = 4 then
    let prods := ts.any (fun x => x.b.isSome)
    let y := ts.foldl (fun z x =>
      let v := match x.b with
        | some b => t.int x.a * t.int b
        | none => if prods then shlI (t.int x.a) (t.w - 1) else t.int x.a
      if x.neg then z - v else z + v) 0
    t.fit (if prods then rshift y (t.w - 1) t.rnd else y)
  else t.compFmt.sum t.rnd ops ts

def plus (a : Nat) : Term := { neg := false, a := a, b := none }
def minus (a : Nat) : Term := { neg := true, a := a, b := none }
def prod (a b : Nat) : Term := { neg := false, a := a, b := some b }
def negProd (a b : Nat) : Term := { neg := true, a := a, b := some b }

/-- x × y, or x × conj(y), plus the terms of an addend (R129, R210). A conjugate subtracts the terms of y's
imaginary part, so that a NaN there keeps its sign (log entry 48). -/
def Vt.cmul (t : Vt) (conj : Bool) (x y : Nat) (d : Option Nat) : Out :=
  let xr := t.re x
  let xi := t.im x
  let yr := t.re y
  let yi := t.im y
  let dr := (d.map t.re).toList
  let di := (d.map t.im).toList
  t.pair
    (t.compSum ([xr, xi, yr, yi] ++ dr)
      ([prod xr yr, { neg := !conj, a := xi, b := some yi }] ++ dr.map plus))
    (t.compSum ([xr, xi, yr, yi] ++ di)
      ([{ neg := conj, a := xr, b := some yi }, prod xi yr] ++ di.map plus))

/-- The negation of a component: fitted under CLASS 4, an inverted sign bit under CLASS 5 (R210). -/
def Vt.negComp (t : Vt) (x : Nat) : Out :=
  if t.cls = 4 then t.fit (-t.int x)
  else { val := (x + 2 ^ (t.w - 1)) % 2 ^ t.w, ev := 0 }

/-- A component that is carried unchanged. -/
def same (x : Nat) : Out := { val := x, ev := 0 }

def isComplex : Vt → Bool := Vt.isIn [4, 5]

/-- VCADD (R210). -/
def execVcadd (_cont : Bool) (d a b p : BitVec 5) (s : State) :
    Host.Outcome State Fault Refusal :=
  s.binary isComplex d a (.vec b) p (fun t x y =>
    t.pair (t.compSum [t.re x, t.re y] [plus (t.re x), plus (t.re y)])
      (t.compSum [t.im x, t.im y] [plus (t.im x), plus (t.im y)]))
/-- VCADD (R210), scalar form. -/
def execVcaddVs (_cont : Bool) (d a b p : BitVec 5) (s : State) :
    Host.Outcome State Fault Refusal :=
  s.binary isComplex d a (.sca b) p (fun t x y =>
    t.pair (t.compSum [t.re x, t.re y] [plus (t.re x), plus (t.re y)])
      (t.compSum [t.im x, t.im y] [plus (t.im x), plus (t.im y)]))
/-- VCSUB (R210). -/
def execVcsub (_cont : Bool) (d a b p : BitVec 5) (s : State) :
    Host.Outcome State Fault Refusal :=
  s.binary isComplex d a (.vec b) p (fun t x y =>
    t.pair (t.compSum [t.re x, t.re y] [plus (t.re x), minus (t.re y)])
      (t.compSum [t.im x, t.im y] [plus (t.im x), minus (t.im y)]))
/-- VCSUB (R210), scalar form. -/
def execVcsubVs (_cont : Bool) (d a b p : BitVec 5) (s : State) :
    Host.Outcome State Fault Refusal :=
  s.binary isComplex d a (.sca b) p (fun t x y =>
    t.pair (t.compSum [t.re x, t.re y] [plus (t.re x), minus (t.re y)])
      (t.compSum [t.im x, t.im y] [plus (t.im x), minus (t.im y)]))
/-- VCSCL (R210). -/
def execVcscl (_cont : Bool) (d a b p : BitVec 5) (s : State) :
    Host.Outcome State Fault Refusal :=
  s.binary isComplex d a (.vec b) p (fun t x y =>
    t.pair (t.compSum [t.re x, t.re y] [prod (t.re x) (t.re y)])
      (t.compSum [t.im x, t.re y] [prod (t.im x) (t.re y)]))
/-- VCSCL (R210), scalar form. -/
def execVcsclVs (_cont : Bool) (d a b p : BitVec 5) (s : State) :
    Host.Outcome State Fault Refusal :=
  s.binary isComplex d a (.sca b) p (fun t x y =>
    t.pair (t.compSum [t.re x, t.re y] [prod (t.re x) (t.re y)])
      (t.compSum [t.im x, t.re y] [prod (t.im x) (t.re y)]))
/-- VCMUL (R210). -/
def execVcmul (_cont : Bool) (d a b p : BitVec 5) (o : BitVec 1) (s : State) :
    Host.Outcome State Fault Refusal :=
  s.binary isComplex d a (.vec b) p (fun t x y => t.cmul (o == 1#1) x y none)
/-- VCMUL (R210), scalar form. -/
def execVcmulVs (_cont : Bool) (d a b p : BitVec 5) (o : BitVec 1) (s : State) :
    Host.Outcome State Fault Refusal :=
  s.binary isComplex d a (.sca b) p (fun t x y => t.cmul (o == 1#1) x y none)
/-- VCMAC (R210). -/
def execVcmac (_cont : Bool) (d a b p : BitVec 5) (o : BitVec 1) (s : State) :
    Host.Outcome State Fault Refusal :=
  s.elemWise isComplex d a p (Src.regs (.vec b)) (fun u t e =>
    t.res (t.cmul (o == 1#1) (u.elem a e) (u.src (.vec b) e) (some (u.elem d e))))
/-- VCMAC (R210), scalar form. -/
def execVcmacVs (_cont : Bool) (d a b p : BitVec 5) (o : BitVec 1) (s : State) :
    Host.Outcome State Fault Refusal :=
  s.elemWise isComplex d a p (Src.regs (.sca b)) (fun u t e =>
    t.res (t.cmul (o == 1#1) (u.elem a e) (u.src (.sca b) e) (some (u.elem d e))))
/-- VCMAG2 (R210). -/
def execVcmag2 (_cont : Bool) (d a p : BitVec 5) (s : State) :
    Host.Outcome State Fault Refusal :=
  s.unary isComplex d a p (fun t x =>
    t.pair (t.compSum [t.re x, t.im x] [prod (t.re x) (t.re x), prod (t.im x) (t.im x)]) (same 0))
/-- VCROT (R210): × j, or × (−j) with the option. -/
def execVcrot (_cont : Bool) (d a p : BitVec 5) (o : BitVec 1) (s : State) :
    Host.Outcome State Fault Refusal :=
  s.unary isComplex d a p (fun t x =>
    if o = 1#1 then t.pair (same (t.im x)) (t.negComp (t.re x))
    else t.pair (t.negComp (t.im x)) (same (t.re x)))
/-- VCCONJ (R210). -/
def execVcconj (_cont : Bool) (d a p : BitVec 5) (s : State) :
    Host.Outcome State Fault Refusal :=
  s.unary isComplex d a p (fun t x => t.pair (same (t.re x)) (t.negComp (t.im x)))

end Sys2Proof.Machine
end

