-- ==== Sys2Proof/Machine/VSignal.lean ====
section
/-!
DEFINITION. Butterflies and the bit, segment and coding operations: major 0x2D (R211 to R216).
-/

namespace Sys2Proof.Machine

open Sys2Proof

/-- A rule of a description on vl or on an operand, which holds only where some element is active: without
one the instruction raises nothing (R209, log entry 30). -/
def needActive (p : BitVec 5) (ok : State → Bool) : M Unit := do
  let u ← get
  need ((u.selected p).isEmpty || ok u)

/-- No register of the groups overlaps vd, and the thread does not span (R209). -/
def apart (d : BitVec 5) (sources : List (BitVec 5)) : M Unit := do
  let s ← get
  let g := s.vt.gm
  need (sources.all (fun a => !rangesMeet d.toNat g a.toNat g) && s.th.held.remote == 0)

/-- Write elements and merge classes that are attributed to given elements; CLASS 2 and 4 results fold
into vhr. -/
def State.putAll (s : State) (t : Vt) (d : BitVec 5) (vals : List (Nat × Nat))
    (evs : List (Nat × Nat)) : State :=
  ((vals.foldl (fun u r => u.putElem d r.1 r.2) s).mergeFlags evs).foldHead
    (vals.foldl (fun l r => l ++ t.headsOf r.2) [])

/-! ### Butterflies (R211) -/

/-- A complex value inside a butterfly: exact integers with 2 × (w − 1) fraction bits under CLASS 4,
component bits under CLASS 5. -/
structure Leg where
  re : Int
  im : Int
  deriving DecidableEq, Repr

/-- An input of a butterfly, unmultiplied. -/
def Vt.leg (t : Vt) (x : Nat) : Leg :=
  if t.cls = 4 then { re := shlI (t.int (t.re x)) (t.w - 1), im := shlI (t.int (t.im x)) (t.w - 1) }
  else { re := t.re x, im := t.im x }

/-- A twiddle product, with the classes its rounding raises under CLASS 5. -/
def Vt.twiddle (t : Vt) (b x : Nat) : Leg × Nat :=
  if t.cls = 4 then
    let br := t.int (t.re b)
    let bi := t.int (t.im b)
    let xr := t.int (t.re x)
    let xi := t.int (t.im x)
    ({ re := br * xr - bi * xi, im := br * xi + bi * xr }, 0)
  else
    let o := t.cmul false b x none
    ({ re := t.re o.val, im := t.im o.val }, o.ev)

/-- A component of a leg times j^r: the sign and the value. -/
def Leg.turn (l : Leg) (r : Nat) (imag : Bool) : Bool × Int :=
  if r % 4 = 0 then (false, if imag then l.im else l.re)
  else if r % 4 = 1 then (!imag, if imag then l.re else l.im)
  else if r % 4 = 2 then (true, if imag then l.im else l.re)
  else (imag, if imag then l.re else l.im)

/-- fit(sum of legs, each times a power of j; g) of R211. -/
def Vt.fitLegs (t : Vt) (g : Nat) (ls : List (Leg × Nat)) : Out :=
  let comp := fun imag =>
    let xs := ls.map (fun l => l.1.turn l.2 imag)
    if t.cls = 4 then
      t.fit (rshift (xs.foldl (fun z x => if x.1 then z - x.2 else z + x.2) 0) (t.w - 1 + g) t.rnd)
    else
      t.compFmt.sum t.rnd (xs.map (fun x => x.2.toNat))
        (xs.map (fun x => { neg := x.1, a := x.2.toNat, b := none }))
  t.pair (comp false) (comp true)

/-- Butterfly e of radix r: output k is the sum over m of leg m times (−j)^(m × k × 4 / r). -/
def State.butterfly (s : State) (t : Vt) (r : Nat) (a b : BitVec 5) (e : Nat) : List Out × Nat :=
  let q := s.vl / r
  let legs := (List.range r).map (fun m =>
    if m = 0 then (t.leg (s.elem a e), 0)
    else t.twiddle (s.elem b (e * (r - 1) + (m - 1))) (s.elem a (e + m * q)))
  let outs := (List.range r).map (fun k =>
    t.fitLegs (r / 2) ((List.range r).map (fun m =>
      ((legs.getD m (⟨0, 0⟩, 0)).1, 3 * k * m * (4 / r)))))
  (outs, (legs.map (·.2)).foldl (· ||| ·) 0)

/-- VBFLY2 and VBFLY4. Every class raised in butterfly e is attributed to element e. -/
def State.fly (s : State) (r : Nat) (d a b p : BitVec 5) : Host.Outcome State Fault Refusal :=
  s.conclude (do
    let t ← vectorChecks [d, a, b] isComplex
    needActive p (fun u => decide (u.vl % r = 0))
    apart d [a, b]
    if (← get).wholePass then
      modify (fun u =>
        let rs := ((u.selected p).filter (fun e => decide (e < u.vl / r))).map
          (fun e => (e, u.butterfly t r a b e))
        u.putAll t d
          (rs.foldl (fun l x => l ++ (List.range r).zipWith (fun k o => (r * x.1 + k, o.val)) x.2.1) [])
          (rs.map (fun x => (x.1, x.2.1.foldl (fun m o => m ||| o.ev) x.2.2)))))

def execVbfly2 (_cont : Bool) (d a b p : BitVec 5) (s : State) : Host.Outcome State Fault Refusal :=
  s.fly 2 d a b p
def execVbfly4 (_cont : Bool) (d a b p : BitVec 5) (s : State) : Host.Outcome State Fault Refusal :=
  s.fly 4 d a b p

/-! ### Reordering (R212, R213) -/

/-- A move of elements between positions: checks on the operands, then vd[e] := va[f e]. -/
def State.reorder (s : State) (d a p : BitVec 5) (ok : State → Bool) (f : State → Nat → Nat) :
    Host.Outcome State Fault Refusal :=
  s.conclude (do
    let t ← vectorChecks [d, a] (fun t => !t.sq)
    needActive p ok
    apart d [a]
    if (← get).wholePass then
      modify (fun u => u.putAll t d ((u.selected p).map (fun e => (e, u.elem a (f u e)))) []))

/-- VBITREV (R212). -/
def execVbitrev (_cont : Bool) (d a p : BitVec 5) (s : State) : Host.Outcome State Fault Refusal :=
  s.reorder d a p (fun u => decide (u.vl = 2 ^ Nat.log2 u.vl)) (fun u e => revN (Nat.log2 u.vl) e)

/-- VBPERM (R212): one index vector permutes the bits of every element. -/
def execVbperm (_cont : Bool) (d a b p : BitVec 5) (s : State) : Host.Outcome State Fault Refusal :=
  s.elemWise (fun t => !t.sq) d a p [b] (fun u t e =>
    t.res { val := bitsOf t.sew (fun i => (u.elem a e).testBit (u.elem b i % t.sew)), ev := 0 })

/-- The row count of an interleaver is legal for vl (R212). -/
def interleaveOk (b : BitVec 5) (u : State) : Bool :=
  decide (1 ≤ (u.rd b).toNat ∧ u.vl % (u.rd b).toNat = 0)

/-- VINTLV (R212). -/
def execVintlv (_cont : Bool) (d a b p : BitVec 5) (s : State) : Host.Outcome State Fault Refusal :=
  s.reorder d a p (interleaveOk b)
    (fun u e => e % (u.rd b).toNat * (u.vl / (u.rd b).toNat) + e / (u.rd b).toNat)
/-- VDINTLV (R212). -/
def execVdintlv (_cont : Bool) (d a b p : BitVec 5) (s : State) : Host.Outcome State Fault Refusal :=
  s.reorder d a p (interleaveOk b)
    (fun u e => e % (u.vl / (u.rd b).toNat) * (u.rd b).toNat + e / (u.vl / (u.rd b).toNat))

/-- Z and c of VROTZ (R213). -/
def rotZ (x : W64) : Nat := bitsAt 9 0 x.toNat
def rotC (x : W64) : Nat := bitsAt 9 16 x.toNat

/-- VROTZ (R213). -/
def execVrotz (_cont : Bool) (d a b p : BitVec 5) (s : State) : Host.Outcome State Fault Refusal :=
  s.reorder d a p
    (fun u =>
      let x := u.rd b
      decide (2 ≤ rotZ x ∧ rotZ x ≤ 384 ∧ rotC x < rotZ x ∧ x.toNat = rotZ x + rotC x * 2 ^ 16 ∧
        u.vl % rotZ x = 0))
    (fun u e =>
      let z := rotZ (u.rd b)
      e / z * z + (e % z + rotC (u.rd b)) % z)

/-- VBGATH (R214): bit j of each active element, packed; inactive elements below vl and the padding of
the last byte are written as 0. In a spanned thread the bits cross the dies, as no rule makes the instruction
trap there (R16, R18; log entry 114). -/
def execVbgath (_cont : Bool) (d a b p : BitVec 5) (s : State) : Host.Outcome State Fault Refusal :=
  s.conclude (do
    let t ← vectorChecks [d, a] (fun t => !t.sq)
    modify (fun u =>
      if (u.selected p).isEmpty then u
      else
        let j := (u.rd b).toNat % t.sew
        let es := (List.range u.vl).filter (fun e => u.performs e && !u.done e)
        let pad := (List.range (8 * ceilDiv u.vl 8 - u.vl)).map (· + u.vl)
        let bits := es.map (fun e => (e, u.gov p e && (u.elem a e).testBit j)) ++ pad.map (·, false)
        bits.foldl (fun v x => v.putBits d.toNat x.1 1 (if x.2 then 1 else 0)) u))

/-! ### VGOLD (R215) -/

/-- One step of x1: bits 0 to 30 hold x1(m) to x1(m + 30). -/
def gold1 (x : Nat) : Nat := x / 2 + (if x.testBit 3 != x.testBit 0 then 2 ^ 30 else 0)
/-- One step of x2. -/
def gold2 (x : Nat) : Nat :=
  x / 2 + (if (x.testBit 3 != x.testBit 2) != (x.testBit 1 != x.testBit 0) then 2 ^ 30 else 0)

/-- The Gold state n steps on. -/
def goldSteps (n x1 x2 : Nat) : Nat :=
  upTo n (fun _ => gold1) x1 + upTo n (fun _ => gold2) x2 * 2 ^ 32

/-- GEN: 64 bits of the sequence from a state. -/
def goldGen (n x1 x2 i : Nat) : Nat :=
  match n with
  | 0 => 0
  | n + 1 =>
    (if x1.testBit 0 != x2.testBit 0 then 2 ^ i else 0) + goldGen n (gold1 x1) (gold2 x2) (i + 1)

/-- VGOLD (R215). -/
def execVgold (_cont : Bool) (d a b p : BitVec 5) (s : State) : Host.Outcome State Fault Refusal :=
  s.conclude (do
    let t ← vectorChecks [d, a] (fun t => decide (t.cls = 1 ∧ t.sewE = 3))
    let op := ((← get).rd b).toNat
    needActive p (fun _ => decide (op ≤ 2))
    modify (fun u => u.mapElems d p (fun e =>
      let x1 := u.elem a e % 2 ^ 31
      let x2 := u.elem a e / 2 ^ 32 % 2 ^ 31
      t.res (same (
        if op = 0 then goldGen 64 x1 x2 0
        else if op = 1 then goldSteps 64 x1 x2
        else goldSteps 1600 1 x1)))))

/-- VLLRPK (R216): the sources are i16 in a double group. -/
def execVllrpk (_cont : Bool) (d a b p : BitVec 5) (s : State) : Host.Outcome State Fault Refusal :=
  s.conclude (do
    let t ← vectorChecks [d] (fun t => decide (t.cls = 0 ∧ t.sewE = 0))
    need (groupOk t (2 * t.gm) a && !rangesMeet d.toNat t.gm a.toNat (2 * t.gm))
    let n := ((← get).rd b).toNat
    needActive p (fun _ => decide (n < 16))
    modify (fun u => u.mapElems d p (fun e =>
      let y := rshift (sextN 16 (u.elemOf (2 * t.gm) 16 a.toNat e)) n t.rnd
      let r := min (max y (-127)) 127
      t.res { val := lowN 8 r, ev := if r = y then 0 else evSat })))

end Sys2Proof.Machine
end

