-- ==== Sys2Proof/Machine/Solver.lean ====
section
/-!
DEFINITION. The batched solver: major 0x30 (R220 to R226). True values are exact complex fractions.
-/

namespace Sys2Proof.Machine

open Sys2Proof

/-! ### Exact complex fractions -/

/-- (re + j × im) / den, den > 0. -/
structure Frac where
  re : Int
  im : Int
  den : Nat
  deriving DecidableEq, Repr

def Frac.zero : Frac := { re := 0, im := 0, den := 1 }
def Frac.neg (x : Frac) : Frac := { x with re := -x.re, im := -x.im }
def Frac.conj (x : Frac) : Frac := { x with im := -x.im }
def Frac.add (x y : Frac) : Frac :=
  { re := x.re * y.den + y.re * x.den, im := x.im * y.den + y.im * x.den, den := x.den * y.den }
def Frac.sub (x y : Frac) : Frac := x.add y.neg
def Frac.mul (x y : Frac) : Frac :=
  { re := x.re * y.re - x.im * y.im, im := x.re * y.im + x.im * y.re, den := x.den * y.den }
def Frac.isZero (x : Frac) : Bool := decide (x.re = 0 ∧ x.im = 0)
/-- Squared magnitude of the numerator. -/
def Frac.norm (x : Frac) : Nat := (x.re * x.re + x.im * x.im).toNat
/-- x / y for y ≠ 0. -/
def Frac.div (x y : Frac) : Frac :=
  let z := x.mul { re := y.re, im := -y.im, den := 1 }
  { re := z.re * y.den, im := z.im * y.den, den := x.den * y.norm }
/-- The real number m × 2^e. -/
def Frac.dyadic (m : Int) (e : Int) : Frac :=
  if 0 ≤ e then { re := m * (2 ^ e.toNat : Nat), im := 0, den := 1 }
  else { re := m, im := 0, den := 2 ^ (-e).toNat }
/-- x × 2^e. -/
def Frac.scale (x : Frac) (e : Int) : Frac := x.mul (.dyadic 1 e)

/-- n / d rounded to an integer once, in the sense of R116. -/
def roundFrac (n : Int) (d mode : Nat) : Int :=
  let q := n / d
  let r := n - q * d
  if r = 0 then q
  else if mode = 1 then (if n < 0 then q + 1 else q)
  else if mode = 2 then q
  else if mode = 3 then q + 1
  else if 2 * r < d then q
  else if d < 2 * r then q + 1
  else if mode = 4 then (if n < 0 then q else q + 1)
  else if q % 2 = 0 then q else q + 1

/-- floor(log2 (n / d)) for n, d > 0. -/
def floorLog (n d : Nat) : Int :=
  let e : Int := (Nat.log2 n : Int) - Nat.log2 d
  if n * 2 ^ (-e).toNat < d * 2 ^ e.toNat then e - 1 else e

/-! ### Headers and matrices (R220) -/

/-- The fields of a header (R220); reserved bits are ignored. -/
structure Head where
  tag : Nat
  exp : Int
  k : Nat
  piv : Bool
  wsx : Bool
  deriving DecidableEq, Repr

def headOf (x : Nat) : Head :=
  { tag := x % 128, exp := sextN 8 (x / 256), k := bitsAt 4 16 x, piv := x.testBit 20,
    wsx := x.testBit 21 }

/-- The word of a header; reserved bits are written as zero. -/
def Head.word (h : Head) : Nat :=
  h.tag + lowN 8 h.exp * 2 ^ 8 + h.k % 16 * 2 ^ 16 + (if h.piv then 2 ^ 20 else 0) +
    (if h.wsx then 2 ^ 21 else 0)

def Head.dim (h : Head) : Nat := h.tag % 16
def Head.pat (h : Head) : Nat := h.tag / 32 % 4

/-- The true value of a stored complex element under a block exponent. -/
def Vt.trueVal (t : Vt) (exp : Int) (x : Nat) : Frac :=
  ({ re := t.int (t.re x), im := t.int (t.im x), den := 1 } : Frac).scale (exp - (t.w - 1 : Nat))

/-- What a step leaves of one group: the classes raised, and the new header and elements unless the
group is left unchanged. -/
structure Renormed where
  ev : Nat
  new : Option (Head × List Nat)
  deriving DecidableEq, Repr

/-- The largest component magnitude of a list of results, as a fraction; 0 for none. -/
def largest (l : List Frac) : Nat × Nat :=
  l.foldl (fun m x =>
    let c := max x.re.natAbs x.im.natAbs
    if m.1 * x.den < c * m.2 then (c, x.den) else m) (0, 1)

/-- Renormalise results under R221; `ev` holds what the step has raised. -/
def Vt.renormalise (t : Vt) (ev : Nat) (h : Head) (l : List Frac) : Renormed :=
  let m := largest l
  let e := if m.1 = 0 then h.exp else floorLog m.1 m.2 + 2
  if e < -128 ∨ 127 < e then { ev := ev ||| evOvf, new := none }
  else
    let put := fun (x : Frac) =>
      let y := x.scale ((t.w - 1 : Nat) - e)
      lowN t.w (roundFrac y.re y.den t.rnd) + lowN t.w (roundFrac y.im y.den t.rnd) * 2 ^ t.w
    { ev := ev, new := some ({ h with exp := e }, l.map put) }

/-- A pivot's stored element, regularised under R222: its true value, and whether it was. -/
def State.pivot (s : State) (t : Vt) (exp : Int) (x : Nat) : Frac × Bool :=
  let r := t.int (t.re x)
  let i := t.int (t.im x)
  if ((r * r + i * i) * (2 ^ 31 : Nat) : Int) < s.th.fl.vpthr.toNat * (2 ^ (2 * (t.w - 1)) : Nat) then
    ((t.trueVal exp x).add (.dyadic s.th.fl.vlam.toNat (exp - 31)), true)
  else (t.trueVal exp x, false)

/-! ### Steps -/

/-- An entry of a matrix held as a list of rows. -/
def entry (n : Nat) (m : List Frac) (i j : Nat) : Frac := m.getD (i * n + j) Frac.zero

/-- A matrix from its entries. -/
def matrixOf (n : Nat) (f : Nat → Nat → Frac) : List Frac :=
  (List.range (n * n)).map (fun x => f (x / n) (x % n))

/-- One Gauss–Jordan step on a matrix (R223). -/
def State.gaussJordan (s : State) (t : Vt) (n : Nat) (h : Head) (xs : List Nat) : Renormed :=
  let a := xs.map (t.trueVal h.exp)
  let k := h.k
  let p := s.pivot t h.exp (xs.getD (k * n + k) 0)
  let ev := if p.2 then evPiv else 0
  if p.1.isZero then { ev := ev ||| evDz, new := none }
  else
    t.renormalise ev { h with k := k + 1, piv := h.piv || p.2 }
      (matrixOf n (fun i j =>
        if i = k ∧ j = k then (Frac.dyadic 1 0).div p.1
        else if i = k then (entry n a k j).div p.1
        else if j = k then ((entry n a i k).div p.1).neg
        else (entry n a i j).sub (((entry n a i k).mul (entry n a k j)).div p.1)))

/-- One substitution step (R224): the results for y, and whether A's pivot was regularised. -/
def State.substitute (s : State) (t : Vt) (n : Nat) (ha hy : Head) (as ys : List Nat) :
    Renormed × Bool :=
  let k := hy.k
  let r := if ha.pat = 1 then k else n - 1 - k
  let p := s.pivot t ha.exp (as.getD (r * n + r) 0)
  let ev := if p.2 then evPiv else 0
  if p.1.isZero then ({ ev := ev ||| evDz, new := none }, p.2)
  else
    let y := ys.map (t.trueVal hy.exp)
    let x := (y.getD r Frac.zero).div p.1
    let unsolved := fun i => if ha.pat = 1 then decide (r < i) else decide (i < r)
    (t.renormalise ev { hy with k := k + 1 }
      ((List.range n).map (fun i =>
        if i = r then x
        else if unsolved i && decide (ha.pat ≠ 3) then
          (y.getD i Frac.zero).sub ((t.trueVal ha.exp (as.getD (i * n + r) 0)).mul x)
        else y.getD i Frac.zero)), p.2)

/-- A product of square matrices. -/
def matMul (n : Nat) (a b : List Frac) : List Frac :=
  matrixOf n (fun i j =>
    (List.range n).foldl (fun z k => z.add ((entry n a i k).mul (entry n b k j))) Frac.zero)

/-- A norm: the largest of n sums of component magnitudes |re| + |im| (R225). -/
def norm (n : Nat) (f : Nat → Nat → Frac) : Nat × Nat :=
  (List.range n).foldl (fun m i =>
    let z := (List.range n).foldl (fun z j =>
      z.add { re := (f i j).re.natAbs + (f i j).im.natAbs, im := 0, den := (f i j).den }) Frac.zero
    if m.1 * z.den < z.re.natAbs * m.2 then (z.re.natAbs, z.den) else m) (0, 1)

/-- One Newton–Schulz step (R225). -/
def Vt.newtonSchulz (t : Vt) (n : Nat) (ha hx : Head) (as xs : List Nat) : Renormed :=
  let a := as.map (t.trueVal ha.exp)
  let cold := decide (hx.tag ≠ ha.tag)
  let ev := if cold then evWsx else 0
  let n1 := norm n (fun i j => entry n a j i)
  let ni := norm n (fun i j => entry n a i j)
  if n1.1 = 0 then { ev := ev ||| evDz, new := none }
  else
    let x := if cold then
        matrixOf n (fun i j =>
          ((entry n a j i).conj).div { re := (n1.1 * ni.1 : Nat), im := 0, den := n1.2 * ni.2 })
      else xs.map (t.trueVal hx.exp)
    let ax := matMul n a x
    let r := matrixOf n (fun i j =>
      (Frac.dyadic (if i = j then 2 else 0) 0).sub (entry n ax i j))
    t.renormalise ev
      { hx with tag := ha.tag, k := min (hx.k + 1) 15, wsx := hx.wsx || cold }
      (matMul n x r)

/-! ### Instructions -/

/-- n elements of a group from index i. -/
def State.elems (s : State) (v : BitVec 5) (i n : Nat) : List Nat :=
  (List.range n).map (fun k => s.elem v (i + k))

/-- The checks of R209 and R220: disjoint registers, no span, CLASS 4, then the batch dimension of the
header register and its conditions, which hold where some matrix is governed. It gives the type, n (0 when nothing is
to be done) and B. -/
def solverChecks (d p : BitVec 5) (rest : List (BitVec 5)) (head : BitVec 5) (pairs : Bool) :
    M (Vt × Nat × Nat) := do
  let t ← vectorChecks (d :: rest) (Vt.isIn [4])
  apart d rest
  match rest with
  | [a, b] => need (!rangesMeet a.toNat t.gm b.toNat t.gm)
  | _ => pure ()
  let s ← get
  let n := s.elem head 0 % 16
  if n = 0 ∨ 8 < n then pure (t, 0, 0)
  else
    let idle := !(List.range (ceilDiv s.vl (n * n))).any (s.gov p)
    need (idle || decide (s.vl % (n * n) = 0))
    need (idle || !pairs || decide (2 * (s.vl / (n * n)) ≤ s.vlmax))
    pure (t, n, s.vl / (n * n))

/-- Write what steps give: elements of vd from index `size` × matrix, headers at the given elements, and
the classes at each matrix. -/
def State.putResults (s : State) (t : Vt) (d head : BitVec 5) (size : Nat)
    (rs : List (Nat × Renormed × List (Nat × Nat))) : State :=
  let vals := rs.foldl (fun l r =>
    match r.2.1.new with
    | some g => l ++ (List.range g.2.length).zipWith (fun k x => (r.1 * size + k, x)) g.2
    | none => l) []
  let s1 := s.putAll t d vals (rs.map (fun r => (r.1, r.2.1.ev)))
  (rs.foldl (fun l r => l ++ r.2.2) []).foldl (fun u x => u.putElem head x.1 x.2) s1

/-- The header write of a result at an element; none when the group is left unchanged. -/
def Renormed.head (r : Renormed) (e : Nat) : List (Nat × Nat) :=
  match r.new with | some g => [(e, g.1.word)] | none => []

/-- VGJSTEP (R223). -/
def execVgjstep (_cont : Bool) (d a p : BitVec 5) (s : State) : Host.Outcome State Fault Refusal :=
  s.conclude (do
    let (t, n, bs) ← solverChecks d p [a] a false
    if (← get).wholePass then
      modify (fun u =>
        let rs := (List.range bs).filterMap (fun b =>
          let h := headOf (u.elem a b)
          if u.gov p b && decide (h.dim = n ∧ h.k < n) then
            let r := u.gaussJordan t n h (u.elems d (b * n * n) (n * n))
            some (b, r, r.head b)
          else none)
        u.putResults t d a (n * n) rs))

/-- VBSOLVE (R224). -/
def execVbsolve (_cont : Bool) (d a b p : BitVec 5) (s : State) : Host.Outcome State Fault Refusal :=
  s.conclude (do
    let (t, n, bs) ← solverChecks d p [a, b] b true
    if (← get).wholePass then
      modify (fun u =>
        let rs := (List.range bs).filterMap (fun m =>
          let ha := headOf (u.elem b (2 * m))
          let hy := headOf (u.elem b (2 * m + 1))
          if u.gov p m && decide (ha.dim = n ∧ hy.dim = n ∧ hy.k < n) then
            let r := u.substitute t n ha hy (u.elems a (m * n * n) (n * n)) (u.elems d (m * n) n)
            let ah := if r.2 && r.1.new.isSome then [(2 * m, ({ ha with piv := true } : Head).word)]
              else []
            some (m, r.1, r.1.head (2 * m + 1) ++ ah)
          else none)
        u.putResults t d b n rs))

/-- VNSSTEP (R225). -/
def execVnsstep (_cont : Bool) (d a b p : BitVec 5) (s : State) : Host.Outcome State Fault Refusal :=
  s.conclude (do
    let (t, n, bs) ← solverChecks d p [a, b] b true
    if (← get).wholePass then
      modify (fun u =>
        let rs := (List.range bs).filterMap (fun m =>
          if u.gov p m then
            let r := t.newtonSchulz n (headOf (u.elem b (2 * m))) (headOf (u.elem b (2 * m + 1)))
              (u.elems a (m * n * n) (n * n)) (u.elems d (m * n * n) (n * n))
            some (m, r, r.head (2 * m + 1))
          else none)
        u.putResults t d b (n * n) rs))

/-- VWSTAG's header (R226), and whether WSX is raised. -/
def tagHead (x : W64) (h : Head) : Head × Bool :=
  let tag := x.toNat % 128
  if x.getLsbD 8 then ({ h with wsx := h.wsx || decide (h.tag ≠ tag) }, decide (h.tag ≠ tag))
  else ({ tag := tag, exp := h.exp, k := 0, piv := false, wsx := false }, false)

/-- VWSTAG (R226). -/
def execVwstag (_cont : Bool) (d a b p : BitVec 5) (s : State) : Host.Outcome State Fault Refusal :=
  s.conclude (do
    let _ ← vectorChecks [d, a] (Vt.isIn [4])
    let x := (← get).rd b
    needActive p (fun _ =>
      decide (x.toNat / 512 = 0) && !x.getLsbD 7 && decide (1 ≤ x.toNat % 16 ∧ x.toNat % 16 ≤ 8))
    need ((← get).th.held.remote == 0)
    if (← get).wholePass then
      modify (fun u =>
        let rs := (u.selected p).map (fun e => (e, tagHead x (headOf (u.elem a e))))
        (rs.foldl (fun v r => v.putElem d r.1 r.2.1.word) u).mergeFlags
          (rs.map (fun r => (r.1, if r.2.2 then evWsx else 0)))))

end Sys2Proof.Machine
end

