-- ==== Sys2Proof/Machine/System.lean ====
section
/-!
DEFINITION. System instructions: major 0x11 (R316 to R323).
-/

namespace Sys2Proof.Machine

open Sys2Proof

/-- SVC (R317): traps after it completes, with epc the next convoy and eval n. -/
def execSvc (i : BitVec 15) (s : State) : Host.Outcome State Fault Refusal :=
  s.trapNow { plainTrap Cause.svc (i.setWidth 64) with next := true }

/-- ERET (R318); single-stepped, the STEP trap follows at the convoy returned to (R415), unless the ERET resumes
what a debug halt stopped: then it follows that convoy (R434). -/
def execEret (s : State) : Host.Outcome State Fault Refusal :=
  if s.th.sc.mode = .U then s.trapNow (plainTrap Cause.priv s.evalWord)
  else if s.th.tr.lvl = 3#2 then s.trapNow (plainTrap Cause.illop s.evalWord)
  else if s.th.tr.lvl = 2#2 then
    if s.th.sc.mode = .L then s.trapNow (plainTrap Cause.priv s.evalWord)
    else .next ((s.returnFrom .S).stepTrap.endHold .S)
  else
    let m := if s.th.tr.lvl = 0#2 then Mode.U else Mode.L
    .next ((s.returnFrom m).stepTrap.endHold m)

/-- NAP (R319). -/
def execNap (d : BitVec 5) (s : State) : Host.Outcome State Fault Refusal :=
  s.conclude (do
    if s.th.hw.wake ≠ 0#8 then
      modify (fun t => (t.wr d (s.th.hw.wake.setWidth 64)).modHw (fun h => { h with wake := 0 }))
    else if s.th.held.yreq then modify (fun t => t.wr d 0)
    else waitFor .nap)

/-- The slots that WAKE names (R319). -/
def State.wakeTargets (s : State) (x : Nat) : List Nat :=
  if x.testBit 16 then (List.range 4).map (fun k => 4 * s.curVc + k) else [x % 2048]

/-- WAKE (R319): a release of package scope. -/
def execWake (d a : BitVec 5) (s : State) : Host.Outcome State Fault Refusal :=
  let x := (s.rd a).toNat
  s.conclude (do
    need (decide (x - bitsAt 1 16 x * 2 ^ 16 < 2048))
    if (s.wakeTargets x).any (fun n => !(s.part s.curPart).table.tiles.contains (tileOf n)) then
      modify (fun t => t.wr d 1)
    else
      release
      modify (fun t => ((s.wakeTargets x).foldl State.wakeSlot t).wr d 0))

/-- YIELD (R320). -/
def execYield (s : State) : Host.Outcome State Fault Refusal :=
  if s.th.sc.mode = .U ∧ s.th.held.yreq then
    (s.modHeld (fun h => { h with yreq := false })).trapNow
      { plainTrap Cause.yieldreq 0 with next := true }
  else .next s.finish

/-- The end of HALT in L mode: the ringmaster reads RESUME, and the slot is given up. A walk that waits makes the
context wait; a poisoned word stops the function (R75). -/
def State.endHalt (s : State) : State :=
  let r := s.readResume s.cur
  match r.1 with
  | .held => r.2.modHw (fun h => { h with wait := some .line })
  | .mac => ((r.2.macFailure [s.th.id.vf.toNat]).parkJob s.cur false).emptySlot s.cur false
  | .missing => (r.2.parkJob s.cur false).emptySlot s.cur false
  | .found p => (r.2.parkJob s.cur ((r.2.wordAt p 0 8).testBit 0)).emptySlot s.cur false

/-- HALT (R321). In L mode the slot is given up after the drain and the acknowledgements. In S mode
the context stays migrated and not ready, and the SC takes the next context. -/
def execHalt (s : State) : Host.Outcome State Fault Refusal :=
  match s.th.sc.mode with
  | .U => s.trapNow (plainTrap Cause.priv s.evalWord)
  | .L =>
    match (do drainBuffer; awaitTrains : M Unit) s with
    | (.ok _, t) => .next t.endHalt
    | (.error (.trap i), t) => .next (t.takeTrap i)
    | (.error (.wait w), t) => .next (t.modHw (fun h => { h with wait := some w }))
  | .S =>
    .next ((s.modHw (fun h => { h with parked := true, wait := none })).modTile s.curTile
      (fun t => { t with scQueue := t.scQueue.filter (fun n => decide (n ≠ s.cur)) }))

/-- BKPT (R317, R440): epc names the BKPT itself; triggers with ONBK fire. -/
def execBkpt (i : BitVec 15) (s : State) : Host.Outcome State Fault Refusal :=
  (s.fireWhere (·.onbk)).trapNow (plainTrap Cause.bkpt (i.setWidth 64))

/-- IFENCE (R322, R277): the buffer drains, and the VC's instruction cache and the thread's fetched words
go. The loop buffer goes after the convoy has stepped the nest it stands in (R296). -/
def execIfence (s : State) : Host.Outcome State Fault Refusal :=
  match s.conclude (do
    drainBuffer
    modify (fun t => (t.modVc t.curVc (fun v => { v with icache := [] })).modHw
      (fun h => { h with fetched := [] }))) with
  | .next t =>
    .next (if t.th.hw.wait.isSome then t else t.modNest (fun n => { n with buf := [] }))
  | o => o

/-- RAISE (R323). -/
def execRaise (a b : BitVec 5) (s : State) : Host.Outcome State Fault Refusal :=
  let c := (s.rd a).toNat
  if s.th.sc.mode = .U then s.trapNow (plainTrap Cause.priv s.evalWord)
  else if ¬ (1 ≤ c ∧ c ≤ 0x14 ∧ c ≠ Cause.macfail) then
    s.trapNow (plainTrap Cause.illop s.evalWord)
  else
    .next (((s.modTr (fun r => { r with cause := BitVec.ofNat 8 c, val := s.rd b })).modHw
      (fun h => { h with wait := none })).enterHandler .S c)

end Sys2Proof.Machine
end

