-- ==== Sys2Proof/Machine/VFloat.lean ====
section
/-!
DEFINITION. Floating-point vector instructions: major 0x23 (R194 to R196).
-/

namespace Sys2Proof.Machine

open Sys2Proof

/-- The format that vtype names under CLASS 3. -/
def Vt.format (t : Vt) : Fmt := fmtOf t.fmt t.sewE

/-- A two-source operation of major 0x23. -/
def State.floatOp (s : State) (d a : BitVec 5) (y : Src) (p : BitVec 5)
    (f : Fmt → Nat → Nat → Nat → Out) : Host.Outcome State Fault Refusal :=
  s.binary (Vt.isIn [3]) d a y p (fun t x y => f t.format t.rnd x y)

/-- A three-source operation of major 0x23: d, the old destination, is a source. -/
def State.floatOp3 (s : State) (d a : BitVec 5) (y : Src) (p : BitVec 5)
    (f : Fmt → Nat → Nat → Nat → Nat → Out) : Host.Outcome State Fault Refusal :=
  s.elemWise (Vt.isIn [3]) d a p y.regs
    (fun u t e => t.res (f t.format t.rnd (u.elem a e) (u.src y e) (u.elem d e)))

def execVfadd (_cont : Bool) (d a b p : BitVec 5) (s : State) :
    Host.Outcome State Fault Refusal :=
  s.floatOp d a (.vec b) p Fmt.add
def execVfaddVs (_cont : Bool) (d a b p : BitVec 5) (s : State) :
    Host.Outcome State Fault Refusal :=
  s.floatOp d a (.sca b) p Fmt.add
def execVfsub (_cont : Bool) (d a b p : BitVec 5) (s : State) :
    Host.Outcome State Fault Refusal :=
  s.floatOp d a (.vec b) p Fmt.sub
def execVfsubVs (_cont : Bool) (d a b p : BitVec 5) (s : State) :
    Host.Outcome State Fault Refusal :=
  s.floatOp d a (.sca b) p Fmt.sub
def execVfmul (_cont : Bool) (d a b p : BitVec 5) (s : State) :
    Host.Outcome State Fault Refusal :=
  s.floatOp d a (.vec b) p Fmt.mul
def execVfmulVs (_cont : Bool) (d a b p : BitVec 5) (s : State) :
    Host.Outcome State Fault Refusal :=
  s.floatOp d a (.sca b) p Fmt.mul
def execVfdiv (_cont : Bool) (d a b p : BitVec 5) (s : State) :
    Host.Outcome State Fault Refusal :=
  s.floatOp d a (.vec b) p Fmt.div
def execVfdivVs (_cont : Bool) (d a b p : BitVec 5) (s : State) :
    Host.Outcome State Fault Refusal :=
  s.floatOp d a (.sca b) p Fmt.div
def execVfmin (_cont : Bool) (d a b p : BitVec 5) (s : State) :
    Host.Outcome State Fault Refusal :=
  s.floatOp d a (.vec b) p (fun f _ x y => f.minmax false x y)
def execVfminVs (_cont : Bool) (d a b p : BitVec 5) (s : State) :
    Host.Outcome State Fault Refusal :=
  s.floatOp d a (.sca b) p (fun f _ x y => f.minmax false x y)
def execVfmax (_cont : Bool) (d a b p : BitVec 5) (s : State) :
    Host.Outcome State Fault Refusal :=
  s.floatOp d a (.vec b) p (fun f _ x y => f.minmax true x y)
def execVfmaxVs (_cont : Bool) (d a b p : BitVec 5) (s : State) :
    Host.Outcome State Fault Refusal :=
  s.floatOp d a (.sca b) p (fun f _ x y => f.minmax true x y)
def execVfma (_cont : Bool) (d a b p : BitVec 5) (s : State) :
    Host.Outcome State Fault Refusal :=
  s.floatOp3 d a (.vec b) p (fun f m x y z => f.fma m false false x y z)
def execVfmaVs (_cont : Bool) (d a b p : BitVec 5) (s : State) :
    Host.Outcome State Fault Refusal :=
  s.floatOp3 d a (.sca b) p (fun f m x y z => f.fma m false false x y z)
def execVfms (_cont : Bool) (d a b p : BitVec 5) (s : State) :
    Host.Outcome State Fault Refusal :=
  s.floatOp3 d a (.vec b) p (fun f m x y z => f.fma m false true x y z)
def execVfmsVs (_cont : Bool) (d a b p : BitVec 5) (s : State) :
    Host.Outcome State Fault Refusal :=
  s.floatOp3 d a (.sca b) p (fun f m x y z => f.fma m false true x y z)
def execVfnma (_cont : Bool) (d a b p : BitVec 5) (s : State) :
    Host.Outcome State Fault Refusal :=
  s.floatOp3 d a (.vec b) p (fun f m x y z => f.fma m true false x y z)
def execVfnmaVs (_cont : Bool) (d a b p : BitVec 5) (s : State) :
    Host.Outcome State Fault Refusal :=
  s.floatOp3 d a (.sca b) p (fun f m x y z => f.fma m true false x y z)
def execVfclamp (_cont : Bool) (d a b p : BitVec 5) (s : State) :
    Host.Outcome State Fault Refusal :=
  s.floatOp3 d a (.vec b) p (fun f _ x y z => f.clamp z x y)
def execVfclampVs (_cont : Bool) (d a b p : BitVec 5) (s : State) :
    Host.Outcome State Fault Refusal :=
  s.floatOp3 d a (.sca b) p (fun f _ x y z => f.clamp z x y)
/-- VFSQRT (R194). -/
def execVfsqrt (_cont : Bool) (d a p : BitVec 5) (s : State) :
    Host.Outcome State Fault Refusal :=
  s.unary (Vt.isIn [3]) d a p (fun t x => t.format.sqrt t.rnd x)
/-- VFABS (R194): the sign bit of every encoding is cleared. -/
def execVfabs (_cont : Bool) (d a p : BitVec 5) (s : State) :
    Host.Outcome State Fault Refusal :=
  s.unary (Vt.isIn [3]) d a p (fun t x => t.wrap (x % 2 ^ (t.sew - 1) : Nat))
/-- VFNEG (R194): the sign bit of every encoding is inverted. -/
def execVfneg (_cont : Bool) (d a p : BitVec 5) (s : State) :
    Host.Outcome State Fault Refusal :=
  s.unary (Vt.isIn [3]) d a p (fun t x => t.wrap (x + 2 ^ (t.sew - 1) : Nat))

end Sys2Proof.Machine
end

