-- ==== Sys2Proof/Machine/VMove.lean ====
section
/-!
DEFINITION. Unary and move instructions: major 0x25 (R200, R201).
-/

namespace Sys2Proof.Machine

open Sys2Proof

/-- VABS (R200). -/
def execVabs (_cont : Bool) (d a p : BitVec 5) (s : State) :
    Host.Outcome State Fault Refusal :=
  s.unary (Vt.isIn [0, 2, 6]) d a p (fun t x => t.wrap (t.sext x).natAbs)
/-- VNEG (R200). -/
def execVneg (_cont : Bool) (d a p : BitVec 5) (s : State) :
    Host.Outcome State Fault Refusal :=
  s.unary (Vt.isIn [0, 1, 2, 6]) d a p (fun t x => t.wrap (-(x : Int)))
/-- VCLZ (R200). -/
def execVclz (_cont : Bool) (d a p : BitVec 5) (s : State) :
    Host.Outcome State Fault Refusal :=
  s.unary (Vt.isIn [0, 1]) d a p (fun t x => t.wrap (clzN t.sew x))
/-- VPOPC (R200). -/
def execVpopc (_cont : Bool) (d a p : BitVec 5) (s : State) :
    Host.Outcome State Fault Refusal :=
  s.unary (Vt.isIn [0, 1]) d a p (fun t x => t.wrap (popN t.sew x))
/-- VMOV (R200). -/
def execVmov (_cont : Bool) (d a p : BitVec 5) (s : State) :
    Host.Outcome State Fault Refusal :=
  s.unary (fun _ => true) d a p (fun t x => t.wrap x)
/-- VMOVS (R200): scale bytes are unchanged. -/
def execVmovs (_cont : Bool) (d b p : BitVec 5) (s : State) : Host.Outcome State Fault Refusal :=
  s.conclude (do
    let t ← vectorChecks [d] (fun _ => true)
    modify (fun u => u.mapElems d p (fun _ => t.res (t.wrap (u.scalarElem b)))))

/-- The scalar that VMOVX writes (R201). -/
def State.movedOut (s : State) (a b : BitVec 5) : W64 :=
  let i := (s.rd b).toNat
  let t := s.vt
  if i < s.vl then
    if t.isIn [0, 2, 6] then BitVec.ofInt 64 (t.sext (s.elem a i)) else BitVec.ofNat 64 (s.elem a i)
  else 0

/-- VMOVX (R201). -/
def execVmovx (_cont : Bool) (d a b : BitVec 5) (s : State) : Host.Outcome State Fault Refusal :=
  s.conclude (do
    let _ ← vectorChecks [a] (fun _ => true)
    modify (fun u => u.wrLate d (u.movedOut a b)))

/-- VINS (R201). -/
def execVins (_cont : Bool) (d a b : BitVec 5) (s : State) : Host.Outcome State Fault Refusal :=
  s.conclude (do
    let t ← vectorChecks [d] (fun _ => true)
    modify (fun u =>
      let i := (u.rd b).toNat
      if i < u.vl ∧ u.performs i ∧ ¬ u.done i then
        u.writeElems d [(i, t.res (t.wrap (u.scalarElem a)))]
      else u))

end Sys2Proof.Machine
end

