-- ==== Sys2Proof/Machine/VPerm.lean ====
section
/-!
DEFINITION. Permutes across elements and dies, and the block scales of sq: majors 0x2E and 0x2F (R217
to R219).
-/

namespace Sys2Proof.Machine

open Sys2Proof

/-- Local held groups: popcount(vlg.LOCAL). -/
def State.locals (s : State) : Nat := popN 4 s.th.held.loc.toNat

/-- A held group lies in the local die half (R217). -/
def State.localHalf (s : State) (g : Nat) : Bool := decide (g < s.locals)

/-- Number of beats that hold elements below vl (R218). -/
def State.beats (s : State) : Nat :=
  if s.vt.sq then ceilDiv s.vl 63 else ceilDiv (s.vl * s.vt.sew) 512

/-- Beats of one register of a group that hold elements. -/
def State.beatsPer (s : State) : Nat :=
  if s.vt.sq then s.per s.vt.gm / 63 else s.per s.vt.gm * s.vt.sew / 512

/-- Register and bit position of beat k of the group at a register field. -/
def State.beatAt (s : State) (v : BitVec 5) (k : Nat) : Nat × Nat :=
  let r := min (k / s.beatsPer) (s.vt.gm - 1)
  (v.toNat + r, (k - r * s.beatsPer) * 512)

def State.beat (s : State) (v : BitVec 5) (k : Nat) : Nat :=
  s.regBits (s.beatAt v k).1 (s.beatAt v k).2 512
def State.putBeat (s : State) (v : BitVec 5) (k x : Nat) : State :=
  s.putBits (s.beatAt v k).1 (s.beatAt v k).2 512 x

/-- The die half of beat k of a group (R217). -/
def State.beatLocal (s : State) (k : Nat) : Bool :=
  s.localHalf (k % s.beatsPer % max 1 s.lg)

/-- VPERM (R218): it works in a spanned thread, within each die half. -/
def execVperm (_cont : Bool) (d a b p : BitVec 5) (s : State) : Host.Outcome State Fault Refusal :=
  s.conclude (do
    let t ← vectorChecks [d, a, b] (fun t => !t.sq)
    need (!rangesMeet d.toNat t.gm a.toNat t.gm)
    if (← get).wholePass then
      modify (fun u => u.putAll t d ((u.selected p).map (fun e =>
        let i := u.elem b e
        let ok := decide (i < u.vl) &&
          (u.localHalf (u.groupOf i) == u.localHalf (u.groupOf e))
        (e, if ok then u.elem a i else 0))) []))

/-- Fold the fixed-point elements below vl of a group that whole beats were written to (R135, R209). -/
def State.foldGroup (s : State) (d : BitVec 5) : State :=
  s.foldHead ((List.range s.vl).foldl (fun l e => l ++ s.vt.headsOf (s.elem d e)) [])

/-- VPERMB (R218): whole beats, with their scales. -/
def execVpermb (_cont : Bool) (d a b : BitVec 5) (s : State) : Host.Outcome State Fault Refusal :=
  s.conclude (do
    let _ ← vectorChecks [d, a, b] (fun _ => true)
    if (← get).wholePass then
      modify (fun u =>
        let xs := (List.range u.beats).map (fun k =>
          let i := u.regBits b.toNat (8 * k) 8
          (k, if decide (i < u.beats) && (u.beatLocal i == u.beatLocal k) then u.beat a i else 0))
        (xs.foldl (fun v x => v.putBeat d x.1 x.2) u).foldGroup d))

/-- VXCHG (R218): each beat takes the beat at the same position in the other die half. -/
def execVxchg (_cont : Bool) (d a : BitVec 5) (s : State) : Host.Outcome State Fault Refusal :=
  s.conclude (do
    let _ ← vectorChecks [d, a] (fun _ => true)
    let s ← get
    let h := s.th.held
    need (s.vl == 0 || h.remote != 0 && popN 4 h.loc.toNat == popN 4 h.remote.toNat)
    if (← get).wholePass then
      modify (fun u =>
        let n := u.lg
        let xs := (List.range u.beats).map (fun k =>
          (k, u.beat a (k / n * n + (k % n + u.locals) % n)))
        (xs.foldl (fun v x => v.putBeat d x.1 x.2) u).foldGroup d))

/-- VZIP (R218). -/
def execVzip (_cont : Bool) (d a b p : BitVec 5) (s : State) : Host.Outcome State Fault Refusal :=
  s.conclude (do
    let t ← vectorChecks [d, a, b] (fun t => !t.sq)
    apart d [a, b]
    if (← get).wholePass then
      modify (fun u => u.putAll t d ((u.selected p).map (fun e =>
        (e, if e % 2 = 0 then u.elem a (e / 2) else u.elem b (e / 2)))) []))

/-- VUNZIP (R218): the b field is the parity. -/
def execVunzip (_cont : Bool) (d a b p : BitVec 5) (s : State) : Host.Outcome State Fault Refusal :=
  s.conclude (do
    let t ← vectorChecks [d, a] (fun t => !t.sq)
    needActive p (fun _ => decide (b.toNat < 2))
    apart d [a]
    if (← get).wholePass then
      modify (fun u => u.putAll t d ((u.selected p).map (fun e =>
        (e, if 2 * e + b.toNat < u.vl then u.elem a (2 * e + b.toNat) else 0))) []))

/-! ### Scales of sq (R219) -/

/-- The governed blocks that a member performs now: those whose elements below vl are all performed in
this pass and not all recorded as done. -/
def State.blockTodo (s : State) (p : BitVec 5) : List Nat :=
  (List.range s.beats).filter (fun k =>
    let es := ((List.range 63).map (· + 63 * k)).filter (fun e => decide (e < s.vl))
    s.gov p k && es.all s.performs && !es.all s.done)

/-- VSCGET (R219): the destination's scale bytes are unchanged. -/
def execVscget (_cont : Bool) (d a p : BitVec 5) (s : State) : Host.Outcome State Fault Refusal :=
  s.conclude (do
    let _ ← vectorChecks [d, a] Vt.sq
    modify (fun u =>
      let xs := (u.blockTodo p).map (fun k => (k, u.beat a k % 256))
      xs.foldl (fun v x => v.putElem d x.1 x.2) u))

/-- A beat with its scale byte replaced. -/
def withScale (beat scale : Nat) : Nat := beat / 256 * 256 + scale % 256

/-- VSCSET (R219). -/
def execVscset (_cont : Bool) (d a b p : BitVec 5) (s : State) : Host.Outcome State Fault Refusal :=
  s.conclude (do
    let _ ← vectorChecks [d, a, b] Vt.sq
    modify (fun u =>
      let xs := (u.blockTodo p).map (fun k => (k, withScale (u.beat a k) (u.elem b k)))
      xs.foldl (fun v x => v.putBeat d x.1 x.2) u))

/-- A block normalised exactly (R219). -/
def normBlock (beat : Nat) : Nat :=
  let el := fun i => bitsAt 8 (8 * (i + 1)) beat
  let is := List.range 63
  if is.all (fun i => decide (el i = 0)) then beat
  else
    let r := is.foldl (fun m i => min m (redundant 8 (el i))) 7
    let e := sextN 8 (beat % 256)
    let k := (min (r : Int) (e + 128)).toNat
    is.foldl (fun x i => x + (el i * 2 ^ k % 256) * 2 ^ (8 * (i + 1))) (lowN 8 (e - k))

/-- VSCNORM (R219). -/
def execVscnorm (_cont : Bool) (d a p : BitVec 5) (s : State) : Host.Outcome State Fault Refusal :=
  s.conclude (do
    let _ ← vectorChecks [d, a] Vt.sq
    modify (fun u =>
      let xs := (u.blockTodo p).map (fun k => (k, normBlock (u.beat a k)))
      xs.foldl (fun v x => v.putBeat d x.1 x.2) u))

end Sys2Proof.Machine
end

