-- ==== Sys2Proof/Machine/VRed.lean ====
section
/-!
DEFINITION. Reductions: major 0x28 (R128, R204 to R207).
-/

namespace Sys2Proof.Machine

open Sys2Proof

/-- Node j of level k of the tree of R128: its value, none when absent, and the classes raised beneath
it with the elements that R207 attributes them to. -/
def treeNode (op : Nat → Nat → Out) (x : Nat → Option Nat) (k j : Nat) :
    Option Nat × List (Nat × Nat) :=
  match k with
  | 0 => (x j, [])
  | k + 1 =>
    let l := treeNode op x k (2 * j)
    let r := treeNode op x k (2 * j + 1)
    match l.1, r.1 with
    | none, h => (h, l.2 ++ r.2)
    | some a, none => (some a, l.2 ++ r.2)
    | some a, some b =>
      let o := op a b
      (some o.val, l.2 ++ r.2 ++ [(2 ^ (k + 1) * j, o.ev)])

/-- log2 of P in R128. -/
def treeDepth (vl : Nat) : Nat := bitLen (vl - 1)

/-- A reduction by rounding nodes, with its seed combined last (R206, R207). -/
def reduceTree (op : Nat → Nat → Out) (ident : Nat) (vl : Nat) (x : Nat → Option Nat)
    (seed : Option Nat) : Nat × List (Nat × Nat) :=
  let r := treeNode op x (treeDepth vl) 0
  match r.1, seed with
  | none, none => (ident, [])
  | none, some v => (v, [])
  | some v, none => (v, r.2)
  | some v, some w =>
    let o := op v w
    (o.val, r.2 ++ [(0, o.ev)])

/-- VRED's operation on the elements and the seed, exactly (R205, R206): none of them gives the
identity. Signed values are integers, the others element bits. -/
def Vt.reduceInt (t : Vt) (o : Nat) (l : List Nat) : Out :=
  let w := t.sew
  let sg := l.map (t.sext)
  if o = 0 then
    let y := (l.map (t.int)).foldl (· + ·) 0
    if t.cls = 2 then t.fit y else t.wrap y
  else if o = 1 then t.wrap (sg.foldl min ((2 ^ (w - 1) : Nat) - 1))
  else if o = 2 then t.wrap (sg.foldl max (-(2 ^ (w - 1) : Nat)))
  else t.wrap (
    if o = 3 then l.foldl min (2 ^ w - 1)
    else if o = 4 then l.foldl max 0
    else if o = 5 then l.foldl (· &&& ·) (2 ^ w - 1)
    else if o = 6 then l.foldl (· ||| ·) 0
    else l.foldl (· ^^^ ·) 0 : Nat)

/-- The common form of the reductions: checks, then one write of vd[0] (R204 to R207). The result
comes with the classes raised, each at its element. -/
def State.reduce (s : State) (types : Vt → Bool) (ops : Nat) (d a : BitVec 5) (sd : BitVec 1)
    (o : BitVec 3) (p : BitVec 5)
    (f : State → Vt → List Nat → Option Nat → Nat × List (Nat × Nat)) :
    Host.Outcome State Fault Refusal :=
  s.conclude (do
    let t ← vectorChecks [d, a] types
    need (decide (o.toNat < ops))
    if (← get).wholePass ∧ (← get).vl ≠ 0 then
      modify (fun u =>
        let r := f u t (u.selected p) (if sd = 1#1 then some (u.elem d 0) else none)
        ((u.putElem d 0 r.1).mergeFlags r.2).foldHead (t.headsOf r.1)))

/-- VRED (R204 to R206). -/
def execVred (_cont : Bool) (d a : BitVec 5) (sd : BitVec 1) (o : BitVec 3) (p : BitVec 5)
    (s : State) : Host.Outcome State Fault Refusal :=
  s.reduce (Vt.isIn [0, 1, 2]) 8 d a sd o p (fun u t l seed =>
    let r := t.reduceInt o.toNat (l.map (u.elem a) ++ seed.toList)
    (r.val, [(0, r.ev)]))

/-- VFRED (R204 to R206). -/
def execVfred (_cont : Bool) (d a : BitVec 5) (sd : BitVec 1) (o : BitVec 3) (p : BitVec 5)
    (s : State) : Host.Outcome State Fault Refusal :=
  s.reduce (Vt.isIn [3]) 3 d a sd o p (fun u t _ seed =>
    let f := fmtOf t.fmt t.sewE
    let op := if o = 0#3 then f.add t.rnd else f.minmax (decide (o = 2#3))
    reduceTree op (if o = 0#3 then 0 else f.nan) u.vl
      (fun e => if decide (e < u.vl) && u.gov p e then some (u.elem a e) else none) seed)

/-- VCRED (R204 to R206): exact components under CLASS 4, the rounding tree under CLASS 5. -/
def execVcred (_cont : Bool) (d a : BitVec 5) (sd : BitVec 1) (o : BitVec 3) (p : BitVec 5)
    (s : State) : Host.Outcome State Fault Refusal :=
  s.reduce (Vt.isIn [4, 5]) 1 d a sd o p (fun u t l seed =>
    if t.cls = 4 then
      let vs := l.map (u.elem a) ++ seed.toList
      let re := (vs.map (fun v => t.int v)).foldl (· + ·) 0
      let im := (vs.map (fun v => t.int (v / 2 ^ t.w))).foldl (· + ·) 0
      let x := t.fit re
      let y := t.fit im
      (x.val + y.val * 2 ^ t.w, [(0, x.ev ||| y.ev)])
    else
      reduceTree (t.perComp ((fmtOf 0 (t.sewE - 1)).add t.rnd)) 0 u.vl
        (fun e => if decide (e < u.vl) && u.gov p e then some (u.elem a e) else none) seed)

end Sys2Proof.Machine
end

