-- ==== Sys2Proof/Machine/VSel.lean ====
section
/-!
DEFINITION. Select, compress, expand, slide and reverse: major 0x26 (R202, R203).
-/

namespace Sys2Proof.Machine

open Sys2Proof

/-- VSEL (R202): the predicate selects and does not govern. -/
def execVsel (_cont : Bool) (d a b p : BitVec 5) (s : State) : Host.Outcome State Fault Refusal :=
  s.elemWise (fun _ => true) d a 0 [b] (fun u t e =>
    t.res (t.wrap (if u.gov p e then u.elem a e else u.elem b e)))

/-- The five instructions of R203, which are not element-wise: the elements to write, with their
values. -/
def State.moveWhole (s : State) (d a p : BitVec 5) (f : State → List Nat → List (Nat × Nat)) :
    Host.Outcome State Fault Refusal :=
  s.conclude (do
    let t ← vectorChecks [d, a] (fun t => !t.sq)
    need (!rangesMeet d.toNat t.gm a.toNat t.gm && (← get).th.held.remote == 0)
    if (← get).wholePass then
      modify (fun u => u.writeElems d
        ((f u (u.selected p)).map (fun r => (r.1, t.res (t.wrap r.2))))))

/-- VCOMPR (R202). -/
def execVcompr (_cont : Bool) (d a p : BitVec 5) (s : State) : Host.Outcome State Fault Refusal :=
  s.moveWhole d a p (fun u l => (List.range l.length).zip (l.map (u.elem a)))
/-- VEXPND (R202). -/
def execVexpnd (_cont : Bool) (d a p : BitVec 5) (s : State) : Host.Outcome State Fault Refusal :=
  s.moveWhole d a p (fun u l => l.zip ((List.range l.length).map (u.elem a)))
/-- VSLIDEUP (R202). -/
def execVslideup (_cont : Bool) (d a b p : BitVec 5) (s : State) : Host.Outcome State Fault Refusal :=
  s.moveWhole d a p (fun u l =>
    (l.filter (fun e => decide ((u.rd b).toNat ≤ e))).map (fun e => (e, u.elem a (e - (u.rd b).toNat))))
/-- VSLIDEDN (R202). -/
def execVslidedn (_cont : Bool) (d a b p : BitVec 5) (s : State) : Host.Outcome State Fault Refusal :=
  s.moveWhole d a p (fun u l =>
    l.map (fun e => (e, if e + (u.rd b).toNat < u.vl then u.elem a (e + (u.rd b).toNat) else 0)))
/-- VREV (R202). -/
def execVrev (_cont : Bool) (d a p : BitVec 5) (s : State) : Host.Outcome State Fault Refusal :=
  s.moveWhole d a p (fun u l => l.map (fun e => (e, u.elem a (u.vl - 1 - e))))

end Sys2Proof.Machine
end

