-- ==== Sys2Proof/Machine/Dispatch.lean ====
section
/-!
DEFINITION. The meaning of every instruction and event: one arm for each constructor, a direct call
of its meaning.
-/

namespace Sys2Proof.Machine

open Sys2Proof

def exec (i : Instr) (s : State) : Host.Outcome State Fault Refusal :=
  match i with
  | .add d a b => Sys2Proof.Machine.execAdd d a b s
  | .sub d a b => Sys2Proof.Machine.execSub d a b s
  | .and d a b => Sys2Proof.Machine.execAnd d a b s
  | .or d a b => Sys2Proof.Machine.execOr d a b s
  | .xor d a b => Sys2Proof.Machine.execXor d a b s
  | .andn d a b => Sys2Proof.Machine.execAndn d a b s
  | .sll d a b => Sys2Proof.Machine.execSll d a b s
  | .srl d a b => Sys2Proof.Machine.execSrl d a b s
  | .sra d a b => Sys2Proof.Machine.execSra d a b s
  | .slt d a b => Sys2Proof.Machine.execSlt d a b s
  | .sltn d a b => Sys2Proof.Machine.execSltn d a b s
  | .mul d a b => Sys2Proof.Machine.execMul d a b s
  | .mulh d a b => Sys2Proof.Machine.execMulh d a b s
  | .div d a b => Sys2Proof.Machine.execDiv d a b s
  | .divn d a b => Sys2Proof.Machine.execDivn d a b s
  | .rem d a b => Sys2Proof.Machine.execRem d a b s
  | .remn d a b => Sys2Proof.Machine.execRemn d a b s
  | .clz d a => Sys2Proof.Machine.execClz d a s
  | .popc d a => Sys2Proof.Machine.execPopc d a s
  | .brev d a => Sys2Proof.Machine.execBrev d a s
  | .addi d a i1 => Sys2Proof.Machine.execAddi d a i1 s
  | .andi d a i1 => Sys2Proof.Machine.execAndi d a i1 s
  | .ori d a i1 => Sys2Proof.Machine.execOri d a i1 s
  | .xori d a i1 => Sys2Proof.Machine.execXori d a i1 s
  | .slli d a n => Sys2Proof.Machine.execSlli d a n s
  | .srli d a n => Sys2Proof.Machine.execSrli d a n s
  | .srai d a n => Sys2Proof.Machine.execSrai d a n s
  | .slti d a i1 => Sys2Proof.Machine.execSlti d a i1 s
  | .lui d i1 => Sys2Proof.Machine.execLui d i1 s
  | .addpc d i1 => Sys2Proof.Machine.execAddpc d i1 s
  | .lb d a o => Sys2Proof.Machine.execLb d a o s
  | .lh d a o => Sys2Proof.Machine.execLh d a o s
  | .lw d a o => Sys2Proof.Machine.execLw d a o s
  | .ld d a o => Sys2Proof.Machine.execLd d a o s
  | .lbn d a o => Sys2Proof.Machine.execLbn d a o s
  | .lhn d a o => Sys2Proof.Machine.execLhn d a o s
  | .lwn d a o => Sys2Proof.Machine.execLwn d a o s
  | .lda d a o => Sys2Proof.Machine.execLda d a o s
  | .sb d a o => Sys2Proof.Machine.execSb d a o s
  | .sh d a o => Sys2Proof.Machine.execSh d a o s
  | .sw d a o => Sys2Proof.Machine.execSw d a o s
  | .sd d a o => Sys2Proof.Machine.execSd d a o s
  | .sdr d a o => Sys2Proof.Machine.execSdr d a o s
  | .amo d a b r w o => Sys2Proof.Machine.execAmo d a b r w o s
  | .beq a b o => Sys2Proof.Machine.execBeq a b o s
  | .bne a b o => Sys2Proof.Machine.execBne a b o s
  | .blt a b o => Sys2Proof.Machine.execBlt a b o s
  | .bge a b o => Sys2Proof.Machine.execBge a b o s
  | .bltn a b o => Sys2Proof.Machine.execBltn a b o s
  | .bgen a b o => Sys2Proof.Machine.execBgen a b o s
  | .jal d o => Sys2Proof.Machine.execJal d o s
  | .jalr d a i1 => Sys2Proof.Machine.execJalr d a i1 s
  | .lnest d a b => Sys2Proof.Machine.execLnest d a b s
  | .lbody n => Sys2Proof.Machine.execLbody n s
  | .lexit a b => Sys2Proof.Machine.execLexit a b s
  | .csrr d csr => Sys2Proof.Machine.execCsrr d csr s
  | .csrw d a csr => Sys2Proof.Machine.execCsrw d a csr s
  | .csrs d a csr => Sys2Proof.Machine.execCsrs d a csr s
  | .csrc d a csr => Sys2Proof.Machine.execCsrc d a csr s
  | .svc i1 => Sys2Proof.Machine.execSvc i1 s
  | .eret => Sys2Proof.Machine.execEret s
  | .nap d => Sys2Proof.Machine.execNap d s
  | .wake d a => Sys2Proof.Machine.execWake d a s
  | .yield => Sys2Proof.Machine.execYield s
  | .halt => Sys2Proof.Machine.execHalt s
  | .bkpt i1 => Sys2Proof.Machine.execBkpt i1 s
  | .ifence => Sys2Proof.Machine.execIfence s
  | .raise a b => Sys2Proof.Machine.execRaise a b s
  | .gjoin d a => Sys2Proof.Machine.execGjoin d a s
  | .gleave d a => Sys2Proof.Machine.execGleave d a s
  | .barw d a => Sys2Proof.Machine.execBarw d a s
  | .bararv d a => Sys2Proof.Machine.execBararv d a s
  | .barrlx d a => Sys2Proof.Machine.execBarrlx d a s
  | .barwait d a b => Sys2Proof.Machine.execBarwait d a b s
  | .phend d a => Sys2Proof.Machine.execPhend d a s
  | .gsize d a => Sys2Proof.Machine.execGsize d a s
  | .tid d => Sys2Proof.Machine.execTid d s
  | .spawn d a b => Sys2Proof.Machine.execSpawn d a b s
  | .jdone a => Sys2Proof.Machine.execJdone a s
  | .jstat d a => Sys2Proof.Machine.execJstat d a s
  | .jdeadl d a b => Sys2Proof.Machine.execJdeadl d a b s
  | .ptpnow d => Sys2Proof.Machine.execPtpnow d s
  | .chbind d a b => Sys2Proof.Machine.execChbind d a b s
  | .chpub d a b => Sys2Proof.Machine.execChpub d a b s
  | .chread d a => Sys2Proof.Machine.execChread d a s
  | .fence s1 => Sys2Proof.Machine.execFence s1 s
  | .fencee a b => Sys2Proof.Machine.execFencee a b s
  | .qdrain m => Sys2Proof.Machine.execQdrain m s
  | .winpub a => Sys2Proof.Machine.execWinpub a s
  | .vcfg d a => Sys2Proof.Machine.execVcfg d a s
  | .setvl d a => Sys2Proof.Machine.execSetvl d a s
  | .vkeep d a => Sys2Proof.Machine.execVkeep d a s
  | .vdead d a => Sys2Proof.Machine.execVdead d a s
  | .vlmaxr d a b => Sys2Proof.Machine.execVlmaxr d a b s
  | .vindex cont d p s1 t => Sys2Proof.Machine.execVindex cont d p s1 t s
  | .pand cont d a b p => Sys2Proof.Machine.execPand cont d a b p s
  | .por cont d a b p => Sys2Proof.Machine.execPor cont d a b p s
  | .pxor cont d a b p => Sys2Proof.Machine.execPxor cont d a b p s
  | .pandn cont d a b p => Sys2Proof.Machine.execPandn cont d a b p s
  | .pnot cont d a p => Sys2Proof.Machine.execPnot cont d a p s
  | .pseta cont d p => Sys2Proof.Machine.execPseta cont d p s
  | .pfirst cont d a p => Sys2Proof.Machine.execPfirst cont d a p s
  | .ppopc cont d a p => Sys2Proof.Machine.execPpopc cont d a p s
  | .pscan cont d a p => Sys2Proof.Machine.execPscan cont d a p s
  | .pmovl cont d a k => Sys2Proof.Machine.execPmovl cont d a k s
  | .pld cont d a k => Sys2Proof.Machine.execPld cont d a k s
  | .pst cont d a k => Sys2Proof.Machine.execPst cont d a k s
  | .vld cont d a p => Sys2Proof.Machine.execVld cont d a p s
  | .vldff d a p => Sys2Proof.Machine.execVldff d a p s
  | .vlds cont d a b p => Sys2Proof.Machine.execVlds cont d a b p s
  | .vldx cont d a b p => Sys2Proof.Machine.execVldx cont d a b p s
  | .vst cont d a p => Sys2Proof.Machine.execVst cont d a p s
  | .vsts cont d a b p => Sys2Proof.Machine.execVsts cont d a b p s
  | .vstx cont d a b p => Sys2Proof.Machine.execVstx cont d a b p s
  | .vstxo cont d a b p => Sys2Proof.Machine.execVstxo cont d a b p s
  | .vldbp cont d a b p => Sys2Proof.Machine.execVldbp cont d a b p s
  | .vstbp cont d a b p => Sys2Proof.Machine.execVstbp cont d a b p s
  | .vscatr d a b p => Sys2Proof.Machine.execVscatr d a b p s
  | .vputr d a p => Sys2Proof.Machine.execVputr d a p s
  | .vappend a b p => Sys2Proof.Machine.execVappend a b p s
  | .vqpop d a => Sys2Proof.Machine.execVqpop d a s
  | .vadd cont d a b p => Sys2Proof.Machine.execVadd cont d a b p s
  | .vaddVs cont d a s1 p => Sys2Proof.Machine.execVaddVs cont d a s1 p s
  | .vsub cont d a b p => Sys2Proof.Machine.execVsub cont d a b p s
  | .vsubVs cont d a s1 p => Sys2Proof.Machine.execVsubVs cont d a s1 p s
  | .vrsub cont d a b p => Sys2Proof.Machine.execVrsub cont d a b p s
  | .vrsubVs cont d a s1 p => Sys2Proof.Machine.execVrsubVs cont d a s1 p s
  | .vmul cont d a b p => Sys2Proof.Machine.execVmul cont d a b p s
  | .vmulVs cont d a s1 p => Sys2Proof.Machine.execVmulVs cont d a s1 p s
  | .vmulh cont d a b p => Sys2Proof.Machine.execVmulh cont d a b p s
  | .vmulhVs cont d a s1 p => Sys2Proof.Machine.execVmulhVs cont d a s1 p s
  | .vmulhn cont d a b p => Sys2Proof.Machine.execVmulhn cont d a b p s
  | .vmulhnVs cont d a s1 p => Sys2Proof.Machine.execVmulhnVs cont d a s1 p s
  | .vmin cont d a b p => Sys2Proof.Machine.execVmin cont d a b p s
  | .vminVs cont d a s1 p => Sys2Proof.Machine.execVminVs cont d a s1 p s
  | .vmax cont d a b p => Sys2Proof.Machine.execVmax cont d a b p s
  | .vmaxVs cont d a s1 p => Sys2Proof.Machine.execVmaxVs cont d a s1 p s
  | .vminn cont d a b p => Sys2Proof.Machine.execVminn cont d a b p s
  | .vminnVs cont d a s1 p => Sys2Proof.Machine.execVminnVs cont d a s1 p s
  | .vmaxn cont d a b p => Sys2Proof.Machine.execVmaxn cont d a b p s
  | .vmaxnVs cont d a s1 p => Sys2Proof.Machine.execVmaxnVs cont d a s1 p s
  | .vand cont d a b p => Sys2Proof.Machine.execVand cont d a b p s
  | .vandVs cont d a s1 p => Sys2Proof.Machine.execVandVs cont d a s1 p s
  | .vor cont d a b p => Sys2Proof.Machine.execVor cont d a b p s
  | .vorVs cont d a s1 p => Sys2Proof.Machine.execVorVs cont d a s1 p s
  | .vxor cont d a b p => Sys2Proof.Machine.execVxor cont d a b p s
  | .vxorVs cont d a s1 p => Sys2Proof.Machine.execVxorVs cont d a s1 p s
  | .vsll cont d a b p => Sys2Proof.Machine.execVsll cont d a b p s
  | .vsllVs cont d a s1 p => Sys2Proof.Machine.execVsllVs cont d a s1 p s
  | .vsrl cont d a b p => Sys2Proof.Machine.execVsrl cont d a b p s
  | .vsrlVs cont d a s1 p => Sys2Proof.Machine.execVsrlVs cont d a s1 p s
  | .vsra cont d a b p => Sys2Proof.Machine.execVsra cont d a b p s
  | .vsraVs cont d a s1 p => Sys2Proof.Machine.execVsraVs cont d a s1 p s
  | .vcmp cont d a b p cond => Sys2Proof.Machine.execVcmp cont d a b p cond s
  | .vcmpVs cont d a s1 p cond => Sys2Proof.Machine.execVcmpVs cont d a s1 p cond s
  | .vqadd cont d a b p => Sys2Proof.Machine.execVqadd cont d a b p s
  | .vqaddVs cont d a s1 p => Sys2Proof.Machine.execVqaddVs cont d a s1 p s
  | .vqsub cont d a b p => Sys2Proof.Machine.execVqsub cont d a b p s
  | .vqsubVs cont d a s1 p => Sys2Proof.Machine.execVqsubVs cont d a s1 p s
  | .vqmul cont d a b p => Sys2Proof.Machine.execVqmul cont d a b p s
  | .vqmulVs cont d a s1 p => Sys2Proof.Machine.execVqmulVs cont d a s1 p s
  | .vshrrnd cont d a b p => Sys2Proof.Machine.execVshrrnd cont d a b p s
  | .vshrrndVs cont d a s1 p => Sys2Proof.Machine.execVshrrndVs cont d a s1 p s
  | .vsatn cont d a b p => Sys2Proof.Machine.execVsatn cont d a b p s
  | .vsatnVs cont d a s1 p => Sys2Proof.Machine.execVsatnVs cont d a s1 p s
  | .vhead cont d a p => Sys2Proof.Machine.execVhead cont d a p s
  | .vqneg cont d a p => Sys2Proof.Machine.execVqneg cont d a p s
  | .vqabs cont d a p => Sys2Proof.Machine.execVqabs cont d a p s
  | .vfadd cont d a b p => Sys2Proof.Machine.execVfadd cont d a b p s
  | .vfaddVs cont d a s1 p => Sys2Proof.Machine.execVfaddVs cont d a s1 p s
  | .vfsub cont d a b p => Sys2Proof.Machine.execVfsub cont d a b p s
  | .vfsubVs cont d a s1 p => Sys2Proof.Machine.execVfsubVs cont d a s1 p s
  | .vfmul cont d a b p => Sys2Proof.Machine.execVfmul cont d a b p s
  | .vfmulVs cont d a s1 p => Sys2Proof.Machine.execVfmulVs cont d a s1 p s
  | .vfdiv cont d a b p => Sys2Proof.Machine.execVfdiv cont d a b p s
  | .vfdivVs cont d a s1 p => Sys2Proof.Machine.execVfdivVs cont d a s1 p s
  | .vfmin cont d a b p => Sys2Proof.Machine.execVfmin cont d a b p s
  | .vfminVs cont d a s1 p => Sys2Proof.Machine.execVfminVs cont d a s1 p s
  | .vfmax cont d a b p => Sys2Proof.Machine.execVfmax cont d a b p s
  | .vfmaxVs cont d a s1 p => Sys2Proof.Machine.execVfmaxVs cont d a s1 p s
  | .vfma cont d a b p => Sys2Proof.Machine.execVfma cont d a b p s
  | .vfmaVs cont d a s1 p => Sys2Proof.Machine.execVfmaVs cont d a s1 p s
  | .vfms cont d a b p => Sys2Proof.Machine.execVfms cont d a b p s
  | .vfmsVs cont d a s1 p => Sys2Proof.Machine.execVfmsVs cont d a s1 p s
  | .vfnma cont d a b p => Sys2Proof.Machine.execVfnma cont d a b p s
  | .vfnmaVs cont d a s1 p => Sys2Proof.Machine.execVfnmaVs cont d a s1 p s
  | .vfclamp cont d a b p => Sys2Proof.Machine.execVfclamp cont d a b p s
  | .vfclampVs cont d a s1 p => Sys2Proof.Machine.execVfclampVs cont d a s1 p s
  | .vfsqrt cont d a p => Sys2Proof.Machine.execVfsqrt cont d a p s
  | .vfabs cont d a p => Sys2Proof.Machine.execVfabs cont d a p s
  | .vfneg cont d a p => Sys2Proof.Machine.execVfneg cont d a p s
  | .vcvt cont d a t p => Sys2Proof.Machine.execVcvt cont d a t p s
  | .vwiden cont d a t p => Sys2Proof.Machine.execVwiden cont d a t p s
  | .vnarrow cont d a t p => Sys2Proof.Machine.execVnarrow cont d a t p s
  | .vabs cont d a p => Sys2Proof.Machine.execVabs cont d a p s
  | .vneg cont d a p => Sys2Proof.Machine.execVneg cont d a p s
  | .vclz cont d a p => Sys2Proof.Machine.execVclz cont d a p s
  | .vpopc cont d a p => Sys2Proof.Machine.execVpopc cont d a p s
  | .vmov cont d a p => Sys2Proof.Machine.execVmov cont d a p s
  | .vmovs cont d b p => Sys2Proof.Machine.execVmovs cont d b p s
  | .vmovx cont d a b => Sys2Proof.Machine.execVmovx cont d a b s
  | .vins cont d a b => Sys2Proof.Machine.execVins cont d a b s
  | .vsel cont d a b p => Sys2Proof.Machine.execVsel cont d a b p s
  | .vcompr cont d a p => Sys2Proof.Machine.execVcompr cont d a p s
  | .vexpnd cont d a p => Sys2Proof.Machine.execVexpnd cont d a p s
  | .vslideup cont d a b p => Sys2Proof.Machine.execVslideup cont d a b p s
  | .vslidedn cont d a b p => Sys2Proof.Machine.execVslidedn cont d a b p s
  | .vrev cont d a p => Sys2Proof.Machine.execVrev cont d a p s
  | .vred cont d a s1 o p => Sys2Proof.Machine.execVred cont d a s1 o p s
  | .vfred cont d a s1 o p => Sys2Proof.Machine.execVfred cont d a s1 o p s
  | .vcred cont d a s1 o p => Sys2Proof.Machine.execVcred cont d a s1 o p s
  | .vcadd cont d a b p => Sys2Proof.Machine.execVcadd cont d a b p s
  | .vcaddVs cont d a s1 p => Sys2Proof.Machine.execVcaddVs cont d a s1 p s
  | .vcsub cont d a b p => Sys2Proof.Machine.execVcsub cont d a b p s
  | .vcsubVs cont d a s1 p => Sys2Proof.Machine.execVcsubVs cont d a s1 p s
  | .vcmul cont d a b p o => Sys2Proof.Machine.execVcmul cont d a b p o s
  | .vcmulVs cont d a s1 p o => Sys2Proof.Machine.execVcmulVs cont d a s1 p o s
  | .vcmac cont d a b p o => Sys2Proof.Machine.execVcmac cont d a b p o s
  | .vcmacVs cont d a s1 p o => Sys2Proof.Machine.execVcmacVs cont d a s1 p o s
  | .vcmag2 cont d a p => Sys2Proof.Machine.execVcmag2 cont d a p s
  | .vcscl cont d a b p => Sys2Proof.Machine.execVcscl cont d a b p s
  | .vcsclVs cont d a s1 p => Sys2Proof.Machine.execVcsclVs cont d a s1 p s
  | .vcrot cont d a p o => Sys2Proof.Machine.execVcrot cont d a p o s
  | .vcconj cont d a p => Sys2Proof.Machine.execVcconj cont d a p s
  | .vbfly2 cont d a b p => Sys2Proof.Machine.execVbfly2 cont d a b p s
  | .vbfly4 cont d a b p => Sys2Proof.Machine.execVbfly4 cont d a b p s
  | .vbitrev cont d a p => Sys2Proof.Machine.execVbitrev cont d a p s
  | .vbperm cont d a b p => Sys2Proof.Machine.execVbperm cont d a b p s
  | .vbgath cont d a b p => Sys2Proof.Machine.execVbgath cont d a b p s
  | .vintlv cont d a b p => Sys2Proof.Machine.execVintlv cont d a b p s
  | .vdintlv cont d a b p => Sys2Proof.Machine.execVdintlv cont d a b p s
  | .vrotz cont d a b p => Sys2Proof.Machine.execVrotz cont d a b p s
  | .vgold cont d a b p => Sys2Proof.Machine.execVgold cont d a b p s
  | .vllrpk cont d a b p => Sys2Proof.Machine.execVllrpk cont d a b p s
  | .vperm cont d a b p => Sys2Proof.Machine.execVperm cont d a b p s
  | .vpermb cont d a b => Sys2Proof.Machine.execVpermb cont d a b s
  | .vxchg cont d a => Sys2Proof.Machine.execVxchg cont d a s
  | .vzip cont d a b p => Sys2Proof.Machine.execVzip cont d a b p s
  | .vunzip cont d a b p => Sys2Proof.Machine.execVunzip cont d a b p s
  | .vscget cont d a p => Sys2Proof.Machine.execVscget cont d a p s
  | .vscset cont d a b p => Sys2Proof.Machine.execVscset cont d a b p s
  | .vscnorm cont d a p => Sys2Proof.Machine.execVscnorm cont d a p s
  | .vgjstep cont d a p => Sys2Proof.Machine.execVgjstep cont d a p s
  | .vbsolve cont d a b p => Sys2Proof.Machine.execVbsolve cont d a b p s
  | .vnsstep cont d a b p => Sys2Proof.Machine.execVnsstep cont d a b p s
  | .vwstag cont d a b p => Sys2Proof.Machine.execVwstag cont d a b p s
  | .mma t a b => Sys2Proof.Machine.execMma t a b s
  | .mmas t a b p => Sys2Proof.Machine.execMmas t a b p s
  | .mzero t => Sys2Proof.Machine.execMzero t s
  | .mmaComplete slot => Sys2Proof.Machine.execMmaComplete slot s
  | .atov t d b p => Sys2Proof.Machine.execAtov t d b p s
  | .vtoa t a b p => Sys2Proof.Machine.execVtoa t a b p s
  | .ald t b => Sys2Proof.Machine.execAld t b s
  | .ast t b => Sys2Proof.Machine.execAst t b s
  | .asave t b => Sys2Proof.Machine.execAsave t b s
  | .arst t b => Sys2Proof.Machine.execArst t b s
  | .cbld sc b => Sys2Proof.Machine.execCbld sc b s
  | .cbfill a b p => Sys2Proof.Machine.execCbfill a b p s
  | .ecpy d a => Sys2Proof.Machine.execEcpy d a s
  | .eldpc d a b => Sys2Proof.Machine.execEldpc d a b s
  | .epolar d a b => Sys2Proof.Machine.execEpolar d a b s
  | .eenc d a b => Sys2Proof.Machine.execEenc d a b s
  | .edge d a b => Sys2Proof.Machine.execEdge d a b s
  | .ewait d a => Sys2Proof.Machine.execEwait d a s
  | .estat d a => Sys2Proof.Machine.execEstat d a s
  | .ecancel d a => Sys2Proof.Machine.execEcancel d a s
  | .vamo d a b p o => Sys2Proof.Machine.execVamo d a b p o s
  | .wdecl a b => Sys2Proof.Machine.execWdecl a b s
  | .wupd d a b p => Sys2Proof.Machine.execWupd d a b p s
  | .wmerge => Sys2Proof.Machine.execWmerge s
  | .wfree => Sys2Proof.Machine.execWfree s
  | .rinst d a b => Sys2Proof.Machine.execRinst d a b s
  | .rcall d a b => Sys2Proof.Machine.execRcall d a b s
  | .rcallv d a b p => Sys2Proof.Machine.execRcallv d a b p s
  | .rfree d b => Sys2Proof.Machine.execRfree d b s
  | .twset d a b => Sys2Proof.Machine.execTwset d a b s
  | .twclr d b => Sys2Proof.Machine.execTwclr d b s
  | .twchk d a b p => Sys2Proof.Machine.execTwchk d a b p s
  | .twconf d a b p => Sys2Proof.Machine.execTwconf d a b p s
  | .twread d a => Sys2Proof.Machine.execTwread d a s
  | .sliceCall vf n loc opA opB => Sys2Proof.Machine.execSliceCall vf n loc opA opB s
  | .registerWrite agent addr data => Sys2Proof.Machine.execRegisterWrite agent addr data s
  | .frameAssign frame kid count => Sys2Proof.Machine.execFrameAssign frame kid count s
  | .frameRelease frame count => Sys2Proof.Machine.execFrameRelease frame count s
  | .frameQuery frame => Sys2Proof.Machine.execFrameQuery frame s
  | .releaseComplete => Sys2Proof.Machine.execReleaseComplete s
  | .mapWrite gfn vf => Sys2Proof.Machine.execMapWrite gfn vf s
  | .mapRemove gfn vf => Sys2Proof.Machine.execMapRemove gfn vf s
  | .mapRead gfn vf => Sys2Proof.Machine.execMapRead gfn vf s
  | .removalComplete => Sys2Proof.Machine.execRemovalComplete s
  | .migpush vf frame => Sys2Proof.Machine.execMigpush vf frame s
  | .migrate vf gfn => Sys2Proof.Machine.execMigrate vf gfn s
  | .migrationComplete vf gfn => Sys2Proof.Machine.execMigrationComplete vf gfn s
  | .counterHalving => Sys2Proof.Machine.execCounterHalving s
  | .pageWalk slot va acc => Sys2Proof.Machine.execPageWalk slot va acc s
  | .s1invWrite slot data => Sys2Proof.Machine.execS1invWrite slot data s
  | .s1invComplete part => Sys2Proof.Machine.execS1invComplete part s
  | .fqcfgWrite part data => Sys2Proof.Machine.execFqcfgWrite part data s
  | .fqheadWrite part data => Sys2Proof.Machine.execFqheadWrite part data s
  | .l2Fill line kid mac => Sys2Proof.Machine.execL2Fill line kid mac s
  | .l2Writeback line => Sys2Proof.Machine.execL2Writeback line s
  | .ingestSection port eaxc frameId subframe slotId symbol startPrb numPrb comp time prbs => Sys2Proof.Machine.execIngestSection port eaxc frameId subframe slotId symbol startPrb numPrb comp time prbs s
  | .slotClose tile region s1 time => Sys2Proof.Machine.execSlotClose tile region s1 time s
  | .irctlWrite tile region data => Sys2Proof.Machine.execIrctlWrite tile region data s
  | .flctlWrite flow data => Sys2Proof.Machine.execFlctlWrite flow data s
  | .egressFetch flow time => Sys2Proof.Machine.execEgressFetch flow time s
  | .egressTransmit flow time => Sys2Proof.Machine.execEgressTransmit flow time s
  | .engineStart eng => Sys2Proof.Machine.execEngineStart eng s
  | .copyComplete eng => Sys2Proof.Machine.execCopyComplete eng s
  | .codingComplete eng => Sys2Proof.Machine.execCodingComplete eng s
  | .engineStop eng steps => Sys2Proof.Machine.execEngineStop eng steps s
  | .budgetReset => Sys2Proof.Machine.execBudgetReset s
  | .aownWrite slot tile data => Sys2Proof.Machine.execAownWrite slot tile data s
  | .acfgWrite slot data => Sys2Proof.Machine.execAcfgWrite slot data s
  | .vgcapWrite slot data => Sys2Proof.Machine.execVgcapWrite slot data s
  | .rtctlWrite slot data => Sys2Proof.Machine.execRtctlWrite slot data s
  | .wseqWrite vf data => Sys2Proof.Machine.execWseqWrite vf data s
  | .pwrcapWrite data => Sys2Proof.Machine.execPwrcapWrite data s
  | .governorSample draw calm => Sys2Proof.Machine.execGovernorSample draw calm s
  | .thermalTrip temp => Sys2Proof.Machine.execThermalTrip temp s
  | .rateReduction slot => Sys2Proof.Machine.execRateReduction slot s
  | .launch vf => Sys2Proof.Machine.execLaunch vf s
  | .map vf => Sys2Proof.Machine.execMap vf s
  | .unmap vf => Sys2Proof.Machine.execUnmap vf s
  | .copy vf => Sys2Proof.Machine.execCopy vf s
  | .watch vf => Sys2Proof.Machine.execWatch vf s
  | .notify vf => Sys2Proof.Machine.execNotify vf s
  | .attest vf => Sys2Proof.Machine.execAttest vf s
  | .functionReset vf => Sys2Proof.Machine.execFunctionReset vf s
  | .pageResponse part tag inc status slot vf => Sys2Proof.Machine.execPageResponse part tag inc status slot vf s
  | .proxyResponse vf inc => Sys2Proof.Machine.execProxyResponse vf inc s
  | .hostAccess write line data => Sys2Proof.Machine.execHostAccess write line data s
  | .hostSnoop line take => Sys2Proof.Machine.execHostSnoop line take s
  | .backInvalidateResponse line => Sys2Proof.Machine.execBackInvalidateResponse line s
  | .twinInbound acc gpa data => Sys2Proof.Machine.execTwinInbound acc gpa data s
  | .trainArrival slot dest => Sys2Proof.Machine.execTrainArrival slot dest s
  | .trainAck slot dest => Sys2Proof.Machine.execTrainAck slot dest s
  | .dispatch part => Sys2Proof.Machine.execDispatch part s
  | .preemptTimeout slot => Sys2Proof.Machine.execPreemptTimeout slot s
  | .handlerTimeout slot => Sys2Proof.Machine.execHandlerTimeout slot s
  | .yieldTimeout slot => Sys2Proof.Machine.execYieldTimeout slot s
  | .windowWaitExpiry slot => Sys2Proof.Machine.execWindowWaitExpiry slot s
  | .forcedStop slot => Sys2Proof.Machine.execForcedStop slot s
  | .partWayStop slot marks => Sys2Proof.Machine.execPartWayStop slot marks s
  | .deadlineReached part time => Sys2Proof.Machine.execDeadlineReached part time s
  | .abandonStop slot => Sys2Proof.Machine.execAbandonStop slot s
  | .markerWrite part job => Sys2Proof.Machine.execMarkerWrite part job s
  | .setvlRestart slot => Sys2Proof.Machine.execSetvlRestart slot s
  | .napWake slot => Sys2Proof.Machine.execNapWake slot s
  | .barwaitResume slot => Sys2Proof.Machine.execBarwaitResume slot s
  | .ewaitResume slot => Sys2Proof.Machine.execEwaitResume slot s
  | .commitWaitEnd slot => Sys2Proof.Machine.execCommitWaitEnd slot s
  | .queueWaitEnd slot => Sys2Proof.Machine.execQueueWaitEnd slot s
  | .pendingLineFree slot => Sys2Proof.Machine.execPendingLineFree slot s
  | .tileReleaseWait slot => Sys2Proof.Machine.execTileReleaseWait slot s
  | .qdrainEnd slot => Sys2Proof.Machine.execQdrainEnd slot s
  | .phendResume slot => Sys2Proof.Machine.execPhendResume slot s
  | .chainDetach slot mbr => Sys2Proof.Machine.execChainDetach slot mbr s
  | .bridgeError die => Sys2Proof.Machine.execBridgeError die s
  | .dbgtWrite slot data => Sys2Proof.Machine.execDbgtWrite slot data s
  | .frzWrite data => Sys2Proof.Machine.execFrzWrite data s
  | .trctlWrite vc data => Sys2Proof.Machine.execTrctlWrite vc data s
  | .triggerFire part n time => Sys2Proof.Machine.execTriggerFire part n time s
  | .triggerArrival part n vc => Sys2Proof.Machine.execTriggerArrival part n vc s
  | .triggerAction part n vc time => Sys2Proof.Machine.execTriggerAction part n vc time s
  | .powerOnReset => Sys2Proof.Machine.execPowerOnReset s
  | .bringupComplete => Sys2Proof.Machine.execBringupComplete s
  | .storeBufferDrain slot => Sys2Proof.Machine.execStoreBufferDrain slot s
  | .cancelledCommandStop eng steps => Sys2Proof.Machine.execCancelledCommandStop eng steps s
  | .resumeAfterDetach slot mbr => Sys2Proof.Machine.execResumeAfterDetach slot mbr s
  | .ptpServoStep time => Sys2Proof.Machine.execPtpServoStep time s
  | .twinLinkState up => Sys2Proof.Machine.execTwinLinkState up s
  | .uncorrectableError place => Sys2Proof.Machine.execUncorrectableError place s
  | .illegalWord word => Sys2Proof.Machine.execIllegalWord word s
  | .fetchFault va => Sys2Proof.Machine.execFetchFault va s
  | .unknownOpEntry vf => Sys2Proof.Machine.execUnknownOpEntry vf s

end Sys2Proof.Machine
end

