-- ==== Sys2Proof/Machine/Convoy.lean ====
section
/-!
DEFINITION. Running a convoy: decoding its members and checking the rules of R146 in the order of
R148, performing them as one issue (R283), element faults inside a convoy (R401), stops part-way (R398,
R399), and its trace records (R436, R437).
-/

namespace Sys2Proof.Machine

open Sys2Proof

/-- Decode one member without its continue bit: C = 1 on a group C word is a breach of rule 1 and not
an illegal word (R144, R147). -/
noncomputable def decodeMember (w : W32) : Option Instr :=
  match decodeWord w.toNat with
  | .ok i => some i
  | .error _ =>
    match decodeWord (w.toNat % 2 ^ 31) with
    | .ok i => if (memberPipe i).isNone then some i else none
    | .error _ => none

/-- Decode members in order; the number and word of the first illegal one otherwise (R148 step 3). -/
noncomputable def decodeMembers (n : Nat) (ws : List W32) : Except (Nat × W32) (List (Instr × W32)) :=
  match ws with
  | [] => .ok []
  | w :: r =>
    match decodeMember w with
    | none => .error (n, w)
    | some i =>
      match decodeMembers (n + 1) r with
      | .ok l => .ok ((i, w) :: l)
      | .error e => .error e

/-- The first member at which a rule fails, given the members before it. -/
def firstBreach (f : List Instr → Instr → Bool) (before : List Instr) (n : Nat) :
    List (Instr × W32) → Option (Nat × W32)
  | [] => none
  | (i, w) :: r => if f before i then some (n, w) else firstBreach f (before ++ [i]) (n + 1) r

/-- Rule 1: every member is of group V; a convoy of one has C = 0 (R146). -/
def breaksGroup (i : Instr) : Bool := (memberPipe i).isNone

/-- Rule 3: a pipe used twice, or FX three times (R146). -/
def breaksPipe (before : List Instr) (i : Instr) : Bool :=
  let k := (before.filter (fun j => memberPipe j == memberPipe i)).length
  if memberPipe i == some .fx then decide (2 ≤ k) else decide (1 ≤ k)

/-- The first breach of R146 in the order of its rules, over the whole convoy: reason, member and word (R147; log
entry 25). -/
def convoyBreach (s : State) (ms : List (Instr × W32)) : Option (Nat × Nat × W32) :=
  if ms.length ≤ 1 then none
  else
    match firstBreach (fun _ i => breaksGroup i) [] 0 ms with
    | some e => some (1, e)
    | none =>
      match firstBreach breaksPipe [] 0 ms with
      | some e => some (3, e)
      | none =>
        match firstBreach (fun b i => b.any (fun j => writesOverlap s j i)) [] 0 ms with
        | some e => some (5, e)
        | none =>
          -- rule 6 fails at a member that reads what a later member writes (log entry 25)
          match firstBreach (fun b i =>
              (ms.drop (b.length + 1)).any (fun l => readsWrittenBy s i l.1)) [] 0 ms with
          | some e => some (6, e)
          | none => none

/-- A member's result after an earlier member's element fault: the earlier trap stands, unless the
member raises a trap that is no element fault, or waits, so that the convoy is performed again (R401). -/
def keepTrap (old new : State) : State :=
  match old.cv.trap with
  | none => new
  | some t =>
    match new.cv.trap with
    | some t' =>
      if t'.pfw then new.modCv (fun c => { c with trap := some t, trapMbr := old.cv.trapMbr }) else new
    | none =>
      if new.cv.waits then new
      else new.modCv (fun c => { c with trap := some t, trapMbr := old.cv.trapMbr })

/-- What ends the pass: a trap that is no element fault, or a wait (R401). -/
def endsPass (s : State) : Bool :=
  match s.cv.trap with
  | some t => !t.pfw
  | none => s.cv.waits

/-- Perform the members in order from a state (R283, R401). -/
def runPass (n : Nat) (s : State) (ms : List (Instr × W32)) : Host.Outcome State Fault Refusal :=
  match ms with
  | [] => .next s
  | (i, w) :: r =>
    if endsPass s then .next s
    else
      match exec i (s.modCv (fun c => { c with mbr := BitVec.ofNat 2 n, word := w, trap := none })) with
      | .next s' => runPass (n + 1) (keepTrap s s') r
      | .fault f => .fault f
      | .refused f => .refused f

/-- The state before a convoy, with what its translations and the batch of its own trap have left outside the
thread: they stand when the convoy itself has no effect (R42, R48, R397). Entries of earlier convoys may have
drained; none of the convoy's own has (R397). -/
def State.outside (start s : State) : State :=
  { start with mem := s.mem, parts := s.parts, hub := s.hub, free := s.free }.modHw
    (fun h => { h with buf := s.th.hw.buf.filter (fun e => !start.unretired e) })

/-- Append the batches of a convoy's element faults (R48): the state, and the trap as the queue took the first
of them; a poisoned queue makes it MACFAIL (R75). -/
def State.appendFaults (s : State) (t : TrapInfo) : State × TrapInfo :=
  let r := s.cv.batches.foldl (fun (u : State × List QResult) b =>
    let x := u.1.appendBatch s.curPart s.th.id.vf s.th.tr.asid s.cur b
    (x.1, u.2 ++ [x.2])) (s, [])
  if r.2.contains .mac then (s, pfaultTrap t.val .mac true)
  else (r.1, if t.cause = Cause.pfault then pfaultTrap t.val (r.2.headD .taken) true else t)

/-- The end of a convoy of several members, from the state before it and the state its last pass
reached: a trap that is no element fault leaves nothing of the convoy; an element fault leaves the
elements that did not fault and writes pf (R48, R401); a part-way stop leaves what is below the marks
(R399, handled by its event); else the convoy retires. -/
def endConvoy (start s : State) : State :=
  match s.cv.trap with
  | some t0 =>
    let f := if t0.pfw then s.appendFaults t0 else (s, t0)
    let t := f.2
    if t.pfw then
      let s1 := (f.1.setPred 95 s.cv.faulted).modCv (fun c => { c with mbr := s.cv.trapMbr })
      (s1.takeTrapWith t false false).modCv (fun _ => Convoy.single)
    else
      (((start.outside s).modCv (fun c => { c with mbr := s.cv.trapMbr })).takeTrap t).modCv
        (fun _ => Convoy.single)
  | none =>
    if s.cv.waits then ((start.outside s).modHw (fun h => { h with wait := s.th.hw.wait })).modCv
      (fun _ => Convoy.single)
    else (s.retire none).modCv (fun _ => Convoy.single)

/-- Run the passes of a convoy: while a member finds new faulted elements, the convoy is performed
again from its start with them withheld from every member (R401). -/
def runConvoy (fuel : Nat) (start : State) (ms : List (Instr × W32)) (withheld : BitVec 4096) :
    Host.Outcome State Fault Refusal :=
  match runPass 0 (start.modCv (fun c => { c with withheld := withheld, faulted := 0 })) ms with
  | .next s =>
    match fuel with
    | 0 => .next (endConvoy start s)
    | fuel + 1 =>
      if s.cv.waits || decide (s.cv.faulted &&& ~~~withheld = 0#4096) then .next (endConvoy start s)
      else runConvoy fuel start ms (withheld ||| s.cv.faulted)
  | .fault f => .fault f
  | .refused f => .refused f

/-- The convoy context of a convoy of one. -/
def singleCv (i : Instr) (w : W32) : Convoy :=
  { Convoy.single with word := w, vector := clearsProgress i }

/-- The convoy context of a convoy of several, with the number of the thread's next store. -/
def manyCv (ms : List (Instr × W32)) (base : Nat) : Convoy :=
  { Convoy.single with
    many := true
    base := base
    nmbr := BitVec.ofNat 2 (ms.length - 1)
    len := 4 * ms.length
    vector := ms.any (fun m => clearsProgress m.1) }

/-- Run the members of a convoy that obeys R146. -/
def perform (s : State) (ms : List (Instr × W32)) : Host.Outcome State Fault Refusal :=
  match ms with
  | [(i, w)] => exec i (s.modCv (fun _ => singleCv i w))
  | _ => runConvoy 4 (s.modCv (fun _ => manyCv ms s.th.hw.storeNum)) ms 0

/-! ### Trace records -/

/-- A convoy issues, once every pipe that it needs is free (R281): triggers on its address, its convoy record, its
members under way (R436, R437, R440). A waiting instruction that is performed again has issued already. Members
of the thread that a trap has cut off end stopped. -/
def State.atIssue (s : State) (ms : List (Instr × W32)) : State :=
  if s.th.hw.issued then s
  else
    let pipes := (pipesOf 0 0 ms).map (·.1)
    let s1 := ((s.markFlights s.cur 4).passTime s.curVc true).pumpUntil s.curVc (fun v => v.pipesFree s.cur pipes)
    ((s1.matchConvoy.traceConvoy ms.length).addFlights ms).modHw (fun h => { h with issued := true })

/-- The convoy of a slot has been performed, unless it waits for something other than the array: its members
may end (R437). -/
def State.convoyEnded (s : State) (slot : Nat) : State :=
  let w := (s.thread slot).hw.wait
  if w.isNone || w == some .array then
    ((s.arrayTaken slot).markFlights slot 1).modThread slot (fun t => { t with hw := { t.hw with issued := false } })
  else s

/-- What follows the performing of a slot's convoy (R437). -/
def afterIssue (slot : Nat) (o : Host.Outcome State Fault Refusal) : Host.Outcome State Fault Refusal :=
  match o with
  | .next s => .next (s.convoyEnded slot)
  | .fault f => .fault f
  | .refused f => .refused f

/-- Issue a convoy whose members are decoded and obey R146. -/
def issue (s : State) (ms : List (Instr × W32)) : Host.Outcome State Fault Refusal :=
  afterIssue s.cur (perform (s.atIssue ms) ms)

/-! ### Stops part-way -/

/-- The mask of the elements below vl that a test selects. -/
def State.maskWhere (s : State) (f : Nat → Bool) : BitVec 4096 :=
  BitVec.ofNat 4096 (((List.range s.vl).filter f).foldl (fun m e => m ||| 2 ^ e) 0)

/-- Record the progress of a convoy that stops part-way (R399), from the state at its issue: an element
left over from an earlier fault, or found faulted now, stands in pf; a held group's vstart is its first
other element not completed, or vl. -/
def State.recordStop (s start : State) : State × Progress :=
  let old := start.th.tr.estat
  let inPf := fun e => old.pfw && (start.pred 95).getLsbD e && s.cutOff e || s.cv.faulted.getLsbD e
  let pf := s.maskWhere inPf
  let left := (List.range s.vl).filter (fun e => !start.done e && s.cutOff e && !inPf e)
  let first := fun g => ((left.filter (fun e => decide (start.groupOf e = g))).head?).getD s.vl
  let s1 := (s.modVec (fun v => { v with
    vstart := (List.range (max 1 s.lg)).foldl (fun t g =>
      tset 0 t g (BitVec.ofNat 13 (first g))) [] })).dirtyCfg
  let s2 := if pf = 0#4096 then s1 else s1.setPred 95 pf
  (s2, { vpart := true, mpart := false, pfw := decide (pf ≠ 0#4096) })

/-- The end of a convoy that stops part-way, from the state at its issue and the state its last pass
reached. The convoy's own trap is taken and leaves the request pending, its members stopped (R437); a member that
waits leaves nothing of this issue. -/
def endPartWay (start s : State) (r : StopReq) : State :=
  let f := match s.cv.trap with
    | some t => if t.pfw then s.appendFaults t else (s, t)
    | none => (s, plainTrap 0 0)
  let rec_ := f.1.recordStop start
  match s.cv.trap.map (fun _ => f.2) with
  | some t =>
    if t.pfw then
      let s1 := (rec_.1.modCv (fun c => { c with mbr := s.cv.trapMbr })).markFlights s.cur 4
      (s1.takeTrapWith t true false).modCv (fun _ => Convoy.single)
    else
      (((start.outside s).modCv (fun c => { c with mbr := s.cv.trapMbr })).takeTrap t).modCv
        (fun _ => Convoy.single)
  | none =>
    if s.cv.waits then
      let e := start.th.tr.estat
      ((start.outside s).land start.cur r { vpart := e.vpart, mpart := e.mpart, pfw := e.pfw }).modCv
        (fun _ => Convoy.single)
    else
      ((rec_.1.modCv (fun c => { c with mbr := 0 })).land s.cur r rec_.2).modCv
        (fun _ => Convoy.single)

/-- A trap taken after the convoy: failed calls of RCALLV, which completes every call first (R261). -/
def State.failedCalls (s : State) : Bool :=
  match s.cv.trap with
  | some t => t.next
  | none => false

/-- The passes of a convoy that stops part-way (R401); `full` is its run to the end. -/
def runPartWay (fuel : Nat) (start : State) (ms : List (Instr × W32)) (r : StopReq)
    (full : Host.Outcome State Fault Refusal) (withheld : BitVec 4096) :
    Host.Outcome State Fault Refusal :=
  match runPass 0 (start.modCv (fun c => { c with withheld := withheld, faulted := 0 })) ms with
  | .next s =>
    match fuel with
    | 0 => afterIssue start.cur (.next (endPartWay start s r))
    | fuel + 1 =>
      if s.failedCalls then full
      else if s.cv.waits || decide (s.cv.faulted &&& ~~~withheld = 0#4096) then
        afterIssue start.cur (.next (endPartWay start s r))
      else runPartWay fuel start ms r full (withheld ||| s.cv.faulted)
  | .fault f => .fault f
  | .refused f => .refused f

/-- A matrix product stopped between rows (R233): with rows left over the stop lands, MPART set; otherwise
it completes, with the trap of what it raised (R134). -/
def stopProduct (i : Instr) (w : W32) (start : State) (r : StopReq) :
    Host.Outcome State Fault Refusal :=
  match exec i start with
  | .next s =>
    let s0 := s.modCv (fun _ => Convoy.single)
    match s.cv.trap with
    | some t => .next ((start.takeTrap t).modCv (fun _ => Convoy.single))
    | none =>
      if s.cv.waits then
        let e := start.th.tr.estat
        .next (start.land start.cur r { vpart := e.vpart, mpart := e.mpart, pfw := e.pfw })
      else if s.th.fl.mpAct then
        .next (s0.land s.cur r { vpart := false, mpart := true, pfw := false })
      else .next ((s.modCv (fun c =>
        { singleCv i w with raised := c.raised, raisers := c.raisers })).retire none)
  | .fault f => .fault f
  | .refused f => .refused f

/-- The marks of a part-way stop of a convoy with a member that stores through the buffer: a beat is stored
whole, and no beat before the lower ones, so that every held group stops at the beat of the first element that
is left over (R171, R399). -/
def State.orderedMarks (s : State) : List Nat :=
  match (List.range s.vl).find? (fun e => !s.done e && s.cutOff e) with
  | none => s.cv.cut
  | some e =>
    let beat := if s.vt.sq then 63 else 512 / s.vt.sew
    List.replicate (max 1 s.lg) (e - e % s.per s.vt.gm % beat)

/-- A stop with marks is asked of the convoy at the program counter (R398): it stops part-way when it is
of a kind that does and something of it would be left over, otherwise it completes. The failures of
RCALLV's calls end it in full (R261). -/
def issueCut (s : State) (r : StopReq) (ms : List (Instr × W32)) :
    Host.Outcome State Fault Refusal :=
  let asked := (s.modHw (fun h => { h with cut := [] })).modCv (fun _ =>
    { manyCv ms s.th.hw.storeNum with cut := s.th.hw.cut })
  let start := if ms.any (fun m => storesBeats m.1) then
      asked.modCv (fun c => { c with cut := asked.orderedMarks }) else asked
  let plain := s.modHw (fun h => { h with cut := [] })
  let parts := (List.range s.vl).any (fun e => !start.done e && start.cutOff e)
  let many := if parts then runPartWay 4 (start.atIssue ms) ms r (issue plain ms) 0 else issue plain ms
  if !stopsPartWay (ms.map (·.1)) then issue plain ms
  else
    match ms with
    | [(i, w)] => if isProduct i then afterIssue s.cur (stopProduct i w (start.atIssue ms) r) else many
    | _ => many

/-- Take a trap of a convoy that is not issued (R147, R148), with the member and their number. -/
def refuseConvoy (s : State) (cause mbr n : Nat) (val : W64) : State :=
  ((s.modCv (fun _ => { Convoy.single with
      mbr := BitVec.ofNat 2 mbr, nmbr := BitVec.ofNat 2 (n - 1) })).takeTrapWith
    (plainTrap cause val) false false).modCv (fun _ => Convoy.single)

/-- Run the convoy at the program counter: fetch, form, decode, check, issue (R148). -/
noncomputable def runFetched (s0 : State) : Host.Outcome State Fault Refusal :=
  let r := ((s0.modCv (fun _ => Convoy.single)).modNest Nest.settle).fillBody
  let fetched : Except FetchStop (List W32) × State :=
    match r.1 with
    | some (pc, f) => (.error f, r.2.modSc (fun c => { c with pc := pc }))
    | none => r.2.fetchConvoy
  match fetched with
  | (.error f, s) => .next ((s.fetchTrap f).modCv (fun _ => Convoy.single))
  | (.ok ws, s1) =>
    let s := s1.endWait s1.cur (fun w => w == .fetch)
    match decodeMembers 0 ws with
    | .error (n, w) => .next (refuseConvoy s Cause.illop n ws.length (w.setWidth 64))
    | .ok ms =>
      match convoyBreach s ms with
      | some (reason, mbr, w) =>
        .next (refuseConvoy s Cause.convoy mbr ws.length (convoyVal reason mbr w))
      | none =>
        match if s.th.hw.cut.isEmpty then none else s.th.hw.stops.find? s.th.stoppable with
        | some r => issueCut s r ms
        | none => issue (s.modHw (fun h => { h with cut := [] })) ms

/-- The convoy at the program counter runs. A committed VAPPEND goes on as it was fetched: nothing stops it
in between (R181). -/
noncomputable def runAtPc (s : State) : Host.Outcome State Fault Refusal :=
  match s.th.hw.append with
  | some a => issue (s.modCv (fun _ => Convoy.single)) [(a.instr, a.word)]
  | none => runFetched s

/-- A context at job start on the current slot with a word at its program counter: R113's state, in U
mode, with nothing scheduled and nothing cached of the block. -/
def State.placeWord (s : State) (w : Nat) : State :=
  let s1 := { s with sched := [], cv := Convoy.single }
  let s2 := s1.modHw (fun h => { h with occ := true, mig := false, parked := false, wait := none,
                                        stops := [], issued := false })
  let s3 := s2.modSc (fun c => { c with pc := BitVec.ofNat 64 ownWindow, mode := .U })
  let s4 := s3.modNest (fun n => { n with open_ := false })
  let s5 := s4.poke (scratchLoc s.curTile 0) 0 (leBytes 4 w)
  let key := scratchLoc s.curTile 0 / 64
  (s5.modVc s.curVc (fun v => { v with icache := v.icache.filter (fun e => decide (e.1 ≠ key)) })).modHw
    (fun h => { h with fetched := terase h.fetched key })

end Sys2Proof.Machine
end

