-- ==== Sys2Proof/Machine/Run.lean ====
section
/-!
DEFINITION. Running the package: the current thread's next boundary (R281, R282, R397), and what happens
when that thread has nothing to do and nothing is scheduled (log entry 3).
-/

namespace Sys2Proof.Machine

open Sys2Proof

/-- What may happen next without the current thread, in the model's order: answers to snoops, stops that
land, stores and trains on their way, engines, work in progress in the hub, markers, dispatch, the RC's next boot
step. -/
def State.pendingActs (s : State) : List (State → Host.Outcome State Fault Refusal) :=
  let slots := s.occupied
  let dests := fun n => ((s.thread n).hw.trains.map (·.dest)).eraseDups
  let parts := s.parts.map (·.1)
  s.mem.backInv.map execBackInvalidateResponse ++
    slots.map execAbandonStop ++ slots.map execForcedStop ++ slots.map execMmaComplete ++
    slots.map execStoreBufferDrain ++
    slots.flatMap (fun n => (dests n).map (execTrainArrival n)) ++
    slots.flatMap (fun n => (dests n).map (execTrainAck n)) ++
    (List.range 40).map (fun e => execCancelledCommandStop e 0) ++
    (List.range 40).map (fun e => execEngineStop e 0) ++
    (List.range 40).map execEngineStart ++
    (List.range 40).map execCopyComplete ++ (List.range 40).map execCodingComplete ++
    [execReleaseComplete, execRemovalComplete] ++ parts.map execS1invComplete ++
    parts.flatMap (fun p => ((s.part p).jobs.filter (fun j => j.2.settling)).map (fun j =>
      execMarkerWrite p (jobIdOf j.1 j.2))) ++
    parts.map execDispatch ++ [fun u => .next u.bootNext]

/-- The first act that changes the state; none does. -/
def firstAct (s : State) : List (State → Host.Outcome State Fault Refusal) → Option State
  | [] => none
  | f :: r =>
    match f s with
    | .next t => if t = s then firstAct s r else some t
    | _ => firstAct s r

/-- The next slot after the current one, in ascending order with wrap, whose thread can run (R281). -/
def State.nextSlot (s : State) : Option Nat :=
  let order := sortBy (fun a b => decide (a ≤ b)) s.occupied
  ((order.filter (fun n => decide (s.cur < n))) ++ order.filter (fun n => decide (n < s.cur))).find?
    (fun n => (s.switchTo n).canRun)

/-- The package with nothing to do on the current thread: the first pending act, or the next thread that
can run becomes current, or nothing happens. -/
def State.background (s : State) : State :=
  match firstAct s s.pendingActs with
  | some t => t
  | none =>
    match s.nextSlot with
    | some n => s.switchTo n
    | none => s

/-- The current thread at its boundary (R281, R282, R397): a stop that can land does, unless it is to stop
the convoy part-way (R398), or that has
to wait, an instruction on
the array finishes, otherwise the convoy at the program counter runs; a thread that still waits, or that
cannot run, leaves the step to the rest of the package. -/
noncomputable def runThread (s : State) : Host.Outcome State Fault Refusal :=
  if s.canRun then
    match if s.th.hw.cut.isEmpty then s.th.landing else none with
    | some r =>
      let t := s.landFirst s.cur (fun x => x == r)
      .next (if t = s then s.background else t)
    | none =>
      if s.th.hw.wait = some .array then .next (s.arrayDone s.cur)
      else
        match runAtPc s with
        | .next t =>
          .next (if s.th.hw.wait.isSome && t.th.hw.wait == s.th.hw.wait then t.background else t)
        | o => o
  else .next s.background

/-- An event happens; while the clocks are stopped only power-on reset does (R446). -/
def runEvent (i : Instr) (s : State) : Host.Outcome State Fault Refusal :=
  if s.hub.clocksOff then
    match i with
    | .powerOnReset => exec i s
    | _ => .fault .clocksStopped
  else exec i s

/-- A slot's turn. -/
noncomputable def runSlot (s : State) : Host.Outcome State Fault Refusal :=
  if s.hub.clocksOff then .fault .clocksStopped else runThread s

end Sys2Proof.Machine
end

