-- ==== Sys2Proof/Machine/Step.lean ====
section
/-!
DEFINITION. One step of the package: the next entry of the schedule, or the current thread.
-/

namespace Sys2Proof.Machine

open Sys2Proof

/-- One step (log entry 3): the first entry of the schedule happens, an event or the next convoy of a
slot; with nothing scheduled the current thread runs. -/
noncomputable def step (s : State) : Host.Outcome State Fault Refusal :=
  match s.sched with
  | .event i :: r => runEvent i { s with sched := r }
  | .run slot :: r => runSlot ({ s with sched := r }.switchTo slot)
  | [] => runSlot s

/-- The state with one instruction word where step fetches next (log entry 12): a context at job
start on the current slot, its program counter at the first byte of its tile's scratchpad, the word
there. -/
def State.withFetchWord (s : State) (nbits w : Nat) : State := s.placeWord (w % 2 ^ nbits)

end Sys2Proof.Machine
end

