-- ==== Sys2Proof/Machine/Assembly.lean ====
section
/-!
DEFINITION. What the assembler emits (R151 to R160): the parts of an address, the words of pseudo-instructions
and convoys, the bytes of directives, vtype values and job descriptor templates. Text and names are resolved
before: a statement here carries numbers.
-/

namespace Sys2Proof.Machine

open Sys2Proof

/-! ### Parts of an address (R151) -/

/-- `%lo(x)`. -/
def asmLo (x : W64) : BitVec 12 := x.setWidth 12

/-- `%hi(x)`. -/
def asmHi (x : W64) : BitVec 20 := ((x - (asmLo x).signExtend 64) >>> 12).setWidth 20

/-- `%pchi(x)` at the ADDPC with address A. -/
def asmPcHi (x a : W64) : BitVec 20 := asmHi (x - a)

/-- `%pclo(x, l)`, where l is the address of that ADDPC. -/
def asmPcLo (x l : W64) : BitVec 12 := asmLo (x - l)

/-! ### Pseudo-instructions (R153) -/

/-- A pseudo-instruction; a jump carries its target. -/
inductive Pseudo where
  | nop
  | mv (d a : BitVec 5)
  | li (d : BitVec 5) (x : Int)
  | j (l : W64)
  | call (l : W64)
  | ret
  deriving DecidableEq, Repr

/-- The link register lk (R98). -/
def lkReg : BitVec 5 := 1

/-- The offset field of a jump from one address to another; none beyond its reach (R309, R150). -/
def jumpField (at' l : W64) : Option (BitVec 20) :=
  let d := (l - at').toInt
  if d % 4 = 0 ∧ -(2 ^ 21) ≤ d ∧ d < 2 ^ 21 then some (BitVec.ofInt 20 (d / 4)) else none

/-- The instructions of a pseudo-instruction at an address; none where it is an error. -/
def Pseudo.instrs (p : Pseudo) (at' : W64) : Option (List Instr) :=
  match p with
  | .nop => some [.addi 0 0 0]
  | .mv d a => some [.addi d a 0]
  | .li d x =>
    if -2048 ≤ x ∧ x ≤ 2047 then some [.addi d 0 (BitVec.ofInt 12 x)]
    else if -(2 ^ 31) - 2048 ≤ x ∧ x ≤ 2 ^ 31 - 2049 then
      let w := BitVec.ofInt 64 x
      some [.lui d (asmHi w), .addi d d (asmLo w)]
    else none
  | .j l => (jumpField at' l).map (fun o => [.jal 0 o])
  | .call l => (jumpField at' l).map (fun o => [.jal lkReg o])
  | .ret => some [.jalr 0 lkReg 0]

/-! ### vtype (R104, R156) -/

/-- The element types of R104. -/
inductive ElemType where
  | i8 | i16 | i32 | i64
  | n8 | n16 | n32 | n64
  | q15 | q31
  | f8e4 | f16 | f32 | f64 | f8e5 | bf16
  | cq15 | cq31
  | cf16 | cf32
  | sq
  deriving DecidableEq, Repr

/-- CLASS, FMT and SEW of an element type. -/
def ElemType.fields : ElemType → Nat × Nat × Nat
  | .i8 => (0, 0, 0) | .i16 => (0, 0, 1) | .i32 => (0, 0, 2) | .i64 => (0, 0, 3)
  | .n8 => (1, 0, 0) | .n16 => (1, 0, 1) | .n32 => (1, 0, 2) | .n64 => (1, 0, 3)
  | .q15 => (2, 0, 1) | .q31 => (2, 0, 2)
  | .f8e4 => (3, 0, 0) | .f16 => (3, 0, 1) | .f32 => (3, 0, 2) | .f64 => (3, 0, 3)
  | .f8e5 => (3, 1, 0) | .bf16 => (3, 1, 1)
  | .cq15 => (4, 0, 2) | .cq31 => (4, 0, 3)
  | .cf16 => (5, 0, 2) | .cf32 => (5, 0, 3)
  | .sq => (6, 0, 0)

/-- A `.vcfg` directive: the type and its keys; rnd is the RND field (R103). -/
structure Vcfg where
  type : ElemType
  nreg : Nat
  gm : Nat
  pb : Nat
  rnd : Nat
  planes : Nat
  sat : Bool
  mid : Bool
  deriving DecidableEq, Repr

/-- A `.vcfg` with no keys. -/
def Vcfg.plain (t : ElemType) : Vcfg :=
  { type := t, nreg := 32, gm := 1, pb := 0, rnd := 0, planes := 8, sat := false, mid := false }

/-- `%vtype` under a `.vcfg`; none for a key out of range. -/
def Vcfg.value (v : Vcfg) : Option Nat :=
  let f := v.type.fields
  if (v.nreg = 8 ∨ v.nreg = 16 ∨ v.nreg = 32) ∧ (v.gm = 1 ∨ v.gm = 2 ∨ v.gm = 4 ∨ v.gm = 8) ∧
      v.pb ≤ 2 ∧ v.rnd ≤ 4 ∧ 2 ≤ v.planes ∧ v.planes ≤ 8 then
    some (f.2.2 + f.1 * 2 ^ 3 + f.2.1 * 2 ^ 6 + Nat.log2 (v.nreg / 8) * 2 ^ 8 +
      Nat.log2 v.gm * 2 ^ 10 + v.pb * 2 ^ 12 + v.rnd * 2 ^ 14 + bit v.sat 17 +
      (v.planes - 1) * 2 ^ 18 + bit v.mid 22)
  else none

/-! ### Convoys (R154) -/

/-- The words of a convoy's members: C is set on every word but the last. -/
def convoyWords : List Instr → Option (List W32)
  | [] => some []
  | i :: r =>
    match i.word, convoyWords r with
    | some w, some ws => some (BitVec.ofNat 32 (w + bit (!r.isEmpty) 31) :: ws)
    | _, _ => none

/-- NOPs in front of a head so that a convoy of n words does not cross a 64-byte boundary. -/
def nopsBefore (at' n : Nat) : Nat := if 64 < at' % 64 + 4 * n then (64 - at' % 64) / 4 else 0

def nopWord : W32 := 0x04000000#32

/-- The state in which the assembler checks R146: reset, under the vtype in force. -/
def asmState (vtype : Nat) : State :=
  State.reset.modVec (fun v => { v with vtype := BitVec.ofNat 23 vtype })

/-- The words of a convoy at an address with its padding; none for a breach of R146. -/
def emitConvoy (vtype at' : Nat) (is : List Instr) : Option (List W32) :=
  match convoyWords is with
  | none => none
  | some ws =>
    if ws.length = 0 ∨ 4 < ws.length ∨ ¬ is.all (·.wf) ∨ (convoyBreach (asmState vtype) (is.zip ws)).isSome
    then none
    else some (List.replicate (nopsBefore at' ws.length) nopWord ++ ws)

/-! ### Data (R155) -/

/-- A rational p / 10^k rounded to a format under RNE (R155). The last bit kept of the quotient says whether
a remainder is left, far below the smallest subnormal of f32. -/
def roundDecimal (f : Fmt) (p : Int) (k : Nat) : Nat :=
  let q : Nat := 10 ^ k
  let e : Nat := 400
  let n := p.natAbs * 2 ^ e
  let m := 2 * (n / q) + (if n % q = 0 then 0 else 1)
  (f.round 0 false (if p < 0 then -(m : Int) else m) (-((e : Int) + 1))).val

/-- A job descriptor template (R160, R360, R361). -/
def jobTemplate (entry : W64) (cls lg vtype : Nat) : Option (List Byte) :=
  if cls ≤ 3 ∧ 1 ≤ lg ∧ lg ≤ 8 then
    some (leBytes 8 entry.toNat ++ List.replicate 56 0 ++ leBytes 8 (cls + lg * 4) ++ leBytes 4 vtype ++
      List.replicate 52 0)
  else none

/-! ### Statements -/

/-- The sections (R155). -/
inductive AsmSection where
  | text
  | data
  | rodata
  deriving DecidableEq, Repr

/-- A statement, with its names resolved. A decimal number is p / 10^k. -/
inductive AsmStmt where
  /-- `.text`, `.data` and `.rodata`. -/
  | select (sec : AsmSection)
  | convoy (is : List Instr)
  | pseudo (p : Pseudo)
  | align (n : Nat)
  /-- `.byte`, `.half`, `.word` and `.dword`: element size and values. -/
  | values (size : Nat) (xs : List W64)
  | float (xs : List (Int × Nat))
  | bf16 (xs : List (Int × Nat))
  | space (n : Nat) (f : Byte)
  | kernel
  | endk
  | vcfg (v : Vcfg)
  | vcfgAny
  /-- `.slice` … `.endslice`. -/
  | slice (ws : List W32)
  /-- `.job`: class and lane groups. -/
  | job (cls lg : Nat)
  deriving DecidableEq, Repr

/-- A section's base address and the bytes emitted into it. -/
structure AsmBytes where
  base : Nat
  bytes : List Byte
  deriving DecidableEq, Repr

/-- The current location of a section. -/
def AsmBytes.loc (b : AsmBytes) : Nat := b.base + b.bytes.length

def AsmBytes.emit (b : AsmBytes) (xs : List Byte) : AsmBytes := { b with bytes := b.bytes ++ xs }

/-- The assembler between two statements: the three sections, the one selected, the value of `%vtype` in force
(none before a `.vcfg`, after `.vcfg any` and after `.endk`), the entry of the open `.kernel`, and the entries
and sizes recorded at each `.endk`. -/
structure Asm where
  text : AsmBytes
  data : AsmBytes
  rodata : AsmBytes
  current : AsmSection
  vtype : Option Nat
  kernel : Option Nat
  sizes : List (Nat × Nat)
  deriving DecidableEq, Repr

/-- The assembler at its start, given the sections' bases. -/
def Asm.start (text data rodata : Nat) : Asm :=
  { text := ⟨text, []⟩, data := ⟨data, []⟩, rodata := ⟨rodata, []⟩, current := .text, vtype := none,
    kernel := none, sizes := [] }

def Asm.at (a : Asm) : AsmSection → AsmBytes
  | .text => a.text
  | .data => a.data
  | .rodata => a.rodata

/-- Bytes emitted into a section. -/
def Asm.emit (a : Asm) (sec : AsmSection) (xs : List Byte) : Asm :=
  match sec with
  | .text => { a with text := a.text.emit xs }
  | .data => { a with data := a.data.emit xs }
  | .rodata => { a with rodata := a.rodata.emit xs }

/-- The bytes of words. -/
def wordBytes (ws : List W32) : List Byte := ws.flatMap (fun w => leBytes 4 w.toNat)

/-- A section padded to a multiple of n: NOPs in `.text`, zeros elsewhere. -/
def Asm.align (a : Asm) (sec : AsmSection) (n : Nat) : Option Asm :=
  let k := (n - (a.at sec).loc % n) % n
  if sec = .text then
    if k % 4 = 0 then some (a.emit sec (wordBytes (List.replicate (k / 4) nopWord))) else none
  else some (a.emit sec (List.replicate k 0))

/-- The vtype that a template takes when none is asserted (R160), and a check of R146 (log entry 92). -/
def defaultVtype : Nat := 0x1C021A

/-- Words of instructions, which stand in `.text` alone. -/
def Asm.code (a : Asm) (ws : Option (List W32)) : Option Asm :=
  if a.current = .text ∧ a.text.loc % 4 = 0 then ws.map (fun l => a.emit .text (wordBytes l)) else none

/-- One statement; none where the assembler reports an error. -/
def Asm.step (a : Asm) : AsmStmt → Option Asm
  | .select sec => some { a with current := sec }
  | .convoy is => a.code (emitConvoy (a.vtype.getD defaultVtype) a.text.loc is)
  | .pseudo p =>
    a.code ((p.instrs (BitVec.ofNat 64 a.text.loc)).bind (fun is => (is.mapM (fun i => convoyWords [i])).map
      List.flatten))
  | .align n => if n ∈ (List.range 13).map (fun k => 2 ^ k) then a.align a.current n else none
  | .values size xs =>
    if size = 1 ∨ size = 2 ∨ size = 4 ∨ size = 8 then
      some (a.emit a.current (xs.flatMap (fun x => leBytes size x.toNat)))
    else none
  | .float xs => some (a.emit a.current (xs.flatMap (fun x => leBytes 4 (roundDecimal f32 x.1 x.2))))
  | .bf16 xs => some (a.emit a.current (xs.flatMap (fun x => leBytes 2 (roundDecimal Machine.bf16 x.1 x.2))))
  | .space n f => some (a.emit a.current (List.replicate n f))
  | .kernel =>
    if a.kernel.isNone then (a.align .text 64).map (fun b => { b with kernel := some b.text.loc }) else none
  | .endk =>
    a.kernel.map (fun k => { a with kernel := none, vtype := none, sizes := a.sizes ++ [(k, a.text.loc - k)] })
  | .vcfg v =>
    match v.value with
    | some x => if legalVtype x then some { a with vtype := some x } else none
    | none => none
  | .vcfgAny => some { a with vtype := none }
  | .slice ws =>
    if ws.length ≤ 32 ∧ (verifyImage ws).1 = none then
      (a.align .rodata 128).map (fun b => b.emit .rodata (wordBytes ws))
    else none
  | .job cls lg =>
    match a.kernel, a.align .rodata 128 with
    | some k, some b =>
      (jobTemplate (BitVec.ofNat 64 k) cls lg (a.vtype.getD defaultVtype)).map (fun d => b.emit .rodata d)
    | _, _ => none

/-- Statements in order. -/
def assemble (a : Asm) (xs : List AsmStmt) : Option Asm := xs.foldlM Asm.step a

end Sys2Proof.Machine
end

