-- ==== Sys2Proof/Safety.lean ====
section
/-!
DEFINITION. The terms in which claims are stated: the canonical form of memory, conditions on a state under
which an instruction completes, and the forms of a completed instruction's outcome.
-/

namespace Sys2Proof.Machine

open Sys2Proof

/-! ### Well-formed states -/

/-- Memory is in canonical form. -/
def State.memOk (s : State) : Bool := Memory.wf s.mem.cells

/-- s0 holds nothing: it is not listed in the register table (R98). -/
def Thread.zeroOk (t : Thread) : Bool := t.sc.s.all (fun e => e.1 != 0)

/-- No thread of the package has a value for s0. -/
def State.zeroAll (s : State) : Bool := s.th.zeroOk && s.slots.all (fun e => e.2.zeroOk)

/-- The vector type is a legal one and vl is within its VLMAX (R101, R104, R315). -/
def Thread.vecLegal (t : Thread) : Bool :=
  legalVtype t.vec.vtype.toNat && decide (t.vec.vl.toNat ≤ vlmaxOf (vtOf t.vec.vtype.toNat) t.held.count)

/-- The jobs of a partition that is set up start with a legal vector type (R338). -/
def Part.vecLegal (p : Part) : Bool := p.jobs.all (fun e => !e.2.live || legalVtype e.2.vtypeWord)

/-- Every thread's vector type and length are legal, those that jobs are to start with among them. -/
def State.vecLegal (s : State) : Bool :=
  s.th.vecLegal && s.slots.all (fun e => e.2.vecLegal) &&
    (s.parts ++ s.hub.nextParts).all (fun e => e.2.vecLegal)

/-- No thread is about to lose the remote half of its lane groups (R293). -/
def Thread.spanWhole (t : Thread) : Bool :=
  t.hw.stops.all (fun r => match r with | .spanLost _ => false | .abandon => true | .forced _ => true)

/-- No thread of the package is about to lose the remote half of its lane groups. -/
def State.spansWhole (s : State) : Bool := s.th.spanWhole && s.slots.all (fun e => e.2.spanWhole)

/-! ### Conditions -/

/-- The convoy in hand is one word at a convoy boundary: nothing collected by earlier members, no loop
nest open, no single step, no wait. -/
def State.plain (s : State) : Bool :=
  !s.cv.many && s.cv.late.isEmpty && s.cv.raised == 0#8 && s.cv.raisers.isEmpty && s.cv.len == 4 && !s.th.nest.open_ &&
    !s.th.nest.stale && !s.th.hw.dbStep && s.th.hw.wait.isNone

/-- The first checks of a vector-state instruction pass: not on the SC, vector state present, the register
fields name groups, the type is accepted (R99, R184, R328, R404). -/
def State.vecOk (s : State) (regs : List (BitVec 5)) (types : Vt → Bool) : Bool :=
  s.th.sc.mode != .S && !s.th.tr.absent && regs.all (groupOk s.vt s.vt.gm) && types s.vt

/-- The thread's releases do not wait: nothing holds an entry of its buffer up and, once the buffer has
drained, no train is unacknowledged (R268, R278). -/
def State.clear (s : State) : Bool :=
  !s.bufHeld s.cur s.th.hw.buf && s.drainAll.th.hw.trains == []

/-- The state in which an address is translated: where the walker is to set A or D, its release comes first
(R42); none when that waits. -/
def State.ready (s : State) (places : List TlbPlace) (acc : Access) (va : W64) : Option State :=
  match (s.translate places s.ctx acc va).1.1 with
  | .ok x => if x.pte.isSome then (if s.clear then some s.drainAll else none) else some s
  | .error _ => some s

/-- What a place of n bytes asks of an access is met: no marker awaited, no own train on its way to it, no other
thread's window on it (R247, R264, R273). -/
def State.homeFree (s : State) (p : Phys) (n : Nat) : Bool :=
  !s.settlesPending && !s.trainAt p.loc n && !s.windowLocked (some s.cur) p.loc n

/-- The place that the scalar port gives an address, and the state after the walker's updates (R42, R305); none
when it traps or waits. -/
def State.placed (s : State) (acc : Access) (va : W64) : Option (Phys × State) :=
  match s.ready s.scalarPlaces acc va with
  | none => none
  | some r =>
    match r.resolve s.scalarPlaces r.ctx acc va with
    | (.ok x, u) => some (x.phys, u)
    | _ => none

/-- What an aligned, unlocked scalar access of n bytes finds: the place it translates to and the state
after the walker's updates (R42, R94, R305); none when it traps or waits. -/
def State.got (s : State) (acc : Access) (va : W64) (n : Nat) : Option (Phys × State) :=
  if va.toNat % n = 0 ∧ s.lockHitVa va n (decide (acc = .store)) = none then
    match s.placed acc va with
    | some (p, u) => if u.homeFree p n then some (p, u) else none
    | none => none
  else none

/-- Stores at some places may enter the buffer: no pending line that a WINPUB can publish is in their way (R276). -/
def State.roomAt (s : State) (ps : List Phys) : Bool :=
  !s.storeWaits ps

/-- Writes at some places find room among the pending lines of their sets (R276). -/
def State.roomNow (s : State) (ps : List Phys) : Bool :=
  !s.noRoom ps

/-- The translation of the elements of `now`, once those of `as` are aligned and unlocked (R165), and the
state after the walker's updates; none when it traps or waits. -/
def State.touched (s : State) (acc : Access) (n : Nat) (as now : List (Nat × W64)) : Option (Touch × State) :=
  match (do
      alignElems n as
      lockElems n (decide (acc = .store)) as
      translateElems acc now n : M Touch) s with
  | (.ok t, u) => some (t, u)
  | _ => none

/-- What a vector access finds when every address is aligned, unlocked and translated (R165): the places of
its elements short of a part-way stop; none when it traps or waits. -/
def State.placesOf (s : State) (acc : Access) (n : Nat) (as : List (Nat × W64)) :
    Option (List (Nat × W64 × Phys) × State) :=
  match s.touched acc n as (s.short as) with
  | some (t, u) => if t.bad.isEmpty then some (t.ok, u) else none
  | none => none

/-- No poisoned word is consumed by reads of n bytes at some places (R75). -/
def State.cleanAt (s : State) (n : Nat) (ps : List (Nat × W64 × Phys)) : Bool :=
  ps.all (fun a => !s.consumes a.2.2.loc n)

/-- Stores at the places of some elements find room (R276). -/
def State.roomAll (s : State) (ps : List (Nat × W64 × Phys)) : Bool := s.roomAt (ps.map (·.2.2))

/-- The thread may use a tile of its VC (R74): its context has a tag, and the tile is its own or unowned. -/
def State.owns (s : State) (t : BitVec 4) : Bool :=
  let o := tget 0 (s.vc s.curVc).aown t.toNat
  s.th.tr.ctag != 0 && (o == 0 || o == s.th.tr.ctag)

/-- The tile as the thread's own: an unowned one is claimed, zeroed (R74). -/
def State.claimed (s : State) (t : BitVec 4) : State :=
  if tget 0 (s.vc s.curVc).aown t.toNat = 0#16 then
    s.modVc s.curVc (fun v => v.setOwner t.toNat s.th.tr.ctag s.th.id.vf)
  else s

/-- Some of the words of a tile is poisoned (R75). -/
def State.tilePoison (s : State) (t : BitVec 4) (ws : List Nat) : Bool :=
  (s.vc s.curVc).accPoison.any (fun w =>
    decide (w / 512 = t.toNat) && ws.any (fun i => decide (i / 2 = w % 512)))

/-- The checks of R315 steps 1 and 2, R404 and R406 pass for a CSR number. -/
def State.csrOk (s : State) (n : Nat) : Bool :=
  (csrMap n).isSome && !(s.th.sc.mode == .U && csrHidden n) &&
    !(s.th.sc.mode == .S && csrVector n && n != 0x00C && n != 0x021) &&
    !(s.th.sc.mode == .U && s.th.tr.absent && csrVector n)

/-- A write of x to a CSR passes R315: some field is writable, no field changes that the level may not
change, the value is legal, and no other slot's matrix instruction holds the tile of an aown (R238). -/
def State.csrMay (s : State) (n x : Nat) : Bool :=
  s.csrOk n &&
    (match csrMap n with
    | none => false
    | some m =>
      m.writable != 0 &&
      !(s.th.sc.mode == .U && (s.csr n ^^^ x) &&& (m.rwl ||| m.rws) != 0) &&
      !(s.th.sc.mode == .L && (s.csr n ^^^ x) &&& m.rws != 0) &&
      s.csrValueOk n ((s.csr n &&& (2 ^ 64 - 1 - m.writable)) ||| (x &&& m.writable))) &&
    !(decide (0x100 ≤ n ∧ n ≤ 0x10F) && s.tileBusy s.cur (BitVec.ofNat 4 n))

/-- The value that a write of x leaves: read-only bits as before (R315). -/
def State.csrNew (s : State) (n x : Nat) : Nat :=
  let w := ((csrMap n).map CsrMap.writable).getD 0
  (s.csr n &&& (2 ^ 64 - 1 - w)) ||| (x &&& w)

/-! ### Outcomes -/

/-- The instruction waits: its convoy is performed again when the wait ends (R282). -/
def State.awaits (s : State) (w : Wait) : Host.Outcome State Fault Refusal :=
  .next ((s.modCv (fun c => { c with waits := true })).modHw (fun h => { h with wait := some w }))

/-- The instruction completes in a state: its convoy retires there. -/
def State.retires (s : State) : Host.Outcome State Fault Refusal := .next s.finish

/-- The instruction traps in a state. -/
def State.traps (s : State) (t : TrapInfo) : Host.Outcome State Fault Refusal := .next (s.takeTrap t)

/-- An element-wise instruction completes: element e of d receives f e, and under sq the destination
blocks take the scales of a; with no active element nothing is written (R127, R185). -/
def State.elemNext (s : State) (d a p : BitVec 5) (f : Nat → Out) : Host.Outcome State Fault Refusal :=
  ((if (s.actives p).isEmpty then s
    else (s.mapElems d p (fun e => s.vt.res (f e))).copyScales d a)).retires

/-- The n bytes that a read at a place gives the thread, as a number (R305). -/
def State.seen (s : State) (p : Phys) (n : Nat) : Nat :=
  leNat ((List.range n).map (fun k => s.readByte p.owner (p.loc + k)))

/-- The elements of a group take what the thread sees at their places (R168). -/
def State.fill (s : State) (d : BitVec 5) (n : Nat) (ps : List (Nat × W64 × Phys)) : State :=
  (ps.map (fun a => (a.1, s.seen a.2.2 n))).foldl (fun t x => t.putElem d x.1 x.2) s

/-- The entries of a store of elements of n bytes (R170, R171). -/
def State.elemWrites (s : State) (d : BitVec 5) (n : Nat) (ps : List (Nat × W64 × Phys)) : List Write :=
  ps.map (fun a => { beat := s.beatOf a.1, kid := a.2.2.kid,
                     bytes := writesOf a.2.2.loc (leBytes n (s.elem d a.1)) })

/-- The n bytes of a place at its home, as a number (R306). -/
def State.seenAtHome (s : State) (p : Phys) (n : Nat) : Nat :=
  leNat ((List.range n).map (fun k => s.homeByteFor p.owner (p.loc + k)))

/-- The target of a taken branch (R308). -/
def State.branchTo (s : State) (o : BitVec 12) : W64 := s.th.sc.pc + (o.signExtend 64 <<< 2)

end Sys2Proof.Machine
end

