-- ==== Sys2Proof/Certificates/Slice0/Obligations.lean ====
section
/-!
DEFINITION. The statements for the provers. An outcome "retires" when the convoy completes; a statement
without hypotheses holds in every state.
-/

open Sys2Proof Sys2Proof.Machine

/-- From every state ADD to MULH, CLZ, POPC and BREV complete: s[d] receives the 64-bit pattern of the
exact result of R300, and the convoy retires. (R299, spec/16_scalar_control_instructions.md) -/
def Obligations.RegisterArithmetic : Prop :=
  ∀ (s : State) (d a b : BitVec 5),
    (exec (.add d a b) s = (s.wr d (s.rd a + s.rd b)).retires) ∧
    (exec (.sub d a b) s = (s.wr d (s.rd a - s.rd b)).retires) ∧
    (exec (.and d a b) s = (s.wr d (s.rd a &&& s.rd b)).retires) ∧
    (exec (.or d a b) s = (s.wr d (s.rd a ||| s.rd b)).retires) ∧
    (exec (.xor d a b) s = (s.wr d (s.rd a ^^^ s.rd b)).retires) ∧
    (exec (.andn d a b) s = (s.wr d (s.rd a &&& ~~~ s.rd b)).retires) ∧
    (exec (.sll d a b) s = (s.wr d (s.rd a <<< ((s.rd b).toNat % 64))).retires) ∧
    (exec (.srl d a b) s = (s.wr d (s.rd a >>> ((s.rd b).toNat % 64))).retires) ∧
    (exec (.sra d a b) s = (s.wr d (BitVec.ofInt 64 ((s.rd a).toInt / 2 ^ ((s.rd b).toNat % 64)))).retires) ∧
    (exec (.slt d a b) s = (s.wr d (if (s.rd a).toInt < (s.rd b).toInt then 1 else 0)).retires) ∧
    (exec (.sltn d a b) s = (s.wr d (if (s.rd a).toNat < (s.rd b).toNat then 1 else 0)).retires) ∧
    (exec (.mul d a b) s = (s.wr d (BitVec.ofInt 64 ((s.rd a).toInt * (s.rd b).toInt))).retires) ∧
    (exec (.mulh d a b) s =
      (s.wr d (BitVec.ofInt 64 ((s.rd a).toInt * (s.rd b).toInt / 2 ^ 64))).retires) ∧
    (exec (.clz d a) s =
      (s.wr d (BitVec.ofNat 64 (if s.rd a = 0#64 then 64 else 63 - Nat.log2 (s.rd a).toNat))).retires) ∧
    (exec (.popc d a) s = (s.wr d (BitVec.ofNat 64
      ((List.range 64).filter (fun i => (s.rd a).getLsbD i)).length)).retires) ∧
    (∃ r : W64, exec (.brev d a) s = (s.wr d r).retires ∧ ∀ i < 64, r.getLsbD i = (s.rd a).getLsbD (63 - i))

/-- DIV, REM, DIVN and REMN never trap: from every state they complete with the quotient truncated
toward zero and its remainder, −1 (or 2^64 − 1) and x for a zero divisor, and −2^63 and 0 for
−2^63 by −1. (R301) -/
def Obligations.Division : Prop :=
  ∀ (s : State) (d a b : BitVec 5),
    (exec (.div d a b) s = (s.wr d
      (if s.rd b = 0#64 then BitVec.ofInt 64 (-1)
       else BitVec.ofInt 64 ((s.rd a).toInt.tdiv (s.rd b).toInt))).retires) ∧
    (exec (.rem d a b) s = (s.wr d
      (if s.rd b = 0#64 then s.rd a
       else BitVec.ofInt 64 ((s.rd a).toInt - (s.rd a).toInt.tdiv (s.rd b).toInt * (s.rd b).toInt))).retires) ∧
    (exec (.divn d a b) s = (s.wr d
      (if s.rd b = 0#64 then BitVec.ofNat 64 (2 ^ 64 - 1)
       else BitVec.ofNat 64 ((s.rd a).toNat / (s.rd b).toNat))).retires) ∧
    (exec (.remn d a b) s = (s.wr d
      (if s.rd b = 0#64 then s.rd a
       else BitVec.ofNat 64
         ((s.rd a).toNat - (s.rd a).toNat / (s.rd b).toNat * (s.rd b).toNat))).retires) ∧
    (s.rd a = BitVec.ofInt 64 (-(2 ^ 63)) → s.rd b = BitVec.ofInt 64 (-1) →
      exec (.div d a b) s = (s.wr d (s.rd a)).retires ∧ exec (.rem d a b) s = (s.wr d 0).retires)

/-- From every state the immediate instructions complete: s[d] receives the value of R302 or R303, and
the convoy retires. (R299, spec/16_scalar_control_instructions.md) -/
def Obligations.ImmediateArithmetic : Prop :=
  ∀ (s : State) (d a : BitVec 5) (i : BitVec 12) (n : BitVec 6) (u : BitVec 20),
    (exec (.addi d a i) s = (s.wr d (s.rd a + i.signExtend 64)).retires) ∧
    (exec (.andi d a i) s = (s.wr d (s.rd a &&& i.signExtend 64)).retires) ∧
    (exec (.ori d a i) s = (s.wr d (s.rd a ||| i.signExtend 64)).retires) ∧
    (exec (.xori d a i) s = (s.wr d (s.rd a ^^^ i.signExtend 64)).retires) ∧
    (exec (.slli d a n) s = (s.wr d (s.rd a <<< n.toNat)).retires) ∧
    (exec (.srli d a n) s = (s.wr d (s.rd a >>> n.toNat)).retires) ∧
    (exec (.srai d a n) s = (s.wr d (BitVec.ofInt 64 ((s.rd a).toInt / 2 ^ n.toNat))).retires) ∧
    (exec (.slti d a i) s = (s.wr d (if (s.rd a).toInt < i.toInt then 1 else 0)).retires) ∧
    (exec (.lui d u) s = (s.wr d (BitVec.ofInt 64 (u.toInt * 4096))).retires) ∧
    (exec (.addpc d u) s = (s.wr d (s.th.sc.pc + BitVec.ofInt 64 (u.toInt * 4096))).retires)

/-- A scalar load whose address s[a] + sext(off12, 12) is aligned, unlocked and translated to a clean
place completes: s[d] receives the bytes that the thread sees there, sign- or zero-extended,
newest buffered store first. A scalar store whose address is aligned, unlocked and translated
completes: its bytes enter the store buffer as one entry at its end, least significant byte at the
lowest location, and no byte at any home changes. SDR also needs every train acknowledged. (R305,
R299, spec/16_scalar_control_instructions.md, R266, R268) -/
def Obligations.ScalarLoadsAndStores : Prop :=
  (∀ (s u : State) (p : Phys) (d a : BitVec 5) (o : BitVec 12),
    (s.got .load (s.rd a + o.signExtend 64) 1 = some (p, u) → (u.scalarTouch p).consumes p.loc 1 = false →
      exec (.lb d a o) s = ((u.scalarTouch p).wr d (BitVec.ofInt 64 (sextN 8 ((u.scalarTouch p).seen p 1)))).retires) ∧
    (s.got .load (s.rd a + o.signExtend 64) 2 = some (p, u) → (u.scalarTouch p).consumes p.loc 2 = false →
      exec (.lh d a o) s = ((u.scalarTouch p).wr d (BitVec.ofInt 64 (sextN 16 ((u.scalarTouch p).seen p 2)))).retires) ∧
    (s.got .load (s.rd a + o.signExtend 64) 4 = some (p, u) → (u.scalarTouch p).consumes p.loc 4 = false →
      exec (.lw d a o) s = ((u.scalarTouch p).wr d (BitVec.ofInt 64 (sextN 32 ((u.scalarTouch p).seen p 4)))).retires) ∧
    (s.got .load (s.rd a + o.signExtend 64) 8 = some (p, u) → (u.scalarTouch p).consumes p.loc 8 = false →
      exec (.ld d a o) s = ((u.scalarTouch p).wr d (BitVec.ofInt 64 (sextN 64 ((u.scalarTouch p).seen p 8)))).retires) ∧
    (s.got .load (s.rd a + o.signExtend 64) 1 = some (p, u) → (u.scalarTouch p).consumes p.loc 1 = false →
      exec (.lbn d a o) s = ((u.scalarTouch p).wr d (BitVec.ofNat 64 ((u.scalarTouch p).seen p 1))).retires) ∧
    (s.got .load (s.rd a + o.signExtend 64) 2 = some (p, u) → (u.scalarTouch p).consumes p.loc 2 = false →
      exec (.lhn d a o) s = ((u.scalarTouch p).wr d (BitVec.ofNat 64 ((u.scalarTouch p).seen p 2))).retires) ∧
    (s.got .load (s.rd a + o.signExtend 64) 4 = some (p, u) → (u.scalarTouch p).consumes p.loc 4 = false →
      exec (.lwn d a o) s = ((u.scalarTouch p).wr d (BitVec.ofNat 64 ((u.scalarTouch p).seen p 4))).retires) ∧
    (s.got .load (s.rd a + o.signExtend 64) 8 = some (p, u) → (u.scalarTouch p).consumes p.loc 8 = false →
      exec (.lda d a o) s = ((u.scalarTouch p).wr d (BitVec.ofInt 64 (sextN 64 ((u.scalarTouch p).seen p 8)))).retires)) ∧
  (∀ (s u : State) (p : Phys) (d a : BitVec 5) (o : BitVec 12),
    (s.got .store (s.rd a + o.signExtend 64) 1 = some (p, u) → u.roomAt [p] = true →
      exec (.sb d a o) s =
        (u.pushScalar (writesOf p.loc (leBytes 1 (s.rd d).toNat)) p.kid false).retires) ∧
    (s.got .store (s.rd a + o.signExtend 64) 2 = some (p, u) → u.roomAt [p] = true →
      exec (.sh d a o) s =
        (u.pushScalar (writesOf p.loc (leBytes 2 (s.rd d).toNat)) p.kid false).retires) ∧
    (s.got .store (s.rd a + o.signExtend 64) 4 = some (p, u) → u.roomAt [p] = true →
      exec (.sw d a o) s =
        (u.pushScalar (writesOf p.loc (leBytes 4 (s.rd d).toNat)) p.kid false).retires) ∧
    (s.got .store (s.rd a + o.signExtend 64) 8 = some (p, u) → u.roomAt [p] = true →
      exec (.sd d a o) s =
        (u.pushScalar (writesOf p.loc (leBytes 8 (s.rd d).toNat)) p.kid false).retires) ∧
    (s.got .store (s.rd a + o.signExtend 64) 8 = some (p, u) → u.roomAt [p] = true → u.th.hw.trains = [] →
      exec (.sdr d a o) s =
        (u.pushScalar (writesOf p.loc (leBytes 8 (s.rd d).toNat)) p.kid true).retires) ∧
    (∀ (ws : List (Nat × Byte)) (kid l : Nat) (rel : Bool), ws ≠ [] →
      (s.pushScalar ws kid rel).homeByte l = s.homeByte l ∧
      (s.pushScalar ws kid rel).th.hw.buf = s.th.hw.buf ++
        [{ BufEntry.plain ws kid with keep := some s.curVc, rel := rel, num := s.th.hw.storeNum }]))

/-- AMO drains the store buffer, then replaces the word at its home by the operation of its old value
with s[b] (and, for CAS, the old s[d]) in one step, and s[d] receives the old value sign-extended.
(R306, R307, R271) -/
def Obligations.FarAtomics : Prop :=
  ∀ (s u r v : State) (p : Phys) (d a b : BitVec 5) (ord : BitVec 2) (w : BitVec 1) (op : BitVec 4),
    (let n := if w = 0#1 then 4 else 8
     let src := (s.rd b).toNat % 2 ^ (8 * n)
     let cmp := (s.rd d).toNat % 2 ^ (8 * n)
     let x := v.claim p.loc p.kid
     let old := x.seenAtHome p n
     let new := amoNew op.toNat (8 * n) old src cmp
     s.got .store (s.rd a) n = some (p, u) → s.walk s.ctx .load (s.rd a) ≠ .error .perm →
     (isTwin p.loc = false ∧ r = u ∨ isTwin p.loc = true ∧ u.twinFails = false ∧ r = u.bump) →
     r.bufHeld r.cur r.th.hw.buf = false → (ord.toNat < 2 ∨ r.drainAll.th.hw.trains = []) →
     v = r.drainAll.claim p.loc p.kid → v.poisoned p.loc n = false →
     v.writeHeld (some v.cur) p.loc n = false → v.roomNow [p] = true →
     exec (.amo d a b ord w op) s =
       ((x.storeHome p.kid none (fun _ => .age 0) (writesOf p.loc (leBytes n new))).wr d
         (BitVec.ofInt 64 (sextN (8 * n) old))).retires)

/-- From every state a branch completes: taken under its condition it continues at A + sext(off12, 12)
× 4, otherwise at the next convoy. JAL and an aligned JALR complete with the link in s[d] and the
target as the next convoy; a JALR to an unaligned target traps ALIGN and writes nothing. LNEST
defines the next level, LBODY arms the nest and forms its body, LEXIT closes the nest and leaves
it when its operands are equal and otherwise does nothing.
(spec/16_scalar_control_instructions.md, R309, R311, R312, R295) -/
def Obligations.ControlTransfers : Prop :=
  (∀ (s : State) (a b : BitVec 5) (o : BitVec 12),
    (exec (.beq a b o) s = .next (s.retire (if s.rd a = s.rd b then some (s.branchTo o) else none))) ∧
    (exec (.bne a b o) s = .next (s.retire (if s.rd a ≠ s.rd b then some (s.branchTo o) else none))) ∧
    (exec (.blt a b o) s = .next (s.retire
      (if (s.rd a).toInt < (s.rd b).toInt then some (s.branchTo o) else none))) ∧
    (exec (.bge a b o) s = .next (s.retire
      (if (s.rd b).toInt ≤ (s.rd a).toInt then some (s.branchTo o) else none))) ∧
    (exec (.bltn a b o) s = .next (s.retire
      (if (s.rd a).toNat < (s.rd b).toNat then some (s.branchTo o) else none))) ∧
    (exec (.bgen a b o) s = .next (s.retire
      (if (s.rd b).toNat ≤ (s.rd a).toNat then some (s.branchTo o) else none))) ∧
    (s.branchTo o = s.th.sc.pc + BitVec.ofInt 64 (o.toInt * 4))) ∧
  ((∀ (s : State) (d : BitVec 5) (o : BitVec 20),
    exec (.jal d o) s = .next ((s.wr d (s.th.sc.pc + 4)).retire
      (some (s.th.sc.pc + BitVec.ofInt 64 (o.toInt * 4))))) ∧
  (∀ (s : State) (d a : BitVec 5) (i : BitVec 12),
    ((s.rd a + i.signExtend 64).toNat % 4 = 0 →
      exec (.jalr d a i) s = .next ((s.wr d (s.th.sc.pc + 4)).retire (some (s.rd a + i.signExtend 64)))) ∧
    (s.cv.many = false → (s.rd a + i.signExtend 64).toNat % 4 ≠ 0 →
      exec (.jalr d a i) s = s.traps (plainTrap Cause.align (s.rd a + i.signExtend 64)))) ∧
  (∀ (s : State) (d a b : BitVec 5),
    d ≠ 0#5 → (s.rd b).toNat < 2 ^ 49 →
    (s.th.nest.open_ = false ∨ (s.th.nest.armed = false ∧ s.th.nest.nlev.toNat < 6)) →
      exec (.lnest d a b) s = (s.modNest (fun n => n.define
        { creg := d, areg := a, drain := (s.rd b).getLsbD 48, inc := (s.rd b).setWidth 48 }
        (s.rd d))).retires) ∧
  (∀ (s : State) (n : BitVec 5),
    n.toNat < 16 → s.th.nest.open_ = true → s.th.nest.armed = false →
      exec (.lbody n) s = .next (((s.retire none).modNest (fun x =>
        { x with armed := true, blen := n.setWidth 4, pos := 0,
                 body := ((s.th.sc.pc + 4) >>> 2).setWidth 62, buf := [] })).fillBody.2)) ∧
  (∀ (s u : State) (a b : BitVec 5) (e : W64),
    s.th.nest.open_ = true → s.th.nest.armed = true →
      (s.rd a ≠ s.rd b → exec (.lexit a b) s = .next (s.retire none)) ∧
      (s.rd a = s.rd b → s.bodyEnd = (.ok e, u) →
        exec (.lexit a b) s = .next ((u.modNest Nest.close).retire (some e)))))

/-- CSRR, CSRW, CSRS and CSRC complete when the checks of R315 pass: s[d] receives the old value; a
write leaves read-only fields as they were; CSRS and CSRC with a = 0 only read. Every CSR
instruction naming a number that no chapter defines traps ILLOP; from U mode one naming 0x110 to
0x11C or 0x200 upward traps PRIV, for a read as well. Nothing is written. (R314, R315, R110, R109,
spec/16_scalar_control_instructions.md) -/
def Obligations.Csrs : Prop :=
  (∀ (s : State) (d a : BitVec 5) (c : BitVec 12),
    (s.csrOk c.toNat = true →
      exec (.csrr d c) s = (s.wr d (BitVec.ofNat 64 (s.csr c.toNat))).retires ∧
      exec (.csrs d 0 c) s = (s.wr d (BitVec.ofNat 64 (s.csr c.toNat))).retires ∧
      exec (.csrc d 0 c) s = (s.wr d (BitVec.ofNat 64 (s.csr c.toNat))).retires) ∧
    (s.csrMay c.toNat (s.rd a).toNat = true →
      exec (.csrw d a c) s = ((s.csrSet c.toNat (s.csrNew c.toNat (s.rd a).toNat)).wr d
        (BitVec.ofNat 64 (s.csr c.toNat))).retires) ∧
    (a ≠ 0#5 → s.csrMay c.toNat (s.csr c.toNat ||| (s.rd a).toNat) = true →
      exec (.csrs d a c) s = ((s.csrSet c.toNat (s.csrNew c.toNat (s.csr c.toNat ||| (s.rd a).toNat))).wr d
        (BitVec.ofNat 64 (s.csr c.toNat))).retires) ∧
    (a ≠ 0#5 →
      s.csrMay c.toNat (s.csr c.toNat - (s.csr c.toNat &&& (s.rd a).toNat)) = true →
      exec (.csrc d a c) s = ((s.csrSet c.toNat
        (s.csrNew c.toNat (s.csr c.toNat - (s.csr c.toNat &&& (s.rd a).toNat)))).wr d
        (BitVec.ofNat 64 (s.csr c.toNat))).retires)) ∧
  (∀ (s : State) (d a : BitVec 5) (c : BitVec 12), s.cv.many = false →
    (csrMap c.toNat = none →
      exec (.csrr d c) s = s.traps (plainTrap Cause.illop s.evalWord) ∧
      exec (.csrw d a c) s = s.traps (plainTrap Cause.illop s.evalWord) ∧
      exec (.csrs d a c) s = s.traps (plainTrap Cause.illop s.evalWord) ∧
      exec (.csrc d a c) s = s.traps (plainTrap Cause.illop s.evalWord)) ∧
    ((csrMap c.toNat).isSome = true → s.th.sc.mode = .U →
      (0x110 ≤ c.toNat ∧ c.toNat ≤ 0x11C ∨ 0x200 ≤ c.toNat) →
      exec (.csrr d c) s = s.traps (plainTrap Cause.priv s.evalWord) ∧
      exec (.csrw d a c) s = s.traps (plainTrap Cause.priv s.evalWord) ∧
      exec (.csrs d a c) s = s.traps (plainTrap Cause.priv s.evalWord) ∧
      exec (.csrc d a c) s = s.traps (plainTrap Cause.priv s.evalWord)))

/-- SVC traps after it completes and BKPT at its own address; ERET continues at epc at the privilege
in ecause.LVL, where a single step traps, but not on the return to what a debug halt stopped (both
the model’s reading, log entry 14), or traps ILLOP for LVL 3 and PRIV for LVL 2 from L mode; RAISE
enters the S handler of the cause in s[a], or traps ILLOP for what is no cause; ERET, HALT and
RAISE trap PRIV in U mode. (R316, R317, R318, R323) -/
def Obligations.SystemCalls : Prop :=
  ∀ (s : State) (n : BitVec 15) (a b : BitVec 5),
    (s.cv.many = false →
      exec (.svc n) s = s.traps { plainTrap Cause.svc (n.setWidth 64) with next := true }) ∧
    (s.cv.many = false →
      exec (.bkpt n) s = (s.fireWhere (·.onbk)).traps (plainTrap Cause.bkpt (n.setWidth 64))) ∧
    (s.th.sc.mode = .S → s.th.tr.lvl = 2#2 → exec .eret s = .next ((s.returnFrom .S).stepTrap.endHold .S)) ∧
    (s.th.sc.mode ≠ .U → s.th.tr.lvl = 0#2 → exec .eret s = .next ((s.returnFrom .U).stepTrap.endHold .U)) ∧
    (s.th.sc.mode ≠ .U → s.th.tr.lvl = 1#2 → exec .eret s = .next ((s.returnFrom .L).stepTrap.endHold .L)) ∧
    (s.cv.many = false → s.th.sc.mode ≠ .U → s.th.tr.lvl = 3#2 →
      exec .eret s = s.traps (plainTrap Cause.illop s.evalWord)) ∧
    (s.cv.many = false → s.th.sc.mode = .L → s.th.tr.lvl = 2#2 →
      exec .eret s = s.traps (plainTrap Cause.priv s.evalWord)) ∧
    (s.cv.many = false → s.th.sc.mode = .U →
      exec .eret s = s.traps (plainTrap Cause.priv s.evalWord) ∧
      exec .halt s = s.traps (plainTrap Cause.priv s.evalWord) ∧
      exec (.raise a b) s = s.traps (plainTrap Cause.priv s.evalWord)) ∧
    (s.th.sc.mode ≠ .U → 1 ≤ (s.rd a).toNat → (s.rd a).toNat ≤ 0x14 → (s.rd a).toNat ≠ 0x12 →
      exec (.raise a b) s = .next (((s.modTr (fun r =>
        { r with cause := BitVec.ofNat 8 (s.rd a).toNat, val := s.rd b })).modHw
          (fun h => { h with wait := none })).enterHandler .S (s.rd a).toNat)) ∧
    (s.cv.many = false → s.th.sc.mode ≠ .U →
      ((s.rd a).toNat = 0 ∨ 0x14 < (s.rd a).toNat ∨ (s.rd a).toNat = 0x12) →
      exec (.raise a b) s = s.traps (plainTrap Cause.illop s.evalWord))

/-- In U mode with YREQ set YIELD clears YREQ and traps YIELDREQ with epc the next convoy; with YREQ
clear, and always in L and S mode, it only completes. (R320) -/
def Obligations.Yield : Prop :=
  ∀ (s : State),
    (s.cv.many = false → s.th.sc.mode = .U → s.th.held.yreq = true →
      exec .yield s = (s.modHeld (fun h => { h with yreq := false })).traps
        { plainTrap Cause.yieldreq 0 with next := true }) ∧
    (s.th.held.yreq = false → exec .yield s = s.retires) ∧
    (s.th.sc.mode ≠ .U → exec .yield s = s.retires)

/-- NAP with a wake count gives it to s[d] and zeroes it; without one it waits, or with YREQ set
completes with 0. WAKE releases, adds a wake to each named slot and writes 0; a slot outside the
partition is refused with 1. HALT in L mode drains, leaves the job parked with the RESUME flag
that its save area holds (read in one walk; a poisoned word fails the function, an unreadable one
counts as 0 and a walk that has to wait makes the thread wait) and gives up the slot, and in S
mode parks the context; IFENCE drains and discards the fetched words; FENCE drains and completes
once the covered trains are acknowledged; FENCEE drains and completes when no engine lock is held;
QDRAIN completes (the decoupling queues are empty between convoys in this model, log entry 9). On
the owner's device memory WINPUB drains the thread and, once no store on the window is on its way
in another thread of the function (which stores are waited for is the model’s reading, log entry
44) and the host holds none of its pending lines, makes every pending byte of the sharing window
the published one. (R319, R321, R322, R346, R347, R348, R349, R276) -/
def Obligations.SleepAndFences : Prop :=
  (∀ (s : State) (d a : BitVec 5),
    (s.th.hw.wake ≠ 0#8 → exec (.nap d) s =
      ((s.wr d (s.th.hw.wake.setWidth 64)).modHw (fun h => { h with wake := 0 })).retires) ∧
    (s.th.hw.wake = 0#8 → s.th.held.yreq = true → exec (.nap d) s = (s.wr d 0).retires) ∧
    (s.th.hw.wake = 0#8 → s.th.held.yreq = false → exec (.nap d) s = s.awaits .nap) ∧
    (let x := (s.rd a).toNat
     x - bitsAt 1 16 x * 2 ^ 16 < 2048 →
      ((s.wakeTargets x).any (fun n => !(s.part s.curPart).table.tiles.contains (tileOf n)) = true →
        exec (.wake d a) s = (s.wr d 1).retires) ∧
      ((s.wakeTargets x).any (fun n => !(s.part s.curPart).table.tiles.contains (tileOf n)) = false →
        s.clear = true →
        exec (.wake d a) s = (((s.wakeTargets x).foldl State.wakeSlot s.drainAll).wr d 0).retires))) ∧
  ((∀ (s : State) (a b : BitVec 5) (sc : BitVec 5) (m : BitVec 4),
    (s.th.sc.mode = .L → s.clear = true →
      (let t := s.drainAll
       let r := t.readResume t.cur
       (∀ p : Phys, r.1 = .found p → exec .halt s =
         .next ((r.2.parkJob t.cur ((r.2.wordAt p 0 8).testBit 0)).emptySlot t.cur false)) ∧
       (r.1 = .missing → exec .halt s = .next ((r.2.parkJob t.cur false).emptySlot t.cur false)) ∧
       (r.1 = .mac → exec .halt s = .next
         (((r.2.macFailure [t.th.id.vf.toNat]).parkJob t.cur false).emptySlot t.cur false)) ∧
       (r.1 = .held → exec .halt s = .next (r.2.modHw (fun h => { h with wait := some .line }))))) ∧
    (s.th.sc.mode = .S → exec .halt s =
      .next ((s.modHw (fun h => { h with parked := true, wait := none })).modTile s.curTile
        (fun t => { t with scQueue := t.scQueue.filter (fun n => decide (n ≠ s.cur)) }))) ∧
    (s.bufHeld s.cur s.th.hw.buf = false → exec .ifence s =
      (let t := ((s.drainAll.modVc s.drainAll.curVc (fun v => { v with icache := [] })).modHw
         (fun h => { h with fetched := [] })).finish
       .next (if t.th.hw.wait.isSome then t else t.modNest (fun n => { n with buf := [] })))) ∧
    (s.bufHeld s.cur s.th.hw.buf = false → s.drainAll.th.hw.trains.any (fun x => s.drainAll.covers sc.toNat x.dest) = false →
      s.drainAll.th.hw.trainErr.any (fun l => s.drainAll.covers sc.toNat (s.drainAll.destOf l)) = false →
      exec (.fence sc) s = s.drainAll.retires) ∧
    (s.bufHeld s.cur s.th.hw.buf = false → bitsAt 15 48 (s.rd b).toNat = 0 → (s.rd b).toNat % 2 ^ 48 = 0 →
      exec (.fencee a b) s = s.drainAll.retires) ∧
    (s.bufHeld s.cur s.th.hw.buf = false → bitsAt 15 48 (s.rd b).toNat = 0 →
      (s.drainAll.tile s.curTile).locks = [] → exec (.fencee a b) s = s.drainAll.retires) ∧
    exec (.qdrain m) s = s.retires) ∧
  (∀ (s u v : State) (p : Phys) (a : BitVec 5),
    s.placed .store (s.rd a) = some (p, u) → p.owner = true → isDevice p.loc = true →
    u.clear = true → u.drainAll = v → v.storesLeft p.kid = false →
    (v.pendingOf p.kid).all (fun c => (v.heldRange c.1 1).isEmpty) = true →
    exec (.winpub a) s = (v.publish p.kid).retires))

/-- GJOIN of a live group adds the thread with no arrival and writes 0, of an unused number creates
the group at phase 0 and writes 1, writes 2 for a member and 3 for a thread in eight groups;
GLEAVE leaves with 0, or writes 1 for no member. BARRLX arrives in the open phase and writes its
number; BARARV first releases; PHEND first drains and has its trains acknowledged; BARW releases
and arrives, which may itself pass the phase, and then, as once arrived, completes with the phase
it waits on when that phase has passed and waits until then. BARWAIT whose wait has ended
completes with 1 when the group became free and otherwise 0; without such an end it completes with
1 for a group that does not exist and with 0 once the phase has passed the one it names, and waits
otherwise; GSIZE writes the members, the arrivals and the phase, or 0; TID writes slot, function
and partition. (R330, R332, R333, R334, R274, R335, R108) -/
def Obligations.Groups : Prop :=
  (∀ (s : State) (d a : BitVec 5), let n := (s.rd a).toNat
    n < 4096 →
    (((s.group n).member s.cur).isSome = true → exec (.gjoin d a) s = (s.wr d 2).retires) ∧
    ((s.group n).member s.cur = none → 8 ≤ s.memberships →
      exec (.gjoin d a) s = (s.wr d 3).retires) ∧
    ((s.group n).member s.cur = none → s.memberships < 8 → (s.group n).live = true →
      exec (.gjoin d a) s = ((s.modGroup n (fun g => { g with members := g.members ++
        [{ slot := s.cur, arr := false, la := 0, bw := false }] })).wr d 0).retires) ∧
    ((s.group n).member s.cur = none → s.memberships < 8 → (s.group n).live = false →
      exec (.gjoin d a) s = ((s.modGroup n (fun _ => { members :=
        [{ slot := s.cur, arr := false, la := 0, bw := false }], phase := 0 })).wr d 1).retires) ∧
    (((s.group n).member s.cur).isSome = true →
      exec (.gleave d a) s = ((s.changeGroup n (fun g => g.leave s.cur)).wr d 0).retires) ∧
    ((s.group n).member s.cur = none → exec (.gleave d a) s = (s.wr d 1).retires)) ∧
  (∀ (s : State) (d a : BitVec 5) (m : Member), let n := (s.rd a).toNat
    n < 4096 → (s.group n).member s.cur = some m →
    (exec (.barrlx d a) s = ((s.changeGroup n (fun g => g.arrive s.cur)).wr d
      ((s.group n).phase.setWidth 64)).retires) ∧
    (∀ u : State, s.clear = true → s.drainAll = u →
      exec (.bararv d a) s = ((u.changeGroup n (fun g => g.arrive u.cur)).wr d
        ((u.group n).phase.setWidth 64)).retires) ∧
    (∀ u : State, s.bufHeld s.cur s.th.hw.buf = false → s.drainAll = u → u.th.hw.trains = [] → u.th.hw.trainErr = [] →
      exec (.phend d a) s = ((u.changeGroup n (fun g => g.arrive u.cur)).wr d
        ((u.group n).phase.setWidth 64)).retires) ∧
    (∀ f : Group → Group, s.changeGroup n f = (s.modGroup n f).endBarriers s.curPart) ∧
    (∀ (u : State) (k : Member), m.bw = false → s.clear = true → s.drainAll = u →
      (let v := u.changeGroup n (fun g =>
         (g.modMember u.cur (fun m => { m with la := g.phase, bw := true })).arrive u.cur)
       (v.group n).member v.cur = some k → v.th.hw.barDone = none →
       ((v.group n).passed k.la = true → exec (.barw d a) s = ((v.modGroup n (fun g =>
         g.modMember v.cur (fun m => { m with bw := false }))).wr d (k.la.setWidth 64)).retires) ∧
       ((v.group n).passed k.la = false →
         exec (.barw d a) s = v.awaits (.barrier (BitVec.ofNat 12 n) k.la)))) ∧
    (m.bw = true → s.th.hw.barDone = none → (s.group n).passed m.la = true →
      exec (.barw d a) s = ((s.modGroup n (fun g => g.modMember s.cur
        (fun m => { m with bw := false }))).wr d (m.la.setWidth 64)).retires) ∧
    (m.bw = true → s.th.hw.barDone = none → (s.group n).passed m.la = false →
      exec (.barw d a) s = s.awaits (.barrier (BitVec.ofNat 12 n) m.la))) ∧
  (∀ (s : State) (d a b : BitVec 5), let n := (s.rd a).toNat
    n < 4096 →
    (∀ freed : Bool, (s.rd b).toNat < 2 ^ 32 →
      s.th.hw.barDone = some (BitVec.ofNat 12 n, (s.rd b).setWidth 32, freed) →
      exec (.barwait d a b) s =
        ((s.modHw (fun h => { h with barDone := none })).wr d (if freed then 1 else 0)).retires) ∧
    ((s.rd b).toNat < 2 ^ 32 → s.th.hw.barDone = none → (s.group n).live = false →
      exec (.barwait d a b) s = (s.wr d 1).retires) ∧
    ((s.rd b).toNat < 2 ^ 32 → s.th.hw.barDone = none → (s.group n).live = true →
      0 ≤ ((s.group n).phase - (s.rd b).setWidth 32 - 1).toInt →
      exec (.barwait d a b) s = (s.wr d 0).retires) ∧
    ((s.rd b).toNat < 2 ^ 32 → s.th.hw.barDone = none → (s.group n).live = true →
      ((s.group n).phase - (s.rd b).setWidth 32 - 1).toInt < 0 →
      exec (.barwait d a b) s = s.awaits (.barrier (BitVec.ofNat 12 n) ((s.rd b).setWidth 32))) ∧
    ((s.group n).live = true →
      exec (.gsize d a) s = (s.wr d (BitVec.ofNat 64 ((s.group n).members.length +
        ((s.group n).members.filter (·.arr)).length * 2 ^ 16 +
        (s.group n).phase.toNat * 2 ^ 32))).retires) ∧
    ((s.group n).live = false → exec (.gsize d a) s = (s.wr d 0).retires) ∧
    (exec (.tid d) s = (s.wr d (BitVec.ofNat 64
      (s.cur % 2048 + s.th.id.vf.toNat * 2 ^ 16 + s.th.id.part.toNat * 2 ^ 32))).retires))

/-- With a readable descriptor SPAWN writes refusal 2 for a node outside the partition, traps ENGERR
for a node in use, writes the refusal code that the job table gives, or releases, accepts the
child and writes its identifier. JDONE drains and, once nothing holds the line of its completion
word, settles the job as done with its result and frees the slot; JSTAT writes the job word;
JDEADL with 0 in s[b] only reads the deadline, writes 0 for a job it may not name, and else writes
the new deadline to the job and its thread, and abandons the job when the time has reached it;
PTPNOW writes PTP time, never less than the latest result of any thread (log entry 128). (R338,
R273, R339, R340, R341, R342) -/
def Obligations.Jobs : Prop :=
  (∀ (s t : State) (d a b : BitVec 5) (desc : List Byte), let node := BitVec.ofNat 16 (s.rd b).toNat
    (s.rd b).toNat < 2 ^ 16 → loadWide (s.rd a) 128 128 s = (.ok desc, t) →
    (node ≠ 0xFFFF#16 → t.nodeIn t.curPart node = false →
      exec (.spawn d a b) s = (t.wr d (refusal 2)).retires) ∧
    (node ≠ 0xFFFF#16 → t.nodeIn t.curPart node = true → (t.node node).holds = true → t.cv.many = false →
      exec (.spawn d a b) s = t.traps (plainTrap Cause.engerr (node.setWidth 64))) ∧
    (∀ c : Nat, (node = 0xFFFF#16 ∨ t.nodeIn t.curPart node = true ∧ (t.node node).holds = false) →
      t.jobRefusal t.curPart t.th.id.vf.toNat desc = some c →
      exec (.spawn d a b) s = (t.wr d (refusal c)).retires) ∧
    ((node = 0xFFFF#16 ∨ t.nodeIn t.curPart node = true ∧ (t.node node).holds = false) →
      t.jobRefusal t.curPart t.th.id.vf.toNat desc = none → t.clear = true →
      exec (.spawn d a b) s =
        (let u := t.drainAll
         let r := u.acceptJob u.curPart u.th.id.vf.toNat desc u.th.id.job node none
         (r.2.wr d (r.1.setWidth 64)).retires))) ∧
  (∀ (s : State) (d a b : BitVec 5),
    (s.th.sc.mode ≠ .S → s.th.hw.window = none → s.clear = true →
      (∀ j : Job, (s.drainAll.part s.drainAll.curPart).job? s.drainAll.th.id.job = some j →
        j.finished = false →
        s.drainAll.rangesHeld (some s.drainAll.cur) (s.drainAll.completionRanges j) = false) →
      exec (.jdone a) s =
        (let t := s.drainAll
         let u := t.settleDone t.curPart t.th.id.job ((s.rd a).setWidth 32)
         .next ((u.modJob t.curPart t.th.id.job (fun j => { j with slot := none })).emptySlot t.cur true))) ∧
    ((s.rd a).toNat < 2 ^ 32 →
      exec (.jstat d a) s =
        (let id : BitVec 32 := (s.rd a).setWidth 32
         ((s.wr d (BitVec.ofNat 64 (s.jobWord id))).modHw (fun h => { h with
           settles := if s.jobWord id % 8 = 4 then id :: h.settles else h.settles })).retires)) ∧
    (s.deadlineJob ((s.rd a).setWidth 32) = none → exec (.jdeadl d a b) s = (s.wr d 0).retires) ∧
    (∀ (id : BitVec 32) (j : Job), s.deadlineJob ((s.rd a).setWidth 32) = some (id, j) → s.rd b = 0#64 →
      exec (.jdeadl d a b) s = (s.wr d j.deadline).retires) ∧
    (∀ (id : BitVec 32) (j : Job), s.deadlineJob ((s.rd a).setWidth 32) = some (id, j) → s.rd b ≠ 0#64 →
      (let t := s.tick
       let dl := newDeadline (decide (s.th.sc.mode = .U)) j (s.rd b)
       let t1 := t.modJob t.curPart id (fun j => { j with deadline := dl })
       let t2 := match j.slot with
         | some n => t1.modThread n (fun h => { h with id := { h.id with deadline := dl } })
         | none => t1
       let t3 := if id = t.th.id.job then
           { t2 with th := { t2.th with id := { t2.th.id with deadline := dl } } } else t2
       (s.th.sc.mode ≠ .U → dl = s.rd b) ∧
       (s.th.sc.mode = .U → j.deadline ≠ 0#64 → dl.toNat = min (s.rd b).toNat j.deadline.toNat) ∧
       (t.now.toNat < dl.toNat → exec (.jdeadl d a b) s = (t3.wr d dl).retires) ∧
       (dl.toNat ≤ t.now.toNat →
         exec (.jdeadl d a b) s = ((t3.wr d dl).abandon t.curPart id 1).retires))) ∧
    (∃ x : W64, (if s.tick.now.toNat < s.tick.hub.ptpLast.toNat then x = s.tick.hub.ptpLast
        else x = s.tick.now) ∧
      exec (.ptpnow d) s = ((s.tick.modHub (fun h => { h with ptpLast := x })).wr d x).retires))

/-- CHBIND binds the slot with vcur from s[b] and vl 0 and writes the mark, or unbinds and writes vcur
+ vl; CHPUB releases and then raises (or with RESET sets) the mark and writes it; CHREAD writes
the mark, or the final flag. (R343, R344) -/
def Obligations.ChainSlots : Prop :=
  ∀ (s : State) (d a b : BitVec 5), let x := (s.rd a).toNat
    (s.th.sc.mode ≠ .S → s.th.tr.absent = false → x < 1024 →
      exec (.chbind d a b) s = (((s.modVec (fun v =>
        { v with chSlot := BitVec.ofNat 10 x, chBound := true, chFinal := false, vcur := s.rd b,
                 vl := 0 })).dirtyCfg).wr d (s.chain x).mark).retires) ∧
    (s.th.sc.mode ≠ .S → s.th.tr.absent = false → 2 ^ 16 ≤ x → x < 2 ^ 16 + 1024 →
      exec (.chbind d a 0) s = (((s.modVec (fun v =>
        { v with chSlot := 0, chBound := false, chFinal := false })).dirtyCfg).wr d
          (s.th.vec.vcur + s.th.vec.vl.setWidth 64)).retires) ∧
    (∀ u : State, x - bitsAt 2 16 x * 2 ^ 16 < 1024 → s.clear = true → s.drainAll = u →
      exec (.chpub d a b) s =
        (let c := (u.chain (x % 1024)).publish (x.testBit 17) (x.testBit 16) (s.rd b)
         ((u.modPart u.curPart (fun p =>
           { p with chains := tset Chain.reset p.chains (x % 1024) c })).wr d c.mark).retires)) ∧
    (x < 1024 → exec (.chread d a) s = (s.wr d (s.chain x).mark).retires) ∧
    (2 ^ 16 ≤ x → x < 2 ^ 16 + 1024 →
      exec (.chread d a) s = (s.wr d (if (s.chain (x % 1024)).fin then 1 else 0)).retires)

/-- VCFG installs a legal vtype and writes the old one, dropping a parked frame when NREG changes, and
traps ILLOP for another; VKEEP adds registers to vkeep, VDEAD removes them and stops promising
their contents; VLMAXR writes VLMAX of a type at a number of lane groups, or 0. VINDEX writes
start + e × step to each active element, as an integer of the element width or rounded to the
float type. With no chain bound SETVL takes its held set, moves the registers, and writes vl and
s[d] with the least of the request and VLMAX; with a yield request and no window it traps
YIELDREQ; on a bound chain it also keeps to the elements published beyond vcur + vl and moves vcur
there, and with none published it waits. (R351, R353, R354, R355, R287, R352) -/
def Obligations.VectorConfiguration : Prop :=
  ((∀ (s : State) (d a b : BitVec 5), s.th.sc.mode ≠ .S → s.th.tr.absent = false →
    (s.vtypeOk (s.rd a).toNat = true → (vtOf (s.rd a).toNat).nregE = s.vt.nregE →
      exec (.vcfg d a) s = ((s.setVtype (s.rd a).toNat).wr d (s.th.vec.vtype.setWidth 64)).retires) ∧
    (s.vtypeOk (s.rd a).toNat = true → s.th.tr.vsave = 0#52 →
      exec (.vcfg d a) s = ((s.setVtype (s.rd a).toNat).wr d (s.th.vec.vtype.setWidth 64)).retires) ∧
    (∀ (ps : List (List (W64 × Phys × Nat))) (u : State), s.vtypeOk (s.rd a).toNat = true →
      (vtOf (s.rd a).toNat).nregE ≠ s.vt.nregE → s.th.tr.vsave ≠ 0#52 →
      translateAll .store [(s.parkHeader, 8)] s = (.ok ps, u) →
      exec (.vcfg d a) s = (((u.storeAt (ps.headD []) (leBytes 8 0)).setVtype (s.rd a).toNat).wr d
        (s.th.vec.vtype.setWidth 64)).retires) ∧
    (s.vtypeOk (s.rd a).toNat = false → s.cv.many = false →
      exec (.vcfg d a) s = s.traps (plainTrap Cause.illop s.evalWord)) ∧
    ((s.rd a).toNat < 2 ^ 32 →
      exec (.vkeep d a) s =
        (let k := BitVec.ofNat 32 ((s.th.vec.vkeep.toNat ||| (s.rd a).toNat) % 2 ^ s.vt.nreg)
         (((s.modVec (fun v => { v with vkeep := k })).dirtyCfg).wr d (k.setWidth 64)).retires)) ∧
    ((s.rd a).toNat < 2 ^ 32 →
      exec (.vdead d a) s =
        (let m := BitVec.ofNat 32 ((s.rd a).toNat % 2 ^ s.vt.nreg)
         let k := s.th.vec.vkeep &&& ~~~ m
         ((((s.modVec (fun v => { v with vkeep := k })).dirtyCfg).modTr
           (fun r => { r with dReg := r.dReg &&& ~~~ m })).forget (regsOf m 32)).wr d
             (k.setWidth 64)).retires) ∧
    (exec (.vlmaxr d a b) s =
      (let n := if s.rd b = 0#64 then s.lg else (s.rd b).toNat
       (s.wr d (if legalVtype (s.rd a).toNat && decide (n ≤ 8) then
         BitVec.ofNat 64 (vlmaxOf (vtOf (s.rd a).toNat) n) else 0)).retires))) ∧
  (∀ (s : State) (c : Bool) (d p : BitVec 5) (i : BitVec 8) (k : BitVec 7),
    s.vecOk [d] (Vt.isIn [0, 1, 2, 3, 6]) = true →
    exec (.vindex c d p i k) s = (s.mapElems d p (fun e => s.vt.res
      (if s.vt.cls = 3 then cvtIF (fmtOf s.vt.fmt s.vt.sewE) 0 s.vt.rnd (i.toInt + e * k.toInt)
       else { val := lowN s.vt.sew (i.toInt + e * k.toInt), ev := 0 }))).retires)) ∧
  (∀ (s u : State) (d a : BitVec 5), s.th.sc.mode ≠ .S → s.th.tr.absent = false →
    (s.th.hw.window = none → s.th.held.yreq = true → s.cv.many = false →
      exec (.setvl d a) s =
        (s.modHeld (fun x => { x with yreq := false })).traps (plainTrap Cause.yieldreq 0)) ∧
    (s.th.vec.chBound = false → (s.th.hw.window ≠ none ∨ s.th.held.yreq = false) →
      (let h : Hold := { loc := s.th.held.loc, remote := s.th.held.remote, pvc := s.th.held.pvc }
       let hold := if s.th.hw.window.isSome then h else s.targetSet (min s.th.held.cap.toNat s.th.held.pwr.toNat)
       let grant := min (s.rd a).toNat (vlmaxOf s.vt hold.count)
       moveRegs hold s = (.ok (), u) →
       exec (.setvl d a) s = (((u.applyHold hold).setVl grant).wr d (BitVec.ofNat 64 grant)).retires)) ∧
    (s.th.vec.chBound = true → (s.th.hw.window ≠ none ∨ s.th.held.yreq = false) →
      (let h : Hold := { loc := s.th.held.loc, remote := s.th.held.remote, pvc := s.th.held.pvc }
       let hold := if s.th.hw.window.isSome then h else s.targetSet (min s.th.held.cap.toNat s.th.held.pwr.toNat)
       let ch := s.chain s.th.vec.chSlot.toNat
       let cur := s.th.vec.vcur.toNat + s.th.vec.vl.toNat
       let grant := min (s.rd a).toNat (min (vlmaxOf s.vt hold.count) (ch.mark.toNat - cur))
       (grant ≠ 0 ∨ (s.rd a).toNat = 0 ∨ ch.fin = true) → moveRegs hold s = (.ok (), u) →
       exec (.setvl d a) s = ((((u.applyHold hold).modVec (fun v =>
         { v with vcur := BitVec.ofNat 64 cur, chFinal := ch.fin })).setVl grant).wr d
           (BitVec.ofNat 64 grant)).retires)) ∧
    (s.th.vec.chBound = true → (s.th.hw.window ≠ none ∨ s.th.held.yreq = false) →
      (s.chain s.th.vec.chSlot.toNat).fin = false → 0 < (s.rd a).toNat →
      (s.chain s.th.vec.chSlot.toNat).mark.toNat ≤ s.th.vec.vcur.toNat + s.th.vec.vl.toNat →
      exec (.setvl d a) s = s.awaits (.chain (s.chain s.th.vec.chSlot.toNat).mark
        (s.chain s.th.vec.chSlot.toNat).fin s.th.held.cap s.th.held.yreq s.th.held.pwr)))

/-- The element-wise predicate operations write their bit for each active element; PFIRST keeps the
first selected set bit, PSCAN sets every selected bit from it on, PPOPC counts the selected set
bits, and PMOVL copies a predicate between banks. PLD reads the 512 bytes of its eight beats into
the predicate, bit e from bit e mod 8 of byte e div 8; PST puts the predicate into the store
buffer as eight beats in ascending order. (R356, R357, R358, R359) -/
def Obligations.Predicates : Prop :=
  (∀ (s : State) (c : Bool) (d a b p : BitVec 5), s.th.sc.mode ≠ .S → s.th.tr.absent = false →
    (exec (.pand c d a b p) s = (s.writePred (s.predNo d) ((s.todo p).map (fun e => (e, s.pbit a e && s.pbit b e)))).retires) ∧
    (exec (.por c d a b p) s = (s.writePred (s.predNo d) ((s.todo p).map (fun e => (e, s.pbit a e || s.pbit b e)))).retires) ∧
    (exec (.pxor c d a b p) s = (s.writePred (s.predNo d) ((s.todo p).map (fun e => (e, s.pbit a e ^^ s.pbit b e)))).retires) ∧
    (exec (.pandn c d a b p) s = (s.writePred (s.predNo d) ((s.todo p).map (fun e => (e, s.pbit a e && !s.pbit b e)))).retires) ∧
    (exec (.pnot c d a p) s = (s.writePred (s.predNo d) ((s.todo p).map (fun e => (e, !s.pbit a e)))).retires) ∧
    (exec (.pseta c d p) s = (s.writePred (s.predNo d) ((s.todo p).map (fun e => (e, true)))).retires) ∧
    (s.wholePass = true → exec (.pfirst c d a p) s = (s.writePred (s.predNo d) ((s.selected p).map
      (fun e => (e, (s.selected p).find? (s.pbit a) == some e)))).retires) ∧
    (s.wholePass = true → exec (.pscan c d a p) s = (s.writePred (s.predNo d) ((s.selected p).map
      (fun e => (e, (s.selected p).any (fun x => decide (x ≤ e) && s.pbit a x))))).retires) ∧
    (s.wholePass = true → exec (.ppopc c d a p) s = (s.wrLate d (BitVec.ofNat 64
      ((s.selected p).filter (s.pbit a)).length)).retires) ∧
    (s.wholePass = false → exec (.pfirst c d a p) s = s.retires ∧ exec (.pscan c d a p) s = s.retires ∧
      exec (.ppopc c d a p) s = s.retires) ∧
    (∀ k : BitVec 4, exec (.pmovl c d a k) s =
      (s.setPred (d.toNat + 32 * (k.toNat % 4)) (s.pred (a.toNat + 32 * (k.toNat / 4)))).retires)) ∧
  (∀ (s u : State) (c : Bool) (d a : BitVec 5) (k : BitVec 2) (ps : List (Nat × W64 × Phys)),
    s.th.sc.mode ≠ .S → s.th.tr.absent = false →
    (wholeBeats .load (s.rd a) 8 s = (.ok ps, u) →
      (let v := u.touchLines (ps.map (·.2.2)) (u.loadAlloc 512) false
       v.cleanAt 64 ps = true →
       exec (.pld c d a k) s = (v.setPred (d.toNat + 32 * k.toNat) (BitVec.ofNat 4096
         (ps.foldl (fun x b => x + v.seen b.2.2 64 * 2 ^ (512 * b.1)) 0))).retires)) ∧
    (wholeBeats .store (s.rd a) 8 s = (.ok ps, u) → u.roomAll ps = true →
      exec (.pst c d a k) s = (u.pushEntries (ps.map (fun b =>
        { beat := (0, b.1), kid := b.2.2.kid,
          bytes := writesOf b.2.2.loc (((predBytes (s.pred (d.toNat + 32 * k.toNat))).drop (64 * b.1)).take 64) }))
        (u.bigStore 512) false).retires))

/-- A unit-stride, strided or indexed load whose addresses are aligned, unlocked and translated to
clean places completes: each active element receives the bytes the thread sees at base + e × z,
base + e × stride or base + index, and nothing else of the registers changes. VLDFF without a
fault loads as VLD; with a first faulted element that is not the lowest active one it loads the
elements before it and sets vl to its index. (R165, R168, R169) -/
def Obligations.VectorLoads : Prop :=
  (∀ (s u : State) (c : Bool) (d a b p : BitVec 5) (ps : List (Nat × W64 × Phys)),
    (s.vecOk [d] (fun _ => true) = true →
      s.placesOf .load s.vt.size (s.elemAddrs (s.rd a) p s.unitOff) = some (ps, u) →
      (let v := u.touchLines ((u.performed ps).map (·.2.2)) (u.loadAlloc s.unitFootprint) false
       v.cleanAt s.vt.size (u.performed ps) = true →
       exec (.vld c d a p) s = (v.fill d s.vt.size (u.performed ps)).retires)) ∧
    (s.vecOk [d] (fun _ => true) = true →
      s.placesOf .load s.vt.size (s.elemAddrs (s.rd a) p (strideOff (s.rd b))) = some (ps, u) →
      (let v := u.touchLines ((u.performed ps).map (·.2.2)) (u.loadAlloc (s.strideFootprint (s.rd b))) false
       v.cleanAt s.vt.size (u.performed ps) = true →
       exec (.vlds c d a b p) s = (v.fill d s.vt.size (u.performed ps)).retires)) ∧
    (s.vecOk [d, b] (fun t => !t.sq) = true →
      s.placesOf .load s.vt.size (s.elemAddrs (s.rd a) p (s.indexOff b)) = some (ps, u) →
      (let v := u.touchLines ((u.performed ps).map (·.2.2)) (u.loadAlloc s.indexFootprint) false
       v.cleanAt s.vt.size (u.performed ps) = true →
       exec (.vldx c d a b p) s = (v.fill d s.vt.size (u.performed ps)).retires))) ∧
  (∀ (s u : State) (d a p : BitVec 5) (t : Touch) (f : Nat × W64 × XFault) (fs : List (Nat × W64 × XFault)),
    s.vecOk [d] (fun _ => true) = true →
    (let as := s.elemAddrs (s.rd a) p s.unitOff
     s.touched .load s.vt.size as as = some (t, u) →
     (t.bad = [] →
      (let v := u.touchLines (t.ok.map (·.2.2)) (u.loadAlloc s.unitFootprint) false
       v.cleanAt s.vt.size t.ok = true → exec (.vldff d a p) s = (v.fill d s.vt.size t.ok).retires)) ∧
     (t.bad = f :: fs → as.head?.map (·.1) ≠ some f.1 →
      (let ps := t.ok.filter (fun x => decide (x.1 < f.1))
       let v := u.touchLines (ps.map (·.2.2)) (u.loadAlloc s.unitFootprint) false
       v.cleanAt s.vt.size ps = true →
       exec (.vldff d a p) s = ((v.fill d s.vt.size ps).setVl f.1).retires))))

/-- A vector store whose addresses are aligned, unlocked and translated completes: the bytes of each
active element enter the store buffer at its place, one entry to a beat; VSTX leaves the order of
overlapping elements of a beat free, VSTXO keeps element order. The footprint of VST in R57, vl
elements, is the model’s choice (log entry 129). (R165, R170, R171) -/
def Obligations.VectorStores : Prop :=
  ∀ (s u : State) (c : Bool) (d a b p : BitVec 5) (ps : List (Nat × W64 × Phys)),
    (s.vecOk [d] (fun _ => true) = true →
      s.placesOf .store s.vt.size (s.elemAddrs (s.rd a) p s.unitOff) = some (ps, u) →
      u.roomAll (u.performed ps) = true →
      exec (.vst c d a p) s = (u.pushEntries (u.elemWrites d s.vt.size (u.performed ps))
        (u.bigStore s.unitFootprint) false).retires) ∧
    (s.vecOk [d] (fun _ => true) = true →
      s.placesOf .store s.vt.size (s.elemAddrs (s.rd a) p (strideOff (s.rd b))) = some (ps, u) →
      u.roomAll (u.performed ps) = true →
      exec (.vsts c d a b p) s = (u.pushEntries (u.elemWrites d s.vt.size (u.performed ps))
        (u.bigStore (s.strideFootprint (s.rd b))) false).retires) ∧
    (s.vecOk [d, b] (fun t => !t.sq) = true →
      s.placesOf .store s.vt.size (s.elemAddrs (s.rd a) p (s.indexOff b)) = some (ps, u) →
      u.roomAll (u.performed ps) = true →
      exec (.vstx c d a b p) s = (u.pushEntries (u.elemWrites d s.vt.size (u.performed ps))
        (u.bigStore s.indexFootprint) true).retires) ∧
    (s.vecOk [d, b] (fun t => !t.sq) = true →
      s.placesOf .store s.vt.size (s.elemAddrs (s.rd a) p (s.indexOff b)) = some (ps, u) →
      u.roomAll (u.performed ps) = true →
      exec (.vstxo c d a b p) s = (u.pushEntries (u.elemWrites d s.vt.size (u.performed ps))
        (u.bigStore s.indexFootprint) false).retires)

/-- VLDBP with an aligned base, unlocked and translated to clean places completes: each active element
takes its plane bits, under i8 as a container value with row 0 the sign, and under sq its block
takes its scale byte. VSTBP completes when its bytes are unlocked and translated: its entries
hold, at the place of each of the eight plane bytes of an active element, that byte of planes, and
every byte lies at a translated place. The footprint of VSTBP in R57 is the model’s choice (log
entry 129). (R173, R174, R175) -/
def Obligations.PlaneTransfers : Prop :=
  (∀ (s u : State) (c : Bool) (d a b p : BitVec 5) (t : Touch),
    s.vecOk [d] (fun t => (t.cls == 0 && t.sewE == 0) || t.sq) = true → (s.vt.sq = true ∨ b = 0#5) →
    (let bytes := s.planeBytes (s.rd a) (s.rd b) (s.vt.planes + 1) (s.wanted p)
     (bytes = [] ∨ (s.rd a).toNat % 64 = 0) →
     bytes.all (fun x => (s.lockHitVa x.2 1 false).isNone && !s.homeLocked .load x.2 1) = true →
     translateElems .load (s.short bytes) 1 s = (.ok t, u) → t.bad = [] →
     (let now := s.planesRead (s.rd b) t.ok ((s.wanted p).filter u.performs)
      let v := u.touchLines (now.map (·.2.2)) (u.loadAlloc u.vl) false
      v.cleanAt 1 now = true →
      exec (.vldbp c d a b p) s = (((s.wanted p).filter u.performs).foldl (fun w e =>
        w.putPlanes d (s.rd a) (s.rd b) (now.map (fun x => (x.2.1, v.seen x.2.2 1))) e) v).retires))) ∧
  (∀ (s u : State) (c : Bool) (d a b p : BitVec 5) (t : Touch),
    s.vecOk [d] (fun t => (t.cls == 0 && t.sewE == 0) || t.sq) = true → (s.vt.sq = true ∨ b = 0#5) →
    (let bytes := s.planeBytes (s.rd a) (s.rd b) 8 (s.wanted p)
     (bytes = [] ∨ (s.rd a).toNat % 64 = 0) →
     bytes.all (fun x => (s.lockHitVa x.2 1 true).isNone && !s.homeLocked .store x.2 1) = true →
     translateElems .store (s.short bytes) 1 s = (.ok t, u) → t.bad = [] →
     u.roomAll (t.ok.filter (fun y => !u.cv.withheld.getLsbD y.1)) = true →
     exec (.vstbp c d a b p) s = (u.pushEntries (u.planeWrites d p (s.rd a) (s.rd b)
       (fun e => u.cv.withheld.getLsbD e) t.ok ((s.wanted p).filter u.performs)) (u.bigStore u.vl)
         false).retires)) ∧
  (∀ (s : State) (d : BitVec 5) (base sc : W64) (got : List (W64 × Nat)) (e : Nat), s.vt.sq = false →
    s.putPlanes d base sc got e = s.putElem d e (planeContainer
      ((List.range (s.vt.planes + 1)).foldl (fun x j =>
        2 * x + (if (byteAt got (planeAddr base e j)).testBit (e % 8) then 1 else 0)) 0)
      (s.vt.planes + 1) s.vt.mid)) ∧
  (∀ (s : State) (d p : BitVec 5) (base sc : W64) (held : Nat → Bool) (ok : List (Nat × W64 × Phys))
    (now : List Nat),
    (∀ w ∈ s.planeWrites d p base sc held ok now, ∀ x ∈ w.bytes, ∃ y ∈ ok, x.1 = y.2.2.loc) ∧
    (∀ e ∈ now, ∀ j < 8, ∀ y : Nat × W64 × Phys, ok.find? (fun y => y.2.1 == planeAddr base e j) = some y →
      ∃ w ∈ s.planeWrites d p base sc held ok now,
        (y.2.2.loc, s.planeByte d p held (e / 8 * 8) j) ∈ w.bytes))

/-- VSCATR and VPUTR check and translate at the source, drain the store buffer, and send one train for
each destination and key (R176: for each destination; the keys are the model’s choice, log entry
40) with the elements in ascending order; no byte of memory changes at the send. VAPPEND with no
active element does nothing; once its entries are written it waits until COMMIT reaches its first
entry and then publishes COMMIT, with pf the mask of the elements that found no room; with SPAWN
set and the count crossing THR it first translates the descriptor and then, COMMIT published,
spawns its job, or counts a refusal (of a misaligned descriptor and one it may not read too), and
is woken (this order is the model’s: log entry 118); VQPOP at vl = 0 only sets vl to 0. VAPPEND
with room for m of its active elements takes m entries from TAIL, moves TAIL on, writes s[b] + e
to each entry in element order, and then goes on to its commit with the other elements rejected;
VQPOP loads the entries from HEAD up to COMMIT, at most vl of them, moves HEAD on and sets vl to
their number. (R176, R177, R181, R182, R180) -/
def Obligations.TrainsAndQueues : Prop :=
  ((∀ (s u v : State) (d a b p : BitVec 5) (ps : List (Nat × W64 × Phys)),
    (s.vecOk [d, b] (fun t => !t.sq) = true →
      s.placesOf .store s.vt.size (s.elemAddrs (s.rd a) p (s.indexOff b)) = some (ps, u) →
      (ps = [] ∧ v = u ∨ ps ≠ [] ∧ u.bufHeld u.cur u.th.hw.buf = false ∧ v = u.drainAll) →
      v.roomAll (v.performed ps) = true →
      exec (.vscatr d a b p) s = (v.sendTrains ((v.performed ps).foldl (fun ts x =>
        addToTrain ts (v.destOf x.2.2.loc) v.th.id.vf x.2.2.kid x.2.2.loc (v.laneOf x.1)
          (leBytes s.vt.size (v.elem d x.1))) [])).retires) ∧
    (s.vecOk [d] (fun t => !t.sq) = true →
      s.placesOf .store s.vt.size (s.elemAddrs (s.rd a) p s.unitOff) = some (ps, u) →
      (ps = [] ∧ v = u ∨ ps ≠ [] ∧ u.bufHeld u.cur u.th.hw.buf = false ∧ v = u.drainAll) →
      v.roomAll (v.performed ps) = true →
      exec (.vputr d a p) s = (v.sendTrains ((v.performed ps).foldl (fun ts x =>
        addToTrain ts (v.destOf x.2.2.loc) v.th.id.vf x.2.2.kid x.2.2.loc (v.laneOf x.1)
          (leBytes s.vt.size (v.elem d x.1))) [])).retires)) ∧
  (∀ (s : State) (ts : List Train) (l : Nat), (s.sendTrains ts).homeByte l = s.homeByte l)) ∧
  ((∀ (s u : State) (d a b p : BitVec 5) (x : Append),
    (s.th.hw.append = none → s.th.sc.mode ≠ .S → s.th.tr.absent = false → s.actives p = [] →
      exec (.vappend a b p) s = s.retires) ∧
    (s.th.hw.append = some x → commitAppend x s = (.ok (), u) → exec (.vappend a b p) s = u.retires) ∧
    (s.th.hw.append = some x →
      (let t := s.claim x.loc x.kid
       let q := t.appendQueue x
       let place := { x.place with loc := x.loc + 16 }
       let before := (q.commit + 2 ^ 64 - q.head) % 2 ^ 64
       let v := t.endAppend.homeWrite place (leBytes 8 (x.first.toNat + x.count))
       t.poisoned x.loc 64 = false →
       (q.commit ≠ x.first.toNat → exec (.vappend a b p) s = t.awaits .commit) ∧
       (q.commit = x.first.toNat → isTwin (x.loc + 16) = false → homeWaits [(place, 8)] t = (.ok (), t) →
         ((q.spawn = 0 ∨ q.thr ≤ before ∨ before + x.count < q.thr) →
           exec (.vappend a b p) s = (v.setPred 95 x.rejected).retires) ∧
         (∀ (y : Except XFault Phys) (w : State), q.spawn ≠ 0 → before < q.thr → q.thr ≤ before + x.count →
           spawnPlace (BitVec.ofNat 64 q.spawn) t = (.ok y, w) →
           queueSpawn x.hdr (BitVec.ofNat 64 q.spawn) y
             (w.endAppend.homeWrite place (leBytes 8 (x.first.toNat + x.count))) = (.ok (), u) →
           exec (.vappend a b p) s = (u.setPred 95 x.rejected).retires)))) ∧
    (∀ (hdr desc : W64) (y : Phys),
      (let t := s.touch [y.loc / 128] y.kid (fun _ => .age 0) false
       let bs := t.homeBytes y 128
       let job := (t.acceptJob s.curPart s.th.id.vf.toNat bs t.th.id.job 0xFFFF#16 (some hdr)).2
       let no := t.countRefusal s.th.id.vf.toNat
       t.poisoned y.loc 128 = false →
       (t.jobRefusal s.curPart s.th.id.vf.toNat bs = none →
         queueSpawn hdr desc (.ok y) s = (.ok (), job.wakeSlot job.cur)) ∧
       (t.jobRefusal s.curPart s.th.id.vf.toNat bs ≠ none →
         queueSpawn hdr desc (.ok y) s = (.ok (), no.wakeSlot no.cur)))) ∧
    (∀ (hdr desc : W64) (f : XFault), f ≠ .mac →
      (let no := s.countRefusal s.th.id.vf.toNat
       queueSpawn hdr desc (.error f) s = (.ok (), no.wakeSlot no.cur))) ∧
    (∀ desc : W64, desc.toNat % 128 ≠ 0 → spawnPlace desc s = (.ok (.error .perm), s)) ∧
    (s.vecOk [d] (fun t => (t.cls == 0 || t.cls == 1) && t.sewE == 2) = true → s.vl = 0 →
      exec (.vqpop d a) s = (s.setVl 0).retires)) ∧
  (∀ (s s1 s2 s3 s4 u : State) (d a b p : BitVec 5) (place : Phys) (q : Queue),
    (∀ rp : List (List (W64 × Phys × Nat)), let hdr := s.rd a
     let m := min (s.actives p).length (q.cap - (q.tail + 2 ^ 64 - q.head) % 2 ^ 64)
     let ring := BitVec.ofNat 64 q.ring
     let tail := { place with loc := place.loc + 8 }
     let slots := (List.range m).filterMap (fun i => s.ringPlace rp.flatten (q.entry ((q.tail + i) % 2 ^ 64)))
     let x := s.reservation (.vappend a b p) hdr place q m (maskOf ((s.actives p).drop m))
     s.th.hw.append = none → s.th.sc.mode ≠ .S → s.th.tr.absent = false → s.actives p ≠ [] →
     queuePlace hdr s = (.ok place, s1) → s1.clear = true → s1.drainAll = s2 →
     readQueue hdr place s2 = (.ok q, s3) → 0 < q.cap → s3.lockHitVa ring (q.cap * 4) true = none →
     translateRing ring (q.cap * 4) s3 = (.ok rp, s4) →
     homeWaits ((tail, 8) :: slots.map (fun y => (y, 4))) s4 = (.ok (), s4) →
     commitAppend x
       (((slots.zip (s.actives p)).foldl (fun t x => t.entryWrite x.1 (leBytes 4 ((s.rd b).toNat + x.2)))
         (s4.homeWrite tail (leBytes 8 (q.tail + m)))).modHw (fun w => { w with append := some x })) =
       (.ok (), u) →
     exec (.vappend a b p) s = u.retires) ∧
    (∀ t : Touch, let hdr := s.rd a
     let k := min s.vl ((q.commit + 2 ^ 64 - q.head) % 2 ^ 64)
     let as := (List.range k).map (fun e => (e, q.entry ((q.head + e) % 2 ^ 64)))
     let v := s3.drainAll.touchLines (t.ok.map (·.2.2)) (.age 0) false
     s.vecOk [d] (fun t => (t.cls == 0 || t.cls == 1) && t.sewE == 2) = true → s.vl ≠ 0 →
     queuePlace hdr s = (.ok place, s1) → readQueue hdr place s1 = (.ok q, s2) →
     as.all (fun x => (s2.lockHitVa x.2 4 false).isNone && !s2.homeLocked .load x.2 4) = true →
     translateElems .load as 4 s2 = (.ok t, s3) → t.bad = [] →
     s3.bufHeld s3.cur s3.th.hw.buf = false → homeWaits [(place, 8)] s3.drainAll = (.ok (), s3.drainAll) →
     v.cleanAt 4 t.ok = true →
     exec (.vqpop d a) s =
       (((v.fill d 4 t.ok).homeWrite place (leBytes 8 (q.head + k))).setVl k).retires) ∧
    (let r := s.touch [place.loc / 128] place.kid (fun _ => .age 0) false
     let q := queueOf ((List.range 64).map (fun k => r.readByte place.owner (place.loc + k)))
     r.consumes place.loc 64 = false → q.ring % 4 = 0 → readQueue (s.rd a) place s = (.ok q, r))))

/-- VADD, VSUB, VRSUB and VMUL complete with the low SEW bits of the exact result in each active
element, raising nothing, with a vector or a scalar as the second source. VMULH and VMULHN give
the high SEW bits of the signed and unsigned product, VSLL, VSRL and VSRA shift by the second
source modulo SEW. VMIN and VMAX compare as signed, VMINN and VMAXN as unsigned numbers; VAND, VOR
and VXOR work on every class. (R187, R114, R185) -/
def Obligations.VectorInteger : Prop :=
  (∀ (s : State) (c : Bool) (d a b p : BitVec 5),
    (s.vecOk [d, a, b] (Vt.isIn [0, 1, 2, 6]) = true →
      exec (.vadd c d a b p) s = s.elemNext d a p (fun e => { val := lowN s.vt.sew (((s.elem a e) : Int) + ((s.elem b e) : Int)), ev := 0 })) ∧
    (s.vecOk [d, a] (Vt.isIn [0, 1, 2, 6]) = true →
      exec (.vaddVs c d a b p) s = s.elemNext d a p (fun e => { val := lowN s.vt.sew (((s.elem a e) : Int) + ((s.scalarElem b) : Int)), ev := 0 })) ∧
    (s.vecOk [d, a, b] (Vt.isIn [0, 1, 2, 6]) = true →
      exec (.vsub c d a b p) s = s.elemNext d a p (fun e => { val := lowN s.vt.sew (((s.elem a e) : Int) - ((s.elem b e) : Int)), ev := 0 })) ∧
    (s.vecOk [d, a] (Vt.isIn [0, 1, 2, 6]) = true →
      exec (.vsubVs c d a b p) s = s.elemNext d a p (fun e => { val := lowN s.vt.sew (((s.elem a e) : Int) - ((s.scalarElem b) : Int)), ev := 0 })) ∧
    (s.vecOk [d, a, b] (Vt.isIn [0, 1, 2, 6]) = true →
      exec (.vrsub c d a b p) s = s.elemNext d a p (fun e => { val := lowN s.vt.sew (((s.elem b e) : Int) - ((s.elem a e) : Int)), ev := 0 })) ∧
    (s.vecOk [d, a] (Vt.isIn [0, 1, 2, 6]) = true →
      exec (.vrsubVs c d a b p) s = s.elemNext d a p (fun e => { val := lowN s.vt.sew (((s.scalarElem b) : Int) - ((s.elem a e) : Int)), ev := 0 })) ∧
    (s.vecOk [d, a, b] (Vt.isIn [0, 1, 2, 6]) = true →
      exec (.vmul c d a b p) s = s.elemNext d a p (fun e => { val := lowN s.vt.sew (((s.elem a e) : Int) * ((s.elem b e) : Int)), ev := 0 })) ∧
    (s.vecOk [d, a] (Vt.isIn [0, 1, 2, 6]) = true →
      exec (.vmulVs c d a b p) s = s.elemNext d a p (fun e => { val := lowN s.vt.sew (((s.elem a e) : Int) * ((s.scalarElem b) : Int)), ev := 0 }))) ∧
  (∀ (s : State) (c : Bool) (d a b p : BitVec 5),
    (s.vecOk [d, a, b] (Vt.isIn [0, 1, 2, 6]) = true →
      exec (.vmulh c d a b p) s = s.elemNext d a p (fun e => { val := lowN s.vt.sew ((sextN s.vt.sew (s.elem a e)) * (sextN s.vt.sew (s.elem b e)) / (2 ^ s.vt.sew : Nat)), ev := 0 })) ∧
    (s.vecOk [d, a] (Vt.isIn [0, 1, 2, 6]) = true →
      exec (.vmulhVs c d a b p) s = s.elemNext d a p (fun e => { val := lowN s.vt.sew ((sextN s.vt.sew (s.elem a e)) * (sextN s.vt.sew (s.scalarElem b)) / (2 ^ s.vt.sew : Nat)), ev := 0 })) ∧
    (s.vecOk [d, a, b] (Vt.isIn [0, 1, 2, 6]) = true →
      exec (.vmulhn c d a b p) s = s.elemNext d a p (fun e => { val := lowN s.vt.sew ((((s.elem a e)) * ((s.elem b e)) / 2 ^ s.vt.sew : Nat)), ev := 0 })) ∧
    (s.vecOk [d, a] (Vt.isIn [0, 1, 2, 6]) = true →
      exec (.vmulhnVs c d a b p) s = s.elemNext d a p (fun e => { val := lowN s.vt.sew ((((s.elem a e)) * ((s.scalarElem b)) / 2 ^ s.vt.sew : Nat)), ev := 0 })) ∧
    (s.vecOk [d, a, b] (Vt.isIn [0, 1, 2, 6]) = true →
      exec (.vsll c d a b p) s = s.elemNext d a p (fun e => { val := lowN s.vt.sew ((((s.elem a e)) * 2 ^ (((s.elem b e)) % s.vt.sew) : Nat)), ev := 0 })) ∧
    (s.vecOk [d, a] (Vt.isIn [0, 1, 2, 6]) = true →
      exec (.vsllVs c d a b p) s = s.elemNext d a p (fun e => { val := lowN s.vt.sew ((((s.elem a e)) * 2 ^ (((s.scalarElem b)) % s.vt.sew) : Nat)), ev := 0 })) ∧
    (s.vecOk [d, a, b] (Vt.isIn [0, 1, 2, 6]) = true →
      exec (.vsrl c d a b p) s = s.elemNext d a p (fun e => { val := lowN s.vt.sew ((((s.elem a e)) / 2 ^ (((s.elem b e)) % s.vt.sew) : Nat)), ev := 0 })) ∧
    (s.vecOk [d, a] (Vt.isIn [0, 1, 2, 6]) = true →
      exec (.vsrlVs c d a b p) s = s.elemNext d a p (fun e => { val := lowN s.vt.sew ((((s.elem a e)) / 2 ^ (((s.scalarElem b)) % s.vt.sew) : Nat)), ev := 0 })) ∧
    (s.vecOk [d, a, b] (Vt.isIn [0, 1, 2, 6]) = true →
      exec (.vsra c d a b p) s = s.elemNext d a p (fun e => { val := lowN s.vt.sew ((sextN s.vt.sew (s.elem a e)) / (2 ^ (((s.elem b e)) % s.vt.sew) : Nat)), ev := 0 })) ∧
    (s.vecOk [d, a] (Vt.isIn [0, 1, 2, 6]) = true →
      exec (.vsraVs c d a b p) s = s.elemNext d a p (fun e => { val := lowN s.vt.sew ((sextN s.vt.sew (s.elem a e)) / (2 ^ (((s.scalarElem b)) % s.vt.sew) : Nat)), ev := 0 }))) ∧
  (∀ (s : State) (c : Bool) (d a b p : BitVec 5),
    (s.vecOk [d, a, b] (Vt.isIn [0, 1, 2, 6]) = true →
      exec (.vmin c d a b p) s = s.elemNext d a p (fun e => { val := lowN s.vt.sew (min (sextN s.vt.sew (s.elem a e)) (sextN s.vt.sew (s.elem b e))), ev := 0 })) ∧
    (s.vecOk [d, a] (Vt.isIn [0, 1, 2, 6]) = true →
      exec (.vminVs c d a b p) s = s.elemNext d a p (fun e => { val := lowN s.vt.sew (min (sextN s.vt.sew (s.elem a e)) (sextN s.vt.sew (s.scalarElem b))), ev := 0 })) ∧
    (s.vecOk [d, a, b] (Vt.isIn [0, 1, 2, 6]) = true →
      exec (.vmax c d a b p) s = s.elemNext d a p (fun e => { val := lowN s.vt.sew (max (sextN s.vt.sew (s.elem a e)) (sextN s.vt.sew (s.elem b e))), ev := 0 })) ∧
    (s.vecOk [d, a] (Vt.isIn [0, 1, 2, 6]) = true →
      exec (.vmaxVs c d a b p) s = s.elemNext d a p (fun e => { val := lowN s.vt.sew (max (sextN s.vt.sew (s.elem a e)) (sextN s.vt.sew (s.scalarElem b))), ev := 0 })) ∧
    (s.vecOk [d, a, b] (Vt.isIn [0, 1, 2, 6]) = true →
      exec (.vminn c d a b p) s = s.elemNext d a p (fun e => { val := lowN s.vt.sew ((min ((s.elem a e)) ((s.elem b e)) : Nat)), ev := 0 })) ∧
    (s.vecOk [d, a] (Vt.isIn [0, 1, 2, 6]) = true →
      exec (.vminnVs c d a b p) s = s.elemNext d a p (fun e => { val := lowN s.vt.sew ((min ((s.elem a e)) ((s.scalarElem b)) : Nat)), ev := 0 })) ∧
    (s.vecOk [d, a, b] (Vt.isIn [0, 1, 2, 6]) = true →
      exec (.vmaxn c d a b p) s = s.elemNext d a p (fun e => { val := lowN s.vt.sew ((max ((s.elem a e)) ((s.elem b e)) : Nat)), ev := 0 })) ∧
    (s.vecOk [d, a] (Vt.isIn [0, 1, 2, 6]) = true →
      exec (.vmaxnVs c d a b p) s = s.elemNext d a p (fun e => { val := lowN s.vt.sew ((max ((s.elem a e)) ((s.scalarElem b)) : Nat)), ev := 0 })) ∧
    (s.vecOk [d, a, b] (fun _ => true) = true →
      exec (.vand c d a b p) s = s.elemNext d a p (fun e => { val := lowN s.vt.sew ((((s.elem a e)) &&& ((s.elem b e)) : Nat)), ev := 0 })) ∧
    (s.vecOk [d, a] (fun _ => true) = true →
      exec (.vandVs c d a b p) s = s.elemNext d a p (fun e => { val := lowN s.vt.sew ((((s.elem a e)) &&& ((s.scalarElem b)) : Nat)), ev := 0 })) ∧
    (s.vecOk [d, a, b] (fun _ => true) = true →
      exec (.vor c d a b p) s = s.elemNext d a p (fun e => { val := lowN s.vt.sew ((((s.elem a e)) ||| ((s.elem b e)) : Nat)), ev := 0 })) ∧
    (s.vecOk [d, a] (fun _ => true) = true →
      exec (.vorVs c d a b p) s = s.elemNext d a p (fun e => { val := lowN s.vt.sew ((((s.elem a e)) ||| ((s.scalarElem b)) : Nat)), ev := 0 })) ∧
    (s.vecOk [d, a, b] (fun _ => true) = true →
      exec (.vxor c d a b p) s = s.elemNext d a p (fun e => { val := lowN s.vt.sew ((((s.elem a e)) ^^^ ((s.elem b e)) : Nat)), ev := 0 })) ∧
    (s.vecOk [d, a] (fun _ => true) = true →
      exec (.vxorVs c d a b p) s = s.elemNext d a p (fun e => { val := lowN s.vt.sew ((((s.elem a e)) ^^^ ((s.scalarElem b)) : Nat)), ev := 0 })))

/-- VCMP writes to each active element’s predicate bit whether its condition holds: equality on the
bits, the signed and unsigned orders; a float condition also merges the classes it raises, the
integer ones raise none. (R188, R189) -/
def Obligations.VectorCompare : Prop :=
  ∀ (s : State) (c : Bool) (d a b p : BitVec 5),
    (s.vecOk [a, b] (cmpTypes 0) = true →
      exec (.vcmp c d a b p 0) s = (s.writePred (s.predNo d)
        ((s.todo p).map (fun e => (e, decide ((s.elem a e) = (s.elem b e)))))).retires) ∧
    (s.vecOk [a, b] (cmpTypes 1) = true →
      exec (.vcmp c d a b p 1) s = (s.writePred (s.predNo d)
        ((s.todo p).map (fun e => (e, decide ((s.elem a e) ≠ (s.elem b e)))))).retires) ∧
    (s.vecOk [a, b] (cmpTypes 2) = true →
      exec (.vcmp c d a b p 2) s = (s.writePred (s.predNo d)
        ((s.todo p).map (fun e => (e, decide (sextN s.vt.sew (s.elem a e) < sextN s.vt.sew (s.elem b e)))))).retires) ∧
    (s.vecOk [a, b] (cmpTypes 3) = true →
      exec (.vcmp c d a b p 3) s = (s.writePred (s.predNo d)
        ((s.todo p).map (fun e => (e, decide (sextN s.vt.sew (s.elem a e) ≤ sextN s.vt.sew (s.elem b e)))))).retires) ∧
    (s.vecOk [a, b] (cmpTypes 4) = true →
      exec (.vcmp c d a b p 4) s = (s.writePred (s.predNo d)
        ((s.todo p).map (fun e => (e, decide (sextN s.vt.sew (s.elem b e) < sextN s.vt.sew (s.elem a e)))))).retires) ∧
    (s.vecOk [a, b] (cmpTypes 5) = true →
      exec (.vcmp c d a b p 5) s = (s.writePred (s.predNo d)
        ((s.todo p).map (fun e => (e, decide (sextN s.vt.sew (s.elem b e) ≤ sextN s.vt.sew (s.elem a e)))))).retires) ∧
    (s.vecOk [a, b] (cmpTypes 6) = true →
      exec (.vcmp c d a b p 6) s = (s.writePred (s.predNo d)
        ((s.todo p).map (fun e => (e, decide ((s.elem a e) < (s.elem b e)))))).retires) ∧
    (s.vecOk [a, b] (cmpTypes 7) = true →
      exec (.vcmp c d a b p 7) s = (s.writePred (s.predNo d)
        ((s.todo p).map (fun e => (e, decide ((s.elem a e) ≤ (s.elem b e)))))).retires) ∧
    (s.vecOk [a, b] (cmpTypes 8) = true →
      exec (.vcmp c d a b p 8) s = (s.writePred (s.predNo d)
        ((s.todo p).map (fun e => (e, decide ((s.elem b e) < (s.elem a e)))))).retires) ∧
    (s.vecOk [a, b] (cmpTypes 9) = true →
      exec (.vcmp c d a b p 9) s = (s.writePred (s.predNo d)
        ((s.todo p).map (fun e => (e, decide ((s.elem b e) ≤ (s.elem a e)))))).retires) ∧
    (∀ k : BitVec 4, s.vecOk [a, b] (cmpTypes k.toNat) = true →
      exec (.vcmp c d a b p k) s =
        ((s.writePred (s.predNo d) ((s.todo p).map (fun e =>
          (e, (cmpHolds k.toNat s.vt (s.elem a e) (s.elem b e)).1)))).mergeFlags ((s.todo p).map (fun e =>
          (e, (cmpHolds k.toNat s.vt (s.elem a e) (s.elem b e)).2)))).retires) ∧
    (s.vecOk [a] (cmpTypes 0) = true →
      exec (.vcmpVs c d a b p 0) s = (s.writePred (s.predNo d)
        ((s.todo p).map (fun e => (e, decide ((s.elem a e) = (s.scalarElem b)))))).retires) ∧
    (s.vecOk [a] (cmpTypes 1) = true →
      exec (.vcmpVs c d a b p 1) s = (s.writePred (s.predNo d)
        ((s.todo p).map (fun e => (e, decide ((s.elem a e) ≠ (s.scalarElem b)))))).retires) ∧
    (s.vecOk [a] (cmpTypes 2) = true →
      exec (.vcmpVs c d a b p 2) s = (s.writePred (s.predNo d)
        ((s.todo p).map (fun e => (e, decide (sextN s.vt.sew (s.elem a e) < sextN s.vt.sew (s.scalarElem b)))))).retires) ∧
    (s.vecOk [a] (cmpTypes 3) = true →
      exec (.vcmpVs c d a b p 3) s = (s.writePred (s.predNo d)
        ((s.todo p).map (fun e => (e, decide (sextN s.vt.sew (s.elem a e) ≤ sextN s.vt.sew (s.scalarElem b)))))).retires) ∧
    (s.vecOk [a] (cmpTypes 4) = true →
      exec (.vcmpVs c d a b p 4) s = (s.writePred (s.predNo d)
        ((s.todo p).map (fun e => (e, decide (sextN s.vt.sew (s.scalarElem b) < sextN s.vt.sew (s.elem a e)))))).retires) ∧
    (s.vecOk [a] (cmpTypes 5) = true →
      exec (.vcmpVs c d a b p 5) s = (s.writePred (s.predNo d)
        ((s.todo p).map (fun e => (e, decide (sextN s.vt.sew (s.scalarElem b) ≤ sextN s.vt.sew (s.elem a e)))))).retires) ∧
    (s.vecOk [a] (cmpTypes 6) = true →
      exec (.vcmpVs c d a b p 6) s = (s.writePred (s.predNo d)
        ((s.todo p).map (fun e => (e, decide ((s.elem a e) < (s.scalarElem b)))))).retires) ∧
    (s.vecOk [a] (cmpTypes 7) = true →
      exec (.vcmpVs c d a b p 7) s = (s.writePred (s.predNo d)
        ((s.todo p).map (fun e => (e, decide ((s.elem a e) ≤ (s.scalarElem b)))))).retires) ∧
    (s.vecOk [a] (cmpTypes 8) = true →
      exec (.vcmpVs c d a b p 8) s = (s.writePred (s.predNo d)
        ((s.todo p).map (fun e => (e, decide ((s.scalarElem b) < (s.elem a e)))))).retires) ∧
    (s.vecOk [a] (cmpTypes 9) = true →
      exec (.vcmpVs c d a b p 9) s = (s.writePred (s.predNo d)
        ((s.todo p).map (fun e => (e, decide ((s.scalarElem b) ≤ (s.elem a e)))))).retires) ∧
    (∀ k : BitVec 4, s.vecOk [a] (cmpTypes k.toNat) = true →
      exec (.vcmpVs c d a b p k) s =
        ((s.writePred (s.predNo d) ((s.todo p).map (fun e =>
          (e, (cmpHolds k.toNat s.vt (s.elem a e) (s.scalarElem b)).1)))).mergeFlags ((s.todo p).map (fun e =>
          (e, (cmpHolds k.toNat s.vt (s.elem a e) (s.scalarElem b)).2)))).retires)

/-- The fixed-point instructions complete with each element, or each component of a complex one,
fitted to its width: exact sums, differences and negations, products rounded at w − 1, rounded
shifts, clamps to a bit count, and redundant sign bits. (R190, R191, R192, R193) -/
def Obligations.FixedPoint : Prop :=
  ∀ (s : State) (c : Bool) (d a b p : BitVec 5),
    (s.vecOk [d, a, b] (Vt.isIn [0, 1, 2, 4]) = true →
      exec (.vqadd c d a b p) s = s.elemNext d a p (fun e => s.vt.perComp (fun x y => s.vt.fit (s.vt.int x + s.vt.int y)) (s.elem a e) (s.elem b e))) ∧
    (s.vecOk [d, a] (Vt.isIn [0, 1, 2, 4]) = true →
      exec (.vqaddVs c d a b p) s = s.elemNext d a p (fun e => s.vt.perComp (fun x y => s.vt.fit (s.vt.int x + s.vt.int y)) (s.elem a e) (s.scalarElem b))) ∧
    (s.vecOk [d, a, b] (Vt.isIn [0, 1, 2, 4]) = true →
      exec (.vqsub c d a b p) s = s.elemNext d a p (fun e => s.vt.perComp (fun x y => s.vt.fit (s.vt.int x - s.vt.int y)) (s.elem a e) (s.elem b e))) ∧
    (s.vecOk [d, a] (Vt.isIn [0, 1, 2, 4]) = true →
      exec (.vqsubVs c d a b p) s = s.elemNext d a p (fun e => s.vt.perComp (fun x y => s.vt.fit (s.vt.int x - s.vt.int y)) (s.elem a e) (s.scalarElem b))) ∧
    (s.vecOk [d, a, b] (Vt.isIn [2, 4]) = true →
      exec (.vqmul c d a b p) s = s.elemNext d a p (fun e => s.vt.perComp (fun x y => s.vt.fit (rshift (s.vt.int x * s.vt.int y) (s.vt.w - 1) s.vt.rnd)) (s.elem a e) (s.elem b e))) ∧
    (s.vecOk [d, a] (Vt.isIn [2, 4]) = true →
      exec (.vqmulVs c d a b p) s = s.elemNext d a p (fun e => s.vt.perComp (fun x y => s.vt.fit (rshift (s.vt.int x * s.vt.int y) (s.vt.w - 1) s.vt.rnd)) (s.elem a e) (s.scalarElem b))) ∧
    (s.vecOk [d, a, b] (Vt.isIn [0, 1, 2, 4]) = true →
      exec (.vshrrnd c d a b p) s = s.elemNext d a p (fun e => s.vt.perComp (fun x _ =>
        if 0 ≤ sextN 8 (s.elem b e) then { val := lowN s.vt.w (rshift (s.vt.int x) (sextN 8 (s.elem b e)).toNat s.vt.rnd), ev := 0 }
        else s.vt.fit (s.vt.int x * (2 ^ (-sextN 8 (s.elem b e)).toNat : Nat))) (s.elem a e) (s.elem a e))) ∧
    (s.vecOk [d, a] (Vt.isIn [0, 1, 2, 4]) = true →
      exec (.vshrrndVs c d a b p) s = s.elemNext d a p (fun e => s.vt.perComp (fun x _ =>
        if 0 ≤ sextN 8 (s.scalarElem b) then { val := lowN s.vt.w (rshift (s.vt.int x) (sextN 8 (s.scalarElem b)).toNat s.vt.rnd), ev := 0 }
        else s.vt.fit (s.vt.int x * (2 ^ (-sextN 8 (s.scalarElem b)).toNat : Nat))) (s.elem a e) (s.elem a e))) ∧
    (s.vecOk [d, a, b] (Vt.isIn [0, 1, 2, 4]) = true →
      exec (.vsatn c d a b p) s = s.elemNext d a p (fun e => s.vt.perComp (fun x _ => s.vt.clampTo (min (max ((s.elem b e) % 128) 1) s.vt.w) x) (s.elem a e) (s.elem a e))) ∧
    (s.vecOk [d, a] (Vt.isIn [0, 1, 2, 4]) = true →
      exec (.vsatnVs c d a b p) s = s.elemNext d a p (fun e => s.vt.perComp (fun x _ => s.vt.clampTo (min (max ((s.scalarElem b) % 128) 1) s.vt.w) x) (s.elem a e) (s.elem a e))) ∧
    (s.vecOk [d, a] (Vt.isIn [0, 2, 4]) = true →
      exec (.vqneg c d a p) s = s.elemNext d a p (fun e => s.vt.perComp (fun x _ => s.vt.fit (-s.vt.int x)) (s.elem a e) (s.elem a e))) ∧
    (s.vecOk [d, a] (Vt.isIn [0, 2, 4]) = true →
      exec (.vqabs c d a p) s = s.elemNext d a p (fun e => s.vt.perComp (fun x _ => s.vt.fit (s.vt.int x).natAbs) (s.elem a e) (s.elem a e))) ∧
    (s.vecOk [d, a] (Vt.isIn [0, 2, 4]) = true → (s.actives p).isEmpty = false →
      exec (.vhead c d a p) s = ((s.mapElems d p (fun e =>
        { val := (s.vt.perComp (fun x _ => { val := redundant s.vt.w x, ev := 0 }) (s.elem a e) 0).val,
          ev := 0, heads := s.vt.signBits (s.elem a e) })).copyScales d a).retires) ∧
    (s.vecOk [d, a] (Vt.isIn [0, 2, 4]) = true → (s.actives p).isEmpty = true →
      exec (.vhead c d a p) s = s.retires)

/-- The floating-point instructions complete with the result of the format in vtype under its rounding
mode in each active element and the classes it raises merged; the old destination is the third
source of the fused forms and of VFCLAMP; VFABS and VFNEG act on the sign bit alone. (R194, R195,
R196, R120) -/
def Obligations.FloatingPoint : Prop :=
  ∀ (s : State) (c : Bool) (d a b p : BitVec 5),
    (s.vecOk [d, a, b] (Vt.isIn [3]) = true →
      exec (.vfadd c d a b p) s = s.elemNext d a p (fun e => s.vt.format.add s.vt.rnd (s.elem a e) (s.elem b e))) ∧
    (s.vecOk [d, a] (Vt.isIn [3]) = true →
      exec (.vfaddVs c d a b p) s = s.elemNext d a p (fun e => s.vt.format.add s.vt.rnd (s.elem a e) (s.scalarElem b))) ∧
    (s.vecOk [d, a, b] (Vt.isIn [3]) = true →
      exec (.vfsub c d a b p) s = s.elemNext d a p (fun e => s.vt.format.sub s.vt.rnd (s.elem a e) (s.elem b e))) ∧
    (s.vecOk [d, a] (Vt.isIn [3]) = true →
      exec (.vfsubVs c d a b p) s = s.elemNext d a p (fun e => s.vt.format.sub s.vt.rnd (s.elem a e) (s.scalarElem b))) ∧
    (s.vecOk [d, a, b] (Vt.isIn [3]) = true →
      exec (.vfmul c d a b p) s = s.elemNext d a p (fun e => s.vt.format.mul s.vt.rnd (s.elem a e) (s.elem b e))) ∧
    (s.vecOk [d, a] (Vt.isIn [3]) = true →
      exec (.vfmulVs c d a b p) s = s.elemNext d a p (fun e => s.vt.format.mul s.vt.rnd (s.elem a e) (s.scalarElem b))) ∧
    (s.vecOk [d, a, b] (Vt.isIn [3]) = true →
      exec (.vfdiv c d a b p) s = s.elemNext d a p (fun e => s.vt.format.div s.vt.rnd (s.elem a e) (s.elem b e))) ∧
    (s.vecOk [d, a] (Vt.isIn [3]) = true →
      exec (.vfdivVs c d a b p) s = s.elemNext d a p (fun e => s.vt.format.div s.vt.rnd (s.elem a e) (s.scalarElem b))) ∧
    (s.vecOk [d, a, b] (Vt.isIn [3]) = true →
      exec (.vfmin c d a b p) s = s.elemNext d a p (fun e => s.vt.format.minmax false (s.elem a e) (s.elem b e))) ∧
    (s.vecOk [d, a] (Vt.isIn [3]) = true →
      exec (.vfminVs c d a b p) s = s.elemNext d a p (fun e => s.vt.format.minmax false (s.elem a e) (s.scalarElem b))) ∧
    (s.vecOk [d, a, b] (Vt.isIn [3]) = true →
      exec (.vfmax c d a b p) s = s.elemNext d a p (fun e => s.vt.format.minmax true (s.elem a e) (s.elem b e))) ∧
    (s.vecOk [d, a] (Vt.isIn [3]) = true →
      exec (.vfmaxVs c d a b p) s = s.elemNext d a p (fun e => s.vt.format.minmax true (s.elem a e) (s.scalarElem b))) ∧
    (s.vecOk [d, a, b] (Vt.isIn [3]) = true →
      exec (.vfma c d a b p) s = s.elemNext d a p (fun e => s.vt.format.fma s.vt.rnd false false (s.elem a e) (s.elem b e) (s.elem d e))) ∧
    (s.vecOk [d, a] (Vt.isIn [3]) = true →
      exec (.vfmaVs c d a b p) s = s.elemNext d a p (fun e => s.vt.format.fma s.vt.rnd false false (s.elem a e) (s.scalarElem b) (s.elem d e))) ∧
    (s.vecOk [d, a, b] (Vt.isIn [3]) = true →
      exec (.vfms c d a b p) s = s.elemNext d a p (fun e => s.vt.format.fma s.vt.rnd false true (s.elem a e) (s.elem b e) (s.elem d e))) ∧
    (s.vecOk [d, a] (Vt.isIn [3]) = true →
      exec (.vfmsVs c d a b p) s = s.elemNext d a p (fun e => s.vt.format.fma s.vt.rnd false true (s.elem a e) (s.scalarElem b) (s.elem d e))) ∧
    (s.vecOk [d, a, b] (Vt.isIn [3]) = true →
      exec (.vfnma c d a b p) s = s.elemNext d a p (fun e => s.vt.format.fma s.vt.rnd true false (s.elem a e) (s.elem b e) (s.elem d e))) ∧
    (s.vecOk [d, a] (Vt.isIn [3]) = true →
      exec (.vfnmaVs c d a b p) s = s.elemNext d a p (fun e => s.vt.format.fma s.vt.rnd true false (s.elem a e) (s.scalarElem b) (s.elem d e))) ∧
    (s.vecOk [d, a, b] (Vt.isIn [3]) = true →
      exec (.vfclamp c d a b p) s = s.elemNext d a p (fun e => s.vt.format.clamp (s.elem d e) (s.elem a e) (s.elem b e))) ∧
    (s.vecOk [d, a] (Vt.isIn [3]) = true →
      exec (.vfclampVs c d a b p) s = s.elemNext d a p (fun e => s.vt.format.clamp (s.elem d e) (s.elem a e) (s.scalarElem b))) ∧
    (s.vecOk [d, a] (Vt.isIn [3]) = true →
      exec (.vfsqrt c d a p) s = s.elemNext d a p (fun e => s.vt.format.sqrt s.vt.rnd (s.elem a e))) ∧
    (s.vecOk [d, a] (Vt.isIn [3]) = true →
      exec (.vfabs c d a p) s = s.elemNext d a p (fun e => { val := lowN s.vt.sew ((((s.elem a e)) % 2 ^ (s.vt.sew - 1) : Nat)), ev := 0 })) ∧
    (s.vecOk [d, a] (Vt.isIn [3]) = true →
      exec (.vfneg c d a p) s = s.elemNext d a p (fun e => { val := lowN s.vt.sew ((((s.elem a e)) + 2 ^ (s.vt.sew - 1) : Nat)), ev := 0 }))

/-- The complex instructions complete with each component the exact sum of its terms, rounded or
fitted once; VCMUL and VCMAC conjugate the second source under their option; VCROT multiplies by j
or −j. (R210, R129) -/
def Obligations.ComplexArithmetic : Prop :=
  ∀ (s : State) (c : Bool) (d a b p : BitVec 5),
    (s.vecOk [d, a, b] isComplex = true →
      exec (.vcadd c d a b p) s = s.elemNext d a p (fun e => s.vt.pair (s.vt.compSum [(s.vt.re (s.elem a e)), (s.vt.re (s.elem b e))] [plus (s.vt.re (s.elem a e)), plus (s.vt.re (s.elem b e))])
        (s.vt.compSum [(s.vt.im (s.elem a e)), (s.vt.im (s.elem b e))] [plus (s.vt.im (s.elem a e)), plus (s.vt.im (s.elem b e))]))) ∧
    (s.vecOk [d, a] isComplex = true →
      exec (.vcaddVs c d a b p) s = s.elemNext d a p (fun e => s.vt.pair (s.vt.compSum [(s.vt.re (s.elem a e)), (s.vt.re (s.scalarElem b))] [plus (s.vt.re (s.elem a e)), plus (s.vt.re (s.scalarElem b))])
        (s.vt.compSum [(s.vt.im (s.elem a e)), (s.vt.im (s.scalarElem b))] [plus (s.vt.im (s.elem a e)), plus (s.vt.im (s.scalarElem b))]))) ∧
    (s.vecOk [d, a, b] isComplex = true →
      exec (.vcsub c d a b p) s = s.elemNext d a p (fun e => s.vt.pair (s.vt.compSum [(s.vt.re (s.elem a e)), (s.vt.re (s.elem b e))] [plus (s.vt.re (s.elem a e)), minus (s.vt.re (s.elem b e))])
        (s.vt.compSum [(s.vt.im (s.elem a e)), (s.vt.im (s.elem b e))] [plus (s.vt.im (s.elem a e)), minus (s.vt.im (s.elem b e))]))) ∧
    (s.vecOk [d, a] isComplex = true →
      exec (.vcsubVs c d a b p) s = s.elemNext d a p (fun e => s.vt.pair (s.vt.compSum [(s.vt.re (s.elem a e)), (s.vt.re (s.scalarElem b))] [plus (s.vt.re (s.elem a e)), minus (s.vt.re (s.scalarElem b))])
        (s.vt.compSum [(s.vt.im (s.elem a e)), (s.vt.im (s.scalarElem b))] [plus (s.vt.im (s.elem a e)), minus (s.vt.im (s.scalarElem b))]))) ∧
    (s.vecOk [d, a, b] isComplex = true →
      exec (.vcscl c d a b p) s = s.elemNext d a p (fun e => s.vt.pair (s.vt.compSum [(s.vt.re (s.elem a e)), (s.vt.re (s.elem b e))] [prod (s.vt.re (s.elem a e)) (s.vt.re (s.elem b e))])
        (s.vt.compSum [(s.vt.im (s.elem a e)), (s.vt.re (s.elem b e))] [prod (s.vt.im (s.elem a e)) (s.vt.re (s.elem b e))]))) ∧
    (s.vecOk [d, a] isComplex = true →
      exec (.vcsclVs c d a b p) s = s.elemNext d a p (fun e => s.vt.pair (s.vt.compSum [(s.vt.re (s.elem a e)), (s.vt.re (s.scalarElem b))] [prod (s.vt.re (s.elem a e)) (s.vt.re (s.scalarElem b))])
        (s.vt.compSum [(s.vt.im (s.elem a e)), (s.vt.re (s.scalarElem b))] [prod (s.vt.im (s.elem a e)) (s.vt.re (s.scalarElem b))]))) ∧
    (s.vecOk [d, a, b] isComplex = true →
      exec (.vcmul c d a b p 0) s = s.elemNext d a p (fun e => s.vt.pair (s.vt.compSum [(s.vt.re (s.elem a e)), (s.vt.im (s.elem a e)), (s.vt.re (s.elem b e)), (s.vt.im (s.elem b e))] [prod (s.vt.re (s.elem a e)) (s.vt.re (s.elem b e)), negProd (s.vt.im (s.elem a e)) (s.vt.im (s.elem b e))])
        (s.vt.compSum [(s.vt.re (s.elem a e)), (s.vt.im (s.elem a e)), (s.vt.re (s.elem b e)), (s.vt.im (s.elem b e))] [prod (s.vt.re (s.elem a e)) (s.vt.im (s.elem b e)), prod (s.vt.im (s.elem a e)) (s.vt.re (s.elem b e))]))) ∧
    (s.vecOk [d, a] isComplex = true →
      exec (.vcmulVs c d a b p 0) s = s.elemNext d a p (fun e => s.vt.pair (s.vt.compSum [(s.vt.re (s.elem a e)), (s.vt.im (s.elem a e)), (s.vt.re (s.scalarElem b)), (s.vt.im (s.scalarElem b))] [prod (s.vt.re (s.elem a e)) (s.vt.re (s.scalarElem b)), negProd (s.vt.im (s.elem a e)) (s.vt.im (s.scalarElem b))])
        (s.vt.compSum [(s.vt.re (s.elem a e)), (s.vt.im (s.elem a e)), (s.vt.re (s.scalarElem b)), (s.vt.im (s.scalarElem b))] [prod (s.vt.re (s.elem a e)) (s.vt.im (s.scalarElem b)), prod (s.vt.im (s.elem a e)) (s.vt.re (s.scalarElem b))]))) ∧
    (s.vecOk [d, a, b] isComplex = true →
      exec (.vcmul c d a b p 1) s = s.elemNext d a p (fun e => s.vt.pair (s.vt.compSum [(s.vt.re (s.elem a e)), (s.vt.im (s.elem a e)), (s.vt.re (s.elem b e)), (s.vt.im (s.elem b e))] [prod (s.vt.re (s.elem a e)) (s.vt.re (s.elem b e)), prod (s.vt.im (s.elem a e)) (s.vt.im (s.elem b e))])
        (s.vt.compSum [(s.vt.re (s.elem a e)), (s.vt.im (s.elem a e)), (s.vt.re (s.elem b e)), (s.vt.im (s.elem b e))] [negProd (s.vt.re (s.elem a e)) (s.vt.im (s.elem b e)), prod (s.vt.im (s.elem a e)) (s.vt.re (s.elem b e))]))) ∧
    (s.vecOk [d, a] isComplex = true →
      exec (.vcmulVs c d a b p 1) s = s.elemNext d a p (fun e => s.vt.pair (s.vt.compSum [(s.vt.re (s.elem a e)), (s.vt.im (s.elem a e)), (s.vt.re (s.scalarElem b)), (s.vt.im (s.scalarElem b))] [prod (s.vt.re (s.elem a e)) (s.vt.re (s.scalarElem b)), prod (s.vt.im (s.elem a e)) (s.vt.im (s.scalarElem b))])
        (s.vt.compSum [(s.vt.re (s.elem a e)), (s.vt.im (s.elem a e)), (s.vt.re (s.scalarElem b)), (s.vt.im (s.scalarElem b))] [negProd (s.vt.re (s.elem a e)) (s.vt.im (s.scalarElem b)), prod (s.vt.im (s.elem a e)) (s.vt.re (s.scalarElem b))]))) ∧
    (s.vecOk [d, a, b] isComplex = true →
      exec (.vcmac c d a b p 0) s = s.elemNext d a p (fun e => s.vt.pair (s.vt.compSum [(s.vt.re (s.elem a e)), (s.vt.im (s.elem a e)), (s.vt.re (s.elem b e)), (s.vt.im (s.elem b e)), (s.vt.re (s.elem d e))] [prod (s.vt.re (s.elem a e)) (s.vt.re (s.elem b e)), negProd (s.vt.im (s.elem a e)) (s.vt.im (s.elem b e)), plus (s.vt.re (s.elem d e))])
        (s.vt.compSum [(s.vt.re (s.elem a e)), (s.vt.im (s.elem a e)), (s.vt.re (s.elem b e)), (s.vt.im (s.elem b e)), (s.vt.im (s.elem d e))] [prod (s.vt.re (s.elem a e)) (s.vt.im (s.elem b e)), prod (s.vt.im (s.elem a e)) (s.vt.re (s.elem b e)), plus (s.vt.im (s.elem d e))]))) ∧
    (s.vecOk [d, a] isComplex = true →
      exec (.vcmacVs c d a b p 0) s = s.elemNext d a p (fun e => s.vt.pair (s.vt.compSum [(s.vt.re (s.elem a e)), (s.vt.im (s.elem a e)), (s.vt.re (s.scalarElem b)), (s.vt.im (s.scalarElem b)), (s.vt.re (s.elem d e))] [prod (s.vt.re (s.elem a e)) (s.vt.re (s.scalarElem b)), negProd (s.vt.im (s.elem a e)) (s.vt.im (s.scalarElem b)), plus (s.vt.re (s.elem d e))])
        (s.vt.compSum [(s.vt.re (s.elem a e)), (s.vt.im (s.elem a e)), (s.vt.re (s.scalarElem b)), (s.vt.im (s.scalarElem b)), (s.vt.im (s.elem d e))] [prod (s.vt.re (s.elem a e)) (s.vt.im (s.scalarElem b)), prod (s.vt.im (s.elem a e)) (s.vt.re (s.scalarElem b)), plus (s.vt.im (s.elem d e))]))) ∧
    (s.vecOk [d, a, b] isComplex = true →
      exec (.vcmac c d a b p 1) s = s.elemNext d a p (fun e => s.vt.pair (s.vt.compSum [(s.vt.re (s.elem a e)), (s.vt.im (s.elem a e)), (s.vt.re (s.elem b e)), (s.vt.im (s.elem b e)), (s.vt.re (s.elem d e))] [prod (s.vt.re (s.elem a e)) (s.vt.re (s.elem b e)), prod (s.vt.im (s.elem a e)) (s.vt.im (s.elem b e)), plus (s.vt.re (s.elem d e))])
        (s.vt.compSum [(s.vt.re (s.elem a e)), (s.vt.im (s.elem a e)), (s.vt.re (s.elem b e)), (s.vt.im (s.elem b e)), (s.vt.im (s.elem d e))] [negProd (s.vt.re (s.elem a e)) (s.vt.im (s.elem b e)), prod (s.vt.im (s.elem a e)) (s.vt.re (s.elem b e)), plus (s.vt.im (s.elem d e))]))) ∧
    (s.vecOk [d, a] isComplex = true →
      exec (.vcmacVs c d a b p 1) s = s.elemNext d a p (fun e => s.vt.pair (s.vt.compSum [(s.vt.re (s.elem a e)), (s.vt.im (s.elem a e)), (s.vt.re (s.scalarElem b)), (s.vt.im (s.scalarElem b)), (s.vt.re (s.elem d e))] [prod (s.vt.re (s.elem a e)) (s.vt.re (s.scalarElem b)), prod (s.vt.im (s.elem a e)) (s.vt.im (s.scalarElem b)), plus (s.vt.re (s.elem d e))])
        (s.vt.compSum [(s.vt.re (s.elem a e)), (s.vt.im (s.elem a e)), (s.vt.re (s.scalarElem b)), (s.vt.im (s.scalarElem b)), (s.vt.im (s.elem d e))] [negProd (s.vt.re (s.elem a e)) (s.vt.im (s.scalarElem b)), prod (s.vt.im (s.elem a e)) (s.vt.re (s.scalarElem b)), plus (s.vt.im (s.elem d e))]))) ∧
    (s.vecOk [d, a] isComplex = true →
      exec (.vcmag2 c d a p) s = s.elemNext d a p (fun e => s.vt.pair (s.vt.compSum [(s.vt.re (s.elem a e)), (s.vt.im (s.elem a e))] [prod (s.vt.re (s.elem a e)) (s.vt.re (s.elem a e)), prod (s.vt.im (s.elem a e)) (s.vt.im (s.elem a e))])
        (same 0))) ∧
    (s.vecOk [d, a] isComplex = true →
      exec (.vcrot c d a p 0) s = s.elemNext d a p (fun e => s.vt.pair (s.vt.negComp (s.vt.im (s.elem a e)))
        (same (s.vt.re (s.elem a e))))) ∧
    (s.vecOk [d, a] isComplex = true →
      exec (.vcrot c d a p 1) s = s.elemNext d a p (fun e => s.vt.pair (same (s.vt.im (s.elem a e)))
        (s.vt.negComp (s.vt.re (s.elem a e))))) ∧
    (s.vecOk [d, a] isComplex = true →
      exec (.vcconj c d a p) s = s.elemNext d a p (fun e => s.vt.pair (same (s.vt.re (s.elem a e)))
        (s.vt.negComp (s.vt.im (s.elem a e)))))

/-- VCVT, VWIDEN and VNARROW convert each active element from the type the code names at the same,
half or double width, component by component for complex types; VNARROW reads a double group.
VABS, VNEG, VCLZ, VPOPC and VMOV complete element by element; VMOVS broadcasts a scalar, VMOVX
gives s[d] one element (0 at or beyond vl), VINS writes one element and nothing at or beyond vl.
That VWIDEN and VNARROW of a spanned thread take elements of both dies is the model’s choice (log
entry 114). (R197, R198, R199, R200, R201) -/
def Obligations.ConversionsAndMoves : Prop :=
  (∀ (s : State) (c : Bool) (d a p : BitVec 5) (k : BitVec 4),
    (s.vecOk [d] (fun _ => true) = true → groupOk s.vt (1 * s.vt.gm) a = true →
      (let st : Ty := codeType k (s.vt.sewE)
       convOk st s.vt.ty = true →
       exec (.vcvt c d a k p) s = (s.mapElems d p (fun e => s.vt.res
         (convertElem st s.vt.ty s.vt.sat s.vt.rnd
           (s.elemOf (1 * s.vt.gm) st.width a.toNat e)))).retires)) ∧
    (s.vecOk [d] (fun _ => true) = true → groupOk s.vt (1 * s.vt.gm) a = true → s.vt.sewE ≠ 0 →
      (let st : Ty := codeType k (s.vt.sewE - 1)
       convOk st s.vt.ty = true → rangesMeet d.toNat s.vt.gm a.toNat (1 * s.vt.gm) = false →
       exec (.vwiden c d a k p) s = (s.mapElems d p (fun e => s.vt.res
         (convertElem st s.vt.ty s.vt.sat s.vt.rnd
           (s.elemOf (1 * s.vt.gm) st.width a.toNat e)))).retires)) ∧
    (s.vecOk [d] (fun _ => true) = true → groupOk s.vt (2 * s.vt.gm) a = true → s.vt.sewE ≠ 3 →
      (let st : Ty := codeType k (s.vt.sewE + 1)
       convOk st s.vt.ty = true → rangesMeet d.toNat s.vt.gm a.toNat (2 * s.vt.gm) = false →
       exec (.vnarrow c d a k p) s = (s.mapElems d p (fun e => s.vt.res
         (convertElem st s.vt.ty s.vt.sat s.vt.rnd
           (s.elemOf (2 * s.vt.gm) st.width a.toNat e)))).retires))) ∧
  (∀ (s : State) (c : Bool) (d a b p : BitVec 5),
    (s.vecOk [d, a] (Vt.isIn [0, 2, 6]) = true →
      exec (.vabs c d a p) s = s.elemNext d a p (fun e => { val := lowN s.vt.sew ((sextN s.vt.sew (s.elem a e)).natAbs), ev := 0 })) ∧
    (s.vecOk [d, a] (Vt.isIn [0, 1, 2, 6]) = true →
      exec (.vneg c d a p) s = s.elemNext d a p (fun e => { val := lowN s.vt.sew (-(((s.elem a e) : Nat) : Int)), ev := 0 })) ∧
    (s.vecOk [d, a] (Vt.isIn [0, 1]) = true →
      exec (.vclz c d a p) s = s.elemNext d a p (fun e => { val := lowN s.vt.sew ((clzN s.vt.sew ((s.elem a e)) : Nat)), ev := 0 })) ∧
    (s.vecOk [d, a] (Vt.isIn [0, 1]) = true →
      exec (.vpopc c d a p) s = s.elemNext d a p (fun e => { val := lowN s.vt.sew ((popN s.vt.sew ((s.elem a e)) : Nat)), ev := 0 })) ∧
    (s.vecOk [d, a] (fun _ => true) = true →
      exec (.vmov c d a p) s = s.elemNext d a p (fun e => { val := lowN s.vt.sew ((((s.elem a e)) : Nat)), ev := 0 })) ∧
    (s.vecOk [d] (fun _ => true) = true →
      exec (.vmovs c d b p) s = (s.mapElems d p (fun _ =>
        s.vt.res { val := lowN s.vt.sew (s.scalarElem b : Nat), ev := 0 })).retires) ∧
    (s.vecOk [a] (fun _ => true) = true → (s.rd b).toNat < s.vl → s.vt.isIn [0, 2, 6] = true →
      exec (.vmovx c d a b) s =
        (s.wrLate d (BitVec.ofInt 64 (sextN s.vt.sew (s.elem a (s.rd b).toNat)))).retires) ∧
    (s.vecOk [a] (fun _ => true) = true → (s.rd b).toNat < s.vl → s.vt.isIn [0, 2, 6] = false →
      exec (.vmovx c d a b) s = (s.wrLate d (BitVec.ofNat 64 (s.elem a (s.rd b).toNat))).retires) ∧
    (s.vecOk [a] (fun _ => true) = true → s.vl ≤ (s.rd b).toNat →
      exec (.vmovx c d a b) s = (s.wrLate d 0).retires) ∧
    (s.vecOk [d] (fun _ => true) = true → (s.rd b).toNat < s.vl → s.performs (s.rd b).toNat = true →
      s.done (s.rd b).toNat = false →
      exec (.vins c d a b) s = (s.writeElems d [((s.rd b).toNat,
        s.vt.res { val := lowN s.vt.sew (s.scalarElem a : Nat), ev := 0 })]).retires) ∧
    (s.vecOk [d] (fun _ => true) = true → s.vl ≤ (s.rd b).toNat → exec (.vins c d a b) s = s.retires))

/-- VSEL takes a or b by the predicate in every element; VCOMPR packs and VEXPND spreads the selected
elements in order; the slides move by s[b], giving 0 from beyond vl, and VREV reverses. The last
five need registers apart from vd and no span. (R202, R203, R209) -/
def Obligations.SelectAndMove : Prop :=
  ∀ (s : State) (c : Bool) (d a b p : BitVec 5),
    (s.vecOk [d, a, b] (fun _ => true) = true →
      exec (.vsel c d a b p) s = s.elemNext d a 0 (fun e =>
        { val := lowN s.vt.sew (((if s.gov p e then s.elem a e else s.elem b e) : Nat)), ev := 0 })) ∧
    (s.vecOk [d, a] (fun t => !t.sq) = true → rangesMeet d.toNat s.vt.gm a.toNat s.vt.gm = false → s.th.held.remote = 0#4 → s.wholePass = true →
      exec (.vcompr c d a p) s = (s.writeElems d (((List.range (s.selected p).length).zip ((s.selected p).map (s.elem a))).map
        (fun r => (r.1, s.vt.res { val := lowN s.vt.sew ((r.2 : Nat)), ev := 0 })))).retires) ∧
    (s.vecOk [d, a] (fun t => !t.sq) = true → rangesMeet d.toNat s.vt.gm a.toNat s.vt.gm = false → s.th.held.remote = 0#4 → s.wholePass = true →
      exec (.vexpnd c d a p) s = (s.writeElems d (((s.selected p).zip ((List.range (s.selected p).length).map (s.elem a))).map
        (fun r => (r.1, s.vt.res { val := lowN s.vt.sew ((r.2 : Nat)), ev := 0 })))).retires) ∧
    (s.vecOk [d, a] (fun t => !t.sq) = true → rangesMeet d.toNat s.vt.gm a.toNat s.vt.gm = false → s.th.held.remote = 0#4 → s.wholePass = true →
      exec (.vslideup c d a b p) s = (s.writeElems d ((((s.selected p).filter (fun e => decide ((s.rd b).toNat ≤ e))).map
        (fun e => (e, s.elem a (e - (s.rd b).toNat)))).map
        (fun r => (r.1, s.vt.res { val := lowN s.vt.sew ((r.2 : Nat)), ev := 0 })))).retires) ∧
    (s.vecOk [d, a] (fun t => !t.sq) = true → rangesMeet d.toNat s.vt.gm a.toNat s.vt.gm = false → s.th.held.remote = 0#4 → s.wholePass = true →
      exec (.vslidedn c d a b p) s = (s.writeElems d (((s.selected p).map (fun e =>
        (e, if e + (s.rd b).toNat < s.vl then s.elem a (e + (s.rd b).toNat) else 0))).map
        (fun r => (r.1, s.vt.res { val := lowN s.vt.sew ((r.2 : Nat)), ev := 0 })))).retires) ∧
    (s.vecOk [d, a] (fun t => !t.sq) = true → rangesMeet d.toNat s.vt.gm a.toNat s.vt.gm = false → s.th.held.remote = 0#4 → s.wholePass = true →
      exec (.vrev c d a p) s = (s.writeElems d (((s.selected p).map (fun e => (e, s.elem a (s.vl - 1 - e)))).map
        (fun r => (r.1, s.vt.res { val := lowN s.vt.sew ((r.2 : Nat)), ev := 0 })))).retires)

/-- VRED combines the selected elements and its seed exactly, VFRED and float VCRED in the fixed tree
with the seed last, integer VCRED component by component; vd[0] receives the result, its classes
are merged and its headroom folded, the seed of a reduction without an active element too (log
entry 28); with vl = 0 none of the three writes anything. (R204, R205, R206, R207) -/
def Obligations.Reductions : Prop :=
  ∀ (s : State) (c : Bool) (d a p : BitVec 5),
    (∀ (o : BitVec 3) (sd : BitVec 1), s.vecOk [d, a] (Vt.isIn [0, 1, 2]) = true →  s.wholePass = true → s.vl ≠ 0 →
      (let seed := if sd = 1#1 then some (s.elem d 0) else none
       let x := s.vt.reduceInt o.toNat ((s.selected p).map (s.elem a) ++ seed.toList)
       let r := (x.val, [(0, x.ev)])
       exec (.vred c d a sd o p) s =
         (((s.putElem d 0 r.1).mergeFlags r.2).foldHead (s.vt.headsOf r.1)).retires)) ∧
    (∀ (o : BitVec 3) (sd : BitVec 1), s.vecOk [d, a] (Vt.isIn [3]) = true → o.toNat < 3 → s.wholePass = true → s.vl ≠ 0 →
      (let seed := if sd = 1#1 then some (s.elem d 0) else none
       let f := fmtOf s.vt.fmt s.vt.sewE
       let r := reduceTree (if o = 0#3 then f.add s.vt.rnd else f.minmax (decide (o = 2#3)))
         (if o = 0#3 then 0 else f.nan) s.vl
         (fun e => if decide (e < s.vl) && s.gov p e then some (s.elem a e) else none) seed
       exec (.vfred c d a sd o p) s =
         (((s.putElem d 0 r.1).mergeFlags r.2).foldHead (s.vt.headsOf r.1)).retires)) ∧
    (∀ (o : BitVec 3) (sd : BitVec 1), s.vecOk [d, a] (fun t => t.cls == 5) = true → o = 0#3 → s.wholePass = true → s.vl ≠ 0 →
      (let seed := if sd = 1#1 then some (s.elem d 0) else none
       let r := reduceTree (s.vt.perComp ((fmtOf 0 (s.vt.sewE - 1)).add s.vt.rnd)) 0 s.vl
         (fun e => if decide (e < s.vl) && s.gov p e then some (s.elem a e) else none) seed
       exec (.vcred c d a sd o p) s =
         (((s.putElem d 0 r.1).mergeFlags r.2).foldHead (s.vt.headsOf r.1)).retires)) ∧
    (∀ (o : BitVec 3) (sd : BitVec 1), s.vecOk [d, a] (fun t => t.cls == 4) = true → o = 0#3 → s.wholePass = true → s.vl ≠ 0 →
      (let seed := if sd = 1#1 then some (s.elem d 0) else none
       let vs := (s.selected p).map (s.elem a) ++ seed.toList
       let x := s.vt.fit ((vs.map (fun v => s.vt.int v)).foldl (· + ·) 0)
       let y := s.vt.fit ((vs.map (fun v => s.vt.int (v / 2 ^ s.vt.w))).foldl (· + ·) 0)
       let r := (x.val + y.val * 2 ^ s.vt.w, [(0, x.ev ||| y.ev)])
       exec (.vcred c d a sd o p) s =
         (((s.putElem d 0 r.1).mergeFlags r.2).foldHead (s.vt.headsOf r.1)).retires)) ∧
    (∀ (o : BitVec 3) (sd : BitVec 1), s.vecOk [d, a] (Vt.isIn [0, 1, 2]) = true → s.vl = 0 →
      exec (.vred c d a sd o p) s = s.retires) ∧
    (∀ (o : BitVec 3) (sd : BitVec 1), s.vecOk [d, a] (Vt.isIn [3]) = true → o.toNat < 3 → s.vl = 0 →
      exec (.vfred c d a sd o p) s = s.retires) ∧
    (∀ (o : BitVec 3) (sd : BitVec 1), s.vecOk [d, a] (Vt.isIn [4, 5]) = true → o = 0#3 → s.vl = 0 →
      exec (.vcred c d a sd o p) s = s.retires)

/-- The butterflies write radix × e + k from their legs; VBITREV, VINTLV, VDINTLV and VROTZ move
elements by their index rules; VBPERM permutes the bits of elements, VBGATH packs one bit of each,
VGOLD generates or advances Gold states and VLLRPK rounds and clamps 16-bit values to ±127.
VBITREV with vl = 0 writes nothing, whatever its own rule on vl (R209, log entry 30). That VBGATH,
VBPERM and VLLRPK carry register data across the dies of a spanned thread is the model’s choice
(log entry 114). VPERM and VPERMB take elements and beats by index within a die half, 0 for an
index out of range; VXCHG takes the beat of the other half; VZIP and VUNZIP interleave and
separate; VSCGET, VSCSET and VSCNORM read, replace and normalise the scales of the governed
blocks. With no element VXCHG writes nothing in any thread and VUNZIP writes nothing whatever its
parity (R209, log entry 30). What VPERMB and VXCHG fold into the range register is log entry 29,
that VPERMB, VXCHG and VSCSET take overlapping registers is log entry 50, and that VSCGET and
VSCSET span the dies is log entry 114. (R211, R212, R213, R214, R215, R216, R217, R218, R219) -/
def Obligations.SignalAndPermutes : Prop :=
  (∀ (s : State) (c : Bool) (d a b p : BitVec 5),
    (s.vecOk [d, a, b] isComplex = true → s.vl % 2 = 0 → rangesMeet d.toNat s.vt.gm a.toNat s.vt.gm = false → s.th.held.remote = 0#4 →
      rangesMeet d.toNat s.vt.gm b.toNat s.vt.gm = false → s.wholePass = true →
      exec (.vbfly2 c d a b p) s =
        (let rs := ((s.selected p).filter (fun e => decide (e < s.vl / 2))).map
           (fun e => (e, s.butterfly s.vt 2 a b e))
         (s.putAll s.vt d
           (rs.foldl (fun l x => l ++ (List.range 2).zipWith (fun k o => (2 * x.1 + k, o.val)) x.2.1) [])
           (rs.map (fun x => (x.1, x.2.1.foldl (fun m o => m ||| o.ev) x.2.2)))).retires)) ∧
    (s.vecOk [d, a, b] isComplex = true → s.vl % 4 = 0 → rangesMeet d.toNat s.vt.gm a.toNat s.vt.gm = false → s.th.held.remote = 0#4 →
      rangesMeet d.toNat s.vt.gm b.toNat s.vt.gm = false → s.wholePass = true →
      exec (.vbfly4 c d a b p) s =
        (let rs := ((s.selected p).filter (fun e => decide (e < s.vl / 4))).map
           (fun e => (e, s.butterfly s.vt 4 a b e))
         (s.putAll s.vt d
           (rs.foldl (fun l x => l ++ (List.range 4).zipWith (fun k o => (4 * x.1 + k, o.val)) x.2.1) [])
           (rs.map (fun x => (x.1, x.2.1.foldl (fun m o => m ||| o.ev) x.2.2)))).retires)) ∧
    (s.vecOk [d, a] (fun t => !t.sq) = true → s.vl = 2 ^ Nat.log2 s.vl → rangesMeet d.toNat s.vt.gm a.toNat s.vt.gm = false → s.th.held.remote = 0#4 → s.wholePass = true →
      exec (.vbitrev c d a p) s =
        (s.putAll s.vt d ((s.selected p).map (fun e => (e, s.elem a (revN (Nat.log2 s.vl) e)))) []).retires) ∧
    (s.vecOk [d, a] (fun t => !t.sq) = true → s.vl = 0 → rangesMeet d.toNat s.vt.gm a.toNat s.vt.gm = false → s.th.held.remote = 0#4 →
      exec (.vbitrev c d a p) s = s.retires) ∧
    (s.vecOk [d, a] (fun t => !t.sq) = true → 1 ≤ (s.rd b).toNat → s.vl % (s.rd b).toNat = 0 → rangesMeet d.toNat s.vt.gm a.toNat s.vt.gm = false → s.th.held.remote = 0#4 → s.wholePass = true →
      exec (.vintlv c d a b p) s =
        (s.putAll s.vt d ((s.selected p).map (fun e => (e, s.elem a (e % (s.rd b).toNat * (s.vl / (s.rd b).toNat) + e / (s.rd b).toNat)))) []).retires) ∧
    (s.vecOk [d, a] (fun t => !t.sq) = true → 1 ≤ (s.rd b).toNat → s.vl % (s.rd b).toNat = 0 → rangesMeet d.toNat s.vt.gm a.toNat s.vt.gm = false → s.th.held.remote = 0#4 → s.wholePass = true →
      exec (.vdintlv c d a b p) s =
        (s.putAll s.vt d ((s.selected p).map (fun e => (e, s.elem a (e % (s.vl / (s.rd b).toNat) * (s.rd b).toNat + e / (s.vl / (s.rd b).toNat))))) []).retires) ∧
    (∀ z k : Nat, (s.rd b).toNat = z + k * 2 ^ 16 → 2 ≤ z → z ≤ 384 → k < z → s.vl % z = 0 →
      s.vecOk [d, a] (fun t => !t.sq) = true → rangesMeet d.toNat s.vt.gm a.toNat s.vt.gm = false → s.th.held.remote = 0#4 →
      s.wholePass = true →
      exec (.vrotz c d a b p) s = (s.putAll s.vt d ((s.selected p).map
        (fun e => (e, s.elem a (e / z * z + (e % z + k) % z)))) []).retires) ∧
    (s.vecOk [d, a, b] (fun t => !t.sq) = true →
      exec (.vbperm c d a b p) s = s.elemNext d a p (fun e =>
        { val := bitsOf s.vt.sew (fun i => (s.elem a e).testBit (s.elem b i % s.vt.sew)), ev := 0 })) ∧
    (s.vecOk [d, a] (fun t => !t.sq) = true → (s.selected p).isEmpty = false →
      exec (.vbgath c d a b p) s =
        (((((List.range s.vl).filter (fun e => s.performs e && !s.done e)).map (fun e =>
            (e, s.gov p e && (s.elem a e).testBit ((s.rd b).toNat % s.vt.sew)))) ++
          ((List.range (8 * ceilDiv s.vl 8 - s.vl)).map (· + s.vl)).map (·, false)).foldl
            (fun v x => v.putBits d.toNat x.1 1 (if x.2 then 1 else 0)) s).retires) ∧
    (s.vecOk [d, a] (fun t => decide (t.cls = 1 ∧ t.sewE = 3)) = true → (s.rd b).toNat ≤ 2 →
      exec (.vgold c d a b p) s = (s.mapElems d p (fun e =>
        let x1 := s.elem a e % 2 ^ 31
        let x2 := s.elem a e / 2 ^ 32 % 2 ^ 31
        s.vt.res { val := if (s.rd b).toNat = 0 then goldGen 64 x1 x2 0
                     else if (s.rd b).toNat = 1 then goldSteps 64 x1 x2 else goldSteps 1600 1 x1,
                   ev := 0 })).retires) ∧
    (s.vecOk [d] (fun t => decide (t.cls = 0 ∧ t.sewE = 0)) = true → groupOk s.vt (2 * s.vt.gm) a = true →
      rangesMeet d.toNat s.vt.gm a.toNat (2 * s.vt.gm) = false → (s.rd b).toNat < 16 →
      exec (.vllrpk c d a b p) s = (s.mapElems d p (fun e =>
        let y := rshift (sextN 16 (s.elemOf (2 * s.vt.gm) 16 a.toNat e)) (s.rd b).toNat s.vt.rnd
        let r := min (max y (-127)) 127
        s.vt.res { val := lowN 8 r, ev := if r = y then 0 else evSat })).retires)) ∧
  (∀ (s : State) (c : Bool) (d a b p : BitVec 5),
    (s.vecOk [d, a, b] (fun t => !t.sq) = true → rangesMeet d.toNat s.vt.gm a.toNat s.vt.gm = false → s.wholePass = true →
      exec (.vperm c d a b p) s = (s.putAll s.vt d ((s.selected p).map (fun e =>
        (e, if decide (s.elem b e < s.vl) &&
            (s.localHalf (s.groupOf (s.elem b e)) == s.localHalf (s.groupOf e))
          then s.elem a (s.elem b e) else 0))) []).retires) ∧
    (s.vecOk [d, a, b] (fun _ => true) = true → s.wholePass = true →
      exec (.vpermb c d a b) s = ((((List.range s.beats).map (fun k =>
        (k, if decide (s.regBits b.toNat (8 * k) 8 < s.beats) &&
            (s.beatLocal (s.regBits b.toNat (8 * k) 8) == s.beatLocal k)
          then s.beat a (s.regBits b.toNat (8 * k) 8) else 0))).foldl
            (fun v x => v.putBeat d x.1 x.2) s).foldGroup d).retires) ∧
    (s.vecOk [d, a] (fun _ => true) = true → s.th.held.remote ≠ 0#4 →
      popN 4 s.th.held.loc.toNat = popN 4 s.th.held.remote.toNat → s.wholePass = true →
      exec (.vxchg c d a) s = ((((List.range s.beats).map (fun k =>
        (k, s.beat a (k / s.lg * s.lg + (k % s.lg + s.locals) % s.lg)))).foldl
          (fun v x => v.putBeat d x.1 x.2) s).foldGroup d).retires) ∧
    (s.vecOk [d, a] (fun _ => true) = true → s.vl = 0 → exec (.vxchg c d a) s = s.retires) ∧
    (s.vecOk [d, a] (fun t => !t.sq) = true → (s.selected p).isEmpty = true → rangesMeet d.toNat s.vt.gm a.toNat s.vt.gm = false → s.th.held.remote = 0#4 →
      exec (.vunzip c d a b p) s = s.retires) ∧
    (s.vecOk [d, a, b] (fun t => !t.sq) = true → rangesMeet d.toNat s.vt.gm a.toNat s.vt.gm = false → s.th.held.remote = 0#4 →
      rangesMeet d.toNat s.vt.gm b.toNat s.vt.gm = false → s.wholePass = true →
      exec (.vzip c d a b p) s = (s.putAll s.vt d ((s.selected p).map (fun e =>
        (e, if e % 2 = 0 then s.elem a (e / 2) else s.elem b (e / 2)))) []).retires) ∧
    (s.vecOk [d, a] (fun t => !t.sq) = true → b.toNat < 2 → rangesMeet d.toNat s.vt.gm a.toNat s.vt.gm = false → s.th.held.remote = 0#4 → s.wholePass = true →
      exec (.vunzip c d a b p) s = (s.putAll s.vt d ((s.selected p).map (fun e =>
        (e, if 2 * e + b.toNat < s.vl then s.elem a (2 * e + b.toNat) else 0))) []).retires) ∧
    (s.vecOk [d, a] Vt.sq = true →
      exec (.vscget c d a p) s = (((s.blockTodo p).map (fun k => (k, s.beat a k % 256))).foldl
        (fun v x => v.putElem d x.1 x.2) s).retires) ∧
    (s.vecOk [d, a, b] Vt.sq = true →
      exec (.vscset c d a b p) s = (((s.blockTodo p).map (fun k =>
        (k, s.beat a k / 256 * 256 + s.elem b k % 256))).foldl (fun v x => v.putBeat d x.1 x.2) s).retires) ∧
    (s.vecOk [d, a] Vt.sq = true →
      exec (.vscnorm c d a p) s = (((s.blockTodo p).map (fun k => (k, normBlock (s.beat a k)))).foldl
        (fun v x => v.putBeat d x.1 x.2) s).retires))

/-- VGJSTEP, VBSOLVE and VNSSTEP step each governed matrix whose header allows it and write its
elements, header and classes; VWSTAG writes a header with a new tag for each selected element,
raising WSX where a warm start finds another; without a selected element it writes nothing,
whatever its operand (log entry 30), and in a spanned thread it traps ILLOP, as one of the solver
instructions that R209 names. (R209, R220, R223, R224, R225, R226) -/
def Obligations.BatchedSolver : Prop :=
  ∀ (s : State) (c : Bool) (d a b p : BitVec 5),
    (∀ (t : Vt) (n m : Nat), solverChecks d p [a] a false s = (.ok (t, n, m), s) → s.wholePass = true →
      exec (.vgjstep c d a p) s = (s.putResults t d a (n * n) ((List.range m).filterMap (fun i =>
        let h := headOf (s.elem a i)
        if s.gov p i && decide (h.dim = n ∧ h.k < n) then
          let r := s.gaussJordan t n h (s.elems d (i * n * n) (n * n))
          some (i, r, r.head i)
        else none))).retires) ∧
    (∀ (t : Vt) (n m : Nat), solverChecks d p [a, b] b true s = (.ok (t, n, m), s) → s.wholePass = true →
      exec (.vbsolve c d a b p) s = (s.putResults t d b n ((List.range m).filterMap (fun i =>
        let ha := headOf (s.elem b (2 * i))
        let hy := headOf (s.elem b (2 * i + 1))
        if s.gov p i && decide (ha.dim = n ∧ hy.dim = n ∧ hy.k < n) then
          let r := s.substitute t n ha hy (s.elems a (i * n * n) (n * n)) (s.elems d (i * n) n)
          some (i, r.1, r.1.head (2 * i + 1) ++ (if r.2 && r.1.new.isSome then
            [(2 * i, ({ ha with piv := true } : Head).word)] else []))
        else none))).retires) ∧
    (∀ (t : Vt) (n m : Nat), solverChecks d p [a, b] b true s = (.ok (t, n, m), s) → s.wholePass = true →
      exec (.vnsstep c d a b p) s = (s.putResults t d b (n * n) ((List.range m).filterMap (fun i =>
        if s.gov p i then
          let r := t.newtonSchulz n (headOf (s.elem b (2 * i))) (headOf (s.elem b (2 * i + 1)))
            (s.elems a (i * n * n) (n * n)) (s.elems d (i * n * n) (n * n))
          some (i, r, r.head (2 * i + 1))
        else none))).retires) ∧
    (s.vecOk [d, a] (Vt.isIn [4]) = true → (s.rd b).toNat < 512 → (s.rd b).getLsbD 7 = false →
      1 ≤ (s.rd b).toNat % 16 → (s.rd b).toNat % 16 ≤ 8 → s.th.held.remote = 0#4 → s.wholePass = true →
      exec (.vwstag c d a b p) s =
        (let rs := (s.selected p).map (fun e => (e, tagHead (s.rd b) (headOf (s.elem a e))))
         ((rs.foldl (fun v r => v.putElem d r.1 r.2.1.word) s).mergeFlags
           (rs.map (fun r => (r.1, if r.2.2 then evWsx else 0)))).retires)) ∧
    (s.vecOk [d, a] (Vt.isIn [4]) = true → (s.selected p).isEmpty = true → s.th.held.remote = 0#4 →
      exec (.vwstag c d a b p) s = s.retires) ∧
    (s.cv.many = false → s.vecOk [d, a] (Vt.isIn [4]) = true → s.th.held.remote ≠ 0#4 →
      exec (.vwstag c d a b p) s = s.traps (plainTrap Cause.illop s.evalWord))

/-- MZERO zeroes its own or a claimed tile, with its progress (log entry 52), and traps AFIRST for
another context’s; ATOV and VTOA move words between tile and register from row s[b], those of a
spanned thread across the dies (the model’s choice, log entry 114); ALD, AST, ASAVE and ARST move
the tile’s 4,096 bytes from and to memory, ALD claiming an unowned tile once the image is read,
ARST taking it over for its context. (R74, R235, R236, R237, R238) -/
def Obligations.AccumulatorTiles : Prop :=
  ∀ (s : State) (d a b p : BitVec 5) (t : BitVec 4),
    (s.th.sc.mode ≠ .S → s.th.tr.absent = false → s.owns t = true →
      exec (.mzero t) s = (((s.claimed t).modVc (s.claimed t).curVc (fun v => v.setAcc t 0)).clearMprog).retires) ∧
    (s.cv.many = false → s.th.sc.mode ≠ .S → s.th.tr.absent = false → s.owns t = false →
      exec (.mzero t) s = s.traps (plainTrap Cause.afirst (t.setWidth 64))) ∧
    (s.vecOk [d] (fun x => decide (x.sewE = 2) && !x.sq) = true → (s.rd b).toNat < 32 →
      (s.rd b).toNat * 32 + s.vl ≤ 1024 → (s.actives p).isEmpty = false → s.owns t = true →
      (let u := s.claimed t
       u.tilePoison t ((u.todo p).map ((s.rd b).toNat * 32 + ·)) = false →
       exec (.atov t d b p) s = ((u.todo p).foldl (fun x e =>
         x.putElem d e (accWord (u.acc t) ((s.rd b).toNat * 32 + e))) u).retires)) ∧
    (s.vecOk [a] (fun x => decide (x.sewE = 2) && !x.sq) = true → (s.rd b).toNat < 32 →
      (s.rd b).toNat * 32 + s.vl ≤ 1024 → (s.actives p).isEmpty = false → s.owns t = true →
      (let u := s.claimed t
       exec (.vtoa t a b p) s = (u.modVc u.curVc (fun v => v.setAccWords t ((u.todo p).map (fun e =>
         ((s.rd b).toNat * 32 + e, u.elem a e))))).retires)) ∧
    (∀ (ps : List (Nat × W64 × Phys)) (u v : State) (x : BitVec 32768), s.th.sc.mode ≠ .S → s.th.tr.absent = false →
      wholeBeats .load (s.rd b) 64 s = (.ok ps, u) → u.owns t = true → readTile ps u = (.ok x, v) →
      exec (.ald t b) s = ((v.claimed t).setTile t x).retires) ∧
    (∀ (ps : List (Nat × W64 × Phys)) (u v : State), s.th.sc.mode ≠ .S → s.th.tr.absent = false →
      wholeBeats .store (s.rd b) 64 s = (.ok ps, u) → u.owns t = true → storeTile t ps (u.claimed t) = (.ok (), v) →
      exec (.ast t b) s = v.retires) ∧
    (∀ (ps : List (Nat × W64 × Phys)) (u v : State), s.th.sc.mode = .L → s.th.tr.absent = false →
      wholeBeats .store (s.rd b) 64 s = (.ok ps, u) → u.tileBusy u.cur t = false →
      storeTile t ps u = (.ok (), v) → exec (.asave t b) s = v.retires) ∧
    (∀ (ps : List (Nat × W64 × Phys)) (u v : State), s.th.sc.mode = .L → s.th.tr.absent = false →
      s.th.tr.ctag ≠ 0#16 → wholeBeats .load (s.rd b) 64 s = (.ok ps, u) → u.tileBusy u.cur t = false →
      loadTile t ps u = (.ok (), v) →
      exec (.arst t b) s = (v.modVc v.curVc (fun x =>
        x.markOwner t.toNat s.th.tr.ctag s.th.id.vf)).retires) ∧
    (∀ (ps : List (Nat × W64 × Phys)) (u : State),
      let v := u.touchLines (ps.map (·.2.2)) (u.loadAlloc 4096) false
      v.cleanAt 64 ps = true →
      (let x := BitVec.ofNat 32768 (ps.foldl (fun x b => x + v.seen b.2.2 64 * 2 ^ (512 * b.1)) 0)
       readTile ps u = (.ok x, v) ∧
       loadTile t ps u = (.ok (), v.modVc v.curVc (fun y => y.setAcc t x)))) ∧
    (∀ (ps : List (Nat × W64 × Phys)) (u : State), u.tilePoison t (List.range 1024) = false →
      u.roomAll ps = true →
      storeTile t ps u = (.ok (), u.pushEntries (ps.map (fun b =>
        { beat := (0, b.1), kid := b.2.2.kid,
          bytes := writesOf b.2.2.loc (((leBytes 4096 (u.acc t).toNat).drop (64 * b.1)).take 64) }))
        (u.bigStore 4096) false))

/-- A matrix multiply whose checks pass, on a tile the thread may use and with the array its turn,
adds its rank-one steps to the tile in ascending order and holds the array, the thread waiting for
it; MMAS takes its rows from the set bits of its mask; with vl = 0 neither changes the tile and
both complete. That the operands of a spanned thread come from both dies is the model’s choice
(log entry 114). (R229, R230, R231, R232, R233) -/
def Obligations.MatrixMultiply : Prop :=
  ∀ (s : State) (a b p : BitVec 5),
    (∀ (t : BitVec 4) (q : Product) (body : M (Option Product)),
      body s = (.ok (some q), s) → s.owns t = true → (s.claimed t).arrayTurn = true →
      operandsClean t q (s.claimed t) = (.ok (), s.claimed t) → s.cv.cut = [] →
      s.matrix t body = .next (((((s.claimed t).multiply t q).clearMprog).modVc s.curVc (fun v =>
        { v with array := some (s.cur, t), lastArray := s.cur })).finish.modHw
          (fun h => { h with wait := some .array }))) ∧
    (∀ t : BitVec 4, s.vecOk [a] matrixType = true → (bWord (s.rd b).toNat).ku = 0 →
      s.bOk s.vt (bWord (s.rd b).toNat) (s.vl / 32) = true → s.vl ≠ 0 → s.owns t = true →
      (s.claimed t).arrayTurn = true →
      (let q : Product := { t := s.vt
                            a := a
                            w := bWord (s.rd b).toNat
                            kb := s.vl / 32
                            steps := (List.range (s.vl / 32)).map (fun i => (i, i)) }
       operandsClean t q (s.claimed t) = (.ok (), s.claimed t) → s.cv.cut = [] →
       exec (.mma t a b) s = .next (((((s.claimed t).multiply t q).clearMprog).modVc s.curVc (fun v =>
         { v with array := some (s.cur, t), lastArray := s.cur })).finish.modHw
           (fun h => { h with wait := some .array })))) ∧
    (∀ t : BitVec 4, s.vecOk [a] matrixType = true → p ≠ 0#5 → 1 ≤ (bWord (s.rd b).toNat).ku →
      (bWord (s.rd b).toNat).ku ≤ 4096 →
      s.bOk s.vt (bWord (s.rd b).toNat) (bWord (s.rd b).toNat).ku = true →
      (let ks := (List.range (bWord (s.rd b).toNat).ku).filter (fun k => (s.pred (s.predNo p)).getLsbD k)
       let q : Product := { t := s.vt
                            a := a
                            w := bWord (s.rd b).toNat
                            kb := (bWord (s.rd b).toNat).ku
                            steps := (List.range ks.length).zip ks }
       ks.length = s.vl / 32 → s.vl ≠ 0 → s.owns t = true → (s.claimed t).arrayTurn = true →
       operandsClean t q (s.claimed t) = (.ok (), s.claimed t) → s.cv.cut = [] →
       exec (.mmas t a b p) s = .next (((((s.claimed t).multiply t q).clearMprog).modVc s.curVc (fun v =>
         { v with array := some (s.cur, t), lastArray := s.cur })).finish.modHw
           (fun h => { h with wait := some .array })))) ∧
    (∀ t : BitVec 4, s.vecOk [a] matrixType = true → s.vl = 0 →
      ((bWord (s.rd b).toNat).ku = 0 → s.bOk s.vt (bWord (s.rd b).toNat) 0 = true →
        exec (.mma t a b) s = s.clearMprog.retires) ∧
      (p ≠ 0#5 → 1 ≤ (bWord (s.rd b).toNat).ku → (bWord (s.rd b).toNat).ku ≤ 4096 →
        s.bOk s.vt (bWord (s.rd b).toNat) (bWord (s.rd b).toNat).ku = true →
        (List.range (bWord (s.rd b).toNat).ku).filter (fun k => (s.pred (s.predNo p)).getLsbD k) = [] →
        exec (.mmas t a b p) s = s.clearMprog.retires))

/-- CBLD reads its rows, byte by byte as the thread sees them, and places element n of row k in column
n of the window, as bytes or as bit planes with zeros beyond the last row; CBFILL does the same
from a register group, writing nothing with vl = 0. The age 0 at which the reads of CBLD leave
their lines is the model’s reading (log entry 54), and that CBFILL takes the register of a spanned
thread from both dies is its choice (log entry 114). (R239, R240, R241, R71) -/
def Obligations.CalderaLoads : Prop :=
  ∀ (s : State) (a b p : BitVec 5),
    (∀ (sc : BitVec 5) (all : List (List (W64 × Phys × Nat))) (got : List (Nat × Nat)) (u v : State),
      let x := (s.rd sc).toNat
      let bt := bitsAt 2 15 x
      let bpl := bitsAt 3 17 x
      let kr := bitsAt 13 20 x
      let n := if bt = 0 then 2 else 1
      let span := if bt = 2 then (bpl + 1) * planeStride kr else kr * n
      s.th.sc.mode ≠ .S → s.th.tr.absent = false → bt ≠ 3 → (if bt = 2 then 1 ≤ bpl else bpl = 0) →
      1 ≤ kr → kr ≤ 4096 → bitsAt 15 0 x % (if bt = 2 then 64 else n) = 0 →
      s.inAcfg (bitsAt 15 0 x) span = true → (s.rd b).toNat % n = 0 → (kr < 2 ∨ x / 2 ^ 33 % n = 0) →
      (let rows := (List.range kr).map (fun k => (rowAddr (s.rd b) (BitVec.ofNat 64 (x / 2 ^ 33)) k, 32 * n))
       checkRows rows s = (.ok (), s) → checkCald (bitsAt 15 0 x) span s = (.ok (), s) →
       translateBy (fun u va => u.lanePlaces va.toNat) .load rows s = (.ok all, u) →
       readRows (s.rd b) (BitVec.ofNat 64 (x / 2 ^ 33)) 0 all u = (.ok got, v) →
       let rs : Table Nat := got.foldl (fun m q => tset 0 m q.1 q.2) []
       let el := fun k i => tget 0 rs k / 2 ^ (8 * (i * n)) % 2 ^ (8 * n)
       exec (.cbld sc b) s = (v.modVc v.curVc (fun y => y.putCald (
         if bt = 2 then planeWrites (bitsAt 15 0 x) (bpl + 1) kr el
         else (List.range 32).flatMap (fun i => (List.range kr).flatMap (fun k =>
           writesOf (caldAt i (bitsAt 15 0 x + k * n)) (leBytes n (el k i))))))).retires)) ∧
    (∀ (va : W64) (q : Phys) (n : Nat), let r := s.touch (runLines q.loc n) q.kid (fun _ => .age 0) false
      r.consumes q.loc n = false →
      readWide va [(q, n)] s = (.ok ((List.range n).map (fun k => r.readByte q.owner (q.loc + k))), r)) ∧
    (let x := (s.rd b).toNat
     let planes := s.vt.cls == 0
     let span := if planes then (s.vt.planes + 1) * planeStride (s.vl / 32) else s.vl / 32 * s.vt.size
     s.vecOk [a] fillType = true → x < 2 ^ 15 → s.vl % 32 = 0 →
     x % (if planes then 64 else s.vt.size) = 0 → (planes = true → p = 0#5) → s.inAcfg x span = true →
     s.vl ≠ 0 → checkCald x span s = (.ok (), s) →
     exec (.cbfill a b p) s = (s.modVc s.curVc (fun v => v.putCald (
       if planes then planeWrites x (s.vt.planes + 1) (s.vl / 32) (fun k n => s.elem a (32 * k + n))
       else (s.todo p).flatMap (fun e =>
         writesOf (caldAt (e % 32) (x + e / 32 * s.vt.size)) (leBytes s.vt.size (s.elem a e)))))).retires) ∧
    (let x := (s.rd b).toNat
     let planes := s.vt.cls == 0
     s.vecOk [a] fillType = true → x < 2 ^ 15 → s.vl = 0 →
     x % (if planes then 64 else s.vt.size) = 0 → (planes = true → p = 0#5) →
     s.inAcfg x (if planes then (s.vt.planes + 1) * planeStride 0 else 0) = true →
     exec (.cbfill a b p) s = s.retires)

/-- With a readable descriptor ECPY, ELDPC, EPOLAR and EENC write the submission code: 3 without an
engine, 2 for a node outside the partition, 0 once the thread has released, the locks of the
command are registered and it stands last in its engine’s queue; a full queue is waited for. EDGE
adds an edge and writes its code; ESTAT writes the node word; EWAIT writes it once the node is
free or finished, and otherwise waits; ECANCEL writes the word and cancels the node; a bit of the
operand above 15 traps ILLOP. (R243, R244, R93, R90, R245) -/
def Obligations.EnginesAndNodes : Prop :=
  ((∀ (s t u : State) (d a : BitVec 5) (desc : List Byte) (c : Nat),
        loadWide (s.rd a) 128 64 s = (.ok desc, t) →
        submit (some s.curTile) .copy false desc (copyDesc desc).node t = (.ok c, u) →
        exec (.ecpy d a) s = (u.wr d (BitVec.ofNat 64 c)).retires) ∧
  (∀ (s t u : State) (d a b : BitVec 5) (desc : List Byte), let x := (s.rd b).toNat
        let k : EngKind := .ldpc
        loadWide (s.rd a) 64 64 s = (.ok desc, t) → x = x % 16 + x / 256 % 2 * 256 →
        (∀ c : Nat, submit (s.chosenEngine k x) k false desc (codingNode k desc) t = (.ok c, u) →
          exec (.eldpc d a b) s = (u.wr d (BitVec.ofNat 64 c)).retires)) ∧
  (∀ (s t u : State) (d a b : BitVec 5) (desc : List Byte), let x := (s.rd b).toNat
        let k : EngKind := .polar
        loadWide (s.rd a) 64 64 s = (.ok desc, t) → x = x % 16 + x / 256 % 2 * 256 →
        (∀ c : Nat, submit (s.chosenEngine k x) k false desc (codingNode k desc) t = (.ok c, u) →
          exec (.epolar d a b) s = (u.wr d (BitVec.ofNat 64 c)).retires)) ∧
  (∀ (s t u : State) (d a b : BitVec 5) (desc : List Byte), let x := (s.rd b).toNat
        let k : EngKind := if kindBit desc then .polar else .ldpc
        loadWide (s.rd a) 64 64 s = (.ok desc, t) → x = x % 16 + x / 256 % 2 * 256 →
        (∀ c : Nat, submit (s.chosenEngine k x) k true desc (codingNode k desc) t = (.ok c, u) →
          exec (.eenc d a b) s = (u.wr d (BitVec.ofNat 64 c)).retires)) ∧
  (∀ (s : State) (k : EngKind) (e : Bool) (desc : List Byte) (node : BitVec 16),
        submit none k e desc node s = (.ok 3, s)) ∧
  (∀ (s : State) (n : Nat) (k : EngKind) (e : Bool) (desc : List Byte) (node : BitVec 16),
        node ≠ 0xFFFF#16 → s.nodeIn s.curPart node = false → submit (some n) k e desc node s = (.ok 2, s)) ∧
  (∀ (s u : State) (n : Nat) (k : EngKind) (e : Bool) (desc : List Byte) (node : BitVec 16),
        (node = 0xFFFF#16 ∨ s.nodeIn s.curPart node = true ∧ (s.node node).holds = false) →
        s.clear = true → s.drainAll = u →
        ((u.queue n).length < queueCap n → u.locksFit u.curTile (u.newCmd k e desc node).sides = true →
          submit (some n) k e desc node s = (.ok 0, u.enqueue n (u.newCmd k e desc node))) ∧
        (queueCap n ≤ (u.queue n).length →
          submit (some n) k e desc node s = (.error (.wait .engineRoom), u)))) ∧
  (∀ (s : State) (d a b : BitVec 5),
    ((s.rd a).toNat < 2 ^ 16 → (s.rd b).toNat < 2 ^ 16 →
      exec (.edge d a b) s = (let r := s.addEdge ((s.rd a).setWidth 16) ((s.rd b).setWidth 16)
        (r.2.wr d (BitVec.ofNat 64 r.1)).retires)) ∧
    ((s.rd a).toNat < 2 ^ 16 →
      exec (.estat d a) s = (s.wr d (BitVec.ofNat 64 (s.nodeWord ((s.rd a).setWidth 16)))).retires) ∧
    ((s.rd a).toNat < 2 ^ 16 →
      (s.nodeWord ((s.rd a).setWidth 16) = 0xFF ∨ (s.node ((s.rd a).setWidth 16)).st = .free ∨
        (s.node ((s.rd a).setWidth 16)).finished = true) →
      exec (.ewait d a) s = (s.wr d (BitVec.ofNat 64 (s.nodeWord ((s.rd a).setWidth 16)))).retires) ∧
    ((s.rd a).toNat < 2 ^ 16 → s.nodeWord ((s.rd a).setWidth 16) ≠ 0xFF →
      (s.node ((s.rd a).setWidth 16)).st ≠ .free → (s.node ((s.rd a).setWidth 16)).finished = false →
      exec (.ewait d a) s = s.awaits (.node ((s.rd a).setWidth 16))) ∧
    ((s.rd a).toNat < 2 ^ 16 →
      exec (.ecancel d a) s = (let w := s.nodeWord ((s.rd a).setWidth 16)
        ((if w = 0xFF then s else s.cancelNode ((s.rd a).setWidth 16)).wr d (BitVec.ofNat 64 w)).retires)) ∧
    (s.cv.many = false → 2 ^ 16 ≤ (s.rd a).toNat →
      exec (.estat d a) s = s.traps (plainTrap Cause.illop s.evalWord) ∧
      exec (.ewait d a) s = s.traps (plainTrap Cause.illop s.evalWord) ∧
      exec (.ecancel d a) s = s.traps (plainTrap Cause.illop s.evalWord)))

/-- VAMO replaces each element’s word at its home in element order and gives the old value; WDECL
opens a window, WUPD combines its elements into the lanes’ copies, WMERGE folds the copies into
the homes and empties them, WFREE gives the window up; after a discard the next WUPD, WMERGE or
WFREE traps ILLOP with the old base. (R246, R247, R248, R249, R250) -/
def Obligations.AtomicsAndWindows : Prop :=
  ∀ (s : State) (d a b p : BitVec 5),
    (∀ (u v c w : State) (o : BitVec 4) (ps : List (Nat × W64 × Phys)) (as : List (Nat × W64)),
      s.vecOk [d, b] (fun t => t.isIn [0, 1] && decide (2 ≤ t.sewE)) = true → o.toNat ≤ 9 →
      (o = 9#4 → d.toNat + 2 * s.vt.gm ≤ s.vt.nreg) → s.elemAddrs (s.rd a) p (s.indexOff b) = as →
      alignElems s.vt.size as s = (.ok (), s) → lockElems s.vt.size true as s = (.ok (), s) →
      translateAtomics (s.short as) s.vt.size s = (.ok { ok := ps, bad := [] }, u) →
      (ps = [] ∧ v = u ∨ ps ≠ [] ∧ u.bufHeld u.cur u.th.hw.buf = false ∧ v = u.drainAll) →
      atomicWaits ((v.performed ps).map (·.2.2)) s.vt.size v = (.ok (), v) →
      claimAll s.vt.size ((v.performed ps).map (·.2)) v = (.ok (), c) →
      (v.performed ps).foldl (fun t x =>
        let y := t.claim x.2.2.loc x.2.2.kid
        let old := y.seenAtHome x.2.2 s.vt.size
        let new := amoNew o.toNat s.vt.sew old (t.elem d x.1)
          (t.elemOf s.vt.gm s.vt.sew (d.toNat + s.vt.gm) x.1)
        (y.storeHome x.2.2.kid none (fun _ => .age 0)
          (writesOf x.2.2.loc (leBytes s.vt.size new))).putElem d x.1 old) c = w →
      exec (.vamo d a b p o) s = w.retires) ∧
    (let x := (s.rd b).toNat
     s.th.sc.mode ≠ .S → s.th.tr.absent = false → x < 2 ^ 15 → 8 ≤ winLen x → winLen x ≤ 1024 →
     winLen x % winWord x = 0 → s.th.hw.window = none → (s.rd a).toNat % 64 = 0 →
     s.lockHitVa (s.rd a) (winLen x) true = none → (∀ t : Nat, (s.tile t).locks.length < 64) →
     (s.homeRuns s.ctx (s.rd a) (winLen x)).all (fun r =>
       !s.windowLocked (some s.cur) r.1 (r.2 - r.1 + 1)) = true →
     ∃ u : State, exec (.wdecl a b) s = u.retires ∧
       u.th.hw.window =
         some { base := s.rd a, ctl := BitVec.ofNat 64 x, touched := [], discarded := false } ∧
       u.mem.winLocks = s.mem.winLocks ++ (s.homeRuns s.ctx (s.rd a) (winLen x)).map (fun r => (s.cur, r.1, r.2)) ∧
       u.mem.cells = s.mem.cells ∧ u.th.sc = s.th.sc ∧ u.th.vec = s.th.vec) ∧
    (∀ w : Window, let x := w.ctl.toNat
     let as := s.elemAddrs (s.rd a) p (s.indexOff b)
     s.th.hw.lostWindow = none → s.th.hw.window = some w → s.vecOk [d, b] (winType x) = true →
     as.all (fun e => decide ((e.2 - w.base).toNat + s.vt.size ≤ winLen x ∧ e.2.toNat % s.vt.size = 0)) = true →
     lockElems s.vt.size true as s = (.ok (), s) →
     exec (.wupd d a b p) s =
       (let r := (as.filter (fun e => s.performs e.1)).foldl (fun (acc : Table W64 × List (Nat × Nat)) e =>
          let q := touchCopy x acc.1 (copyKey (s.laneOf e.1) ((e.2 - w.base).toNat / s.vt.size)) (s.elem d e.1)
          (q.1, acc.2 ++ [(e.1, q.2)])) (w.touched, [])
        ((s.modHw (fun h => { h with window := some { w with touched := r.1 } })).mergeFlags r.2).retires)) ∧
    (∀ (w : Window) (ps : List (Phys × Nat)) (u c : State), let x := w.ctl.toNat
     let v := u.drainAll
     let work := (windowWords w ps).filterMap (fun q =>
       let cs := w.copies (8 * s.lg) q.1
       if cs.isEmpty then none else some (q.1, q.2, cs))
     s.th.sc.mode ≠ .S → s.th.tr.absent = false → s.th.hw.lostWindow = none → s.th.hw.window = some w →
     translateWideBy atomicRefused .store w.base (winLen x) 64 s = (.ok ps, u) → u.bufHeld u.cur u.th.hw.buf = false →
     atomicWaits (work.map (·.2.1)) (winWord x) v = (.ok (), v) →
     claimAll (winWord x) (work.map (fun q => (w.base + BitVec.ofNat 64 (q.1 * winWord x), q.2.1))) v =
       (.ok (), c) →
     exec .wmerge s =
       (let r := work.foldl (fun (acc : State × List (Nat × Nat)) q =>
          let y := acc.1.claim q.2.1.loc q.2.1.kid
          let o := foldCopies x (y.seenAtHome q.2.1 (winWord x)) q.2.2
          (y.storeHome q.2.1.kid none (fun _ => .age 0) (writesOf q.2.1.loc (leBytes (winWord x) o.val)),
            acc.2 ++ [(q.1, o.ev)])) (c, [])
        ((r.1.mergeFlags r.2).modHw (fun h =>
          { h with window := some { w with touched := [] } })).retires)) ∧
    (s.th.sc.mode ≠ .S → s.th.tr.absent = false → s.th.hw.lostWindow = none →
      exec .wfree s = (s.dropWindow s.cur false).retires) ∧
    (∀ old : W64, s.cv.many = false → s.th.sc.mode ≠ .S → s.th.tr.absent = false →
      s.th.hw.lostWindow = some old →
      exec (.wupd d a b p) s = (s.modHw (fun h => { h with lostWindow := none })).traps (plainTrap Cause.illop old) ∧
      exec .wmerge s = (s.modHw (fun h => { h with lostWindow := none })).traps (plainTrap Cause.illop old) ∧
      exec .wfree s = (s.modHw (fun h => { h with lostWindow := none })).traps (plainTrap Cause.illop old))

/-- RINST in S mode verifies and installs an image and writes its code, slot, cost and word; RFREE
frees a number or writes 1; both trap PRIV elsewhere; RCALL and RCALLV run a routine on the line
of each address, which no other thread’s window meets, and give its value, and a failed RCALL
traps SLICEERR after it completes. (R255, R256, R257, R258, R259) -/
def Obligations.SliceRoutines : Prop :=
  ∀ (s : State) (d a b p : BitVec 5),
    (∀ (t : State) (bs : List Byte), let x := (s.rd b).toNat
      let n := bitsAt 5 8 x + 1
      let ws := (List.range n).map (fun i => BitVec.ofNat 32 (leNat ((bs.drop (4 * i)).take 4)))
      let word := fun (code slot idx : Nat) =>
        BitVec.ofNat 64 (code + slot * 2 ^ 8 + (verifyImage ws).2 * 2 ^ 16 + idx * 2 ^ 24)
      s.th.sc.mode = .S → bitsAt 3 5 x = 0 → x < 2 ^ 13 → loadWide (s.rd a) (4 * n) 128 s = (.ok bs, t) →
      (∀ code idx : Nat, (verifyImage ws).1 = some (code, idx) →
        exec (.rinst d a b) s = (t.wr d (word code 0 idx)).retires) ∧
      ((verifyImage ws).1 = none → (t.vf t.th.id.vf.toNat).routine (x % 16) ≠ 64 → x.testBit 4 = false →
        exec (.rinst d a b) s = (t.wr d (word 1 0 0)).retires) ∧
      (∀ slot : Nat, (verifyImage ws).1 = none →
        ((t.vf t.th.id.vf.toNat).routine (x % 16) = 64 ∨ x.testBit 4 = true) →
        (t.part t.curPart).freeSlot = some slot →
        (t.part t.curPart).slotsUsed t.th.id.vf < (t.vf t.th.id.vf.toNat).slrMax.toNat →
        exec (.rinst d a b) s =
          ((t.install t.th.id.vf (x % 16) slot ws).wr d (word 0 slot 0)).retires)) ∧
    (s.th.sc.mode = .S → (s.rd b).toNat < 16 →
      (let slot := (s.vf s.th.id.vf.toNat).routine (s.rd b).toNat
       (slot = 64 → exec (.rfree d b) s = (s.wr d 1).retires) ∧
       (slot ≠ 64 → exec (.rfree d b) s =
         (((s.modVf s.th.id.vf.toNat (fun f => { f with rmap := tset 64 f.rmap (s.rd b).toNat 64 })).modPart
           s.curPart (fun q => { q with routines := tset Routine.reset q.routines slot Routine.reset })).wr
             d 0).retires))) ∧
    (s.cv.many = false → s.th.sc.mode ≠ .S →
      exec (.rinst d a b) s = s.traps (plainTrap Cause.priv s.evalWord) ∧
      exec (.rfree d b) s = s.traps (plainTrap Cause.priv s.evalWord)) ∧
    (∀ (u v r w : State) (q : Phys) (wrote : Bool), let n := (s.rd (a + 1)).toNat
      let slot := (s.vf s.th.id.vf.toNat).routine n
      a ≠ 31#5 → n < 16 → slot ≠ 64 → s.bufHeld s.cur s.th.hw.buf = false → s.drainAll = u →
      checkLine (s.rd a) u = (.ok (), u) → translateAtomic (s.rd a) 1 u = (.ok q, v) → isDevice q.loc = true →
      v.homeFree q.line 128 = true → holdLines [(s.rd a, q)] v = (.ok (), r) →
      (∀ x : W64, r.callSlice r.curPart slot q (s.rd d) (s.rd b) = (.ret x, wrote, w) →
        exec (.rcall d a b) s = (w.wr d x).retires) ∧
      (∀ code idx : Nat, r.callSlice r.curPart slot q (s.rd d) (s.rd b) = (.fail code idx, wrote, w) →
        w.cv.many = false →
        exec (.rcall d a b) s =
          w.traps { plainTrap Cause.sliceerr (sliceVal code idx wrote n 0) with next := true })) ∧
    (∀ (u v r w : State) (ps : List (Nat × W64 × Phys)) (as : List (Nat × W64)), let n := (s.rd (a + 1)).toNat
      let slot := (s.vf s.th.id.vf.toNat).routine n
      s.vecOk [d, b] (fun t => t.isIn [0, 1] && decide (t.sewE = 3)) = true →
      d.toNat + 2 * s.vt.gm ≤ s.vt.nreg → a ≠ 31#5 → n < 16 →
      s.elemAddrs (s.rd a) p (s.indexOff b) = as →
      (as = [] → exec (.rcallv d a b p) s = s.retires) ∧
      (as ≠ [] → slot ≠ 64 → (∀ x ∈ as, checkLine x.2 s = (.ok (), s)) →
        translateAtomicsChecked checkLineHome as s = (.ok { ok := ps, bad := [] }, u) →
        ps.all (fun x => isDevice x.2.2.loc) = true → u.bufHeld u.cur u.th.hw.buf = false → u.drainAll = v →
        holdLines ((v.performed ps).map (·.2)) v = (.ok (), r) →
        callAll slot d.toNat s.vt.gm (v.performed ps) r = (.ok [], w) →
        exec (.rcallv d a b p) s = w.retires))

/-- TWCHK and TWCONF check and confirm each active element in order, write its result word, and trap
TWATCH after they complete when a TRAP entry won; TWSET installs an entry or starts a sequence,
with SKIP reading no image, or writes its refusal code 1, 2, 3 or 4, TWCLR clears or writes 1, 2
or 4, and TWREAD reads. (R382, R384, R386, R389, R390, R391) -/
def Obligations.WatchUnit : Prop :=
  ∀ (s : State) (d a b p : BitVec 5),
    (∀ u : State, s.vecOk [d, a, b] (fun t => t.isIn [0, 1] && decide (t.sewE = 3)) = true →
      rangesMeet d.toNat s.vt.gm a.toNat s.vt.gm = false → rangesMeet d.toNat s.vt.gm b.toNat s.vt.gm = false →
      s.rangesHeld (some s.cur) (s.forkRanges u s.th.id.vf.toNat) = false →
      (s.watchAll (fun u => u.checkOne s.th.id.vf.toNat) d a b (s.actives p) = ([], u) →
        exec (.twchk d a b p) s = u.retires) ∧
      (∀ (e : Nat) (l : List Nat), u.cv.many = false →
        s.watchAll (fun u => u.checkOne s.th.id.vf.toNat) d a b (s.actives p) = (e :: l, u) →
        exec (.twchk d a b p) s = (u.setPred 95 (maskOf (e :: l))).traps
          { plainTrap Cause.twatch (BitVec.ofNat 64 (e + (l.length + 1) * 2 ^ 16)) with next := true
                                                                                        pfw := true })) ∧
    (∀ u : State, s.vecOk [d, a, b] (fun t => t.isIn [0, 1] && decide (t.sewE = 3)) = true →
      rangesMeet d.toNat s.vt.gm a.toNat s.vt.gm = false → rangesMeet d.toNat s.vt.gm b.toNat s.vt.gm = false →
      s.rangesHeld (some s.cur) (s.forkRanges u s.th.id.vf.toNat) = false →
      (s.watchAll (fun u => u.confirmOne s.th.id.vf.toNat) d a b (s.actives p) = ([], u) →
        exec (.twconf d a b p) s = u.retires) ∧
      (∀ (e : Nat) (l : List Nat), u.cv.many = false →
        s.watchAll (fun u => u.confirmOne s.th.id.vf.toNat) d a b (s.actives p) = (e :: l, u) →
        exec (.twconf d a b p) s = (u.setPred 95 (maskOf (e :: l))).traps
          { plainTrap Cause.twatch (BitVec.ofNat 64 (e + (l.length + 1) * 2 ^ 16)) with next := true
                                                                                        pfw := true })) ∧
    (∀ (t : State) (bs : List Byte), let x := (s.rd b).toNat
      let q := x % 2 ^ 16
      let image := BitVec.ofNat 256 (leNat bs)
      x &&& 0x37FFFF = x →
      (if x.testBit 21 then t = s ∧ bs = [] else loadWide (s.rd a) 32 32 s = (.ok bs, t)) →
      (let vf := t.th.id.vf.toNat
       ((t.vf vf).wsCount.toNat ≤ q → exec (.twset d a b) s = (t.wr d 1).retires) ∧
       (q < (t.vf vf).wsCount.toNat → x.testBit 20 = false → (t.seq vf q).inuse = false →
         exec (.twset d a b) s = (t.wr d 2).retires) ∧
       (q < (t.vf vf).wsCount.toNat → (x.testBit 20 = true ∨ (t.seq vf q).inuse = true) → x.testBit 21 = false →
         entryOk image = false → exec (.twset d a b) s = (t.wr d 3).retires) ∧
       (q < (t.vf vf).wsCount.toNat → x.testBit 20 = false → (t.seq vf q).inuse = true →
         (x.testBit 21 = true ∨ entryOk image = true) → (t.seq vf q).drafts ≠ [] →
         exec (.twset d a b) s = (t.wr d 4).retires) ∧
       (q < (t.vf vf).wsCount.toNat → x.testBit 20 = true → x.testBit 21 = true →
         exec (.twset d a b) s = ((t.modSeq vf q (fun _ => Seq.init)).wr d 0).retires) ∧
       (q < (t.vf vf).wsCount.toNat → x.testBit 20 = false → x.testBit 21 = true →
         (t.seq vf q).inuse = true → (t.seq vf q).drafts = [] →
         exec (.twset d a b) s = (t.wr d 0).retires) ∧
       (q < (t.vf vf).wsCount.toNat → x.testBit 20 = true → x.testBit 21 = false → entryOk image = true →
         exec (.twset d a b) s = (((t.modSeq vf q (fun _ => Seq.init)).modSeq vf q (fun y =>
           { y with entries := tset 0 y.entries (bitsAt 3 16 x) image })).wr d 0).retires) ∧
       (q < (t.vf vf).wsCount.toNat → x.testBit 20 = false → x.testBit 21 = false →
         (t.seq vf q).inuse = true → (t.seq vf q).drafts = [] → entryOk image = true →
         exec (.twset d a b) s = ((t.modSeq vf q (fun y =>
           { y with entries := tset 0 y.entries (bitsAt 3 16 x) image })).wr d 0).retires))) ∧
    (let x := (s.rd b).toNat
     let q := x % 2 ^ 16
     let vf := s.th.id.vf.toNat
     x &&& 0x17FFFF = x →
     ((x.testBit 20 = false ∨ bitsAt 3 16 x = 0) → (s.vf vf).wsCount.toNat ≤ q →
       exec (.twclr d b) s = (s.wr d 1).retires) ∧
     ((x.testBit 20 = false ∨ bitsAt 3 16 x = 0) → q < (s.vf vf).wsCount.toNat → (s.seq vf q).inuse = false →
       exec (.twclr d b) s = (s.wr d 2).retires) ∧
     (x.testBit 20 = false → q < (s.vf vf).wsCount.toNat → (s.seq vf q).inuse = true →
       (s.seq vf q).drafts ≠ [] → exec (.twclr d b) s = (s.wr d 4).retires) ∧
     (x.testBit 20 = true → bitsAt 3 16 x = 0 → q < (s.vf vf).wsCount.toNat → (s.seq vf q).inuse = true →
       exec (.twclr d b) s = ((s.modSeq vf q (fun _ => Seq.reset)).wr d 0).retires) ∧
     (x.testBit 20 = false → q < (s.vf vf).wsCount.toNat → (s.seq vf q).inuse = true →
       (s.seq vf q).drafts = [] → exec (.twclr d b) s = ((s.modSeq vf q (fun y =>
         { y with entries := tset 0 y.entries (bitsAt 3 16 x) 0 })).wr d 0).retires)) ∧
    (let x := (s.rd a).toNat
     x < 2 ^ 23 → bitsAt 4 16 x ≤ 9 →
     exec (.twread d a) s = (s.wr d (BitVec.ofNat 64
       (if bitsAt 4 16 x = 9 then (s.vf s.th.id.vf.toNat).wnote.toNat
        else if (s.vf s.th.id.vf.toNat).wsCount.toNat ≤ x % 2 ^ 16 then 2 ^ 64 - 1
        else (s.seq s.th.id.vf.toNat (x % 2 ^ 16)).read (bitsAt 4 16 x) (bitsAt 3 20 x)))).retires)

/-- FRAMECMD assigns free data frames, starts and completes the release of unmapped ones, answers a
query, refuses with STATUS 2 or 3, and is ignored while GO is 1; MAPCMD writes an accepted entry,
starts a removal, reads an entry, and the removal completes, and the write that asked for it
follows or is refused, once no store is on its way (log entry 36); a written entry has MIG clear
(log entry 64). (R31, R32, R34, R43, R44) -/
def Obligations.FrameAndMapCommands : Prop :=
  ∀ (s : State) (frame : BitVec 31) (kid : BitVec 9) (count : BitVec 4) (gfn : BitVec 19) (vf : BitVec 9),
    (let fs := framesOf frame count
     s.hub.fcGo = false → fs.all s.isDataFrame = true → fs.all s.assignable = true →
     exec (.frameAssign frame kid count) s =
       .next ((fs.foldl (fun t f =>
         (t.modFrame f (fun _ => { st := .assigned, kid := kid, maps := 0 })).modMem (fun m =>
           { m with cells := dropRange m.cells (f * 2 ^ 21) (2 ^ 21) })) s).modHub
         (fun h => h.frameCmd frame kid count 1 0 false))) ∧
    (let fs := framesOf frame count
     s.hub.fcGo = false → fs.all s.isDataFrame = true → fs.all s.releasable = true →
     exec (.frameRelease (frame, kid) count) s =
       .next ((s.startRelease fs).modHub (fun h => h.frameCmd frame kid count 2 1 true))) ∧
    (let fs := framesOf frame count
     s.hub.fcGo = false → fs.all s.isDataFrame = true →
     (fs.all s.assignable = false → exec (.frameAssign frame kid count) s =
       .next (s.modHub (fun h => h.frameCmd frame kid count 1 2 false))) ∧
     (fs.all s.releasable = false → exec (.frameRelease (frame, kid) count) s =
       .next (s.modHub (fun h => h.frameCmd frame kid count 2 2 false)))) ∧
    (s.hub.fcGo = false → s.isDataFrame frame.toNat = true →
     exec (.frameQuery (frame, kid, count)) s = .next (s.modHub (fun h =>
       { h with fcFrame := frame, fcOp := 3, fcStatus := 0, fcGo := false,
                fcKid := if (s.frame frame.toNat).st = .free then 0 else (s.frame frame.toNat).kid,
                fcCount := BitVec.ofNat 4 (min 15 (s.frame frame.toNat).maps),
                fcState := match (s.frame frame.toNat).st with
                  | .free => 0
                  | .assigned => 1
                  | .releasing => 2 }))) ∧
    (s.hub.fcGo = false → s.isDataFrame frame.toNat = false →
     exec (.frameQuery (frame, kid, count)) s =
       .next (s.modHub (fun h => h.frameCmd frame kid count 3 3 false))) ∧
    (s.hub.fcGo = true →
     exec (.frameAssign frame kid count) s = .next s ∧ exec (.frameRelease (frame, kid) count) s = .next s ∧
     exec (.frameQuery (frame, kid, count)) s = .next s) ∧
    (let fs := framesOf s.hub.fcFrame s.hub.fcCount
     s.hub.fcGo = true → s.hub.fcOp = 2#3 → s.sweepDone fs = true →
     exec .releaseComplete s =
       .next ((fs.foldl State.freeFrame s).modHub (fun h => { h with fcStatus := 0, fcGo := false }))) ∧
    (let e := s.hub.mapEnt &&& ~~~ 0x8000#64
     s.hub.mcGo = false → vf.toNat < 384 → e.getLsbD 0 = true → st2Reserved e = false →
     (s.entryAccepted e = false →
       exec (.mapWrite gfn vf) s = .next (s.modHub (fun h => h.mapCmd gfn vf 1 2 false false))) ∧
     (s.entryAccepted e = true → (s.st2Entry vf.toNat gfn.toNat).getLsbD 0 = false →
       exec (.mapWrite gfn vf) s =
         .next (((s.setSt2 vf.toNat gfn.toNat e).countMap e true).modHub
           (fun h => h.mapCmd gfn vf 1 0 false false))) ∧
     (s.entryAccepted e = true → (s.st2Entry vf.toNat gfn.toNat).getLsbD 0 = true →
       exec (.mapWrite gfn vf) s =
         .next ((s.setSt2 vf.toNat gfn.toNat (s.st2Entry vf.toNat gfn.toNat &&& ~~~ 1#64)).modHub
           (fun h => { h.mapCmd gfn vf 1 1 true true with mcImage := e })))) ∧
    (s.hub.mcGo = false → vf.toNat < 384 → (s.st2Entry vf.toNat gfn.toNat).getLsbD 0 = true →
     exec (.mapRemove gfn vf) s =
       .next ((s.setSt2 vf.toNat gfn.toNat (s.st2Entry vf.toNat gfn.toNat &&& ~~~ 1#64)).modHub
         (fun h => h.mapCmd gfn vf 2 1 true false))) ∧
    (s.hub.mcGo = false → vf.toNat < 384 →
     exec (.mapRead gfn vf) s = .next (s.modHub (fun h =>
       { h.mapCmd gfn vf 3 0 false false with mapEnt := s.st2Entry vf.toNat gfn.toNat }))) ∧
    (let v := s.hub.mcVf.toNat
     let g := s.hub.mcGfn.toNat
     let e := s.hub.mcImage
     let done := fun (t : State) (n : BitVec 3) =>
       t.modHub (fun h => { h with mcStatus := n, mcGo := false, mcReplace := false })
     s.hub.mcGo = true → s.unmapWaits v g = false →
     (s.hub.mcReplace = false → exec .removalComplete s = .next (done (s.endUnmap v g) 0)) ∧
     (s.hub.mcReplace = true → s.entryAccepted e = true →
       exec .removalComplete s = .next (done ((s.endUnmap v g).mapEntry v g e) 0)) ∧
     (s.hub.mcReplace = true → s.entryAccepted e = false →
       exec .removalComplete s = .next (done (s.setSt2 v g (s.st2Entry v g ||| 1#64)) 2)))

/-- MIGPUSH fills a function’s pool; a migration sets MIG and moves the range at its completion (log
entry 65) with a notice once the host holds none of it, and without a usable pool frame clears MIG
and empties the pool (log entry 104); the access counters halve; a walk fills the tile’s TLBs once
the thread’s stores and the line allow its update; an invalidation drops the entries it names,
once no access waits for it (log entry 35; that a partition has one s1inv register with one BUSY
is the model’s choice, log entry 115); fault-queue registers are written; an L2 fill under the key
that the line’s frame is assigned to allocates, or after a MAC failure fails the owning functions
and stops what reads the line, and under another key does nothing; a write-back cleans a line.
(R52, R53, R40, R54, R51, R49, R29, R56) -/
def Obligations.MigrationAndTranslation : Prop :=
  ∀ (s : State) (n : Nat) (gfn : BitVec 19) (frame : BitVec 31),
    (exec (.migpush n frame) s = .next (
      let x := s.frame frame.toNat
      let ok := x.st == .assigned && (s.vf n).uses x.kid.toNat &&
        !(s.vfs.any (fun e => e.2.pool.contains frame)) && decide ((s.vf n).pool.length < 64)
      let units := (s.mem.st2.filter (fun e => e.1 / 2 ^ 19 == n && st2Home e.2)).flatMap (fun e => unitsOf e.2)
      (if ok && s.poolEmpty n then s.modMem (fun m =>
        { m with recent := m.recent.filter (fun u => !units.contains u) }) else s).modVf n (fun f =>
        { f with mpFrame := frame, mpErr := !ok, pool := if ok then f.pool ++ [frame] else f.pool }))) ∧
    (s.canMigrate n gfn.toNat = true →
      ∃ t : State, exec (.migrate n gfn) s = .next t ∧
        t.st2Entry n gfn.toNat = s.st2Entry n gfn.toNat ||| 0x8000#64 ∧ t.mem.cells = s.mem.cells) ∧
    (∀ (f : BitVec 31) (r : List (BitVec 31)), let g := gfn.toNat
      let e := s.st2Entry n g
      let kid := (s.frame f.toNat).kid.toNat
      let src := hostBase + st2Frame e * 2 ^ 21
      let dst := f.toNat * 2 ^ 21
      let new := BitVec.ofNat 64 (bitsAt 4 0 e.toNat + kid * 2 ^ 5 + bit (e.getLsbD 14) 14 + f.toNat * 2 ^ 21)
      let t := (((((s.copyRange src dst kid).setSt2 n g new).dropSt2 n g).countMap new true).modVf n
        (fun v => { v with pool := r })).postNotice (st2Frame e) n g f.toNat
      (s.vf n).pool.dropWhile (fun f => !s.poolFrameOk n f) = f :: r → e.getLsbD 15 = true →
      s.heldRange src (2 ^ 21) = [] → s.heldRange dst (2 ^ 21) = [] → s.hub.noticeOn = true → s.hub.noticeFull = false →
      exec (.migrationComplete n gfn) s = .next
        { t with
          th := t.th.moveRange src dst kid
          slots := t.slots.map (fun x => (x.1, x.2.moveRange src dst kid)) }) ∧
    (let e := s.st2Entry n gfn.toNat
      let src := hostBase + st2Frame e * 2 ^ 21
      e.getLsbD 15 = true →
      (s.heldRange src (2 ^ 21) ≠ [] →
        exec (.migrationComplete n gfn) s = .next (s.callBack [(src, 2 ^ 21)])) ∧
      (s.heldRange src (2 ^ 21) = [] → (∀ f ∈ (s.vf n).pool, s.poolFrameOk n f = false) →
        exec (.migrationComplete n gfn) s = .next ((s.setSt2 n gfn.toNat (e &&& ~~~ 0x8000#64)).modVf n
          (fun f => { f with pool := [] })))) ∧
    (exec .counterHalving s = .next (s.modMem (fun m =>
      { m with access := (m.access.map (fun e =>
          if s.keepsCount e.1 then e else (e.1, e.2 / 2))).filter (fun e => decide (e.2 ≠ 0)) }))) ∧
    (∀ (slot : Nat) (va : W64) (acc : Access) (x : Xlat), (s.thread slot).hw.occ = true →
      s.walk (s.ctxOf slot) acc va = .ok x →
      (x.pte = none ∨ (s.thread slot).hw.buf = [] ∧ (s.thread slot).hw.trains = []) → s.updateHeld x = none →
      (asksTwin acc x = false →
        exec (.pageWalk slot va acc) s = .next (s.applyXlat [.scalar (vcOf slot), .tile (tileOf slot)] x)) ∧
      (asksTwin acc x = true → exec (.pageWalk slot va acc) s = .next (if s.twinFails then s.bump
        else s.bump.applyXlat [.scalar (vcOf slot), .tile (tileOf slot)] x))) ∧
    (∀ data : W64, s.th.hw.occ = true → s.th.sc.mode = .S → (s.part s.curPart).invBusy = false →
      exec (.s1invWrite s.cur data) s =
        .next (((s.switchTo s.cur).csrSet 0x201 data.toNat).switchTo s.cur)) ∧
    ((s.part n).invBusy = true → s.invWaits n = false →
      ∃ t : State, exec (.s1invComplete n) s = .next t ∧ (t.part n).invBusy = false ∧
        (∀ e ∈ t.mem.tlbs, e ∈ s.mem.tlbs ∧
          ((s.part n).table.tiles.contains e.1.tileNo = true → (s.part n).drops e.2 = false))) ∧
    (∀ data : W64, exec (.fqcfgWrite n data) s =
      .next (s.modPart n (fun p => p.writeFqcfg data.toNat)) ∧
      exec (.fqheadWrite n data) s = .next (s.writeFqhead n data.toNat)) ∧
    (∀ (line kid m key lv : Nat) (p q : Part), s.l2Set (line * 128) = some (q, key) →
      s.partOfPa (line * 128) = some (m, p) → (tget [] s.mem.l2 key).any (fun w => w.line == line) = false →
      (let fails := fun vfs : List Nat => ((vfs.foldl State.failFunction s).modHub
         (fun h => { h with macCount := h.macCount + 1 })).poisonLine line
       let mine := (s.vfs.filter (fun e => e.2.part != 31#5 && e.2.kid.toNat == kid)).map (·.1)
       let good := s.mem.macGood kid (line * 128) && s.mem.macGood kid (line * 128 + 64)
       let t := if good then s.l2Access (line * 128) kid (.age 0) false else fails mine
       let f := s.frame (line * 128 / 2 ^ 21)
      (∀ x : MacOutcome, (f.st ≠ .assigned ∨ f.kid.toNat ≠ kid) → exec (.l2Fill line kid x) s = .next s) ∧
      (f.st = .assigned → f.kid.toNat = kid →
      exec (.l2Fill line kid .good) s = .next t ∧
      exec (.l2Fill line kid .corrected) s = .next (t.modHub (fun h => { h with eccCount := h.eccCount + 1 })) ∧
      (s.zeroLine line = false → exec (.l2Fill line kid .dataLine) s = .next
        (fails mine)) ∧
      (s.zeroLine line = true → exec (.l2Fill line kid .dataLine) s = .next s) ∧
      ((∃ x ∈ s.uncached p (line * 128), x.level = lv) → exec (.l2Fill line kid (.counterNode lv)) s = .next
        (fails (s.ownersUnder m lv (counterIndex p (line * 128) / 8 ^ lv) p)))))) ∧
    (∀ (line m : Nat) (p : Part) (w : L2Way), let sl := sliceOf p.table (line * 128)
      let key := sl.1 * 1024 + sl.2
      let ways := tget [] s.mem.l2 key
      s.partOfPa (line * 128) = some (m, p) → ways.find? (fun x => x.line == line && x.dirty) = some w →
      exec (.l2Writeback line) s = .next ((s.modMem (fun m =>
        { m with l2 := tset [] m.l2 key (ways.map (fun x =>
            if x.line = line then { x with dirty := false } else x)) })).writeback line w.kid))

/-- A section is placed in each region that accepts it (log entry 66) or counted, and in sideshow
leaves by the paired port; the end of a slot signals its node; IRCTL and FLCTL enable, disable or
refuse; a descriptor is fetched, dropped (where its payload does not translate or the twin refuses
it, by FLCTL too, log entry 69; poison in its flow, log entry 120) or counted late; a message
leaves at its time, with its port’s address, unless its port’s rate limit (a unit the model
chooses, log entry 106) holds it back; an uncorrectable error poisons a word, in a dirty line a
free choice of word, and the corrected ones before it are counted, a free number (log entry 137).
That a refused IRCTL or FLCTL write keeps the other fields is the model’s choice (log entry 130),
and so is PORTUNM as the counter of an eAxC outside every region (log entry 131). (R63, R64, R66,
R67, R68, R70, R75) -/
def Obligations.FronthaulAndErrors : Prop :=
  ∀ s : State,
    (∀ (port eaxc fr sf sl sym sp np comp time : Nat) (prbs : List Byte) (s1 : State), s.atTime time = some s1 →
      (s.hub.bootDone = false →
        exec (.ingestSection port eaxc fr sf sl sym sp np comp time prbs) s = .next (s1.bridge port
          { eaxc := eaxc, frameId := fr, subframe := sf, slotId := sl, symbol := sym, startPrb := sp,
            numPrb := np, comp := comp, time := time, prbs := prbs })) ∧
      (s.hub.bootDone = true → s1.regionsFor port eaxc = [] →
        exec (.ingestSection port eaxc fr sf sl sym sp np comp time prbs) s = .next (s1.modHub (fun h =>
          { h with portUnm := tset 0 h.portUnm port (tget 0 h.portUnm port + 1) }))) ∧
      (s.hub.bootDone = true → s1.regionsFor port eaxc ≠ [] →
        exec (.ingestSection port eaxc fr sf sl sym sp np comp time prbs) s = .next
          ((s1.regionsFor port eaxc).foldl (fun t r => t.ingest r.1 r.2
            { eaxc := eaxc, frameId := fr, subframe := sf, slotId := sl, symbol := sym, startPrb := sp,
              numPrb := np, comp := comp, time := time, prbs := prbs }) s1))) ∧
    (∀ (tile region sl time : Nat) (s1 : State), let r := (s.tile tile).region region
      s.atTime time = some s1 → r.en = true → r.seen.contains sl = true →
      symbolStart r.mu.toNat sl 13 time + (r.late.toNat * 64 : Nat) < time →
      exec (.slotClose tile region sl time) s = .next ((s1.modRegion tile region (fun r =>
        { r with seen := r.seen.filter (fun x => x != sl) })).signalNode r.node)) ∧
    (∀ (tile region : Nat) (data : W64), let r := ((s.tile tile).region region).write data.toNat
      (data.getLsbD 0 = false →
        exec (.irctlWrite tile region data) s = .next (s.modRegion tile region (fun _ =>
          { r with en := false }))) ∧
      (data.getLsbD 0 = true → s.hub.bootDone = true → (s.tile tile).regionOk region r = true →
        exec (.irctlWrite tile region data) s = .next (s.modRegion tile region (fun _ =>
          { r with en := true, err := false, lateCnt := 0, earlyCnt := 0, fmtCnt := 0, seen := [] }))) ∧
      (data.getLsbD 0 = true → (s.tile tile).regionOk region r = false →
        exec (.irctlWrite tile region data) s = .next (s.modRegion tile region (fun _ =>
          { r with en := false, err := true })))) ∧
    (∀ (n : Nat) (data : W64), let f := (s.flow n).write data.toNat
      (data.getLsbD 0 = false →
        exec (.flctlWrite n data) s = .next ((s.removeFlow n).modFlow n (fun f => f.write data.toNat))) ∧
      (data.getLsbD 0 = true → s.flowOk n f = true → s.poisoned f.header 8 = true →
        exec (.flctlWrite n data) s = .next ((s.modFlow n (fun _ =>
          { f with en := false, err := false, ready := [] })).macFailure [f.vf.toNat])) ∧
      (data.getLsbD 0 = true → s.flowOk n f = true → s.poisoned f.header 8 = false →
        exec (.flctlWrite n data) s = .next ((s.modFlow n (fun _ =>
          { f with en := true, err := false, sent := 0, lateCnt := 0, drop := 0, ready := [] })).poke
          (f.header + 8) 0 (leBytes 8 (s.flowTail f)))) ∧
      (data.getLsbD 0 = true → s.flowOk n f = false →
        exec (.flctlWrite n data) s = .next ((s.removeFlow n).modFlow n (fun f =>
          { f.write data.toNat with en := false, err := true })))) ∧
    (∀ (n time : Nat) (s1 : State), let f := s.flow n
      let i := s.flowHead f
      let d := s.peekNat (f.header + 64 + i % 2 ^ f.logn.toNat * 32) 32
      let ps := s.defaultPlaces f.vf.toNat .load (BitVec.ofNat 64 (bitsAt 64 64 d)) (txNum d * f.bytesPerPrb)
      let gone := fun (t : State) => (t.modFlow n (fun f => { f with drop := sat16 f.drop 1 })).advanceFlow f
      let turned := fun (q : List (W64 × Nat × Xlat)) => gone (s1.twinAsked .load q)
      let late := if s1.hub.bootDone then decide (txTime d + 10000 < time) else decide (3 * txTime d + 80000 < 3 * time)
      s.atTime time = some s1 → f.en = true → f.ready = [] → s.flowTail f ≠ i →
      s.poisoned f.header 16 = false →
      s.poisoned (f.header + 64 + i % 2 ^ f.logn.toNat * 32) 32 = false →
      (txOk d = false → exec (.egressFetch n time) s = .next (gone s1)) ∧
      (txOk d = true → ps = none → exec (.egressFetch n time) s = .next (
        if s.defaultMac f.vf.toNat .load (BitVec.ofNat 64 (bitsAt 64 64 d)) (txNum d * f.bytesPerPrb) then
          (gone s1).macFailure [f.vf.toNat]
        else gone s1)) ∧
      (∀ q, txOk d = true → ps = some q → late = true → exec (.egressFetch n time) s = .next (
        if s1.runsRefused .load q then turned q
        else (s1.modFlow n (fun f => { f with lateCnt := sat16 f.lateCnt 1 })).advanceFlow f)) ∧
      (∀ q, txOk d = true → ps = some q → late = false → s1.updatesHeld q ≠ [] → exec (.egressFetch n time) s =
        .next (if s1.runsRefused .load q then turned q else s1.callBack (s1.updatesHeld q))) ∧
      (∀ (q : List (W64 × Nat × Xlat)) (t : State), txOk d = true → ps = some q → late = false →
        s1.updatesHeld q = [] →
        q.foldl (fun t p => (t.applyXlat [] p.2.2).touch (runLines p.2.2.phys.loc p.2.1) p.2.2.phys.kid
          (fun _ => .age 0) false) (s1.twinAsked .load q) = t →
        (q.any (fun p => t.poisoned p.2.2.phys.loc p.2.1) = false →
          exec (.egressFetch n time) s = .next (if s1.runsRefused .load q then turned q
            else t.modFlow n (fun f => { f with ready := [(txTime d, d / 2 ^ 128, t.bytesAt q)] }))) ∧
        (q.any (fun p => t.poisoned p.2.2.phys.loc p.2.1) = true →
          exec (.egressFetch n time) s = .next (if s1.runsRefused .load q then turned q
            else (gone t).macFailure [f.vf.toNat])))) ∧
    (∀ (n time tx w : Nat) (payload : List Byte) (rest : List (Nat × Nat × List Byte)) (s1 : State),
      let f := s.flow n
      s.atTime time = some s1 → f.ready = (tx, w, payload) :: rest → f.en = true → tx ≤ time →
      (∀ e ∈ s.flows, e.2.en = true → e.2.port = f.port → ∀ x ∈ e.2.ready.head?, tx ≤ x.1) →
      (time < tget 0 s.hub.portFree f.port.toNat → exec (.egressTransmit n time) s = .next s) ∧
      (tget 0 s.hub.portFree f.port.toNat ≤ time → exec (.egressTransmit n time) s =
        (let rate := tget 0 s.hub.portRate f.port.toNat
         let busy := if rate = 0 then 0 else ceilDiv (payload.length * 1000) rate
         let u := s1.modHub (fun h => { h with portFree := tset 0 h.portFree f.port.toNat (time + busy) })
         let m := f.message (tget 0 s.hub.portMac f.port.toNat) w payload
         .next (({ u with sent := m :: s1.sent }.modFlow n (fun f =>
               { f with ready := rest, sent := f.sent + 1 })).advanceFlow f)))) ∧
    (let u := (s.modHub (fun h => { h with eccCount := h.eccCount + Config.freeNat s.free })).bump
     (∀ line : Nat, s.dirtyLine line = true → exec (.uncorrectableError (.l2Line line)) s =
        .next ((u.poisonWord (line * 16 + Config.freeNat u.free % 16)).bump)) ∧
      (∀ line : Nat, s.dirtyLine line = false → exec (.uncorrectableError (.l2Line line)) s = .next u) ∧
      (∀ loc : Nat, isScratch loc = true →
        exec (.uncorrectableError (.scratchWord loc)) s = .next (u.poisonWord (loc / 8))) ∧
      (∀ vc off : Nat, (s.vc vc).caldPoison.contains (off / 8) = false →
        exec (.uncorrectableError (.calderaWord vc off)) s =
          .next (u.modVc vc (fun v => { v with caldPoison := v.caldPoison ++ [off / 8] }))) ∧
      (∀ vc tile off : Nat, (s.vc vc).accPoison.contains (tile * 512 + off / 8) = false →
        exec (.uncorrectableError (.tileWord vc tile off)) s =
          .next (u.modVc vc (fun v => { v with accPoison := v.accPoison ++ [tile * 512 + off / 8] }))))

/-- An idle engine starts its next runnable command; a copy performs its tuples and ends with status
1, pauses on a spent budget or ends in error on a bad descriptor; a ring entry’s command posts its
completion, with the STATUS codes of log entry 79; a coding command writes its outputs and its
status word and ends, unless its engine time, a free charge, uses its budget up and it stops with
nothing written (log entry 46); a command that must stop does not run on, a stop keeps it for
later, a cancelled one ends with status 6, or 7 for a failed predecessor; a new period restores
the budgets. (R77, R80, R84, R85, R86, R92, R96, R97) -/
def Obligations.EngineWork : Prop :=
  ∀ s : State,
    (∀ (n : Nat) (c : Cmd), s.running n = none → (s.part (s.enginePart n)).freeze = false →
      s.nextCommand n = some c →
      exec (.engineStart n) s =
        .next ((s.modCmd c.id (fun c => { c with running := true })).nodeState c.node .running)) ∧
    (∀ (n : Nat) (c : Cmd) (u : State), s.running n = some c → c.kind = .copy → c.cancelled = false →
      s.mustStop n c = false → s.ringBlocked c = false → c.copyStatus = none →
      (c.copyEmpty = true → exec (.copyComplete n) s = .next (s.endCmd c .done 1)) ∧
      (c.copyEmpty = false → s.copyRun c c.total = (.done, u) →
        exec (.copyComplete n) s = .next (u.endCmd c .done 1)) ∧
      (c.copyEmpty = false → s.copyRun c c.total = (.paused, u) →
        exec (.copyComplete n) s = .next (u.stopCmd c none))) ∧
    (∀ (n k : Nat) (c : Cmd), s.running n = some c → c.kind = .copy → c.cancelled = false →
      s.mustStop n c = false → c.ring = none →
      (copyDesc c.desc).status c.cbase.toNat c.csize.toNat = some k →
      exec (.copyComplete n) s = .next (s.failCmd c k)) ∧
    (∀ (n : Nat) (c : Cmd), s.running n = some c → s.mustStop n c = true →
      exec (.copyComplete n) s = .next s ∧ exec (.codingComplete n) s = .next s) ∧
    (∀ (c : Cmd) (r : RingCopy), c.ring = some r → ∀ (st : NodeState) (k : Nat),
      s.endCmd c st k = (((s.dropCmd c.id).releaseLocks c.id).finishNode c.node st k).postCompletion
        c.vf.toNat r.tag.toNat
        (match st with | .done => 0 | .cancelled => 2 | _ => if k = 4 then 4 else 1) 0) ∧
    (∀ (n : Nat) (c : Cmd) (w : Coded) (u : State) (ps : List (W64 × List Byte × List (W64 × Nat × Xlat))),
      s.running n = some c → c.kind ≠ .copy → c.cancelled = false → s.mustStop n c = false →
      codingStatus c.kind c.encode c.desc = none →
      (if c.kind = .ldpc then s.ldpcWork c else s.polarWork c) = .ok (w, u) →
      u.outPlaces c (w.outs ++ [(c.stw, leBytes 8 w.word)]) = .ok ps →
      exec (.codingComplete n) s =
        (let v := (u.charge c (Config.freeNat u.free)).bump
         .next (if v.spent c then v.stopCmd c none
           else (ps.foldl (fun t o => t.writeAt o.2.2 o.1 o.2.1) v).endCmd c .done 1))) ∧
    (∀ (n k : Nat) (c : Cmd), s.running n = some c → c.kind ≠ .copy → c.cancelled = false →
      s.mustStop n c = false → codingStatus c.kind c.encode c.desc = some k →
      exec (.codingComplete n) s = .next (s.failAny c k)) ∧
    (∀ (n steps : Nat) (c : Cmd) (u : State), s.running n = some c → s.mustStop n c = true → c.cancelled = false →
      (c.kind ≠ .copy → exec (.engineStop n steps) s =
        .next (((s.charge c (Config.freeNat s.free)).bump).stopCmd c none)) ∧
      (c.kind = .copy → s.ringBlocked c = false → c.copyStatus = none → c.copyEmpty = false →
        s.copyRun c steps = (.paused, u) →
        exec (.engineStop n steps) s = .next (u.stopCmd c none))) ∧
    (∀ (n steps : Nat) (c : Cmd), s.running n = some c → c.cancelled = true →
      (c.kind ≠ .copy → exec (.cancelledCommandStop n steps) s =
        .next (s.endCmd c .cancelled (if c.predFailed then 7 else 6))) ∧
      (c.kind = .copy → s.ringBlocked c = false → c.copyStatus = none → c.copyEmpty = false →
        exec (.cancelledCommandStop n steps) s =
          .next ((s.copyRun c steps).2.endCmd c .cancelled (if c.predFailed then 7 else 6)))) ∧
    (∃ t : State, exec .budgetReset s = .next t ∧
      t.vfs = s.vfs.map (fun e => (e.1, { e.2 with left := e.2.allow })) ∧ s.hub.ptp ≤ t.hub.ptp ∧
      (t.hub.budgetTurn * (s.hub.engPer.toNat * 1000) ≤ t.hub.ptp) ∧ t.mem = s.mem ∧ t.th = s.th)

/-- A store of a buffer, the oldest when all are local and else a free choice (the model’s reading,
log entry 13), is performed at its home once nothing holds its lines up; a train’s elements are
performed in order when it arrives and nothing holds one of them up, its acknowledgement lowers
the lanes’ counters; host reads, writes and snoops act at the home (at ages the model chooses, log
entry 54; that the host holds a line it has read is the model’s reading, log entry 70); a snoop is
answered while a lock stands too (log entry 121); its answer gives the line back; the twin loads,
stores and makes atomics through its function’s entries, or is refused, and its link comes up only
once step 3 of bring-up has keyed its port. Each event ends the wait of its slot when the reason
for it has gone, so that the waiting instruction is performed again, and does nothing to a slot
that does not wait. (R266, R177, R179, R278, R279, R418, R419, R234, R287, R319, R334, R245) -/
def Obligations.OrderingAndWaits : Prop :=
  (∀ s : State,
    (∀ slot i : Nat, let gs := beatGroups (s.thread slot).hw.buf
      let next := s.nextBeats slot gs
      let g := gs.getD i []
      next[Config.freeNat s.free % max 1 next.length]? = some i →
      (g.any (fun e => s.writesHeld (some slot) e.kid e.writes) = true →
        exec (.storeBufferDrain slot) s = .next (s.callBack (g.flatMap (fun e => rangesOf e.writes)))) ∧
      (g.any (fun e => s.writesHeld (some slot) e.kid e.writes) = false →
        exec (.storeBufferDrain slot) s =
          .next ((g.foldl State.performEntry (if next.length = 1 then s else s.bump)).modThread slot
            (fun t => { t with hw := { t.hw with buf := (gs.eraseIdx i).flatten } })))) ∧
    (∀ (slot : Nat) (e : BufEntry) (rest : List BufEntry), (s.thread slot).hw.buf = e :: rest →
      e.more = false → s.writesHeld (some slot) e.kid e.writes = false →
      (∀ x ∈ e :: rest, x.writes ≠ [] ∧ ∀ w ∈ x.writes, s.dieOfLoc w.1 = some (dieOfTile (tileOf slot))) →
      exec (.storeBufferDrain slot) s = .next ((s.performEntry e).modThread slot (fun t =>
        { t with hw := { t.hw with buf := rest } }))) ∧
    (∀ slot : Nat, (s.thread slot).hw.buf = [] → exec (.storeBufferDrain slot) s = .next s) ∧
    (∀ (slot : Nat) (dest : Dest) (t : Train), let mine := fun (t : Train) => t.dest == dest && !t.arrived
      let mark := fun (u : State) (err : Bool) => u.modThread slot (fun h =>
        { h with hw := { h.hw with
            trains := modFirst mine (fun t => { t with arrived := true, error := t.error || err }) h.hw.trains } })
      (s.thread slot).hw.trains.find? mine = some t → s.writesHeld none t.kid t.writes = false →
      ((dest = .twin → s.twinFails = false) →
        exec (.trainArrival slot dest) s = .next (mark
          (t.elems.foldl (fun u x => if u.elementRefused t x.1 x.2.length then u
            else u.performEntry (BufEntry.plain (writesOf x.1 x.2) t.kid)) s)
          (decide (t.count ≠ t.elems.length) ||
            t.elems.any (fun x => s.elementRefused t x.1 x.2.length)))) ∧
      (dest = .twin → s.twinFails = true → exec (.trainArrival slot dest) s = .next (mark s.bump true))) ∧
    (∀ (slot : Nat) (dest : Dest) (t : Train), let back := fun (t : Train) => t.dest == dest && t.arrived
      (s.thread slot).hw.trains.find? back = some t →
      exec (.trainAck slot dest) s = .next (s.modThread slot (fun h =>
        { h with hw := { h.hw with
            trains := h.hw.trains.eraseP back
            unack := t.lanes.foldl (fun u l => tset 0 u l (tget 0 u l - 1)) h.hw.unack
            trainErr := if t.error then h.hw.trainErr ++ (t.elems.head?.map (·.1)).toList
                        else h.hw.trainErr } }))) ∧
    (∀ (line : Nat) (data : List Byte), let loc := line * 128
      let kid := s.kidOf loc
      let u := s.touch [line] kid (fun _ => .age 0) false
      isDevice loc = true → s.decoded loc = true → s.hub.hostUp = true →
      (s.hostWaits line = true → ∀ w : Bool, exec (.hostAccess w line data) s = .next s) ∧
      (s.hostWaits line = false → s.hostMay line = true →
        exec (.hostAccess true line data) s =
          .next (((writesOf loc (data.take 128)).foldl (fun t w =>
            (t.pokeByte w.1 false w.2).dropDcache none w.1) (s.claim loc kid)).touch [line] kid
              (fun _ => .age 2) true)) ∧
      (s.hostWaits line = false → s.hostMay line = true → u.poisoned loc 128 = false →
        u.kidFailed (u.kidOf loc) = false →
        exec (.hostAccess false line data) s =
          .next ((u.modMem (fun m => { m with
            hostHeld := if m.hostHeld.contains line then m.hostHeld else m.hostHeld ++ [line] })).modHub
              (fun h => { h with reply := some (u.peek loc 128) }))) ∧
      (s.hostWaits line = false → s.hostMay line = true → u.poisoned loc 128 = true →
        exec (.hostAccess false line data) s = .next (u.modHub (fun h => { h with reply := none })))) ∧
    (∀ line : Nat, isDevice (line * 128) = true → s.decoded (line * 128) = true → s.hub.hostUp = true →
      s.hostMay line = true → s.poisoned (line * 128) 128 = false →
      (let u := s.modHub (fun h => { h with reply := some (s.peek (line * 128) 128) })
       exec (.hostSnoop line false) s = .next u ∧
       (s.hostWaits line = true → exec (.hostSnoop line true) s = .next u) ∧
       (s.hostWaits line = false → s.mem.hostHeld.contains line = false →
         exec (.hostSnoop line true) s =
           .next (u.modMem (fun m => { m with hostHeld := m.hostHeld ++ [line] }))))) ∧
    (∀ line : Nat, s.mem.backInv.contains line = true →
      exec (.backInvalidateResponse line) s = .next (s.modMem (fun m =>
        { m with backInv := m.backInv.filter (fun l => l != line)
                 hostHeld := m.hostHeld.filter (fun l => l != line) }))) ∧
    (∀ (gpa : BitVec 40) (data : List Byte), let vf := s.hub.twInvf.toNat
      let e := s.st2Entry vf (gpa.toNat / 2 ^ 21)
      let p := s.st2Phys e gpa.toNat
      let say := fun (t : State) (r : Option (List Byte)) => t.modHub (fun h => { h with reply := r })
      s.hub.twEn = true → s.hub.twUp = true → e.getLsbD 0 = true → st2Home e = false →
      s.keyRefused e = false → s.decoded p.loc = true →
      (1 ≤ data.length → gpa.toNat % 2 ^ 21 + data.length ≤ 2 ^ 21 → permits e.toNat 1 .store = true →
        s.windowLine none p.loc data.length = false →
        s.writesHeld none p.kid (writesOf p.loc (s.homeBytes p data.length)) = false →
        exec (.twinInbound .store gpa data) s =
          .next (s.performEntry (BufEntry.plain (writesOf p.loc data) p.kid))) ∧
      (∀ n : Nat, 1 ≤ n → gpa.toNat % 2 ^ 21 + n ≤ 2 ^ 21 → permits e.toNat 1 .load = true →
        s.windowLine none p.loc n = false →
        (let u := (runLines p.loc n).foldl (fun t l => t.claim (l * 128) p.kid) s
         u.poisoned p.loc n = false →
         exec (.twinInbound (.load n) gpa data) s =
           .next (say (u.touch (runLines p.loc n) p.kid (fun _ => .age 0) false)
             (some (u.homeBytes p n))))) ∧
      (∀ op : BitVec 4, op.toNat < 9 → data.length = 4 ∨ data.length = 8 →
        gpa.toNat % data.length = 0 → permits e.toNat 1 .load = true → permits e.toNat 1 .store = true →
        s.windowLine none p.loc data.length = false →
        s.writesHeld none p.kid (writesOf p.loc (s.homeBytes p data.length)) = false →
        (let u := (runLines p.loc data.length).foldl (fun t l => t.claim (l * 128) p.kid) s
         u.poisoned p.loc data.length = false →
         exec (.twinInbound (.atomic op) gpa data) s =
          (let old := leNat (u.homeBytes p data.length)
           let new := amoNew op.toNat (8 * data.length) old (leNat data) (leNat (data.drop data.length))
           .next (say (u.storeHome p.kid none (fun _ => .age 0)
             (writesOf p.loc (leBytes data.length new))) (some (leBytes data.length old))))))) ∧
    (∀ (gpa : BitVec 40) (data : List Byte) (acc : Inbound),
      let e := s.st2Entry s.hub.twInvf.toNat (gpa.toNat / 2 ^ 21)
      (s.hub.twEn = false ∨ s.hub.twUp = false ∨ e.getLsbD 0 = false ∨ st2Home e = true ∨
        s.keyRefused e = true) →
      exec (.twinInbound acc gpa data) s = .next (s.modHub (fun h => { h with reply := none }))) ∧
    (∀ up : Bool, exec (.twinLinkState up) s = .next (s.modHub (fun h =>
      { h with twUp := up && Config.ideKeyed 1 && decide (3 < h.bootStep.toNat) })))) ∧
  (∀ (s : State) (n : Nat) (m : BitVec 2),
    (∀ x : Nat × BitVec 4, (s.vc (vcOf n)).array = some x → x.1 = n →
      exec (.mmaComplete n) s =
        .next ((s.modVc (vcOf n) (fun v => { v with array := none })).endWait n (fun w => w == .array))) ∧
    (∀ (m : W64) (f y : Bool) (c p : BitVec 4), let ch := s.chainOf n
      (s.thread n).hw.wait = some (.chain m f c y p) →
      (ch.mark ≠ m ∨ ch.fin ≠ f ∨ (s.thread n).held.cap ≠ c ∨ (s.thread n).held.yreq ≠ y ∨
        (s.thread n).held.pwr ≠ p) →
      exec (.setvlRestart n) s = .next (s.modThread n (fun t => { t with hw := { t.hw with wait := none } }))) ∧
    ((s.thread n).hw.wait = some .nap → ((s.thread n).hw.wake ≠ 0 ∨ (s.thread n).held.yreq = true) →
      exec (.napWake n) s = .next (s.modThread n (fun t => { t with hw := { t.hw with wait := none } }))) ∧
    (∀ (g : BitVec 12) (q : BitVec 32), let x := tget Group.reset (s.part (s.thread n).id.part.toNat).groups g.toNat
      (s.thread n).hw.wait = some (.barrier g q) →
      ((s.thread n).hw.barDone = none → (x.live = false ∨ x.passed q = true) →
        exec (.barwaitResume n) s = .next (s.modThread n (fun t =>
          { t with hw := { t.hw with wait := none, barDone := some (g, q, !x.live) } }))) ∧
      ((s.thread n).hw.barDone = none → x.live = true → x.passed q = false →
        exec (.barwaitResume n) s = .next s) ∧
      ((s.thread n).hw.barDone ≠ none → exec (.barwaitResume n) s = .next (s.modThread n (fun t => { t with hw := { t.hw with wait := none } })))) ∧
    (∀ id : BitVec 16, (s.thread n).hw.wait = some (.node id) → ((s.node id).st = .free ∨ (s.node id).finished = true) →
      exec (.ewaitResume n) s = .next (s.modThread n (fun t => { t with hw := { t.hw with wait := none } }))) ∧
    ((s.thread n).hw.wait = some .commit → s.commitReached n = true →
      exec (.commitWaitEnd n) s = .next (s.modThread n (fun t => { t with hw := { t.hw with wait := none } }))) ∧
    ((s.thread n).hw.wait = some .engineRoom → 
      exec (.queueWaitEnd n) s = .next (s.modThread n (fun t => { t with hw := { t.hw with wait := none } }))) ∧
    ((s.thread n).hw.wait = some .pendingLine → 
      exec (.pendingLineFree n) s = .next (s.modThread n (fun t => { t with hw := { t.hw with wait := none } }))) ∧
    (∀ t : BitVec 4, (s.thread n).hw.wait = some (.tileHeld t) → s.tileBusy n t = false →
      exec (.tileReleaseWait n) s = .next (s.modThread n (fun t => { t with hw := { t.hw with wait := none } }))) ∧
    ((s.thread n).hw.wait = some .queues → 
      exec (.qdrainEnd n) s = .next (s.modThread n (fun t => { t with hw := { t.hw with wait := none } }))) ∧
    ((s.thread n).hw.wait = some .phend → (s.thread n).hw.trains = [] →
      exec (.phendResume n) s = .next (s.modThread n (fun t => { t with hw := { t.hw with wait := none } }))) ∧
    ((s.thread n).hw.occ = true → (s.thread n).hw.detached.contains m = false →
      exec (.chainDetach n m) s = .next ((s.modThread n (fun t =>
        { t with hw := { t.hw with detached := t.hw.detached ++ [m] } })).detachFlight n m)) ∧
    ((s.thread n).hw.detached.contains m = true →
      exec (.resumeAfterDetach n m) s = .next ((s.modThread n (fun t =>
        { t with hw := { t.hw with detached := t.hw.detached.filter (fun k => k != m) } })).resumeFlight n m)) ∧
    ((s.thread n).hw.occ = true → (s.thread n).held.pwr.toNat < (s.thread n).held.count →
      exec (.rateReduction n) s = .next (s.modThread n (fun t => { t with hw := { t.hw with rate := true } }))) ∧
    ((s.thread n).hw.wait = none →
      [exec (.setvlRestart n) s, exec (.napWake n) s, exec (.barwaitResume n) s, exec (.ewaitResume n) s,
        exec (.commitWaitEnd n) s, exec (.queueWaitEnd n) s, exec (.pendingLineFree n) s,
        exec (.tileReleaseWait n) s, exec (.qdrainEnd n) s, exec (.phendResume n) s] =
      List.replicate 10 (.next s)))

/-- DBGT, FRZ and TRCTL are written by an agent that reaches them (which agent writes FRZ, and that
either may write DBGT and TRCTL where it reaches them, log entry 123); a trigger fires, reaches a
VC with a sync record and acts at its time; WSEQ takes a window or sets ERR; the governor and the
temperature set PWR, the throttle and the clocks; DRAW is the average of the latest samples (log
entry 124); power-on reset starts bring-up, whose steps 1 to 6 verify, key, train, exclude and
apply (log entry 125) and whose completion performs the retired stores, empties the slots, the
thread, the L2 and device memory (log entry 84) and puts the partitions and functions of the
signed tables into service; the servo sets the time. (R434, R435, R439, R440, R375, R444, R445,
R446, R441, R443, R365) -/
def Obligations.DebugPowerAndBringup : Prop :=
  ∀ (s : State) (n : Nat) (data : W64),
    (let u := s.modThread n (fun t => { t with hw := { t.hw with
        dbStep := data.getLsbD 0, dbClaim := data.getLsbD 1, dbTrace := data.getLsbD 3,
        dbHalt := t.hw.dbHalt || data.getLsbD 2 } })
     (s.debugReaches (0x900000 + 8 * n) = true →
       exec (.dbgtWrite n data) s = .next (if data.getLsbD 2 then u.askForced n 3 else u)) ∧
     (s.debugReaches (0x900000 + 8 * n) = false → exec (.dbgtWrite n data) s = .next s)) ∧
    (∃ t : State, exec (.frzWrite data) s = .next t ∧ t.mem = s.mem ∧ t.th = s.th ∧
      ∀ p < 20, (t.part p).freeze =
        if s.frzParts.contains p then data.toNat.testBit p else (s.part p).freeze) ∧
    (let v := s.endCapture n
     let u := v.modVc n (fun c => c.writeTrctl data.toNat)
     (s.debugReaches (0x910000 + 0x10 * n) = true →
       exec (.trctlWrite n data) s = .next
         (if (u.vc n).captures && !(v.vc n).captures then u.startCapture n else u)) ∧
     (s.debugReaches (0x910000 + 0x10 * n) = false → exec (.trctlWrite n data) s = .next s)) ∧
    (∀ (k : BitVec 2) (time : Nat) (u : State), s.atTime time = some u →
      exec (.triggerFire n k time) s = .next (u.fireTrigger n k.toNat time)) ∧
    (∀ (k : BitVec 2) (part t0 : Nat) (x : Nat × Nat), let mine := fun (x : Nat × Nat) => x.1 == k.toNat
      (s.vcsOf part).contains n = true → (s.vc n).trPend.find? mine = some x → x.2 = t0 →
      exec (.triggerArrival part k n) s = .next ((s.putSync n t0).modVc n (fun v =>
        { v with trPend := modFirstPair mine (fun x => (x.1 + 4, x.2)) v.trPend }))) ∧
    (∀ (k : BitVec 2) (vc time : Nat) (u : State) (x : Nat × Nat),
      let g := tget Trigger.reset (s.part n).triggers k.toNat
      let v := u.modVc vc (fun v => { v with trPend := v.trPend.erase x })
      s.atTime time = some u → (s.vcsOf n).contains vc = true → x ∈ (s.vc vc).trPend → x.1 = k.toNat + 4 →
      s.actionTime n x ≤ time → (∀ y ∈ (s.vc vc).trPend, 4 ≤ y.1 → s.actsBefore n y x = false) →
      (g.act = 0#2 → exec (.triggerAction n k vc time) s = .next v) ∧
      (g.act = 1#2 → ((s.vc vc).trFits = false ∨ (s.vc vc).trEn = true) →
        exec (.triggerAction n k vc time) s = .next v) ∧
      (g.act = 1#2 → (s.vc vc).trFits = true → (s.vc vc).trEn = false →
        exec (.triggerAction n k vc time) s =
          .next ((v.modVc vc (fun c => { c with trEn := true })).startCapture vc)) ∧
      (g.act = 2#2 → exec (.triggerAction n k vc time) s =
        .next ((v.endCapture vc).modVc vc (fun c => { c with trEn := false }))) ∧
      (g.act = 3#2 → exec (.triggerAction n k vc time) s =
        .next (((v.endCapture vc).modVc vc (fun c => { c with trEn := false })).modPart n (fun p => { p with freeze := true })))) ∧
    (let b := bitsAt 16 0 data.toNat
     let c := bitsAt 17 16 data.toNat
     exec (.wseqWrite n data) s = .next (s.modVf n (fun f =>
        if s.windowOk n b c then
          { f with wsBase := BitVec.ofNat 16 b, wsCount := BitVec.ofNat 17 c, wsErr := false }
        else { f with wsErr := true }))) ∧
    (let x := data.setWidth 10
     exec (.pwrcapWrite data) s = .next (s.modHub (fun h =>
        { h with pwCap := h.clampCap x, pwClamp := h.clampCap x != x }))) ∧
    (∀ (draw : BitVec 10) (calm : Bool), exec (.governorSample draw calm) s =
      .next ((s.modHub (fun h => { h with
        pwDraws := draw :: h.pwDraws.take 3
        pwDraw := BitVec.ofNat 10
          (((draw :: h.pwDraws.take 3).foldl (fun n d => n + d.toNat) 0) / 4) })).setPower
            (s.hub.nextPower draw calm))) ∧
    (∀ temp : BitVec 8, let u := s.modHub (fun h => { h with therm := temp })
      (115 ≤ temp.toNat → exec (.thermalTrip temp) s = .next (u.modHub (fun h => { h with clocksOff := true }))) ∧
      (105 ≤ temp.toNat → temp.toNat < 115 →
        exec (.thermalTrip temp) s = .next ((u.modHub (fun h => { h with pwTrip := true })).setPower 1)) ∧
      (95 ≤ temp.toNat → temp.toNat < 105 → exec (.thermalTrip temp) s = .next u) ∧
      (temp.toNat < 95 → exec (.thermalTrip temp) s = .next (u.modHub (fun h => { h with pwTrip := false })))) ∧
    (exec .powerOnReset s = .next { State.reset with sched := s.sched, free := s.free } ∧
      State.reset.hub.bootStep = 1 ∧ State.reset.hub.bootDone = false ∧ State.reset.hub.bootErr = false) ∧
    (s.hub.bootDone = false → s.hub.bootErr = false →
      (let t := Config.tables
       let u := s.bootNext
       (s.hub.bootStep ∈ [1, 3, 4, 5, 6] → u.hub.bootStep = s.hub.bootStep + 1 ∧ u.hub.bootErr = false) ∧
       (s.hub.bootStep = 2 → u = s.modHub (fun h =>
         if Config.firmwareGood then { h with bootStep := 3 } else { h with bootErr := true })) ∧
       (s.hub.bootStep = 3 → u.hub.hostUp = Config.ideKeyed 0 ∧ u.hub.twUp = Config.ideKeyed 1) ∧
       (s.hub.bootStep = 4 → u.hub.chfail = t.failed) ∧
       (s.hub.bootStep = 5 → (∀ v ∈ t.excluded, (u.vc v).excluded = true) ∧
         u.hub.nvcx = BitVec.ofNat 8 t.excluded.eraseDups.length) ∧
       (s.hub.bootStep = 6 → u.hub.nextParts = tableParts t ∧ u.hub.nextVfs = tableVfs t ∧ u.hub.dma = t.dma ∧
         u.hub.twEn = t.twinEn ∧ u.hub.tapOn = t.tap ∧ u.parts = s.parts ∧ u.vfs = s.vfs))) ∧
    (s.hub.bootDone = false → s.hub.bootErr = false → s.hub.bootStep = 7 →
      ∃ t : State, exec .bringupComplete s = .next t ∧ t.hub.bootDone = true ∧
        t.parts = s.hub.nextParts ∧ t.vfs = s.hub.nextVfs ∧ t.slots = [] ∧
        t.th = Thread.reset ∧ t.mem.l2 = [] ∧
        t.mem.cells = (s.occupied.foldl State.settleSlot s).mem.cells.filter (fun c => decide (scratchBase ≤ c.1))) ∧
    (∀ time : Nat, exec (.ptpServoStep time) s = .next (s.modHub (fun h => { h with ptp := time })))

/-- A dispatch starts the class-0 job with the earliest deadline, else asks a victim to yield, else
serves the queues in deficit round robin; deadlines abandon jobs, whose markers are then written;
the time-outs ask for stops and a stop lands at a boundary; owners, ACFG, VGCAP and RTCTL are
written; an illegal word and a fetch fault trap. Which queue is visited and which is skipped, and
that the illegal-word event traps for every word, are the model’s (log entries 73 and 86). (R366,
R367, R368, R372, R373, R292, R250, R293, R397, R398, R74, R411) -/
def Obligations.SchedulerAndStops : Prop :=
  ∀ (s : State) (n : Nat),
    (let able := s.placeable n
     let idle := ((s.part n).waitingJobs.filter (fun e => e.2.wants.isNone))
     (∀ (e slot : Nat) (j : Job), earliest able = some (e, j) → s.slotFor n e j = some slot →
       exec (.dispatch n) s = .next ((s.startJob n e slot j).endVisit n)) ∧
     (∀ (e v : Nat) (j : Job), earliest able = none → earliest idle = some (e, j) → s.victim n j.aff = some v →
       exec (.dispatch n) s = .next ((s.modThread v (fun t =>
         { t with held := { t.held with yreq := true }, hw := { t.hw with victim := true } })).modPart n
           (fun p => { p with jobs := p.jobs.map (fun x =>
             if x.1 = e then (x.1, { x.2 with wants := some v, keep := (s.thread v).held.loc,
                                              keepRem := (s.thread v).held.remote }) else x) }))) ∧
     (∀ (q e slot : Nat) (d : Table Nat) (j : Job), earliest able = none →
       (∀ x, earliest idle = some x → s.victim n x.2.aff = none) →
       (let p := (s.part n).dropDeficits
        let shared := able.filter (fun e => e.2.cls != 0)
        let qs := ((p.waitingJobs.filter (fun e => e.2.cls != 0)).map (fun e => e.2.queue)).eraseDups
        let first := nextQueue qs p.lastQueue
        let start := if p.visiting then (p.lastQueue, p.deficit)
          else (first, tset 0 p.deficit first (tget 0 p.deficit first + s.weight first))
        visit qs (fun q => (oldest shared q).map (fun e => e.2.lgs)) s.weight (9 * (qs.length + 1))
          start.1 start.2 = some (q, d) →
        oldest shared q = some (e, j) → s.slotFor n e j = some slot →
        (s.headerReady j = false → exec (.dispatch n) s = .next (s.readHeader j).2) ∧
        (s.headerReady j = true → exec (.dispatch n) s = .next ((((s.modPart n (fun p =>
          { p with lastQueue := q, visiting := true,
                   deficit := tset 0 d q (tget 0 d q - j.lgs) })).startJob n e slot j).modPart n
            Part.dropDeficits).endVisit n))))) ∧
    (∀ (time : Nat) (u : State), s.atTime time = some u →
      exec (.deadlineReached n time) s = .next (((u.part n).jobs.filter (fun e =>
        e.2.live && !e.2.finished && (e.2.cls == 0 || e.2.deadline != 0) &&
          decide (e.2.deadline.toNat ≤ time))).foldl (fun t e => t.abandon n (jobIdOf e.1 e.2) 1) u)) ∧
    (∀ (id : BitVec 32) (j : Job), let c := s.cancelCommands n id
      let u := (c.modPart n (fun p => p.leaveGroups (parkedNumber id))).endBarriers n
      let a := u.writeTarget j 0
      let b := a.2.writeTarget j 1
      let v := if j.cause = 5#3 then u else b.2.writeCompletion j (a.1 || b.1)
      (s.part n).job? id = some j → j.st = .abandoned → j.settling = true → j.slot = none →
      c.commandsOf n id = [] → c.rangesHeld none (c.settleRanges j) = false →
      exec (.markerWrite n id) s = .next (((v.modJob n id (fun j =>
        { j with settling := false, resume := none })).finishJobNode j.node id .cancelled 6).modPart n
          Part.retire)) ∧
    ((s.thread n).hw.victim = true → (s.thread n).hw.mig = false →
      exec (.preemptTimeout n) s = .next (s.askForced n 2)) ∧
    (let t := s.thread n
     t.hw.occ = true → t.hw.forced2 = true → t.hw.parked = false → t.hw.mig = false →
     exec (.handlerTimeout n) s = .next (s.abandon t.id.part.toNat t.id.job 6)) ∧
    ((s.thread n).hw.mig = false →
      ((s.thread n).held.yreq = true ∨ (s.thread n).held.cap.toNat < (s.thread n).held.count) →
      exec (.yieldTimeout n) s = .next (s.askForced n 1)) ∧
    ((s.thread n).hw.stops.any waitsForWindow = true → (s.thread n).hw.mig = false →
      exec (.windowWaitExpiry n) s = .next (s.dropWindow n true)) ∧
    (exec (.bridgeError n) s = .next (s.occupied.foldl (fun u k => u.modThread k (fun t =>
      if t.held.remote ≠ 0#4 ∧ dieOfTile (tileOfVc t.held.pvc.toNat) = n ∧
          ¬ t.hw.stops.contains .abandon ∧ ¬ t.hw.stops.contains (.spanLost t.held.pvc) then
        { t with hw := { t.hw with stops := t.hw.stops ++ [.spanLost t.held.pvc] } }
      else t)) s)) ∧
    ((s.vc (vcOf n)).array = none →
      (∀ why : BitVec 2, (s.thread n).landing = some (.forced why) →
        exec (.forcedStop n) s =
          .next ((s.modCv (fun _ => Convoy.single)).landForced n why Progress.none)) ∧
      (∀ vc : BitVec 9, (s.thread n).landing = some (.spanLost vc) →
        exec (.forcedStop n) s =
          .next ((s.modCv (fun _ => Convoy.single)).landSpanLost n vc Progress.none)) ∧
      ((s.thread n).landing = some .abandon →
        exec (.abandonStop n) s = .next ((s.modCv (fun _ => Convoy.single)).landAbandon n))) ∧
    (∀ marks : List Nat, let h := (s.thread n).hw
      h.occ = true → h.mig = false → h.stops ≠ [] → h.wait ≠ some .array → h.append = none →
      exec (.partWayStop n marks) s = .next (s.modThread n (fun t => { t with hw := { t.hw with cut := marks } }))) ∧
    (∀ (tile : BitVec 4) (data : W64), (s.thread n).hw.occ = true → (s.thread n).sc.mode = .L →
      s.tileBusy n tile = false →
      exec (.aownWrite n tile data) s =
        .next (s.modVc (vcOf n) (fun v => v.setOwner tile.toNat (data.setWidth 16) (s.thread n).id.vf))) ∧
    (∀ data : W64, (s.thread n).hw.occ = true →
      ((s.thread n).sc.mode = .S → exec (.acfgWrite n data) s =
        .next (s.modThread n (fun t => { t with fl := t.fl.writeAcfg data.toNat }))) ∧
      ((s.thread n).sc.mode = .S → exec (.vgcapWrite n data) s =
        .next ((s.modThread n (fun t => { t with held := t.held.write data.toNat })).grantChanged n)) ∧
      (exec (.rtctlWrite n data) s =
        (let x := data.toNat
         .next ((s.modThread n (fun t => { t with held := { t.held with
           cap := if 1 ≤ x % 16 ∧ x % 16 ≤ 8 then BitVec.ofNat 4 (min t.held.cap.toNat (x % 16))
                  else t.held.cap
           yreq := t.held.yreq || x.testBit 8 } })).grantChanged n)))) ∧
    (s.canRun = true →
      (∀ word : BitVec 32, exec (.illegalWord word) s =
        .next ((s.modCv (fun _ => Convoy.single)).trapAt s.cur
          (plainTrap Cause.illop (word.setWidth 64)) Progress.none)) ∧
      (∀ (va : W64) (f : XFault), s.th.hw.append = none → va.toNat / 64 = s.th.sc.pc.toNat / 64 →
        s.walk s.ctx .fetch s.th.sc.pc = .error f →
        exec (.fetchFault va) s = .next (((s.modCv (fun _ => Convoy.single)).fetchTrap
          (.fault s.th.sc.pc f)).modCv (fun _ => Convoy.single))))

/-- Each submission operation, when its entry is legal and its arguments are in range, has its effect
and completes with STATUS 0 and its RESULT, but for a MAP to which the quota, a free choice of the
model (log entry 32), gives no frames and an ATTEST whose report does not fit or does not
translate, which complete with STATUS 1, 1 and 4; an unknown one completes with STATUS 3; a WATCH
takes a base by a free choice among those that fit and answers it (log entry 82); a function reset
goes through its steps, of which it goes on once its ring is empty (log entry 122); responses are
recorded or counted, or stop a function whose page-request header is poisoned; a routine runs at a
slice; a COPY enters an engine’s queue, which one a free choice; register writes set the registers
at their addresses, reads give them, a misaligned write is ignored and a misaligned read gives
zero. That a COPY entry runs as a class-3 command in any free engine, the statuses of what is
refused, the advance of RQHEAD, the handle pairs, the steps of a reset, ring entries that cannot
complete and the room for a pending line are the model’s (log entries 79, 80, 110, 111, 78, 122
and 117). (R423, R424, R422, R429, R427, R428, R260, R6, R362, R375, R418, R53) -/
def Obligations.HostEvents : Prop :=
  ∀ (s : State) (n : Nat),
    (∀ x : Nat, s.sqEntry n = some x → (s.vf n).resetting = false → s.cqHeld n = false → sqLegal x = true →
      (let t := s.takeSq n
       let done := fun (u : State) (status result : Nat) =>
         (Host.Outcome.next (u.postCompletion n (sqTag x) status result) : Host.Outcome State Fault Refusal)
       (sqOp x = 1 → ∀ ps : Places, bitsAt 64 64 x % 128 = 0 →
         t.gpaPlaces n .load (bitsAt 64 64 x) 128 = some ps → t.placesPoisoned ps = false →
         (let u := t.claimPlaces ps
          u.jobRefusal (t.vf n).part.toNat n (t.placeBytes ps) = none → exec (.launch n) s =
            (let r := u.acceptJob (t.vf n).part.toNat n (t.placeBytes ps) 0 0xFFFF none
             done r.2 0 r.1.toNat))) ∧
       (sqOp x = 2 → ∀ gs : List Nat, gfnRange x = some gs → (∀ g ∈ gs, t.st2Entry n g = 0) →
         exec (.map n) s =
           match t.drawable n gs.length with
           | some fs => done ((gs.zip fs).foldl (fun u p => u.mapEntry n p.1 (BitVec.ofNat 64
               (1 + bitsAt 3 160 x * 2 + (t.vf n).kid.toNat * 2 ^ 5 + p.2 * 2 ^ 21)))
               (t.bump.assignFrames fs (t.vf n).kid)) 0 0
           | none => done t.bump 1 0) ∧
       (sqOp x = 3 → ∀ gs : List Nat, gfnRange x = some gs → gs.any (s.unmapWaits n) = false →
         (∀ g ∈ gs, (t.st2Entry n g).getLsbD 0 = true) →
         exec (.unmap n) s = done (gs.foldl (fun u g => u.endUnmap n g) t) 0 0) ∧
       (sqOp x = 4 → 0 < bitsAt 33 192 x → bitsAt 33 192 x ≤ 2 ^ 32 →
         (let side := s.copySide n (x.testBit 256) .load (bitsAt 64 64 x) (bitsAt 33 192 x)
          let other := s.copySide n (x.testBit 257) .store (bitsAt 64 128 x) (bitsAt 33 192 x)
          let es := (s.part (s.vf n).part.toNat).table.tiles.filter (fun e =>
            decide ((s.queue e).length < queueCap e))
          (∀ k, side = some k → exec (.copy n) s = done t k 0) ∧
          (∀ k, side = none → other = some k → exec (.copy n) s = done t k 0) ∧
          (∀ e, side = none → other = none → es[Config.freeNat s.free % max 1 es.length]? = some e →
            exec (.copy n) s = .next (t.bump.enqueue e (t.bump.ringCmd n e (ringCopyOf x)))))) ∧
       (sqOp x = 5 → ∀ k : Nat, let b := (Config.freeNat t.free + k) % 65536
         firstBelow 65536 (fun k => t.windowOk n ((Config.freeNat t.free + k) % 65536) (bitsAt 17 64 x)) = some k →
         exec (.watch n) s = done ((t.bump.writeWseq n b (bitsAt 17 64 x)).modVf n (fun f =>
           (f.writeWlist (bitsAt 64 128 x)).writeWrc (bitsAt 64 192 x))) 0 b) ∧
       (sqOp x = 6 → exec (.notify n) s = done (t.modVf n (fun f =>
         { f with wnote := f.wnote &&& ~~~ BitVec.ofNat 64 (bitsAt 64 64 x),
                  notifyVec := BitVec.ofNat 16 (bitsAt 16 128 x) })) 0 (t.vf n).wnote.toNat) ∧
       (sqOp x = 7 →
         (let rep := Config.attestReport n (s.vf n).inc.toNat (leBytes 32 (bitsAt 256 256 x))
          let room := s.gpaPlaces n .store (bitsAt 64 64 x) rep.length
          bitsAt 64 64 x % 64 = 0 → s.placesHeld (room.getD []) = false →
          exec (.attest n) s =
            if rep.length ≤ bitsAt 32 128 x then
              match room with
              | some ps => done (t.writePlaces ps rep) 0 rep.length
              | none => done t 4 0
            else done t 1 0)))) ∧
    (∀ x : Nat, s.sqEntry n = some x → (s.vf n).resetting = false → s.cqHeld n = false → sqLegal x = false →
      exec (.unknownOpEntry n) s = .next ((s.takeSq n).postCompletion n (sqTag x) 3 0)) ∧
    ((s.vf n).resetting = false → exec (.functionReset n) s = .next (s.startReset n)) ∧
    ((s.vf n).resetting = true → s.resetReady n = false →
      exec (.functionReset n) s = .next (s.cancelUnits n)) ∧
    ((s.vf n).resetting = true → s.resetReady n = true → ((s.flushRing n 4096).vf n).sqPosted = true →
      exec (.functionReset n) s = .next (s.flushRing n 4096)) ∧
    ((s.vf n).resetting = true → s.resetReady n = true → ((s.flushRing n 4096).vf n).sqPosted = false →
      exec (.functionReset n) s =
        .next (((((((s.flushRing n 4096).cancelReserved n).dropFronthaul n).clearUnits n).dropOwners
          n).unmapFunction n).endReset n)) ∧
    (∀ (part : Nat) (tag slot : BitVec 16) (inc status : BitVec 8), let p := s.part part
      let hdr := scratchLoc p.prqTile.toNat (p.prqBase.toNat * 16)
      let head := s.peekNat (hdr + 8) 8
      let u := if s.peekNat hdr 8 = head then s
        else s.poke (hdr + 8) 0 (leBytes 8 ((head + 1) % 2 ^ 64))
      let i := s.peekNat (hdr + 16) 8
      2 ≤ p.prqLog.toNat → p.prqLog.toNat ≤ 10 →
      ((s.poisoned hdr 16 = true ∨ ((s.vf n).inc = inc ∧ s.poisoned (hdr + 16) 8 = true)) →
        exec (.pageResponse part tag inc status slot n) s = .next (s.macFailure [n])) ∧
      ((s.vf n).inc ≠ inc → s.poisoned hdr 16 = false → exec (.pageResponse part tag inc status slot n) s =
        .next (u.modVf n (fun f => { f with drops := sat16 f.drops 1 }))) ∧
      ((s.vf n).inc = inc → s.poisoned hdr 16 = false → s.poisoned (hdr + 16) 8 = false →
        exec (.pageResponse part tag inc status slot n) s =
        .next (((u.poke (hdr + 64 + 2 ^ p.prqLog.toNat * 32 + i % 2 ^ p.prqLog.toNat * 16) 0
          (leBytes 2 tag.toNat ++ leBytes 1 inc.toNat ++ leBytes 1 status.toNat ++
            leBytes 2 slot.toNat ++ leBytes 10 0)).poke (hdr + 16) 0
          (leBytes 8 ((i + 1) % 2 ^ 64))).wakeSlot (slot.toNat % 2048)))) ∧
    (∀ inc : BitVec 8, (s.vf n).inc ≠ inc →
      exec (.proxyResponse n inc) s = .next (s.modVf n (fun f => { f with drops := sat16 f.drops 1 }))) ∧
    (∀ inc : BitVec 8, (s.vf n).inc = inc → ∃ (t : State) (l : List (Nat × Nat)),
      exec (.proxyResponse n inc) s = .next t ∧ l.length ≤ 1 ∧ (t.vf n).handles = (s.vf n).handles ++ l ∧
        t.mem = s.mem ∧ t.th = s.th) ∧
    (∀ (i loc : Nat) (a b : W64) (e : BitVec 64), let p := s.st2Phys e (loc % 2 ^ 21)
      let line := p.loc / 128 * 128
      let u := s.claim line p.kid
      s.writeEntry n loc = some e → (s.vf n).routine i ≠ 64 → isDevice loc = true →
      s.decoded loc = true → s.roomNow [p] = true → s.writeHeld none line 128 = false → u.poisoned line 128 = false →
      exec (.sliceCall n i loc a b) s =
        (let r := u.callSlice (s.vf n).part.toNat ((s.vf n).routine i) p a b
         .next { r.2.2 with sliceRes := some (match r.1 with
           | .ret v => (0, 0, r.2.1, v)
           | .fail code idx => (code, idx, r.2.1, 0#64)) })) ∧
    (∀ d : W64, let x := d.toNat
      let w := fun (ag : Agent) (a : Nat) => exec (.registerWrite ag (0xF000000000000 + a) d) s
      w .hc 0x100008 = .next (s.modHub (fun h => { h with mapEnt := d })) ∧
      (∃ t, w .hc 0x101E00 = .next t ∧ t.hub = { s.hub with
        nqBase := BitVec.ofNat 46 (x / 64), nqLog := BitVec.ofNat 4 (x / 2 ^ 52) }) ∧
      (∃ t, w .hc 0x100008 = .next t ∧ t.registerRead .hc 0xF000000100008 = some d) ∧
      (∃ t, w .rc 0x800000 = .next t ∧ t.registerRead .rc 0xF000000800000 =
        some (wordOf [(0, x % 2), (1, bit s.hub.twUp 0), (12, x / 2 ^ 12 % 2 ^ 9), (32, x / 2 ^ 32 % 2 ^ 12)])) ∧
      (∀ p < 20, w .hc (0x101000 + p * 8) = .next (s.modPart p (fun q => { q with migThr := BitVec.ofNat 16 x }))) ∧
      (∀ v < 384, w .hc (0x500000 + v * 8) = .next (s.modVf v (fun f =>
        { f with w1 := BitVec.ofNat 8 x, w2 := BitVec.ofNat 8 (x / 2 ^ 8), w3 := BitVec.ofNat 8 (x / 2 ^ 16),
                 c0 := x.testBit 24, maxJob := BitVec.ofNat 14 (x / 2 ^ 32) }))) ∧
      (∀ v < 384, x % 128 ≤ 64 →
        w .hc (0x400000 + v * 8) = .next (s.modVf v (fun f => { f with slrMax := BitVec.ofNat 7 x }))) ∧
      (∀ v < 384, w .hc (0x600000 + v * 0x20 + 0x18) =
        .next (s.modVf v (fun f => { f with wnote := f.wnote &&& ~~~ d }))) ∧
      (∀ v < 384, ∀ k < 3, w .hc (0x300000 + v * 0x20 + k * 8) =
        .next (s.modVf v (fun f => f.writeBudget k x))) ∧
      w .rc 0x800000 = .next (s.modHub (fun h =>
        { h with twEn := x.testBit 0, twInvf := BitVec.ofNat 9 (x / 2 ^ 12), twAp := BitVec.ofNat 12 (x / 2 ^ 32) })) ∧
      (∀ p < 20, ∀ k < 4, (s.hcReaches (0x920000 + p * 0x20 + k * 8) = true →
          w .hc (0x920000 + p * 0x20 + k * 8) = .next (s.writeTrg p k x)) ∧
        (s.tapReaches (0x920000 + p * 0x20 + k * 8) = true →
          w .debug (0x920000 + p * 0x20 + k * 8) = .next (s.writeTrg p k x))) ∧
      (∀ v < 384, (s.vf v).resetting = false → s.hub.hostUp = true → exec (.registerWrite .host (v * 2 ^ 16 + 0x08) d) s =
        .next (s.modVf v (fun f => { f with sqTail := BitVec.ofNat 12 x })))) ∧
    (∀ (ag : Agent) (a : Nat) (d : W64), a % 8 ≠ 0 → 0xF000000000000 ≤ a →
      exec (.registerWrite ag a d) s = .next s ∧
        (a < 0xF000000900000 ∨ 0xF000000A00000 ≤ a → s.registerRead .hc a = some 0))

/-- With nothing scheduled and a thread that can run, no stop landing and no wait, a step is exec of
the instruction that the word at the program counter decodes to, in the convoy context of that
word, after the issue’s trace and trigger records and followed by the end’s; the word comes from
the bytes at the translated program counter; a scheduled event is exec of that event. Which event
comes next is the model’s schedule (log entry 3). (R145, R148, R281, R283, R397) -/
def Obligations.StepRunsTheDecodedInstruction : Prop :=
  (∀ (s u : State) (i : Instr) (w : W32), let s0 := (s.modCv (fun _ => Convoy.single)).modNest Nest.settle
      let v := u.modHw (fun h => { h with cut := [] })
      s.sched = [] → s.hub.clocksOff = false → s.canRun = true → s.th.landing = none →
      s.th.hw.wait = none → s.th.hw.cut = [] → s.th.hw.append = none → s0.needsBody = false →
      s0.fetchConvoy = (.ok [w], u) → u.th.hw.cut = [] → u.th.hw.wait = none → decodeWord w.toNat = .ok i →
      step s = afterIssue v.cur (exec i ((v.atIssue [(i, w)]).modCv (fun _ => singleCv i w)))) ∧
  (∀ (s t u : State) (x : Xlat), let pc := s.th.sc.pc
      let loc := x.phys.loc / 64 * 64
      let v := u.claim x.phys.loc x.phys.kid
      let word := leNat (v.homeBytes x.phys 4)
      s.inBody = false → pc.toNat % 4 = 0 → s.fetchReady pc = (true, t) →
      t.resolve t.scalarPlaces t.ctx .fetch pc = (.ok x, u) →
      x.phys.loc % 64 = pc.toNat % 64 → v.poisoned loc 64 = false → v.blockCopies (x.phys.loc / 64) = [] →
      word < 2 ^ 31 →
      s.fetchConvoy = (.ok [BitVec.ofNat 32 word],
        (v.touch [x.phys.loc / 128] x.phys.kid (fun _ => .age 0) false).keepBlock (x.phys.loc / 64)
          (v.blockAt x.phys) true)) ∧
  (∀ (s : State) (i : Instr) (r : List Sched), s.sched = .event i :: r → s.hub.clocksOff = false →
      step s = exec i { s with sched := r }) ∧
  (∀ (s : State) (n : Nat) (r : List Sched), s.sched = .run n :: r →
      step s = runSlot ({ s with sched := r }.switchTo n))

/-- The words that the manual works out decode to their instructions; the all-zero word and the word
of all ones are illegal. (R137, R141, R142, R143, R144, R2) -/
def Obligations.DecodedWords : Prop :=
  decodeWord 0x02321400 = .ok (.add 3 4 5) ∧
  decodeWord 0x04000000 = .ok (.addi 0 0 0) ∧
  decodeWord 0x20900088 = .ok (.csrr 9 0x011) ∧
  decodeWord 0x18901FFB = .ok (.bne 9 0 0xFFB) ∧
  decodeWord 0x1E91B000 = .ok (.lnest 9 3 12) ∧
  decodeWord 0x1E100001 = .ok (.lbody 1) ∧
  decodeWord 0x14A1ACD0 = .ok (.amo 10 3 11 3 1 0) ∧
  decodeWord 0xB0118000 = .ok (.vld true 1 3 0) ∧
  decodeWord 0xC620A412 = .ok (.vfmulVs true 2 1 9 0) ∧
  decodeWord 0x36220000 = .ok (.vst false 2 4 0) ∧
  decodeWord 0x344208A0 = .ok (.vldx false 4 4 2 5) ∧
  decodeWord 0x3C02B0E0 = .ok (.vappend 5 12 7) ∧
  decodeWord 0x4230880B = .ok (.vcmp false 3 1 2 0 11) ∧
  decodeWord 0x4630AC96 = .ok (.vfmaVs false 3 1 11 4) ∧
  decodeWord 0x48228C00 = .ok (.vcvt false 2 5 3 0) ∧
  decodeWord 0x70685000 = .ok (.mma 3 8 10) ∧
  decodeWord 0x78018000 = .ok (.ecpy 0 3) ∧
  decodeWord 0x7A319400 = .ok (.vamo 3 3 5 0 0) ∧
  decodeWord 0x7A91900E = .ok (.rinst 9 3 4) ∧
  decodeWord 0x24028006 = .ok (.phend 0 5) ∧
  decodeWord 0x2492A805 = .ok (.barwait 9 5 10) ∧
  decodeWord 0 = .error .majorUnassigned ∧ decodeWord 0xFFFFFFFF = .error .majorUnassigned

/-- Every well-formed instruction, with every operand at every value its encoding admits, has a word
of four bytes that decodes to it and leaves the bytes that follow. (R137, R140, R141, R142, R143,
R2) -/
def Obligations.EncodeThenDecode : Prop :=
  ∀ i : Instr, i.wf = true → i.isWord = true →
    ∀ rest : List Byte, (encode i).length = 4 ∧ decode (encode i ++ rest) = .ok (i, rest)

/-- A convoy of several members breaks no rule exactly when all are vector members, each pipe but FX
is used once and FX at most twice, and no member writes, or reads before, what a later one writes;
a breach traps CONVOY, an illegal member ILLOP, before any member has effect; forming members
stops at the block’s end and at four. The members of a convoy of two to four that neither trap nor
wait are performed in order, each from the state that the one before it left, and the convoy then
retires as one: its length is 4 times the number of its words, by which the program counter moves
on outside a loop body. (R144, R145, R146, R147, R148, R283, R401) -/
def Obligations.ConvoyRules : Prop :=
  (∀ (s : State) (ms : List (Instr × W32)), 2 ≤ ms.length →
      (convoyBreach s ms = none ↔
        (∀ m ∈ ms, (memberPipe m.1).isSome = true) ∧
        (∀ k : Pipe, (ms.filter (fun m => memberPipe m.1 == some k)).length ≤ (if k = .fx then 2 else 1)) ∧
        (∀ i j : Nat, ∀ a b : Instr × W32, i < j → ms[i]? = some a → ms[j]? = some b →
          writesOverlap s a.1 b.1 = false ∧ readsWrittenBy s a.1 b.1 = false))) ∧
  (∀ (s t f : State) (ws : List W32) (ms : List (Instr × W32)) (reason m : Nat) (w : W32),
      let u := f.endWait f.cur (fun x => x == .fetch)
      s.th.hw.append = none → ((s.modCv (fun _ => Convoy.single)).modNest Nest.settle).fillBody = (none, t) →
      t.fetchConvoy = (.ok ws, f) → decodeMembers 0 ws = .ok ms → convoyBreach u ms = some (reason, m, w) →
      ∃ v : State, runAtPc s = .next v ∧ v.th.tr.epc = u.th.sc.pc ∧ v.th.tr.cause = 2 ∧
        v.th.tr.val = BitVec.ofNat 64 (reason + m * 16 + w.toNat * 2 ^ 32) ∧
        v.th.vec = u.th.vec ∧ v.th.sc.s = u.th.sc.s ∧ v.mem = u.mem) ∧
  (∀ (s t f : State) (ws : List W32) (m : Nat) (w : W32),
      let u := f.endWait f.cur (fun x => x == .fetch)
      s.th.hw.append = none → ((s.modCv (fun _ => Convoy.single)).modNest Nest.settle).fillBody = (none, t) →
      t.fetchConvoy = (.ok ws, f) → decodeMembers 0 ws = .error (m, w) →
      ∃ v : State, runAtPc s = .next v ∧ v.th.tr.epc = u.th.sc.pc ∧ v.th.tr.cause = 1 ∧
        v.th.tr.val = w.setWidth 64 ∧ v.th.tr.estat.mbr = BitVec.ofNat 2 m ∧ v.th.vec = u.th.vec ∧
        v.th.sc.s = u.th.sc.s ∧ v.mem = u.mem) ∧
  (∀ (blk : BitVec 512) (off : Nat), off % 4 = 0 → off < 64 →
      ((wordAt blk off).getLsbD 31 = false → formWords blk 4 off 0 = .ok [wordAt blk off]) ∧
      ((wordAt blk off).getLsbD 31 = true → off = 60 →
        formWords blk 4 off 0 = .error (4, 0, wordAt blk off)) ∧
      (off ≤ 48 → (wordAt blk off).getLsbD 31 = true → (wordAt blk (off + 4)).getLsbD 31 = true →
        (wordAt blk (off + 8)).getLsbD 31 = true → (wordAt blk (off + 12)).getLsbD 31 = true →
        formWords blk 4 off 0 = .error (2, 3, wordAt blk (off + 12)))) ∧
  (∀ (s : State) (ms : List (Instr × W32)) (ch : Nat → State), 2 ≤ ms.length → ms.length ≤ 4 →
      let e := ch ms.length
      ch 0 = (s.modCv (fun _ => manyCv ms s.th.hw.storeNum)).modCv
        (fun c => { c with withheld := 0, faulted := 0 }) →
      (∀ (k : Nat) (m : Instr × W32), ms[k]? = some m →
        exec m.1 ((ch k).modCv (fun c =>
          { c with mbr := BitVec.ofNat 2 k, word := m.2, trap := none })) = .next (ch (k + 1)) ∧
        (ch (k + 1)).cv.trap = none ∧ (ch (k + 1)).cv.waits = false) →
      e.cv.faulted = 0 →
      (ch 0).cv.len = 4 * ms.length ∧ (ch 0).th = s.th ∧ (ch 0).mem = s.mem ∧
      perform s ms = .next ((e.retire none).modCv (fun _ => Convoy.single)) ∧
      (e.inBody = false → e.cv.raised &&& e.th.fl.vtrapen = 0#8 → e.th.hw.dbStep = false →
        ((e.retire none).modCv (fun _ => Convoy.single)).th.sc.pc = e.th.sc.pc + BitVec.ofNat 64 e.cv.len))

/-- A convoy of one outside a loop nest advances the program counter by four and changes nothing else;
a vector convoy also clears the records of a stopped convoy; a raised class whose trap is enabled
traps ARITH at the next convoy’s address with the mask, and single step traps STEP unless a debug
halt can land there, which it then follows, after the convoy resumed (in every mode and after
ERET: the model’s reading, log entry 14; the member that ARITH names, log entry 109). (R145, R400,
R134, R415, R434, R296) -/
def Obligations.Retirement : Prop :=
  (∀ s : State, s.plain = true → s.cv.vector = false →
      s.finish = s.modSc (fun c => { c with pc := c.pc + 4 })) ∧
  (∀ s : State, s.plain = true → s.cv.vector = true →
      (s.finish).th.sc = { s.th.sc with pc := s.th.sc.pc + 4 } ∧ s.finish.mem = s.mem ∧
      s.finish.th.vec = { s.th.vec with vstart := [] } ∧
      s.finish.th.tr.estat = { s.th.tr.estat with vpart := false, mpart := false, pfw := false }) ∧
  (∀ s : State, s.cv.many = true → s.finish = s) ∧
  (∀ (s : State) (taken : Option W64), s.cv.raised &&& s.th.fl.vtrapen ≠ 0#8 →
      let t := s.retire taken
      t.th.tr.cause = 14 ∧ t.th.tr.val = s.cv.raised.setWidth 64 ∧
      t.th.tr.epc = (s.complete taken).th.sc.pc ∧ t.th.fl = s.th.fl ∧
      t.th.tr.estat.mbr = s.cv.raiser s.th.fl.vtrapen) ∧
  (∀ (s : State) (taken : Option W64), s.cv.raised &&& s.th.fl.vtrapen = 0#8 →
      s.th.hw.dbStep = true → s.th.hw.stepHold = none → (s.complete taken).th.haltLands = false →
      let t := s.retire taken
      t.th.tr.cause = 13 ∧ t.th.tr.val = 0 ∧ t.th.tr.epc = (s.complete taken).th.sc.pc) ∧
  (∀ s : State, (s.th.hw.dbStep = false → s.stepTrap = s) ∧
      (s.th.hw.stepHold ≠ none → s.stepTrap = s) ∧
      (s.th.hw.dbStep = true → s.th.hw.stepHold = none → s.th.haltLands = true →
        s.stepTrap = s.modTh Thread.holdStep) ∧
      (s.th.hw.dbStep = true → s.th.hw.stepHold = none → s.th.haltLands = false →
        s.stepTrap.th.tr.cause = 13 ∧ s.stepTrap.th.tr.val = 0 ∧ s.stepTrap.th.tr.epc = s.th.sc.pc))

/-- Inside a body the position advances to the next convoy; after the last one level 0’s count falls
by one or by vl, its address register moves by the increment, and the body replays while the count
is positive; else the level exits, its count restored, and the next level steps in the same way: a
nest of one level closes, one of two replays from level 1 or closes when that exits too, and a
deeper one goes on from level 1 by nestStep. (R296, R295, R312) -/
def Obligations.NestStepping : Prop :=
  (∀ s : State, s.inBody = false → ∀ taken : Option W64,
      s.advance taken = s.modSc (fun c => { c with pc := taken.getD (c.pc + BitVec.ofNat 64 s.cv.len) })) ∧
  (∀ s : State, s.inBody = true → s.th.nest.pos < s.th.nest.blen →
      s.advance none = (s.modNest (fun n => { n with pos := n.pos + 1 })).modSc
        (fun c => { c with pc := c.pc + BitVec.ofNat 64 s.cv.len })) ∧
  (∀ (s : State) (t : W64), s.inBody = true →
      s.advance (some t) = (s.modNest Nest.close).modSc (fun c => { c with pc := t })) ∧
  (∀ s u : State, let l := s.th.nest.level 0
      s.inBody = true → s.th.nest.pos = s.th.nest.blen → 0 < s.th.nest.nlev.toNat →
      s.wr l.creg (s.rd l.creg - (if l.drain then s.th.vec.vl.setWidth 64 else 1)) = u →
      let v := u.wr l.areg (u.rd l.areg + l.inc.signExtend 64)
      (0 < (v.rd l.creg).toInt →
        s.advance none = (v.modNest (fun n => { n with pos := 0 })).modSc
          (fun c => { c with pc := s.th.nest.body.setWidth 64 <<< 2 })) ∧
      ((v.rd l.creg).toInt ≤ 0 → s.th.nest.nlev.toNat = 1 →
        s.advance none = ((v.wr l.creg (tget 0 s.th.nest.init 0)).modNest Nest.close).modSc
          (fun c => { c with pc := s.th.sc.pc + BitVec.ofNat 64 s.cv.len })) ∧
      ((v.rd l.creg).toInt ≤ 0 → 2 ≤ s.th.nest.nlev.toNat →
        let x := v.wr l.creg (tget 0 s.th.nest.init 0)
        let l1 := s.th.nest.level 1
        let y := x.wr l1.creg (x.rd l1.creg - (if l1.drain then s.th.vec.vl.setWidth 64 else 1))
        let z := y.wr l1.areg (y.rd l1.areg + l1.inc.signExtend 64)
        (0 < (z.rd l1.creg).toInt →
          s.advance none = (z.modNest (fun n => { n with pos := 0 })).modSc
            (fun c => { c with pc := s.th.nest.body.setWidth 64 <<< 2 })) ∧
        ((z.rd l1.creg).toInt ≤ 0 → s.th.nest.nlev.toNat = 2 →
          s.advance none = ((z.wr l1.creg (tget 0 s.th.nest.init 1)).modNest Nest.close).modSc
            (fun c => { c with pc := s.th.sc.pc + BitVec.ofNat 64 s.cv.len }))) ∧
      ((v.rd l.creg).toInt ≤ 0 → 2 ≤ s.th.nest.nlev.toNat →
        let r := (v.wr l.creg (tget 0 s.th.nest.init 0)).nestStep 6 1
        s.advance none = if r.2 then (r.1.modNest (fun n => { n with pos := 0 })).modSc
              (fun c => { c with pc := s.th.nest.body.setWidth 64 <<< 2 })
          else (r.1.modNest Nest.close).modSc
              (fun c => { c with pc := s.th.sc.pc + BitVec.ofNat 64 s.cv.len })))

/-- A trap writes epc, ecause with the privilege in force, eval and estat, and enters L mode at tvec
for the causes that go there while tvec is not zero (BKPT and STEP among them while DBGT.CLAIM is
set), else S mode on the service core at the stvec entry; registers and memory stay as they are; a
MACFAIL enters no handler and fails the function. (R392, R393, R394, R395, R109, R327, R434) -/
def Obligations.TakingATrap : Prop :=
  ∀ (s : State) (t : TrapInfo), t.next = false → t.cause < 32 →
    let u := s.takeTrap t
    (u.th.tr.epc = s.th.sc.pc ∧ u.th.tr.cause = BitVec.ofNat 8 t.cause ∧ u.th.tr.val = t.val ∧
      u.th.tr.lvl = (match s.th.sc.mode with | .U => 0 | .L => 1 | .S => 2) ∧
      u.th.tr.estat = { mbr := s.cv.mbr, nmbr := s.cv.nmbr, vpart := false, mpart := false,
                        qfull := t.qfull, pfw := t.pfw, qoff := t.qoff, node := t.node } ∧
      u.th.sc.s = s.th.sc.s ∧ u.th.vec = s.th.vec ∧ u.th.fl = s.th.fl ∧ u.th.nest = s.th.nest ∧
      u.mem = s.mem) ∧
    (s.th.sc.mode = .U → t.cause ∈ [7, 8, 9, 10, 16] → s.th.tr.tvec ≠ 0 →
      u.th.sc.mode = .L ∧ u.th.sc.pc = BitVec.ofNat 64 (s.th.tr.tvec.toNat * 64 + t.cause * 64)) ∧
    (s.th.sc.mode = .U → t.cause ∈ [12, 13] → s.th.tr.tvec ≠ 0 →
      (s.th.hw.dbClaim = true →
        u.th.sc.mode = .L ∧ u.th.sc.pc = BitVec.ofNat 64 (s.th.tr.tvec.toNat * 64 + t.cause * 64)) ∧
      (s.th.hw.dbClaim = false →
        u.th.sc.mode = .S ∧ u.th.hw.mig = true ∧
        u.th.sc.pc = BitVec.ofNat 64 ((s.part s.curPart).stvec.toNat * 64 + t.cause * 64))) ∧
    (t.cause ≠ 18 → (s.th.sc.mode ≠ .U ∨ s.th.tr.tvec = 0 ∨ t.cause ∉ [7, 8, 9, 10, 12, 13, 16]) →
      u.th.sc.mode = .S ∧ u.th.hw.mig = true ∧
      u.th.sc.pc = BitVec.ofNat 64 ((s.part s.curPart).stvec.toNat * 64 + t.cause * 64)) ∧
    (t.cause = 18 → u = (((s.writeRecords s.th.sc.pc t false false).modHw
        (fun h => { h with wait := none, barDone := none, issued := false })).failFunction s.th.id.vf.toNat))

/-- s0 reads as zero and a write to it is discarded; a write to another register is read back and
leaves the others. (R98) -/
def Obligations.RegisterZero : Prop :=
  ∀ (s : State) (v : W64) (r : BitVec 5),
    s.rd 0 = 0 ∧ s.wr 0 v = s ∧ (r ≠ 0 → (s.wr r v).rd r = v) ∧
      (∀ q : BitVec 5, q ≠ r → (s.wr r v).rd q = s.rd q) ∧
      (s.th.zeroOk = true → (s.wr r v).th.zeroOk = true)

/-- Each active element of the destination group takes its result at the element width and every other
element below vl keeps its value; other registers, predicates, scalars and memory are unchanged.
(R185, R9, R99, R100) -/
def Obligations.ElementWiseResults : Prop :=
  ∀ (s : State) (d p : BitVec 5) (f : Nat → Res),
    legalVtype s.th.vec.vtype.toNat = true → s.vl ≤ s.vlmax →
    let t := s.mapElems d p f
    (∀ e < s.vl, t.elem d e = if s.active p e && s.performs e then (f e).val % 2 ^ s.vt.sew else s.elem d e) ∧
    (∀ r : Nat, r < d.toNat ∨ d.toNat + s.vt.gm ≤ r → tget 0 t.th.vec.v r = tget 0 s.th.vec.v r) ∧
    t.th.vec.p = s.th.vec.p ∧ t.th.sc = s.th.sc ∧ t.mem = s.mem ∧ t.th.nest = s.th.nest ∧
    (∀ r : Nat, s.th.tr.dReg.getLsbD r = true → t.th.tr.dReg.getLsbD r = true)

/-- Outside a loop nest: arithmetic changes only its destination register and the program counter; a
branch changes only the program counter; a load changes its destination and no byte of memory
beyond the walker’s updates and a line that its slice holds under another key; a store changes no
register, and of the bytes the thread reads exactly the stored ones, which read back (SDR with
every train acknowledged); an AMO changes its destination register and no byte that the thread
reads but those of its word; a CSR read changes its destination register, and a CSR write beyond
that only the group of registers that holds the CSR. (R299, R300, R304, R305, R306, R268, R308,
R314, R315, R98) -/
def Obligations.ScalarFrames : Prop :=
  (∀ (s t : State) (d a b : BitVec 5) (imm : BitVec 12) (k : BitVec 6) (m : BitVec 20) (i : Instr), s.plain = true → s.cv.vector = false →
      i ∈ ([.add d a b, .sub d a b, .and d a b, .or d a b, .xor d a b, .andn d a b, .sll d a b, .srl d a b, .sra d a b, .slt d a b, .sltn d a b, .mul d a b, .mulh d a b, .div d a b, .divn d a b, .rem d a b, .remn d a b,
        .addi d a imm, .andi d a imm, .ori d a imm, .xori d a imm, .slti d a imm,
        .slli d a k, .srli d a k, .srai d a k,
        .clz d a, .popc d a, .brev d a, .lui d m, .addpc d m, .tid d] : List Instr) →
      exec i s = .next t →
      (∀ r : BitVec 5, r ≠ d → t.rd r = s.rd r) ∧ t.th.vec = s.th.vec ∧ t.th.fl = s.th.fl ∧
      t.th.tr = s.th.tr ∧ t.th.held = s.th.held ∧ t.th.nest = s.th.nest ∧ t.th.sc.mode = s.th.sc.mode ∧
      t.mem = s.mem ∧ t.th.hw = s.th.hw ∧ t.vcs = s.vcs ∧ t.parts = s.parts ∧ t.hub = s.hub) ∧
  (∀ (s t : State) (a b : BitVec 5) (o : BitVec 12) (i : Instr), s.plain = true → s.cv.vector = false →
      i ∈ ([.beq a b o, .bne a b o, .blt a b o, .bge a b o, .bltn a b o, .bgen a b o] : List Instr) →
      exec i s = .next t →
      t.th.sc.s = s.th.sc.s ∧ t.th.vec = s.th.vec ∧ t.th.fl = s.th.fl ∧ t.th.tr = s.th.tr ∧
      t.th.held = s.th.held ∧ t.th.nest = s.th.nest ∧ t.th.sc.mode = s.th.sc.mode ∧ t.mem = s.mem ∧
      t.th.hw = s.th.hw) ∧
  (∀ (s t u : State) (d a : BitVec 5) (o : BitVec 12) (p : Phys) (c : Instr × Nat),
      let w := u.scalarTouch p
      w.plain = true → w.cv.vector = false → w.th = { s.th with hw := w.th.hw } →
      c ∈ ([(.lb d a o, 1), (.lh d a o, 2), (.lw d a o, 4), (.ld d a o, 8), (.lbn d a o, 1), (.lhn d a o, 2),
        (.lwn d a o, 4), (.lda d a o, 8)] : List (Instr × Nat)) →
      s.got .load (s.ea a o) c.2 = some (p, u) → w.consumes p.loc c.2 = false →
      exec c.1 s = .next t →
      (∀ r : BitVec 5, r ≠ d → t.rd r = s.rd r) ∧ t.th.vec = s.th.vec ∧ t.th.fl = s.th.fl ∧
      t.th.tr = s.th.tr ∧ t.th.held = s.th.held ∧ t.th.nest = s.th.nest ∧ t.th.sc.mode = s.th.sc.mode ∧
      t.mem = w.mem ∧ t.th.hw.buf = w.th.hw.buf ∧
      (u.claim (p.loc / 128 * 128) p.kid = u → t.mem.cells = u.mem.cells ∧
        ∀ (own : Bool) (l : Nat), t.readByte own l = u.readByte own l)) ∧
  (∀ (s t u : State) (d a : BitVec 5) (o : BitVec 12) (p : Phys) (c : Instr × Nat),
      u.plain = true → u.cv.vector = false → u.th = { s.th with hw := u.th.hw } →
      c ∈ ([(.sb d a o, 1), (.sh d a o, 2), (.sw d a o, 4), (.sd d a o, 8), (.sdr d a o, 8)] : List (Instr × Nat)) →
      (c.1 = .sdr d a o → u.th.hw.trains = []) →
      s.got .store (s.ea a o) c.2 = some (p, u) → u.roomAt [p] = true →
      exec c.1 s = .next t →
      (∀ r : BitVec 5, t.rd r = s.rd r) ∧ t.th.vec = s.th.vec ∧ t.th.fl = s.th.fl ∧
      t.th.tr = s.th.tr ∧ t.th.held = s.th.held ∧ t.th.nest = s.th.nest ∧ t.th.sc.mode = s.th.sc.mode ∧
      (∀ (own : Bool) (l : Nat), l < p.loc ∨ p.loc + c.2 ≤ l → t.readByte own l = u.readByte own l) ∧
      (∀ (own : Bool) (k : Nat), k < c.2 →
        t.readByte own (p.loc + k) = ((leBytes c.2 (s.rd d).toNat).getD k 0))) ∧
  (∀ (s t u r v : State) (p : Phys) (d a b : BitVec 5) (ord : BitVec 2) (w : BitVec 1) (op : BitVec 4),
      let n := if w = 0#1 then 4 else 8
      v.plain = true → v.cv.vector = false → v.th = { s.th with hw := v.th.hw } →
      s.got .store (s.rd a) n = some (p, u) → s.walk s.ctx .load (s.rd a) ≠ .error .perm →
      (isTwin p.loc = false ∧ r = u ∨ isTwin p.loc = true ∧ u.twinFails = false ∧ r = u.bump) →
      r.bufHeld r.cur r.th.hw.buf = false → (ord.toNat < 2 ∨ r.drainAll.th.hw.trains = []) →
      v = r.drainAll.claim p.loc p.kid → v.claim (p.loc / 128 * 128) p.kid = v → v.poisoned p.loc n = false →
      v.writeHeld (some v.cur) p.loc n = false → v.roomNow [p] = true →
      exec (.amo d a b ord w op) s = .next t →
      (∀ r : BitVec 5, r ≠ d → t.rd r = s.rd r) ∧ t.th.vec = s.th.vec ∧ t.th.fl = s.th.fl ∧
      t.th.tr = s.th.tr ∧ t.th.held = s.th.held ∧ t.th.nest = s.th.nest ∧ t.th.sc.mode = s.th.sc.mode ∧
      (∀ (own : Bool) (l : Nat), l < p.loc ∨ p.loc + n ≤ l → t.readByte own l = v.readByte own l)) ∧
  (∀ (s t : State) (d : BitVec 5) (c : BitVec 12) (i : Instr), s.plain = true → s.cv.vector = false →
      s.csrOk c.toNat = true → i ∈ ([.csrr d c, .csrs d 0 c, .csrc d 0 c] : List Instr) →
      exec i s = .next t →
      (∀ r : BitVec 5, r ≠ d → t.rd r = s.rd r) ∧ t.th.vec = s.th.vec ∧ t.th.fl = s.th.fl ∧
      t.th.tr = s.th.tr ∧ t.th.held = s.th.held ∧ t.th.nest = s.th.nest ∧ t.th.sc.mode = s.th.sc.mode ∧
      t.mem = s.mem ∧ t.th.hw = s.th.hw ∧ t.vcs = s.vcs ∧ t.parts = s.parts ∧ t.hub = s.hub) ∧
  (∀ (s t : State) (d a : BitVec 5) (c : BitVec 12) (e : Instr × Nat), let n := c.toNat
      let old := s.csr n
      let x := (s.rd a).toNat
      s.plain = true → s.cv.vector = false → s.th.nest.buf = [] →
      (e = (.csrw d a c, x) ∨ a ≠ 0 ∧ (e = (.csrs d a c, old ||| x) ∨ e = (.csrc d a c, old - (old &&& x)))) →
      s.csrMay n e.2 = true → exec e.1 s = .next t →
      (∀ r : BitVec 5, r ≠ d → t.rd r = s.rd r) ∧ t.th.vec.p = s.th.vec.p ∧ t.mem = s.mem ∧
      t.th.sc.mode = s.th.sc.mode ∧ t.th.held.loc = s.th.held.loc ∧ t.th.held.remote = s.th.held.remote ∧
      t.th.hw = s.th.hw ∧ t.hub = s.hub ∧
      (n ≠ 0x001 → t.th.vec.v = s.th.vec.v) ∧ (n ≠ 0x00C → t.th.held = s.th.held) ∧
      (0x011 ≤ n → t.th.vec = s.th.vec) ∧ (n < 0x011 ∨ 0x030 < n → t.th.fl = s.th.fl) ∧
      (n < 0x100 ∨ 0x10F < n → t.vcs = s.vcs) ∧ (0x201 ≤ n → t.th.tr = s.th.tr) ∧
      (n < 0x201 ∨ 0x205 < n → t.parts = s.parts) ∧ (n < 0x210 → t.th.nest = s.th.nest))

/-- Element-wise arithmetic changes no scalar register, no predicate, no byte of memory, no register
outside its destination group (sq scale bytes lie in it), and of the flags and controls only vflg,
vflgpc, vidx and vhr, whether it completes or traps; VCMP changes no register and only its
destination predicate. A member of a convoy of several leaves the program counter and the convoy’s
length alone. (R185, R186, R127, R131, R132, R135, R189, R197, R210) -/
def Obligations.VectorFrames : Prop :=
  (∀ (s t : State) (c : Bool) (d a b p : BitVec 5) (k : BitVec 4) (o : BitVec 1) (i : Instr),
    (s.cv.many = true ∨ s.plain = true) → i ∈ ([.vshrrnd c d a b p, .vsatn c d a b p, .vfclamp c d a b p, .vfma c d a b p, .vfms c d a b p, .vfnma c d a b p, .vcadd c d a b p, .vcsub c d a b p, .vcscl c d a b p, .vadd c d a b p, .vsub c d a b p, .vrsub c d a b p, .vmul c d a b p, .vmulh c d a b p, .vmulhn c d a b p, .vmin c d a b p, .vmax c d a b p, .vminn c d a b p, .vmaxn c d a b p, .vand c d a b p, .vor c d a b p, .vxor c d a b p, .vsll c d a b p, .vsrl c d a b p, .vsra c d a b p, .vqadd c d a b p, .vqsub c d a b p, .vqmul c d a b p, .vfadd c d a b p, .vfsub c d a b p, .vfmul c d a b p, .vfdiv c d a b p, .vfmin c d a b p, .vfmax c d a b p,
      .vshrrndVs c d a b p, .vsatnVs c d a b p, .vfclampVs c d a b p, .vfmaVs c d a b p, .vfmsVs c d a b p, .vfnmaVs c d a b p, .vcaddVs c d a b p, .vcsubVs c d a b p, .vcsclVs c d a b p, .vaddVs c d a b p, .vsubVs c d a b p, .vrsubVs c d a b p, .vmulVs c d a b p, .vmulhVs c d a b p, .vmulhnVs c d a b p, .vminVs c d a b p, .vmaxVs c d a b p, .vminnVs c d a b p, .vmaxnVs c d a b p, .vandVs c d a b p, .vorVs c d a b p, .vxorVs c d a b p, .vsllVs c d a b p, .vsrlVs c d a b p, .vsraVs c d a b p, .vqaddVs c d a b p, .vqsubVs c d a b p, .vqmulVs c d a b p, .vfaddVs c d a b p, .vfsubVs c d a b p, .vfmulVs c d a b p, .vfdivVs c d a b p, .vfminVs c d a b p, .vfmaxVs c d a b p,
      .vcmul c d a b p o, .vcmulVs c d a b p o, .vcmac c d a b p o, .vcmacVs c d a b p o, .vcmag2 c d a p,
      .vcrot c d a p o, .vcconj c d a p, .vcvt c d a k p, .vwiden c d a k p, .vnarrow c d a k p,
      .vhead c d a p, .vqneg c d a p, .vqabs c d a p, .vabs c d a p, .vneg c d a p, .vclz c d a p,
      .vpopc c d a p, .vmov c d a p, .vfsqrt c d a p, .vfabs c d a p, .vfneg c d a p] : List Instr) →
    legalVtype s.th.vec.vtype.toNat = true → s.vl ≤ s.vlmax →
    exec i s = .next t →
    (∀ r : BitVec 5, t.rd r = s.rd r) ∧ t.mem = s.mem ∧ t.th.vec.p = s.th.vec.p ∧
      t.th.vec.vl = s.th.vec.vl ∧ t.th.vec.vtype = s.th.vec.vtype ∧ t.th.held = s.th.held ∧
      t.th.nest = s.th.nest ∧
      (∀ r : Nat, r < d.toNat ∨ d.toNat + s.vt.gm ≤ r → tget 0 t.th.vec.v r = tget 0 s.th.vec.v r) ∧
      { t.th.fl with vflg := s.th.fl.vflg, vflgpc := s.th.fl.vflgpc, vidx := s.th.fl.vidx,
                     vhr := s.th.fl.vhr } = s.th.fl ∧
      (s.cv.many = true → t.th.sc.pc = s.th.sc.pc ∧ t.cv.len = s.cv.len)) ∧
  (∀ (s t : State) (c : Bool) (d a b p : BitVec 5) (k : BitVec 4) (i : Instr),
    (s.cv.many = true ∨ s.plain = true) → i ∈ ([.vcmp c d a b p k, .vcmpVs c d a b p k] : List Instr) →
    exec i s = .next t →
    (∀ r : BitVec 5, t.rd r = s.rd r) ∧ t.mem = s.mem ∧ t.th.vec.v = s.th.vec.v ∧
      t.th.vec.vl = s.th.vec.vl ∧ t.th.vec.vtype = s.th.vec.vtype ∧ t.th.held = s.th.held ∧
      t.th.nest = s.th.nest ∧ (∀ r : Nat, r ≠ s.predNo d → tget 0 t.th.vec.p r = tget 0 s.th.vec.p r) ∧
      { t.th.fl with vflg := s.th.fl.vflg, vflgpc := s.th.fl.vflgpc, vidx := s.th.fl.vidx } = s.th.fl ∧
      (s.cv.many = true → t.th.sc.pc = s.th.sc.pc ∧ t.cv.len = s.cv.len))

/-- A byte written at a home, or put in the store buffer, is read back and every other byte reads as
before; the operations keep memory’s canonical form. (R264, R265, R2) -/
def Obligations.MemoryBytes : Prop :=
  (∀ (s : State) (loc kid : Nat) (bs : List Byte), 
      (∀ k < bs.length, s.inSharing (loc + k) kid = false) →
      (∀ k < bs.length, (s.poke loc kid bs).homeByte (loc + k) = bs.getD k 0) ∧
      (∀ l : Nat, l < loc ∨ loc + bs.length ≤ l → (s.poke loc kid bs).homeByte l = s.homeByte l)) ∧
  (∀ (s : State) (loc kid : Nat) (bs : List Byte) (own : Bool),
      (∀ k < bs.length, (s.pushBuf (BufEntry.plain (writesOf loc bs) kid)).readByte own (loc + k) = bs.getD k 0) ∧
      (∀ l : Nat, l < loc ∨ loc + bs.length ≤ l →
        (s.pushBuf (BufEntry.plain (writesOf loc bs) kid)).readByte own l = s.readByte own l)) ∧
  (∀ (s : State) (e : BufEntry) (kid : Nat) (keep : Option Nat) (ws : List (Nat × Byte)),
      s.memOk = true → (s.pokeBytes kid keep ws).memOk = true ∧ (s.performEntry e).memOk = true ∧
        s.drainAll.memOk = true)

/-- Memory lists its bytes at rising locations and no byte that holds what an unlisted location reads
as: every step, of any event or instruction, keeps this form. What an unlisted location reads as
is the model’s choice (log entry 1). (R264, R2) -/
def Obligations.MemoryStaysCanonical : Prop :=
  ∀ s t : State, Memory.wf s.mem.cells = true → step s = .next t → Memory.wf t.mem.cells = true

/-- No thread has a value for s0, and every thread’s vtype is a legal value with vl within its VLMAX:
both hold after reset and every step keeps them, the second where no loss of a span’s remote half
is about to land (R293 halves VLMAX and no rule changes vl: log entry 127). After reset memory is
in its canonical form, vtype holds 0x1C021A, vgcap.CAP and PWR hold 8, vl is zero, the power
limits are 600, 250 and 750 W, the engine period is 500, bring-up is at step 1 and every slot is
empty. That memory reads as zero is the model’s choice (log entry 1). (R98, R101, R104, R103,
R105, R97, R444, R441) -/
def Obligations.ResetState : Prop :=
  (∀ s t : State, s.zeroAll = true → step s = .next t → t.zeroAll = true) ∧
  (∀ s t : State, s.vecLegal = true → s.spansWhole = true → step s = .next t → t.vecLegal = true) ∧
  State.reset.zeroAll = true ∧ State.reset.vecLegal = true ∧ State.reset.spansWhole = true ∧
  Memory.wf State.reset.mem.cells = true ∧ State.reset.th.zeroOk = true ∧
  (∀ l : Nat, State.reset.homeByte l = 0) ∧
  State.reset.th.vec.vtype = 0x1C021A ∧ State.reset.th.held.cap = 8 ∧ State.reset.th.held.pwr = 8 ∧
  State.reset.th.vec.vl = 0 ∧ State.reset.hub.pwCap = 600 ∧ State.reset.hub.pwLo = 250 ∧
  State.reset.hub.pwHi = 750 ∧ State.reset.hub.engPer = 500 ∧ State.reset.hub.bootDone = false ∧
  State.reset.hub.bootStep = 1 ∧ State.reset.th.tr.epc = 0 ∧ State.reset.slots = [] ∧
  State.reset.sched = [] ∧ State.reset.th.hw.occ = false

/-- After the temperature has stopped every clock only power-on reset has an effect: any other step is
the fault clocksStopped, which is the model’s reading (log entry 87). (R446) -/
def Obligations.ClocksStopped : Prop :=
  ∀ s : State, s.hub.clocksOff = true →
    (∀ r : List Sched, s.sched = .event .powerOnReset :: r →
      step s = exec .powerOnReset { s with sched := r }) ∧
    (s.sched.head? ≠ some (.event .powerOnReset) → step s = .fault .clocksStopped)

/-- For every x from −2^31 − 2,048 to 2^31 − 2,049 and every register but s0, `lui d, %hi(x)`
completes from a state at a plain convoy boundary, and `addi d, d, %lo(x)` then completes with x
in d. (spec/08_encoding_assembly.md) -/
def Obligations.LoadImmediatePair : Prop :=
  ∀ (s : State) (d : BitVec 5) (x : Int), s.plain = true → d ≠ 0#5 →
    -(2 ^ 31) - 2048 ≤ x → x ≤ 2 ^ 31 - 2049 →
    ∃ t : State, exec (.lui d (asmHi (BitVec.ofInt 64 x))) s = .next t ∧
      exec (.addi d d (asmLo (BitVec.ofInt 64 x))) t = (t.wr d (BitVec.ofInt 64 x)).retires
end

