-- ==== Sys2Proof/Laws/Monad.lean ====
section
/-!
SUPPORT. What a computation that can trap or wait does at a state: one equation for each of its parts, so
that no proof unfolds the monad.
-/

namespace Sys2Proof.Machine

open Sys2Proof

variable {α β : Type}

@[simp] theorem M.pure_run (a : α) (s : State) : (pure a : M α) s = (.ok a, s) := rfl

/-- The second part runs from the state the first reaches, unless the first ends early. -/
theorem M.bind_run (x : M α) (f : α → M β) (s : State) :
    (x >>= f) s =
      (match x s with
      | (.ok a, t) => f a t
      | (.error e, t) => (.error e, t)) := by
  show (ExceptT.bind x f) s = _
  unfold ExceptT.bind ExceptT.mk
  show (StateT.bind x (ExceptT.bindCont f)) s = _
  unfold StateT.bind
  show (match x s with | (a, t) => ExceptT.bindCont f a t) = _
  rcases x s with ⟨_ | _, _⟩ <;> rfl

/-- A first part that succeeds. -/
@[simp] theorem M.bind_ok (x : M α) (f : α → M β) (s t : State) (a : α) (h : x s = (.ok a, t)) :
    (x >>= f) s = f a t := by rw [M.bind_run, h]

/-- A first part that ends early. -/
@[simp] theorem M.bind_error (x : M α) (f : α → M β) (s t : State) (e : Stop)
    (h : x s = (.error e, t)) : (x >>= f) s = (.error e, t) := by rw [M.bind_run, h]

@[simp] theorem M.get_run (s : State) : (get : M State) s = (.ok s, s) := rfl
@[simp] theorem M.set_run (s t : State) : (set t : M PUnit) s = (.ok ⟨⟩, t) := rfl
@[simp] theorem M.modify_run (f : State → State) (s : State) :
    (modify f : M PUnit) s = (.ok ⟨⟩, f s) := rfl
@[simp] theorem M.throw_run (e : Stop) (s : State) : (throw e : M α) s = (.error e, s) := rfl

@[simp] theorem M.get_bind (f : State → M β) (s : State) : ((get : M State) >>= f) s = f s s := rfl
@[simp] theorem M.set_bind (t : State) (f : PUnit → M β) (s : State) :
    ((set t : M PUnit) >>= f) s = f ⟨⟩ t := rfl
@[simp] theorem M.modify_bind (g : State → State) (f : PUnit → M β) (s : State) :
    ((modify g : M PUnit) >>= f) s = f ⟨⟩ (g s) := rfl
@[simp] theorem M.pure_bind (a : α) (f : α → M β) (s : State) : ((pure a : M α) >>= f) s = f a s := rfl

@[simp] theorem trap_run (c : Nat) (v : W64) (s : State) :
    (trap c v : M α) s = (.error (.trap (plainTrap c v)), s) := rfl
@[simp] theorem waitFor_run (w : Wait) (s : State) :
    (waitFor w : M α) s = (.error (.wait w), s) := rfl
@[simp] theorem illop_run (s : State) :
    (illop : M α) s = (.error (.trap (plainTrap Cause.illop s.evalWord)), s) := rfl
@[simp] theorem privTrap_run (s : State) :
    (privTrap : M α) s = (.error (.trap (plainTrap Cause.priv s.evalWord)), s) := rfl

/-- A check that holds does nothing. -/
@[simp] theorem need_ok (s : State) : need true s = (.ok (), s) := rfl

/-- A check that fails traps ILLOP. -/
@[simp] theorem need_no (s : State) :
    need false s = (.error (.trap (plainTrap Cause.illop s.evalWord)), s) := rfl

/-- What follows a check runs when it holds. -/
theorem need_bind (b : Bool) (f : Unit → M β) (s : State) :
    (need b >>= f) s =
      if b then f () s else (.error (.trap (plainTrap Cause.illop s.evalWord)), s) := by
  cases b <;> rfl

/-- A function of a result. -/
theorem M.map_run (g : α → β) (x : M α) (s : State) :
    (g <$> x) s =
      (match x s with
      | (.ok a, t) => (.ok (g a), t)
      | (.error e, t) => (.error e, t)) := by
  show (ExceptT.map g x) s = _
  unfold ExceptT.map ExceptT.mk
  show (StateT.bind x _) s = _
  unfold StateT.bind
  show (match x s with | (a, t) => _) = _
  rcases x s with ⟨_ | _, _⟩ <;> rfl

/-- A choice between computations is a choice between their results. -/
@[simp] theorem M.ite_run (c : Prop) [Decidable c] (x y : M α) (s : State) :
    (if c then x else y) s = if c then x s else y s := by split <;> rfl

/-! ### How a meaning ends -/

/-- A meaning whose computation succeeds retires. -/
theorem State.conclude_ok {s t : State} {m : M Unit} (h : m s = (.ok (), t)) :
    s.conclude m = .next t.finish := by simp [State.conclude, h]

/-- A convoy of one whose computation traps takes the trap. -/
theorem State.conclude_trap {s t : State} {m : M Unit} {i : TrapInfo}
    (h : m s = (.error (.trap i), t)) (hm : t.cv.many = false) :
    s.conclude m = .next (t.takeTrap i) := by simp [State.conclude, h, hm]

/-- A member of a convoy of several leaves its trap to the runner. -/
theorem State.conclude_member {s t : State} {m : M Unit} {i : TrapInfo}
    (h : m s = (.error (.trap i), t)) (hm : t.cv.many = true) :
    s.conclude m = .next (t.modCv (fun c => { c with trap := some i, trapMbr := c.mbr })) := by
  simp [State.conclude, h, hm]

/-- A computation that waits leaves the thread waiting. -/
theorem State.conclude_wait {s t : State} {m : M Unit} {w : Wait}
    (h : m s = (.error (.wait w), t)) :
    s.conclude m = .next ((t.modCv (fun c => { c with waits := true })).modHw
      (fun h => { h with wait := some w })) := by simp [State.conclude, h]

end Sys2Proof.Machine
end

