-- ==== Sys2Proof/Laws/Access.lean ====
section
/-!
SUPPORT. Scalar accesses, releases and the vector checks, where they succeed.
-/

namespace Sys2Proof.Machine

open Sys2Proof

/-- A drain that nothing holds up performs the whole buffer. -/
theorem drainBuffer_ok {s : State} (h : s.bufHeld s.cur s.th.hw.buf = false) :
    drainBuffer s = (.ok (), s.drainAll) := by
  simp only [drainBuffer]
  rw [M.get_bind]
  simp [h]

/-- With every train acknowledged nothing is awaited. -/
theorem awaitTrains_ok {s : State} (h : s.th.hw.trains = []) : awaitTrains s = (.ok (), s) := by
  simp only [awaitTrains]
  rw [M.get_bind]
  simp [h]

/-- A release that does not wait. -/
theorem release_ok {s : State} (h : s.clear = true) : release s = (.ok (), s.drainAll) := by
  simp only [State.clear, Bool.and_eq_true, Bool.not_eq_eq_eq_not, Bool.not_true, beq_iff_eq] at h
  simp only [release]
  rw [M.bind_ok _ _ s s.drainAll () (drainBuffer_ok h.1)]
  exact awaitTrains_ok h.2

/-- A translation that does not wait. -/
theorem resolveIn_ok {s r u : State} {places : List TlbPlace} {acc : Access} {va : W64} {x : Xlat}
    (h : s.ready places acc va = some r) (hx : r.resolve places r.ctx acc va = (.ok x, u)) :
    resolveIn places State.ctx acc va s = (.ok (.ok x), u) := by
  have hr : (fun t : State => (do
      let u ← get
      let r := u.resolve places u.ctx acc va
      set r.2
      match r.1 with
      | .error (.held _) => waitFor .line
      | x => pure x : M (Except XFault Xlat)) t) r = (.ok (.ok x), u) := by
    show ((get : M State) >>= _) r = _
    rw [M.get_bind, M.set_bind]
    simp only [hx]
    rfl
  simp only [resolveIn]
  rw [M.get_bind]
  unfold State.ready at h
  split at h
  · rename_i y hy
    simp only [hy]
    split at h
    · rename_i hp
      split at h
      · rename_i hc
        cases h
        simp only [State.clear, Bool.and_eq_true, Bool.not_eq_eq_eq_not, Bool.not_true, beq_iff_eq] at hc
        simp only [hp, if_true]
        rw [M.bind_ok _ _ s s.drainAll () (drainBuffer_ok hc.1),
          M.bind_ok _ _ s.drainAll s.drainAll () (awaitTrains_ok hc.2)]
        exact hr
      · cases h
    · rename_i hp
      cases h
      simp only [hp]
      exact hr
  · rename_i f hf
    cases h
    simp only [hf]
    exact hr

/-- A translation that neither traps nor waits. -/
theorem resolveNow_ok {s r u : State} {places : List TlbPlace} {acc : Access} {va : W64} {x : Xlat}
    (h : s.ready places acc va = some r) (hx : r.resolve places r.ctx acc va = (.ok x, u)) :
    resolveNow places acc va s = (.ok (.ok x), u) := by
  simp only [resolveNow]
  rw [M.bind_ok _ _ s u (.ok x) (resolveIn_ok h hx)]
  rfl

/-- An address that finds its place translates. -/
theorem translatePlace_ok {s u : State} {acc : Access} {va : W64} {p : Phys}
    (h : s.placed acc va = some (p, u)) : translatePlace acc va s = (.ok p, u) := by
  unfold State.placed at h
  split at h
  · cases h
  · rename_i r hr
    split at h
    · rename_i x v hx
      simp only [Option.some.injEq, Prod.mk.injEq] at h
      obtain ⟨rfl, rfl⟩ := h
      simp only [translatePlace]
      rw [M.get_bind, M.bind_ok _ _ s v (.ok x) (resolveNow_ok hr hx)]
      rfl
    · cases h

/-- What a free place asks of an access is met. -/
theorem checkHome_ok {s : State} {va : W64} {p : Phys} {n : Nat} (h : s.homeFree p n = true) :
    checkHome va p n s = (.ok (), s) := by
  simp only [State.homeFree, Bool.and_eq_true, Bool.not_eq_eq_eq_not, Bool.not_true] at h
  have ha : checkArrivals p n s = (.ok (), s) := by
    simp only [checkArrivals]
    rw [M.get_bind]
    simp [h.1.1, h.1.2]
  simp only [checkHome]
  rw [M.bind_ok _ _ s s () ha, M.get_bind]
  simp [h.2]

/-- An access that finds its place passes the alignment and lock checks and the translation. -/
theorem State.got_parts {s u : State} {acc : Access} {va : W64} {n : Nat} {p : Phys}
    (h : s.got acc va n = some (p, u)) :
    checkAlign va n s = (.ok (), s) ∧
      checkLock va n (decide (acc = .store)) s = (.ok (), s) ∧
      translateScalar acc va n s = (.ok p, u) := by
  unfold State.got at h
  split at h
  · rename_i hc
    refine ⟨by simp [checkAlign, hc.1], ?_, ?_⟩
    · simp only [checkLock]
      rw [M.get_bind]
      simp [hc.2]
    · split at h
      · rename_i q v hx
        split at h
        · rename_i hf
          simp only [Option.some.injEq, Prod.mk.injEq] at h
          obtain ⟨rfl, rfl⟩ := h
          simp only [translateScalar]
          rw [M.bind_ok _ _ s v q (translatePlace_ok hx), M.bind_ok _ _ v v () (checkHome_ok hf)]
          rfl
        · cases h
      · cases h
  · cases h

/-- The cache traffic of a scalar load changes neither the buffer nor what is poisoned. -/
theorem readBytes_ok {u : State} {va : W64} {p : Phys} {n : Nat}
    (hp : (u.scalarTouch p).consumes p.loc n = false) :
    readBytes va p n u =
      (.ok ((List.range n).map (fun k => (u.scalarTouch p).readByte p.owner (p.loc + k))),
        u.scalarTouch p) := by
  simp only [readBytes]
  rw [M.get_bind, M.modify_bind]
  simp only [takeBytes]
  split
  · rw [M.get_bind]
    rfl
  · rw [M.get_bind]
    simp [hp]

/-- A load that finds a clean place gives the bytes the thread sees there. -/
theorem loadScalar_got {s u : State} {va : W64} {n : Nat} {p : Phys}
    (h : s.got .load va n = some (p, u)) (hp : (u.scalarTouch p).consumes p.loc n = false) :
    loadScalar va n s = (.ok ((u.scalarTouch p).seen p n), u.scalarTouch p) := by
  obtain ⟨h1, h2, h3⟩ := State.got_parts h
  have h2' : checkLock va n false s = (.ok (), s) := h2
  simp only [loadScalar]
  rw [M.bind_ok _ _ s s () h1, M.bind_ok _ _ s s () h2', M.bind_ok _ _ s u p h3,
    M.bind_ok _ _ u _ _ (readBytes_ok hp)]
  rfl

/-- Stores with room do not wait for it. -/
theorem storeRoom_ok {s : State} {ps : List Phys} (h : s.roomAt ps = true) :
    storeRoom ps s = (.ok (), s) := by
  simp only [State.roomAt, Bool.not_eq_eq_eq_not, Bool.not_true] at h
  simp only [storeRoom]
  rw [M.get_bind]
  simp [h]

/-- Nor do writes that are performed at once. -/
theorem pendingRoom_ok {s : State} {ps : List Phys} (h : s.roomNow ps = true) :
    pendingRoom ps s = (.ok (), s) := by
  simp only [State.roomNow, Bool.not_eq_eq_eq_not, Bool.not_true] at h
  simp only [pendingRoom]
  rw [M.get_bind]
  simp [h]

/-- A store with room enters the buffer. -/
theorem storeScalar_got {s u : State} {va : W64} {n v : Nat} {p : Phys}
    (h : s.got .store va n = some (p, u)) (hp : u.roomAt [p] = true) :
    storeScalar va n v s = (.ok (), u.pushScalar (writesOf p.loc (leBytes n v)) p.kid false) := by
  obtain ⟨h1, h2, h3⟩ := State.got_parts h
  have h2' : checkLock va n true s = (.ok (), s) := h2
  simp only [storeScalar]
  rw [M.bind_ok _ _ s s () h1, M.bind_ok _ _ s s () h2', M.bind_ok _ _ s u p h3,
    M.bind_ok _ _ u u () (storeRoom_ok hp)]
  rfl

/-- Off the SC, with vector state present, the gate of the vector side passes. -/
theorem vectorGate_ok {s : State} (h : s.th.sc.mode ≠ .S) (ha : s.th.tr.absent = false) :
    vectorGate s = (.ok (), s) := by
  simp only [vectorGate]
  rw [M.get_bind]
  simp [h, ha]

/-- The first checks of a vector-state instruction pass. -/
theorem vectorChecks_ok {s : State} {regs : List (BitVec 5)} {types : Vt → Bool}
    (h : s.vecOk regs types = true) : vectorChecks regs types s = (.ok s.vt, s) := by
  simp only [State.vecOk, Bool.and_eq_true, bne_iff_ne, ne_eq, Bool.not_eq_eq_eq_not,
    Bool.not_true] at h
  obtain ⟨⟨⟨h1, h2⟩, h3⟩, h4⟩ := h
  have hg : vectorGate s = (.ok (), s) := vectorGate_ok h1 h2
  have hn : needGroups regs s = (.ok (), s) := by
    simp only [needGroups]
    rw [M.get_bind]
    simp [h3]
  simp only [vectorChecks]
  rw [M.bind_ok _ _ s s () hg, M.bind_ok _ _ s s () hn, M.get_bind,
    M.bind_ok _ _ s s () (by simp [h4])]
  rfl

end Sys2Proof.Machine
end

