-- ==== Sys2Proof/Laws/State.lean ====
section
/-!
SUPPORT. What each named update of the state leaves and changes: one lemma for each field, so that no
proof unfolds a record update.
-/

namespace Sys2Proof.Machine


/-! ### modSc -/

@[simp] theorem State.modSc_sc (s : State) (f : Scalars → Scalars) :
    (s.modSc f).th.sc = f s.th.sc := rfl
@[simp] theorem State.modSc_vec (s : State) (f : Scalars → Scalars) :
    (s.modSc f).th.vec = s.th.vec := rfl
@[simp] theorem State.modSc_held (s : State) (f : Scalars → Scalars) :
    (s.modSc f).th.held = s.th.held := rfl
@[simp] theorem State.modSc_fl (s : State) (f : Scalars → Scalars) :
    (s.modSc f).th.fl = s.th.fl := rfl
@[simp] theorem State.modSc_tr (s : State) (f : Scalars → Scalars) :
    (s.modSc f).th.tr = s.th.tr := rfl
@[simp] theorem State.modSc_nest (s : State) (f : Scalars → Scalars) :
    (s.modSc f).th.nest = s.th.nest := rfl
@[simp] theorem State.modSc_id (s : State) (f : Scalars → Scalars) :
    (s.modSc f).th.id = s.th.id := rfl
@[simp] theorem State.modSc_hw (s : State) (f : Scalars → Scalars) :
    (s.modSc f).th.hw = s.th.hw := rfl
@[simp] theorem State.modSc_cur (s : State) (f : Scalars → Scalars) :
    (s.modSc f).cur = s.cur := rfl
@[simp] theorem State.modSc_slots (s : State) (f : Scalars → Scalars) :
    (s.modSc f).slots = s.slots := rfl
@[simp] theorem State.modSc_vcs (s : State) (f : Scalars → Scalars) :
    (s.modSc f).vcs = s.vcs := rfl
@[simp] theorem State.modSc_tiles (s : State) (f : Scalars → Scalars) :
    (s.modSc f).tiles = s.tiles := rfl
@[simp] theorem State.modSc_parts (s : State) (f : Scalars → Scalars) :
    (s.modSc f).parts = s.parts := rfl
@[simp] theorem State.modSc_vfs (s : State) (f : Scalars → Scalars) :
    (s.modSc f).vfs = s.vfs := rfl
@[simp] theorem State.modSc_seqs (s : State) (f : Scalars → Scalars) :
    (s.modSc f).seqs = s.seqs := rfl
@[simp] theorem State.modSc_flows (s : State) (f : Scalars → Scalars) :
    (s.modSc f).flows = s.flows := rfl
@[simp] theorem State.modSc_engines (s : State) (f : Scalars → Scalars) :
    (s.modSc f).engines = s.engines := rfl
@[simp] theorem State.modSc_engPart (s : State) (f : Scalars → Scalars) :
    (s.modSc f).engPart = s.engPart := rfl
@[simp] theorem State.modSc_nextCmd (s : State) (f : Scalars → Scalars) :
    (s.modSc f).nextCmd = s.nextCmd := rfl
@[simp] theorem State.modSc_mem (s : State) (f : Scalars → Scalars) :
    (s.modSc f).mem = s.mem := rfl
@[simp] theorem State.modSc_hub (s : State) (f : Scalars → Scalars) :
    (s.modSc f).hub = s.hub := rfl
@[simp] theorem State.modSc_sent (s : State) (f : Scalars → Scalars) :
    (s.modSc f).sent = s.sent := rfl
@[simp] theorem State.modSc_bridged (s : State) (f : Scalars → Scalars) :
    (s.modSc f).bridged = s.bridged := rfl
@[simp] theorem State.modSc_sliceRes (s : State) (f : Scalars → Scalars) :
    (s.modSc f).sliceRes = s.sliceRes := rfl
@[simp] theorem State.modSc_sched (s : State) (f : Scalars → Scalars) :
    (s.modSc f).sched = s.sched := rfl
@[simp] theorem State.modSc_cv (s : State) (f : Scalars → Scalars) :
    (s.modSc f).cv = s.cv := rfl
@[simp] theorem State.modSc_free (s : State) (f : Scalars → Scalars) :
    (s.modSc f).free = s.free := rfl

/-! ### modVec -/

@[simp] theorem State.modVec_sc (s : State) (f : VecState → VecState) :
    (s.modVec f).th.sc = s.th.sc := rfl
@[simp] theorem State.modVec_vec (s : State) (f : VecState → VecState) :
    (s.modVec f).th.vec = f s.th.vec := rfl
@[simp] theorem State.modVec_held (s : State) (f : VecState → VecState) :
    (s.modVec f).th.held = s.th.held := rfl
@[simp] theorem State.modVec_fl (s : State) (f : VecState → VecState) :
    (s.modVec f).th.fl = s.th.fl := rfl
@[simp] theorem State.modVec_tr (s : State) (f : VecState → VecState) :
    (s.modVec f).th.tr = s.th.tr := rfl
@[simp] theorem State.modVec_nest (s : State) (f : VecState → VecState) :
    (s.modVec f).th.nest = s.th.nest := rfl
@[simp] theorem State.modVec_id (s : State) (f : VecState → VecState) :
    (s.modVec f).th.id = s.th.id := rfl
@[simp] theorem State.modVec_hw (s : State) (f : VecState → VecState) :
    (s.modVec f).th.hw = s.th.hw := rfl
@[simp] theorem State.modVec_cur (s : State) (f : VecState → VecState) :
    (s.modVec f).cur = s.cur := rfl
@[simp] theorem State.modVec_slots (s : State) (f : VecState → VecState) :
    (s.modVec f).slots = s.slots := rfl
@[simp] theorem State.modVec_vcs (s : State) (f : VecState → VecState) :
    (s.modVec f).vcs = s.vcs := rfl
@[simp] theorem State.modVec_tiles (s : State) (f : VecState → VecState) :
    (s.modVec f).tiles = s.tiles := rfl
@[simp] theorem State.modVec_parts (s : State) (f : VecState → VecState) :
    (s.modVec f).parts = s.parts := rfl
@[simp] theorem State.modVec_vfs (s : State) (f : VecState → VecState) :
    (s.modVec f).vfs = s.vfs := rfl
@[simp] theorem State.modVec_seqs (s : State) (f : VecState → VecState) :
    (s.modVec f).seqs = s.seqs := rfl
@[simp] theorem State.modVec_flows (s : State) (f : VecState → VecState) :
    (s.modVec f).flows = s.flows := rfl
@[simp] theorem State.modVec_engines (s : State) (f : VecState → VecState) :
    (s.modVec f).engines = s.engines := rfl
@[simp] theorem State.modVec_engPart (s : State) (f : VecState → VecState) :
    (s.modVec f).engPart = s.engPart := rfl
@[simp] theorem State.modVec_nextCmd (s : State) (f : VecState → VecState) :
    (s.modVec f).nextCmd = s.nextCmd := rfl
@[simp] theorem State.modVec_mem (s : State) (f : VecState → VecState) :
    (s.modVec f).mem = s.mem := rfl
@[simp] theorem State.modVec_hub (s : State) (f : VecState → VecState) :
    (s.modVec f).hub = s.hub := rfl
@[simp] theorem State.modVec_sent (s : State) (f : VecState → VecState) :
    (s.modVec f).sent = s.sent := rfl
@[simp] theorem State.modVec_bridged (s : State) (f : VecState → VecState) :
    (s.modVec f).bridged = s.bridged := rfl
@[simp] theorem State.modVec_sliceRes (s : State) (f : VecState → VecState) :
    (s.modVec f).sliceRes = s.sliceRes := rfl
@[simp] theorem State.modVec_sched (s : State) (f : VecState → VecState) :
    (s.modVec f).sched = s.sched := rfl
@[simp] theorem State.modVec_cv (s : State) (f : VecState → VecState) :
    (s.modVec f).cv = s.cv := rfl
@[simp] theorem State.modVec_free (s : State) (f : VecState → VecState) :
    (s.modVec f).free = s.free := rfl

/-! ### modHeld -/

@[simp] theorem State.modHeld_sc (s : State) (f : Held → Held) :
    (s.modHeld f).th.sc = s.th.sc := rfl
@[simp] theorem State.modHeld_vec (s : State) (f : Held → Held) :
    (s.modHeld f).th.vec = s.th.vec := rfl
@[simp] theorem State.modHeld_held (s : State) (f : Held → Held) :
    (s.modHeld f).th.held = f s.th.held := rfl
@[simp] theorem State.modHeld_fl (s : State) (f : Held → Held) :
    (s.modHeld f).th.fl = s.th.fl := rfl
@[simp] theorem State.modHeld_tr (s : State) (f : Held → Held) :
    (s.modHeld f).th.tr = s.th.tr := rfl
@[simp] theorem State.modHeld_nest (s : State) (f : Held → Held) :
    (s.modHeld f).th.nest = s.th.nest := rfl
@[simp] theorem State.modHeld_id (s : State) (f : Held → Held) :
    (s.modHeld f).th.id = s.th.id := rfl
@[simp] theorem State.modHeld_hw (s : State) (f : Held → Held) :
    (s.modHeld f).th.hw = s.th.hw := rfl
@[simp] theorem State.modHeld_cur (s : State) (f : Held → Held) :
    (s.modHeld f).cur = s.cur := rfl
@[simp] theorem State.modHeld_slots (s : State) (f : Held → Held) :
    (s.modHeld f).slots = s.slots := rfl
@[simp] theorem State.modHeld_vcs (s : State) (f : Held → Held) :
    (s.modHeld f).vcs = s.vcs := rfl
@[simp] theorem State.modHeld_tiles (s : State) (f : Held → Held) :
    (s.modHeld f).tiles = s.tiles := rfl
@[simp] theorem State.modHeld_parts (s : State) (f : Held → Held) :
    (s.modHeld f).parts = s.parts := rfl
@[simp] theorem State.modHeld_vfs (s : State) (f : Held → Held) :
    (s.modHeld f).vfs = s.vfs := rfl
@[simp] theorem State.modHeld_seqs (s : State) (f : Held → Held) :
    (s.modHeld f).seqs = s.seqs := rfl
@[simp] theorem State.modHeld_flows (s : State) (f : Held → Held) :
    (s.modHeld f).flows = s.flows := rfl
@[simp] theorem State.modHeld_engines (s : State) (f : Held → Held) :
    (s.modHeld f).engines = s.engines := rfl
@[simp] theorem State.modHeld_engPart (s : State) (f : Held → Held) :
    (s.modHeld f).engPart = s.engPart := rfl
@[simp] theorem State.modHeld_nextCmd (s : State) (f : Held → Held) :
    (s.modHeld f).nextCmd = s.nextCmd := rfl
@[simp] theorem State.modHeld_mem (s : State) (f : Held → Held) :
    (s.modHeld f).mem = s.mem := rfl
@[simp] theorem State.modHeld_hub (s : State) (f : Held → Held) :
    (s.modHeld f).hub = s.hub := rfl
@[simp] theorem State.modHeld_sent (s : State) (f : Held → Held) :
    (s.modHeld f).sent = s.sent := rfl
@[simp] theorem State.modHeld_bridged (s : State) (f : Held → Held) :
    (s.modHeld f).bridged = s.bridged := rfl
@[simp] theorem State.modHeld_sliceRes (s : State) (f : Held → Held) :
    (s.modHeld f).sliceRes = s.sliceRes := rfl
@[simp] theorem State.modHeld_sched (s : State) (f : Held → Held) :
    (s.modHeld f).sched = s.sched := rfl
@[simp] theorem State.modHeld_cv (s : State) (f : Held → Held) :
    (s.modHeld f).cv = s.cv := rfl
@[simp] theorem State.modHeld_free (s : State) (f : Held → Held) :
    (s.modHeld f).free = s.free := rfl

/-! ### modFl -/

@[simp] theorem State.modFl_sc (s : State) (f : Flags → Flags) :
    (s.modFl f).th.sc = s.th.sc := rfl
@[simp] theorem State.modFl_vec (s : State) (f : Flags → Flags) :
    (s.modFl f).th.vec = s.th.vec := rfl
@[simp] theorem State.modFl_held (s : State) (f : Flags → Flags) :
    (s.modFl f).th.held = s.th.held := rfl
@[simp] theorem State.modFl_fl (s : State) (f : Flags → Flags) :
    (s.modFl f).th.fl = f s.th.fl := rfl
@[simp] theorem State.modFl_tr (s : State) (f : Flags → Flags) :
    (s.modFl f).th.tr = s.th.tr := rfl
@[simp] theorem State.modFl_nest (s : State) (f : Flags → Flags) :
    (s.modFl f).th.nest = s.th.nest := rfl
@[simp] theorem State.modFl_id (s : State) (f : Flags → Flags) :
    (s.modFl f).th.id = s.th.id := rfl
@[simp] theorem State.modFl_hw (s : State) (f : Flags → Flags) :
    (s.modFl f).th.hw = s.th.hw := rfl
@[simp] theorem State.modFl_cur (s : State) (f : Flags → Flags) :
    (s.modFl f).cur = s.cur := rfl
@[simp] theorem State.modFl_slots (s : State) (f : Flags → Flags) :
    (s.modFl f).slots = s.slots := rfl
@[simp] theorem State.modFl_vcs (s : State) (f : Flags → Flags) :
    (s.modFl f).vcs = s.vcs := rfl
@[simp] theorem State.modFl_tiles (s : State) (f : Flags → Flags) :
    (s.modFl f).tiles = s.tiles := rfl
@[simp] theorem State.modFl_parts (s : State) (f : Flags → Flags) :
    (s.modFl f).parts = s.parts := rfl
@[simp] theorem State.modFl_vfs (s : State) (f : Flags → Flags) :
    (s.modFl f).vfs = s.vfs := rfl
@[simp] theorem State.modFl_seqs (s : State) (f : Flags → Flags) :
    (s.modFl f).seqs = s.seqs := rfl
@[simp] theorem State.modFl_flows (s : State) (f : Flags → Flags) :
    (s.modFl f).flows = s.flows := rfl
@[simp] theorem State.modFl_engines (s : State) (f : Flags → Flags) :
    (s.modFl f).engines = s.engines := rfl
@[simp] theorem State.modFl_engPart (s : State) (f : Flags → Flags) :
    (s.modFl f).engPart = s.engPart := rfl
@[simp] theorem State.modFl_nextCmd (s : State) (f : Flags → Flags) :
    (s.modFl f).nextCmd = s.nextCmd := rfl
@[simp] theorem State.modFl_mem (s : State) (f : Flags → Flags) :
    (s.modFl f).mem = s.mem := rfl
@[simp] theorem State.modFl_hub (s : State) (f : Flags → Flags) :
    (s.modFl f).hub = s.hub := rfl
@[simp] theorem State.modFl_sent (s : State) (f : Flags → Flags) :
    (s.modFl f).sent = s.sent := rfl
@[simp] theorem State.modFl_bridged (s : State) (f : Flags → Flags) :
    (s.modFl f).bridged = s.bridged := rfl
@[simp] theorem State.modFl_sliceRes (s : State) (f : Flags → Flags) :
    (s.modFl f).sliceRes = s.sliceRes := rfl
@[simp] theorem State.modFl_sched (s : State) (f : Flags → Flags) :
    (s.modFl f).sched = s.sched := rfl
@[simp] theorem State.modFl_cv (s : State) (f : Flags → Flags) :
    (s.modFl f).cv = s.cv := rfl
@[simp] theorem State.modFl_free (s : State) (f : Flags → Flags) :
    (s.modFl f).free = s.free := rfl

/-! ### modTr -/

@[simp] theorem State.modTr_sc (s : State) (f : Recs → Recs) :
    (s.modTr f).th.sc = s.th.sc := rfl
@[simp] theorem State.modTr_vec (s : State) (f : Recs → Recs) :
    (s.modTr f).th.vec = s.th.vec := rfl
@[simp] theorem State.modTr_held (s : State) (f : Recs → Recs) :
    (s.modTr f).th.held = s.th.held := rfl
@[simp] theorem State.modTr_fl (s : State) (f : Recs → Recs) :
    (s.modTr f).th.fl = s.th.fl := rfl
@[simp] theorem State.modTr_tr (s : State) (f : Recs → Recs) :
    (s.modTr f).th.tr = f s.th.tr := rfl
@[simp] theorem State.modTr_nest (s : State) (f : Recs → Recs) :
    (s.modTr f).th.nest = s.th.nest := rfl
@[simp] theorem State.modTr_id (s : State) (f : Recs → Recs) :
    (s.modTr f).th.id = s.th.id := rfl
@[simp] theorem State.modTr_hw (s : State) (f : Recs → Recs) :
    (s.modTr f).th.hw = s.th.hw := rfl
@[simp] theorem State.modTr_cur (s : State) (f : Recs → Recs) :
    (s.modTr f).cur = s.cur := rfl
@[simp] theorem State.modTr_slots (s : State) (f : Recs → Recs) :
    (s.modTr f).slots = s.slots := rfl
@[simp] theorem State.modTr_vcs (s : State) (f : Recs → Recs) :
    (s.modTr f).vcs = s.vcs := rfl
@[simp] theorem State.modTr_tiles (s : State) (f : Recs → Recs) :
    (s.modTr f).tiles = s.tiles := rfl
@[simp] theorem State.modTr_parts (s : State) (f : Recs → Recs) :
    (s.modTr f).parts = s.parts := rfl
@[simp] theorem State.modTr_vfs (s : State) (f : Recs → Recs) :
    (s.modTr f).vfs = s.vfs := rfl
@[simp] theorem State.modTr_seqs (s : State) (f : Recs → Recs) :
    (s.modTr f).seqs = s.seqs := rfl
@[simp] theorem State.modTr_flows (s : State) (f : Recs → Recs) :
    (s.modTr f).flows = s.flows := rfl
@[simp] theorem State.modTr_engines (s : State) (f : Recs → Recs) :
    (s.modTr f).engines = s.engines := rfl
@[simp] theorem State.modTr_engPart (s : State) (f : Recs → Recs) :
    (s.modTr f).engPart = s.engPart := rfl
@[simp] theorem State.modTr_nextCmd (s : State) (f : Recs → Recs) :
    (s.modTr f).nextCmd = s.nextCmd := rfl
@[simp] theorem State.modTr_mem (s : State) (f : Recs → Recs) :
    (s.modTr f).mem = s.mem := rfl
@[simp] theorem State.modTr_hub (s : State) (f : Recs → Recs) :
    (s.modTr f).hub = s.hub := rfl
@[simp] theorem State.modTr_sent (s : State) (f : Recs → Recs) :
    (s.modTr f).sent = s.sent := rfl
@[simp] theorem State.modTr_bridged (s : State) (f : Recs → Recs) :
    (s.modTr f).bridged = s.bridged := rfl
@[simp] theorem State.modTr_sliceRes (s : State) (f : Recs → Recs) :
    (s.modTr f).sliceRes = s.sliceRes := rfl
@[simp] theorem State.modTr_sched (s : State) (f : Recs → Recs) :
    (s.modTr f).sched = s.sched := rfl
@[simp] theorem State.modTr_cv (s : State) (f : Recs → Recs) :
    (s.modTr f).cv = s.cv := rfl
@[simp] theorem State.modTr_free (s : State) (f : Recs → Recs) :
    (s.modTr f).free = s.free := rfl

/-! ### modNest -/

@[simp] theorem State.modNest_sc (s : State) (f : Nest → Nest) :
    (s.modNest f).th.sc = s.th.sc := rfl
@[simp] theorem State.modNest_vec (s : State) (f : Nest → Nest) :
    (s.modNest f).th.vec = s.th.vec := rfl
@[simp] theorem State.modNest_held (s : State) (f : Nest → Nest) :
    (s.modNest f).th.held = s.th.held := rfl
@[simp] theorem State.modNest_fl (s : State) (f : Nest → Nest) :
    (s.modNest f).th.fl = s.th.fl := rfl
@[simp] theorem State.modNest_tr (s : State) (f : Nest → Nest) :
    (s.modNest f).th.tr = s.th.tr := rfl
@[simp] theorem State.modNest_nest (s : State) (f : Nest → Nest) :
    (s.modNest f).th.nest = f s.th.nest := rfl
@[simp] theorem State.modNest_id (s : State) (f : Nest → Nest) :
    (s.modNest f).th.id = s.th.id := rfl
@[simp] theorem State.modNest_hw (s : State) (f : Nest → Nest) :
    (s.modNest f).th.hw = s.th.hw := rfl
@[simp] theorem State.modNest_cur (s : State) (f : Nest → Nest) :
    (s.modNest f).cur = s.cur := rfl
@[simp] theorem State.modNest_slots (s : State) (f : Nest → Nest) :
    (s.modNest f).slots = s.slots := rfl
@[simp] theorem State.modNest_vcs (s : State) (f : Nest → Nest) :
    (s.modNest f).vcs = s.vcs := rfl
@[simp] theorem State.modNest_tiles (s : State) (f : Nest → Nest) :
    (s.modNest f).tiles = s.tiles := rfl
@[simp] theorem State.modNest_parts (s : State) (f : Nest → Nest) :
    (s.modNest f).parts = s.parts := rfl
@[simp] theorem State.modNest_vfs (s : State) (f : Nest → Nest) :
    (s.modNest f).vfs = s.vfs := rfl
@[simp] theorem State.modNest_seqs (s : State) (f : Nest → Nest) :
    (s.modNest f).seqs = s.seqs := rfl
@[simp] theorem State.modNest_flows (s : State) (f : Nest → Nest) :
    (s.modNest f).flows = s.flows := rfl
@[simp] theorem State.modNest_engines (s : State) (f : Nest → Nest) :
    (s.modNest f).engines = s.engines := rfl
@[simp] theorem State.modNest_engPart (s : State) (f : Nest → Nest) :
    (s.modNest f).engPart = s.engPart := rfl
@[simp] theorem State.modNest_nextCmd (s : State) (f : Nest → Nest) :
    (s.modNest f).nextCmd = s.nextCmd := rfl
@[simp] theorem State.modNest_mem (s : State) (f : Nest → Nest) :
    (s.modNest f).mem = s.mem := rfl
@[simp] theorem State.modNest_hub (s : State) (f : Nest → Nest) :
    (s.modNest f).hub = s.hub := rfl
@[simp] theorem State.modNest_sent (s : State) (f : Nest → Nest) :
    (s.modNest f).sent = s.sent := rfl
@[simp] theorem State.modNest_bridged (s : State) (f : Nest → Nest) :
    (s.modNest f).bridged = s.bridged := rfl
@[simp] theorem State.modNest_sliceRes (s : State) (f : Nest → Nest) :
    (s.modNest f).sliceRes = s.sliceRes := rfl
@[simp] theorem State.modNest_sched (s : State) (f : Nest → Nest) :
    (s.modNest f).sched = s.sched := rfl
@[simp] theorem State.modNest_cv (s : State) (f : Nest → Nest) :
    (s.modNest f).cv = s.cv := rfl
@[simp] theorem State.modNest_free (s : State) (f : Nest → Nest) :
    (s.modNest f).free = s.free := rfl

/-! ### modHw -/

@[simp] theorem State.modHw_sc (s : State) (f : SlotHw → SlotHw) :
    (s.modHw f).th.sc = s.th.sc := rfl
@[simp] theorem State.modHw_vec (s : State) (f : SlotHw → SlotHw) :
    (s.modHw f).th.vec = s.th.vec := rfl
@[simp] theorem State.modHw_held (s : State) (f : SlotHw → SlotHw) :
    (s.modHw f).th.held = s.th.held := rfl
@[simp] theorem State.modHw_fl (s : State) (f : SlotHw → SlotHw) :
    (s.modHw f).th.fl = s.th.fl := rfl
@[simp] theorem State.modHw_tr (s : State) (f : SlotHw → SlotHw) :
    (s.modHw f).th.tr = s.th.tr := rfl
@[simp] theorem State.modHw_nest (s : State) (f : SlotHw → SlotHw) :
    (s.modHw f).th.nest = s.th.nest := rfl
@[simp] theorem State.modHw_id (s : State) (f : SlotHw → SlotHw) :
    (s.modHw f).th.id = s.th.id := rfl
@[simp] theorem State.modHw_hw (s : State) (f : SlotHw → SlotHw) :
    (s.modHw f).th.hw = f s.th.hw := rfl
@[simp] theorem State.modHw_cur (s : State) (f : SlotHw → SlotHw) :
    (s.modHw f).cur = s.cur := rfl
@[simp] theorem State.modHw_slots (s : State) (f : SlotHw → SlotHw) :
    (s.modHw f).slots = s.slots := rfl
@[simp] theorem State.modHw_vcs (s : State) (f : SlotHw → SlotHw) :
    (s.modHw f).vcs = s.vcs := rfl
@[simp] theorem State.modHw_tiles (s : State) (f : SlotHw → SlotHw) :
    (s.modHw f).tiles = s.tiles := rfl
@[simp] theorem State.modHw_parts (s : State) (f : SlotHw → SlotHw) :
    (s.modHw f).parts = s.parts := rfl
@[simp] theorem State.modHw_vfs (s : State) (f : SlotHw → SlotHw) :
    (s.modHw f).vfs = s.vfs := rfl
@[simp] theorem State.modHw_seqs (s : State) (f : SlotHw → SlotHw) :
    (s.modHw f).seqs = s.seqs := rfl
@[simp] theorem State.modHw_flows (s : State) (f : SlotHw → SlotHw) :
    (s.modHw f).flows = s.flows := rfl
@[simp] theorem State.modHw_engines (s : State) (f : SlotHw → SlotHw) :
    (s.modHw f).engines = s.engines := rfl
@[simp] theorem State.modHw_engPart (s : State) (f : SlotHw → SlotHw) :
    (s.modHw f).engPart = s.engPart := rfl
@[simp] theorem State.modHw_nextCmd (s : State) (f : SlotHw → SlotHw) :
    (s.modHw f).nextCmd = s.nextCmd := rfl
@[simp] theorem State.modHw_mem (s : State) (f : SlotHw → SlotHw) :
    (s.modHw f).mem = s.mem := rfl
@[simp] theorem State.modHw_hub (s : State) (f : SlotHw → SlotHw) :
    (s.modHw f).hub = s.hub := rfl
@[simp] theorem State.modHw_sent (s : State) (f : SlotHw → SlotHw) :
    (s.modHw f).sent = s.sent := rfl
@[simp] theorem State.modHw_bridged (s : State) (f : SlotHw → SlotHw) :
    (s.modHw f).bridged = s.bridged := rfl
@[simp] theorem State.modHw_sliceRes (s : State) (f : SlotHw → SlotHw) :
    (s.modHw f).sliceRes = s.sliceRes := rfl
@[simp] theorem State.modHw_sched (s : State) (f : SlotHw → SlotHw) :
    (s.modHw f).sched = s.sched := rfl
@[simp] theorem State.modHw_cv (s : State) (f : SlotHw → SlotHw) :
    (s.modHw f).cv = s.cv := rfl
@[simp] theorem State.modHw_free (s : State) (f : SlotHw → SlotHw) :
    (s.modHw f).free = s.free := rfl

/-! ### modCv -/

@[simp] theorem State.modCv_th (s : State) (f : Convoy → Convoy) :
    (s.modCv f).th = s.th := rfl
@[simp] theorem State.modCv_cur (s : State) (f : Convoy → Convoy) :
    (s.modCv f).cur = s.cur := rfl
@[simp] theorem State.modCv_slots (s : State) (f : Convoy → Convoy) :
    (s.modCv f).slots = s.slots := rfl
@[simp] theorem State.modCv_vcs (s : State) (f : Convoy → Convoy) :
    (s.modCv f).vcs = s.vcs := rfl
@[simp] theorem State.modCv_tiles (s : State) (f : Convoy → Convoy) :
    (s.modCv f).tiles = s.tiles := rfl
@[simp] theorem State.modCv_parts (s : State) (f : Convoy → Convoy) :
    (s.modCv f).parts = s.parts := rfl
@[simp] theorem State.modCv_vfs (s : State) (f : Convoy → Convoy) :
    (s.modCv f).vfs = s.vfs := rfl
@[simp] theorem State.modCv_seqs (s : State) (f : Convoy → Convoy) :
    (s.modCv f).seqs = s.seqs := rfl
@[simp] theorem State.modCv_flows (s : State) (f : Convoy → Convoy) :
    (s.modCv f).flows = s.flows := rfl
@[simp] theorem State.modCv_engines (s : State) (f : Convoy → Convoy) :
    (s.modCv f).engines = s.engines := rfl
@[simp] theorem State.modCv_engPart (s : State) (f : Convoy → Convoy) :
    (s.modCv f).engPart = s.engPart := rfl
@[simp] theorem State.modCv_nextCmd (s : State) (f : Convoy → Convoy) :
    (s.modCv f).nextCmd = s.nextCmd := rfl
@[simp] theorem State.modCv_mem (s : State) (f : Convoy → Convoy) :
    (s.modCv f).mem = s.mem := rfl
@[simp] theorem State.modCv_hub (s : State) (f : Convoy → Convoy) :
    (s.modCv f).hub = s.hub := rfl
@[simp] theorem State.modCv_sent (s : State) (f : Convoy → Convoy) :
    (s.modCv f).sent = s.sent := rfl
@[simp] theorem State.modCv_bridged (s : State) (f : Convoy → Convoy) :
    (s.modCv f).bridged = s.bridged := rfl
@[simp] theorem State.modCv_sliceRes (s : State) (f : Convoy → Convoy) :
    (s.modCv f).sliceRes = s.sliceRes := rfl
@[simp] theorem State.modCv_sched (s : State) (f : Convoy → Convoy) :
    (s.modCv f).sched = s.sched := rfl
@[simp] theorem State.modCv_cv (s : State) (f : Convoy → Convoy) :
    (s.modCv f).cv = f s.cv := rfl
@[simp] theorem State.modCv_free (s : State) (f : Convoy → Convoy) :
    (s.modCv f).free = s.free := rfl

/-! ### modHub -/

@[simp] theorem State.modHub_th (s : State) (f : Hub → Hub) :
    (s.modHub f).th = s.th := rfl
@[simp] theorem State.modHub_cur (s : State) (f : Hub → Hub) :
    (s.modHub f).cur = s.cur := rfl
@[simp] theorem State.modHub_slots (s : State) (f : Hub → Hub) :
    (s.modHub f).slots = s.slots := rfl
@[simp] theorem State.modHub_vcs (s : State) (f : Hub → Hub) :
    (s.modHub f).vcs = s.vcs := rfl
@[simp] theorem State.modHub_tiles (s : State) (f : Hub → Hub) :
    (s.modHub f).tiles = s.tiles := rfl
@[simp] theorem State.modHub_parts (s : State) (f : Hub → Hub) :
    (s.modHub f).parts = s.parts := rfl
@[simp] theorem State.modHub_vfs (s : State) (f : Hub → Hub) :
    (s.modHub f).vfs = s.vfs := rfl
@[simp] theorem State.modHub_seqs (s : State) (f : Hub → Hub) :
    (s.modHub f).seqs = s.seqs := rfl
@[simp] theorem State.modHub_flows (s : State) (f : Hub → Hub) :
    (s.modHub f).flows = s.flows := rfl
@[simp] theorem State.modHub_engines (s : State) (f : Hub → Hub) :
    (s.modHub f).engines = s.engines := rfl
@[simp] theorem State.modHub_engPart (s : State) (f : Hub → Hub) :
    (s.modHub f).engPart = s.engPart := rfl
@[simp] theorem State.modHub_nextCmd (s : State) (f : Hub → Hub) :
    (s.modHub f).nextCmd = s.nextCmd := rfl
@[simp] theorem State.modHub_mem (s : State) (f : Hub → Hub) :
    (s.modHub f).mem = s.mem := rfl
@[simp] theorem State.modHub_hub (s : State) (f : Hub → Hub) :
    (s.modHub f).hub = f s.hub := rfl
@[simp] theorem State.modHub_sent (s : State) (f : Hub → Hub) :
    (s.modHub f).sent = s.sent := rfl
@[simp] theorem State.modHub_bridged (s : State) (f : Hub → Hub) :
    (s.modHub f).bridged = s.bridged := rfl
@[simp] theorem State.modHub_sliceRes (s : State) (f : Hub → Hub) :
    (s.modHub f).sliceRes = s.sliceRes := rfl
@[simp] theorem State.modHub_sched (s : State) (f : Hub → Hub) :
    (s.modHub f).sched = s.sched := rfl
@[simp] theorem State.modHub_cv (s : State) (f : Hub → Hub) :
    (s.modHub f).cv = s.cv := rfl
@[simp] theorem State.modHub_free (s : State) (f : Hub → Hub) :
    (s.modHub f).free = s.free := rfl

/-! ### modMem -/

@[simp] theorem State.modMem_th (s : State) (f : Mem → Mem) :
    (s.modMem f).th = s.th := rfl
@[simp] theorem State.modMem_cur (s : State) (f : Mem → Mem) :
    (s.modMem f).cur = s.cur := rfl
@[simp] theorem State.modMem_slots (s : State) (f : Mem → Mem) :
    (s.modMem f).slots = s.slots := rfl
@[simp] theorem State.modMem_vcs (s : State) (f : Mem → Mem) :
    (s.modMem f).vcs = s.vcs := rfl
@[simp] theorem State.modMem_tiles (s : State) (f : Mem → Mem) :
    (s.modMem f).tiles = s.tiles := rfl
@[simp] theorem State.modMem_parts (s : State) (f : Mem → Mem) :
    (s.modMem f).parts = s.parts := rfl
@[simp] theorem State.modMem_vfs (s : State) (f : Mem → Mem) :
    (s.modMem f).vfs = s.vfs := rfl
@[simp] theorem State.modMem_seqs (s : State) (f : Mem → Mem) :
    (s.modMem f).seqs = s.seqs := rfl
@[simp] theorem State.modMem_flows (s : State) (f : Mem → Mem) :
    (s.modMem f).flows = s.flows := rfl
@[simp] theorem State.modMem_engines (s : State) (f : Mem → Mem) :
    (s.modMem f).engines = s.engines := rfl
@[simp] theorem State.modMem_engPart (s : State) (f : Mem → Mem) :
    (s.modMem f).engPart = s.engPart := rfl
@[simp] theorem State.modMem_nextCmd (s : State) (f : Mem → Mem) :
    (s.modMem f).nextCmd = s.nextCmd := rfl
@[simp] theorem State.modMem_mem (s : State) (f : Mem → Mem) :
    (s.modMem f).mem = f s.mem := rfl
@[simp] theorem State.modMem_hub (s : State) (f : Mem → Mem) :
    (s.modMem f).hub = s.hub := rfl
@[simp] theorem State.modMem_sent (s : State) (f : Mem → Mem) :
    (s.modMem f).sent = s.sent := rfl
@[simp] theorem State.modMem_bridged (s : State) (f : Mem → Mem) :
    (s.modMem f).bridged = s.bridged := rfl
@[simp] theorem State.modMem_sliceRes (s : State) (f : Mem → Mem) :
    (s.modMem f).sliceRes = s.sliceRes := rfl
@[simp] theorem State.modMem_sched (s : State) (f : Mem → Mem) :
    (s.modMem f).sched = s.sched := rfl
@[simp] theorem State.modMem_cv (s : State) (f : Mem → Mem) :
    (s.modMem f).cv = s.cv := rfl
@[simp] theorem State.modMem_free (s : State) (f : Mem → Mem) :
    (s.modMem f).free = s.free := rfl

/-! ### modVc -/

@[simp] theorem State.modVc_th (s : State) (n : Nat) (f : Vc → Vc) :
    (s.modVc n f).th = s.th := rfl
@[simp] theorem State.modVc_cur (s : State) (n : Nat) (f : Vc → Vc) :
    (s.modVc n f).cur = s.cur := rfl
@[simp] theorem State.modVc_slots (s : State) (n : Nat) (f : Vc → Vc) :
    (s.modVc n f).slots = s.slots := rfl
@[simp] theorem State.modVc_tiles (s : State) (n : Nat) (f : Vc → Vc) :
    (s.modVc n f).tiles = s.tiles := rfl
@[simp] theorem State.modVc_parts (s : State) (n : Nat) (f : Vc → Vc) :
    (s.modVc n f).parts = s.parts := rfl
@[simp] theorem State.modVc_vfs (s : State) (n : Nat) (f : Vc → Vc) :
    (s.modVc n f).vfs = s.vfs := rfl
@[simp] theorem State.modVc_seqs (s : State) (n : Nat) (f : Vc → Vc) :
    (s.modVc n f).seqs = s.seqs := rfl
@[simp] theorem State.modVc_flows (s : State) (n : Nat) (f : Vc → Vc) :
    (s.modVc n f).flows = s.flows := rfl
@[simp] theorem State.modVc_engines (s : State) (n : Nat) (f : Vc → Vc) :
    (s.modVc n f).engines = s.engines := rfl
@[simp] theorem State.modVc_engPart (s : State) (n : Nat) (f : Vc → Vc) :
    (s.modVc n f).engPart = s.engPart := rfl
@[simp] theorem State.modVc_nextCmd (s : State) (n : Nat) (f : Vc → Vc) :
    (s.modVc n f).nextCmd = s.nextCmd := rfl
@[simp] theorem State.modVc_mem (s : State) (n : Nat) (f : Vc → Vc) :
    (s.modVc n f).mem = s.mem := rfl
@[simp] theorem State.modVc_hub (s : State) (n : Nat) (f : Vc → Vc) :
    (s.modVc n f).hub = s.hub := rfl
@[simp] theorem State.modVc_sent (s : State) (n : Nat) (f : Vc → Vc) :
    (s.modVc n f).sent = s.sent := rfl
@[simp] theorem State.modVc_bridged (s : State) (n : Nat) (f : Vc → Vc) :
    (s.modVc n f).bridged = s.bridged := rfl
@[simp] theorem State.modVc_sliceRes (s : State) (n : Nat) (f : Vc → Vc) :
    (s.modVc n f).sliceRes = s.sliceRes := rfl
@[simp] theorem State.modVc_sched (s : State) (n : Nat) (f : Vc → Vc) :
    (s.modVc n f).sched = s.sched := rfl
@[simp] theorem State.modVc_cv (s : State) (n : Nat) (f : Vc → Vc) :
    (s.modVc n f).cv = s.cv := rfl
@[simp] theorem State.modVc_free (s : State) (n : Nat) (f : Vc → Vc) :
    (s.modVc n f).free = s.free := rfl

/-! ### modTile -/

@[simp] theorem State.modTile_th (s : State) (n : Nat) (f : Tile → Tile) :
    (s.modTile n f).th = s.th := rfl
@[simp] theorem State.modTile_cur (s : State) (n : Nat) (f : Tile → Tile) :
    (s.modTile n f).cur = s.cur := rfl
@[simp] theorem State.modTile_slots (s : State) (n : Nat) (f : Tile → Tile) :
    (s.modTile n f).slots = s.slots := rfl
@[simp] theorem State.modTile_vcs (s : State) (n : Nat) (f : Tile → Tile) :
    (s.modTile n f).vcs = s.vcs := rfl
@[simp] theorem State.modTile_parts (s : State) (n : Nat) (f : Tile → Tile) :
    (s.modTile n f).parts = s.parts := rfl
@[simp] theorem State.modTile_vfs (s : State) (n : Nat) (f : Tile → Tile) :
    (s.modTile n f).vfs = s.vfs := rfl
@[simp] theorem State.modTile_seqs (s : State) (n : Nat) (f : Tile → Tile) :
    (s.modTile n f).seqs = s.seqs := rfl
@[simp] theorem State.modTile_flows (s : State) (n : Nat) (f : Tile → Tile) :
    (s.modTile n f).flows = s.flows := rfl
@[simp] theorem State.modTile_engines (s : State) (n : Nat) (f : Tile → Tile) :
    (s.modTile n f).engines = s.engines := rfl
@[simp] theorem State.modTile_engPart (s : State) (n : Nat) (f : Tile → Tile) :
    (s.modTile n f).engPart = s.engPart := rfl
@[simp] theorem State.modTile_nextCmd (s : State) (n : Nat) (f : Tile → Tile) :
    (s.modTile n f).nextCmd = s.nextCmd := rfl
@[simp] theorem State.modTile_mem (s : State) (n : Nat) (f : Tile → Tile) :
    (s.modTile n f).mem = s.mem := rfl
@[simp] theorem State.modTile_hub (s : State) (n : Nat) (f : Tile → Tile) :
    (s.modTile n f).hub = s.hub := rfl
@[simp] theorem State.modTile_sent (s : State) (n : Nat) (f : Tile → Tile) :
    (s.modTile n f).sent = s.sent := rfl
@[simp] theorem State.modTile_bridged (s : State) (n : Nat) (f : Tile → Tile) :
    (s.modTile n f).bridged = s.bridged := rfl
@[simp] theorem State.modTile_sliceRes (s : State) (n : Nat) (f : Tile → Tile) :
    (s.modTile n f).sliceRes = s.sliceRes := rfl
@[simp] theorem State.modTile_sched (s : State) (n : Nat) (f : Tile → Tile) :
    (s.modTile n f).sched = s.sched := rfl
@[simp] theorem State.modTile_cv (s : State) (n : Nat) (f : Tile → Tile) :
    (s.modTile n f).cv = s.cv := rfl
@[simp] theorem State.modTile_free (s : State) (n : Nat) (f : Tile → Tile) :
    (s.modTile n f).free = s.free := rfl

/-! ### modPart -/

@[simp] theorem State.modPart_th (s : State) (n : Nat) (f : Part → Part) :
    (s.modPart n f).th = s.th := rfl
@[simp] theorem State.modPart_cur (s : State) (n : Nat) (f : Part → Part) :
    (s.modPart n f).cur = s.cur := rfl
@[simp] theorem State.modPart_slots (s : State) (n : Nat) (f : Part → Part) :
    (s.modPart n f).slots = s.slots := rfl
@[simp] theorem State.modPart_vcs (s : State) (n : Nat) (f : Part → Part) :
    (s.modPart n f).vcs = s.vcs := rfl
@[simp] theorem State.modPart_tiles (s : State) (n : Nat) (f : Part → Part) :
    (s.modPart n f).tiles = s.tiles := rfl
@[simp] theorem State.modPart_vfs (s : State) (n : Nat) (f : Part → Part) :
    (s.modPart n f).vfs = s.vfs := rfl
@[simp] theorem State.modPart_seqs (s : State) (n : Nat) (f : Part → Part) :
    (s.modPart n f).seqs = s.seqs := rfl
@[simp] theorem State.modPart_flows (s : State) (n : Nat) (f : Part → Part) :
    (s.modPart n f).flows = s.flows := rfl
@[simp] theorem State.modPart_engines (s : State) (n : Nat) (f : Part → Part) :
    (s.modPart n f).engines = s.engines := rfl
@[simp] theorem State.modPart_engPart (s : State) (n : Nat) (f : Part → Part) :
    (s.modPart n f).engPart = s.engPart := rfl
@[simp] theorem State.modPart_nextCmd (s : State) (n : Nat) (f : Part → Part) :
    (s.modPart n f).nextCmd = s.nextCmd := rfl
@[simp] theorem State.modPart_mem (s : State) (n : Nat) (f : Part → Part) :
    (s.modPart n f).mem = s.mem := rfl
@[simp] theorem State.modPart_hub (s : State) (n : Nat) (f : Part → Part) :
    (s.modPart n f).hub = s.hub := rfl
@[simp] theorem State.modPart_sent (s : State) (n : Nat) (f : Part → Part) :
    (s.modPart n f).sent = s.sent := rfl
@[simp] theorem State.modPart_bridged (s : State) (n : Nat) (f : Part → Part) :
    (s.modPart n f).bridged = s.bridged := rfl
@[simp] theorem State.modPart_sliceRes (s : State) (n : Nat) (f : Part → Part) :
    (s.modPart n f).sliceRes = s.sliceRes := rfl
@[simp] theorem State.modPart_sched (s : State) (n : Nat) (f : Part → Part) :
    (s.modPart n f).sched = s.sched := rfl
@[simp] theorem State.modPart_cv (s : State) (n : Nat) (f : Part → Part) :
    (s.modPart n f).cv = s.cv := rfl
@[simp] theorem State.modPart_free (s : State) (n : Nat) (f : Part → Part) :
    (s.modPart n f).free = s.free := rfl

/-! ### modVf -/

@[simp] theorem State.modVf_th (s : State) (n : Nat) (f : Vf → Vf) :
    (s.modVf n f).th = s.th := rfl
@[simp] theorem State.modVf_cur (s : State) (n : Nat) (f : Vf → Vf) :
    (s.modVf n f).cur = s.cur := rfl
@[simp] theorem State.modVf_slots (s : State) (n : Nat) (f : Vf → Vf) :
    (s.modVf n f).slots = s.slots := rfl
@[simp] theorem State.modVf_vcs (s : State) (n : Nat) (f : Vf → Vf) :
    (s.modVf n f).vcs = s.vcs := rfl
@[simp] theorem State.modVf_tiles (s : State) (n : Nat) (f : Vf → Vf) :
    (s.modVf n f).tiles = s.tiles := rfl
@[simp] theorem State.modVf_parts (s : State) (n : Nat) (f : Vf → Vf) :
    (s.modVf n f).parts = s.parts := rfl
@[simp] theorem State.modVf_seqs (s : State) (n : Nat) (f : Vf → Vf) :
    (s.modVf n f).seqs = s.seqs := rfl
@[simp] theorem State.modVf_flows (s : State) (n : Nat) (f : Vf → Vf) :
    (s.modVf n f).flows = s.flows := rfl
@[simp] theorem State.modVf_engines (s : State) (n : Nat) (f : Vf → Vf) :
    (s.modVf n f).engines = s.engines := rfl
@[simp] theorem State.modVf_engPart (s : State) (n : Nat) (f : Vf → Vf) :
    (s.modVf n f).engPart = s.engPart := rfl
@[simp] theorem State.modVf_nextCmd (s : State) (n : Nat) (f : Vf → Vf) :
    (s.modVf n f).nextCmd = s.nextCmd := rfl
@[simp] theorem State.modVf_mem (s : State) (n : Nat) (f : Vf → Vf) :
    (s.modVf n f).mem = s.mem := rfl
@[simp] theorem State.modVf_hub (s : State) (n : Nat) (f : Vf → Vf) :
    (s.modVf n f).hub = s.hub := rfl
@[simp] theorem State.modVf_sent (s : State) (n : Nat) (f : Vf → Vf) :
    (s.modVf n f).sent = s.sent := rfl
@[simp] theorem State.modVf_bridged (s : State) (n : Nat) (f : Vf → Vf) :
    (s.modVf n f).bridged = s.bridged := rfl
@[simp] theorem State.modVf_sliceRes (s : State) (n : Nat) (f : Vf → Vf) :
    (s.modVf n f).sliceRes = s.sliceRes := rfl
@[simp] theorem State.modVf_sched (s : State) (n : Nat) (f : Vf → Vf) :
    (s.modVf n f).sched = s.sched := rfl
@[simp] theorem State.modVf_cv (s : State) (n : Nat) (f : Vf → Vf) :
    (s.modVf n f).cv = s.cv := rfl
@[simp] theorem State.modVf_free (s : State) (n : Nat) (f : Vf → Vf) :
    (s.modVf n f).free = s.free := rfl

/-! ### bump -/

@[simp] theorem State.bump_th (s : State) : s.bump.th = s.th := rfl
@[simp] theorem State.bump_cur (s : State) : s.bump.cur = s.cur := rfl
@[simp] theorem State.bump_slots (s : State) : s.bump.slots = s.slots := rfl
@[simp] theorem State.bump_vcs (s : State) : s.bump.vcs = s.vcs := rfl
@[simp] theorem State.bump_tiles (s : State) : s.bump.tiles = s.tiles := rfl
@[simp] theorem State.bump_parts (s : State) : s.bump.parts = s.parts := rfl
@[simp] theorem State.bump_vfs (s : State) : s.bump.vfs = s.vfs := rfl
@[simp] theorem State.bump_seqs (s : State) : s.bump.seqs = s.seqs := rfl
@[simp] theorem State.bump_flows (s : State) : s.bump.flows = s.flows := rfl
@[simp] theorem State.bump_engines (s : State) : s.bump.engines = s.engines := rfl
@[simp] theorem State.bump_engPart (s : State) : s.bump.engPart = s.engPart := rfl
@[simp] theorem State.bump_nextCmd (s : State) : s.bump.nextCmd = s.nextCmd := rfl
@[simp] theorem State.bump_mem (s : State) : s.bump.mem = s.mem := rfl
@[simp] theorem State.bump_hub (s : State) : s.bump.hub = s.hub := rfl
@[simp] theorem State.bump_sent (s : State) : s.bump.sent = s.sent := rfl
@[simp] theorem State.bump_bridged (s : State) : s.bump.bridged = s.bridged := rfl
@[simp] theorem State.bump_sliceRes (s : State) : s.bump.sliceRes = s.sliceRes := rfl
@[simp] theorem State.bump_sched (s : State) : s.bump.sched = s.sched := rfl
@[simp] theorem State.bump_cv (s : State) : s.bump.cv = s.cv := rfl
@[simp] theorem State.bump_free (s : State) : s.bump.free = s.free + 1 := rfl

end Sys2Proof.Machine
end

