-- ==== Sys2Proof/Laws/Table.lean ====
section
/-!
SUPPORT. Sparse tables: a write is read back, leaves every other key alone, and keeps the canonical form.
-/

namespace Sys2Proof.Machine

variable {α : Type}

theorem tget_terase_same (d : α) (t : Table α) (k : Nat) : tget d (terase t k) k = d := by
  induction t with
  | nil => rfl
  | cons p r ih =>
    unfold terase
    split
    · exact ih
    · rename_i h
      simp [tget, h, ih]

theorem tget_terase_other (d : α) (t : Table α) (k j : Nat) (h : j ≠ k) :
    tget d (terase t k) j = tget d t j := by
  induction t with
  | nil => rfl
  | cons p r ih =>
    unfold terase
    split
    · rename_i hk
      have : p.1 ≠ j := fun e => h (by omega)
      simp [tget, ih, this]
    · simp [tget, ih]

theorem tget_tinsert_same (d : α) (t : Table α) (k : Nat) (v : α) :
    tget d (tinsert t k v) k = v := by
  induction t with
  | nil => simp [tinsert, tget]
  | cons p r ih =>
    unfold tinsert
    split
    · simp [tget]
    · split
      · simp [tget]
      · rename_i h
        simp [tget, h, ih]

theorem tget_tinsert_other (d : α) (t : Table α) (k j : Nat) (v : α) (h : j ≠ k) :
    tget d (tinsert t k v) j = tget d t j := by
  induction t with
  | nil => simp [tinsert, tget, Ne.symm h]
  | cons p r ih =>
    unfold tinsert
    split
    · simp [tget, Ne.symm h]
    · split
      · rename_i hk
        have : p.1 ≠ j := fun e => h (by omega)
        simp [tget, Ne.symm h, this]
      · simp [tget, ih]

theorem tsorted_mono (t : Table α) (lo hi : Nat) (h : lo ≤ hi) (ht : tsorted hi t = true) :
    tsorted lo t = true := by
  cases t with
  | nil => rfl
  | cons p r =>
    simp only [tsorted, Bool.and_eq_true, decide_eq_true_eq] at ht ⊢
    exact ⟨by omega, ht.2⟩

theorem tsorted_terase (t : Table α) (lo k : Nat) (ht : tsorted lo t = true) :
    tsorted lo (terase t k) = true := by
  induction t generalizing lo with
  | nil => rfl
  | cons p r ih =>
    simp only [tsorted, Bool.and_eq_true, decide_eq_true_eq] at ht
    unfold terase
    split
    · exact tsorted_mono _ _ (p.1 + 1) (by omega) (ih _ ht.2)
    · simp only [tsorted, Bool.and_eq_true, decide_eq_true_eq]
      exact ⟨ht.1, ih _ ht.2⟩

theorem tsorted_tinsert (t : Table α) (lo k : Nat) (v : α) (hk : lo ≤ k)
    (ht : tsorted lo t = true) : tsorted lo (tinsert t k v) = true := by
  induction t generalizing lo with
  | nil => simp [tinsert, tsorted, hk]
  | cons p r ih =>
    simp only [tsorted, Bool.and_eq_true, decide_eq_true_eq] at ht
    unfold tinsert
    split
    · simp only [tsorted, Bool.and_eq_true, decide_eq_true_eq]
      exact ⟨hk, by omega, ht.2⟩
    · split
      · rename_i h2
        simp only [tsorted, Bool.and_eq_true, decide_eq_true_eq]
        exact ⟨hk, h2 ▸ ht.2⟩
      · simp only [tsorted, Bool.and_eq_true, decide_eq_true_eq]
        exact ⟨ht.1, ih _ (by omega) ht.2⟩

variable [DecidableEq α]

/-- A write is read back. -/
@[simp] theorem tget_tset_same (d : α) (t : Table α) (k : Nat) (v : α) :
    tget d (tset d t k v) k = v := by
  unfold tset
  split
  · rename_i h; rw [tget_terase_same, h]
  · exact tget_tinsert_same d t k v

/-- A write leaves every other key alone. -/
theorem tget_tset_other (d : α) (t : Table α) (k j : Nat) (v : α) (h : j ≠ k) :
    tget d (tset d t k v) j = tget d t j := by
  unfold tset
  split
  · exact tget_terase_other d t k j h
  · exact tget_tinsert_other d t k j v h

/-- Reading after a write, either way. -/
theorem tget_tset (d : α) (t : Table α) (k j : Nat) (v : α) :
    tget d (tset d t k v) j = if j = k then v else tget d t j := by
  split
  · rename_i h; rw [h, tget_tset_same]
  · rename_i h; exact tget_tset_other d t k j v h

theorem tnodefault_terase (d : α) (t : Table α) (k : Nat) (ht : tnodefault d t = true) :
    tnodefault d (terase t k) = true := by
  induction t with
  | nil => rfl
  | cons p r ih =>
    simp only [tnodefault, List.all_cons, Bool.and_eq_true] at ht ih ⊢
    unfold terase
    split
    · exact ih ht.2
    · simp only [List.all_cons, Bool.and_eq_true]
      exact ⟨ht.1, ih ht.2⟩

theorem tnodefault_tinsert (d : α) (t : Table α) (k : Nat) (v : α) (hv : v ≠ d)
    (ht : tnodefault d t = true) : tnodefault d (tinsert t k v) = true := by
  induction t with
  | nil => simp [tinsert, tnodefault, hv]
  | cons p r ih =>
    simp only [tnodefault, List.all_cons, Bool.and_eq_true] at ht ih ⊢
    unfold tinsert
    split
    · simp only [List.all_cons, Bool.and_eq_true, decide_eq_true_eq]
      exact ⟨hv, by simpa using ht.1, ht.2⟩
    · split
      · simp only [List.all_cons, Bool.and_eq_true, decide_eq_true_eq]
        exact ⟨hv, ht.2⟩
      · simp only [List.all_cons, Bool.and_eq_true]
        exact ⟨ht.1, ih ht.2⟩

/-- A write keeps the canonical form. -/
theorem twf_tset (d : α) (t : Table α) (k : Nat) (v : α) (ht : twf d t = true) :
    twf d (tset d t k v) = true := by
  simp only [twf, Bool.and_eq_true] at ht ⊢
  unfold tset
  split
  · exact ⟨tsorted_terase t 0 k ht.1, tnodefault_terase d t k ht.2⟩
  · rename_i h
    exact ⟨tsorted_tinsert t 0 k v (Nat.zero_le k) ht.1, tnodefault_tinsert d t k v h ht.2⟩

end Sys2Proof.Machine
end

