-- ==== Sys2Proof/Laws/Memory.lean ====
section
/-!
SUPPORT. Memory: every operation that writes bytes keeps the canonical form, and registers and bytes read
back what was written to them.
-/

namespace Sys2Proof.Machine

open Sys2Proof

/-! ### Tables -/

variable {α : Type}

theorem tsorted_filter (f : Nat × α → Bool) (t : Table α) (lo : Nat) (ht : tsorted lo t = true) :
    tsorted lo (t.filter f) = true := by
  induction t generalizing lo with
  | nil => rfl
  | cons p r ih =>
    simp only [tsorted, Bool.and_eq_true, decide_eq_true_eq] at ht
    simp only [List.filter_cons]
    split
    · simp only [tsorted, Bool.and_eq_true, decide_eq_true_eq]
      exact ⟨ht.1, ih _ ht.2⟩
    · exact tsorted_mono _ _ (p.1 + 1) (by omega) (ih _ ht.2)

/-- Leaving keys out keeps the canonical form. -/
theorem twf_filter [DecidableEq α] (d : α) (f : Nat × α → Bool) (t : Table α) (ht : twf d t = true) :
    twf d (t.filter f) = true := by
  simp only [twf, Bool.and_eq_true] at ht ⊢
  refine ⟨tsorted_filter f t 0 ht.1, ?_⟩
  simp only [tnodefault, List.all_eq_true] at ht ⊢
  exact fun p hp => ht.2 p (List.mem_filter.mp hp).1

/-- Writing a list of pairs keeps the canonical form. -/
theorem twf_writes [DecidableEq α] (d : α) (ws : List (Nat × α)) (t : Table α)
    (ht : twf d t = true) : twf d (ws.foldl (fun t c => tset d t c.1 c.2) t) = true := by
  induction ws generalizing t with
  | nil => exact ht
  | cons w r ih => exact ih _ (twf_tset d t w.1 w.2 ht)

/-- What each step of a fold keeps, the fold keeps. -/
theorem foldl_keeps {σ β : Type} (P : σ → Prop) (f : σ → β → σ) (hf : ∀ s b, P s → P (f s b))
    (l : List β) (s : σ) (h : P s) : P (l.foldl f s) := by
  induction l generalizing s with
  | nil => exact h
  | cons b r ih => exact ih _ (hf s b h)

/-! ### The canonical form -/

/-- Reset memory is in canonical form. -/
theorem memOk_reset : State.reset.memOk = true := rfl

/-- The form depends on the cells alone. -/
theorem memOk_congr {s t : State} (h : t.mem.cells = s.mem.cells) : t.memOk = s.memOk := by
  simp [State.memOk, h]

theorem memOk_modThread {s : State} (slot : Nat) (f : Thread → Thread) (h : s.memOk = true) :
    (s.modThread slot f).memOk = true := by
  unfold State.modThread
  split <;> exact h

theorem memOk_askAbandon {s : State} (l : List Nat) (h : s.memOk = true) :
    (s.askAbandon l).memOk = true :=
  foldl_keeps (fun t : State => t.memOk = true) _ (fun _ n ht => memOk_modThread n _ ht) l s h

theorem memOk_failFunction {s : State} (vf : Nat) (h : s.memOk = true) :
    (s.failFunction vf).memOk = true := memOk_askAbandon _ h

theorem memOk_macFailure {s : State} (vfs : List Nat) (h : s.memOk = true) :
    (s.macFailure vfs).memOk = true :=
  foldl_keeps (fun t : State => t.memOk = true) State.failFunction
    (fun _ n ht => memOk_failFunction n ht) vfs s h

theorem memOk_bumpTree {s : State} (n : Nat) (p : Part) (pa : Nat) (h : s.memOk = true) :
    (s.bumpTree n p pa).memOk = true := h

theorem memOk_metaFetch {s : State} (p : Part) (pa : Nat) (h : s.memOk = true) :
    (s.metaFetch p pa).memOk = true := h

/-- Encrypting lines leaves the coherent view alone. -/
theorem cells_encryptLines (l : List Nat) (m : Mem) (kid : Nat) (f : Nat → Nat) (c : Counters)
    (x : Nat → BitVec 512) :
    (l.foldl (fun m k => m.encryptLine kid (f k) c (x k)) m).cells = m.cells := by
  induction l generalizing m with
  | nil => rfl
  | cons k r ih => exact ih (m.encryptLine kid (f k) c (x k))

theorem memOk_writeback {s : State} (line kid : Nat) (h : s.memOk = true) :
    (s.writeback line kid).memOk = true := by
  unfold State.writeback
  dsimp only
  split
  · exact h
  · split
    · exact memOk_macFailure _ h
    · refine memOk_metaFetch _ _ (memOk_bumpTree _ _ _ ?_)
      exact (congrArg Memory.wf (cells_encryptLines ..)).trans h

theorem memOk_refetch {s : State} (line kid : Nat) (h : s.memOk = true) :
    (s.refetch line kid).memOk = true := by
  unfold State.refetch
  dsimp only
  split
  · generalize (List.range 128).zip _ = l
    exact foldl_keeps (fun t : Table Byte => twf 0 t = true)
      (fun t (x : Nat × Byte) => tset 0 t (line * 128 + x.1) x.2)
      (fun t x ht => twf_tset 0 t (line * 128 + x.1) x.2 ht) l s.mem.cells h
  · exact memOk_macFailure _ h

theorem memOk_claim {s : State} (loc kid : Nat) (h : s.memOk = true) :
    (s.claim loc kid).memOk = true := by
  unfold State.claim
  split
  · exact h
  · dsimp only
    split
    · exact memOk_refetch (s := s.modMem _) _ _ h
    · exact h

theorem memOk_l2Fill {s : State} (key : Nat) (w : L2Way) (h : s.memOk = true) :
    (s.l2Fill key w).memOk = true := by
  unfold State.l2Fill
  dsimp only
  split
  · exact h
  · split
    · exact h
    · split
      · exact memOk_writeback _ _ h
      · exact h

theorem memOk_l2Access {s : State} (loc kid : Nat) (al : Alloc) (w : Bool) (h : s.memOk = true) :
    (s.l2Access loc kid al w).memOk = true := by
  unfold State.l2Access
  split
  · exact h
  · have h1 : (s.claim loc kid).memOk = true := memOk_claim loc kid h
    dsimp only
    split
    · exact h1
    · split
      · split
        · exact memOk_writeback _ _ (memOk_metaFetch _ _ h1)
        · exact h1
      · exact memOk_l2Fill _ _ (memOk_metaFetch _ _ h1)

theorem memOk_dropDcache {s : State} (keep : Option Nat) (loc : Nat) (h : s.memOk = true) :
    (s.dropDcache keep loc).memOk = true := by
  unfold State.dropDcache
  refine foldl_keeps (fun t : State => t.memOk = true) _ ?_ _ s h
  exact fun _ _ ht => ht

theorem memOk_pokeByte {s : State} (loc : Nat) (pend : Bool) (b : Byte) (h : s.memOk = true) :
    (s.pokeByte loc pend b).memOk = true := by
  unfold State.pokeByte
  split
  · exact h
  · exact twf_tset 0 s.mem.cells loc b h

theorem memOk_pokeBytes {s : State} (kid : Nat) (keep : Option Nat) (ws : List (Nat × Byte))
    (h : s.memOk = true) : (s.pokeBytes kid keep ws).memOk = true := by
  have h1 := foldl_keeps (fun t : State => t.memOk = true)
    (fun t (w : Nat × Byte) => (t.pokeByte w.1 (t.inSharing w.1 kid) w.2).dropDcache keep w.1)
    (fun t w ht => memOk_dropDcache _ _ (memOk_pokeByte _ _ _ ht)) ws s h
  unfold State.pokeBytes
  dsimp only
  split <;> exact h1

theorem memOk_poke {s : State} (loc kid : Nat) (bs : List Byte) (h : s.memOk = true) :
    (s.poke loc kid bs).memOk = true := memOk_pokeBytes kid _ _ h

theorem memOk_countHost {s : State} (loc : Nat) (h : s.memOk = true) :
    (s.countHost loc).memOk = true := by
  unfold State.countHost
  split <;> exact h

theorem memOk_touch {s : State} (ls : List Nat) (kid : Nat) (al : Nat → Alloc) (w : Bool)
    (h : s.memOk = true) : (s.touch ls kid al w).memOk = true :=
  foldl_keeps (fun t : State => t.memOk = true) _
    (fun _ _ ht => memOk_countHost _ (memOk_l2Access _ _ _ _ ht)) ls s h

/-- Writes performed at their homes. -/
theorem memOk_storeHome {s : State} (kid : Nat) (keep : Option Nat) (al : Nat → Alloc)
    (ws : List (Nat × Byte)) (h : s.memOk = true) : (s.storeHome kid keep al ws).memOk = true :=
  memOk_touch _ _ _ _ (memOk_pokeBytes _ _ _
    (foldl_keeps (fun t : State => t.memOk = true) _ (fun _ _ ht => memOk_claim _ _ ht) _ s h))

/-- A buffer entry at its homes. -/
theorem memOk_performEntry {s : State} (e : BufEntry) (h : s.memOk = true) :
    (s.performEntry e).memOk = true := by
  have h1 : (s.storeHome e.kid e.keep e.allocFor
      (e.writes.filter (fun w => !isTwin w.1 && !s.writeRefused e.kid w.1))).memOk = true :=
    memOk_storeHome _ _ _ _ h
  unfold State.performEntry
  dsimp only
  split
  · exact h1
  · split
    · exact h1
    · exact memOk_pokeBytes _ _ _ h1

/-- The drain of the current thread's buffer. -/
theorem memOk_drainAll {s : State} (h : s.memOk = true) : s.drainAll.memOk = true :=
  foldl_keeps (fun t : State => t.memOk = true) State.performEntry
    (fun _ e ht => memOk_performEntry e ht) _ s h

/-- The publication of a window (R276). -/
theorem memOk_publish {s : State} (kid : Nat) (h : s.memOk = true) :
    (s.publish kid).memOk = true :=
  foldl_keeps (fun t : State => t.memOk = true) _ (fun _ c ht => memOk_dropDcache none c.1 ht) _ _
    (twf_writes 0 _ s.mem.cells h)

/-- The assignment of frames (R31, R33). -/
theorem memOk_assignFrames {s : State} (fs : List Nat) (kid : BitVec 9) (h : s.memOk = true) :
    (s.assignFrames fs kid).memOk = true := by
  unfold State.assignFrames
  refine foldl_keeps (fun t : State => t.memOk = true) _ ?_ fs s h
  exact fun t _ ht => twf_filter (0 : Byte) _ t.mem.cells ht

/-- The end of a frame's release (R32). -/
theorem memOk_freeFrame {s : State} (f : Nat) (h : s.memOk = true) : (s.freeFrame f).memOk = true := by
  unfold State.freeFrame
  generalize List.range 512 = l
  dsimp only
  split
  · exact h
  split
  · exact twf_filter (0 : Byte) _ s.mem.cells h
  · refine foldl_keeps (fun t : State => t.memOk = true) _ ?_ l _ ?_
    · exact fun _ _ ht => ht
    · exact twf_filter (0 : Byte) _ s.mem.cells h

/-- The copy of a migration (R52). -/
theorem memOk_copyRange {s : State} (src dst kid : Nat) (h : s.memOk = true) :
    (s.copyRange src dst kid).memOk = true :=
  foldl_keeps (fun t : State => t.memOk = true) _ (fun _ _ ht => memOk_writeback _ _ ht) _ _
    (twf_writes 0 _ _ (twf_filter (0 : Byte) _ s.mem.cells h))

/-! ### Read after write -/

/-- s0 reads as zero (R98). -/
@[simp] theorem rd_zero (s : State) : s.rd 0#5 = 0 := rfl

/-- A write to s0 is discarded (R98). -/
@[simp] theorem wr_zero (s : State) (v : W64) : s.wr 0#5 v = s := rfl

/-- A register other than s0 reads back what was written to it. -/
theorem rd_wr_same (s : State) (r : BitVec 5) (v : W64) (h : r ≠ 0#5) : (s.wr r v).rd r = v := by
  simp [State.rd, State.wr, h]

/-- A register write leaves every other register alone. -/
theorem rd_wr_other (s : State) (r q : BitVec 5) (v : W64) (h : q ≠ r) :
    (s.wr r v).rd q = s.rd q := by
  unfold State.wr
  split
  · rfl
  · have hn : q.toNat ≠ r.toNat := fun e => h (BitVec.eq_of_toNat_eq e)
    simp [State.rd, tget_tset_other _ _ _ _ _ hn]

/-- A published byte reads back. -/
theorem homeByte_pokeByte_same (s : State) (loc : Nat) (b : Byte) :
    (s.pokeByte loc false b).homeByte loc = b := tget_tset_same 0 s.mem.cells loc b

/-- A byte pending in a sharing window reads back at its owner (R276). -/
theorem homeByte_pokeByte_pend (s : State) (loc j : Nat) (b : Byte) :
    (s.pokeByte loc true b).homeByte j = s.homeByte j := rfl

/-- A published byte leaves every other byte alone. -/
theorem homeByte_pokeByte_other (s : State) (loc j : Nat) (pend : Bool) (b : Byte) (h : j ≠ loc) :
    (s.pokeByte loc pend b).homeByte j = s.homeByte j := by
  unfold State.pokeByte
  split
  · rfl
  · exact tget_tset_other 0 s.mem.cells loc j b h

/-- The drop of a cached line changes no byte. -/
@[simp] theorem homeByte_dropDcache (s : State) (keep : Option Nat) (loc j : Nat) :
    (s.dropDcache keep loc).homeByte j = s.homeByte j := by
  unfold State.dropDcache
  refine foldl_keeps (fun t : State => t.homeByte j = s.homeByte j) _ ?_ _ s rfl
  exact fun _ _ ht => ht

/-- A write of bytes leaves every location outside them alone. -/
theorem homeByte_pokeBytes_other (s : State) (kid j : Nat) (keep : Option Nat) (ws : List (Nat × Byte))
    (h : ∀ w ∈ ws, w.1 ≠ j) : (s.pokeBytes kid keep ws).homeByte j = s.homeByte j := by
  have h1 : (ws.foldl (fun t w => (t.pokeByte w.1 (t.inSharing w.1 kid) w.2).dropDcache keep w.1)
      s).homeByte j = s.homeByte j := by
    induction ws generalizing s with
    | nil => rfl
    | cons w r ih =>
      rw [List.foldl_cons, ih _ (fun x hx => h x (List.mem_cons_of_mem _ hx)), homeByte_dropDcache]
      exact homeByte_pokeByte_other s _ _ _ _ (Ne.symm (h w (List.mem_cons_self ..)))
  unfold State.pokeBytes
  dsimp only
  split <;> exact h1

/-- A buffered store is not yet at its home (R265). -/
@[simp] theorem homeByte_pushBuf (s : State) (e : BufEntry) (j : Nat) :
    (s.pushBuf e).homeByte j = s.homeByte j := by
  unfold State.pushBuf
  split <;> rfl

/-- Neither is a store of several entries. -/
@[simp] theorem homeByte_pushStore (s : State) (es : List BufEntry) (j : Nat) :
    (s.pushStore es).homeByte j = s.homeByte j :=
  foldl_keeps (fun t : State => t.homeByte j = s.homeByte j) _
    (fun t _ ht => (homeByte_pushBuf t _ j).trans ht) es s rfl

end Sys2Proof.Machine
end

