-- ==== Sys2Proof/Laws/PerInstr.lean ====
section
/-!
SUPPORT. Statements made per instruction. RoundTrip: a well-formed instruction is decoded from its
encoding, with the bytes that follow it left over (R137 to R144).
-/

namespace Sys2Proof.Laws.RoundTrip

open Sys2Proof

set_option linter.unusedSimpArgs false

def Statement (i : Instr) : Prop :=
  i.wf = true → i.isWord = true → ∀ rest, Sys2Proof.decode (encode i ++ rest) = .ok (i, rest)

theorem fieldAt_eq {n lo w : Nat} {x : BitVec n} (h : bitsAt n lo w = x.toNat) :
    fieldAt n lo w = x := by
  apply BitVec.eq_of_toNat_eq
  simpa [fieldAt, bitsAt] using h

theorem contBit_eq {w : Nat} {c : Bool} (h : bitsAt 1 31 w = c.toNat) : contBit w = c := by
  unfold contBit
  rw [h]
  cases c <;> rfl

theorem word_of_bytes {w : Nat} (h : w < 2 ^ 32) :
    wordOfBytes (fieldAt 8 0 w) (fieldAt 8 8 w) (fieldAt 8 16 w) (fieldAt 8 24 w) = w := by
  simp only [wordOfBytes, fieldAt, BitVec.toNat_ofNat]
  omega

/-- An instruction round-trips when the fields of its word give it back. -/
theorem of_word {i : Instr} {w : Nat} (hw : i.word = some w) (hlt : w < 2 ^ 32)
    (h : i.wf = true → decodeFields w = some i) : Statement i := by
  intro hi _ rest
  have he : encode i = bytesOfWord w := by unfold encode; rw [hw]
  have hd : decodeWord w = .ok i := by simp [decodeWord, h hi, hi]
  rw [he]
  show withRest rest (decodeWord (wordOfBytes _ _ _ _)) = _
  rw [word_of_bytes hlt, hd]
  rfl

/-- An event has no word. -/
theorem of_event {i : Instr} (h : i.isWord = false) : Statement i := by
  intro _ hi
  rw [h] at hi
  cases hi

/-! ### Bits of a word with a field put in -/

theorem put_below {n lo p x w : Nat} (h : lo + n ≤ p) : bitsAt n lo (put p x w) = bitsAt n lo w := by
  obtain ⟨k, rfl⟩ := Nat.exists_eq_add_of_le h
  have e : x * 2 ^ (lo + n + k) = 2 ^ lo * (2 ^ n * (x * 2 ^ k)) := by
    rw [Nat.pow_add, Nat.pow_add]; ac_rfl
  simp only [bitsAt, put, e]
  rw [Nat.add_mul_div_left _ _ (Nat.two_pow_pos lo), Nat.add_mul_mod_self_left]

theorem div_put {p k x w : Nat} (hx : x < 2 ^ k) (hz : bitsAt k p w = 0) :
    put p x w / 2 ^ (p + k) = w / 2 ^ (p + k) := by
  simp only [bitsAt] at hz
  simp only [put]
  rw [Nat.pow_add, ← Nat.div_div_eq_div_mul, ← Nat.div_div_eq_div_mul, Nat.mul_comm x,
    Nat.add_mul_div_left _ _ (Nat.two_pow_pos p)]
  have := Nat.div_add_mod (w / 2 ^ p) (2 ^ k)
  rw [hz, Nat.add_zero] at this
  rw [← this, Nat.add_comm, Nat.add_mul_div_left _ _ (Nat.two_pow_pos k), Nat.div_eq_of_lt hx,
    Nat.mul_div_cancel_left _ (Nat.two_pow_pos k), Nat.zero_add]

theorem put_above {n lo p k x w : Nat} (hx : x < 2 ^ k) (hz : bitsAt k p w = 0) (h : p + k ≤ lo) :
    bitsAt n lo (put p x w) = bitsAt n lo w := by
  obtain ⟨j, rfl⟩ := Nat.exists_eq_add_of_le h
  simp only [bitsAt]
  rw [Nat.pow_add, ← Nat.div_div_eq_div_mul, div_put hx hz, Nat.div_div_eq_div_mul]

theorem put_at {p k x w : Nat} (hx : x < 2 ^ k) (hz : bitsAt k p w = 0) :
    bitsAt k p (put p x w) = x := by
  simp only [bitsAt] at hz ⊢
  simp only [put]
  rw [Nat.mul_comm x, Nat.add_mul_div_left _ _ (Nat.two_pow_pos p), Nat.add_mod, hz, Nat.zero_add,
    Nat.mod_mod, Nat.mod_eq_of_lt hx]

theorem put_lt {p k x w m : Nat} (hx : x < 2 ^ k) (hz : bitsAt k p w = 0) (hw : w < 2 ^ m)
    (h : p + k ≤ m) : put p x w < 2 ^ m := by
  obtain ⟨j, rfl⟩ := Nat.exists_eq_add_of_le h
  rw [← Nat.div_eq_zero_iff_lt (Nat.two_pow_pos _), Nat.pow_add, ← Nat.div_div_eq_div_mul, div_put hx hz,
    Nat.div_div_eq_div_mul, ← Nat.pow_add, Nat.div_eq_zero_iff_lt (Nat.two_pow_pos _)]
  exact hw

/-- A region inside another holds a part of its value. -/
theorem bits_inside {w n lo v : Nat} (d m : Nat) (h : bitsAt n lo w = v) (hd : d + m ≤ n) :
    bitsAt m (lo + d) w = v / 2 ^ d % 2 ^ m := by
  subst h
  simp only [bitsAt]
  obtain ⟨k, rfl⟩ := Nat.exists_eq_add_of_le hd
  rw [Nat.add_assoc, Nat.pow_add 2 d, Nat.mod_mul_right_div_self, Nat.div_div_eq_div_mul, ← Nat.pow_add,
    Nat.pow_add 2 m, Nat.mod_mul_right_mod]

/-! ### Formats: the regions and fields of a word of one shape -/


theorem major_01 {w : Nat} (h : bitsAt 6 25 w = 1) : decodeFields w = decodeMajor01 w := by
  unfold decodeFields
  rw [if_pos h]

theorem major_02 {w : Nat} (h : bitsAt 6 25 w = 2) : decodeFields w = decodeMajor02 w := by
  unfold decodeFields
  iterate 1 rw [if_neg (by rw [h]; decide)]
  rw [if_pos h]

theorem major_03 {w : Nat} (h : bitsAt 6 25 w = 3) : decodeFields w = decodeMajor03 w := by
  unfold decodeFields
  iterate 2 rw [if_neg (by rw [h]; decide)]
  rw [if_pos h]

theorem major_04 {w : Nat} (h : bitsAt 6 25 w = 4) : decodeFields w = decodeMajor04 w := by
  unfold decodeFields
  iterate 3 rw [if_neg (by rw [h]; decide)]
  rw [if_pos h]

theorem major_08 {w : Nat} (h : bitsAt 6 25 w = 8) : decodeFields w = decodeMajor08 w := by
  unfold decodeFields
  iterate 4 rw [if_neg (by rw [h]; decide)]
  rw [if_pos h]

theorem major_09 {w : Nat} (h : bitsAt 6 25 w = 9) : decodeFields w = decodeMajor09 w := by
  unfold decodeFields
  iterate 5 rw [if_neg (by rw [h]; decide)]
  rw [if_pos h]

theorem major_0a {w : Nat} (h : bitsAt 6 25 w = 10) : decodeFields w = decodeMajor0a w := by
  unfold decodeFields
  iterate 6 rw [if_neg (by rw [h]; decide)]
  rw [if_pos h]

theorem major_0c {w : Nat} (h : bitsAt 6 25 w = 12) : decodeFields w = decodeMajor0c w := by
  unfold decodeFields
  iterate 7 rw [if_neg (by rw [h]; decide)]
  rw [if_pos h]

theorem major_0d {w : Nat} (h : bitsAt 6 25 w = 13) : decodeFields w = decodeMajor0d w := by
  unfold decodeFields
  iterate 8 rw [if_neg (by rw [h]; decide)]
  rw [if_pos h]

theorem major_0e {w : Nat} (h : bitsAt 6 25 w = 14) : decodeFields w = decodeMajor0e w := by
  unfold decodeFields
  iterate 9 rw [if_neg (by rw [h]; decide)]
  rw [if_pos h]

theorem major_0f {w : Nat} (h : bitsAt 6 25 w = 15) : decodeFields w = decodeMajor0f w := by
  unfold decodeFields
  iterate 10 rw [if_neg (by rw [h]; decide)]
  rw [if_pos h]

theorem major_10 {w : Nat} (h : bitsAt 6 25 w = 16) : decodeFields w = decodeMajor10 w := by
  unfold decodeFields
  iterate 11 rw [if_neg (by rw [h]; decide)]
  rw [if_pos h]

theorem major_11 {w : Nat} (h : bitsAt 6 25 w = 17) : decodeFields w = decodeMajor11 w := by
  unfold decodeFields
  iterate 12 rw [if_neg (by rw [h]; decide)]
  rw [if_pos h]

theorem major_12 {w : Nat} (h : bitsAt 6 25 w = 18) : decodeFields w = decodeMajor12 w := by
  unfold decodeFields
  iterate 13 rw [if_neg (by rw [h]; decide)]
  rw [if_pos h]

theorem major_13 {w : Nat} (h : bitsAt 6 25 w = 19) : decodeFields w = decodeMajor13 w := by
  unfold decodeFields
  iterate 14 rw [if_neg (by rw [h]; decide)]
  rw [if_pos h]

theorem major_14 {w : Nat} (h : bitsAt 6 25 w = 20) : decodeFields w = decodeMajor14 w := by
  unfold decodeFields
  iterate 15 rw [if_neg (by rw [h]; decide)]
  rw [if_pos h]

theorem major_15 {w : Nat} (h : bitsAt 6 25 w = 21) : decodeFields w = decodeMajor15 w := by
  unfold decodeFields
  iterate 16 rw [if_neg (by rw [h]; decide)]
  rw [if_pos h]

theorem major_16 {w : Nat} (h : bitsAt 6 25 w = 22) : decodeFields w = decodeMajor16 w := by
  unfold decodeFields
  iterate 17 rw [if_neg (by rw [h]; decide)]
  rw [if_pos h]

theorem major_17 {w : Nat} (h : bitsAt 6 25 w = 23) : decodeFields w = decodeMajor17 w := by
  unfold decodeFields
  iterate 18 rw [if_neg (by rw [h]; decide)]
  rw [if_pos h]

theorem major_18 {w : Nat} (h : bitsAt 6 25 w = 24) : decodeFields w = decodeMajor18 w := by
  unfold decodeFields
  iterate 19 rw [if_neg (by rw [h]; decide)]
  rw [if_pos h]

theorem major_19 {w : Nat} (h : bitsAt 6 25 w = 25) : decodeFields w = decodeMajor19 w := by
  unfold decodeFields
  iterate 20 rw [if_neg (by rw [h]; decide)]
  rw [if_pos h]

theorem major_1a {w : Nat} (h : bitsAt 6 25 w = 26) : decodeFields w = decodeMajor1a w := by
  unfold decodeFields
  iterate 21 rw [if_neg (by rw [h]; decide)]
  rw [if_pos h]

theorem major_1b {w : Nat} (h : bitsAt 6 25 w = 27) : decodeFields w = decodeMajor1b w := by
  unfold decodeFields
  iterate 22 rw [if_neg (by rw [h]; decide)]
  rw [if_pos h]

theorem major_1c {w : Nat} (h : bitsAt 6 25 w = 28) : decodeFields w = decodeMajor1c w := by
  unfold decodeFields
  iterate 23 rw [if_neg (by rw [h]; decide)]
  rw [if_pos h]

theorem major_1d {w : Nat} (h : bitsAt 6 25 w = 29) : decodeFields w = decodeMajor1d w := by
  unfold decodeFields
  iterate 24 rw [if_neg (by rw [h]; decide)]
  rw [if_pos h]

theorem major_1e {w : Nat} (h : bitsAt 6 25 w = 30) : decodeFields w = decodeMajor1e w := by
  unfold decodeFields
  iterate 25 rw [if_neg (by rw [h]; decide)]
  rw [if_pos h]

theorem major_20 {w : Nat} (h : bitsAt 6 25 w = 32) : decodeFields w = decodeMajor20 w := by
  unfold decodeFields
  iterate 26 rw [if_neg (by rw [h]; decide)]
  rw [if_pos h]

theorem major_21 {w : Nat} (h : bitsAt 6 25 w = 33) : decodeFields w = decodeMajor21 w := by
  unfold decodeFields
  iterate 27 rw [if_neg (by rw [h]; decide)]
  rw [if_pos h]

theorem major_22 {w : Nat} (h : bitsAt 6 25 w = 34) : decodeFields w = decodeMajor22 w := by
  unfold decodeFields
  iterate 28 rw [if_neg (by rw [h]; decide)]
  rw [if_pos h]

theorem major_23 {w : Nat} (h : bitsAt 6 25 w = 35) : decodeFields w = decodeMajor23 w := by
  unfold decodeFields
  iterate 29 rw [if_neg (by rw [h]; decide)]
  rw [if_pos h]

theorem major_24 {w : Nat} (h : bitsAt 6 25 w = 36) : decodeFields w = decodeMajor24 w := by
  unfold decodeFields
  iterate 30 rw [if_neg (by rw [h]; decide)]
  rw [if_pos h]

theorem major_25 {w : Nat} (h : bitsAt 6 25 w = 37) : decodeFields w = decodeMajor25 w := by
  unfold decodeFields
  iterate 31 rw [if_neg (by rw [h]; decide)]
  rw [if_pos h]

theorem major_26 {w : Nat} (h : bitsAt 6 25 w = 38) : decodeFields w = decodeMajor26 w := by
  unfold decodeFields
  iterate 32 rw [if_neg (by rw [h]; decide)]
  rw [if_pos h]

theorem major_28 {w : Nat} (h : bitsAt 6 25 w = 40) : decodeFields w = decodeMajor28 w := by
  unfold decodeFields
  iterate 33 rw [if_neg (by rw [h]; decide)]
  rw [if_pos h]

theorem major_2c {w : Nat} (h : bitsAt 6 25 w = 44) : decodeFields w = decodeMajor2c w := by
  unfold decodeFields
  iterate 34 rw [if_neg (by rw [h]; decide)]
  rw [if_pos h]

theorem major_2d {w : Nat} (h : bitsAt 6 25 w = 45) : decodeFields w = decodeMajor2d w := by
  unfold decodeFields
  iterate 35 rw [if_neg (by rw [h]; decide)]
  rw [if_pos h]

theorem major_2e {w : Nat} (h : bitsAt 6 25 w = 46) : decodeFields w = decodeMajor2e w := by
  unfold decodeFields
  iterate 36 rw [if_neg (by rw [h]; decide)]
  rw [if_pos h]

theorem major_2f {w : Nat} (h : bitsAt 6 25 w = 47) : decodeFields w = decodeMajor2f w := by
  unfold decodeFields
  iterate 37 rw [if_neg (by rw [h]; decide)]
  rw [if_pos h]

theorem major_30 {w : Nat} (h : bitsAt 6 25 w = 48) : decodeFields w = decodeMajor30 w := by
  unfold decodeFields
  iterate 38 rw [if_neg (by rw [h]; decide)]
  rw [if_pos h]

theorem major_38 {w : Nat} (h : bitsAt 6 25 w = 56) : decodeFields w = decodeMajor38 w := by
  unfold decodeFields
  iterate 39 rw [if_neg (by rw [h]; decide)]
  rw [if_pos h]

theorem major_39 {w : Nat} (h : bitsAt 6 25 w = 57) : decodeFields w = decodeMajor39 w := by
  unfold decodeFields
  iterate 40 rw [if_neg (by rw [h]; decide)]
  rw [if_pos h]

theorem major_3a {w : Nat} (h : bitsAt 6 25 w = 58) : decodeFields w = decodeMajor3a w := by
  unfold decodeFields
  iterate 41 rw [if_neg (by rw [h]; decide)]
  rw [if_pos h]

theorem major_3c {w : Nat} (h : bitsAt 6 25 w = 60) : decodeFields w = decodeMajor3c w := by
  unfold decodeFields
  iterate 42 rw [if_neg (by rw [h]; decide)]
  rw [if_pos h]

theorem major_3d {w : Nat} (h : bitsAt 6 25 w = 61) : decodeFields w = decodeMajor3d w := by
  unfold decodeFields
  iterate 43 rw [if_neg (by rw [h]; decide)]
  rw [if_pos h]

theorem major_3e {w : Nat} (h : bitsAt 6 25 w = 62) : decodeFields w = decodeMajor3e w := by
  unfold decodeFields
  iterate 44 rw [if_neg (by rw [h]; decide)]
  rw [if_pos h]

theorem fmt0 {x0 : BitVec 5} {x1 : BitVec 5} {x2 : BitVec 5} {K w : Nat}
    (hK : K < 2 ^ 32 ∧ bitsAt 5 20 K = 0 ∧ bitsAt 5 15 K = 0 ∧ bitsAt 5 10 K = 0)
    (hw : put 20 x0.toNat (put 15 x1.toNat (put 10 x2.toNat K)) = w) :
    w < 2 ^ 32 ∧
    bitsAt 1 31 w = bitsAt 1 31 K ∧
    bitsAt 6 25 w = bitsAt 6 25 K ∧
    bitsAt 10 0 w = bitsAt 10 0 K ∧
    fieldAt 5 20 w = x0 ∧
    fieldAt 5 15 w = x1 ∧
    fieldAt 5 10 w = x2 := by
  subst hw
  have z2 : bitsAt 5 10 (K) = 0 :=
    hK.2.2.2
  have z1 : bitsAt 5 15 (put 10 x2.toNat K) = 0 :=
    ((put_above x2.isLt z2 (by decide))).trans hK.2.2.1
  have z0 : bitsAt 5 20 (put 15 x1.toNat (put 10 x2.toNat K)) = 0 :=
    ((put_above x1.isLt z1 (by decide)).trans ((put_above x2.isLt z2 (by decide)))).trans hK.2.1
  exact ⟨put_lt x0.isLt z0 (put_lt x1.isLt z1 (put_lt x2.isLt z2 (hK.1) (by decide)) (by decide)) (by decide),
    (put_above x0.isLt z0 (by decide)).trans ((put_above x1.isLt z1 (by decide)).trans ((put_above x2.isLt z2 (by decide)))),
    (put_above x0.isLt z0 (by decide)).trans ((put_above x1.isLt z1 (by decide)).trans ((put_above x2.isLt z2 (by decide)))),
    (put_below (by decide)).trans ((put_below (by decide)).trans ((put_below (by decide)))),
    fieldAt_eq (put_at x0.isLt z0),
    fieldAt_eq ((put_below (by decide)).trans (put_at x1.isLt z1)),
    fieldAt_eq ((put_below (by decide)).trans ((put_below (by decide)).trans (put_at x2.isLt z2)))⟩

theorem fmt1 {x0 : BitVec 5} {x1 : BitVec 5} {K w : Nat}
    (hK : K < 2 ^ 32 ∧ bitsAt 5 20 K = 0 ∧ bitsAt 5 15 K = 0)
    (hw : put 20 x0.toNat (put 15 x1.toNat K) = w) :
    w < 2 ^ 32 ∧
    bitsAt 1 31 w = bitsAt 1 31 K ∧
    bitsAt 6 25 w = bitsAt 6 25 K ∧
    bitsAt 15 0 w = bitsAt 15 0 K ∧
    fieldAt 5 20 w = x0 ∧
    fieldAt 5 15 w = x1 := by
  subst hw
  have z1 : bitsAt 5 15 (K) = 0 :=
    hK.2.2
  have z0 : bitsAt 5 20 (put 15 x1.toNat K) = 0 :=
    ((put_above x1.isLt z1 (by decide))).trans hK.2.1
  exact ⟨put_lt x0.isLt z0 (put_lt x1.isLt z1 (hK.1) (by decide)) (by decide),
    (put_above x0.isLt z0 (by decide)).trans ((put_above x1.isLt z1 (by decide))),
    (put_above x0.isLt z0 (by decide)).trans ((put_above x1.isLt z1 (by decide))),
    (put_below (by decide)).trans ((put_below (by decide))),
    fieldAt_eq (put_at x0.isLt z0),
    fieldAt_eq ((put_below (by decide)).trans (put_at x1.isLt z1))⟩

theorem fmt2 {x0 : BitVec 5} {x1 : BitVec 5} {x2 : BitVec 12} {K w : Nat}
    (hK : K < 2 ^ 32 ∧ bitsAt 5 20 K = 0 ∧ bitsAt 5 15 K = 0 ∧ bitsAt 12 0 K = 0)
    (hw : put 20 x0.toNat (put 15 x1.toNat (put 0 x2.toNat K)) = w) :
    w < 2 ^ 32 ∧
    bitsAt 1 31 w = bitsAt 1 31 K ∧
    bitsAt 3 12 w = bitsAt 3 12 K ∧
    bitsAt 6 25 w = bitsAt 6 25 K ∧
    fieldAt 5 20 w = x0 ∧
    fieldAt 5 15 w = x1 ∧
    fieldAt 12 0 w = x2 := by
  subst hw
  have z2 : bitsAt 12 0 (K) = 0 :=
    hK.2.2.2
  have z1 : bitsAt 5 15 (put 0 x2.toNat K) = 0 :=
    ((put_above x2.isLt z2 (by decide))).trans hK.2.2.1
  have z0 : bitsAt 5 20 (put 15 x1.toNat (put 0 x2.toNat K)) = 0 :=
    ((put_above x1.isLt z1 (by decide)).trans ((put_above x2.isLt z2 (by decide)))).trans hK.2.1
  exact ⟨put_lt x0.isLt z0 (put_lt x1.isLt z1 (put_lt x2.isLt z2 (hK.1) (by decide)) (by decide)) (by decide),
    (put_above x0.isLt z0 (by decide)).trans ((put_above x1.isLt z1 (by decide)).trans ((put_above x2.isLt z2 (by decide)))),
    (put_below (by decide)).trans ((put_below (by decide)).trans ((put_above x2.isLt z2 (by decide)))),
    (put_above x0.isLt z0 (by decide)).trans ((put_above x1.isLt z1 (by decide)).trans ((put_above x2.isLt z2 (by decide)))),
    fieldAt_eq (put_at x0.isLt z0),
    fieldAt_eq ((put_below (by decide)).trans (put_at x1.isLt z1)),
    fieldAt_eq ((put_below (by decide)).trans ((put_below (by decide)).trans (put_at x2.isLt z2)))⟩

theorem fmt3 {x0 : BitVec 5} {x1 : BitVec 5} {x2 : BitVec 6} {K w : Nat}
    (hK : K < 2 ^ 32 ∧ bitsAt 5 20 K = 0 ∧ bitsAt 5 15 K = 0 ∧ bitsAt 6 0 K = 0)
    (hw : put 20 x0.toNat (put 15 x1.toNat (put 0 x2.toNat K)) = w) :
    w < 2 ^ 32 ∧
    bitsAt 1 31 w = bitsAt 1 31 K ∧
    bitsAt 6 25 w = bitsAt 6 25 K ∧
    bitsAt 9 6 w = bitsAt 9 6 K ∧
    fieldAt 5 20 w = x0 ∧
    fieldAt 5 15 w = x1 ∧
    fieldAt 6 0 w = x2 := by
  subst hw
  have z2 : bitsAt 6 0 (K) = 0 :=
    hK.2.2.2
  have z1 : bitsAt 5 15 (put 0 x2.toNat K) = 0 :=
    ((put_above x2.isLt z2 (by decide))).trans hK.2.2.1
  have z0 : bitsAt 5 20 (put 15 x1.toNat (put 0 x2.toNat K)) = 0 :=
    ((put_above x1.isLt z1 (by decide)).trans ((put_above x2.isLt z2 (by decide)))).trans hK.2.1
  exact ⟨put_lt x0.isLt z0 (put_lt x1.isLt z1 (put_lt x2.isLt z2 (hK.1) (by decide)) (by decide)) (by decide),
    (put_above x0.isLt z0 (by decide)).trans ((put_above x1.isLt z1 (by decide)).trans ((put_above x2.isLt z2 (by decide)))),
    (put_above x0.isLt z0 (by decide)).trans ((put_above x1.isLt z1 (by decide)).trans ((put_above x2.isLt z2 (by decide)))),
    (put_below (by decide)).trans ((put_below (by decide)).trans ((put_above x2.isLt z2 (by decide)))),
    fieldAt_eq (put_at x0.isLt z0),
    fieldAt_eq ((put_below (by decide)).trans (put_at x1.isLt z1)),
    fieldAt_eq ((put_below (by decide)).trans ((put_below (by decide)).trans (put_at x2.isLt z2)))⟩

theorem fmt4 {x0 : BitVec 5} {x1 : BitVec 20} {K w : Nat}
    (hK : K < 2 ^ 32 ∧ bitsAt 5 20 K = 0 ∧ bitsAt 20 0 K = 0)
    (hw : put 20 x0.toNat (put 0 x1.toNat K) = w) :
    w < 2 ^ 32 ∧
    bitsAt 1 31 w = bitsAt 1 31 K ∧
    bitsAt 6 25 w = bitsAt 6 25 K ∧
    fieldAt 5 20 w = x0 ∧
    fieldAt 20 0 w = x1 := by
  subst hw
  have z1 : bitsAt 20 0 (K) = 0 :=
    hK.2.2
  have z0 : bitsAt 5 20 (put 0 x1.toNat K) = 0 :=
    ((put_above x1.isLt z1 (by decide))).trans hK.2.1
  exact ⟨put_lt x0.isLt z0 (put_lt x1.isLt z1 (hK.1) (by decide)) (by decide),
    (put_above x0.isLt z0 (by decide)).trans ((put_above x1.isLt z1 (by decide))),
    (put_above x0.isLt z0 (by decide)).trans ((put_above x1.isLt z1 (by decide))),
    fieldAt_eq (put_at x0.isLt z0),
    fieldAt_eq ((put_below (by decide)).trans (put_at x1.isLt z1))⟩

theorem fmt5 {x0 : BitVec 5} {x1 : BitVec 5} {x2 : BitVec 5} {x3 : BitVec 2} {x4 : BitVec 1} {x5 : BitVec 4} {K w : Nat}
    (hK : K < 2 ^ 32 ∧ bitsAt 5 20 K = 0 ∧ bitsAt 5 15 K = 0 ∧ bitsAt 5 10 K = 0 ∧ bitsAt 2 6 K = 0 ∧ bitsAt 1 4 K = 0 ∧ bitsAt 4 0 K = 0)
    (hw : put 20 x0.toNat (put 15 x1.toNat (put 10 x2.toNat (put 6 x3.toNat (put 4 x4.toNat (put 0 x5.toNat K))))) = w) :
    w < 2 ^ 32 ∧
    bitsAt 1 5 w = bitsAt 1 5 K ∧
    bitsAt 1 31 w = bitsAt 1 31 K ∧
    bitsAt 2 8 w = bitsAt 2 8 K ∧
    bitsAt 6 25 w = bitsAt 6 25 K ∧
    fieldAt 5 20 w = x0 ∧
    fieldAt 5 15 w = x1 ∧
    fieldAt 5 10 w = x2 ∧
    fieldAt 2 6 w = x3 ∧
    fieldAt 1 4 w = x4 ∧
    fieldAt 4 0 w = x5 := by
  subst hw
  have z5 : bitsAt 4 0 (K) = 0 :=
    hK.2.2.2.2.2.2
  have z4 : bitsAt 1 4 (put 0 x5.toNat K) = 0 :=
    ((put_above x5.isLt z5 (by decide))).trans hK.2.2.2.2.2.1
  have z3 : bitsAt 2 6 (put 4 x4.toNat (put 0 x5.toNat K)) = 0 :=
    ((put_above x4.isLt z4 (by decide)).trans ((put_above x5.isLt z5 (by decide)))).trans hK.2.2.2.2.1
  have z2 : bitsAt 5 10 (put 6 x3.toNat (put 4 x4.toNat (put 0 x5.toNat K))) = 0 :=
    ((put_above x3.isLt z3 (by decide)).trans ((put_above x4.isLt z4 (by decide)).trans ((put_above x5.isLt z5 (by decide))))).trans hK.2.2.2.1
  have z1 : bitsAt 5 15 (put 10 x2.toNat (put 6 x3.toNat (put 4 x4.toNat (put 0 x5.toNat K)))) = 0 :=
    ((put_above x2.isLt z2 (by decide)).trans ((put_above x3.isLt z3 (by decide)).trans ((put_above x4.isLt z4 (by decide)).trans ((put_above x5.isLt z5 (by decide)))))).trans hK.2.2.1
  have z0 : bitsAt 5 20 (put 15 x1.toNat (put 10 x2.toNat (put 6 x3.toNat (put 4 x4.toNat (put 0 x5.toNat K))))) = 0 :=
    ((put_above x1.isLt z1 (by decide)).trans ((put_above x2.isLt z2 (by decide)).trans ((put_above x3.isLt z3 (by decide)).trans ((put_above x4.isLt z4 (by decide)).trans ((put_above x5.isLt z5 (by decide))))))).trans hK.2.1
  exact ⟨put_lt x0.isLt z0 (put_lt x1.isLt z1 (put_lt x2.isLt z2 (put_lt x3.isLt z3 (put_lt x4.isLt z4 (put_lt x5.isLt z5 (hK.1) (by decide)) (by decide)) (by decide)) (by decide)) (by decide)) (by decide),
    (put_below (by decide)).trans ((put_below (by decide)).trans ((put_below (by decide)).trans ((put_below (by decide)).trans ((put_above x4.isLt z4 (by decide)).trans ((put_above x5.isLt z5 (by decide))))))),
    (put_above x0.isLt z0 (by decide)).trans ((put_above x1.isLt z1 (by decide)).trans ((put_above x2.isLt z2 (by decide)).trans ((put_above x3.isLt z3 (by decide)).trans ((put_above x4.isLt z4 (by decide)).trans ((put_above x5.isLt z5 (by decide))))))),
    (put_below (by decide)).trans ((put_below (by decide)).trans ((put_below (by decide)).trans ((put_above x3.isLt z3 (by decide)).trans ((put_above x4.isLt z4 (by decide)).trans ((put_above x5.isLt z5 (by decide))))))),
    (put_above x0.isLt z0 (by decide)).trans ((put_above x1.isLt z1 (by decide)).trans ((put_above x2.isLt z2 (by decide)).trans ((put_above x3.isLt z3 (by decide)).trans ((put_above x4.isLt z4 (by decide)).trans ((put_above x5.isLt z5 (by decide))))))),
    fieldAt_eq (put_at x0.isLt z0),
    fieldAt_eq ((put_below (by decide)).trans (put_at x1.isLt z1)),
    fieldAt_eq ((put_below (by decide)).trans ((put_below (by decide)).trans (put_at x2.isLt z2))),
    fieldAt_eq ((put_below (by decide)).trans ((put_below (by decide)).trans ((put_below (by decide)).trans (put_at x3.isLt z3)))),
    fieldAt_eq ((put_below (by decide)).trans ((put_below (by decide)).trans ((put_below (by decide)).trans ((put_below (by decide)).trans (put_at x4.isLt z4))))),
    fieldAt_eq ((put_below (by decide)).trans ((put_below (by decide)).trans ((put_below (by decide)).trans ((put_below (by decide)).trans ((put_below (by decide)).trans (put_at x5.isLt z5))))))⟩

theorem fmt6 {x0 : BitVec 5} {K w : Nat}
    (hK : K < 2 ^ 32 ∧ bitsAt 5 20 K = 0)
    (hw : put 20 x0.toNat K = w) :
    w < 2 ^ 32 ∧
    bitsAt 1 31 w = bitsAt 1 31 K ∧
    bitsAt 6 25 w = bitsAt 6 25 K ∧
    bitsAt 20 0 w = bitsAt 20 0 K ∧
    fieldAt 5 20 w = x0 := by
  subst hw
  have z0 : bitsAt 5 20 (K) = 0 :=
    hK.2
  exact ⟨put_lt x0.isLt z0 (hK.1) (by decide),
    (put_above x0.isLt z0 (by decide)),
    (put_above x0.isLt z0 (by decide)),
    (put_below (by decide)),
    fieldAt_eq (put_at x0.isLt z0)⟩

theorem fmt7 {x0 : BitVec 5} {x1 : BitVec 5} {K w : Nat}
    (hK : K < 2 ^ 32 ∧ bitsAt 5 15 K = 0 ∧ bitsAt 5 10 K = 0)
    (hw : put 15 x0.toNat (put 10 x1.toNat K) = w) :
    w < 2 ^ 32 ∧
    bitsAt 1 31 w = bitsAt 1 31 K ∧
    bitsAt 5 20 w = bitsAt 5 20 K ∧
    bitsAt 6 25 w = bitsAt 6 25 K ∧
    bitsAt 10 0 w = bitsAt 10 0 K ∧
    fieldAt 5 15 w = x0 ∧
    fieldAt 5 10 w = x1 := by
  subst hw
  have z1 : bitsAt 5 10 (K) = 0 :=
    hK.2.2
  have z0 : bitsAt 5 15 (put 10 x1.toNat K) = 0 :=
    ((put_above x1.isLt z1 (by decide))).trans hK.2.1
  exact ⟨put_lt x0.isLt z0 (put_lt x1.isLt z1 (hK.1) (by decide)) (by decide),
    (put_above x0.isLt z0 (by decide)).trans ((put_above x1.isLt z1 (by decide))),
    (put_above x0.isLt z0 (by decide)).trans ((put_above x1.isLt z1 (by decide))),
    (put_above x0.isLt z0 (by decide)).trans ((put_above x1.isLt z1 (by decide))),
    (put_below (by decide)).trans ((put_below (by decide))),
    fieldAt_eq (put_at x0.isLt z0),
    fieldAt_eq ((put_below (by decide)).trans (put_at x1.isLt z1))⟩

theorem fmt8 {x0 : BitVec 5} {x1 : BitVec 12} {K w : Nat}
    (hK : K < 2 ^ 32 ∧ bitsAt 5 20 K = 0 ∧ bitsAt 12 3 K = 0)
    (hw : put 20 x0.toNat (put 3 x1.toNat K) = w) :
    w < 2 ^ 32 ∧
    bitsAt 1 31 w = bitsAt 1 31 K ∧
    bitsAt 3 0 w = bitsAt 3 0 K ∧
    bitsAt 5 15 w = bitsAt 5 15 K ∧
    bitsAt 6 25 w = bitsAt 6 25 K ∧
    fieldAt 5 20 w = x0 ∧
    fieldAt 12 3 w = x1 := by
  subst hw
  have z1 : bitsAt 12 3 (K) = 0 :=
    hK.2.2
  have z0 : bitsAt 5 20 (put 3 x1.toNat K) = 0 :=
    ((put_above x1.isLt z1 (by decide))).trans hK.2.1
  exact ⟨put_lt x0.isLt z0 (put_lt x1.isLt z1 (hK.1) (by decide)) (by decide),
    (put_above x0.isLt z0 (by decide)).trans ((put_above x1.isLt z1 (by decide))),
    (put_below (by decide)).trans ((put_below (by decide))),
    (put_below (by decide)).trans ((put_above x1.isLt z1 (by decide))),
    (put_above x0.isLt z0 (by decide)).trans ((put_above x1.isLt z1 (by decide))),
    fieldAt_eq (put_at x0.isLt z0),
    fieldAt_eq ((put_below (by decide)).trans (put_at x1.isLt z1))⟩

theorem fmt9 {x0 : BitVec 5} {x1 : BitVec 5} {x2 : BitVec 12} {K w : Nat}
    (hK : K < 2 ^ 32 ∧ bitsAt 5 20 K = 0 ∧ bitsAt 5 15 K = 0 ∧ bitsAt 12 3 K = 0)
    (hw : put 20 x0.toNat (put 15 x1.toNat (put 3 x2.toNat K)) = w) :
    w < 2 ^ 32 ∧
    bitsAt 1 31 w = bitsAt 1 31 K ∧
    bitsAt 3 0 w = bitsAt 3 0 K ∧
    bitsAt 6 25 w = bitsAt 6 25 K ∧
    fieldAt 5 20 w = x0 ∧
    fieldAt 5 15 w = x1 ∧
    fieldAt 12 3 w = x2 := by
  subst hw
  have z2 : bitsAt 12 3 (K) = 0 :=
    hK.2.2.2
  have z1 : bitsAt 5 15 (put 3 x2.toNat K) = 0 :=
    ((put_above x2.isLt z2 (by decide))).trans hK.2.2.1
  have z0 : bitsAt 5 20 (put 15 x1.toNat (put 3 x2.toNat K)) = 0 :=
    ((put_above x1.isLt z1 (by decide)).trans ((put_above x2.isLt z2 (by decide)))).trans hK.2.1
  exact ⟨put_lt x0.isLt z0 (put_lt x1.isLt z1 (put_lt x2.isLt z2 (hK.1) (by decide)) (by decide)) (by decide),
    (put_above x0.isLt z0 (by decide)).trans ((put_above x1.isLt z1 (by decide)).trans ((put_above x2.isLt z2 (by decide)))),
    (put_below (by decide)).trans ((put_below (by decide)).trans ((put_below (by decide)))),
    (put_above x0.isLt z0 (by decide)).trans ((put_above x1.isLt z1 (by decide)).trans ((put_above x2.isLt z2 (by decide)))),
    fieldAt_eq (put_at x0.isLt z0),
    fieldAt_eq ((put_below (by decide)).trans (put_at x1.isLt z1)),
    fieldAt_eq ((put_below (by decide)).trans ((put_below (by decide)).trans (put_at x2.isLt z2)))⟩

theorem fmt10 {x0 : BitVec 15} {K w : Nat}
    (hK : K < 2 ^ 32 ∧ bitsAt 15 10 K = 0)
    (hw : put 10 x0.toNat K = w) :
    w < 2 ^ 32 ∧
    bitsAt 1 31 w = bitsAt 1 31 K ∧
    bitsAt 6 25 w = bitsAt 6 25 K ∧
    bitsAt 10 0 w = bitsAt 10 0 K ∧
    fieldAt 15 10 w = x0 := by
  subst hw
  have z0 : bitsAt 15 10 (K) = 0 :=
    hK.2
  exact ⟨put_lt x0.isLt z0 (hK.1) (by decide),
    (put_above x0.isLt z0 (by decide)),
    (put_above x0.isLt z0 (by decide)),
    (put_below (by decide)),
    fieldAt_eq (put_at x0.isLt z0)⟩

theorem fmt12 {x0 : BitVec 5} {K w : Nat}
    (hK : K < 2 ^ 32 ∧ bitsAt 5 15 K = 0)
    (hw : put 15 x0.toNat K = w) :
    w < 2 ^ 32 ∧
    bitsAt 1 31 w = bitsAt 1 31 K ∧
    bitsAt 5 20 w = bitsAt 5 20 K ∧
    bitsAt 6 25 w = bitsAt 6 25 K ∧
    bitsAt 15 0 w = bitsAt 15 0 K ∧
    fieldAt 5 15 w = x0 := by
  subst hw
  have z0 : bitsAt 5 15 (K) = 0 :=
    hK.2
  exact ⟨put_lt x0.isLt z0 (hK.1) (by decide),
    (put_above x0.isLt z0 (by decide)),
    (put_above x0.isLt z0 (by decide)),
    (put_above x0.isLt z0 (by decide)),
    (put_below (by decide)),
    fieldAt_eq (put_at x0.isLt z0)⟩

theorem fmt13 {x0 : BitVec 5} {K w : Nat}
    (hK : K < 2 ^ 32 ∧ bitsAt 5 10 K = 0)
    (hw : put 10 x0.toNat K = w) :
    w < 2 ^ 32 ∧
    bitsAt 1 31 w = bitsAt 1 31 K ∧
    bitsAt 6 25 w = bitsAt 6 25 K ∧
    bitsAt 10 0 w = bitsAt 10 0 K ∧
    bitsAt 10 15 w = bitsAt 10 15 K ∧
    fieldAt 5 10 w = x0 := by
  subst hw
  have z0 : bitsAt 5 10 (K) = 0 :=
    hK.2
  exact ⟨put_lt x0.isLt z0 (hK.1) (by decide),
    (put_above x0.isLt z0 (by decide)),
    (put_above x0.isLt z0 (by decide)),
    (put_below (by decide)),
    (put_above x0.isLt z0 (by decide)),
    fieldAt_eq (put_at x0.isLt z0)⟩

theorem fmt14 {x0 : BitVec 4} {K w : Nat}
    (hK : K < 2 ^ 32 ∧ bitsAt 4 10 K = 0)
    (hw : put 10 x0.toNat K = w) :
    w < 2 ^ 32 ∧
    bitsAt 1 31 w = bitsAt 1 31 K ∧
    bitsAt 6 25 w = bitsAt 6 25 K ∧
    bitsAt 10 0 w = bitsAt 10 0 K ∧
    bitsAt 11 14 w = bitsAt 11 14 K ∧
    fieldAt 4 10 w = x0 := by
  subst hw
  have z0 : bitsAt 4 10 (K) = 0 :=
    hK.2
  exact ⟨put_lt x0.isLt z0 (hK.1) (by decide),
    (put_above x0.isLt z0 (by decide)),
    (put_above x0.isLt z0 (by decide)),
    (put_below (by decide)),
    (put_above x0.isLt z0 (by decide)),
    fieldAt_eq (put_at x0.isLt z0)⟩

theorem fmt15 {x0 : Bool} {x1 : BitVec 5} {x2 : BitVec 5} {x3 : BitVec 8} {x4 : BitVec 7} {K w : Nat}
    (hK : K < 2 ^ 32 ∧ bitsAt 1 31 K = 0 ∧ bitsAt 5 20 K = 0 ∧ bitsAt 5 15 K = 0 ∧ bitsAt 8 7 K = 0 ∧ bitsAt 7 0 K = 0)
    (hw : put 31 x0.toNat (put 20 x1.toNat (put 15 x2.toNat (put 7 x3.toNat (put 0 x4.toNat K)))) = w) :
    w < 2 ^ 32 ∧
    bitsAt 6 25 w = bitsAt 6 25 K ∧
    contBit w = x0 ∧
    fieldAt 5 20 w = x1 ∧
    fieldAt 5 15 w = x2 ∧
    fieldAt 8 7 w = x3 ∧
    fieldAt 7 0 w = x4 := by
  subst hw
  have z4 : bitsAt 7 0 (K) = 0 :=
    hK.2.2.2.2.2
  have z3 : bitsAt 8 7 (put 0 x4.toNat K) = 0 :=
    ((put_above x4.isLt z4 (by decide))).trans hK.2.2.2.2.1
  have z2 : bitsAt 5 15 (put 7 x3.toNat (put 0 x4.toNat K)) = 0 :=
    ((put_above x3.isLt z3 (by decide)).trans ((put_above x4.isLt z4 (by decide)))).trans hK.2.2.2.1
  have z1 : bitsAt 5 20 (put 15 x2.toNat (put 7 x3.toNat (put 0 x4.toNat K))) = 0 :=
    ((put_above x2.isLt z2 (by decide)).trans ((put_above x3.isLt z3 (by decide)).trans ((put_above x4.isLt z4 (by decide))))).trans hK.2.2.1
  have z0 : bitsAt 1 31 (put 20 x1.toNat (put 15 x2.toNat (put 7 x3.toNat (put 0 x4.toNat K)))) = 0 :=
    ((put_above x1.isLt z1 (by decide)).trans ((put_above x2.isLt z2 (by decide)).trans ((put_above x3.isLt z3 (by decide)).trans ((put_above x4.isLt z4 (by decide)))))).trans hK.2.1
  exact ⟨put_lt x0.toNat_lt z0 (put_lt x1.isLt z1 (put_lt x2.isLt z2 (put_lt x3.isLt z3 (put_lt x4.isLt z4 (hK.1) (by decide)) (by decide)) (by decide)) (by decide)) (by decide),
    (put_below (by decide)).trans ((put_above x1.isLt z1 (by decide)).trans ((put_above x2.isLt z2 (by decide)).trans ((put_above x3.isLt z3 (by decide)).trans ((put_above x4.isLt z4 (by decide)))))),
    contBit_eq (put_at x0.toNat_lt z0),
    fieldAt_eq ((put_below (by decide)).trans (put_at x1.isLt z1)),
    fieldAt_eq ((put_below (by decide)).trans ((put_below (by decide)).trans (put_at x2.isLt z2))),
    fieldAt_eq ((put_below (by decide)).trans ((put_below (by decide)).trans ((put_below (by decide)).trans (put_at x3.isLt z3)))),
    fieldAt_eq ((put_below (by decide)).trans ((put_below (by decide)).trans ((put_below (by decide)).trans ((put_below (by decide)).trans (put_at x4.isLt z4)))))⟩

theorem fmt16 {x0 : Bool} {x1 : BitVec 5} {x2 : BitVec 5} {x3 : BitVec 5} {x4 : BitVec 5} {K w : Nat}
    (hK : K < 2 ^ 32 ∧ bitsAt 1 31 K = 0 ∧ bitsAt 5 20 K = 0 ∧ bitsAt 5 15 K = 0 ∧ bitsAt 5 10 K = 0 ∧ bitsAt 5 5 K = 0)
    (hw : put 31 x0.toNat (put 20 x1.toNat (put 15 x2.toNat (put 10 x3.toNat (put 5 x4.toNat K)))) = w) :
    w < 2 ^ 32 ∧
    bitsAt 5 0 w = bitsAt 5 0 K ∧
    bitsAt 6 25 w = bitsAt 6 25 K ∧
    contBit w = x0 ∧
    fieldAt 5 20 w = x1 ∧
    fieldAt 5 15 w = x2 ∧
    fieldAt 5 10 w = x3 ∧
    fieldAt 5 5 w = x4 := by
  subst hw
  have z4 : bitsAt 5 5 (K) = 0 :=
    hK.2.2.2.2.2
  have z3 : bitsAt 5 10 (put 5 x4.toNat K) = 0 :=
    ((put_above x4.isLt z4 (by decide))).trans hK.2.2.2.2.1
  have z2 : bitsAt 5 15 (put 10 x3.toNat (put 5 x4.toNat K)) = 0 :=
    ((put_above x3.isLt z3 (by decide)).trans ((put_above x4.isLt z4 (by decide)))).trans hK.2.2.2.1
  have z1 : bitsAt 5 20 (put 15 x2.toNat (put 10 x3.toNat (put 5 x4.toNat K))) = 0 :=
    ((put_above x2.isLt z2 (by decide)).trans ((put_above x3.isLt z3 (by decide)).trans ((put_above x4.isLt z4 (by decide))))).trans hK.2.2.1
  have z0 : bitsAt 1 31 (put 20 x1.toNat (put 15 x2.toNat (put 10 x3.toNat (put 5 x4.toNat K)))) = 0 :=
    ((put_above x1.isLt z1 (by decide)).trans ((put_above x2.isLt z2 (by decide)).trans ((put_above x3.isLt z3 (by decide)).trans ((put_above x4.isLt z4 (by decide)))))).trans hK.2.1
  exact ⟨put_lt x0.toNat_lt z0 (put_lt x1.isLt z1 (put_lt x2.isLt z2 (put_lt x3.isLt z3 (put_lt x4.isLt z4 (hK.1) (by decide)) (by decide)) (by decide)) (by decide)) (by decide),
    (put_below (by decide)).trans ((put_below (by decide)).trans ((put_below (by decide)).trans ((put_below (by decide)).trans ((put_below (by decide)))))),
    (put_below (by decide)).trans ((put_above x1.isLt z1 (by decide)).trans ((put_above x2.isLt z2 (by decide)).trans ((put_above x3.isLt z3 (by decide)).trans ((put_above x4.isLt z4 (by decide)))))),
    contBit_eq (put_at x0.toNat_lt z0),
    fieldAt_eq ((put_below (by decide)).trans (put_at x1.isLt z1)),
    fieldAt_eq ((put_below (by decide)).trans ((put_below (by decide)).trans (put_at x2.isLt z2))),
    fieldAt_eq ((put_below (by decide)).trans ((put_below (by decide)).trans ((put_below (by decide)).trans (put_at x3.isLt z3)))),
    fieldAt_eq ((put_below (by decide)).trans ((put_below (by decide)).trans ((put_below (by decide)).trans ((put_below (by decide)).trans (put_at x4.isLt z4)))))⟩

theorem fmt17 {x0 : Bool} {x1 : BitVec 5} {x2 : BitVec 5} {x3 : BitVec 5} {K w : Nat}
    (hK : K < 2 ^ 32 ∧ bitsAt 1 31 K = 0 ∧ bitsAt 5 20 K = 0 ∧ bitsAt 5 15 K = 0 ∧ bitsAt 5 5 K = 0)
    (hw : put 31 x0.toNat (put 20 x1.toNat (put 15 x2.toNat (put 5 x3.toNat K))) = w) :
    w < 2 ^ 32 ∧
    bitsAt 5 0 w = bitsAt 5 0 K ∧
    bitsAt 5 10 w = bitsAt 5 10 K ∧
    bitsAt 6 25 w = bitsAt 6 25 K ∧
    contBit w = x0 ∧
    fieldAt 5 20 w = x1 ∧
    fieldAt 5 15 w = x2 ∧
    fieldAt 5 5 w = x3 := by
  subst hw
  have z3 : bitsAt 5 5 (K) = 0 :=
    hK.2.2.2.2
  have z2 : bitsAt 5 15 (put 5 x3.toNat K) = 0 :=
    ((put_above x3.isLt z3 (by decide))).trans hK.2.2.2.1
  have z1 : bitsAt 5 20 (put 15 x2.toNat (put 5 x3.toNat K)) = 0 :=
    ((put_above x2.isLt z2 (by decide)).trans ((put_above x3.isLt z3 (by decide)))).trans hK.2.2.1
  have z0 : bitsAt 1 31 (put 20 x1.toNat (put 15 x2.toNat (put 5 x3.toNat K))) = 0 :=
    ((put_above x1.isLt z1 (by decide)).trans ((put_above x2.isLt z2 (by decide)).trans ((put_above x3.isLt z3 (by decide))))).trans hK.2.1
  exact ⟨put_lt x0.toNat_lt z0 (put_lt x1.isLt z1 (put_lt x2.isLt z2 (put_lt x3.isLt z3 (hK.1) (by decide)) (by decide)) (by decide)) (by decide),
    (put_below (by decide)).trans ((put_below (by decide)).trans ((put_below (by decide)).trans ((put_below (by decide))))),
    (put_below (by decide)).trans ((put_below (by decide)).trans ((put_below (by decide)).trans ((put_above x3.isLt z3 (by decide))))),
    (put_below (by decide)).trans ((put_above x1.isLt z1 (by decide)).trans ((put_above x2.isLt z2 (by decide)).trans ((put_above x3.isLt z3 (by decide))))),
    contBit_eq (put_at x0.toNat_lt z0),
    fieldAt_eq ((put_below (by decide)).trans (put_at x1.isLt z1)),
    fieldAt_eq ((put_below (by decide)).trans ((put_below (by decide)).trans (put_at x2.isLt z2))),
    fieldAt_eq ((put_below (by decide)).trans ((put_below (by decide)).trans ((put_below (by decide)).trans (put_at x3.isLt z3))))⟩

theorem fmt18 {x0 : Bool} {x1 : BitVec 5} {x2 : BitVec 5} {K w : Nat}
    (hK : K < 2 ^ 32 ∧ bitsAt 1 31 K = 0 ∧ bitsAt 5 20 K = 0 ∧ bitsAt 5 5 K = 0)
    (hw : put 31 x0.toNat (put 20 x1.toNat (put 5 x2.toNat K)) = w) :
    w < 2 ^ 32 ∧
    bitsAt 5 0 w = bitsAt 5 0 K ∧
    bitsAt 6 25 w = bitsAt 6 25 K ∧
    bitsAt 10 10 w = bitsAt 10 10 K ∧
    contBit w = x0 ∧
    fieldAt 5 20 w = x1 ∧
    fieldAt 5 5 w = x2 := by
  subst hw
  have z2 : bitsAt 5 5 (K) = 0 :=
    hK.2.2.2
  have z1 : bitsAt 5 20 (put 5 x2.toNat K) = 0 :=
    ((put_above x2.isLt z2 (by decide))).trans hK.2.2.1
  have z0 : bitsAt 1 31 (put 20 x1.toNat (put 5 x2.toNat K)) = 0 :=
    ((put_above x1.isLt z1 (by decide)).trans ((put_above x2.isLt z2 (by decide)))).trans hK.2.1
  exact ⟨put_lt x0.toNat_lt z0 (put_lt x1.isLt z1 (put_lt x2.isLt z2 (hK.1) (by decide)) (by decide)) (by decide),
    (put_below (by decide)).trans ((put_below (by decide)).trans ((put_below (by decide)))),
    (put_below (by decide)).trans ((put_above x1.isLt z1 (by decide)).trans ((put_above x2.isLt z2 (by decide)))),
    (put_below (by decide)).trans ((put_below (by decide)).trans ((put_above x2.isLt z2 (by decide)))),
    contBit_eq (put_at x0.toNat_lt z0),
    fieldAt_eq ((put_below (by decide)).trans (put_at x1.isLt z1)),
    fieldAt_eq ((put_below (by decide)).trans ((put_below (by decide)).trans (put_at x2.isLt z2)))⟩

theorem fmt19 {x0 : Bool} {x1 : BitVec 5} {x2 : BitVec 5} {x3 : BitVec 4} {K w : Nat}
    (hK : K < 2 ^ 32 ∧ bitsAt 1 31 K = 0 ∧ bitsAt 5 20 K = 0 ∧ bitsAt 5 15 K = 0 ∧ bitsAt 4 10 K = 0)
    (hw : put 31 x0.toNat (put 20 x1.toNat (put 15 x2.toNat (put 10 x3.toNat K))) = w) :
    w < 2 ^ 32 ∧
    bitsAt 1 14 w = bitsAt 1 14 K ∧
    bitsAt 6 25 w = bitsAt 6 25 K ∧
    bitsAt 10 0 w = bitsAt 10 0 K ∧
    contBit w = x0 ∧
    fieldAt 5 20 w = x1 ∧
    fieldAt 5 15 w = x2 ∧
    fieldAt 4 10 w = x3 := by
  subst hw
  have z3 : bitsAt 4 10 (K) = 0 :=
    hK.2.2.2.2
  have z2 : bitsAt 5 15 (put 10 x3.toNat K) = 0 :=
    ((put_above x3.isLt z3 (by decide))).trans hK.2.2.2.1
  have z1 : bitsAt 5 20 (put 15 x2.toNat (put 10 x3.toNat K)) = 0 :=
    ((put_above x2.isLt z2 (by decide)).trans ((put_above x3.isLt z3 (by decide)))).trans hK.2.2.1
  have z0 : bitsAt 1 31 (put 20 x1.toNat (put 15 x2.toNat (put 10 x3.toNat K))) = 0 :=
    ((put_above x1.isLt z1 (by decide)).trans ((put_above x2.isLt z2 (by decide)).trans ((put_above x3.isLt z3 (by decide))))).trans hK.2.1
  exact ⟨put_lt x0.toNat_lt z0 (put_lt x1.isLt z1 (put_lt x2.isLt z2 (put_lt x3.isLt z3 (hK.1) (by decide)) (by decide)) (by decide)) (by decide),
    (put_below (by decide)).trans ((put_below (by decide)).trans ((put_below (by decide)).trans ((put_above x3.isLt z3 (by decide))))),
    (put_below (by decide)).trans ((put_above x1.isLt z1 (by decide)).trans ((put_above x2.isLt z2 (by decide)).trans ((put_above x3.isLt z3 (by decide))))),
    (put_below (by decide)).trans ((put_below (by decide)).trans ((put_below (by decide)).trans ((put_below (by decide))))),
    contBit_eq (put_at x0.toNat_lt z0),
    fieldAt_eq ((put_below (by decide)).trans (put_at x1.isLt z1)),
    fieldAt_eq ((put_below (by decide)).trans ((put_below (by decide)).trans (put_at x2.isLt z2))),
    fieldAt_eq ((put_below (by decide)).trans ((put_below (by decide)).trans ((put_below (by decide)).trans (put_at x3.isLt z3))))⟩

theorem fmt20 {x0 : Bool} {x1 : BitVec 5} {x2 : BitVec 5} {x3 : BitVec 2} {K w : Nat}
    (hK : K < 2 ^ 32 ∧ bitsAt 1 31 K = 0 ∧ bitsAt 5 20 K = 0 ∧ bitsAt 5 15 K = 0 ∧ bitsAt 2 10 K = 0)
    (hw : put 31 x0.toNat (put 20 x1.toNat (put 15 x2.toNat (put 10 x3.toNat K))) = w) :
    w < 2 ^ 32 ∧
    bitsAt 3 12 w = bitsAt 3 12 K ∧
    bitsAt 6 25 w = bitsAt 6 25 K ∧
    bitsAt 10 0 w = bitsAt 10 0 K ∧
    contBit w = x0 ∧
    fieldAt 5 20 w = x1 ∧
    fieldAt 5 15 w = x2 ∧
    fieldAt 2 10 w = x3 := by
  subst hw
  have z3 : bitsAt 2 10 (K) = 0 :=
    hK.2.2.2.2
  have z2 : bitsAt 5 15 (put 10 x3.toNat K) = 0 :=
    ((put_above x3.isLt z3 (by decide))).trans hK.2.2.2.1
  have z1 : bitsAt 5 20 (put 15 x2.toNat (put 10 x3.toNat K)) = 0 :=
    ((put_above x2.isLt z2 (by decide)).trans ((put_above x3.isLt z3 (by decide)))).trans hK.2.2.1
  have z0 : bitsAt 1 31 (put 20 x1.toNat (put 15 x2.toNat (put 10 x3.toNat K))) = 0 :=
    ((put_above x1.isLt z1 (by decide)).trans ((put_above x2.isLt z2 (by decide)).trans ((put_above x3.isLt z3 (by decide))))).trans hK.2.1
  exact ⟨put_lt x0.toNat_lt z0 (put_lt x1.isLt z1 (put_lt x2.isLt z2 (put_lt x3.isLt z3 (hK.1) (by decide)) (by decide)) (by decide)) (by decide),
    (put_below (by decide)).trans ((put_below (by decide)).trans ((put_below (by decide)).trans ((put_above x3.isLt z3 (by decide))))),
    (put_below (by decide)).trans ((put_above x1.isLt z1 (by decide)).trans ((put_above x2.isLt z2 (by decide)).trans ((put_above x3.isLt z3 (by decide))))),
    (put_below (by decide)).trans ((put_below (by decide)).trans ((put_below (by decide)).trans ((put_below (by decide))))),
    contBit_eq (put_at x0.toNat_lt z0),
    fieldAt_eq ((put_below (by decide)).trans (put_at x1.isLt z1)),
    fieldAt_eq ((put_below (by decide)).trans ((put_below (by decide)).trans (put_at x2.isLt z2))),
    fieldAt_eq ((put_below (by decide)).trans ((put_below (by decide)).trans ((put_below (by decide)).trans (put_at x3.isLt z3))))⟩

theorem fmt21 {x0 : BitVec 5} {x1 : BitVec 5} {x2 : BitVec 5} {K w : Nat}
    (hK : K < 2 ^ 32 ∧ bitsAt 5 20 K = 0 ∧ bitsAt 5 15 K = 0 ∧ bitsAt 5 5 K = 0)
    (hw : put 20 x0.toNat (put 15 x1.toNat (put 5 x2.toNat K)) = w) :
    w < 2 ^ 32 ∧
    bitsAt 1 31 w = bitsAt 1 31 K ∧
    bitsAt 5 0 w = bitsAt 5 0 K ∧
    bitsAt 5 10 w = bitsAt 5 10 K ∧
    bitsAt 6 25 w = bitsAt 6 25 K ∧
    fieldAt 5 20 w = x0 ∧
    fieldAt 5 15 w = x1 ∧
    fieldAt 5 5 w = x2 := by
  subst hw
  have z2 : bitsAt 5 5 (K) = 0 :=
    hK.2.2.2
  have z1 : bitsAt 5 15 (put 5 x2.toNat K) = 0 :=
    ((put_above x2.isLt z2 (by decide))).trans hK.2.2.1
  have z0 : bitsAt 5 20 (put 15 x1.toNat (put 5 x2.toNat K)) = 0 :=
    ((put_above x1.isLt z1 (by decide)).trans ((put_above x2.isLt z2 (by decide)))).trans hK.2.1
  exact ⟨put_lt x0.isLt z0 (put_lt x1.isLt z1 (put_lt x2.isLt z2 (hK.1) (by decide)) (by decide)) (by decide),
    (put_above x0.isLt z0 (by decide)).trans ((put_above x1.isLt z1 (by decide)).trans ((put_above x2.isLt z2 (by decide)))),
    (put_below (by decide)).trans ((put_below (by decide)).trans ((put_below (by decide)))),
    (put_below (by decide)).trans ((put_below (by decide)).trans ((put_above x2.isLt z2 (by decide)))),
    (put_above x0.isLt z0 (by decide)).trans ((put_above x1.isLt z1 (by decide)).trans ((put_above x2.isLt z2 (by decide)))),
    fieldAt_eq (put_at x0.isLt z0),
    fieldAt_eq ((put_below (by decide)).trans (put_at x1.isLt z1)),
    fieldAt_eq ((put_below (by decide)).trans ((put_below (by decide)).trans (put_at x2.isLt z2)))⟩

theorem fmt22 {x0 : BitVec 5} {x1 : BitVec 5} {x2 : BitVec 5} {x3 : BitVec 5} {K w : Nat}
    (hK : K < 2 ^ 32 ∧ bitsAt 5 20 K = 0 ∧ bitsAt 5 15 K = 0 ∧ bitsAt 5 10 K = 0 ∧ bitsAt 5 5 K = 0)
    (hw : put 20 x0.toNat (put 15 x1.toNat (put 10 x2.toNat (put 5 x3.toNat K))) = w) :
    w < 2 ^ 32 ∧
    bitsAt 1 31 w = bitsAt 1 31 K ∧
    bitsAt 5 0 w = bitsAt 5 0 K ∧
    bitsAt 6 25 w = bitsAt 6 25 K ∧
    fieldAt 5 20 w = x0 ∧
    fieldAt 5 15 w = x1 ∧
    fieldAt 5 10 w = x2 ∧
    fieldAt 5 5 w = x3 := by
  subst hw
  have z3 : bitsAt 5 5 (K) = 0 :=
    hK.2.2.2.2
  have z2 : bitsAt 5 10 (put 5 x3.toNat K) = 0 :=
    ((put_above x3.isLt z3 (by decide))).trans hK.2.2.2.1
  have z1 : bitsAt 5 15 (put 10 x2.toNat (put 5 x3.toNat K)) = 0 :=
    ((put_above x2.isLt z2 (by decide)).trans ((put_above x3.isLt z3 (by decide)))).trans hK.2.2.1
  have z0 : bitsAt 5 20 (put 15 x1.toNat (put 10 x2.toNat (put 5 x3.toNat K))) = 0 :=
    ((put_above x1.isLt z1 (by decide)).trans ((put_above x2.isLt z2 (by decide)).trans ((put_above x3.isLt z3 (by decide))))).trans hK.2.1
  exact ⟨put_lt x0.isLt z0 (put_lt x1.isLt z1 (put_lt x2.isLt z2 (put_lt x3.isLt z3 (hK.1) (by decide)) (by decide)) (by decide)) (by decide),
    (put_above x0.isLt z0 (by decide)).trans ((put_above x1.isLt z1 (by decide)).trans ((put_above x2.isLt z2 (by decide)).trans ((put_above x3.isLt z3 (by decide))))),
    (put_below (by decide)).trans ((put_below (by decide)).trans ((put_below (by decide)).trans ((put_below (by decide))))),
    (put_above x0.isLt z0 (by decide)).trans ((put_above x1.isLt z1 (by decide)).trans ((put_above x2.isLt z2 (by decide)).trans ((put_above x3.isLt z3 (by decide))))),
    fieldAt_eq (put_at x0.isLt z0),
    fieldAt_eq ((put_below (by decide)).trans (put_at x1.isLt z1)),
    fieldAt_eq ((put_below (by decide)).trans ((put_below (by decide)).trans (put_at x2.isLt z2))),
    fieldAt_eq ((put_below (by decide)).trans ((put_below (by decide)).trans ((put_below (by decide)).trans (put_at x3.isLt z3))))⟩

theorem fmt23 {x0 : BitVec 5} {x1 : BitVec 5} {x2 : BitVec 5} {K w : Nat}
    (hK : K < 2 ^ 32 ∧ bitsAt 5 15 K = 0 ∧ bitsAt 5 10 K = 0 ∧ bitsAt 5 5 K = 0)
    (hw : put 15 x0.toNat (put 10 x1.toNat (put 5 x2.toNat K)) = w) :
    w < 2 ^ 32 ∧
    bitsAt 1 31 w = bitsAt 1 31 K ∧
    bitsAt 5 0 w = bitsAt 5 0 K ∧
    bitsAt 5 20 w = bitsAt 5 20 K ∧
    bitsAt 6 25 w = bitsAt 6 25 K ∧
    fieldAt 5 15 w = x0 ∧
    fieldAt 5 10 w = x1 ∧
    fieldAt 5 5 w = x2 := by
  subst hw
  have z2 : bitsAt 5 5 (K) = 0 :=
    hK.2.2.2
  have z1 : bitsAt 5 10 (put 5 x2.toNat K) = 0 :=
    ((put_above x2.isLt z2 (by decide))).trans hK.2.2.1
  have z0 : bitsAt 5 15 (put 10 x1.toNat (put 5 x2.toNat K)) = 0 :=
    ((put_above x1.isLt z1 (by decide)).trans ((put_above x2.isLt z2 (by decide)))).trans hK.2.1
  exact ⟨put_lt x0.isLt z0 (put_lt x1.isLt z1 (put_lt x2.isLt z2 (hK.1) (by decide)) (by decide)) (by decide),
    (put_above x0.isLt z0 (by decide)).trans ((put_above x1.isLt z1 (by decide)).trans ((put_above x2.isLt z2 (by decide)))),
    (put_below (by decide)).trans ((put_below (by decide)).trans ((put_below (by decide)))),
    (put_above x0.isLt z0 (by decide)).trans ((put_above x1.isLt z1 (by decide)).trans ((put_above x2.isLt z2 (by decide)))),
    (put_above x0.isLt z0 (by decide)).trans ((put_above x1.isLt z1 (by decide)).trans ((put_above x2.isLt z2 (by decide)))),
    fieldAt_eq (put_at x0.isLt z0),
    fieldAt_eq ((put_below (by decide)).trans (put_at x1.isLt z1)),
    fieldAt_eq ((put_below (by decide)).trans ((put_below (by decide)).trans (put_at x2.isLt z2)))⟩

theorem fmt24 {x0 : Bool} {x1 : BitVec 5} {x2 : BitVec 5} {x3 : BitVec 5} {x4 : BitVec 5} {x5 : BitVec 4} {K w : Nat}
    (hK : K < 2 ^ 32 ∧ bitsAt 1 31 K = 0 ∧ bitsAt 5 20 K = 0 ∧ bitsAt 5 15 K = 0 ∧ bitsAt 5 10 K = 0 ∧ bitsAt 5 5 K = 0 ∧ bitsAt 4 0 K = 0)
    (hw : put 31 x0.toNat (put 20 x1.toNat (put 15 x2.toNat (put 10 x3.toNat (put 5 x4.toNat (put 0 x5.toNat K))))) = w) :
    w < 2 ^ 32 ∧
    bitsAt 1 4 w = bitsAt 1 4 K ∧
    bitsAt 6 25 w = bitsAt 6 25 K ∧
    contBit w = x0 ∧
    fieldAt 5 20 w = x1 ∧
    fieldAt 5 15 w = x2 ∧
    fieldAt 5 10 w = x3 ∧
    fieldAt 5 5 w = x4 ∧
    fieldAt 4 0 w = x5 := by
  subst hw
  have z5 : bitsAt 4 0 (K) = 0 :=
    hK.2.2.2.2.2.2
  have z4 : bitsAt 5 5 (put 0 x5.toNat K) = 0 :=
    ((put_above x5.isLt z5 (by decide))).trans hK.2.2.2.2.2.1
  have z3 : bitsAt 5 10 (put 5 x4.toNat (put 0 x5.toNat K)) = 0 :=
    ((put_above x4.isLt z4 (by decide)).trans ((put_above x5.isLt z5 (by decide)))).trans hK.2.2.2.2.1
  have z2 : bitsAt 5 15 (put 10 x3.toNat (put 5 x4.toNat (put 0 x5.toNat K))) = 0 :=
    ((put_above x3.isLt z3 (by decide)).trans ((put_above x4.isLt z4 (by decide)).trans ((put_above x5.isLt z5 (by decide))))).trans hK.2.2.2.1
  have z1 : bitsAt 5 20 (put 15 x2.toNat (put 10 x3.toNat (put 5 x4.toNat (put 0 x5.toNat K)))) = 0 :=
    ((put_above x2.isLt z2 (by decide)).trans ((put_above x3.isLt z3 (by decide)).trans ((put_above x4.isLt z4 (by decide)).trans ((put_above x5.isLt z5 (by decide)))))).trans hK.2.2.1
  have z0 : bitsAt 1 31 (put 20 x1.toNat (put 15 x2.toNat (put 10 x3.toNat (put 5 x4.toNat (put 0 x5.toNat K))))) = 0 :=
    ((put_above x1.isLt z1 (by decide)).trans ((put_above x2.isLt z2 (by decide)).trans ((put_above x3.isLt z3 (by decide)).trans ((put_above x4.isLt z4 (by decide)).trans ((put_above x5.isLt z5 (by decide))))))).trans hK.2.1
  exact ⟨put_lt x0.toNat_lt z0 (put_lt x1.isLt z1 (put_lt x2.isLt z2 (put_lt x3.isLt z3 (put_lt x4.isLt z4 (put_lt x5.isLt z5 (hK.1) (by decide)) (by decide)) (by decide)) (by decide)) (by decide)) (by decide),
    (put_below (by decide)).trans ((put_below (by decide)).trans ((put_below (by decide)).trans ((put_below (by decide)).trans ((put_below (by decide)).trans ((put_above x5.isLt z5 (by decide))))))),
    (put_below (by decide)).trans ((put_above x1.isLt z1 (by decide)).trans ((put_above x2.isLt z2 (by decide)).trans ((put_above x3.isLt z3 (by decide)).trans ((put_above x4.isLt z4 (by decide)).trans ((put_above x5.isLt z5 (by decide))))))),
    contBit_eq (put_at x0.toNat_lt z0),
    fieldAt_eq ((put_below (by decide)).trans (put_at x1.isLt z1)),
    fieldAt_eq ((put_below (by decide)).trans ((put_below (by decide)).trans (put_at x2.isLt z2))),
    fieldAt_eq ((put_below (by decide)).trans ((put_below (by decide)).trans ((put_below (by decide)).trans (put_at x3.isLt z3)))),
    fieldAt_eq ((put_below (by decide)).trans ((put_below (by decide)).trans ((put_below (by decide)).trans ((put_below (by decide)).trans (put_at x4.isLt z4))))),
    fieldAt_eq ((put_below (by decide)).trans ((put_below (by decide)).trans ((put_below (by decide)).trans ((put_below (by decide)).trans ((put_below (by decide)).trans (put_at x5.isLt z5))))))⟩

theorem fmt25 {x0 : Bool} {x1 : BitVec 5} {x2 : BitVec 5} {x3 : BitVec 4} {x4 : BitVec 5} {K w : Nat}
    (hK : K < 2 ^ 32 ∧ bitsAt 1 31 K = 0 ∧ bitsAt 5 20 K = 0 ∧ bitsAt 5 15 K = 0 ∧ bitsAt 4 10 K = 0 ∧ bitsAt 5 5 K = 0)
    (hw : put 31 x0.toNat (put 20 x1.toNat (put 15 x2.toNat (put 10 x3.toNat (put 5 x4.toNat K)))) = w) :
    w < 2 ^ 32 ∧
    bitsAt 1 14 w = bitsAt 1 14 K ∧
    bitsAt 5 0 w = bitsAt 5 0 K ∧
    bitsAt 6 25 w = bitsAt 6 25 K ∧
    contBit w = x0 ∧
    fieldAt 5 20 w = x1 ∧
    fieldAt 5 15 w = x2 ∧
    fieldAt 4 10 w = x3 ∧
    fieldAt 5 5 w = x4 := by
  subst hw
  have z4 : bitsAt 5 5 (K) = 0 :=
    hK.2.2.2.2.2
  have z3 : bitsAt 4 10 (put 5 x4.toNat K) = 0 :=
    ((put_above x4.isLt z4 (by decide))).trans hK.2.2.2.2.1
  have z2 : bitsAt 5 15 (put 10 x3.toNat (put 5 x4.toNat K)) = 0 :=
    ((put_above x3.isLt z3 (by decide)).trans ((put_above x4.isLt z4 (by decide)))).trans hK.2.2.2.1
  have z1 : bitsAt 5 20 (put 15 x2.toNat (put 10 x3.toNat (put 5 x4.toNat K))) = 0 :=
    ((put_above x2.isLt z2 (by decide)).trans ((put_above x3.isLt z3 (by decide)).trans ((put_above x4.isLt z4 (by decide))))).trans hK.2.2.1
  have z0 : bitsAt 1 31 (put 20 x1.toNat (put 15 x2.toNat (put 10 x3.toNat (put 5 x4.toNat K)))) = 0 :=
    ((put_above x1.isLt z1 (by decide)).trans ((put_above x2.isLt z2 (by decide)).trans ((put_above x3.isLt z3 (by decide)).trans ((put_above x4.isLt z4 (by decide)))))).trans hK.2.1
  exact ⟨put_lt x0.toNat_lt z0 (put_lt x1.isLt z1 (put_lt x2.isLt z2 (put_lt x3.isLt z3 (put_lt x4.isLt z4 (hK.1) (by decide)) (by decide)) (by decide)) (by decide)) (by decide),
    (put_below (by decide)).trans ((put_below (by decide)).trans ((put_below (by decide)).trans ((put_above x3.isLt z3 (by decide)).trans ((put_above x4.isLt z4 (by decide)))))),
    (put_below (by decide)).trans ((put_below (by decide)).trans ((put_below (by decide)).trans ((put_below (by decide)).trans ((put_below (by decide)))))),
    (put_below (by decide)).trans ((put_above x1.isLt z1 (by decide)).trans ((put_above x2.isLt z2 (by decide)).trans ((put_above x3.isLt z3 (by decide)).trans ((put_above x4.isLt z4 (by decide)))))),
    contBit_eq (put_at x0.toNat_lt z0),
    fieldAt_eq ((put_below (by decide)).trans (put_at x1.isLt z1)),
    fieldAt_eq ((put_below (by decide)).trans ((put_below (by decide)).trans (put_at x2.isLt z2))),
    fieldAt_eq ((put_below (by decide)).trans ((put_below (by decide)).trans ((put_below (by decide)).trans (put_at x3.isLt z3)))),
    fieldAt_eq ((put_below (by decide)).trans ((put_below (by decide)).trans ((put_below (by decide)).trans ((put_below (by decide)).trans (put_at x4.isLt z4)))))⟩

theorem fmt26 {x0 : Bool} {x1 : BitVec 5} {x2 : BitVec 5} {x3 : BitVec 5} {K w : Nat}
    (hK : K < 2 ^ 32 ∧ bitsAt 1 31 K = 0 ∧ bitsAt 5 20 K = 0 ∧ bitsAt 5 10 K = 0 ∧ bitsAt 5 5 K = 0)
    (hw : put 31 x0.toNat (put 20 x1.toNat (put 10 x2.toNat (put 5 x3.toNat K))) = w) :
    w < 2 ^ 32 ∧
    bitsAt 5 0 w = bitsAt 5 0 K ∧
    bitsAt 5 15 w = bitsAt 5 15 K ∧
    bitsAt 6 25 w = bitsAt 6 25 K ∧
    contBit w = x0 ∧
    fieldAt 5 20 w = x1 ∧
    fieldAt 5 10 w = x2 ∧
    fieldAt 5 5 w = x3 := by
  subst hw
  have z3 : bitsAt 5 5 (K) = 0 :=
    hK.2.2.2.2
  have z2 : bitsAt 5 10 (put 5 x3.toNat K) = 0 :=
    ((put_above x3.isLt z3 (by decide))).trans hK.2.2.2.1
  have z1 : bitsAt 5 20 (put 10 x2.toNat (put 5 x3.toNat K)) = 0 :=
    ((put_above x2.isLt z2 (by decide)).trans ((put_above x3.isLt z3 (by decide)))).trans hK.2.2.1
  have z0 : bitsAt 1 31 (put 20 x1.toNat (put 10 x2.toNat (put 5 x3.toNat K))) = 0 :=
    ((put_above x1.isLt z1 (by decide)).trans ((put_above x2.isLt z2 (by decide)).trans ((put_above x3.isLt z3 (by decide))))).trans hK.2.1
  exact ⟨put_lt x0.toNat_lt z0 (put_lt x1.isLt z1 (put_lt x2.isLt z2 (put_lt x3.isLt z3 (hK.1) (by decide)) (by decide)) (by decide)) (by decide),
    (put_below (by decide)).trans ((put_below (by decide)).trans ((put_below (by decide)).trans ((put_below (by decide))))),
    (put_below (by decide)).trans ((put_below (by decide)).trans ((put_above x2.isLt z2 (by decide)).trans ((put_above x3.isLt z3 (by decide))))),
    (put_below (by decide)).trans ((put_above x1.isLt z1 (by decide)).trans ((put_above x2.isLt z2 (by decide)).trans ((put_above x3.isLt z3 (by decide))))),
    contBit_eq (put_at x0.toNat_lt z0),
    fieldAt_eq ((put_below (by decide)).trans (put_at x1.isLt z1)),
    fieldAt_eq ((put_below (by decide)).trans ((put_below (by decide)).trans (put_at x2.isLt z2))),
    fieldAt_eq ((put_below (by decide)).trans ((put_below (by decide)).trans ((put_below (by decide)).trans (put_at x3.isLt z3))))⟩

theorem fmt27 {x0 : Bool} {x1 : BitVec 5} {x2 : BitVec 5} {x3 : BitVec 5} {K w : Nat}
    (hK : K < 2 ^ 32 ∧ bitsAt 1 31 K = 0 ∧ bitsAt 5 20 K = 0 ∧ bitsAt 5 15 K = 0 ∧ bitsAt 5 10 K = 0)
    (hw : put 31 x0.toNat (put 20 x1.toNat (put 15 x2.toNat (put 10 x3.toNat K))) = w) :
    w < 2 ^ 32 ∧
    bitsAt 6 25 w = bitsAt 6 25 K ∧
    bitsAt 10 0 w = bitsAt 10 0 K ∧
    contBit w = x0 ∧
    fieldAt 5 20 w = x1 ∧
    fieldAt 5 15 w = x2 ∧
    fieldAt 5 10 w = x3 := by
  subst hw
  have z3 : bitsAt 5 10 (K) = 0 :=
    hK.2.2.2.2
  have z2 : bitsAt 5 15 (put 10 x3.toNat K) = 0 :=
    ((put_above x3.isLt z3 (by decide))).trans hK.2.2.2.1
  have z1 : bitsAt 5 20 (put 15 x2.toNat (put 10 x3.toNat K)) = 0 :=
    ((put_above x2.isLt z2 (by decide)).trans ((put_above x3.isLt z3 (by decide)))).trans hK.2.2.1
  have z0 : bitsAt 1 31 (put 20 x1.toNat (put 15 x2.toNat (put 10 x3.toNat K))) = 0 :=
    ((put_above x1.isLt z1 (by decide)).trans ((put_above x2.isLt z2 (by decide)).trans ((put_above x3.isLt z3 (by decide))))).trans hK.2.1
  exact ⟨put_lt x0.toNat_lt z0 (put_lt x1.isLt z1 (put_lt x2.isLt z2 (put_lt x3.isLt z3 (hK.1) (by decide)) (by decide)) (by decide)) (by decide),
    (put_below (by decide)).trans ((put_above x1.isLt z1 (by decide)).trans ((put_above x2.isLt z2 (by decide)).trans ((put_above x3.isLt z3 (by decide))))),
    (put_below (by decide)).trans ((put_below (by decide)).trans ((put_below (by decide)).trans ((put_below (by decide))))),
    contBit_eq (put_at x0.toNat_lt z0),
    fieldAt_eq ((put_below (by decide)).trans (put_at x1.isLt z1)),
    fieldAt_eq ((put_below (by decide)).trans ((put_below (by decide)).trans (put_at x2.isLt z2))),
    fieldAt_eq ((put_below (by decide)).trans ((put_below (by decide)).trans ((put_below (by decide)).trans (put_at x3.isLt z3))))⟩

theorem fmt28 {x0 : Bool} {x1 : BitVec 5} {x2 : BitVec 5} {x3 : BitVec 1} {x4 : BitVec 3} {x5 : BitVec 5} {K w : Nat}
    (hK : K < 2 ^ 32 ∧ bitsAt 1 31 K = 0 ∧ bitsAt 5 20 K = 0 ∧ bitsAt 5 15 K = 0 ∧ bitsAt 1 13 K = 0 ∧ bitsAt 3 10 K = 0 ∧ bitsAt 5 5 K = 0)
    (hw : put 31 x0.toNat (put 20 x1.toNat (put 15 x2.toNat (put 13 x3.toNat (put 10 x4.toNat (put 5 x5.toNat K))))) = w) :
    w < 2 ^ 32 ∧
    bitsAt 1 14 w = bitsAt 1 14 K ∧
    bitsAt 5 0 w = bitsAt 5 0 K ∧
    bitsAt 6 25 w = bitsAt 6 25 K ∧
    contBit w = x0 ∧
    fieldAt 5 20 w = x1 ∧
    fieldAt 5 15 w = x2 ∧
    fieldAt 1 13 w = x3 ∧
    fieldAt 3 10 w = x4 ∧
    fieldAt 5 5 w = x5 := by
  subst hw
  have z5 : bitsAt 5 5 (K) = 0 :=
    hK.2.2.2.2.2.2
  have z4 : bitsAt 3 10 (put 5 x5.toNat K) = 0 :=
    ((put_above x5.isLt z5 (by decide))).trans hK.2.2.2.2.2.1
  have z3 : bitsAt 1 13 (put 10 x4.toNat (put 5 x5.toNat K)) = 0 :=
    ((put_above x4.isLt z4 (by decide)).trans ((put_above x5.isLt z5 (by decide)))).trans hK.2.2.2.2.1
  have z2 : bitsAt 5 15 (put 13 x3.toNat (put 10 x4.toNat (put 5 x5.toNat K))) = 0 :=
    ((put_above x3.isLt z3 (by decide)).trans ((put_above x4.isLt z4 (by decide)).trans ((put_above x5.isLt z5 (by decide))))).trans hK.2.2.2.1
  have z1 : bitsAt 5 20 (put 15 x2.toNat (put 13 x3.toNat (put 10 x4.toNat (put 5 x5.toNat K)))) = 0 :=
    ((put_above x2.isLt z2 (by decide)).trans ((put_above x3.isLt z3 (by decide)).trans ((put_above x4.isLt z4 (by decide)).trans ((put_above x5.isLt z5 (by decide)))))).trans hK.2.2.1
  have z0 : bitsAt 1 31 (put 20 x1.toNat (put 15 x2.toNat (put 13 x3.toNat (put 10 x4.toNat (put 5 x5.toNat K))))) = 0 :=
    ((put_above x1.isLt z1 (by decide)).trans ((put_above x2.isLt z2 (by decide)).trans ((put_above x3.isLt z3 (by decide)).trans ((put_above x4.isLt z4 (by decide)).trans ((put_above x5.isLt z5 (by decide))))))).trans hK.2.1
  exact ⟨put_lt x0.toNat_lt z0 (put_lt x1.isLt z1 (put_lt x2.isLt z2 (put_lt x3.isLt z3 (put_lt x4.isLt z4 (put_lt x5.isLt z5 (hK.1) (by decide)) (by decide)) (by decide)) (by decide)) (by decide)) (by decide),
    (put_below (by decide)).trans ((put_below (by decide)).trans ((put_below (by decide)).trans ((put_above x3.isLt z3 (by decide)).trans ((put_above x4.isLt z4 (by decide)).trans ((put_above x5.isLt z5 (by decide))))))),
    (put_below (by decide)).trans ((put_below (by decide)).trans ((put_below (by decide)).trans ((put_below (by decide)).trans ((put_below (by decide)).trans ((put_below (by decide))))))),
    (put_below (by decide)).trans ((put_above x1.isLt z1 (by decide)).trans ((put_above x2.isLt z2 (by decide)).trans ((put_above x3.isLt z3 (by decide)).trans ((put_above x4.isLt z4 (by decide)).trans ((put_above x5.isLt z5 (by decide))))))),
    contBit_eq (put_at x0.toNat_lt z0),
    fieldAt_eq ((put_below (by decide)).trans (put_at x1.isLt z1)),
    fieldAt_eq ((put_below (by decide)).trans ((put_below (by decide)).trans (put_at x2.isLt z2))),
    fieldAt_eq ((put_below (by decide)).trans ((put_below (by decide)).trans ((put_below (by decide)).trans (put_at x3.isLt z3)))),
    fieldAt_eq ((put_below (by decide)).trans ((put_below (by decide)).trans ((put_below (by decide)).trans ((put_below (by decide)).trans (put_at x4.isLt z4))))),
    fieldAt_eq ((put_below (by decide)).trans ((put_below (by decide)).trans ((put_below (by decide)).trans ((put_below (by decide)).trans ((put_below (by decide)).trans (put_at x5.isLt z5))))))⟩

theorem fmt29 {x0 : Bool} {x1 : BitVec 5} {x2 : BitVec 5} {x3 : BitVec 5} {x4 : BitVec 5} {x5 : BitVec 1} {K w : Nat}
    (hK : K < 2 ^ 32 ∧ bitsAt 1 31 K = 0 ∧ bitsAt 5 20 K = 0 ∧ bitsAt 5 15 K = 0 ∧ bitsAt 5 10 K = 0 ∧ bitsAt 5 5 K = 0 ∧ bitsAt 1 3 K = 0)
    (hw : put 31 x0.toNat (put 20 x1.toNat (put 15 x2.toNat (put 10 x3.toNat (put 5 x4.toNat (put 3 x5.toNat K))))) = w) :
    w < 2 ^ 32 ∧
    bitsAt 1 4 w = bitsAt 1 4 K ∧
    bitsAt 3 0 w = bitsAt 3 0 K ∧
    bitsAt 6 25 w = bitsAt 6 25 K ∧
    contBit w = x0 ∧
    fieldAt 5 20 w = x1 ∧
    fieldAt 5 15 w = x2 ∧
    fieldAt 5 10 w = x3 ∧
    fieldAt 5 5 w = x4 ∧
    fieldAt 1 3 w = x5 := by
  subst hw
  have z5 : bitsAt 1 3 (K) = 0 :=
    hK.2.2.2.2.2.2
  have z4 : bitsAt 5 5 (put 3 x5.toNat K) = 0 :=
    ((put_above x5.isLt z5 (by decide))).trans hK.2.2.2.2.2.1
  have z3 : bitsAt 5 10 (put 5 x4.toNat (put 3 x5.toNat K)) = 0 :=
    ((put_above x4.isLt z4 (by decide)).trans ((put_above x5.isLt z5 (by decide)))).trans hK.2.2.2.2.1
  have z2 : bitsAt 5 15 (put 10 x3.toNat (put 5 x4.toNat (put 3 x5.toNat K))) = 0 :=
    ((put_above x3.isLt z3 (by decide)).trans ((put_above x4.isLt z4 (by decide)).trans ((put_above x5.isLt z5 (by decide))))).trans hK.2.2.2.1
  have z1 : bitsAt 5 20 (put 15 x2.toNat (put 10 x3.toNat (put 5 x4.toNat (put 3 x5.toNat K)))) = 0 :=
    ((put_above x2.isLt z2 (by decide)).trans ((put_above x3.isLt z3 (by decide)).trans ((put_above x4.isLt z4 (by decide)).trans ((put_above x5.isLt z5 (by decide)))))).trans hK.2.2.1
  have z0 : bitsAt 1 31 (put 20 x1.toNat (put 15 x2.toNat (put 10 x3.toNat (put 5 x4.toNat (put 3 x5.toNat K))))) = 0 :=
    ((put_above x1.isLt z1 (by decide)).trans ((put_above x2.isLt z2 (by decide)).trans ((put_above x3.isLt z3 (by decide)).trans ((put_above x4.isLt z4 (by decide)).trans ((put_above x5.isLt z5 (by decide))))))).trans hK.2.1
  exact ⟨put_lt x0.toNat_lt z0 (put_lt x1.isLt z1 (put_lt x2.isLt z2 (put_lt x3.isLt z3 (put_lt x4.isLt z4 (put_lt x5.isLt z5 (hK.1) (by decide)) (by decide)) (by decide)) (by decide)) (by decide)) (by decide),
    (put_below (by decide)).trans ((put_below (by decide)).trans ((put_below (by decide)).trans ((put_below (by decide)).trans ((put_below (by decide)).trans ((put_above x5.isLt z5 (by decide))))))),
    (put_below (by decide)).trans ((put_below (by decide)).trans ((put_below (by decide)).trans ((put_below (by decide)).trans ((put_below (by decide)).trans ((put_below (by decide))))))),
    (put_below (by decide)).trans ((put_above x1.isLt z1 (by decide)).trans ((put_above x2.isLt z2 (by decide)).trans ((put_above x3.isLt z3 (by decide)).trans ((put_above x4.isLt z4 (by decide)).trans ((put_above x5.isLt z5 (by decide))))))),
    contBit_eq (put_at x0.toNat_lt z0),
    fieldAt_eq ((put_below (by decide)).trans (put_at x1.isLt z1)),
    fieldAt_eq ((put_below (by decide)).trans ((put_below (by decide)).trans (put_at x2.isLt z2))),
    fieldAt_eq ((put_below (by decide)).trans ((put_below (by decide)).trans ((put_below (by decide)).trans (put_at x3.isLt z3)))),
    fieldAt_eq ((put_below (by decide)).trans ((put_below (by decide)).trans ((put_below (by decide)).trans ((put_below (by decide)).trans (put_at x4.isLt z4))))),
    fieldAt_eq ((put_below (by decide)).trans ((put_below (by decide)).trans ((put_below (by decide)).trans ((put_below (by decide)).trans ((put_below (by decide)).trans (put_at x5.isLt z5))))))⟩

theorem fmt30 {x0 : Bool} {x1 : BitVec 5} {x2 : BitVec 5} {x3 : BitVec 5} {x4 : BitVec 1} {K w : Nat}
    (hK : K < 2 ^ 32 ∧ bitsAt 1 31 K = 0 ∧ bitsAt 5 20 K = 0 ∧ bitsAt 5 15 K = 0 ∧ bitsAt 5 5 K = 0 ∧ bitsAt 1 3 K = 0)
    (hw : put 31 x0.toNat (put 20 x1.toNat (put 15 x2.toNat (put 5 x3.toNat (put 3 x4.toNat K)))) = w) :
    w < 2 ^ 32 ∧
    bitsAt 1 4 w = bitsAt 1 4 K ∧
    bitsAt 3 0 w = bitsAt 3 0 K ∧
    bitsAt 5 10 w = bitsAt 5 10 K ∧
    bitsAt 6 25 w = bitsAt 6 25 K ∧
    contBit w = x0 ∧
    fieldAt 5 20 w = x1 ∧
    fieldAt 5 15 w = x2 ∧
    fieldAt 5 5 w = x3 ∧
    fieldAt 1 3 w = x4 := by
  subst hw
  have z4 : bitsAt 1 3 (K) = 0 :=
    hK.2.2.2.2.2
  have z3 : bitsAt 5 5 (put 3 x4.toNat K) = 0 :=
    ((put_above x4.isLt z4 (by decide))).trans hK.2.2.2.2.1
  have z2 : bitsAt 5 15 (put 5 x3.toNat (put 3 x4.toNat K)) = 0 :=
    ((put_above x3.isLt z3 (by decide)).trans ((put_above x4.isLt z4 (by decide)))).trans hK.2.2.2.1
  have z1 : bitsAt 5 20 (put 15 x2.toNat (put 5 x3.toNat (put 3 x4.toNat K))) = 0 :=
    ((put_above x2.isLt z2 (by decide)).trans ((put_above x3.isLt z3 (by decide)).trans ((put_above x4.isLt z4 (by decide))))).trans hK.2.2.1
  have z0 : bitsAt 1 31 (put 20 x1.toNat (put 15 x2.toNat (put 5 x3.toNat (put 3 x4.toNat K)))) = 0 :=
    ((put_above x1.isLt z1 (by decide)).trans ((put_above x2.isLt z2 (by decide)).trans ((put_above x3.isLt z3 (by decide)).trans ((put_above x4.isLt z4 (by decide)))))).trans hK.2.1
  exact ⟨put_lt x0.toNat_lt z0 (put_lt x1.isLt z1 (put_lt x2.isLt z2 (put_lt x3.isLt z3 (put_lt x4.isLt z4 (hK.1) (by decide)) (by decide)) (by decide)) (by decide)) (by decide),
    (put_below (by decide)).trans ((put_below (by decide)).trans ((put_below (by decide)).trans ((put_below (by decide)).trans ((put_above x4.isLt z4 (by decide)))))),
    (put_below (by decide)).trans ((put_below (by decide)).trans ((put_below (by decide)).trans ((put_below (by decide)).trans ((put_below (by decide)))))),
    (put_below (by decide)).trans ((put_below (by decide)).trans ((put_below (by decide)).trans ((put_above x3.isLt z3 (by decide)).trans ((put_above x4.isLt z4 (by decide)))))),
    (put_below (by decide)).trans ((put_above x1.isLt z1 (by decide)).trans ((put_above x2.isLt z2 (by decide)).trans ((put_above x3.isLt z3 (by decide)).trans ((put_above x4.isLt z4 (by decide)))))),
    contBit_eq (put_at x0.toNat_lt z0),
    fieldAt_eq ((put_below (by decide)).trans (put_at x1.isLt z1)),
    fieldAt_eq ((put_below (by decide)).trans ((put_below (by decide)).trans (put_at x2.isLt z2))),
    fieldAt_eq ((put_below (by decide)).trans ((put_below (by decide)).trans ((put_below (by decide)).trans (put_at x3.isLt z3)))),
    fieldAt_eq ((put_below (by decide)).trans ((put_below (by decide)).trans ((put_below (by decide)).trans ((put_below (by decide)).trans (put_at x4.isLt z4)))))⟩

theorem fmt31 {x0 : Bool} {x1 : BitVec 5} {x2 : BitVec 5} {K w : Nat}
    (hK : K < 2 ^ 32 ∧ bitsAt 1 31 K = 0 ∧ bitsAt 5 20 K = 0 ∧ bitsAt 5 15 K = 0)
    (hw : put 31 x0.toNat (put 20 x1.toNat (put 15 x2.toNat K)) = w) :
    w < 2 ^ 32 ∧
    bitsAt 6 25 w = bitsAt 6 25 K ∧
    bitsAt 15 0 w = bitsAt 15 0 K ∧
    contBit w = x0 ∧
    fieldAt 5 20 w = x1 ∧
    fieldAt 5 15 w = x2 := by
  subst hw
  have z2 : bitsAt 5 15 (K) = 0 :=
    hK.2.2.2
  have z1 : bitsAt 5 20 (put 15 x2.toNat K) = 0 :=
    ((put_above x2.isLt z2 (by decide))).trans hK.2.2.1
  have z0 : bitsAt 1 31 (put 20 x1.toNat (put 15 x2.toNat K)) = 0 :=
    ((put_above x1.isLt z1 (by decide)).trans ((put_above x2.isLt z2 (by decide)))).trans hK.2.1
  exact ⟨put_lt x0.toNat_lt z0 (put_lt x1.isLt z1 (put_lt x2.isLt z2 (hK.1) (by decide)) (by decide)) (by decide),
    (put_below (by decide)).trans ((put_above x1.isLt z1 (by decide)).trans ((put_above x2.isLt z2 (by decide)))),
    (put_below (by decide)).trans ((put_below (by decide)).trans ((put_below (by decide)))),
    contBit_eq (put_at x0.toNat_lt z0),
    fieldAt_eq ((put_below (by decide)).trans (put_at x1.isLt z1)),
    fieldAt_eq ((put_below (by decide)).trans ((put_below (by decide)).trans (put_at x2.isLt z2)))⟩

theorem fmt32 {x0 : BitVec 4} {x1 : BitVec 5} {x2 : BitVec 5} {K w : Nat}
    (hK : K < 2 ^ 32 ∧ bitsAt 4 21 K = 0 ∧ bitsAt 5 16 K = 0 ∧ bitsAt 5 11 K = 0)
    (hw : put 21 x0.toNat (put 16 x1.toNat (put 11 x2.toNat K)) = w) :
    w < 2 ^ 32 ∧
    bitsAt 1 31 w = bitsAt 1 31 K ∧
    bitsAt 6 25 w = bitsAt 6 25 K ∧
    bitsAt 11 0 w = bitsAt 11 0 K ∧
    fieldAt 4 21 w = x0 ∧
    fieldAt 5 16 w = x1 ∧
    fieldAt 5 11 w = x2 := by
  subst hw
  have z2 : bitsAt 5 11 (K) = 0 :=
    hK.2.2.2
  have z1 : bitsAt 5 16 (put 11 x2.toNat K) = 0 :=
    ((put_above x2.isLt z2 (by decide))).trans hK.2.2.1
  have z0 : bitsAt 4 21 (put 16 x1.toNat (put 11 x2.toNat K)) = 0 :=
    ((put_above x1.isLt z1 (by decide)).trans ((put_above x2.isLt z2 (by decide)))).trans hK.2.1
  exact ⟨put_lt x0.isLt z0 (put_lt x1.isLt z1 (put_lt x2.isLt z2 (hK.1) (by decide)) (by decide)) (by decide),
    (put_above x0.isLt z0 (by decide)).trans ((put_above x1.isLt z1 (by decide)).trans ((put_above x2.isLt z2 (by decide)))),
    (put_above x0.isLt z0 (by decide)).trans ((put_above x1.isLt z1 (by decide)).trans ((put_above x2.isLt z2 (by decide)))),
    (put_below (by decide)).trans ((put_below (by decide)).trans ((put_below (by decide)))),
    fieldAt_eq (put_at x0.isLt z0),
    fieldAt_eq ((put_below (by decide)).trans (put_at x1.isLt z1)),
    fieldAt_eq ((put_below (by decide)).trans ((put_below (by decide)).trans (put_at x2.isLt z2)))⟩

theorem fmt33 {x0 : BitVec 4} {x1 : BitVec 5} {x2 : BitVec 5} {x3 : BitVec 5} {K w : Nat}
    (hK : K < 2 ^ 32 ∧ bitsAt 4 21 K = 0 ∧ bitsAt 5 16 K = 0 ∧ bitsAt 5 11 K = 0 ∧ bitsAt 5 6 K = 0)
    (hw : put 21 x0.toNat (put 16 x1.toNat (put 11 x2.toNat (put 6 x3.toNat K))) = w) :
    w < 2 ^ 32 ∧
    bitsAt 1 31 w = bitsAt 1 31 K ∧
    bitsAt 6 0 w = bitsAt 6 0 K ∧
    bitsAt 6 25 w = bitsAt 6 25 K ∧
    fieldAt 4 21 w = x0 ∧
    fieldAt 5 16 w = x1 ∧
    fieldAt 5 11 w = x2 ∧
    fieldAt 5 6 w = x3 := by
  subst hw
  have z3 : bitsAt 5 6 (K) = 0 :=
    hK.2.2.2.2
  have z2 : bitsAt 5 11 (put 6 x3.toNat K) = 0 :=
    ((put_above x3.isLt z3 (by decide))).trans hK.2.2.2.1
  have z1 : bitsAt 5 16 (put 11 x2.toNat (put 6 x3.toNat K)) = 0 :=
    ((put_above x2.isLt z2 (by decide)).trans ((put_above x3.isLt z3 (by decide)))).trans hK.2.2.1
  have z0 : bitsAt 4 21 (put 16 x1.toNat (put 11 x2.toNat (put 6 x3.toNat K))) = 0 :=
    ((put_above x1.isLt z1 (by decide)).trans ((put_above x2.isLt z2 (by decide)).trans ((put_above x3.isLt z3 (by decide))))).trans hK.2.1
  exact ⟨put_lt x0.isLt z0 (put_lt x1.isLt z1 (put_lt x2.isLt z2 (put_lt x3.isLt z3 (hK.1) (by decide)) (by decide)) (by decide)) (by decide),
    (put_above x0.isLt z0 (by decide)).trans ((put_above x1.isLt z1 (by decide)).trans ((put_above x2.isLt z2 (by decide)).trans ((put_above x3.isLt z3 (by decide))))),
    (put_below (by decide)).trans ((put_below (by decide)).trans ((put_below (by decide)).trans ((put_below (by decide))))),
    (put_above x0.isLt z0 (by decide)).trans ((put_above x1.isLt z1 (by decide)).trans ((put_above x2.isLt z2 (by decide)).trans ((put_above x3.isLt z3 (by decide))))),
    fieldAt_eq (put_at x0.isLt z0),
    fieldAt_eq ((put_below (by decide)).trans (put_at x1.isLt z1)),
    fieldAt_eq ((put_below (by decide)).trans ((put_below (by decide)).trans (put_at x2.isLt z2))),
    fieldAt_eq ((put_below (by decide)).trans ((put_below (by decide)).trans ((put_below (by decide)).trans (put_at x3.isLt z3))))⟩

theorem fmt34 {x0 : BitVec 4} {K w : Nat}
    (hK : K < 2 ^ 32 ∧ bitsAt 4 21 K = 0)
    (hw : put 21 x0.toNat K = w) :
    w < 2 ^ 32 ∧
    bitsAt 1 31 w = bitsAt 1 31 K ∧
    bitsAt 6 25 w = bitsAt 6 25 K ∧
    bitsAt 21 0 w = bitsAt 21 0 K ∧
    fieldAt 4 21 w = x0 := by
  subst hw
  have z0 : bitsAt 4 21 (K) = 0 :=
    hK.2
  exact ⟨put_lt x0.isLt z0 (hK.1) (by decide),
    (put_above x0.isLt z0 (by decide)),
    (put_above x0.isLt z0 (by decide)),
    (put_below (by decide)),
    fieldAt_eq (put_at x0.isLt z0)⟩

theorem fmt35 {x0 : BitVec 4} {x1 : BitVec 5} {K w : Nat}
    (hK : K < 2 ^ 32 ∧ bitsAt 4 21 K = 0 ∧ bitsAt 5 11 K = 0)
    (hw : put 21 x0.toNat (put 11 x1.toNat K) = w) :
    w < 2 ^ 32 ∧
    bitsAt 1 31 w = bitsAt 1 31 K ∧
    bitsAt 5 16 w = bitsAt 5 16 K ∧
    bitsAt 6 25 w = bitsAt 6 25 K ∧
    bitsAt 11 0 w = bitsAt 11 0 K ∧
    fieldAt 4 21 w = x0 ∧
    fieldAt 5 11 w = x1 := by
  subst hw
  have z1 : bitsAt 5 11 (K) = 0 :=
    hK.2.2
  have z0 : bitsAt 4 21 (put 11 x1.toNat K) = 0 :=
    ((put_above x1.isLt z1 (by decide))).trans hK.2.1
  exact ⟨put_lt x0.isLt z0 (put_lt x1.isLt z1 (hK.1) (by decide)) (by decide),
    (put_above x0.isLt z0 (by decide)).trans ((put_above x1.isLt z1 (by decide))),
    (put_below (by decide)).trans ((put_above x1.isLt z1 (by decide))),
    (put_above x0.isLt z0 (by decide)).trans ((put_above x1.isLt z1 (by decide))),
    (put_below (by decide)).trans ((put_below (by decide))),
    fieldAt_eq (put_at x0.isLt z0),
    fieldAt_eq ((put_below (by decide)).trans (put_at x1.isLt z1))⟩

theorem fmt36 {x0 : BitVec 5} {x1 : BitVec 5} {K w : Nat}
    (hK : K < 2 ^ 32 ∧ bitsAt 5 16 K = 0 ∧ bitsAt 5 11 K = 0)
    (hw : put 16 x0.toNat (put 11 x1.toNat K) = w) :
    w < 2 ^ 32 ∧
    bitsAt 1 31 w = bitsAt 1 31 K ∧
    bitsAt 4 21 w = bitsAt 4 21 K ∧
    bitsAt 6 25 w = bitsAt 6 25 K ∧
    bitsAt 11 0 w = bitsAt 11 0 K ∧
    fieldAt 5 16 w = x0 ∧
    fieldAt 5 11 w = x1 := by
  subst hw
  have z1 : bitsAt 5 11 (K) = 0 :=
    hK.2.2
  have z0 : bitsAt 5 16 (put 11 x1.toNat K) = 0 :=
    ((put_above x1.isLt z1 (by decide))).trans hK.2.1
  exact ⟨put_lt x0.isLt z0 (put_lt x1.isLt z1 (hK.1) (by decide)) (by decide),
    (put_above x0.isLt z0 (by decide)).trans ((put_above x1.isLt z1 (by decide))),
    (put_above x0.isLt z0 (by decide)).trans ((put_above x1.isLt z1 (by decide))),
    (put_above x0.isLt z0 (by decide)).trans ((put_above x1.isLt z1 (by decide))),
    (put_below (by decide)).trans ((put_below (by decide))),
    fieldAt_eq (put_at x0.isLt z0),
    fieldAt_eq ((put_below (by decide)).trans (put_at x1.isLt z1))⟩

theorem fmt37 {x0 : BitVec 5} {x1 : BitVec 5} {x2 : BitVec 5} {K w : Nat}
    (hK : K < 2 ^ 32 ∧ bitsAt 5 16 K = 0 ∧ bitsAt 5 11 K = 0 ∧ bitsAt 5 6 K = 0)
    (hw : put 16 x0.toNat (put 11 x1.toNat (put 6 x2.toNat K)) = w) :
    w < 2 ^ 32 ∧
    bitsAt 1 31 w = bitsAt 1 31 K ∧
    bitsAt 4 21 w = bitsAt 4 21 K ∧
    bitsAt 6 0 w = bitsAt 6 0 K ∧
    bitsAt 6 25 w = bitsAt 6 25 K ∧
    fieldAt 5 16 w = x0 ∧
    fieldAt 5 11 w = x1 ∧
    fieldAt 5 6 w = x2 := by
  subst hw
  have z2 : bitsAt 5 6 (K) = 0 :=
    hK.2.2.2
  have z1 : bitsAt 5 11 (put 6 x2.toNat K) = 0 :=
    ((put_above x2.isLt z2 (by decide))).trans hK.2.2.1
  have z0 : bitsAt 5 16 (put 11 x1.toNat (put 6 x2.toNat K)) = 0 :=
    ((put_above x1.isLt z1 (by decide)).trans ((put_above x2.isLt z2 (by decide)))).trans hK.2.1
  exact ⟨put_lt x0.isLt z0 (put_lt x1.isLt z1 (put_lt x2.isLt z2 (hK.1) (by decide)) (by decide)) (by decide),
    (put_above x0.isLt z0 (by decide)).trans ((put_above x1.isLt z1 (by decide)).trans ((put_above x2.isLt z2 (by decide)))),
    (put_above x0.isLt z0 (by decide)).trans ((put_above x1.isLt z1 (by decide)).trans ((put_above x2.isLt z2 (by decide)))),
    (put_below (by decide)).trans ((put_below (by decide)).trans ((put_below (by decide)))),
    (put_above x0.isLt z0 (by decide)).trans ((put_above x1.isLt z1 (by decide)).trans ((put_above x2.isLt z2 (by decide)))),
    fieldAt_eq (put_at x0.isLt z0),
    fieldAt_eq ((put_below (by decide)).trans (put_at x1.isLt z1)),
    fieldAt_eq ((put_below (by decide)).trans ((put_below (by decide)).trans (put_at x2.isLt z2)))⟩

theorem fmt38 {x0 : BitVec 5} {x1 : BitVec 5} {x2 : BitVec 5} {x3 : BitVec 5} {x4 : BitVec 4} {K w : Nat}
    (hK : K < 2 ^ 32 ∧ bitsAt 5 20 K = 0 ∧ bitsAt 5 15 K = 0 ∧ bitsAt 5 10 K = 0 ∧ bitsAt 5 5 K = 0 ∧ bitsAt 4 0 K = 0)
    (hw : put 20 x0.toNat (put 15 x1.toNat (put 10 x2.toNat (put 5 x3.toNat (put 0 x4.toNat K)))) = w) :
    w < 2 ^ 32 ∧
    bitsAt 1 4 w = bitsAt 1 4 K ∧
    bitsAt 1 31 w = bitsAt 1 31 K ∧
    bitsAt 6 25 w = bitsAt 6 25 K ∧
    fieldAt 5 20 w = x0 ∧
    fieldAt 5 15 w = x1 ∧
    fieldAt 5 10 w = x2 ∧
    fieldAt 5 5 w = x3 ∧
    fieldAt 4 0 w = x4 := by
  subst hw
  have z4 : bitsAt 4 0 (K) = 0 :=
    hK.2.2.2.2.2
  have z3 : bitsAt 5 5 (put 0 x4.toNat K) = 0 :=
    ((put_above x4.isLt z4 (by decide))).trans hK.2.2.2.2.1
  have z2 : bitsAt 5 10 (put 5 x3.toNat (put 0 x4.toNat K)) = 0 :=
    ((put_above x3.isLt z3 (by decide)).trans ((put_above x4.isLt z4 (by decide)))).trans hK.2.2.2.1
  have z1 : bitsAt 5 15 (put 10 x2.toNat (put 5 x3.toNat (put 0 x4.toNat K))) = 0 :=
    ((put_above x2.isLt z2 (by decide)).trans ((put_above x3.isLt z3 (by decide)).trans ((put_above x4.isLt z4 (by decide))))).trans hK.2.2.1
  have z0 : bitsAt 5 20 (put 15 x1.toNat (put 10 x2.toNat (put 5 x3.toNat (put 0 x4.toNat K)))) = 0 :=
    ((put_above x1.isLt z1 (by decide)).trans ((put_above x2.isLt z2 (by decide)).trans ((put_above x3.isLt z3 (by decide)).trans ((put_above x4.isLt z4 (by decide)))))).trans hK.2.1
  exact ⟨put_lt x0.isLt z0 (put_lt x1.isLt z1 (put_lt x2.isLt z2 (put_lt x3.isLt z3 (put_lt x4.isLt z4 (hK.1) (by decide)) (by decide)) (by decide)) (by decide)) (by decide),
    (put_below (by decide)).trans ((put_below (by decide)).trans ((put_below (by decide)).trans ((put_below (by decide)).trans ((put_above x4.isLt z4 (by decide)))))),
    (put_above x0.isLt z0 (by decide)).trans ((put_above x1.isLt z1 (by decide)).trans ((put_above x2.isLt z2 (by decide)).trans ((put_above x3.isLt z3 (by decide)).trans ((put_above x4.isLt z4 (by decide)))))),
    (put_above x0.isLt z0 (by decide)).trans ((put_above x1.isLt z1 (by decide)).trans ((put_above x2.isLt z2 (by decide)).trans ((put_above x3.isLt z3 (by decide)).trans ((put_above x4.isLt z4 (by decide)))))),
    fieldAt_eq (put_at x0.isLt z0),
    fieldAt_eq ((put_below (by decide)).trans (put_at x1.isLt z1)),
    fieldAt_eq ((put_below (by decide)).trans ((put_below (by decide)).trans (put_at x2.isLt z2))),
    fieldAt_eq ((put_below (by decide)).trans ((put_below (by decide)).trans ((put_below (by decide)).trans (put_at x3.isLt z3)))),
    fieldAt_eq ((put_below (by decide)).trans ((put_below (by decide)).trans ((put_below (by decide)).trans ((put_below (by decide)).trans (put_at x4.isLt z4)))))⟩

theorem fmt39 {x0 : BitVec 5} {x1 : BitVec 5} {K w : Nat}
    (hK : K < 2 ^ 32 ∧ bitsAt 5 20 K = 0 ∧ bitsAt 5 10 K = 0)
    (hw : put 20 x0.toNat (put 10 x1.toNat K) = w) :
    w < 2 ^ 32 ∧
    bitsAt 1 31 w = bitsAt 1 31 K ∧
    bitsAt 5 15 w = bitsAt 5 15 K ∧
    bitsAt 6 25 w = bitsAt 6 25 K ∧
    bitsAt 10 0 w = bitsAt 10 0 K ∧
    fieldAt 5 20 w = x0 ∧
    fieldAt 5 10 w = x1 := by
  subst hw
  have z1 : bitsAt 5 10 (K) = 0 :=
    hK.2.2
  have z0 : bitsAt 5 20 (put 10 x1.toNat K) = 0 :=
    ((put_above x1.isLt z1 (by decide))).trans hK.2.1
  exact ⟨put_lt x0.isLt z0 (put_lt x1.isLt z1 (hK.1) (by decide)) (by decide),
    (put_above x0.isLt z0 (by decide)).trans ((put_above x1.isLt z1 (by decide))),
    (put_below (by decide)).trans ((put_above x1.isLt z1 (by decide))),
    (put_above x0.isLt z0 (by decide)).trans ((put_above x1.isLt z1 (by decide))),
    (put_below (by decide)).trans ((put_below (by decide))),
    fieldAt_eq (put_at x0.isLt z0),
    fieldAt_eq ((put_below (by decide)).trans (put_at x1.isLt z1))⟩

theorem add : ∀ x0 x1 x2, Statement (.add x0 x1 x2) := by
  intro x0 x1 x2
  refine of_word rfl (fmt0 (K := 0x02000000) (by decide) rfl).1 (fun hi => ?_)
  generalize hw : put _ _ _ = w
  obtain ⟨_, r0, r1, r2, y0, y1, y2⟩ := fmt0 (K := 0x02000000) (by decide) hw
  rw [major_01 (r1.trans (by decide))]
  have e0 : bitsAt 10 0 w = 0 := r2.trans (by decide)
  have e1 : bitsAt 1 31 w = 0 := r0.trans (by decide)
  simp only [decodeMajor01, e0, e1, y0, y1, y2, and_true, and_false, false_and, reduceIte, Nat.reduceEqDiff, reduceCtorEq]

theorem sub : ∀ x0 x1 x2, Statement (.sub x0 x1 x2) := by
  intro x0 x1 x2
  refine of_word rfl (fmt0 (K := 0x02000001) (by decide) rfl).1 (fun hi => ?_)
  generalize hw : put _ _ _ = w
  obtain ⟨_, r0, r1, r2, y0, y1, y2⟩ := fmt0 (K := 0x02000001) (by decide) hw
  rw [major_01 (r1.trans (by decide))]
  have e0 : bitsAt 10 0 w = 1 := r2.trans (by decide)
  have e1 : bitsAt 1 31 w = 0 := r0.trans (by decide)
  simp only [decodeMajor01, e0, e1, y0, y1, y2, and_true, and_false, false_and, reduceIte, Nat.reduceEqDiff, reduceCtorEq]

theorem and : ∀ x0 x1 x2, Statement (.and x0 x1 x2) := by
  intro x0 x1 x2
  refine of_word rfl (fmt0 (K := 0x02000002) (by decide) rfl).1 (fun hi => ?_)
  generalize hw : put _ _ _ = w
  obtain ⟨_, r0, r1, r2, y0, y1, y2⟩ := fmt0 (K := 0x02000002) (by decide) hw
  rw [major_01 (r1.trans (by decide))]
  have e0 : bitsAt 10 0 w = 2 := r2.trans (by decide)
  have e1 : bitsAt 1 31 w = 0 := r0.trans (by decide)
  simp only [decodeMajor01, e0, e1, y0, y1, y2, and_true, and_false, false_and, reduceIte, Nat.reduceEqDiff, reduceCtorEq]

theorem or : ∀ x0 x1 x2, Statement (.or x0 x1 x2) := by
  intro x0 x1 x2
  refine of_word rfl (fmt0 (K := 0x02000003) (by decide) rfl).1 (fun hi => ?_)
  generalize hw : put _ _ _ = w
  obtain ⟨_, r0, r1, r2, y0, y1, y2⟩ := fmt0 (K := 0x02000003) (by decide) hw
  rw [major_01 (r1.trans (by decide))]
  have e0 : bitsAt 10 0 w = 3 := r2.trans (by decide)
  have e1 : bitsAt 1 31 w = 0 := r0.trans (by decide)
  simp only [decodeMajor01, e0, e1, y0, y1, y2, and_true, and_false, false_and, reduceIte, Nat.reduceEqDiff, reduceCtorEq]

theorem xor : ∀ x0 x1 x2, Statement (.xor x0 x1 x2) := by
  intro x0 x1 x2
  refine of_word rfl (fmt0 (K := 0x02000004) (by decide) rfl).1 (fun hi => ?_)
  generalize hw : put _ _ _ = w
  obtain ⟨_, r0, r1, r2, y0, y1, y2⟩ := fmt0 (K := 0x02000004) (by decide) hw
  rw [major_01 (r1.trans (by decide))]
  have e0 : bitsAt 10 0 w = 4 := r2.trans (by decide)
  have e1 : bitsAt 1 31 w = 0 := r0.trans (by decide)
  simp only [decodeMajor01, e0, e1, y0, y1, y2, and_true, and_false, false_and, reduceIte, Nat.reduceEqDiff, reduceCtorEq]

theorem andn : ∀ x0 x1 x2, Statement (.andn x0 x1 x2) := by
  intro x0 x1 x2
  refine of_word rfl (fmt0 (K := 0x02000005) (by decide) rfl).1 (fun hi => ?_)
  generalize hw : put _ _ _ = w
  obtain ⟨_, r0, r1, r2, y0, y1, y2⟩ := fmt0 (K := 0x02000005) (by decide) hw
  rw [major_01 (r1.trans (by decide))]
  have e0 : bitsAt 10 0 w = 5 := r2.trans (by decide)
  have e1 : bitsAt 1 31 w = 0 := r0.trans (by decide)
  simp only [decodeMajor01, e0, e1, y0, y1, y2, and_true, and_false, false_and, reduceIte, Nat.reduceEqDiff, reduceCtorEq]

theorem sll : ∀ x0 x1 x2, Statement (.sll x0 x1 x2) := by
  intro x0 x1 x2
  refine of_word rfl (fmt0 (K := 0x02000006) (by decide) rfl).1 (fun hi => ?_)
  generalize hw : put _ _ _ = w
  obtain ⟨_, r0, r1, r2, y0, y1, y2⟩ := fmt0 (K := 0x02000006) (by decide) hw
  rw [major_01 (r1.trans (by decide))]
  have e0 : bitsAt 10 0 w = 6 := r2.trans (by decide)
  have e1 : bitsAt 1 31 w = 0 := r0.trans (by decide)
  simp only [decodeMajor01, e0, e1, y0, y1, y2, and_true, and_false, false_and, reduceIte, Nat.reduceEqDiff, reduceCtorEq]

theorem srl : ∀ x0 x1 x2, Statement (.srl x0 x1 x2) := by
  intro x0 x1 x2
  refine of_word rfl (fmt0 (K := 0x02000007) (by decide) rfl).1 (fun hi => ?_)
  generalize hw : put _ _ _ = w
  obtain ⟨_, r0, r1, r2, y0, y1, y2⟩ := fmt0 (K := 0x02000007) (by decide) hw
  rw [major_01 (r1.trans (by decide))]
  have e0 : bitsAt 10 0 w = 7 := r2.trans (by decide)
  have e1 : bitsAt 1 31 w = 0 := r0.trans (by decide)
  simp only [decodeMajor01, e0, e1, y0, y1, y2, and_true, and_false, false_and, reduceIte, Nat.reduceEqDiff, reduceCtorEq]

theorem sra : ∀ x0 x1 x2, Statement (.sra x0 x1 x2) := by
  intro x0 x1 x2
  refine of_word rfl (fmt0 (K := 0x02000008) (by decide) rfl).1 (fun hi => ?_)
  generalize hw : put _ _ _ = w
  obtain ⟨_, r0, r1, r2, y0, y1, y2⟩ := fmt0 (K := 0x02000008) (by decide) hw
  rw [major_01 (r1.trans (by decide))]
  have e0 : bitsAt 10 0 w = 8 := r2.trans (by decide)
  have e1 : bitsAt 1 31 w = 0 := r0.trans (by decide)
  simp only [decodeMajor01, e0, e1, y0, y1, y2, and_true, and_false, false_and, reduceIte, Nat.reduceEqDiff, reduceCtorEq]

theorem slt : ∀ x0 x1 x2, Statement (.slt x0 x1 x2) := by
  intro x0 x1 x2
  refine of_word rfl (fmt0 (K := 0x02000009) (by decide) rfl).1 (fun hi => ?_)
  generalize hw : put _ _ _ = w
  obtain ⟨_, r0, r1, r2, y0, y1, y2⟩ := fmt0 (K := 0x02000009) (by decide) hw
  rw [major_01 (r1.trans (by decide))]
  have e0 : bitsAt 10 0 w = 9 := r2.trans (by decide)
  have e1 : bitsAt 1 31 w = 0 := r0.trans (by decide)
  simp only [decodeMajor01, e0, e1, y0, y1, y2, and_true, and_false, false_and, reduceIte, Nat.reduceEqDiff, reduceCtorEq]

theorem sltn : ∀ x0 x1 x2, Statement (.sltn x0 x1 x2) := by
  intro x0 x1 x2
  refine of_word rfl (fmt0 (K := 0x0200000a) (by decide) rfl).1 (fun hi => ?_)
  generalize hw : put _ _ _ = w
  obtain ⟨_, r0, r1, r2, y0, y1, y2⟩ := fmt0 (K := 0x0200000a) (by decide) hw
  rw [major_01 (r1.trans (by decide))]
  have e0 : bitsAt 10 0 w = 10 := r2.trans (by decide)
  have e1 : bitsAt 1 31 w = 0 := r0.trans (by decide)
  simp only [decodeMajor01, e0, e1, y0, y1, y2, and_true, and_false, false_and, reduceIte, Nat.reduceEqDiff, reduceCtorEq]

theorem mul : ∀ x0 x1 x2, Statement (.mul x0 x1 x2) := by
  intro x0 x1 x2
  refine of_word rfl (fmt0 (K := 0x0200000b) (by decide) rfl).1 (fun hi => ?_)
  generalize hw : put _ _ _ = w
  obtain ⟨_, r0, r1, r2, y0, y1, y2⟩ := fmt0 (K := 0x0200000b) (by decide) hw
  rw [major_01 (r1.trans (by decide))]
  have e0 : bitsAt 10 0 w = 11 := r2.trans (by decide)
  have e1 : bitsAt 1 31 w = 0 := r0.trans (by decide)
  simp only [decodeMajor01, e0, e1, y0, y1, y2, and_true, and_false, false_and, reduceIte, Nat.reduceEqDiff, reduceCtorEq]

theorem mulh : ∀ x0 x1 x2, Statement (.mulh x0 x1 x2) := by
  intro x0 x1 x2
  refine of_word rfl (fmt0 (K := 0x0200000c) (by decide) rfl).1 (fun hi => ?_)
  generalize hw : put _ _ _ = w
  obtain ⟨_, r0, r1, r2, y0, y1, y2⟩ := fmt0 (K := 0x0200000c) (by decide) hw
  rw [major_01 (r1.trans (by decide))]
  have e0 : bitsAt 10 0 w = 12 := r2.trans (by decide)
  have e1 : bitsAt 1 31 w = 0 := r0.trans (by decide)
  simp only [decodeMajor01, e0, e1, y0, y1, y2, and_true, and_false, false_and, reduceIte, Nat.reduceEqDiff, reduceCtorEq]

theorem div : ∀ x0 x1 x2, Statement (.div x0 x1 x2) := by
  intro x0 x1 x2
  refine of_word rfl (fmt0 (K := 0x0200000d) (by decide) rfl).1 (fun hi => ?_)
  generalize hw : put _ _ _ = w
  obtain ⟨_, r0, r1, r2, y0, y1, y2⟩ := fmt0 (K := 0x0200000d) (by decide) hw
  rw [major_01 (r1.trans (by decide))]
  have e0 : bitsAt 10 0 w = 13 := r2.trans (by decide)
  have e1 : bitsAt 1 31 w = 0 := r0.trans (by decide)
  simp only [decodeMajor01, e0, e1, y0, y1, y2, and_true, and_false, false_and, reduceIte, Nat.reduceEqDiff, reduceCtorEq]

theorem divn : ∀ x0 x1 x2, Statement (.divn x0 x1 x2) := by
  intro x0 x1 x2
  refine of_word rfl (fmt0 (K := 0x0200000e) (by decide) rfl).1 (fun hi => ?_)
  generalize hw : put _ _ _ = w
  obtain ⟨_, r0, r1, r2, y0, y1, y2⟩ := fmt0 (K := 0x0200000e) (by decide) hw
  rw [major_01 (r1.trans (by decide))]
  have e0 : bitsAt 10 0 w = 14 := r2.trans (by decide)
  have e1 : bitsAt 1 31 w = 0 := r0.trans (by decide)
  simp only [decodeMajor01, e0, e1, y0, y1, y2, and_true, and_false, false_and, reduceIte, Nat.reduceEqDiff, reduceCtorEq]

theorem rem : ∀ x0 x1 x2, Statement (.rem x0 x1 x2) := by
  intro x0 x1 x2
  refine of_word rfl (fmt0 (K := 0x0200000f) (by decide) rfl).1 (fun hi => ?_)
  generalize hw : put _ _ _ = w
  obtain ⟨_, r0, r1, r2, y0, y1, y2⟩ := fmt0 (K := 0x0200000f) (by decide) hw
  rw [major_01 (r1.trans (by decide))]
  have e0 : bitsAt 10 0 w = 15 := r2.trans (by decide)
  have e1 : bitsAt 1 31 w = 0 := r0.trans (by decide)
  simp only [decodeMajor01, e0, e1, y0, y1, y2, and_true, and_false, false_and, reduceIte, Nat.reduceEqDiff, reduceCtorEq]

theorem remn : ∀ x0 x1 x2, Statement (.remn x0 x1 x2) := by
  intro x0 x1 x2
  refine of_word rfl (fmt0 (K := 0x02000010) (by decide) rfl).1 (fun hi => ?_)
  generalize hw : put _ _ _ = w
  obtain ⟨_, r0, r1, r2, y0, y1, y2⟩ := fmt0 (K := 0x02000010) (by decide) hw
  rw [major_01 (r1.trans (by decide))]
  have e0 : bitsAt 10 0 w = 16 := r2.trans (by decide)
  have e1 : bitsAt 1 31 w = 0 := r0.trans (by decide)
  simp only [decodeMajor01, e0, e1, y0, y1, y2, and_true, and_false, false_and, reduceIte, Nat.reduceEqDiff, reduceCtorEq]

theorem clz : ∀ x0 x1, Statement (.clz x0 x1) := by
  intro x0 x1
  refine of_word rfl (fmt1 (K := 0x02000011) (by decide) rfl).1 (fun hi => ?_)
  generalize hw : put _ _ _ = w
  obtain ⟨_, r0, r1, r2, y0, y1⟩ := fmt1 (K := 0x02000011) (by decide) hw
  rw [major_01 (r1.trans (by decide))]
  have e0 : bitsAt 15 0 w = 17 := r2.trans (by decide)
  have e1 : bitsAt 1 31 w = 0 := r0.trans (by decide)
  have n0 : ¬ bitsAt 10 0 w = 0 := fun h => absurd (h.symm.trans (bits_inside 0 10 e0 (by decide))) (by decide)
  have n1 : ¬ bitsAt 10 0 w = 1 := fun h => absurd (h.symm.trans (bits_inside 0 10 e0 (by decide))) (by decide)
  have n2 : ¬ bitsAt 10 0 w = 2 := fun h => absurd (h.symm.trans (bits_inside 0 10 e0 (by decide))) (by decide)
  have n3 : ¬ bitsAt 10 0 w = 3 := fun h => absurd (h.symm.trans (bits_inside 0 10 e0 (by decide))) (by decide)
  have n4 : ¬ bitsAt 10 0 w = 4 := fun h => absurd (h.symm.trans (bits_inside 0 10 e0 (by decide))) (by decide)
  have n5 : ¬ bitsAt 10 0 w = 5 := fun h => absurd (h.symm.trans (bits_inside 0 10 e0 (by decide))) (by decide)
  have n6 : ¬ bitsAt 10 0 w = 6 := fun h => absurd (h.symm.trans (bits_inside 0 10 e0 (by decide))) (by decide)
  have n7 : ¬ bitsAt 10 0 w = 7 := fun h => absurd (h.symm.trans (bits_inside 0 10 e0 (by decide))) (by decide)
  have n8 : ¬ bitsAt 10 0 w = 8 := fun h => absurd (h.symm.trans (bits_inside 0 10 e0 (by decide))) (by decide)
  have n9 : ¬ bitsAt 10 0 w = 9 := fun h => absurd (h.symm.trans (bits_inside 0 10 e0 (by decide))) (by decide)
  have n10 : ¬ bitsAt 10 0 w = 10 := fun h => absurd (h.symm.trans (bits_inside 0 10 e0 (by decide))) (by decide)
  have n11 : ¬ bitsAt 10 0 w = 11 := fun h => absurd (h.symm.trans (bits_inside 0 10 e0 (by decide))) (by decide)
  have n12 : ¬ bitsAt 10 0 w = 12 := fun h => absurd (h.symm.trans (bits_inside 0 10 e0 (by decide))) (by decide)
  have n13 : ¬ bitsAt 10 0 w = 13 := fun h => absurd (h.symm.trans (bits_inside 0 10 e0 (by decide))) (by decide)
  have n14 : ¬ bitsAt 10 0 w = 14 := fun h => absurd (h.symm.trans (bits_inside 0 10 e0 (by decide))) (by decide)
  have n15 : ¬ bitsAt 10 0 w = 15 := fun h => absurd (h.symm.trans (bits_inside 0 10 e0 (by decide))) (by decide)
  have n16 : ¬ bitsAt 10 0 w = 16 := fun h => absurd (h.symm.trans (bits_inside 0 10 e0 (by decide))) (by decide)
  simp only [decodeMajor01, e0, e1, n0, n1, n2, n3, n4, n5, n6, n7, n8, n9, n10, n11, n12, n13, n14, n15, n16, y0, y1, and_true, and_false, false_and, reduceIte, Nat.reduceEqDiff, reduceCtorEq]

theorem popc : ∀ x0 x1, Statement (.popc x0 x1) := by
  intro x0 x1
  refine of_word rfl (fmt1 (K := 0x02000012) (by decide) rfl).1 (fun hi => ?_)
  generalize hw : put _ _ _ = w
  obtain ⟨_, r0, r1, r2, y0, y1⟩ := fmt1 (K := 0x02000012) (by decide) hw
  rw [major_01 (r1.trans (by decide))]
  have e0 : bitsAt 15 0 w = 18 := r2.trans (by decide)
  have e1 : bitsAt 1 31 w = 0 := r0.trans (by decide)
  have n0 : ¬ bitsAt 10 0 w = 0 := fun h => absurd (h.symm.trans (bits_inside 0 10 e0 (by decide))) (by decide)
  have n1 : ¬ bitsAt 10 0 w = 1 := fun h => absurd (h.symm.trans (bits_inside 0 10 e0 (by decide))) (by decide)
  have n2 : ¬ bitsAt 10 0 w = 2 := fun h => absurd (h.symm.trans (bits_inside 0 10 e0 (by decide))) (by decide)
  have n3 : ¬ bitsAt 10 0 w = 3 := fun h => absurd (h.symm.trans (bits_inside 0 10 e0 (by decide))) (by decide)
  have n4 : ¬ bitsAt 10 0 w = 4 := fun h => absurd (h.symm.trans (bits_inside 0 10 e0 (by decide))) (by decide)
  have n5 : ¬ bitsAt 10 0 w = 5 := fun h => absurd (h.symm.trans (bits_inside 0 10 e0 (by decide))) (by decide)
  have n6 : ¬ bitsAt 10 0 w = 6 := fun h => absurd (h.symm.trans (bits_inside 0 10 e0 (by decide))) (by decide)
  have n7 : ¬ bitsAt 10 0 w = 7 := fun h => absurd (h.symm.trans (bits_inside 0 10 e0 (by decide))) (by decide)
  have n8 : ¬ bitsAt 10 0 w = 8 := fun h => absurd (h.symm.trans (bits_inside 0 10 e0 (by decide))) (by decide)
  have n9 : ¬ bitsAt 10 0 w = 9 := fun h => absurd (h.symm.trans (bits_inside 0 10 e0 (by decide))) (by decide)
  have n10 : ¬ bitsAt 10 0 w = 10 := fun h => absurd (h.symm.trans (bits_inside 0 10 e0 (by decide))) (by decide)
  have n11 : ¬ bitsAt 10 0 w = 11 := fun h => absurd (h.symm.trans (bits_inside 0 10 e0 (by decide))) (by decide)
  have n12 : ¬ bitsAt 10 0 w = 12 := fun h => absurd (h.symm.trans (bits_inside 0 10 e0 (by decide))) (by decide)
  have n13 : ¬ bitsAt 10 0 w = 13 := fun h => absurd (h.symm.trans (bits_inside 0 10 e0 (by decide))) (by decide)
  have n14 : ¬ bitsAt 10 0 w = 14 := fun h => absurd (h.symm.trans (bits_inside 0 10 e0 (by decide))) (by decide)
  have n15 : ¬ bitsAt 10 0 w = 15 := fun h => absurd (h.symm.trans (bits_inside 0 10 e0 (by decide))) (by decide)
  have n16 : ¬ bitsAt 10 0 w = 16 := fun h => absurd (h.symm.trans (bits_inside 0 10 e0 (by decide))) (by decide)
  simp only [decodeMajor01, e0, e1, n0, n1, n2, n3, n4, n5, n6, n7, n8, n9, n10, n11, n12, n13, n14, n15, n16, y0, y1, and_true, and_false, false_and, reduceIte, Nat.reduceEqDiff, reduceCtorEq]

theorem brev : ∀ x0 x1, Statement (.brev x0 x1) := by
  intro x0 x1
  refine of_word rfl (fmt1 (K := 0x02000013) (by decide) rfl).1 (fun hi => ?_)
  generalize hw : put _ _ _ = w
  obtain ⟨_, r0, r1, r2, y0, y1⟩ := fmt1 (K := 0x02000013) (by decide) hw
  rw [major_01 (r1.trans (by decide))]
  have e0 : bitsAt 15 0 w = 19 := r2.trans (by decide)
  have e1 : bitsAt 1 31 w = 0 := r0.trans (by decide)
  have n0 : ¬ bitsAt 10 0 w = 0 := fun h => absurd (h.symm.trans (bits_inside 0 10 e0 (by decide))) (by decide)
  have n1 : ¬ bitsAt 10 0 w = 1 := fun h => absurd (h.symm.trans (bits_inside 0 10 e0 (by decide))) (by decide)
  have n2 : ¬ bitsAt 10 0 w = 2 := fun h => absurd (h.symm.trans (bits_inside 0 10 e0 (by decide))) (by decide)
  have n3 : ¬ bitsAt 10 0 w = 3 := fun h => absurd (h.symm.trans (bits_inside 0 10 e0 (by decide))) (by decide)
  have n4 : ¬ bitsAt 10 0 w = 4 := fun h => absurd (h.symm.trans (bits_inside 0 10 e0 (by decide))) (by decide)
  have n5 : ¬ bitsAt 10 0 w = 5 := fun h => absurd (h.symm.trans (bits_inside 0 10 e0 (by decide))) (by decide)
  have n6 : ¬ bitsAt 10 0 w = 6 := fun h => absurd (h.symm.trans (bits_inside 0 10 e0 (by decide))) (by decide)
  have n7 : ¬ bitsAt 10 0 w = 7 := fun h => absurd (h.symm.trans (bits_inside 0 10 e0 (by decide))) (by decide)
  have n8 : ¬ bitsAt 10 0 w = 8 := fun h => absurd (h.symm.trans (bits_inside 0 10 e0 (by decide))) (by decide)
  have n9 : ¬ bitsAt 10 0 w = 9 := fun h => absurd (h.symm.trans (bits_inside 0 10 e0 (by decide))) (by decide)
  have n10 : ¬ bitsAt 10 0 w = 10 := fun h => absurd (h.symm.trans (bits_inside 0 10 e0 (by decide))) (by decide)
  have n11 : ¬ bitsAt 10 0 w = 11 := fun h => absurd (h.symm.trans (bits_inside 0 10 e0 (by decide))) (by decide)
  have n12 : ¬ bitsAt 10 0 w = 12 := fun h => absurd (h.symm.trans (bits_inside 0 10 e0 (by decide))) (by decide)
  have n13 : ¬ bitsAt 10 0 w = 13 := fun h => absurd (h.symm.trans (bits_inside 0 10 e0 (by decide))) (by decide)
  have n14 : ¬ bitsAt 10 0 w = 14 := fun h => absurd (h.symm.trans (bits_inside 0 10 e0 (by decide))) (by decide)
  have n15 : ¬ bitsAt 10 0 w = 15 := fun h => absurd (h.symm.trans (bits_inside 0 10 e0 (by decide))) (by decide)
  have n16 : ¬ bitsAt 10 0 w = 16 := fun h => absurd (h.symm.trans (bits_inside 0 10 e0 (by decide))) (by decide)
  simp only [decodeMajor01, e0, e1, n0, n1, n2, n3, n4, n5, n6, n7, n8, n9, n10, n11, n12, n13, n14, n15, n16, y0, y1, and_true, and_false, false_and, reduceIte, Nat.reduceEqDiff, reduceCtorEq]

theorem addi : ∀ x0 x1 x2, Statement (.addi x0 x1 x2) := by
  intro x0 x1 x2
  refine of_word rfl (fmt2 (K := 0x04000000) (by decide) rfl).1 (fun hi => ?_)
  generalize hw : put _ _ _ = w
  obtain ⟨_, r0, r1, r2, y0, y1, y2⟩ := fmt2 (K := 0x04000000) (by decide) hw
  rw [major_02 (r2.trans (by decide))]
  have e0 : bitsAt 3 12 w = 0 := r1.trans (by decide)
  have e1 : bitsAt 1 31 w = 0 := r0.trans (by decide)
  simp only [decodeMajor02, e0, e1, y0, y1, y2, and_true, and_false, false_and, reduceIte, Nat.reduceEqDiff, reduceCtorEq]

theorem andi : ∀ x0 x1 x2, Statement (.andi x0 x1 x2) := by
  intro x0 x1 x2
  refine of_word rfl (fmt2 (K := 0x04001000) (by decide) rfl).1 (fun hi => ?_)
  generalize hw : put _ _ _ = w
  obtain ⟨_, r0, r1, r2, y0, y1, y2⟩ := fmt2 (K := 0x04001000) (by decide) hw
  rw [major_02 (r2.trans (by decide))]
  have e0 : bitsAt 3 12 w = 1 := r1.trans (by decide)
  have e1 : bitsAt 1 31 w = 0 := r0.trans (by decide)
  simp only [decodeMajor02, e0, e1, y0, y1, y2, and_true, and_false, false_and, reduceIte, Nat.reduceEqDiff, reduceCtorEq]

theorem ori : ∀ x0 x1 x2, Statement (.ori x0 x1 x2) := by
  intro x0 x1 x2
  refine of_word rfl (fmt2 (K := 0x04002000) (by decide) rfl).1 (fun hi => ?_)
  generalize hw : put _ _ _ = w
  obtain ⟨_, r0, r1, r2, y0, y1, y2⟩ := fmt2 (K := 0x04002000) (by decide) hw
  rw [major_02 (r2.trans (by decide))]
  have e0 : bitsAt 3 12 w = 2 := r1.trans (by decide)
  have e1 : bitsAt 1 31 w = 0 := r0.trans (by decide)
  simp only [decodeMajor02, e0, e1, y0, y1, y2, and_true, and_false, false_and, reduceIte, Nat.reduceEqDiff, reduceCtorEq]

theorem xori : ∀ x0 x1 x2, Statement (.xori x0 x1 x2) := by
  intro x0 x1 x2
  refine of_word rfl (fmt2 (K := 0x04003000) (by decide) rfl).1 (fun hi => ?_)
  generalize hw : put _ _ _ = w
  obtain ⟨_, r0, r1, r2, y0, y1, y2⟩ := fmt2 (K := 0x04003000) (by decide) hw
  rw [major_02 (r2.trans (by decide))]
  have e0 : bitsAt 3 12 w = 3 := r1.trans (by decide)
  have e1 : bitsAt 1 31 w = 0 := r0.trans (by decide)
  simp only [decodeMajor02, e0, e1, y0, y1, y2, and_true, and_false, false_and, reduceIte, Nat.reduceEqDiff, reduceCtorEq]

theorem slli : ∀ x0 x1 x2, Statement (.slli x0 x1 x2) := by
  intro x0 x1 x2
  refine of_word rfl (fmt3 (K := 0x04004000) (by decide) rfl).1 (fun hi => ?_)
  generalize hw : put _ _ _ = w
  obtain ⟨_, r0, r1, r2, y0, y1, y2⟩ := fmt3 (K := 0x04004000) (by decide) hw
  rw [major_02 (r1.trans (by decide))]
  have e0 : bitsAt 9 6 w = 256 := r2.trans (by decide)
  have e1 : bitsAt 1 31 w = 0 := r0.trans (by decide)
  have n0 : ¬ bitsAt 3 12 w = 0 := fun h => absurd (h.symm.trans (bits_inside 6 3 e0 (by decide))) (by decide)
  have n1 : ¬ bitsAt 3 12 w = 1 := fun h => absurd (h.symm.trans (bits_inside 6 3 e0 (by decide))) (by decide)
  have n2 : ¬ bitsAt 3 12 w = 2 := fun h => absurd (h.symm.trans (bits_inside 6 3 e0 (by decide))) (by decide)
  have n3 : ¬ bitsAt 3 12 w = 3 := fun h => absurd (h.symm.trans (bits_inside 6 3 e0 (by decide))) (by decide)
  simp only [decodeMajor02, e0, e1, n0, n1, n2, n3, y0, y1, y2, and_true, and_false, false_and, reduceIte, Nat.reduceEqDiff, reduceCtorEq]

theorem srli : ∀ x0 x1 x2, Statement (.srli x0 x1 x2) := by
  intro x0 x1 x2
  refine of_word rfl (fmt3 (K := 0x04005000) (by decide) rfl).1 (fun hi => ?_)
  generalize hw : put _ _ _ = w
  obtain ⟨_, r0, r1, r2, y0, y1, y2⟩ := fmt3 (K := 0x04005000) (by decide) hw
  rw [major_02 (r1.trans (by decide))]
  have e0 : bitsAt 9 6 w = 320 := r2.trans (by decide)
  have e1 : bitsAt 1 31 w = 0 := r0.trans (by decide)
  have n0 : ¬ bitsAt 3 12 w = 0 := fun h => absurd (h.symm.trans (bits_inside 6 3 e0 (by decide))) (by decide)
  have n1 : ¬ bitsAt 3 12 w = 1 := fun h => absurd (h.symm.trans (bits_inside 6 3 e0 (by decide))) (by decide)
  have n2 : ¬ bitsAt 3 12 w = 2 := fun h => absurd (h.symm.trans (bits_inside 6 3 e0 (by decide))) (by decide)
  have n3 : ¬ bitsAt 3 12 w = 3 := fun h => absurd (h.symm.trans (bits_inside 6 3 e0 (by decide))) (by decide)
  simp only [decodeMajor02, e0, e1, n0, n1, n2, n3, y0, y1, y2, and_true, and_false, false_and, reduceIte, Nat.reduceEqDiff, reduceCtorEq]

theorem srai : ∀ x0 x1 x2, Statement (.srai x0 x1 x2) := by
  intro x0 x1 x2
  refine of_word rfl (fmt3 (K := 0x04006000) (by decide) rfl).1 (fun hi => ?_)
  generalize hw : put _ _ _ = w
  obtain ⟨_, r0, r1, r2, y0, y1, y2⟩ := fmt3 (K := 0x04006000) (by decide) hw
  rw [major_02 (r1.trans (by decide))]
  have e0 : bitsAt 9 6 w = 384 := r2.trans (by decide)
  have e1 : bitsAt 1 31 w = 0 := r0.trans (by decide)
  have n0 : ¬ bitsAt 3 12 w = 0 := fun h => absurd (h.symm.trans (bits_inside 6 3 e0 (by decide))) (by decide)
  have n1 : ¬ bitsAt 3 12 w = 1 := fun h => absurd (h.symm.trans (bits_inside 6 3 e0 (by decide))) (by decide)
  have n2 : ¬ bitsAt 3 12 w = 2 := fun h => absurd (h.symm.trans (bits_inside 6 3 e0 (by decide))) (by decide)
  have n3 : ¬ bitsAt 3 12 w = 3 := fun h => absurd (h.symm.trans (bits_inside 6 3 e0 (by decide))) (by decide)
  simp only [decodeMajor02, e0, e1, n0, n1, n2, n3, y0, y1, y2, and_true, and_false, false_and, reduceIte, Nat.reduceEqDiff, reduceCtorEq]

theorem slti : ∀ x0 x1 x2, Statement (.slti x0 x1 x2) := by
  intro x0 x1 x2
  refine of_word rfl (fmt2 (K := 0x04007000) (by decide) rfl).1 (fun hi => ?_)
  generalize hw : put _ _ _ = w
  obtain ⟨_, r0, r1, r2, y0, y1, y2⟩ := fmt2 (K := 0x04007000) (by decide) hw
  rw [major_02 (r2.trans (by decide))]
  have e0 : bitsAt 3 12 w = 7 := r1.trans (by decide)
  have e1 : bitsAt 1 31 w = 0 := r0.trans (by decide)
  have n0 : ¬ bitsAt 9 6 w = 256 := fun h => absurd (e0.symm.trans (bits_inside 6 3 h (by decide))) (by decide)
  have n1 : ¬ bitsAt 9 6 w = 320 := fun h => absurd (e0.symm.trans (bits_inside 6 3 h (by decide))) (by decide)
  have n2 : ¬ bitsAt 9 6 w = 384 := fun h => absurd (e0.symm.trans (bits_inside 6 3 h (by decide))) (by decide)
  simp only [decodeMajor02, e0, e1, n0, n1, n2, y0, y1, y2, and_true, and_false, false_and, reduceIte, Nat.reduceEqDiff, reduceCtorEq]

theorem lui : ∀ x0 x1, Statement (.lui x0 x1) := by
  intro x0 x1
  refine of_word rfl (fmt4 (K := 0x06000000) (by decide) rfl).1 (fun hi => ?_)
  generalize hw : put _ _ _ = w
  obtain ⟨_, r0, r1, y0, y1⟩ := fmt4 (K := 0x06000000) (by decide) hw
  rw [major_03 (r1.trans (by decide))]
  have e0 : bitsAt 1 31 w = 0 := r0.trans (by decide)
  simp only [decodeMajor03, e0, y0, y1, and_true, and_false, false_and, reduceIte, Nat.reduceEqDiff, reduceCtorEq]

theorem addpc : ∀ x0 x1, Statement (.addpc x0 x1) := by
  intro x0 x1
  refine of_word rfl (fmt4 (K := 0x08000000) (by decide) rfl).1 (fun hi => ?_)
  generalize hw : put _ _ _ = w
  obtain ⟨_, r0, r1, y0, y1⟩ := fmt4 (K := 0x08000000) (by decide) hw
  rw [major_04 (r1.trans (by decide))]
  have e0 : bitsAt 1 31 w = 0 := r0.trans (by decide)
  simp only [decodeMajor04, e0, y0, y1, and_true, and_false, false_and, reduceIte, Nat.reduceEqDiff, reduceCtorEq]

theorem lb : ∀ x0 x1 x2, Statement (.lb x0 x1 x2) := by
  intro x0 x1 x2
  refine of_word rfl (fmt2 (K := 0x10000000) (by decide) rfl).1 (fun hi => ?_)
  generalize hw : put _ _ _ = w
  obtain ⟨_, r0, r1, r2, y0, y1, y2⟩ := fmt2 (K := 0x10000000) (by decide) hw
  rw [major_08 (r2.trans (by decide))]
  have e0 : bitsAt 3 12 w = 0 := r1.trans (by decide)
  have e1 : bitsAt 1 31 w = 0 := r0.trans (by decide)
  simp only [decodeMajor08, e0, e1, y0, y1, y2, and_true, and_false, false_and, reduceIte, Nat.reduceEqDiff, reduceCtorEq]

theorem lh : ∀ x0 x1 x2, Statement (.lh x0 x1 x2) := by
  intro x0 x1 x2
  refine of_word rfl (fmt2 (K := 0x10001000) (by decide) rfl).1 (fun hi => ?_)
  generalize hw : put _ _ _ = w
  obtain ⟨_, r0, r1, r2, y0, y1, y2⟩ := fmt2 (K := 0x10001000) (by decide) hw
  rw [major_08 (r2.trans (by decide))]
  have e0 : bitsAt 3 12 w = 1 := r1.trans (by decide)
  have e1 : bitsAt 1 31 w = 0 := r0.trans (by decide)
  simp only [decodeMajor08, e0, e1, y0, y1, y2, and_true, and_false, false_and, reduceIte, Nat.reduceEqDiff, reduceCtorEq]

theorem lw : ∀ x0 x1 x2, Statement (.lw x0 x1 x2) := by
  intro x0 x1 x2
  refine of_word rfl (fmt2 (K := 0x10002000) (by decide) rfl).1 (fun hi => ?_)
  generalize hw : put _ _ _ = w
  obtain ⟨_, r0, r1, r2, y0, y1, y2⟩ := fmt2 (K := 0x10002000) (by decide) hw
  rw [major_08 (r2.trans (by decide))]
  have e0 : bitsAt 3 12 w = 2 := r1.trans (by decide)
  have e1 : bitsAt 1 31 w = 0 := r0.trans (by decide)
  simp only [decodeMajor08, e0, e1, y0, y1, y2, and_true, and_false, false_and, reduceIte, Nat.reduceEqDiff, reduceCtorEq]

theorem ld : ∀ x0 x1 x2, Statement (.ld x0 x1 x2) := by
  intro x0 x1 x2
  refine of_word rfl (fmt2 (K := 0x10003000) (by decide) rfl).1 (fun hi => ?_)
  generalize hw : put _ _ _ = w
  obtain ⟨_, r0, r1, r2, y0, y1, y2⟩ := fmt2 (K := 0x10003000) (by decide) hw
  rw [major_08 (r2.trans (by decide))]
  have e0 : bitsAt 3 12 w = 3 := r1.trans (by decide)
  have e1 : bitsAt 1 31 w = 0 := r0.trans (by decide)
  simp only [decodeMajor08, e0, e1, y0, y1, y2, and_true, and_false, false_and, reduceIte, Nat.reduceEqDiff, reduceCtorEq]

theorem lbn : ∀ x0 x1 x2, Statement (.lbn x0 x1 x2) := by
  intro x0 x1 x2
  refine of_word rfl (fmt2 (K := 0x10004000) (by decide) rfl).1 (fun hi => ?_)
  generalize hw : put _ _ _ = w
  obtain ⟨_, r0, r1, r2, y0, y1, y2⟩ := fmt2 (K := 0x10004000) (by decide) hw
  rw [major_08 (r2.trans (by decide))]
  have e0 : bitsAt 3 12 w = 4 := r1.trans (by decide)
  have e1 : bitsAt 1 31 w = 0 := r0.trans (by decide)
  simp only [decodeMajor08, e0, e1, y0, y1, y2, and_true, and_false, false_and, reduceIte, Nat.reduceEqDiff, reduceCtorEq]

theorem lhn : ∀ x0 x1 x2, Statement (.lhn x0 x1 x2) := by
  intro x0 x1 x2
  refine of_word rfl (fmt2 (K := 0x10005000) (by decide) rfl).1 (fun hi => ?_)
  generalize hw : put _ _ _ = w
  obtain ⟨_, r0, r1, r2, y0, y1, y2⟩ := fmt2 (K := 0x10005000) (by decide) hw
  rw [major_08 (r2.trans (by decide))]
  have e0 : bitsAt 3 12 w = 5 := r1.trans (by decide)
  have e1 : bitsAt 1 31 w = 0 := r0.trans (by decide)
  simp only [decodeMajor08, e0, e1, y0, y1, y2, and_true, and_false, false_and, reduceIte, Nat.reduceEqDiff, reduceCtorEq]

theorem lwn : ∀ x0 x1 x2, Statement (.lwn x0 x1 x2) := by
  intro x0 x1 x2
  refine of_word rfl (fmt2 (K := 0x10006000) (by decide) rfl).1 (fun hi => ?_)
  generalize hw : put _ _ _ = w
  obtain ⟨_, r0, r1, r2, y0, y1, y2⟩ := fmt2 (K := 0x10006000) (by decide) hw
  rw [major_08 (r2.trans (by decide))]
  have e0 : bitsAt 3 12 w = 6 := r1.trans (by decide)
  have e1 : bitsAt 1 31 w = 0 := r0.trans (by decide)
  simp only [decodeMajor08, e0, e1, y0, y1, y2, and_true, and_false, false_and, reduceIte, Nat.reduceEqDiff, reduceCtorEq]

theorem lda : ∀ x0 x1 x2, Statement (.lda x0 x1 x2) := by
  intro x0 x1 x2
  refine of_word rfl (fmt2 (K := 0x10007000) (by decide) rfl).1 (fun hi => ?_)
  generalize hw : put _ _ _ = w
  obtain ⟨_, r0, r1, r2, y0, y1, y2⟩ := fmt2 (K := 0x10007000) (by decide) hw
  rw [major_08 (r2.trans (by decide))]
  have e0 : bitsAt 3 12 w = 7 := r1.trans (by decide)
  have e1 : bitsAt 1 31 w = 0 := r0.trans (by decide)
  simp only [decodeMajor08, e0, e1, y0, y1, y2, and_true, and_false, false_and, reduceIte, Nat.reduceEqDiff, reduceCtorEq]

theorem sb : ∀ x0 x1 x2, Statement (.sb x0 x1 x2) := by
  intro x0 x1 x2
  refine of_word rfl (fmt2 (K := 0x12000000) (by decide) rfl).1 (fun hi => ?_)
  generalize hw : put _ _ _ = w
  obtain ⟨_, r0, r1, r2, y0, y1, y2⟩ := fmt2 (K := 0x12000000) (by decide) hw
  rw [major_09 (r2.trans (by decide))]
  have e0 : bitsAt 3 12 w = 0 := r1.trans (by decide)
  have e1 : bitsAt 1 31 w = 0 := r0.trans (by decide)
  simp only [decodeMajor09, e0, e1, y0, y1, y2, and_true, and_false, false_and, reduceIte, Nat.reduceEqDiff, reduceCtorEq]

theorem sh : ∀ x0 x1 x2, Statement (.sh x0 x1 x2) := by
  intro x0 x1 x2
  refine of_word rfl (fmt2 (K := 0x12001000) (by decide) rfl).1 (fun hi => ?_)
  generalize hw : put _ _ _ = w
  obtain ⟨_, r0, r1, r2, y0, y1, y2⟩ := fmt2 (K := 0x12001000) (by decide) hw
  rw [major_09 (r2.trans (by decide))]
  have e0 : bitsAt 3 12 w = 1 := r1.trans (by decide)
  have e1 : bitsAt 1 31 w = 0 := r0.trans (by decide)
  simp only [decodeMajor09, e0, e1, y0, y1, y2, and_true, and_false, false_and, reduceIte, Nat.reduceEqDiff, reduceCtorEq]

theorem sw : ∀ x0 x1 x2, Statement (.sw x0 x1 x2) := by
  intro x0 x1 x2
  refine of_word rfl (fmt2 (K := 0x12002000) (by decide) rfl).1 (fun hi => ?_)
  generalize hw : put _ _ _ = w
  obtain ⟨_, r0, r1, r2, y0, y1, y2⟩ := fmt2 (K := 0x12002000) (by decide) hw
  rw [major_09 (r2.trans (by decide))]
  have e0 : bitsAt 3 12 w = 2 := r1.trans (by decide)
  have e1 : bitsAt 1 31 w = 0 := r0.trans (by decide)
  simp only [decodeMajor09, e0, e1, y0, y1, y2, and_true, and_false, false_and, reduceIte, Nat.reduceEqDiff, reduceCtorEq]

theorem sd : ∀ x0 x1 x2, Statement (.sd x0 x1 x2) := by
  intro x0 x1 x2
  refine of_word rfl (fmt2 (K := 0x12003000) (by decide) rfl).1 (fun hi => ?_)
  generalize hw : put _ _ _ = w
  obtain ⟨_, r0, r1, r2, y0, y1, y2⟩ := fmt2 (K := 0x12003000) (by decide) hw
  rw [major_09 (r2.trans (by decide))]
  have e0 : bitsAt 3 12 w = 3 := r1.trans (by decide)
  have e1 : bitsAt 1 31 w = 0 := r0.trans (by decide)
  simp only [decodeMajor09, e0, e1, y0, y1, y2, and_true, and_false, false_and, reduceIte, Nat.reduceEqDiff, reduceCtorEq]

theorem sdr : ∀ x0 x1 x2, Statement (.sdr x0 x1 x2) := by
  intro x0 x1 x2
  refine of_word rfl (fmt2 (K := 0x12004000) (by decide) rfl).1 (fun hi => ?_)
  generalize hw : put _ _ _ = w
  obtain ⟨_, r0, r1, r2, y0, y1, y2⟩ := fmt2 (K := 0x12004000) (by decide) hw
  rw [major_09 (r2.trans (by decide))]
  have e0 : bitsAt 3 12 w = 4 := r1.trans (by decide)
  have e1 : bitsAt 1 31 w = 0 := r0.trans (by decide)
  simp only [decodeMajor09, e0, e1, y0, y1, y2, and_true, and_false, false_and, reduceIte, Nat.reduceEqDiff, reduceCtorEq]

theorem amo : ∀ x0 x1 x2 x3 x4 x5, Statement (.amo x0 x1 x2 x3 x4 x5) := by
  intro x0 x1 x2 x3 x4 x5
  refine of_word rfl (fmt5 (K := 0x14000000) (by decide) rfl).1 (fun hi => ?_)
  generalize hw : put _ _ _ = w
  obtain ⟨_, r0, r1, r2, r3, y0, y1, y2, y3, y4, y5⟩ := fmt5 (K := 0x14000000) (by decide) hw
  rw [major_0a (r3.trans (by decide))]
  have e0 : bitsAt 1 5 w = 0 := r0.trans (by decide)
  have e1 : bitsAt 2 8 w = 0 := r2.trans (by decide)
  have e2 : bitsAt 1 31 w = 0 := r1.trans (by decide)
  simp only [decodeMajor0a, e0, e1, e2, y0, y1, y2, y3, y4, y5, and_true, and_false, false_and, reduceIte, Nat.reduceEqDiff, reduceCtorEq]

theorem beq : ∀ x0 x1 x2, Statement (.beq x0 x1 x2) := by
  intro x0 x1 x2
  refine of_word rfl (fmt2 (K := 0x18000000) (by decide) rfl).1 (fun hi => ?_)
  generalize hw : put _ _ _ = w
  obtain ⟨_, r0, r1, r2, y0, y1, y2⟩ := fmt2 (K := 0x18000000) (by decide) hw
  rw [major_0c (r2.trans (by decide))]
  have e0 : bitsAt 3 12 w = 0 := r1.trans (by decide)
  have e1 : bitsAt 1 31 w = 0 := r0.trans (by decide)
  simp only [decodeMajor0c, e0, e1, y0, y1, y2, and_true, and_false, false_and, reduceIte, Nat.reduceEqDiff, reduceCtorEq]

theorem bne : ∀ x0 x1 x2, Statement (.bne x0 x1 x2) := by
  intro x0 x1 x2
  refine of_word rfl (fmt2 (K := 0x18001000) (by decide) rfl).1 (fun hi => ?_)
  generalize hw : put _ _ _ = w
  obtain ⟨_, r0, r1, r2, y0, y1, y2⟩ := fmt2 (K := 0x18001000) (by decide) hw
  rw [major_0c (r2.trans (by decide))]
  have e0 : bitsAt 3 12 w = 1 := r1.trans (by decide)
  have e1 : bitsAt 1 31 w = 0 := r0.trans (by decide)
  simp only [decodeMajor0c, e0, e1, y0, y1, y2, and_true, and_false, false_and, reduceIte, Nat.reduceEqDiff, reduceCtorEq]

theorem blt : ∀ x0 x1 x2, Statement (.blt x0 x1 x2) := by
  intro x0 x1 x2
  refine of_word rfl (fmt2 (K := 0x18002000) (by decide) rfl).1 (fun hi => ?_)
  generalize hw : put _ _ _ = w
  obtain ⟨_, r0, r1, r2, y0, y1, y2⟩ := fmt2 (K := 0x18002000) (by decide) hw
  rw [major_0c (r2.trans (by decide))]
  have e0 : bitsAt 3 12 w = 2 := r1.trans (by decide)
  have e1 : bitsAt 1 31 w = 0 := r0.trans (by decide)
  simp only [decodeMajor0c, e0, e1, y0, y1, y2, and_true, and_false, false_and, reduceIte, Nat.reduceEqDiff, reduceCtorEq]

theorem bge : ∀ x0 x1 x2, Statement (.bge x0 x1 x2) := by
  intro x0 x1 x2
  refine of_word rfl (fmt2 (K := 0x18003000) (by decide) rfl).1 (fun hi => ?_)
  generalize hw : put _ _ _ = w
  obtain ⟨_, r0, r1, r2, y0, y1, y2⟩ := fmt2 (K := 0x18003000) (by decide) hw
  rw [major_0c (r2.trans (by decide))]
  have e0 : bitsAt 3 12 w = 3 := r1.trans (by decide)
  have e1 : bitsAt 1 31 w = 0 := r0.trans (by decide)
  simp only [decodeMajor0c, e0, e1, y0, y1, y2, and_true, and_false, false_and, reduceIte, Nat.reduceEqDiff, reduceCtorEq]

theorem bltn : ∀ x0 x1 x2, Statement (.bltn x0 x1 x2) := by
  intro x0 x1 x2
  refine of_word rfl (fmt2 (K := 0x18004000) (by decide) rfl).1 (fun hi => ?_)
  generalize hw : put _ _ _ = w
  obtain ⟨_, r0, r1, r2, y0, y1, y2⟩ := fmt2 (K := 0x18004000) (by decide) hw
  rw [major_0c (r2.trans (by decide))]
  have e0 : bitsAt 3 12 w = 4 := r1.trans (by decide)
  have e1 : bitsAt 1 31 w = 0 := r0.trans (by decide)
  simp only [decodeMajor0c, e0, e1, y0, y1, y2, and_true, and_false, false_and, reduceIte, Nat.reduceEqDiff, reduceCtorEq]

theorem bgen : ∀ x0 x1 x2, Statement (.bgen x0 x1 x2) := by
  intro x0 x1 x2
  refine of_word rfl (fmt2 (K := 0x18005000) (by decide) rfl).1 (fun hi => ?_)
  generalize hw : put _ _ _ = w
  obtain ⟨_, r0, r1, r2, y0, y1, y2⟩ := fmt2 (K := 0x18005000) (by decide) hw
  rw [major_0c (r2.trans (by decide))]
  have e0 : bitsAt 3 12 w = 5 := r1.trans (by decide)
  have e1 : bitsAt 1 31 w = 0 := r0.trans (by decide)
  simp only [decodeMajor0c, e0, e1, y0, y1, y2, and_true, and_false, false_and, reduceIte, Nat.reduceEqDiff, reduceCtorEq]

theorem jal : ∀ x0 x1, Statement (.jal x0 x1) := by
  intro x0 x1
  refine of_word rfl (fmt4 (K := 0x1a000000) (by decide) rfl).1 (fun hi => ?_)
  generalize hw : put _ _ _ = w
  obtain ⟨_, r0, r1, y0, y1⟩ := fmt4 (K := 0x1a000000) (by decide) hw
  rw [major_0d (r1.trans (by decide))]
  have e0 : bitsAt 1 31 w = 0 := r0.trans (by decide)
  simp only [decodeMajor0d, e0, y0, y1, and_true, and_false, false_and, reduceIte, Nat.reduceEqDiff, reduceCtorEq]

theorem jalr : ∀ x0 x1 x2, Statement (.jalr x0 x1 x2) := by
  intro x0 x1 x2
  refine of_word rfl (fmt2 (K := 0x1c000000) (by decide) rfl).1 (fun hi => ?_)
  generalize hw : put _ _ _ = w
  obtain ⟨_, r0, r1, r2, y0, y1, y2⟩ := fmt2 (K := 0x1c000000) (by decide) hw
  rw [major_0e (r2.trans (by decide))]
  have e0 : bitsAt 3 12 w = 0 := r1.trans (by decide)
  have e1 : bitsAt 1 31 w = 0 := r0.trans (by decide)
  simp only [decodeMajor0e, e0, e1, y0, y1, y2, and_true, and_false, false_and, reduceIte, Nat.reduceEqDiff, reduceCtorEq]

theorem lnest : ∀ x0 x1 x2, Statement (.lnest x0 x1 x2) := by
  intro x0 x1 x2
  refine of_word rfl (fmt0 (K := 0x1e000000) (by decide) rfl).1 (fun hi => ?_)
  generalize hw : put _ _ _ = w
  obtain ⟨_, r0, r1, r2, y0, y1, y2⟩ := fmt0 (K := 0x1e000000) (by decide) hw
  rw [major_0f (r1.trans (by decide))]
  have e0 : bitsAt 10 0 w = 0 := r2.trans (by decide)
  have e1 : bitsAt 1 31 w = 0 := r0.trans (by decide)
  simp only [decodeMajor0f, e0, e1, y0, y1, y2, and_true, and_false, false_and, reduceIte, Nat.reduceEqDiff, reduceCtorEq]

theorem lbody : ∀ x0, Statement (.lbody x0) := by
  intro x0
  refine of_word rfl (fmt6 (K := 0x1e000001) (by decide) rfl).1 (fun hi => ?_)
  generalize hw : put _ _ _ = w
  obtain ⟨_, r0, r1, r2, y0⟩ := fmt6 (K := 0x1e000001) (by decide) hw
  rw [major_0f (r1.trans (by decide))]
  have e0 : bitsAt 20 0 w = 1 := r2.trans (by decide)
  have e1 : bitsAt 1 31 w = 0 := r0.trans (by decide)
  have n0 : ¬ bitsAt 10 0 w = 0 := fun h => absurd (h.symm.trans (bits_inside 0 10 e0 (by decide))) (by decide)
  simp only [decodeMajor0f, e0, e1, n0, y0, and_true, and_false, false_and, reduceIte, Nat.reduceEqDiff, reduceCtorEq]

theorem lexit : ∀ x0 x1, Statement (.lexit x0 x1) := by
  intro x0 x1
  refine of_word rfl (fmt7 (K := 0x1e000002) (by decide) rfl).1 (fun hi => ?_)
  generalize hw : put _ _ _ = w
  obtain ⟨_, r0, r1, r2, r3, y0, y1⟩ := fmt7 (K := 0x1e000002) (by decide) hw
  rw [major_0f (r2.trans (by decide))]
  have e0 : bitsAt 10 0 w = 2 := r3.trans (by decide)
  have e1 : bitsAt 5 20 w = 0 := r1.trans (by decide)
  have e2 : bitsAt 1 31 w = 0 := r0.trans (by decide)
  have n0 : ¬ bitsAt 20 0 w = 1 := fun h => absurd (e0.symm.trans (bits_inside 0 10 h (by decide))) (by decide)
  simp only [decodeMajor0f, e0, e1, e2, n0, y0, y1, and_true, and_false, false_and, reduceIte, Nat.reduceEqDiff, reduceCtorEq]

theorem csrr : ∀ x0 x1, Statement (.csrr x0 x1) := by
  intro x0 x1
  refine of_word rfl (fmt8 (K := 0x20000000) (by decide) rfl).1 (fun hi => ?_)
  generalize hw : put _ _ _ = w
  obtain ⟨_, r0, r1, r2, r3, y0, y1⟩ := fmt8 (K := 0x20000000) (by decide) hw
  rw [major_10 (r3.trans (by decide))]
  have e0 : bitsAt 3 0 w = 0 := r1.trans (by decide)
  have e1 : bitsAt 5 15 w = 0 := r2.trans (by decide)
  have e2 : bitsAt 1 31 w = 0 := r0.trans (by decide)
  simp only [decodeMajor10, e0, e1, e2, y0, y1, and_true, and_false, false_and, reduceIte, Nat.reduceEqDiff, reduceCtorEq]

theorem csrw : ∀ x0 x1 x2, Statement (.csrw x0 x1 x2) := by
  intro x0 x1 x2
  refine of_word rfl (fmt9 (K := 0x20000001) (by decide) rfl).1 (fun hi => ?_)
  generalize hw : put _ _ _ = w
  obtain ⟨_, r0, r1, r2, y0, y1, y2⟩ := fmt9 (K := 0x20000001) (by decide) hw
  rw [major_10 (r2.trans (by decide))]
  have e0 : bitsAt 3 0 w = 1 := r1.trans (by decide)
  have e1 : bitsAt 1 31 w = 0 := r0.trans (by decide)
  simp only [decodeMajor10, e0, e1, y0, y1, y2, and_true, and_false, false_and, reduceIte, Nat.reduceEqDiff, reduceCtorEq]

theorem csrs : ∀ x0 x1 x2, Statement (.csrs x0 x1 x2) := by
  intro x0 x1 x2
  refine of_word rfl (fmt9 (K := 0x20000002) (by decide) rfl).1 (fun hi => ?_)
  generalize hw : put _ _ _ = w
  obtain ⟨_, r0, r1, r2, y0, y1, y2⟩ := fmt9 (K := 0x20000002) (by decide) hw
  rw [major_10 (r2.trans (by decide))]
  have e0 : bitsAt 3 0 w = 2 := r1.trans (by decide)
  have e1 : bitsAt 1 31 w = 0 := r0.trans (by decide)
  simp only [decodeMajor10, e0, e1, y0, y1, y2, and_true, and_false, false_and, reduceIte, Nat.reduceEqDiff, reduceCtorEq]

theorem csrc : ∀ x0 x1 x2, Statement (.csrc x0 x1 x2) := by
  intro x0 x1 x2
  refine of_word rfl (fmt9 (K := 0x20000003) (by decide) rfl).1 (fun hi => ?_)
  generalize hw : put _ _ _ = w
  obtain ⟨_, r0, r1, r2, y0, y1, y2⟩ := fmt9 (K := 0x20000003) (by decide) hw
  rw [major_10 (r2.trans (by decide))]
  have e0 : bitsAt 3 0 w = 3 := r1.trans (by decide)
  have e1 : bitsAt 1 31 w = 0 := r0.trans (by decide)
  simp only [decodeMajor10, e0, e1, y0, y1, y2, and_true, and_false, false_and, reduceIte, Nat.reduceEqDiff, reduceCtorEq]

theorem svc : ∀ x0, Statement (.svc x0) := by
  intro x0
  refine of_word rfl (fmt10 (K := 0x22000000) (by decide) rfl).1 (fun hi => ?_)
  generalize hw : put _ _ _ = w
  obtain ⟨_, r0, r1, r2, y0⟩ := fmt10 (K := 0x22000000) (by decide) hw
  rw [major_11 (r1.trans (by decide))]
  have e0 : bitsAt 10 0 w = 0 := r2.trans (by decide)
  have e1 : bitsAt 1 31 w = 0 := r0.trans (by decide)
  simp only [decodeMajor11, e0, e1, y0, and_true, and_false, false_and, reduceIte, Nat.reduceEqDiff, reduceCtorEq]

theorem eret : Statement .eret := by
  refine of_word rfl (by decide) (fun hi => by decide)

theorem nap : ∀ x0, Statement (.nap x0) := by
  intro x0
  refine of_word rfl (fmt6 (K := 0x22000002) (by decide) rfl).1 (fun hi => ?_)
  generalize hw : put _ _ _ = w
  obtain ⟨_, r0, r1, r2, y0⟩ := fmt6 (K := 0x22000002) (by decide) hw
  rw [major_11 (r1.trans (by decide))]
  have e0 : bitsAt 20 0 w = 2 := r2.trans (by decide)
  have e1 : bitsAt 1 31 w = 0 := r0.trans (by decide)
  have n0 : ¬ bitsAt 10 0 w = 0 := fun h => absurd (h.symm.trans (bits_inside 0 10 e0 (by decide))) (by decide)
  have n1 : ¬ bitsAt 25 0 w = 1 := fun h => absurd (e0.symm.trans (bits_inside 0 20 h (by decide))) (by decide)
  simp only [decodeMajor11, e0, e1, n0, n1, y0, and_true, and_false, false_and, reduceIte, Nat.reduceEqDiff, reduceCtorEq]

theorem wake : ∀ x0 x1, Statement (.wake x0 x1) := by
  intro x0 x1
  refine of_word rfl (fmt1 (K := 0x22000003) (by decide) rfl).1 (fun hi => ?_)
  generalize hw : put _ _ _ = w
  obtain ⟨_, r0, r1, r2, y0, y1⟩ := fmt1 (K := 0x22000003) (by decide) hw
  rw [major_11 (r1.trans (by decide))]
  have e0 : bitsAt 15 0 w = 3 := r2.trans (by decide)
  have e1 : bitsAt 1 31 w = 0 := r0.trans (by decide)
  have n0 : ¬ bitsAt 10 0 w = 0 := fun h => absurd (h.symm.trans (bits_inside 0 10 e0 (by decide))) (by decide)
  have n1 : ¬ bitsAt 25 0 w = 1 := fun h => absurd (e0.symm.trans (bits_inside 0 15 h (by decide))) (by decide)
  have n2 : ¬ bitsAt 20 0 w = 2 := fun h => absurd (e0.symm.trans (bits_inside 0 15 h (by decide))) (by decide)
  simp only [decodeMajor11, e0, e1, n0, n1, n2, y0, y1, and_true, and_false, false_and, reduceIte, Nat.reduceEqDiff, reduceCtorEq]

theorem yield : Statement .yield := by
  refine of_word rfl (by decide) (fun hi => by decide)

theorem halt : Statement .halt := by
  refine of_word rfl (by decide) (fun hi => by decide)

theorem bkpt : ∀ x0, Statement (.bkpt x0) := by
  intro x0
  refine of_word rfl (fmt10 (K := 0x22000006) (by decide) rfl).1 (fun hi => ?_)
  generalize hw : put _ _ _ = w
  obtain ⟨_, r0, r1, r2, y0⟩ := fmt10 (K := 0x22000006) (by decide) hw
  rw [major_11 (r1.trans (by decide))]
  have e0 : bitsAt 10 0 w = 6 := r2.trans (by decide)
  have e1 : bitsAt 1 31 w = 0 := r0.trans (by decide)
  have n0 : ¬ bitsAt 25 0 w = 1 := fun h => absurd (e0.symm.trans (bits_inside 0 10 h (by decide))) (by decide)
  have n1 : ¬ bitsAt 20 0 w = 2 := fun h => absurd (e0.symm.trans (bits_inside 0 10 h (by decide))) (by decide)
  have n2 : ¬ bitsAt 15 0 w = 3 := fun h => absurd (e0.symm.trans (bits_inside 0 10 h (by decide))) (by decide)
  have n3 : ¬ bitsAt 25 0 w = 4 := fun h => absurd (e0.symm.trans (bits_inside 0 10 h (by decide))) (by decide)
  have n4 : ¬ bitsAt 25 0 w = 5 := fun h => absurd (e0.symm.trans (bits_inside 0 10 h (by decide))) (by decide)
  simp only [decodeMajor11, e0, e1, n0, n1, n2, n3, n4, y0, and_true, and_false, false_and, reduceIte, Nat.reduceEqDiff, reduceCtorEq]

theorem ifence : Statement .ifence := by
  refine of_word rfl (by decide) (fun hi => by decide)

theorem raise : ∀ x0 x1, Statement (.raise x0 x1) := by
  intro x0 x1
  refine of_word rfl (fmt7 (K := 0x22000008) (by decide) rfl).1 (fun hi => ?_)
  generalize hw : put _ _ _ = w
  obtain ⟨_, r0, r1, r2, r3, y0, y1⟩ := fmt7 (K := 0x22000008) (by decide) hw
  rw [major_11 (r2.trans (by decide))]
  have e0 : bitsAt 10 0 w = 8 := r3.trans (by decide)
  have e1 : bitsAt 5 20 w = 0 := r1.trans (by decide)
  have e2 : bitsAt 1 31 w = 0 := r0.trans (by decide)
  have n0 : ¬ bitsAt 25 0 w = 1 := fun h => absurd (e0.symm.trans (bits_inside 0 10 h (by decide))) (by decide)
  have n1 : ¬ bitsAt 20 0 w = 2 := fun h => absurd (e0.symm.trans (bits_inside 0 10 h (by decide))) (by decide)
  have n2 : ¬ bitsAt 15 0 w = 3 := fun h => absurd (e0.symm.trans (bits_inside 0 10 h (by decide))) (by decide)
  have n3 : ¬ bitsAt 25 0 w = 4 := fun h => absurd (e0.symm.trans (bits_inside 0 10 h (by decide))) (by decide)
  have n4 : ¬ bitsAt 25 0 w = 5 := fun h => absurd (e0.symm.trans (bits_inside 0 10 h (by decide))) (by decide)
  have n5 : ¬ bitsAt 25 0 w = 7 := fun h => absurd (e0.symm.trans (bits_inside 0 10 h (by decide))) (by decide)
  simp only [decodeMajor11, e0, e1, e2, n0, n1, n2, n3, n4, n5, y0, y1, and_true, and_false, false_and, reduceIte, Nat.reduceEqDiff, reduceCtorEq]

theorem gjoin : ∀ x0 x1, Statement (.gjoin x0 x1) := by
  intro x0 x1
  refine of_word rfl (fmt1 (K := 0x24000000) (by decide) rfl).1 (fun hi => ?_)
  generalize hw : put _ _ _ = w
  obtain ⟨_, r0, r1, r2, y0, y1⟩ := fmt1 (K := 0x24000000) (by decide) hw
  rw [major_12 (r1.trans (by decide))]
  have e0 : bitsAt 15 0 w = 0 := r2.trans (by decide)
  have e1 : bitsAt 1 31 w = 0 := r0.trans (by decide)
  simp only [decodeMajor12, e0, e1, y0, y1, and_true, and_false, false_and, reduceIte, Nat.reduceEqDiff, reduceCtorEq]

theorem gleave : ∀ x0 x1, Statement (.gleave x0 x1) := by
  intro x0 x1
  refine of_word rfl (fmt1 (K := 0x24000001) (by decide) rfl).1 (fun hi => ?_)
  generalize hw : put _ _ _ = w
  obtain ⟨_, r0, r1, r2, y0, y1⟩ := fmt1 (K := 0x24000001) (by decide) hw
  rw [major_12 (r1.trans (by decide))]
  have e0 : bitsAt 15 0 w = 1 := r2.trans (by decide)
  have e1 : bitsAt 1 31 w = 0 := r0.trans (by decide)
  simp only [decodeMajor12, e0, e1, y0, y1, and_true, and_false, false_and, reduceIte, Nat.reduceEqDiff, reduceCtorEq]

theorem barw : ∀ x0 x1, Statement (.barw x0 x1) := by
  intro x0 x1
  refine of_word rfl (fmt1 (K := 0x24000002) (by decide) rfl).1 (fun hi => ?_)
  generalize hw : put _ _ _ = w
  obtain ⟨_, r0, r1, r2, y0, y1⟩ := fmt1 (K := 0x24000002) (by decide) hw
  rw [major_12 (r1.trans (by decide))]
  have e0 : bitsAt 15 0 w = 2 := r2.trans (by decide)
  have e1 : bitsAt 1 31 w = 0 := r0.trans (by decide)
  simp only [decodeMajor12, e0, e1, y0, y1, and_true, and_false, false_and, reduceIte, Nat.reduceEqDiff, reduceCtorEq]

theorem bararv : ∀ x0 x1, Statement (.bararv x0 x1) := by
  intro x0 x1
  refine of_word rfl (fmt1 (K := 0x24000003) (by decide) rfl).1 (fun hi => ?_)
  generalize hw : put _ _ _ = w
  obtain ⟨_, r0, r1, r2, y0, y1⟩ := fmt1 (K := 0x24000003) (by decide) hw
  rw [major_12 (r1.trans (by decide))]
  have e0 : bitsAt 15 0 w = 3 := r2.trans (by decide)
  have e1 : bitsAt 1 31 w = 0 := r0.trans (by decide)
  simp only [decodeMajor12, e0, e1, y0, y1, and_true, and_false, false_and, reduceIte, Nat.reduceEqDiff, reduceCtorEq]

theorem barrlx : ∀ x0 x1, Statement (.barrlx x0 x1) := by
  intro x0 x1
  refine of_word rfl (fmt1 (K := 0x24000004) (by decide) rfl).1 (fun hi => ?_)
  generalize hw : put _ _ _ = w
  obtain ⟨_, r0, r1, r2, y0, y1⟩ := fmt1 (K := 0x24000004) (by decide) hw
  rw [major_12 (r1.trans (by decide))]
  have e0 : bitsAt 15 0 w = 4 := r2.trans (by decide)
  have e1 : bitsAt 1 31 w = 0 := r0.trans (by decide)
  simp only [decodeMajor12, e0, e1, y0, y1, and_true, and_false, false_and, reduceIte, Nat.reduceEqDiff, reduceCtorEq]

theorem barwait : ∀ x0 x1 x2, Statement (.barwait x0 x1 x2) := by
  intro x0 x1 x2
  refine of_word rfl (fmt0 (K := 0x24000005) (by decide) rfl).1 (fun hi => ?_)
  generalize hw : put _ _ _ = w
  obtain ⟨_, r0, r1, r2, y0, y1, y2⟩ := fmt0 (K := 0x24000005) (by decide) hw
  rw [major_12 (r1.trans (by decide))]
  have e0 : bitsAt 10 0 w = 5 := r2.trans (by decide)
  have e1 : bitsAt 1 31 w = 0 := r0.trans (by decide)
  have n0 : ¬ bitsAt 15 0 w = 0 := fun h => absurd (e0.symm.trans (bits_inside 0 10 h (by decide))) (by decide)
  have n1 : ¬ bitsAt 15 0 w = 1 := fun h => absurd (e0.symm.trans (bits_inside 0 10 h (by decide))) (by decide)
  have n2 : ¬ bitsAt 15 0 w = 2 := fun h => absurd (e0.symm.trans (bits_inside 0 10 h (by decide))) (by decide)
  have n3 : ¬ bitsAt 15 0 w = 3 := fun h => absurd (e0.symm.trans (bits_inside 0 10 h (by decide))) (by decide)
  have n4 : ¬ bitsAt 15 0 w = 4 := fun h => absurd (e0.symm.trans (bits_inside 0 10 h (by decide))) (by decide)
  simp only [decodeMajor12, e0, e1, n0, n1, n2, n3, n4, y0, y1, y2, and_true, and_false, false_and, reduceIte, Nat.reduceEqDiff, reduceCtorEq]

theorem phend : ∀ x0 x1, Statement (.phend x0 x1) := by
  intro x0 x1
  refine of_word rfl (fmt1 (K := 0x24000006) (by decide) rfl).1 (fun hi => ?_)
  generalize hw : put _ _ _ = w
  obtain ⟨_, r0, r1, r2, y0, y1⟩ := fmt1 (K := 0x24000006) (by decide) hw
  rw [major_12 (r1.trans (by decide))]
  have e0 : bitsAt 15 0 w = 6 := r2.trans (by decide)
  have e1 : bitsAt 1 31 w = 0 := r0.trans (by decide)
  have n0 : ¬ bitsAt 10 0 w = 5 := fun h => absurd (h.symm.trans (bits_inside 0 10 e0 (by decide))) (by decide)
  simp only [decodeMajor12, e0, e1, n0, y0, y1, and_true, and_false, false_and, reduceIte, Nat.reduceEqDiff, reduceCtorEq]

theorem gsize : ∀ x0 x1, Statement (.gsize x0 x1) := by
  intro x0 x1
  refine of_word rfl (fmt1 (K := 0x24000007) (by decide) rfl).1 (fun hi => ?_)
  generalize hw : put _ _ _ = w
  obtain ⟨_, r0, r1, r2, y0, y1⟩ := fmt1 (K := 0x24000007) (by decide) hw
  rw [major_12 (r1.trans (by decide))]
  have e0 : bitsAt 15 0 w = 7 := r2.trans (by decide)
  have e1 : bitsAt 1 31 w = 0 := r0.trans (by decide)
  have n0 : ¬ bitsAt 10 0 w = 5 := fun h => absurd (h.symm.trans (bits_inside 0 10 e0 (by decide))) (by decide)
  simp only [decodeMajor12, e0, e1, n0, y0, y1, and_true, and_false, false_and, reduceIte, Nat.reduceEqDiff, reduceCtorEq]

theorem tid : ∀ x0, Statement (.tid x0) := by
  intro x0
  refine of_word rfl (fmt6 (K := 0x24000008) (by decide) rfl).1 (fun hi => ?_)
  generalize hw : put _ _ _ = w
  obtain ⟨_, r0, r1, r2, y0⟩ := fmt6 (K := 0x24000008) (by decide) hw
  rw [major_12 (r1.trans (by decide))]
  have e0 : bitsAt 20 0 w = 8 := r2.trans (by decide)
  have e1 : bitsAt 1 31 w = 0 := r0.trans (by decide)
  have n0 : ¬ bitsAt 15 0 w = 0 := fun h => absurd (h.symm.trans (bits_inside 0 15 e0 (by decide))) (by decide)
  have n1 : ¬ bitsAt 15 0 w = 1 := fun h => absurd (h.symm.trans (bits_inside 0 15 e0 (by decide))) (by decide)
  have n2 : ¬ bitsAt 15 0 w = 2 := fun h => absurd (h.symm.trans (bits_inside 0 15 e0 (by decide))) (by decide)
  have n3 : ¬ bitsAt 15 0 w = 3 := fun h => absurd (h.symm.trans (bits_inside 0 15 e0 (by decide))) (by decide)
  have n4 : ¬ bitsAt 15 0 w = 4 := fun h => absurd (h.symm.trans (bits_inside 0 15 e0 (by decide))) (by decide)
  have n5 : ¬ bitsAt 10 0 w = 5 := fun h => absurd (h.symm.trans (bits_inside 0 10 e0 (by decide))) (by decide)
  have n6 : ¬ bitsAt 15 0 w = 6 := fun h => absurd (h.symm.trans (bits_inside 0 15 e0 (by decide))) (by decide)
  have n7 : ¬ bitsAt 15 0 w = 7 := fun h => absurd (h.symm.trans (bits_inside 0 15 e0 (by decide))) (by decide)
  simp only [decodeMajor12, e0, e1, n0, n1, n2, n3, n4, n5, n6, n7, y0, and_true, and_false, false_and, reduceIte, Nat.reduceEqDiff, reduceCtorEq]

theorem spawn : ∀ x0 x1 x2, Statement (.spawn x0 x1 x2) := by
  intro x0 x1 x2
  refine of_word rfl (fmt0 (K := 0x26000000) (by decide) rfl).1 (fun hi => ?_)
  generalize hw : put _ _ _ = w
  obtain ⟨_, r0, r1, r2, y0, y1, y2⟩ := fmt0 (K := 0x26000000) (by decide) hw
  rw [major_13 (r1.trans (by decide))]
  have e0 : bitsAt 10 0 w = 0 := r2.trans (by decide)
  have e1 : bitsAt 1 31 w = 0 := r0.trans (by decide)
  simp only [decodeMajor13, e0, e1, y0, y1, y2, and_true, and_false, false_and, reduceIte, Nat.reduceEqDiff, reduceCtorEq]

theorem jdone : ∀ x0, Statement (.jdone x0) := by
  intro x0
  refine of_word rfl (fmt12 (K := 0x26000001) (by decide) rfl).1 (fun hi => ?_)
  generalize hw : put _ _ _ = w
  obtain ⟨_, r0, r1, r2, r3, y0⟩ := fmt12 (K := 0x26000001) (by decide) hw
  rw [major_13 (r2.trans (by decide))]
  have e0 : bitsAt 15 0 w = 1 := r3.trans (by decide)
  have e1 : bitsAt 5 20 w = 0 := r1.trans (by decide)
  have e2 : bitsAt 1 31 w = 0 := r0.trans (by decide)
  have n0 : ¬ bitsAt 10 0 w = 0 := fun h => absurd (h.symm.trans (bits_inside 0 10 e0 (by decide))) (by decide)
  simp only [decodeMajor13, e0, e1, e2, n0, y0, and_true, and_false, false_and, reduceIte, Nat.reduceEqDiff, reduceCtorEq]

theorem jstat : ∀ x0 x1, Statement (.jstat x0 x1) := by
  intro x0 x1
  refine of_word rfl (fmt1 (K := 0x26000002) (by decide) rfl).1 (fun hi => ?_)
  generalize hw : put _ _ _ = w
  obtain ⟨_, r0, r1, r2, y0, y1⟩ := fmt1 (K := 0x26000002) (by decide) hw
  rw [major_13 (r1.trans (by decide))]
  have e0 : bitsAt 15 0 w = 2 := r2.trans (by decide)
  have e1 : bitsAt 1 31 w = 0 := r0.trans (by decide)
  have n0 : ¬ bitsAt 10 0 w = 0 := fun h => absurd (h.symm.trans (bits_inside 0 10 e0 (by decide))) (by decide)
  simp only [decodeMajor13, e0, e1, n0, y0, y1, and_true, and_false, false_and, reduceIte, Nat.reduceEqDiff, reduceCtorEq]

theorem jdeadl : ∀ x0 x1 x2, Statement (.jdeadl x0 x1 x2) := by
  intro x0 x1 x2
  refine of_word rfl (fmt0 (K := 0x26000003) (by decide) rfl).1 (fun hi => ?_)
  generalize hw : put _ _ _ = w
  obtain ⟨_, r0, r1, r2, y0, y1, y2⟩ := fmt0 (K := 0x26000003) (by decide) hw
  rw [major_13 (r1.trans (by decide))]
  have e0 : bitsAt 10 0 w = 3 := r2.trans (by decide)
  have e1 : bitsAt 1 31 w = 0 := r0.trans (by decide)
  have n0 : ¬ bitsAt 15 0 w = 1 := fun h => absurd (e0.symm.trans (bits_inside 0 10 h (by decide))) (by decide)
  have n1 : ¬ bitsAt 15 0 w = 2 := fun h => absurd (e0.symm.trans (bits_inside 0 10 h (by decide))) (by decide)
  simp only [decodeMajor13, e0, e1, n0, n1, y0, y1, y2, and_true, and_false, false_and, reduceIte, Nat.reduceEqDiff, reduceCtorEq]

theorem ptpnow : ∀ x0, Statement (.ptpnow x0) := by
  intro x0
  refine of_word rfl (fmt6 (K := 0x26000004) (by decide) rfl).1 (fun hi => ?_)
  generalize hw : put _ _ _ = w
  obtain ⟨_, r0, r1, r2, y0⟩ := fmt6 (K := 0x26000004) (by decide) hw
  rw [major_13 (r1.trans (by decide))]
  have e0 : bitsAt 20 0 w = 4 := r2.trans (by decide)
  have e1 : bitsAt 1 31 w = 0 := r0.trans (by decide)
  have n0 : ¬ bitsAt 10 0 w = 0 := fun h => absurd (h.symm.trans (bits_inside 0 10 e0 (by decide))) (by decide)
  have n1 : ¬ bitsAt 15 0 w = 1 := fun h => absurd (h.symm.trans (bits_inside 0 15 e0 (by decide))) (by decide)
  have n2 : ¬ bitsAt 15 0 w = 2 := fun h => absurd (h.symm.trans (bits_inside 0 15 e0 (by decide))) (by decide)
  have n3 : ¬ bitsAt 10 0 w = 3 := fun h => absurd (h.symm.trans (bits_inside 0 10 e0 (by decide))) (by decide)
  simp only [decodeMajor13, e0, e1, n0, n1, n2, n3, y0, and_true, and_false, false_and, reduceIte, Nat.reduceEqDiff, reduceCtorEq]

theorem chbind : ∀ x0 x1 x2, Statement (.chbind x0 x1 x2) := by
  intro x0 x1 x2
  refine of_word rfl (fmt0 (K := 0x26000005) (by decide) rfl).1 (fun hi => ?_)
  generalize hw : put _ _ _ = w
  obtain ⟨_, r0, r1, r2, y0, y1, y2⟩ := fmt0 (K := 0x26000005) (by decide) hw
  rw [major_13 (r1.trans (by decide))]
  have e0 : bitsAt 10 0 w = 5 := r2.trans (by decide)
  have e1 : bitsAt 1 31 w = 0 := r0.trans (by decide)
  have n0 : ¬ bitsAt 15 0 w = 1 := fun h => absurd (e0.symm.trans (bits_inside 0 10 h (by decide))) (by decide)
  have n1 : ¬ bitsAt 15 0 w = 2 := fun h => absurd (e0.symm.trans (bits_inside 0 10 h (by decide))) (by decide)
  have n2 : ¬ bitsAt 20 0 w = 4 := fun h => absurd (e0.symm.trans (bits_inside 0 10 h (by decide))) (by decide)
  simp only [decodeMajor13, e0, e1, n0, n1, n2, y0, y1, y2, and_true, and_false, false_and, reduceIte, Nat.reduceEqDiff, reduceCtorEq]

theorem chpub : ∀ x0 x1 x2, Statement (.chpub x0 x1 x2) := by
  intro x0 x1 x2
  refine of_word rfl (fmt0 (K := 0x26000006) (by decide) rfl).1 (fun hi => ?_)
  generalize hw : put _ _ _ = w
  obtain ⟨_, r0, r1, r2, y0, y1, y2⟩ := fmt0 (K := 0x26000006) (by decide) hw
  rw [major_13 (r1.trans (by decide))]
  have e0 : bitsAt 10 0 w = 6 := r2.trans (by decide)
  have e1 : bitsAt 1 31 w = 0 := r0.trans (by decide)
  have n0 : ¬ bitsAt 15 0 w = 1 := fun h => absurd (e0.symm.trans (bits_inside 0 10 h (by decide))) (by decide)
  have n1 : ¬ bitsAt 15 0 w = 2 := fun h => absurd (e0.symm.trans (bits_inside 0 10 h (by decide))) (by decide)
  have n2 : ¬ bitsAt 20 0 w = 4 := fun h => absurd (e0.symm.trans (bits_inside 0 10 h (by decide))) (by decide)
  simp only [decodeMajor13, e0, e1, n0, n1, n2, y0, y1, y2, and_true, and_false, false_and, reduceIte, Nat.reduceEqDiff, reduceCtorEq]

theorem chread : ∀ x0 x1, Statement (.chread x0 x1) := by
  intro x0 x1
  refine of_word rfl (fmt1 (K := 0x26000007) (by decide) rfl).1 (fun hi => ?_)
  generalize hw : put _ _ _ = w
  obtain ⟨_, r0, r1, r2, y0, y1⟩ := fmt1 (K := 0x26000007) (by decide) hw
  rw [major_13 (r1.trans (by decide))]
  have e0 : bitsAt 15 0 w = 7 := r2.trans (by decide)
  have e1 : bitsAt 1 31 w = 0 := r0.trans (by decide)
  have n0 : ¬ bitsAt 10 0 w = 0 := fun h => absurd (h.symm.trans (bits_inside 0 10 e0 (by decide))) (by decide)
  have n1 : ¬ bitsAt 10 0 w = 3 := fun h => absurd (h.symm.trans (bits_inside 0 10 e0 (by decide))) (by decide)
  have n2 : ¬ bitsAt 20 0 w = 4 := fun h => absurd (e0.symm.trans (bits_inside 0 15 h (by decide))) (by decide)
  have n3 : ¬ bitsAt 10 0 w = 5 := fun h => absurd (h.symm.trans (bits_inside 0 10 e0 (by decide))) (by decide)
  have n4 : ¬ bitsAt 10 0 w = 6 := fun h => absurd (h.symm.trans (bits_inside 0 10 e0 (by decide))) (by decide)
  simp only [decodeMajor13, e0, e1, n0, n1, n2, n3, n4, y0, y1, and_true, and_false, false_and, reduceIte, Nat.reduceEqDiff, reduceCtorEq]

theorem fence : ∀ x0, Statement (.fence x0) := by
  intro x0
  refine of_word rfl (fmt13 (K := 0x28000000) (by decide) rfl).1 (fun hi => ?_)
  generalize hw : put _ _ _ = w
  obtain ⟨_, r0, r1, r2, r3, y0⟩ := fmt13 (K := 0x28000000) (by decide) hw
  rw [major_14 (r1.trans (by decide))]
  have e0 : bitsAt 10 0 w = 0 := r2.trans (by decide)
  have e1 : bitsAt 10 15 w = 0 := r3.trans (by decide)
  have e2 : bitsAt 1 31 w = 0 := r0.trans (by decide)
  simp only [decodeMajor14, e0, e1, e2, y0, and_true, and_false, false_and, reduceIte, Nat.reduceEqDiff, reduceCtorEq]

theorem fencee : ∀ x0 x1, Statement (.fencee x0 x1) := by
  intro x0 x1
  refine of_word rfl (fmt7 (K := 0x28000001) (by decide) rfl).1 (fun hi => ?_)
  generalize hw : put _ _ _ = w
  obtain ⟨_, r0, r1, r2, r3, y0, y1⟩ := fmt7 (K := 0x28000001) (by decide) hw
  rw [major_14 (r2.trans (by decide))]
  have e0 : bitsAt 10 0 w = 1 := r3.trans (by decide)
  have e1 : bitsAt 5 20 w = 0 := r1.trans (by decide)
  have e2 : bitsAt 1 31 w = 0 := r0.trans (by decide)
  simp only [decodeMajor14, e0, e1, e2, y0, y1, and_true, and_false, false_and, reduceIte, Nat.reduceEqDiff, reduceCtorEq]

theorem qdrain : ∀ x0, Statement (.qdrain x0) := by
  intro x0
  refine of_word rfl (fmt14 (K := 0x28000002) (by decide) rfl).1 (fun hi => ?_)
  generalize hw : put _ _ _ = w
  obtain ⟨_, r0, r1, r2, r3, y0⟩ := fmt14 (K := 0x28000002) (by decide) hw
  rw [major_14 (r1.trans (by decide))]
  have e0 : bitsAt 10 0 w = 2 := r2.trans (by decide)
  have e1 : bitsAt 11 14 w = 0 := r3.trans (by decide)
  have e2 : bitsAt 1 31 w = 0 := r0.trans (by decide)
  simp only [decodeMajor14, e0, e1, e2, y0, and_true, and_false, false_and, reduceIte, Nat.reduceEqDiff, reduceCtorEq]

theorem winpub : ∀ x0, Statement (.winpub x0) := by
  intro x0
  refine of_word rfl (fmt12 (K := 0x28000003) (by decide) rfl).1 (fun hi => ?_)
  generalize hw : put _ _ _ = w
  obtain ⟨_, r0, r1, r2, r3, y0⟩ := fmt12 (K := 0x28000003) (by decide) hw
  rw [major_14 (r2.trans (by decide))]
  have e0 : bitsAt 15 0 w = 3 := r3.trans (by decide)
  have e1 : bitsAt 5 20 w = 0 := r1.trans (by decide)
  have e2 : bitsAt 1 31 w = 0 := r0.trans (by decide)
  have n0 : ¬ bitsAt 10 0 w = 0 := fun h => absurd (h.symm.trans (bits_inside 0 10 e0 (by decide))) (by decide)
  have n1 : ¬ bitsAt 10 0 w = 1 := fun h => absurd (h.symm.trans (bits_inside 0 10 e0 (by decide))) (by decide)
  have n2 : ¬ bitsAt 10 0 w = 2 := fun h => absurd (h.symm.trans (bits_inside 0 10 e0 (by decide))) (by decide)
  simp only [decodeMajor14, e0, e1, e2, n0, n1, n2, y0, and_true, and_false, false_and, reduceIte, Nat.reduceEqDiff, reduceCtorEq]

theorem vcfg : ∀ x0 x1, Statement (.vcfg x0 x1) := by
  intro x0 x1
  refine of_word rfl (fmt1 (K := 0x2a000000) (by decide) rfl).1 (fun hi => ?_)
  generalize hw : put _ _ _ = w
  obtain ⟨_, r0, r1, r2, y0, y1⟩ := fmt1 (K := 0x2a000000) (by decide) hw
  rw [major_15 (r1.trans (by decide))]
  have e0 : bitsAt 15 0 w = 0 := r2.trans (by decide)
  have e1 : bitsAt 1 31 w = 0 := r0.trans (by decide)
  simp only [decodeMajor15, e0, e1, y0, y1, and_true, and_false, false_and, reduceIte, Nat.reduceEqDiff, reduceCtorEq]

theorem setvl : ∀ x0 x1, Statement (.setvl x0 x1) := by
  intro x0 x1
  refine of_word rfl (fmt1 (K := 0x2a000001) (by decide) rfl).1 (fun hi => ?_)
  generalize hw : put _ _ _ = w
  obtain ⟨_, r0, r1, r2, y0, y1⟩ := fmt1 (K := 0x2a000001) (by decide) hw
  rw [major_15 (r1.trans (by decide))]
  have e0 : bitsAt 15 0 w = 1 := r2.trans (by decide)
  have e1 : bitsAt 1 31 w = 0 := r0.trans (by decide)
  simp only [decodeMajor15, e0, e1, y0, y1, and_true, and_false, false_and, reduceIte, Nat.reduceEqDiff, reduceCtorEq]

theorem vkeep : ∀ x0 x1, Statement (.vkeep x0 x1) := by
  intro x0 x1
  refine of_word rfl (fmt1 (K := 0x2a000002) (by decide) rfl).1 (fun hi => ?_)
  generalize hw : put _ _ _ = w
  obtain ⟨_, r0, r1, r2, y0, y1⟩ := fmt1 (K := 0x2a000002) (by decide) hw
  rw [major_15 (r1.trans (by decide))]
  have e0 : bitsAt 15 0 w = 2 := r2.trans (by decide)
  have e1 : bitsAt 1 31 w = 0 := r0.trans (by decide)
  simp only [decodeMajor15, e0, e1, y0, y1, and_true, and_false, false_and, reduceIte, Nat.reduceEqDiff, reduceCtorEq]

theorem vdead : ∀ x0 x1, Statement (.vdead x0 x1) := by
  intro x0 x1
  refine of_word rfl (fmt1 (K := 0x2a000003) (by decide) rfl).1 (fun hi => ?_)
  generalize hw : put _ _ _ = w
  obtain ⟨_, r0, r1, r2, y0, y1⟩ := fmt1 (K := 0x2a000003) (by decide) hw
  rw [major_15 (r1.trans (by decide))]
  have e0 : bitsAt 15 0 w = 3 := r2.trans (by decide)
  have e1 : bitsAt 1 31 w = 0 := r0.trans (by decide)
  simp only [decodeMajor15, e0, e1, y0, y1, and_true, and_false, false_and, reduceIte, Nat.reduceEqDiff, reduceCtorEq]

theorem vlmaxr : ∀ x0 x1 x2, Statement (.vlmaxr x0 x1 x2) := by
  intro x0 x1 x2
  refine of_word rfl (fmt0 (K := 0x2a000004) (by decide) rfl).1 (fun hi => ?_)
  generalize hw : put _ _ _ = w
  obtain ⟨_, r0, r1, r2, y0, y1, y2⟩ := fmt0 (K := 0x2a000004) (by decide) hw
  rw [major_15 (r1.trans (by decide))]
  have e0 : bitsAt 10 0 w = 4 := r2.trans (by decide)
  have e1 : bitsAt 1 31 w = 0 := r0.trans (by decide)
  have n0 : ¬ bitsAt 15 0 w = 0 := fun h => absurd (e0.symm.trans (bits_inside 0 10 h (by decide))) (by decide)
  have n1 : ¬ bitsAt 15 0 w = 1 := fun h => absurd (e0.symm.trans (bits_inside 0 10 h (by decide))) (by decide)
  have n2 : ¬ bitsAt 15 0 w = 2 := fun h => absurd (e0.symm.trans (bits_inside 0 10 h (by decide))) (by decide)
  have n3 : ¬ bitsAt 15 0 w = 3 := fun h => absurd (e0.symm.trans (bits_inside 0 10 h (by decide))) (by decide)
  simp only [decodeMajor15, e0, e1, n0, n1, n2, n3, y0, y1, y2, and_true, and_false, false_and, reduceIte, Nat.reduceEqDiff, reduceCtorEq]

theorem vindex : ∀ x0 x1 x2 x3 x4, Statement (.vindex x0 x1 x2 x3 x4) := by
  intro x0 x1 x2 x3 x4
  refine of_word rfl (fmt15 (K := 0x2c000000) (by decide) rfl).1 (fun hi => ?_)
  generalize hw : put _ _ _ = w
  obtain ⟨_, r0, y0, y1, y2, y3, y4⟩ := fmt15 (K := 0x2c000000) (by decide) hw
  rw [major_16 (r0.trans (by decide))]
  simp only [decodeMajor16, y0, y1, y2, y3, y4, and_true, and_false, false_and, reduceIte, Nat.reduceEqDiff, reduceCtorEq]

theorem pand : ∀ x0 x1 x2 x3 x4, Statement (.pand x0 x1 x2 x3 x4) := by
  intro x0 x1 x2 x3 x4
  refine of_word rfl (fmt16 (K := 0x2e000000) (by decide) rfl).1 (fun hi => ?_)
  generalize hw : put _ _ _ = w
  obtain ⟨_, r0, r1, y0, y1, y2, y3, y4⟩ := fmt16 (K := 0x2e000000) (by decide) hw
  rw [major_17 (r1.trans (by decide))]
  have e0 : bitsAt 5 0 w = 0 := r0.trans (by decide)
  simp only [decodeMajor17, e0, y0, y1, y2, y3, y4, and_true, and_false, false_and, reduceIte, Nat.reduceEqDiff, reduceCtorEq]

theorem por : ∀ x0 x1 x2 x3 x4, Statement (.por x0 x1 x2 x3 x4) := by
  intro x0 x1 x2 x3 x4
  refine of_word rfl (fmt16 (K := 0x2e000001) (by decide) rfl).1 (fun hi => ?_)
  generalize hw : put _ _ _ = w
  obtain ⟨_, r0, r1, y0, y1, y2, y3, y4⟩ := fmt16 (K := 0x2e000001) (by decide) hw
  rw [major_17 (r1.trans (by decide))]
  have e0 : bitsAt 5 0 w = 1 := r0.trans (by decide)
  simp only [decodeMajor17, e0, y0, y1, y2, y3, y4, and_true, and_false, false_and, reduceIte, Nat.reduceEqDiff, reduceCtorEq]

theorem pxor : ∀ x0 x1 x2 x3 x4, Statement (.pxor x0 x1 x2 x3 x4) := by
  intro x0 x1 x2 x3 x4
  refine of_word rfl (fmt16 (K := 0x2e000002) (by decide) rfl).1 (fun hi => ?_)
  generalize hw : put _ _ _ = w
  obtain ⟨_, r0, r1, y0, y1, y2, y3, y4⟩ := fmt16 (K := 0x2e000002) (by decide) hw
  rw [major_17 (r1.trans (by decide))]
  have e0 : bitsAt 5 0 w = 2 := r0.trans (by decide)
  simp only [decodeMajor17, e0, y0, y1, y2, y3, y4, and_true, and_false, false_and, reduceIte, Nat.reduceEqDiff, reduceCtorEq]

theorem pandn : ∀ x0 x1 x2 x3 x4, Statement (.pandn x0 x1 x2 x3 x4) := by
  intro x0 x1 x2 x3 x4
  refine of_word rfl (fmt16 (K := 0x2e000003) (by decide) rfl).1 (fun hi => ?_)
  generalize hw : put _ _ _ = w
  obtain ⟨_, r0, r1, y0, y1, y2, y3, y4⟩ := fmt16 (K := 0x2e000003) (by decide) hw
  rw [major_17 (r1.trans (by decide))]
  have e0 : bitsAt 5 0 w = 3 := r0.trans (by decide)
  simp only [decodeMajor17, e0, y0, y1, y2, y3, y4, and_true, and_false, false_and, reduceIte, Nat.reduceEqDiff, reduceCtorEq]

theorem pnot : ∀ x0 x1 x2 x3, Statement (.pnot x0 x1 x2 x3) := by
  intro x0 x1 x2 x3
  refine of_word rfl (fmt17 (K := 0x2e000004) (by decide) rfl).1 (fun hi => ?_)
  generalize hw : put _ _ _ = w
  obtain ⟨_, r0, r1, r2, y0, y1, y2, y3⟩ := fmt17 (K := 0x2e000004) (by decide) hw
  rw [major_17 (r2.trans (by decide))]
  have e0 : bitsAt 5 0 w = 4 := r0.trans (by decide)
  have e1 : bitsAt 5 10 w = 0 := r1.trans (by decide)
  simp only [decodeMajor17, e0, e1, y0, y1, y2, y3, and_true, and_false, false_and, reduceIte, Nat.reduceEqDiff, reduceCtorEq]

theorem pseta : ∀ x0 x1 x2, Statement (.pseta x0 x1 x2) := by
  intro x0 x1 x2
  refine of_word rfl (fmt18 (K := 0x2e000005) (by decide) rfl).1 (fun hi => ?_)
  generalize hw : put _ _ _ = w
  obtain ⟨_, r0, r1, r2, y0, y1, y2⟩ := fmt18 (K := 0x2e000005) (by decide) hw
  rw [major_17 (r1.trans (by decide))]
  have e0 : bitsAt 5 0 w = 5 := r0.trans (by decide)
  have e1 : bitsAt 10 10 w = 0 := r2.trans (by decide)
  simp only [decodeMajor17, e0, e1, y0, y1, y2, and_true, and_false, false_and, reduceIte, Nat.reduceEqDiff, reduceCtorEq]

theorem pfirst : ∀ x0 x1 x2 x3, Statement (.pfirst x0 x1 x2 x3) := by
  intro x0 x1 x2 x3
  refine of_word rfl (fmt17 (K := 0x2e000006) (by decide) rfl).1 (fun hi => ?_)
  generalize hw : put _ _ _ = w
  obtain ⟨_, r0, r1, r2, y0, y1, y2, y3⟩ := fmt17 (K := 0x2e000006) (by decide) hw
  rw [major_17 (r2.trans (by decide))]
  have e0 : bitsAt 5 0 w = 6 := r0.trans (by decide)
  have e1 : bitsAt 5 10 w = 0 := r1.trans (by decide)
  simp only [decodeMajor17, e0, e1, y0, y1, y2, y3, and_true, and_false, false_and, reduceIte, Nat.reduceEqDiff, reduceCtorEq]

theorem ppopc : ∀ x0 x1 x2 x3, Statement (.ppopc x0 x1 x2 x3) := by
  intro x0 x1 x2 x3
  refine of_word rfl (fmt17 (K := 0x2e000007) (by decide) rfl).1 (fun hi => ?_)
  generalize hw : put _ _ _ = w
  obtain ⟨_, r0, r1, r2, y0, y1, y2, y3⟩ := fmt17 (K := 0x2e000007) (by decide) hw
  rw [major_17 (r2.trans (by decide))]
  have e0 : bitsAt 5 0 w = 7 := r0.trans (by decide)
  have e1 : bitsAt 5 10 w = 0 := r1.trans (by decide)
  simp only [decodeMajor17, e0, e1, y0, y1, y2, y3, and_true, and_false, false_and, reduceIte, Nat.reduceEqDiff, reduceCtorEq]

theorem pscan : ∀ x0 x1 x2 x3, Statement (.pscan x0 x1 x2 x3) := by
  intro x0 x1 x2 x3
  refine of_word rfl (fmt17 (K := 0x2e000008) (by decide) rfl).1 (fun hi => ?_)
  generalize hw : put _ _ _ = w
  obtain ⟨_, r0, r1, r2, y0, y1, y2, y3⟩ := fmt17 (K := 0x2e000008) (by decide) hw
  rw [major_17 (r2.trans (by decide))]
  have e0 : bitsAt 5 0 w = 8 := r0.trans (by decide)
  have e1 : bitsAt 5 10 w = 0 := r1.trans (by decide)
  simp only [decodeMajor17, e0, e1, y0, y1, y2, y3, and_true, and_false, false_and, reduceIte, Nat.reduceEqDiff, reduceCtorEq]

theorem pmovl : ∀ x0 x1 x2 x3, Statement (.pmovl x0 x1 x2 x3) := by
  intro x0 x1 x2 x3
  refine of_word rfl (fmt19 (K := 0x2e000009) (by decide) rfl).1 (fun hi => ?_)
  generalize hw : put _ _ _ = w
  obtain ⟨_, r0, r1, r2, y0, y1, y2, y3⟩ := fmt19 (K := 0x2e000009) (by decide) hw
  rw [major_17 (r1.trans (by decide))]
  have e0 : bitsAt 10 0 w = 9 := r2.trans (by decide)
  have e1 : bitsAt 1 14 w = 0 := r0.trans (by decide)
  have n0 : ¬ bitsAt 5 0 w = 0 := fun h => absurd (h.symm.trans (bits_inside 0 5 e0 (by decide))) (by decide)
  have n1 : ¬ bitsAt 5 0 w = 1 := fun h => absurd (h.symm.trans (bits_inside 0 5 e0 (by decide))) (by decide)
  have n2 : ¬ bitsAt 5 0 w = 2 := fun h => absurd (h.symm.trans (bits_inside 0 5 e0 (by decide))) (by decide)
  have n3 : ¬ bitsAt 5 0 w = 3 := fun h => absurd (h.symm.trans (bits_inside 0 5 e0 (by decide))) (by decide)
  have n4 : ¬ bitsAt 5 0 w = 4 := fun h => absurd (h.symm.trans (bits_inside 0 5 e0 (by decide))) (by decide)
  have n5 : ¬ bitsAt 5 0 w = 5 := fun h => absurd (h.symm.trans (bits_inside 0 5 e0 (by decide))) (by decide)
  have n6 : ¬ bitsAt 5 0 w = 6 := fun h => absurd (h.symm.trans (bits_inside 0 5 e0 (by decide))) (by decide)
  have n7 : ¬ bitsAt 5 0 w = 7 := fun h => absurd (h.symm.trans (bits_inside 0 5 e0 (by decide))) (by decide)
  have n8 : ¬ bitsAt 5 0 w = 8 := fun h => absurd (h.symm.trans (bits_inside 0 5 e0 (by decide))) (by decide)
  simp only [decodeMajor17, e0, e1, n0, n1, n2, n3, n4, n5, n6, n7, n8, y0, y1, y2, y3, and_true, and_false, false_and, reduceIte, Nat.reduceEqDiff, reduceCtorEq]

theorem pld : ∀ x0 x1 x2 x3, Statement (.pld x0 x1 x2 x3) := by
  intro x0 x1 x2 x3
  refine of_word rfl (fmt20 (K := 0x2e00000a) (by decide) rfl).1 (fun hi => ?_)
  generalize hw : put _ _ _ = w
  obtain ⟨_, r0, r1, r2, y0, y1, y2, y3⟩ := fmt20 (K := 0x2e00000a) (by decide) hw
  rw [major_17 (r1.trans (by decide))]
  have e0 : bitsAt 10 0 w = 10 := r2.trans (by decide)
  have e1 : bitsAt 3 12 w = 0 := r0.trans (by decide)
  have n0 : ¬ bitsAt 5 0 w = 0 := fun h => absurd (h.symm.trans (bits_inside 0 5 e0 (by decide))) (by decide)
  have n1 : ¬ bitsAt 5 0 w = 1 := fun h => absurd (h.symm.trans (bits_inside 0 5 e0 (by decide))) (by decide)
  have n2 : ¬ bitsAt 5 0 w = 2 := fun h => absurd (h.symm.trans (bits_inside 0 5 e0 (by decide))) (by decide)
  have n3 : ¬ bitsAt 5 0 w = 3 := fun h => absurd (h.symm.trans (bits_inside 0 5 e0 (by decide))) (by decide)
  have n4 : ¬ bitsAt 5 0 w = 4 := fun h => absurd (h.symm.trans (bits_inside 0 5 e0 (by decide))) (by decide)
  have n5 : ¬ bitsAt 5 0 w = 5 := fun h => absurd (h.symm.trans (bits_inside 0 5 e0 (by decide))) (by decide)
  have n6 : ¬ bitsAt 5 0 w = 6 := fun h => absurd (h.symm.trans (bits_inside 0 5 e0 (by decide))) (by decide)
  have n7 : ¬ bitsAt 5 0 w = 7 := fun h => absurd (h.symm.trans (bits_inside 0 5 e0 (by decide))) (by decide)
  have n8 : ¬ bitsAt 5 0 w = 8 := fun h => absurd (h.symm.trans (bits_inside 0 5 e0 (by decide))) (by decide)
  simp only [decodeMajor17, e0, e1, n0, n1, n2, n3, n4, n5, n6, n7, n8, y0, y1, y2, y3, and_true, and_false, false_and, reduceIte, Nat.reduceEqDiff, reduceCtorEq]

theorem pst : ∀ x0 x1 x2 x3, Statement (.pst x0 x1 x2 x3) := by
  intro x0 x1 x2 x3
  refine of_word rfl (fmt20 (K := 0x2e00000b) (by decide) rfl).1 (fun hi => ?_)
  generalize hw : put _ _ _ = w
  obtain ⟨_, r0, r1, r2, y0, y1, y2, y3⟩ := fmt20 (K := 0x2e00000b) (by decide) hw
  rw [major_17 (r1.trans (by decide))]
  have e0 : bitsAt 10 0 w = 11 := r2.trans (by decide)
  have e1 : bitsAt 3 12 w = 0 := r0.trans (by decide)
  have n0 : ¬ bitsAt 5 0 w = 0 := fun h => absurd (h.symm.trans (bits_inside 0 5 e0 (by decide))) (by decide)
  have n1 : ¬ bitsAt 5 0 w = 1 := fun h => absurd (h.symm.trans (bits_inside 0 5 e0 (by decide))) (by decide)
  have n2 : ¬ bitsAt 5 0 w = 2 := fun h => absurd (h.symm.trans (bits_inside 0 5 e0 (by decide))) (by decide)
  have n3 : ¬ bitsAt 5 0 w = 3 := fun h => absurd (h.symm.trans (bits_inside 0 5 e0 (by decide))) (by decide)
  have n4 : ¬ bitsAt 5 0 w = 4 := fun h => absurd (h.symm.trans (bits_inside 0 5 e0 (by decide))) (by decide)
  have n5 : ¬ bitsAt 5 0 w = 5 := fun h => absurd (h.symm.trans (bits_inside 0 5 e0 (by decide))) (by decide)
  have n6 : ¬ bitsAt 5 0 w = 6 := fun h => absurd (h.symm.trans (bits_inside 0 5 e0 (by decide))) (by decide)
  have n7 : ¬ bitsAt 5 0 w = 7 := fun h => absurd (h.symm.trans (bits_inside 0 5 e0 (by decide))) (by decide)
  have n8 : ¬ bitsAt 5 0 w = 8 := fun h => absurd (h.symm.trans (bits_inside 0 5 e0 (by decide))) (by decide)
  simp only [decodeMajor17, e0, e1, n0, n1, n2, n3, n4, n5, n6, n7, n8, y0, y1, y2, y3, and_true, and_false, false_and, reduceIte, Nat.reduceEqDiff, reduceCtorEq]

theorem vld : ∀ x0 x1 x2 x3, Statement (.vld x0 x1 x2 x3) := by
  intro x0 x1 x2 x3
  refine of_word rfl (fmt17 (K := 0x30000000) (by decide) rfl).1 (fun hi => ?_)
  generalize hw : put _ _ _ = w
  obtain ⟨_, r0, r1, r2, y0, y1, y2, y3⟩ := fmt17 (K := 0x30000000) (by decide) hw
  rw [major_18 (r2.trans (by decide))]
  have e0 : bitsAt 5 0 w = 0 := r0.trans (by decide)
  have e1 : bitsAt 5 10 w = 0 := r1.trans (by decide)
  simp only [decodeMajor18, e0, e1, y0, y1, y2, y3, and_true, and_false, false_and, reduceIte, Nat.reduceEqDiff, reduceCtorEq]

theorem vldff : ∀ x0 x1 x2, Statement (.vldff x0 x1 x2) := by
  intro x0 x1 x2
  refine of_word rfl (fmt21 (K := 0x30000001) (by decide) rfl).1 (fun hi => ?_)
  generalize hw : put _ _ _ = w
  obtain ⟨_, r0, r1, r2, r3, y0, y1, y2⟩ := fmt21 (K := 0x30000001) (by decide) hw
  rw [major_18 (r3.trans (by decide))]
  have e0 : bitsAt 5 0 w = 1 := r1.trans (by decide)
  have e1 : bitsAt 5 10 w = 0 := r2.trans (by decide)
  have e2 : bitsAt 1 31 w = 0 := r0.trans (by decide)
  simp only [decodeMajor18, e0, e1, e2, y0, y1, y2, and_true, and_false, false_and, reduceIte, Nat.reduceEqDiff, reduceCtorEq]

theorem vlds : ∀ x0 x1 x2 x3 x4, Statement (.vlds x0 x1 x2 x3 x4) := by
  intro x0 x1 x2 x3 x4
  refine of_word rfl (fmt16 (K := 0x32000000) (by decide) rfl).1 (fun hi => ?_)
  generalize hw : put _ _ _ = w
  obtain ⟨_, r0, r1, y0, y1, y2, y3, y4⟩ := fmt16 (K := 0x32000000) (by decide) hw
  rw [major_19 (r1.trans (by decide))]
  have e0 : bitsAt 5 0 w = 0 := r0.trans (by decide)
  simp only [decodeMajor19, e0, y0, y1, y2, y3, y4, and_true, and_false, false_and, reduceIte, Nat.reduceEqDiff, reduceCtorEq]

theorem vldx : ∀ x0 x1 x2 x3 x4, Statement (.vldx x0 x1 x2 x3 x4) := by
  intro x0 x1 x2 x3 x4
  refine of_word rfl (fmt16 (K := 0x34000000) (by decide) rfl).1 (fun hi => ?_)
  generalize hw : put _ _ _ = w
  obtain ⟨_, r0, r1, y0, y1, y2, y3, y4⟩ := fmt16 (K := 0x34000000) (by decide) hw
  rw [major_1a (r1.trans (by decide))]
  have e0 : bitsAt 5 0 w = 0 := r0.trans (by decide)
  simp only [decodeMajor1a, e0, y0, y1, y2, y3, y4, and_true, and_false, false_and, reduceIte, Nat.reduceEqDiff, reduceCtorEq]

theorem vst : ∀ x0 x1 x2 x3, Statement (.vst x0 x1 x2 x3) := by
  intro x0 x1 x2 x3
  refine of_word rfl (fmt17 (K := 0x36000000) (by decide) rfl).1 (fun hi => ?_)
  generalize hw : put _ _ _ = w
  obtain ⟨_, r0, r1, r2, y0, y1, y2, y3⟩ := fmt17 (K := 0x36000000) (by decide) hw
  rw [major_1b (r2.trans (by decide))]
  have e0 : bitsAt 5 0 w = 0 := r0.trans (by decide)
  have e1 : bitsAt 5 10 w = 0 := r1.trans (by decide)
  simp only [decodeMajor1b, e0, e1, y0, y1, y2, y3, and_true, and_false, false_and, reduceIte, Nat.reduceEqDiff, reduceCtorEq]

theorem vsts : ∀ x0 x1 x2 x3 x4, Statement (.vsts x0 x1 x2 x3 x4) := by
  intro x0 x1 x2 x3 x4
  refine of_word rfl (fmt16 (K := 0x36000001) (by decide) rfl).1 (fun hi => ?_)
  generalize hw : put _ _ _ = w
  obtain ⟨_, r0, r1, y0, y1, y2, y3, y4⟩ := fmt16 (K := 0x36000001) (by decide) hw
  rw [major_1b (r1.trans (by decide))]
  have e0 : bitsAt 5 0 w = 1 := r0.trans (by decide)
  simp only [decodeMajor1b, e0, y0, y1, y2, y3, y4, and_true, and_false, false_and, reduceIte, Nat.reduceEqDiff, reduceCtorEq]

theorem vstx : ∀ x0 x1 x2 x3 x4, Statement (.vstx x0 x1 x2 x3 x4) := by
  intro x0 x1 x2 x3 x4
  refine of_word rfl (fmt16 (K := 0x36000002) (by decide) rfl).1 (fun hi => ?_)
  generalize hw : put _ _ _ = w
  obtain ⟨_, r0, r1, y0, y1, y2, y3, y4⟩ := fmt16 (K := 0x36000002) (by decide) hw
  rw [major_1b (r1.trans (by decide))]
  have e0 : bitsAt 5 0 w = 2 := r0.trans (by decide)
  simp only [decodeMajor1b, e0, y0, y1, y2, y3, y4, and_true, and_false, false_and, reduceIte, Nat.reduceEqDiff, reduceCtorEq]

theorem vstxo : ∀ x0 x1 x2 x3 x4, Statement (.vstxo x0 x1 x2 x3 x4) := by
  intro x0 x1 x2 x3 x4
  refine of_word rfl (fmt16 (K := 0x36000003) (by decide) rfl).1 (fun hi => ?_)
  generalize hw : put _ _ _ = w
  obtain ⟨_, r0, r1, y0, y1, y2, y3, y4⟩ := fmt16 (K := 0x36000003) (by decide) hw
  rw [major_1b (r1.trans (by decide))]
  have e0 : bitsAt 5 0 w = 3 := r0.trans (by decide)
  simp only [decodeMajor1b, e0, y0, y1, y2, y3, y4, and_true, and_false, false_and, reduceIte, Nat.reduceEqDiff, reduceCtorEq]

theorem vldbp : ∀ x0 x1 x2 x3 x4, Statement (.vldbp x0 x1 x2 x3 x4) := by
  intro x0 x1 x2 x3 x4
  refine of_word rfl (fmt16 (K := 0x38000000) (by decide) rfl).1 (fun hi => ?_)
  generalize hw : put _ _ _ = w
  obtain ⟨_, r0, r1, y0, y1, y2, y3, y4⟩ := fmt16 (K := 0x38000000) (by decide) hw
  rw [major_1c (r1.trans (by decide))]
  have e0 : bitsAt 5 0 w = 0 := r0.trans (by decide)
  simp only [decodeMajor1c, e0, y0, y1, y2, y3, y4, and_true, and_false, false_and, reduceIte, Nat.reduceEqDiff, reduceCtorEq]

theorem vstbp : ∀ x0 x1 x2 x3 x4, Statement (.vstbp x0 x1 x2 x3 x4) := by
  intro x0 x1 x2 x3 x4
  refine of_word rfl (fmt16 (K := 0x38000001) (by decide) rfl).1 (fun hi => ?_)
  generalize hw : put _ _ _ = w
  obtain ⟨_, r0, r1, y0, y1, y2, y3, y4⟩ := fmt16 (K := 0x38000001) (by decide) hw
  rw [major_1c (r1.trans (by decide))]
  have e0 : bitsAt 5 0 w = 1 := r0.trans (by decide)
  simp only [decodeMajor1c, e0, y0, y1, y2, y3, y4, and_true, and_false, false_and, reduceIte, Nat.reduceEqDiff, reduceCtorEq]

theorem vscatr : ∀ x0 x1 x2 x3, Statement (.vscatr x0 x1 x2 x3) := by
  intro x0 x1 x2 x3
  refine of_word rfl (fmt22 (K := 0x3a000000) (by decide) rfl).1 (fun hi => ?_)
  generalize hw : put _ _ _ = w
  obtain ⟨_, r0, r1, r2, y0, y1, y2, y3⟩ := fmt22 (K := 0x3a000000) (by decide) hw
  rw [major_1d (r2.trans (by decide))]
  have e0 : bitsAt 5 0 w = 0 := r1.trans (by decide)
  have e1 : bitsAt 1 31 w = 0 := r0.trans (by decide)
  simp only [decodeMajor1d, e0, e1, y0, y1, y2, y3, and_true, and_false, false_and, reduceIte, Nat.reduceEqDiff, reduceCtorEq]

theorem vputr : ∀ x0 x1 x2, Statement (.vputr x0 x1 x2) := by
  intro x0 x1 x2
  refine of_word rfl (fmt21 (K := 0x3a000001) (by decide) rfl).1 (fun hi => ?_)
  generalize hw : put _ _ _ = w
  obtain ⟨_, r0, r1, r2, r3, y0, y1, y2⟩ := fmt21 (K := 0x3a000001) (by decide) hw
  rw [major_1d (r3.trans (by decide))]
  have e0 : bitsAt 5 0 w = 1 := r1.trans (by decide)
  have e1 : bitsAt 5 10 w = 0 := r2.trans (by decide)
  have e2 : bitsAt 1 31 w = 0 := r0.trans (by decide)
  simp only [decodeMajor1d, e0, e1, e2, y0, y1, y2, and_true, and_false, false_and, reduceIte, Nat.reduceEqDiff, reduceCtorEq]

theorem vappend : ∀ x0 x1 x2, Statement (.vappend x0 x1 x2) := by
  intro x0 x1 x2
  refine of_word rfl (fmt23 (K := 0x3c000000) (by decide) rfl).1 (fun hi => ?_)
  generalize hw : put _ _ _ = w
  obtain ⟨_, r0, r1, r2, r3, y0, y1, y2⟩ := fmt23 (K := 0x3c000000) (by decide) hw
  rw [major_1e (r3.trans (by decide))]
  have e0 : bitsAt 5 0 w = 0 := r1.trans (by decide)
  have e1 : bitsAt 5 20 w = 0 := r2.trans (by decide)
  have e2 : bitsAt 1 31 w = 0 := r0.trans (by decide)
  simp only [decodeMajor1e, e0, e1, e2, y0, y1, y2, and_true, and_false, false_and, reduceIte, Nat.reduceEqDiff, reduceCtorEq]

theorem vqpop : ∀ x0 x1, Statement (.vqpop x0 x1) := by
  intro x0 x1
  refine of_word rfl (fmt1 (K := 0x3c000001) (by decide) rfl).1 (fun hi => ?_)
  generalize hw : put _ _ _ = w
  obtain ⟨_, r0, r1, r2, y0, y1⟩ := fmt1 (K := 0x3c000001) (by decide) hw
  rw [major_1e (r1.trans (by decide))]
  have e0 : bitsAt 15 0 w = 1 := r2.trans (by decide)
  have e1 : bitsAt 1 31 w = 0 := r0.trans (by decide)
  have n0 : ¬ bitsAt 5 0 w = 0 := fun h => absurd (h.symm.trans (bits_inside 0 5 e0 (by decide))) (by decide)
  simp only [decodeMajor1e, e0, e1, n0, y0, y1, and_true, and_false, false_and, reduceIte, Nat.reduceEqDiff, reduceCtorEq]

theorem vadd : ∀ x0 x1 x2 x3 x4, Statement (.vadd x0 x1 x2 x3 x4) := by
  intro x0 x1 x2 x3 x4
  refine of_word rfl (fmt16 (K := 0x40000000) (by decide) rfl).1 (fun hi => ?_)
  generalize hw : put _ _ _ = w
  obtain ⟨_, r0, r1, y0, y1, y2, y3, y4⟩ := fmt16 (K := 0x40000000) (by decide) hw
  rw [major_20 (r1.trans (by decide))]
  have e0 : bitsAt 5 0 w = 0 := r0.trans (by decide)
  simp only [decodeMajor20, e0, y0, y1, y2, y3, y4, and_true, and_false, false_and, reduceIte, Nat.reduceEqDiff, reduceCtorEq]

theorem vaddVs : ∀ x0 x1 x2 x3 x4, Statement (.vaddVs x0 x1 x2 x3 x4) := by
  intro x0 x1 x2 x3 x4
  refine of_word rfl (fmt16 (K := 0x40000010) (by decide) rfl).1 (fun hi => ?_)
  generalize hw : put _ _ _ = w
  obtain ⟨_, r0, r1, y0, y1, y2, y3, y4⟩ := fmt16 (K := 0x40000010) (by decide) hw
  rw [major_20 (r1.trans (by decide))]
  have e0 : bitsAt 5 0 w = 16 := r0.trans (by decide)
  simp only [decodeMajor20, e0, y0, y1, y2, y3, y4, and_true, and_false, false_and, reduceIte, Nat.reduceEqDiff, reduceCtorEq]

theorem vsub : ∀ x0 x1 x2 x3 x4, Statement (.vsub x0 x1 x2 x3 x4) := by
  intro x0 x1 x2 x3 x4
  refine of_word rfl (fmt16 (K := 0x40000001) (by decide) rfl).1 (fun hi => ?_)
  generalize hw : put _ _ _ = w
  obtain ⟨_, r0, r1, y0, y1, y2, y3, y4⟩ := fmt16 (K := 0x40000001) (by decide) hw
  rw [major_20 (r1.trans (by decide))]
  have e0 : bitsAt 5 0 w = 1 := r0.trans (by decide)
  simp only [decodeMajor20, e0, y0, y1, y2, y3, y4, and_true, and_false, false_and, reduceIte, Nat.reduceEqDiff, reduceCtorEq]

theorem vsubVs : ∀ x0 x1 x2 x3 x4, Statement (.vsubVs x0 x1 x2 x3 x4) := by
  intro x0 x1 x2 x3 x4
  refine of_word rfl (fmt16 (K := 0x40000011) (by decide) rfl).1 (fun hi => ?_)
  generalize hw : put _ _ _ = w
  obtain ⟨_, r0, r1, y0, y1, y2, y3, y4⟩ := fmt16 (K := 0x40000011) (by decide) hw
  rw [major_20 (r1.trans (by decide))]
  have e0 : bitsAt 5 0 w = 17 := r0.trans (by decide)
  simp only [decodeMajor20, e0, y0, y1, y2, y3, y4, and_true, and_false, false_and, reduceIte, Nat.reduceEqDiff, reduceCtorEq]

theorem vrsub : ∀ x0 x1 x2 x3 x4, Statement (.vrsub x0 x1 x2 x3 x4) := by
  intro x0 x1 x2 x3 x4
  refine of_word rfl (fmt16 (K := 0x40000002) (by decide) rfl).1 (fun hi => ?_)
  generalize hw : put _ _ _ = w
  obtain ⟨_, r0, r1, y0, y1, y2, y3, y4⟩ := fmt16 (K := 0x40000002) (by decide) hw
  rw [major_20 (r1.trans (by decide))]
  have e0 : bitsAt 5 0 w = 2 := r0.trans (by decide)
  simp only [decodeMajor20, e0, y0, y1, y2, y3, y4, and_true, and_false, false_and, reduceIte, Nat.reduceEqDiff, reduceCtorEq]

theorem vrsubVs : ∀ x0 x1 x2 x3 x4, Statement (.vrsubVs x0 x1 x2 x3 x4) := by
  intro x0 x1 x2 x3 x4
  refine of_word rfl (fmt16 (K := 0x40000012) (by decide) rfl).1 (fun hi => ?_)
  generalize hw : put _ _ _ = w
  obtain ⟨_, r0, r1, y0, y1, y2, y3, y4⟩ := fmt16 (K := 0x40000012) (by decide) hw
  rw [major_20 (r1.trans (by decide))]
  have e0 : bitsAt 5 0 w = 18 := r0.trans (by decide)
  simp only [decodeMajor20, e0, y0, y1, y2, y3, y4, and_true, and_false, false_and, reduceIte, Nat.reduceEqDiff, reduceCtorEq]

theorem vmul : ∀ x0 x1 x2 x3 x4, Statement (.vmul x0 x1 x2 x3 x4) := by
  intro x0 x1 x2 x3 x4
  refine of_word rfl (fmt16 (K := 0x40000003) (by decide) rfl).1 (fun hi => ?_)
  generalize hw : put _ _ _ = w
  obtain ⟨_, r0, r1, y0, y1, y2, y3, y4⟩ := fmt16 (K := 0x40000003) (by decide) hw
  rw [major_20 (r1.trans (by decide))]
  have e0 : bitsAt 5 0 w = 3 := r0.trans (by decide)
  simp only [decodeMajor20, e0, y0, y1, y2, y3, y4, and_true, and_false, false_and, reduceIte, Nat.reduceEqDiff, reduceCtorEq]

theorem vmulVs : ∀ x0 x1 x2 x3 x4, Statement (.vmulVs x0 x1 x2 x3 x4) := by
  intro x0 x1 x2 x3 x4
  refine of_word rfl (fmt16 (K := 0x40000013) (by decide) rfl).1 (fun hi => ?_)
  generalize hw : put _ _ _ = w
  obtain ⟨_, r0, r1, y0, y1, y2, y3, y4⟩ := fmt16 (K := 0x40000013) (by decide) hw
  rw [major_20 (r1.trans (by decide))]
  have e0 : bitsAt 5 0 w = 19 := r0.trans (by decide)
  simp only [decodeMajor20, e0, y0, y1, y2, y3, y4, and_true, and_false, false_and, reduceIte, Nat.reduceEqDiff, reduceCtorEq]

theorem vmulh : ∀ x0 x1 x2 x3 x4, Statement (.vmulh x0 x1 x2 x3 x4) := by
  intro x0 x1 x2 x3 x4
  refine of_word rfl (fmt16 (K := 0x40000004) (by decide) rfl).1 (fun hi => ?_)
  generalize hw : put _ _ _ = w
  obtain ⟨_, r0, r1, y0, y1, y2, y3, y4⟩ := fmt16 (K := 0x40000004) (by decide) hw
  rw [major_20 (r1.trans (by decide))]
  have e0 : bitsAt 5 0 w = 4 := r0.trans (by decide)
  simp only [decodeMajor20, e0, y0, y1, y2, y3, y4, and_true, and_false, false_and, reduceIte, Nat.reduceEqDiff, reduceCtorEq]

theorem vmulhVs : ∀ x0 x1 x2 x3 x4, Statement (.vmulhVs x0 x1 x2 x3 x4) := by
  intro x0 x1 x2 x3 x4
  refine of_word rfl (fmt16 (K := 0x40000014) (by decide) rfl).1 (fun hi => ?_)
  generalize hw : put _ _ _ = w
  obtain ⟨_, r0, r1, y0, y1, y2, y3, y4⟩ := fmt16 (K := 0x40000014) (by decide) hw
  rw [major_20 (r1.trans (by decide))]
  have e0 : bitsAt 5 0 w = 20 := r0.trans (by decide)
  simp only [decodeMajor20, e0, y0, y1, y2, y3, y4, and_true, and_false, false_and, reduceIte, Nat.reduceEqDiff, reduceCtorEq]

theorem vmulhn : ∀ x0 x1 x2 x3 x4, Statement (.vmulhn x0 x1 x2 x3 x4) := by
  intro x0 x1 x2 x3 x4
  refine of_word rfl (fmt16 (K := 0x40000005) (by decide) rfl).1 (fun hi => ?_)
  generalize hw : put _ _ _ = w
  obtain ⟨_, r0, r1, y0, y1, y2, y3, y4⟩ := fmt16 (K := 0x40000005) (by decide) hw
  rw [major_20 (r1.trans (by decide))]
  have e0 : bitsAt 5 0 w = 5 := r0.trans (by decide)
  simp only [decodeMajor20, e0, y0, y1, y2, y3, y4, and_true, and_false, false_and, reduceIte, Nat.reduceEqDiff, reduceCtorEq]

theorem vmulhnVs : ∀ x0 x1 x2 x3 x4, Statement (.vmulhnVs x0 x1 x2 x3 x4) := by
  intro x0 x1 x2 x3 x4
  refine of_word rfl (fmt16 (K := 0x40000015) (by decide) rfl).1 (fun hi => ?_)
  generalize hw : put _ _ _ = w
  obtain ⟨_, r0, r1, y0, y1, y2, y3, y4⟩ := fmt16 (K := 0x40000015) (by decide) hw
  rw [major_20 (r1.trans (by decide))]
  have e0 : bitsAt 5 0 w = 21 := r0.trans (by decide)
  simp only [decodeMajor20, e0, y0, y1, y2, y3, y4, and_true, and_false, false_and, reduceIte, Nat.reduceEqDiff, reduceCtorEq]

theorem vmin : ∀ x0 x1 x2 x3 x4, Statement (.vmin x0 x1 x2 x3 x4) := by
  intro x0 x1 x2 x3 x4
  refine of_word rfl (fmt16 (K := 0x40000006) (by decide) rfl).1 (fun hi => ?_)
  generalize hw : put _ _ _ = w
  obtain ⟨_, r0, r1, y0, y1, y2, y3, y4⟩ := fmt16 (K := 0x40000006) (by decide) hw
  rw [major_20 (r1.trans (by decide))]
  have e0 : bitsAt 5 0 w = 6 := r0.trans (by decide)
  simp only [decodeMajor20, e0, y0, y1, y2, y3, y4, and_true, and_false, false_and, reduceIte, Nat.reduceEqDiff, reduceCtorEq]

theorem vminVs : ∀ x0 x1 x2 x3 x4, Statement (.vminVs x0 x1 x2 x3 x4) := by
  intro x0 x1 x2 x3 x4
  refine of_word rfl (fmt16 (K := 0x40000016) (by decide) rfl).1 (fun hi => ?_)
  generalize hw : put _ _ _ = w
  obtain ⟨_, r0, r1, y0, y1, y2, y3, y4⟩ := fmt16 (K := 0x40000016) (by decide) hw
  rw [major_20 (r1.trans (by decide))]
  have e0 : bitsAt 5 0 w = 22 := r0.trans (by decide)
  simp only [decodeMajor20, e0, y0, y1, y2, y3, y4, and_true, and_false, false_and, reduceIte, Nat.reduceEqDiff, reduceCtorEq]

theorem vmax : ∀ x0 x1 x2 x3 x4, Statement (.vmax x0 x1 x2 x3 x4) := by
  intro x0 x1 x2 x3 x4
  refine of_word rfl (fmt16 (K := 0x40000007) (by decide) rfl).1 (fun hi => ?_)
  generalize hw : put _ _ _ = w
  obtain ⟨_, r0, r1, y0, y1, y2, y3, y4⟩ := fmt16 (K := 0x40000007) (by decide) hw
  rw [major_20 (r1.trans (by decide))]
  have e0 : bitsAt 5 0 w = 7 := r0.trans (by decide)
  simp only [decodeMajor20, e0, y0, y1, y2, y3, y4, and_true, and_false, false_and, reduceIte, Nat.reduceEqDiff, reduceCtorEq]

theorem vmaxVs : ∀ x0 x1 x2 x3 x4, Statement (.vmaxVs x0 x1 x2 x3 x4) := by
  intro x0 x1 x2 x3 x4
  refine of_word rfl (fmt16 (K := 0x40000017) (by decide) rfl).1 (fun hi => ?_)
  generalize hw : put _ _ _ = w
  obtain ⟨_, r0, r1, y0, y1, y2, y3, y4⟩ := fmt16 (K := 0x40000017) (by decide) hw
  rw [major_20 (r1.trans (by decide))]
  have e0 : bitsAt 5 0 w = 23 := r0.trans (by decide)
  simp only [decodeMajor20, e0, y0, y1, y2, y3, y4, and_true, and_false, false_and, reduceIte, Nat.reduceEqDiff, reduceCtorEq]

theorem vminn : ∀ x0 x1 x2 x3 x4, Statement (.vminn x0 x1 x2 x3 x4) := by
  intro x0 x1 x2 x3 x4
  refine of_word rfl (fmt16 (K := 0x40000008) (by decide) rfl).1 (fun hi => ?_)
  generalize hw : put _ _ _ = w
  obtain ⟨_, r0, r1, y0, y1, y2, y3, y4⟩ := fmt16 (K := 0x40000008) (by decide) hw
  rw [major_20 (r1.trans (by decide))]
  have e0 : bitsAt 5 0 w = 8 := r0.trans (by decide)
  simp only [decodeMajor20, e0, y0, y1, y2, y3, y4, and_true, and_false, false_and, reduceIte, Nat.reduceEqDiff, reduceCtorEq]

theorem vminnVs : ∀ x0 x1 x2 x3 x4, Statement (.vminnVs x0 x1 x2 x3 x4) := by
  intro x0 x1 x2 x3 x4
  refine of_word rfl (fmt16 (K := 0x40000018) (by decide) rfl).1 (fun hi => ?_)
  generalize hw : put _ _ _ = w
  obtain ⟨_, r0, r1, y0, y1, y2, y3, y4⟩ := fmt16 (K := 0x40000018) (by decide) hw
  rw [major_20 (r1.trans (by decide))]
  have e0 : bitsAt 5 0 w = 24 := r0.trans (by decide)
  simp only [decodeMajor20, e0, y0, y1, y2, y3, y4, and_true, and_false, false_and, reduceIte, Nat.reduceEqDiff, reduceCtorEq]

theorem vmaxn : ∀ x0 x1 x2 x3 x4, Statement (.vmaxn x0 x1 x2 x3 x4) := by
  intro x0 x1 x2 x3 x4
  refine of_word rfl (fmt16 (K := 0x40000009) (by decide) rfl).1 (fun hi => ?_)
  generalize hw : put _ _ _ = w
  obtain ⟨_, r0, r1, y0, y1, y2, y3, y4⟩ := fmt16 (K := 0x40000009) (by decide) hw
  rw [major_20 (r1.trans (by decide))]
  have e0 : bitsAt 5 0 w = 9 := r0.trans (by decide)
  simp only [decodeMajor20, e0, y0, y1, y2, y3, y4, and_true, and_false, false_and, reduceIte, Nat.reduceEqDiff, reduceCtorEq]

theorem vmaxnVs : ∀ x0 x1 x2 x3 x4, Statement (.vmaxnVs x0 x1 x2 x3 x4) := by
  intro x0 x1 x2 x3 x4
  refine of_word rfl (fmt16 (K := 0x40000019) (by decide) rfl).1 (fun hi => ?_)
  generalize hw : put _ _ _ = w
  obtain ⟨_, r0, r1, y0, y1, y2, y3, y4⟩ := fmt16 (K := 0x40000019) (by decide) hw
  rw [major_20 (r1.trans (by decide))]
  have e0 : bitsAt 5 0 w = 25 := r0.trans (by decide)
  simp only [decodeMajor20, e0, y0, y1, y2, y3, y4, and_true, and_false, false_and, reduceIte, Nat.reduceEqDiff, reduceCtorEq]

theorem vand : ∀ x0 x1 x2 x3 x4, Statement (.vand x0 x1 x2 x3 x4) := by
  intro x0 x1 x2 x3 x4
  refine of_word rfl (fmt16 (K := 0x4000000a) (by decide) rfl).1 (fun hi => ?_)
  generalize hw : put _ _ _ = w
  obtain ⟨_, r0, r1, y0, y1, y2, y3, y4⟩ := fmt16 (K := 0x4000000a) (by decide) hw
  rw [major_20 (r1.trans (by decide))]
  have e0 : bitsAt 5 0 w = 10 := r0.trans (by decide)
  simp only [decodeMajor20, e0, y0, y1, y2, y3, y4, and_true, and_false, false_and, reduceIte, Nat.reduceEqDiff, reduceCtorEq]

theorem vandVs : ∀ x0 x1 x2 x3 x4, Statement (.vandVs x0 x1 x2 x3 x4) := by
  intro x0 x1 x2 x3 x4
  refine of_word rfl (fmt16 (K := 0x4000001a) (by decide) rfl).1 (fun hi => ?_)
  generalize hw : put _ _ _ = w
  obtain ⟨_, r0, r1, y0, y1, y2, y3, y4⟩ := fmt16 (K := 0x4000001a) (by decide) hw
  rw [major_20 (r1.trans (by decide))]
  have e0 : bitsAt 5 0 w = 26 := r0.trans (by decide)
  simp only [decodeMajor20, e0, y0, y1, y2, y3, y4, and_true, and_false, false_and, reduceIte, Nat.reduceEqDiff, reduceCtorEq]

theorem vor : ∀ x0 x1 x2 x3 x4, Statement (.vor x0 x1 x2 x3 x4) := by
  intro x0 x1 x2 x3 x4
  refine of_word rfl (fmt16 (K := 0x4000000b) (by decide) rfl).1 (fun hi => ?_)
  generalize hw : put _ _ _ = w
  obtain ⟨_, r0, r1, y0, y1, y2, y3, y4⟩ := fmt16 (K := 0x4000000b) (by decide) hw
  rw [major_20 (r1.trans (by decide))]
  have e0 : bitsAt 5 0 w = 11 := r0.trans (by decide)
  simp only [decodeMajor20, e0, y0, y1, y2, y3, y4, and_true, and_false, false_and, reduceIte, Nat.reduceEqDiff, reduceCtorEq]

theorem vorVs : ∀ x0 x1 x2 x3 x4, Statement (.vorVs x0 x1 x2 x3 x4) := by
  intro x0 x1 x2 x3 x4
  refine of_word rfl (fmt16 (K := 0x4000001b) (by decide) rfl).1 (fun hi => ?_)
  generalize hw : put _ _ _ = w
  obtain ⟨_, r0, r1, y0, y1, y2, y3, y4⟩ := fmt16 (K := 0x4000001b) (by decide) hw
  rw [major_20 (r1.trans (by decide))]
  have e0 : bitsAt 5 0 w = 27 := r0.trans (by decide)
  simp only [decodeMajor20, e0, y0, y1, y2, y3, y4, and_true, and_false, false_and, reduceIte, Nat.reduceEqDiff, reduceCtorEq]

theorem vxor : ∀ x0 x1 x2 x3 x4, Statement (.vxor x0 x1 x2 x3 x4) := by
  intro x0 x1 x2 x3 x4
  refine of_word rfl (fmt16 (K := 0x4000000c) (by decide) rfl).1 (fun hi => ?_)
  generalize hw : put _ _ _ = w
  obtain ⟨_, r0, r1, y0, y1, y2, y3, y4⟩ := fmt16 (K := 0x4000000c) (by decide) hw
  rw [major_20 (r1.trans (by decide))]
  have e0 : bitsAt 5 0 w = 12 := r0.trans (by decide)
  simp only [decodeMajor20, e0, y0, y1, y2, y3, y4, and_true, and_false, false_and, reduceIte, Nat.reduceEqDiff, reduceCtorEq]

theorem vxorVs : ∀ x0 x1 x2 x3 x4, Statement (.vxorVs x0 x1 x2 x3 x4) := by
  intro x0 x1 x2 x3 x4
  refine of_word rfl (fmt16 (K := 0x4000001c) (by decide) rfl).1 (fun hi => ?_)
  generalize hw : put _ _ _ = w
  obtain ⟨_, r0, r1, y0, y1, y2, y3, y4⟩ := fmt16 (K := 0x4000001c) (by decide) hw
  rw [major_20 (r1.trans (by decide))]
  have e0 : bitsAt 5 0 w = 28 := r0.trans (by decide)
  simp only [decodeMajor20, e0, y0, y1, y2, y3, y4, and_true, and_false, false_and, reduceIte, Nat.reduceEqDiff, reduceCtorEq]

theorem vsll : ∀ x0 x1 x2 x3 x4, Statement (.vsll x0 x1 x2 x3 x4) := by
  intro x0 x1 x2 x3 x4
  refine of_word rfl (fmt16 (K := 0x4000000d) (by decide) rfl).1 (fun hi => ?_)
  generalize hw : put _ _ _ = w
  obtain ⟨_, r0, r1, y0, y1, y2, y3, y4⟩ := fmt16 (K := 0x4000000d) (by decide) hw
  rw [major_20 (r1.trans (by decide))]
  have e0 : bitsAt 5 0 w = 13 := r0.trans (by decide)
  simp only [decodeMajor20, e0, y0, y1, y2, y3, y4, and_true, and_false, false_and, reduceIte, Nat.reduceEqDiff, reduceCtorEq]

theorem vsllVs : ∀ x0 x1 x2 x3 x4, Statement (.vsllVs x0 x1 x2 x3 x4) := by
  intro x0 x1 x2 x3 x4
  refine of_word rfl (fmt16 (K := 0x4000001d) (by decide) rfl).1 (fun hi => ?_)
  generalize hw : put _ _ _ = w
  obtain ⟨_, r0, r1, y0, y1, y2, y3, y4⟩ := fmt16 (K := 0x4000001d) (by decide) hw
  rw [major_20 (r1.trans (by decide))]
  have e0 : bitsAt 5 0 w = 29 := r0.trans (by decide)
  simp only [decodeMajor20, e0, y0, y1, y2, y3, y4, and_true, and_false, false_and, reduceIte, Nat.reduceEqDiff, reduceCtorEq]

theorem vsrl : ∀ x0 x1 x2 x3 x4, Statement (.vsrl x0 x1 x2 x3 x4) := by
  intro x0 x1 x2 x3 x4
  refine of_word rfl (fmt16 (K := 0x4000000e) (by decide) rfl).1 (fun hi => ?_)
  generalize hw : put _ _ _ = w
  obtain ⟨_, r0, r1, y0, y1, y2, y3, y4⟩ := fmt16 (K := 0x4000000e) (by decide) hw
  rw [major_20 (r1.trans (by decide))]
  have e0 : bitsAt 5 0 w = 14 := r0.trans (by decide)
  simp only [decodeMajor20, e0, y0, y1, y2, y3, y4, and_true, and_false, false_and, reduceIte, Nat.reduceEqDiff, reduceCtorEq]

theorem vsrlVs : ∀ x0 x1 x2 x3 x4, Statement (.vsrlVs x0 x1 x2 x3 x4) := by
  intro x0 x1 x2 x3 x4
  refine of_word rfl (fmt16 (K := 0x4000001e) (by decide) rfl).1 (fun hi => ?_)
  generalize hw : put _ _ _ = w
  obtain ⟨_, r0, r1, y0, y1, y2, y3, y4⟩ := fmt16 (K := 0x4000001e) (by decide) hw
  rw [major_20 (r1.trans (by decide))]
  have e0 : bitsAt 5 0 w = 30 := r0.trans (by decide)
  simp only [decodeMajor20, e0, y0, y1, y2, y3, y4, and_true, and_false, false_and, reduceIte, Nat.reduceEqDiff, reduceCtorEq]

theorem vsra : ∀ x0 x1 x2 x3 x4, Statement (.vsra x0 x1 x2 x3 x4) := by
  intro x0 x1 x2 x3 x4
  refine of_word rfl (fmt16 (K := 0x4000000f) (by decide) rfl).1 (fun hi => ?_)
  generalize hw : put _ _ _ = w
  obtain ⟨_, r0, r1, y0, y1, y2, y3, y4⟩ := fmt16 (K := 0x4000000f) (by decide) hw
  rw [major_20 (r1.trans (by decide))]
  have e0 : bitsAt 5 0 w = 15 := r0.trans (by decide)
  simp only [decodeMajor20, e0, y0, y1, y2, y3, y4, and_true, and_false, false_and, reduceIte, Nat.reduceEqDiff, reduceCtorEq]

theorem vsraVs : ∀ x0 x1 x2 x3 x4, Statement (.vsraVs x0 x1 x2 x3 x4) := by
  intro x0 x1 x2 x3 x4
  refine of_word rfl (fmt16 (K := 0x4000001f) (by decide) rfl).1 (fun hi => ?_)
  generalize hw : put _ _ _ = w
  obtain ⟨_, r0, r1, y0, y1, y2, y3, y4⟩ := fmt16 (K := 0x4000001f) (by decide) hw
  rw [major_20 (r1.trans (by decide))]
  have e0 : bitsAt 5 0 w = 31 := r0.trans (by decide)
  simp only [decodeMajor20, e0, y0, y1, y2, y3, y4, and_true, and_false, false_and, reduceIte, Nat.reduceEqDiff, reduceCtorEq]

theorem vcmp : ∀ x0 x1 x2 x3 x4 x5, Statement (.vcmp x0 x1 x2 x3 x4 x5) := by
  intro x0 x1 x2 x3 x4 x5
  refine of_word rfl (fmt24 (K := 0x42000000) (by decide) rfl).1 (fun hi => ?_)
  generalize hw : put _ _ _ = w
  obtain ⟨_, r0, r1, y0, y1, y2, y3, y4, y5⟩ := fmt24 (K := 0x42000000) (by decide) hw
  rw [major_21 (r1.trans (by decide))]
  have e0 : bitsAt 1 4 w = 0 := r0.trans (by decide)
  simp only [decodeMajor21, e0, y0, y1, y2, y3, y4, y5, and_true, and_false, false_and, reduceIte, Nat.reduceEqDiff, reduceCtorEq]

theorem vcmpVs : ∀ x0 x1 x2 x3 x4 x5, Statement (.vcmpVs x0 x1 x2 x3 x4 x5) := by
  intro x0 x1 x2 x3 x4 x5
  refine of_word rfl (fmt24 (K := 0x42000010) (by decide) rfl).1 (fun hi => ?_)
  generalize hw : put _ _ _ = w
  obtain ⟨_, r0, r1, y0, y1, y2, y3, y4, y5⟩ := fmt24 (K := 0x42000010) (by decide) hw
  rw [major_21 (r1.trans (by decide))]
  have e0 : bitsAt 1 4 w = 1 := r0.trans (by decide)
  simp only [decodeMajor21, e0, y0, y1, y2, y3, y4, y5, and_true, and_false, false_and, reduceIte, Nat.reduceEqDiff, reduceCtorEq]

theorem vqadd : ∀ x0 x1 x2 x3 x4, Statement (.vqadd x0 x1 x2 x3 x4) := by
  intro x0 x1 x2 x3 x4
  refine of_word rfl (fmt16 (K := 0x44000000) (by decide) rfl).1 (fun hi => ?_)
  generalize hw : put _ _ _ = w
  obtain ⟨_, r0, r1, y0, y1, y2, y3, y4⟩ := fmt16 (K := 0x44000000) (by decide) hw
  rw [major_22 (r1.trans (by decide))]
  have e0 : bitsAt 5 0 w = 0 := r0.trans (by decide)
  simp only [decodeMajor22, e0, y0, y1, y2, y3, y4, and_true, and_false, false_and, reduceIte, Nat.reduceEqDiff, reduceCtorEq]

theorem vqaddVs : ∀ x0 x1 x2 x3 x4, Statement (.vqaddVs x0 x1 x2 x3 x4) := by
  intro x0 x1 x2 x3 x4
  refine of_word rfl (fmt16 (K := 0x44000010) (by decide) rfl).1 (fun hi => ?_)
  generalize hw : put _ _ _ = w
  obtain ⟨_, r0, r1, y0, y1, y2, y3, y4⟩ := fmt16 (K := 0x44000010) (by decide) hw
  rw [major_22 (r1.trans (by decide))]
  have e0 : bitsAt 5 0 w = 16 := r0.trans (by decide)
  simp only [decodeMajor22, e0, y0, y1, y2, y3, y4, and_true, and_false, false_and, reduceIte, Nat.reduceEqDiff, reduceCtorEq]

theorem vqsub : ∀ x0 x1 x2 x3 x4, Statement (.vqsub x0 x1 x2 x3 x4) := by
  intro x0 x1 x2 x3 x4
  refine of_word rfl (fmt16 (K := 0x44000001) (by decide) rfl).1 (fun hi => ?_)
  generalize hw : put _ _ _ = w
  obtain ⟨_, r0, r1, y0, y1, y2, y3, y4⟩ := fmt16 (K := 0x44000001) (by decide) hw
  rw [major_22 (r1.trans (by decide))]
  have e0 : bitsAt 5 0 w = 1 := r0.trans (by decide)
  simp only [decodeMajor22, e0, y0, y1, y2, y3, y4, and_true, and_false, false_and, reduceIte, Nat.reduceEqDiff, reduceCtorEq]

theorem vqsubVs : ∀ x0 x1 x2 x3 x4, Statement (.vqsubVs x0 x1 x2 x3 x4) := by
  intro x0 x1 x2 x3 x4
  refine of_word rfl (fmt16 (K := 0x44000011) (by decide) rfl).1 (fun hi => ?_)
  generalize hw : put _ _ _ = w
  obtain ⟨_, r0, r1, y0, y1, y2, y3, y4⟩ := fmt16 (K := 0x44000011) (by decide) hw
  rw [major_22 (r1.trans (by decide))]
  have e0 : bitsAt 5 0 w = 17 := r0.trans (by decide)
  simp only [decodeMajor22, e0, y0, y1, y2, y3, y4, and_true, and_false, false_and, reduceIte, Nat.reduceEqDiff, reduceCtorEq]

theorem vqmul : ∀ x0 x1 x2 x3 x4, Statement (.vqmul x0 x1 x2 x3 x4) := by
  intro x0 x1 x2 x3 x4
  refine of_word rfl (fmt16 (K := 0x44000002) (by decide) rfl).1 (fun hi => ?_)
  generalize hw : put _ _ _ = w
  obtain ⟨_, r0, r1, y0, y1, y2, y3, y4⟩ := fmt16 (K := 0x44000002) (by decide) hw
  rw [major_22 (r1.trans (by decide))]
  have e0 : bitsAt 5 0 w = 2 := r0.trans (by decide)
  simp only [decodeMajor22, e0, y0, y1, y2, y3, y4, and_true, and_false, false_and, reduceIte, Nat.reduceEqDiff, reduceCtorEq]

theorem vqmulVs : ∀ x0 x1 x2 x3 x4, Statement (.vqmulVs x0 x1 x2 x3 x4) := by
  intro x0 x1 x2 x3 x4
  refine of_word rfl (fmt16 (K := 0x44000012) (by decide) rfl).1 (fun hi => ?_)
  generalize hw : put _ _ _ = w
  obtain ⟨_, r0, r1, y0, y1, y2, y3, y4⟩ := fmt16 (K := 0x44000012) (by decide) hw
  rw [major_22 (r1.trans (by decide))]
  have e0 : bitsAt 5 0 w = 18 := r0.trans (by decide)
  simp only [decodeMajor22, e0, y0, y1, y2, y3, y4, and_true, and_false, false_and, reduceIte, Nat.reduceEqDiff, reduceCtorEq]

theorem vshrrnd : ∀ x0 x1 x2 x3 x4, Statement (.vshrrnd x0 x1 x2 x3 x4) := by
  intro x0 x1 x2 x3 x4
  refine of_word rfl (fmt16 (K := 0x44000003) (by decide) rfl).1 (fun hi => ?_)
  generalize hw : put _ _ _ = w
  obtain ⟨_, r0, r1, y0, y1, y2, y3, y4⟩ := fmt16 (K := 0x44000003) (by decide) hw
  rw [major_22 (r1.trans (by decide))]
  have e0 : bitsAt 5 0 w = 3 := r0.trans (by decide)
  simp only [decodeMajor22, e0, y0, y1, y2, y3, y4, and_true, and_false, false_and, reduceIte, Nat.reduceEqDiff, reduceCtorEq]

theorem vshrrndVs : ∀ x0 x1 x2 x3 x4, Statement (.vshrrndVs x0 x1 x2 x3 x4) := by
  intro x0 x1 x2 x3 x4
  refine of_word rfl (fmt16 (K := 0x44000013) (by decide) rfl).1 (fun hi => ?_)
  generalize hw : put _ _ _ = w
  obtain ⟨_, r0, r1, y0, y1, y2, y3, y4⟩ := fmt16 (K := 0x44000013) (by decide) hw
  rw [major_22 (r1.trans (by decide))]
  have e0 : bitsAt 5 0 w = 19 := r0.trans (by decide)
  simp only [decodeMajor22, e0, y0, y1, y2, y3, y4, and_true, and_false, false_and, reduceIte, Nat.reduceEqDiff, reduceCtorEq]

theorem vsatn : ∀ x0 x1 x2 x3 x4, Statement (.vsatn x0 x1 x2 x3 x4) := by
  intro x0 x1 x2 x3 x4
  refine of_word rfl (fmt16 (K := 0x44000004) (by decide) rfl).1 (fun hi => ?_)
  generalize hw : put _ _ _ = w
  obtain ⟨_, r0, r1, y0, y1, y2, y3, y4⟩ := fmt16 (K := 0x44000004) (by decide) hw
  rw [major_22 (r1.trans (by decide))]
  have e0 : bitsAt 5 0 w = 4 := r0.trans (by decide)
  simp only [decodeMajor22, e0, y0, y1, y2, y3, y4, and_true, and_false, false_and, reduceIte, Nat.reduceEqDiff, reduceCtorEq]

theorem vsatnVs : ∀ x0 x1 x2 x3 x4, Statement (.vsatnVs x0 x1 x2 x3 x4) := by
  intro x0 x1 x2 x3 x4
  refine of_word rfl (fmt16 (K := 0x44000014) (by decide) rfl).1 (fun hi => ?_)
  generalize hw : put _ _ _ = w
  obtain ⟨_, r0, r1, y0, y1, y2, y3, y4⟩ := fmt16 (K := 0x44000014) (by decide) hw
  rw [major_22 (r1.trans (by decide))]
  have e0 : bitsAt 5 0 w = 20 := r0.trans (by decide)
  simp only [decodeMajor22, e0, y0, y1, y2, y3, y4, and_true, and_false, false_and, reduceIte, Nat.reduceEqDiff, reduceCtorEq]

theorem vhead : ∀ x0 x1 x2 x3, Statement (.vhead x0 x1 x2 x3) := by
  intro x0 x1 x2 x3
  refine of_word rfl (fmt17 (K := 0x44000005) (by decide) rfl).1 (fun hi => ?_)
  generalize hw : put _ _ _ = w
  obtain ⟨_, r0, r1, r2, y0, y1, y2, y3⟩ := fmt17 (K := 0x44000005) (by decide) hw
  rw [major_22 (r2.trans (by decide))]
  have e0 : bitsAt 5 0 w = 5 := r0.trans (by decide)
  have e1 : bitsAt 5 10 w = 0 := r1.trans (by decide)
  simp only [decodeMajor22, e0, e1, y0, y1, y2, y3, and_true, and_false, false_and, reduceIte, Nat.reduceEqDiff, reduceCtorEq]

theorem vqneg : ∀ x0 x1 x2 x3, Statement (.vqneg x0 x1 x2 x3) := by
  intro x0 x1 x2 x3
  refine of_word rfl (fmt17 (K := 0x44000006) (by decide) rfl).1 (fun hi => ?_)
  generalize hw : put _ _ _ = w
  obtain ⟨_, r0, r1, r2, y0, y1, y2, y3⟩ := fmt17 (K := 0x44000006) (by decide) hw
  rw [major_22 (r2.trans (by decide))]
  have e0 : bitsAt 5 0 w = 6 := r0.trans (by decide)
  have e1 : bitsAt 5 10 w = 0 := r1.trans (by decide)
  simp only [decodeMajor22, e0, e1, y0, y1, y2, y3, and_true, and_false, false_and, reduceIte, Nat.reduceEqDiff, reduceCtorEq]

theorem vqabs : ∀ x0 x1 x2 x3, Statement (.vqabs x0 x1 x2 x3) := by
  intro x0 x1 x2 x3
  refine of_word rfl (fmt17 (K := 0x44000007) (by decide) rfl).1 (fun hi => ?_)
  generalize hw : put _ _ _ = w
  obtain ⟨_, r0, r1, r2, y0, y1, y2, y3⟩ := fmt17 (K := 0x44000007) (by decide) hw
  rw [major_22 (r2.trans (by decide))]
  have e0 : bitsAt 5 0 w = 7 := r0.trans (by decide)
  have e1 : bitsAt 5 10 w = 0 := r1.trans (by decide)
  simp only [decodeMajor22, e0, e1, y0, y1, y2, y3, and_true, and_false, false_and, reduceIte, Nat.reduceEqDiff, reduceCtorEq]

theorem vfadd : ∀ x0 x1 x2 x3 x4, Statement (.vfadd x0 x1 x2 x3 x4) := by
  intro x0 x1 x2 x3 x4
  refine of_word rfl (fmt16 (K := 0x46000000) (by decide) rfl).1 (fun hi => ?_)
  generalize hw : put _ _ _ = w
  obtain ⟨_, r0, r1, y0, y1, y2, y3, y4⟩ := fmt16 (K := 0x46000000) (by decide) hw
  rw [major_23 (r1.trans (by decide))]
  have e0 : bitsAt 5 0 w = 0 := r0.trans (by decide)
  simp only [decodeMajor23, e0, y0, y1, y2, y3, y4, and_true, and_false, false_and, reduceIte, Nat.reduceEqDiff, reduceCtorEq]

theorem vfaddVs : ∀ x0 x1 x2 x3 x4, Statement (.vfaddVs x0 x1 x2 x3 x4) := by
  intro x0 x1 x2 x3 x4
  refine of_word rfl (fmt16 (K := 0x46000010) (by decide) rfl).1 (fun hi => ?_)
  generalize hw : put _ _ _ = w
  obtain ⟨_, r0, r1, y0, y1, y2, y3, y4⟩ := fmt16 (K := 0x46000010) (by decide) hw
  rw [major_23 (r1.trans (by decide))]
  have e0 : bitsAt 5 0 w = 16 := r0.trans (by decide)
  simp only [decodeMajor23, e0, y0, y1, y2, y3, y4, and_true, and_false, false_and, reduceIte, Nat.reduceEqDiff, reduceCtorEq]

theorem vfsub : ∀ x0 x1 x2 x3 x4, Statement (.vfsub x0 x1 x2 x3 x4) := by
  intro x0 x1 x2 x3 x4
  refine of_word rfl (fmt16 (K := 0x46000001) (by decide) rfl).1 (fun hi => ?_)
  generalize hw : put _ _ _ = w
  obtain ⟨_, r0, r1, y0, y1, y2, y3, y4⟩ := fmt16 (K := 0x46000001) (by decide) hw
  rw [major_23 (r1.trans (by decide))]
  have e0 : bitsAt 5 0 w = 1 := r0.trans (by decide)
  simp only [decodeMajor23, e0, y0, y1, y2, y3, y4, and_true, and_false, false_and, reduceIte, Nat.reduceEqDiff, reduceCtorEq]

theorem vfsubVs : ∀ x0 x1 x2 x3 x4, Statement (.vfsubVs x0 x1 x2 x3 x4) := by
  intro x0 x1 x2 x3 x4
  refine of_word rfl (fmt16 (K := 0x46000011) (by decide) rfl).1 (fun hi => ?_)
  generalize hw : put _ _ _ = w
  obtain ⟨_, r0, r1, y0, y1, y2, y3, y4⟩ := fmt16 (K := 0x46000011) (by decide) hw
  rw [major_23 (r1.trans (by decide))]
  have e0 : bitsAt 5 0 w = 17 := r0.trans (by decide)
  simp only [decodeMajor23, e0, y0, y1, y2, y3, y4, and_true, and_false, false_and, reduceIte, Nat.reduceEqDiff, reduceCtorEq]

theorem vfmul : ∀ x0 x1 x2 x3 x4, Statement (.vfmul x0 x1 x2 x3 x4) := by
  intro x0 x1 x2 x3 x4
  refine of_word rfl (fmt16 (K := 0x46000002) (by decide) rfl).1 (fun hi => ?_)
  generalize hw : put _ _ _ = w
  obtain ⟨_, r0, r1, y0, y1, y2, y3, y4⟩ := fmt16 (K := 0x46000002) (by decide) hw
  rw [major_23 (r1.trans (by decide))]
  have e0 : bitsAt 5 0 w = 2 := r0.trans (by decide)
  simp only [decodeMajor23, e0, y0, y1, y2, y3, y4, and_true, and_false, false_and, reduceIte, Nat.reduceEqDiff, reduceCtorEq]

theorem vfmulVs : ∀ x0 x1 x2 x3 x4, Statement (.vfmulVs x0 x1 x2 x3 x4) := by
  intro x0 x1 x2 x3 x4
  refine of_word rfl (fmt16 (K := 0x46000012) (by decide) rfl).1 (fun hi => ?_)
  generalize hw : put _ _ _ = w
  obtain ⟨_, r0, r1, y0, y1, y2, y3, y4⟩ := fmt16 (K := 0x46000012) (by decide) hw
  rw [major_23 (r1.trans (by decide))]
  have e0 : bitsAt 5 0 w = 18 := r0.trans (by decide)
  simp only [decodeMajor23, e0, y0, y1, y2, y3, y4, and_true, and_false, false_and, reduceIte, Nat.reduceEqDiff, reduceCtorEq]

theorem vfdiv : ∀ x0 x1 x2 x3 x4, Statement (.vfdiv x0 x1 x2 x3 x4) := by
  intro x0 x1 x2 x3 x4
  refine of_word rfl (fmt16 (K := 0x46000003) (by decide) rfl).1 (fun hi => ?_)
  generalize hw : put _ _ _ = w
  obtain ⟨_, r0, r1, y0, y1, y2, y3, y4⟩ := fmt16 (K := 0x46000003) (by decide) hw
  rw [major_23 (r1.trans (by decide))]
  have e0 : bitsAt 5 0 w = 3 := r0.trans (by decide)
  simp only [decodeMajor23, e0, y0, y1, y2, y3, y4, and_true, and_false, false_and, reduceIte, Nat.reduceEqDiff, reduceCtorEq]

theorem vfdivVs : ∀ x0 x1 x2 x3 x4, Statement (.vfdivVs x0 x1 x2 x3 x4) := by
  intro x0 x1 x2 x3 x4
  refine of_word rfl (fmt16 (K := 0x46000013) (by decide) rfl).1 (fun hi => ?_)
  generalize hw : put _ _ _ = w
  obtain ⟨_, r0, r1, y0, y1, y2, y3, y4⟩ := fmt16 (K := 0x46000013) (by decide) hw
  rw [major_23 (r1.trans (by decide))]
  have e0 : bitsAt 5 0 w = 19 := r0.trans (by decide)
  simp only [decodeMajor23, e0, y0, y1, y2, y3, y4, and_true, and_false, false_and, reduceIte, Nat.reduceEqDiff, reduceCtorEq]

theorem vfmin : ∀ x0 x1 x2 x3 x4, Statement (.vfmin x0 x1 x2 x3 x4) := by
  intro x0 x1 x2 x3 x4
  refine of_word rfl (fmt16 (K := 0x46000004) (by decide) rfl).1 (fun hi => ?_)
  generalize hw : put _ _ _ = w
  obtain ⟨_, r0, r1, y0, y1, y2, y3, y4⟩ := fmt16 (K := 0x46000004) (by decide) hw
  rw [major_23 (r1.trans (by decide))]
  have e0 : bitsAt 5 0 w = 4 := r0.trans (by decide)
  simp only [decodeMajor23, e0, y0, y1, y2, y3, y4, and_true, and_false, false_and, reduceIte, Nat.reduceEqDiff, reduceCtorEq]

theorem vfminVs : ∀ x0 x1 x2 x3 x4, Statement (.vfminVs x0 x1 x2 x3 x4) := by
  intro x0 x1 x2 x3 x4
  refine of_word rfl (fmt16 (K := 0x46000014) (by decide) rfl).1 (fun hi => ?_)
  generalize hw : put _ _ _ = w
  obtain ⟨_, r0, r1, y0, y1, y2, y3, y4⟩ := fmt16 (K := 0x46000014) (by decide) hw
  rw [major_23 (r1.trans (by decide))]
  have e0 : bitsAt 5 0 w = 20 := r0.trans (by decide)
  simp only [decodeMajor23, e0, y0, y1, y2, y3, y4, and_true, and_false, false_and, reduceIte, Nat.reduceEqDiff, reduceCtorEq]

theorem vfmax : ∀ x0 x1 x2 x3 x4, Statement (.vfmax x0 x1 x2 x3 x4) := by
  intro x0 x1 x2 x3 x4
  refine of_word rfl (fmt16 (K := 0x46000005) (by decide) rfl).1 (fun hi => ?_)
  generalize hw : put _ _ _ = w
  obtain ⟨_, r0, r1, y0, y1, y2, y3, y4⟩ := fmt16 (K := 0x46000005) (by decide) hw
  rw [major_23 (r1.trans (by decide))]
  have e0 : bitsAt 5 0 w = 5 := r0.trans (by decide)
  simp only [decodeMajor23, e0, y0, y1, y2, y3, y4, and_true, and_false, false_and, reduceIte, Nat.reduceEqDiff, reduceCtorEq]

theorem vfmaxVs : ∀ x0 x1 x2 x3 x4, Statement (.vfmaxVs x0 x1 x2 x3 x4) := by
  intro x0 x1 x2 x3 x4
  refine of_word rfl (fmt16 (K := 0x46000015) (by decide) rfl).1 (fun hi => ?_)
  generalize hw : put _ _ _ = w
  obtain ⟨_, r0, r1, y0, y1, y2, y3, y4⟩ := fmt16 (K := 0x46000015) (by decide) hw
  rw [major_23 (r1.trans (by decide))]
  have e0 : bitsAt 5 0 w = 21 := r0.trans (by decide)
  simp only [decodeMajor23, e0, y0, y1, y2, y3, y4, and_true, and_false, false_and, reduceIte, Nat.reduceEqDiff, reduceCtorEq]

theorem vfma : ∀ x0 x1 x2 x3 x4, Statement (.vfma x0 x1 x2 x3 x4) := by
  intro x0 x1 x2 x3 x4
  refine of_word rfl (fmt16 (K := 0x46000006) (by decide) rfl).1 (fun hi => ?_)
  generalize hw : put _ _ _ = w
  obtain ⟨_, r0, r1, y0, y1, y2, y3, y4⟩ := fmt16 (K := 0x46000006) (by decide) hw
  rw [major_23 (r1.trans (by decide))]
  have e0 : bitsAt 5 0 w = 6 := r0.trans (by decide)
  simp only [decodeMajor23, e0, y0, y1, y2, y3, y4, and_true, and_false, false_and, reduceIte, Nat.reduceEqDiff, reduceCtorEq]

theorem vfmaVs : ∀ x0 x1 x2 x3 x4, Statement (.vfmaVs x0 x1 x2 x3 x4) := by
  intro x0 x1 x2 x3 x4
  refine of_word rfl (fmt16 (K := 0x46000016) (by decide) rfl).1 (fun hi => ?_)
  generalize hw : put _ _ _ = w
  obtain ⟨_, r0, r1, y0, y1, y2, y3, y4⟩ := fmt16 (K := 0x46000016) (by decide) hw
  rw [major_23 (r1.trans (by decide))]
  have e0 : bitsAt 5 0 w = 22 := r0.trans (by decide)
  simp only [decodeMajor23, e0, y0, y1, y2, y3, y4, and_true, and_false, false_and, reduceIte, Nat.reduceEqDiff, reduceCtorEq]

theorem vfms : ∀ x0 x1 x2 x3 x4, Statement (.vfms x0 x1 x2 x3 x4) := by
  intro x0 x1 x2 x3 x4
  refine of_word rfl (fmt16 (K := 0x46000007) (by decide) rfl).1 (fun hi => ?_)
  generalize hw : put _ _ _ = w
  obtain ⟨_, r0, r1, y0, y1, y2, y3, y4⟩ := fmt16 (K := 0x46000007) (by decide) hw
  rw [major_23 (r1.trans (by decide))]
  have e0 : bitsAt 5 0 w = 7 := r0.trans (by decide)
  simp only [decodeMajor23, e0, y0, y1, y2, y3, y4, and_true, and_false, false_and, reduceIte, Nat.reduceEqDiff, reduceCtorEq]

theorem vfmsVs : ∀ x0 x1 x2 x3 x4, Statement (.vfmsVs x0 x1 x2 x3 x4) := by
  intro x0 x1 x2 x3 x4
  refine of_word rfl (fmt16 (K := 0x46000017) (by decide) rfl).1 (fun hi => ?_)
  generalize hw : put _ _ _ = w
  obtain ⟨_, r0, r1, y0, y1, y2, y3, y4⟩ := fmt16 (K := 0x46000017) (by decide) hw
  rw [major_23 (r1.trans (by decide))]
  have e0 : bitsAt 5 0 w = 23 := r0.trans (by decide)
  simp only [decodeMajor23, e0, y0, y1, y2, y3, y4, and_true, and_false, false_and, reduceIte, Nat.reduceEqDiff, reduceCtorEq]

theorem vfnma : ∀ x0 x1 x2 x3 x4, Statement (.vfnma x0 x1 x2 x3 x4) := by
  intro x0 x1 x2 x3 x4
  refine of_word rfl (fmt16 (K := 0x46000008) (by decide) rfl).1 (fun hi => ?_)
  generalize hw : put _ _ _ = w
  obtain ⟨_, r0, r1, y0, y1, y2, y3, y4⟩ := fmt16 (K := 0x46000008) (by decide) hw
  rw [major_23 (r1.trans (by decide))]
  have e0 : bitsAt 5 0 w = 8 := r0.trans (by decide)
  simp only [decodeMajor23, e0, y0, y1, y2, y3, y4, and_true, and_false, false_and, reduceIte, Nat.reduceEqDiff, reduceCtorEq]

theorem vfnmaVs : ∀ x0 x1 x2 x3 x4, Statement (.vfnmaVs x0 x1 x2 x3 x4) := by
  intro x0 x1 x2 x3 x4
  refine of_word rfl (fmt16 (K := 0x46000018) (by decide) rfl).1 (fun hi => ?_)
  generalize hw : put _ _ _ = w
  obtain ⟨_, r0, r1, y0, y1, y2, y3, y4⟩ := fmt16 (K := 0x46000018) (by decide) hw
  rw [major_23 (r1.trans (by decide))]
  have e0 : bitsAt 5 0 w = 24 := r0.trans (by decide)
  simp only [decodeMajor23, e0, y0, y1, y2, y3, y4, and_true, and_false, false_and, reduceIte, Nat.reduceEqDiff, reduceCtorEq]

theorem vfclamp : ∀ x0 x1 x2 x3 x4, Statement (.vfclamp x0 x1 x2 x3 x4) := by
  intro x0 x1 x2 x3 x4
  refine of_word rfl (fmt16 (K := 0x46000009) (by decide) rfl).1 (fun hi => ?_)
  generalize hw : put _ _ _ = w
  obtain ⟨_, r0, r1, y0, y1, y2, y3, y4⟩ := fmt16 (K := 0x46000009) (by decide) hw
  rw [major_23 (r1.trans (by decide))]
  have e0 : bitsAt 5 0 w = 9 := r0.trans (by decide)
  simp only [decodeMajor23, e0, y0, y1, y2, y3, y4, and_true, and_false, false_and, reduceIte, Nat.reduceEqDiff, reduceCtorEq]

theorem vfclampVs : ∀ x0 x1 x2 x3 x4, Statement (.vfclampVs x0 x1 x2 x3 x4) := by
  intro x0 x1 x2 x3 x4
  refine of_word rfl (fmt16 (K := 0x46000019) (by decide) rfl).1 (fun hi => ?_)
  generalize hw : put _ _ _ = w
  obtain ⟨_, r0, r1, y0, y1, y2, y3, y4⟩ := fmt16 (K := 0x46000019) (by decide) hw
  rw [major_23 (r1.trans (by decide))]
  have e0 : bitsAt 5 0 w = 25 := r0.trans (by decide)
  simp only [decodeMajor23, e0, y0, y1, y2, y3, y4, and_true, and_false, false_and, reduceIte, Nat.reduceEqDiff, reduceCtorEq]

theorem vfsqrt : ∀ x0 x1 x2 x3, Statement (.vfsqrt x0 x1 x2 x3) := by
  intro x0 x1 x2 x3
  refine of_word rfl (fmt17 (K := 0x4600000a) (by decide) rfl).1 (fun hi => ?_)
  generalize hw : put _ _ _ = w
  obtain ⟨_, r0, r1, r2, y0, y1, y2, y3⟩ := fmt17 (K := 0x4600000a) (by decide) hw
  rw [major_23 (r2.trans (by decide))]
  have e0 : bitsAt 5 0 w = 10 := r0.trans (by decide)
  have e1 : bitsAt 5 10 w = 0 := r1.trans (by decide)
  simp only [decodeMajor23, e0, e1, y0, y1, y2, y3, and_true, and_false, false_and, reduceIte, Nat.reduceEqDiff, reduceCtorEq]

theorem vfabs : ∀ x0 x1 x2 x3, Statement (.vfabs x0 x1 x2 x3) := by
  intro x0 x1 x2 x3
  refine of_word rfl (fmt17 (K := 0x4600000b) (by decide) rfl).1 (fun hi => ?_)
  generalize hw : put _ _ _ = w
  obtain ⟨_, r0, r1, r2, y0, y1, y2, y3⟩ := fmt17 (K := 0x4600000b) (by decide) hw
  rw [major_23 (r2.trans (by decide))]
  have e0 : bitsAt 5 0 w = 11 := r0.trans (by decide)
  have e1 : bitsAt 5 10 w = 0 := r1.trans (by decide)
  simp only [decodeMajor23, e0, e1, y0, y1, y2, y3, and_true, and_false, false_and, reduceIte, Nat.reduceEqDiff, reduceCtorEq]

theorem vfneg : ∀ x0 x1 x2 x3, Statement (.vfneg x0 x1 x2 x3) := by
  intro x0 x1 x2 x3
  refine of_word rfl (fmt17 (K := 0x4600000c) (by decide) rfl).1 (fun hi => ?_)
  generalize hw : put _ _ _ = w
  obtain ⟨_, r0, r1, r2, y0, y1, y2, y3⟩ := fmt17 (K := 0x4600000c) (by decide) hw
  rw [major_23 (r2.trans (by decide))]
  have e0 : bitsAt 5 0 w = 12 := r0.trans (by decide)
  have e1 : bitsAt 5 10 w = 0 := r1.trans (by decide)
  simp only [decodeMajor23, e0, e1, y0, y1, y2, y3, and_true, and_false, false_and, reduceIte, Nat.reduceEqDiff, reduceCtorEq]

theorem vcvt : ∀ x0 x1 x2 x3 x4, Statement (.vcvt x0 x1 x2 x3 x4) := by
  intro x0 x1 x2 x3 x4
  refine of_word rfl (fmt25 (K := 0x48000000) (by decide) rfl).1 (fun hi => ?_)
  generalize hw : put _ _ _ = w
  obtain ⟨_, r0, r1, r2, y0, y1, y2, y3, y4⟩ := fmt25 (K := 0x48000000) (by decide) hw
  rw [major_24 (r2.trans (by decide))]
  have e0 : bitsAt 5 0 w = 0 := r1.trans (by decide)
  have e1 : bitsAt 1 14 w = 0 := r0.trans (by decide)
  simp only [decodeMajor24, e0, e1, y0, y1, y2, y3, y4, and_true, and_false, false_and, reduceIte, Nat.reduceEqDiff, reduceCtorEq]

theorem vwiden : ∀ x0 x1 x2 x3 x4, Statement (.vwiden x0 x1 x2 x3 x4) := by
  intro x0 x1 x2 x3 x4
  refine of_word rfl (fmt25 (K := 0x48000001) (by decide) rfl).1 (fun hi => ?_)
  generalize hw : put _ _ _ = w
  obtain ⟨_, r0, r1, r2, y0, y1, y2, y3, y4⟩ := fmt25 (K := 0x48000001) (by decide) hw
  rw [major_24 (r2.trans (by decide))]
  have e0 : bitsAt 5 0 w = 1 := r1.trans (by decide)
  have e1 : bitsAt 1 14 w = 0 := r0.trans (by decide)
  simp only [decodeMajor24, e0, e1, y0, y1, y2, y3, y4, and_true, and_false, false_and, reduceIte, Nat.reduceEqDiff, reduceCtorEq]

theorem vnarrow : ∀ x0 x1 x2 x3 x4, Statement (.vnarrow x0 x1 x2 x3 x4) := by
  intro x0 x1 x2 x3 x4
  refine of_word rfl (fmt25 (K := 0x48000002) (by decide) rfl).1 (fun hi => ?_)
  generalize hw : put _ _ _ = w
  obtain ⟨_, r0, r1, r2, y0, y1, y2, y3, y4⟩ := fmt25 (K := 0x48000002) (by decide) hw
  rw [major_24 (r2.trans (by decide))]
  have e0 : bitsAt 5 0 w = 2 := r1.trans (by decide)
  have e1 : bitsAt 1 14 w = 0 := r0.trans (by decide)
  simp only [decodeMajor24, e0, e1, y0, y1, y2, y3, y4, and_true, and_false, false_and, reduceIte, Nat.reduceEqDiff, reduceCtorEq]

theorem vabs : ∀ x0 x1 x2 x3, Statement (.vabs x0 x1 x2 x3) := by
  intro x0 x1 x2 x3
  refine of_word rfl (fmt17 (K := 0x4a000000) (by decide) rfl).1 (fun hi => ?_)
  generalize hw : put _ _ _ = w
  obtain ⟨_, r0, r1, r2, y0, y1, y2, y3⟩ := fmt17 (K := 0x4a000000) (by decide) hw
  rw [major_25 (r2.trans (by decide))]
  have e0 : bitsAt 5 0 w = 0 := r0.trans (by decide)
  have e1 : bitsAt 5 10 w = 0 := r1.trans (by decide)
  simp only [decodeMajor25, e0, e1, y0, y1, y2, y3, and_true, and_false, false_and, reduceIte, Nat.reduceEqDiff, reduceCtorEq]

theorem vneg : ∀ x0 x1 x2 x3, Statement (.vneg x0 x1 x2 x3) := by
  intro x0 x1 x2 x3
  refine of_word rfl (fmt17 (K := 0x4a000001) (by decide) rfl).1 (fun hi => ?_)
  generalize hw : put _ _ _ = w
  obtain ⟨_, r0, r1, r2, y0, y1, y2, y3⟩ := fmt17 (K := 0x4a000001) (by decide) hw
  rw [major_25 (r2.trans (by decide))]
  have e0 : bitsAt 5 0 w = 1 := r0.trans (by decide)
  have e1 : bitsAt 5 10 w = 0 := r1.trans (by decide)
  simp only [decodeMajor25, e0, e1, y0, y1, y2, y3, and_true, and_false, false_and, reduceIte, Nat.reduceEqDiff, reduceCtorEq]

theorem vclz : ∀ x0 x1 x2 x3, Statement (.vclz x0 x1 x2 x3) := by
  intro x0 x1 x2 x3
  refine of_word rfl (fmt17 (K := 0x4a000002) (by decide) rfl).1 (fun hi => ?_)
  generalize hw : put _ _ _ = w
  obtain ⟨_, r0, r1, r2, y0, y1, y2, y3⟩ := fmt17 (K := 0x4a000002) (by decide) hw
  rw [major_25 (r2.trans (by decide))]
  have e0 : bitsAt 5 0 w = 2 := r0.trans (by decide)
  have e1 : bitsAt 5 10 w = 0 := r1.trans (by decide)
  simp only [decodeMajor25, e0, e1, y0, y1, y2, y3, and_true, and_false, false_and, reduceIte, Nat.reduceEqDiff, reduceCtorEq]

theorem vpopc : ∀ x0 x1 x2 x3, Statement (.vpopc x0 x1 x2 x3) := by
  intro x0 x1 x2 x3
  refine of_word rfl (fmt17 (K := 0x4a000003) (by decide) rfl).1 (fun hi => ?_)
  generalize hw : put _ _ _ = w
  obtain ⟨_, r0, r1, r2, y0, y1, y2, y3⟩ := fmt17 (K := 0x4a000003) (by decide) hw
  rw [major_25 (r2.trans (by decide))]
  have e0 : bitsAt 5 0 w = 3 := r0.trans (by decide)
  have e1 : bitsAt 5 10 w = 0 := r1.trans (by decide)
  simp only [decodeMajor25, e0, e1, y0, y1, y2, y3, and_true, and_false, false_and, reduceIte, Nat.reduceEqDiff, reduceCtorEq]

theorem vmov : ∀ x0 x1 x2 x3, Statement (.vmov x0 x1 x2 x3) := by
  intro x0 x1 x2 x3
  refine of_word rfl (fmt17 (K := 0x4a000004) (by decide) rfl).1 (fun hi => ?_)
  generalize hw : put _ _ _ = w
  obtain ⟨_, r0, r1, r2, y0, y1, y2, y3⟩ := fmt17 (K := 0x4a000004) (by decide) hw
  rw [major_25 (r2.trans (by decide))]
  have e0 : bitsAt 5 0 w = 4 := r0.trans (by decide)
  have e1 : bitsAt 5 10 w = 0 := r1.trans (by decide)
  simp only [decodeMajor25, e0, e1, y0, y1, y2, y3, and_true, and_false, false_and, reduceIte, Nat.reduceEqDiff, reduceCtorEq]

theorem vmovs : ∀ x0 x1 x2 x3, Statement (.vmovs x0 x1 x2 x3) := by
  intro x0 x1 x2 x3
  refine of_word rfl (fmt26 (K := 0x4a000005) (by decide) rfl).1 (fun hi => ?_)
  generalize hw : put _ _ _ = w
  obtain ⟨_, r0, r1, r2, y0, y1, y2, y3⟩ := fmt26 (K := 0x4a000005) (by decide) hw
  rw [major_25 (r2.trans (by decide))]
  have e0 : bitsAt 5 0 w = 5 := r0.trans (by decide)
  have e1 : bitsAt 5 15 w = 0 := r1.trans (by decide)
  simp only [decodeMajor25, e0, e1, y0, y1, y2, y3, and_true, and_false, false_and, reduceIte, Nat.reduceEqDiff, reduceCtorEq]

theorem vmovx : ∀ x0 x1 x2 x3, Statement (.vmovx x0 x1 x2 x3) := by
  intro x0 x1 x2 x3
  refine of_word rfl (fmt27 (K := 0x4a000006) (by decide) rfl).1 (fun hi => ?_)
  generalize hw : put _ _ _ = w
  obtain ⟨_, r0, r1, y0, y1, y2, y3⟩ := fmt27 (K := 0x4a000006) (by decide) hw
  rw [major_25 (r0.trans (by decide))]
  have e0 : bitsAt 10 0 w = 6 := r1.trans (by decide)
  have n0 : ¬ bitsAt 5 0 w = 0 := fun h => absurd (h.symm.trans (bits_inside 0 5 e0 (by decide))) (by decide)
  have n1 : ¬ bitsAt 5 0 w = 1 := fun h => absurd (h.symm.trans (bits_inside 0 5 e0 (by decide))) (by decide)
  have n2 : ¬ bitsAt 5 0 w = 2 := fun h => absurd (h.symm.trans (bits_inside 0 5 e0 (by decide))) (by decide)
  have n3 : ¬ bitsAt 5 0 w = 3 := fun h => absurd (h.symm.trans (bits_inside 0 5 e0 (by decide))) (by decide)
  have n4 : ¬ bitsAt 5 0 w = 4 := fun h => absurd (h.symm.trans (bits_inside 0 5 e0 (by decide))) (by decide)
  have n5 : ¬ bitsAt 5 0 w = 5 := fun h => absurd (h.symm.trans (bits_inside 0 5 e0 (by decide))) (by decide)
  simp only [decodeMajor25, e0, n0, n1, n2, n3, n4, n5, y0, y1, y2, y3, and_true, and_false, false_and, reduceIte, Nat.reduceEqDiff, reduceCtorEq]

theorem vins : ∀ x0 x1 x2 x3, Statement (.vins x0 x1 x2 x3) := by
  intro x0 x1 x2 x3
  refine of_word rfl (fmt27 (K := 0x4a000007) (by decide) rfl).1 (fun hi => ?_)
  generalize hw : put _ _ _ = w
  obtain ⟨_, r0, r1, y0, y1, y2, y3⟩ := fmt27 (K := 0x4a000007) (by decide) hw
  rw [major_25 (r0.trans (by decide))]
  have e0 : bitsAt 10 0 w = 7 := r1.trans (by decide)
  have n0 : ¬ bitsAt 5 0 w = 0 := fun h => absurd (h.symm.trans (bits_inside 0 5 e0 (by decide))) (by decide)
  have n1 : ¬ bitsAt 5 0 w = 1 := fun h => absurd (h.symm.trans (bits_inside 0 5 e0 (by decide))) (by decide)
  have n2 : ¬ bitsAt 5 0 w = 2 := fun h => absurd (h.symm.trans (bits_inside 0 5 e0 (by decide))) (by decide)
  have n3 : ¬ bitsAt 5 0 w = 3 := fun h => absurd (h.symm.trans (bits_inside 0 5 e0 (by decide))) (by decide)
  have n4 : ¬ bitsAt 5 0 w = 4 := fun h => absurd (h.symm.trans (bits_inside 0 5 e0 (by decide))) (by decide)
  have n5 : ¬ bitsAt 5 0 w = 5 := fun h => absurd (h.symm.trans (bits_inside 0 5 e0 (by decide))) (by decide)
  simp only [decodeMajor25, e0, n0, n1, n2, n3, n4, n5, y0, y1, y2, y3, and_true, and_false, false_and, reduceIte, Nat.reduceEqDiff, reduceCtorEq]

theorem vsel : ∀ x0 x1 x2 x3 x4, Statement (.vsel x0 x1 x2 x3 x4) := by
  intro x0 x1 x2 x3 x4
  refine of_word rfl (fmt16 (K := 0x4c000000) (by decide) rfl).1 (fun hi => ?_)
  generalize hw : put _ _ _ = w
  obtain ⟨_, r0, r1, y0, y1, y2, y3, y4⟩ := fmt16 (K := 0x4c000000) (by decide) hw
  rw [major_26 (r1.trans (by decide))]
  have e0 : bitsAt 5 0 w = 0 := r0.trans (by decide)
  simp only [decodeMajor26, e0, y0, y1, y2, y3, y4, and_true, and_false, false_and, reduceIte, Nat.reduceEqDiff, reduceCtorEq]

theorem vcompr : ∀ x0 x1 x2 x3, Statement (.vcompr x0 x1 x2 x3) := by
  intro x0 x1 x2 x3
  refine of_word rfl (fmt17 (K := 0x4c000001) (by decide) rfl).1 (fun hi => ?_)
  generalize hw : put _ _ _ = w
  obtain ⟨_, r0, r1, r2, y0, y1, y2, y3⟩ := fmt17 (K := 0x4c000001) (by decide) hw
  rw [major_26 (r2.trans (by decide))]
  have e0 : bitsAt 5 0 w = 1 := r0.trans (by decide)
  have e1 : bitsAt 5 10 w = 0 := r1.trans (by decide)
  simp only [decodeMajor26, e0, e1, y0, y1, y2, y3, and_true, and_false, false_and, reduceIte, Nat.reduceEqDiff, reduceCtorEq]

theorem vexpnd : ∀ x0 x1 x2 x3, Statement (.vexpnd x0 x1 x2 x3) := by
  intro x0 x1 x2 x3
  refine of_word rfl (fmt17 (K := 0x4c000002) (by decide) rfl).1 (fun hi => ?_)
  generalize hw : put _ _ _ = w
  obtain ⟨_, r0, r1, r2, y0, y1, y2, y3⟩ := fmt17 (K := 0x4c000002) (by decide) hw
  rw [major_26 (r2.trans (by decide))]
  have e0 : bitsAt 5 0 w = 2 := r0.trans (by decide)
  have e1 : bitsAt 5 10 w = 0 := r1.trans (by decide)
  simp only [decodeMajor26, e0, e1, y0, y1, y2, y3, and_true, and_false, false_and, reduceIte, Nat.reduceEqDiff, reduceCtorEq]

theorem vslideup : ∀ x0 x1 x2 x3 x4, Statement (.vslideup x0 x1 x2 x3 x4) := by
  intro x0 x1 x2 x3 x4
  refine of_word rfl (fmt16 (K := 0x4c000003) (by decide) rfl).1 (fun hi => ?_)
  generalize hw : put _ _ _ = w
  obtain ⟨_, r0, r1, y0, y1, y2, y3, y4⟩ := fmt16 (K := 0x4c000003) (by decide) hw
  rw [major_26 (r1.trans (by decide))]
  have e0 : bitsAt 5 0 w = 3 := r0.trans (by decide)
  simp only [decodeMajor26, e0, y0, y1, y2, y3, y4, and_true, and_false, false_and, reduceIte, Nat.reduceEqDiff, reduceCtorEq]

theorem vslidedn : ∀ x0 x1 x2 x3 x4, Statement (.vslidedn x0 x1 x2 x3 x4) := by
  intro x0 x1 x2 x3 x4
  refine of_word rfl (fmt16 (K := 0x4c000004) (by decide) rfl).1 (fun hi => ?_)
  generalize hw : put _ _ _ = w
  obtain ⟨_, r0, r1, y0, y1, y2, y3, y4⟩ := fmt16 (K := 0x4c000004) (by decide) hw
  rw [major_26 (r1.trans (by decide))]
  have e0 : bitsAt 5 0 w = 4 := r0.trans (by decide)
  simp only [decodeMajor26, e0, y0, y1, y2, y3, y4, and_true, and_false, false_and, reduceIte, Nat.reduceEqDiff, reduceCtorEq]

theorem vrev : ∀ x0 x1 x2 x3, Statement (.vrev x0 x1 x2 x3) := by
  intro x0 x1 x2 x3
  refine of_word rfl (fmt17 (K := 0x4c000005) (by decide) rfl).1 (fun hi => ?_)
  generalize hw : put _ _ _ = w
  obtain ⟨_, r0, r1, r2, y0, y1, y2, y3⟩ := fmt17 (K := 0x4c000005) (by decide) hw
  rw [major_26 (r2.trans (by decide))]
  have e0 : bitsAt 5 0 w = 5 := r0.trans (by decide)
  have e1 : bitsAt 5 10 w = 0 := r1.trans (by decide)
  simp only [decodeMajor26, e0, e1, y0, y1, y2, y3, and_true, and_false, false_and, reduceIte, Nat.reduceEqDiff, reduceCtorEq]

theorem vred : ∀ x0 x1 x2 x3 x4 x5, Statement (.vred x0 x1 x2 x3 x4 x5) := by
  intro x0 x1 x2 x3 x4 x5
  refine of_word rfl (fmt28 (K := 0x50000000) (by decide) rfl).1 (fun hi => ?_)
  generalize hw : put _ _ _ = w
  obtain ⟨_, r0, r1, r2, y0, y1, y2, y3, y4, y5⟩ := fmt28 (K := 0x50000000) (by decide) hw
  rw [major_28 (r2.trans (by decide))]
  have e0 : bitsAt 5 0 w = 0 := r1.trans (by decide)
  have e1 : bitsAt 1 14 w = 0 := r0.trans (by decide)
  simp only [decodeMajor28, e0, e1, y0, y1, y2, y3, y4, y5, and_true, and_false, false_and, reduceIte, Nat.reduceEqDiff, reduceCtorEq]

theorem vfred : ∀ x0 x1 x2 x3 x4 x5, Statement (.vfred x0 x1 x2 x3 x4 x5) := by
  intro x0 x1 x2 x3 x4 x5
  refine of_word rfl (fmt28 (K := 0x50000001) (by decide) rfl).1 (fun hi => ?_)
  generalize hw : put _ _ _ = w
  obtain ⟨_, r0, r1, r2, y0, y1, y2, y3, y4, y5⟩ := fmt28 (K := 0x50000001) (by decide) hw
  rw [major_28 (r2.trans (by decide))]
  have e0 : bitsAt 5 0 w = 1 := r1.trans (by decide)
  have e1 : bitsAt 1 14 w = 0 := r0.trans (by decide)
  simp only [decodeMajor28, e0, e1, y0, y1, y2, y3, y4, y5, and_true, and_false, false_and, reduceIte, Nat.reduceEqDiff, reduceCtorEq]

theorem vcred : ∀ x0 x1 x2 x3 x4 x5, Statement (.vcred x0 x1 x2 x3 x4 x5) := by
  intro x0 x1 x2 x3 x4 x5
  refine of_word rfl (fmt28 (K := 0x50000002) (by decide) rfl).1 (fun hi => ?_)
  generalize hw : put _ _ _ = w
  obtain ⟨_, r0, r1, r2, y0, y1, y2, y3, y4, y5⟩ := fmt28 (K := 0x50000002) (by decide) hw
  rw [major_28 (r2.trans (by decide))]
  have e0 : bitsAt 5 0 w = 2 := r1.trans (by decide)
  have e1 : bitsAt 1 14 w = 0 := r0.trans (by decide)
  simp only [decodeMajor28, e0, e1, y0, y1, y2, y3, y4, y5, and_true, and_false, false_and, reduceIte, Nat.reduceEqDiff, reduceCtorEq]

theorem vcadd : ∀ x0 x1 x2 x3 x4, Statement (.vcadd x0 x1 x2 x3 x4) := by
  intro x0 x1 x2 x3 x4
  refine of_word rfl (fmt16 (K := 0x58000000) (by decide) rfl).1 (fun hi => ?_)
  generalize hw : put _ _ _ = w
  obtain ⟨_, r0, r1, y0, y1, y2, y3, y4⟩ := fmt16 (K := 0x58000000) (by decide) hw
  rw [major_2c (r1.trans (by decide))]
  have e0 : bitsAt 5 0 w = 0 := r0.trans (by decide)
  simp only [decodeMajor2c, e0, y0, y1, y2, y3, y4, and_true, and_false, false_and, reduceIte, Nat.reduceEqDiff, reduceCtorEq]

theorem vcaddVs : ∀ x0 x1 x2 x3 x4, Statement (.vcaddVs x0 x1 x2 x3 x4) := by
  intro x0 x1 x2 x3 x4
  refine of_word rfl (fmt16 (K := 0x58000010) (by decide) rfl).1 (fun hi => ?_)
  generalize hw : put _ _ _ = w
  obtain ⟨_, r0, r1, y0, y1, y2, y3, y4⟩ := fmt16 (K := 0x58000010) (by decide) hw
  rw [major_2c (r1.trans (by decide))]
  have e0 : bitsAt 5 0 w = 16 := r0.trans (by decide)
  simp only [decodeMajor2c, e0, y0, y1, y2, y3, y4, and_true, and_false, false_and, reduceIte, Nat.reduceEqDiff, reduceCtorEq]

theorem vcsub : ∀ x0 x1 x2 x3 x4, Statement (.vcsub x0 x1 x2 x3 x4) := by
  intro x0 x1 x2 x3 x4
  refine of_word rfl (fmt16 (K := 0x58000001) (by decide) rfl).1 (fun hi => ?_)
  generalize hw : put _ _ _ = w
  obtain ⟨_, r0, r1, y0, y1, y2, y3, y4⟩ := fmt16 (K := 0x58000001) (by decide) hw
  rw [major_2c (r1.trans (by decide))]
  have e0 : bitsAt 5 0 w = 1 := r0.trans (by decide)
  simp only [decodeMajor2c, e0, y0, y1, y2, y3, y4, and_true, and_false, false_and, reduceIte, Nat.reduceEqDiff, reduceCtorEq]

theorem vcsubVs : ∀ x0 x1 x2 x3 x4, Statement (.vcsubVs x0 x1 x2 x3 x4) := by
  intro x0 x1 x2 x3 x4
  refine of_word rfl (fmt16 (K := 0x58000011) (by decide) rfl).1 (fun hi => ?_)
  generalize hw : put _ _ _ = w
  obtain ⟨_, r0, r1, y0, y1, y2, y3, y4⟩ := fmt16 (K := 0x58000011) (by decide) hw
  rw [major_2c (r1.trans (by decide))]
  have e0 : bitsAt 5 0 w = 17 := r0.trans (by decide)
  simp only [decodeMajor2c, e0, y0, y1, y2, y3, y4, and_true, and_false, false_and, reduceIte, Nat.reduceEqDiff, reduceCtorEq]

theorem vcmul : ∀ x0 x1 x2 x3 x4 x5, Statement (.vcmul x0 x1 x2 x3 x4 x5) := by
  intro x0 x1 x2 x3 x4 x5
  refine of_word rfl (fmt29 (K := 0x58000002) (by decide) rfl).1 (fun hi => ?_)
  generalize hw : put _ _ _ = w
  obtain ⟨_, r0, r1, r2, y0, y1, y2, y3, y4, y5⟩ := fmt29 (K := 0x58000002) (by decide) hw
  rw [major_2c (r2.trans (by decide))]
  have e0 : bitsAt 3 0 w = 2 := r1.trans (by decide)
  have e1 : bitsAt 1 4 w = 0 := r0.trans (by decide)
  have n0 : ¬ bitsAt 5 0 w = 0 := fun h => absurd (e0.symm.trans (bits_inside 0 3 h (by decide))) (by decide)
  have n1 : ¬ bitsAt 5 0 w = 16 := fun h => absurd (e1.symm.trans (bits_inside 4 1 h (by decide))) (by decide)
  have n2 : ¬ bitsAt 5 0 w = 1 := fun h => absurd (e0.symm.trans (bits_inside 0 3 h (by decide))) (by decide)
  have n3 : ¬ bitsAt 5 0 w = 17 := fun h => absurd (e1.symm.trans (bits_inside 4 1 h (by decide))) (by decide)
  simp only [decodeMajor2c, e0, e1, n0, n1, n2, n3, y0, y1, y2, y3, y4, y5, and_true, and_false, false_and, reduceIte, Nat.reduceEqDiff, reduceCtorEq]

theorem vcmulVs : ∀ x0 x1 x2 x3 x4 x5, Statement (.vcmulVs x0 x1 x2 x3 x4 x5) := by
  intro x0 x1 x2 x3 x4 x5
  refine of_word rfl (fmt29 (K := 0x58000012) (by decide) rfl).1 (fun hi => ?_)
  generalize hw : put _ _ _ = w
  obtain ⟨_, r0, r1, r2, y0, y1, y2, y3, y4, y5⟩ := fmt29 (K := 0x58000012) (by decide) hw
  rw [major_2c (r2.trans (by decide))]
  have e0 : bitsAt 3 0 w = 2 := r1.trans (by decide)
  have e1 : bitsAt 1 4 w = 1 := r0.trans (by decide)
  have n0 : ¬ bitsAt 5 0 w = 0 := fun h => absurd (e1.symm.trans (bits_inside 4 1 h (by decide))) (by decide)
  have n1 : ¬ bitsAt 5 0 w = 16 := fun h => absurd (e0.symm.trans (bits_inside 0 3 h (by decide))) (by decide)
  have n2 : ¬ bitsAt 5 0 w = 1 := fun h => absurd (e1.symm.trans (bits_inside 4 1 h (by decide))) (by decide)
  have n3 : ¬ bitsAt 5 0 w = 17 := fun h => absurd (e0.symm.trans (bits_inside 0 3 h (by decide))) (by decide)
  simp only [decodeMajor2c, e0, e1, n0, n1, n2, n3, y0, y1, y2, y3, y4, y5, and_true, and_false, false_and, reduceIte, Nat.reduceEqDiff, reduceCtorEq]

theorem vcmac : ∀ x0 x1 x2 x3 x4 x5, Statement (.vcmac x0 x1 x2 x3 x4 x5) := by
  intro x0 x1 x2 x3 x4 x5
  refine of_word rfl (fmt29 (K := 0x58000003) (by decide) rfl).1 (fun hi => ?_)
  generalize hw : put _ _ _ = w
  obtain ⟨_, r0, r1, r2, y0, y1, y2, y3, y4, y5⟩ := fmt29 (K := 0x58000003) (by decide) hw
  rw [major_2c (r2.trans (by decide))]
  have e0 : bitsAt 3 0 w = 3 := r1.trans (by decide)
  have e1 : bitsAt 1 4 w = 0 := r0.trans (by decide)
  have n0 : ¬ bitsAt 5 0 w = 0 := fun h => absurd (e0.symm.trans (bits_inside 0 3 h (by decide))) (by decide)
  have n1 : ¬ bitsAt 5 0 w = 16 := fun h => absurd (e1.symm.trans (bits_inside 4 1 h (by decide))) (by decide)
  have n2 : ¬ bitsAt 5 0 w = 1 := fun h => absurd (e0.symm.trans (bits_inside 0 3 h (by decide))) (by decide)
  have n3 : ¬ bitsAt 5 0 w = 17 := fun h => absurd (e1.symm.trans (bits_inside 4 1 h (by decide))) (by decide)
  simp only [decodeMajor2c, e0, e1, n0, n1, n2, n3, y0, y1, y2, y3, y4, y5, and_true, and_false, false_and, reduceIte, Nat.reduceEqDiff, reduceCtorEq]

theorem vcmacVs : ∀ x0 x1 x2 x3 x4 x5, Statement (.vcmacVs x0 x1 x2 x3 x4 x5) := by
  intro x0 x1 x2 x3 x4 x5
  refine of_word rfl (fmt29 (K := 0x58000013) (by decide) rfl).1 (fun hi => ?_)
  generalize hw : put _ _ _ = w
  obtain ⟨_, r0, r1, r2, y0, y1, y2, y3, y4, y5⟩ := fmt29 (K := 0x58000013) (by decide) hw
  rw [major_2c (r2.trans (by decide))]
  have e0 : bitsAt 3 0 w = 3 := r1.trans (by decide)
  have e1 : bitsAt 1 4 w = 1 := r0.trans (by decide)
  have n0 : ¬ bitsAt 5 0 w = 0 := fun h => absurd (e1.symm.trans (bits_inside 4 1 h (by decide))) (by decide)
  have n1 : ¬ bitsAt 5 0 w = 16 := fun h => absurd (e0.symm.trans (bits_inside 0 3 h (by decide))) (by decide)
  have n2 : ¬ bitsAt 5 0 w = 1 := fun h => absurd (e1.symm.trans (bits_inside 4 1 h (by decide))) (by decide)
  have n3 : ¬ bitsAt 5 0 w = 17 := fun h => absurd (e0.symm.trans (bits_inside 0 3 h (by decide))) (by decide)
  simp only [decodeMajor2c, e0, e1, n0, n1, n2, n3, y0, y1, y2, y3, y4, y5, and_true, and_false, false_and, reduceIte, Nat.reduceEqDiff, reduceCtorEq]

theorem vcmag2 : ∀ x0 x1 x2 x3, Statement (.vcmag2 x0 x1 x2 x3) := by
  intro x0 x1 x2 x3
  refine of_word rfl (fmt17 (K := 0x58000004) (by decide) rfl).1 (fun hi => ?_)
  generalize hw : put _ _ _ = w
  obtain ⟨_, r0, r1, r2, y0, y1, y2, y3⟩ := fmt17 (K := 0x58000004) (by decide) hw
  rw [major_2c (r2.trans (by decide))]
  have e0 : bitsAt 5 0 w = 4 := r0.trans (by decide)
  have e1 : bitsAt 5 10 w = 0 := r1.trans (by decide)
  have n0 : ¬ bitsAt 3 0 w = 2 := fun h => absurd (h.symm.trans (bits_inside 0 3 e0 (by decide))) (by decide)
  have n1 : ¬ bitsAt 1 4 w = 1 := fun h => absurd (h.symm.trans (bits_inside 4 1 e0 (by decide))) (by decide)
  have n2 : ¬ bitsAt 3 0 w = 3 := fun h => absurd (h.symm.trans (bits_inside 0 3 e0 (by decide))) (by decide)
  simp only [decodeMajor2c, e0, e1, n0, n1, n2, y0, y1, y2, y3, and_true, and_false, false_and, reduceIte, Nat.reduceEqDiff, reduceCtorEq]

theorem vcscl : ∀ x0 x1 x2 x3 x4, Statement (.vcscl x0 x1 x2 x3 x4) := by
  intro x0 x1 x2 x3 x4
  refine of_word rfl (fmt16 (K := 0x58000005) (by decide) rfl).1 (fun hi => ?_)
  generalize hw : put _ _ _ = w
  obtain ⟨_, r0, r1, y0, y1, y2, y3, y4⟩ := fmt16 (K := 0x58000005) (by decide) hw
  rw [major_2c (r1.trans (by decide))]
  have e0 : bitsAt 5 0 w = 5 := r0.trans (by decide)
  have n0 : ¬ bitsAt 3 0 w = 2 := fun h => absurd (h.symm.trans (bits_inside 0 3 e0 (by decide))) (by decide)
  have n1 : ¬ bitsAt 1 4 w = 1 := fun h => absurd (h.symm.trans (bits_inside 4 1 e0 (by decide))) (by decide)
  have n2 : ¬ bitsAt 3 0 w = 3 := fun h => absurd (h.symm.trans (bits_inside 0 3 e0 (by decide))) (by decide)
  simp only [decodeMajor2c, e0, n0, n1, n2, y0, y1, y2, y3, y4, and_true, and_false, false_and, reduceIte, Nat.reduceEqDiff, reduceCtorEq]

theorem vcsclVs : ∀ x0 x1 x2 x3 x4, Statement (.vcsclVs x0 x1 x2 x3 x4) := by
  intro x0 x1 x2 x3 x4
  refine of_word rfl (fmt16 (K := 0x58000015) (by decide) rfl).1 (fun hi => ?_)
  generalize hw : put _ _ _ = w
  obtain ⟨_, r0, r1, y0, y1, y2, y3, y4⟩ := fmt16 (K := 0x58000015) (by decide) hw
  rw [major_2c (r1.trans (by decide))]
  have e0 : bitsAt 5 0 w = 21 := r0.trans (by decide)
  have n0 : ¬ bitsAt 1 4 w = 0 := fun h => absurd (h.symm.trans (bits_inside 4 1 e0 (by decide))) (by decide)
  have n1 : ¬ bitsAt 3 0 w = 2 := fun h => absurd (h.symm.trans (bits_inside 0 3 e0 (by decide))) (by decide)
  have n2 : ¬ bitsAt 3 0 w = 3 := fun h => absurd (h.symm.trans (bits_inside 0 3 e0 (by decide))) (by decide)
  simp only [decodeMajor2c, e0, n0, n1, n2, y0, y1, y2, y3, y4, and_true, and_false, false_and, reduceIte, Nat.reduceEqDiff, reduceCtorEq]

theorem vcrot : ∀ x0 x1 x2 x3 x4, Statement (.vcrot x0 x1 x2 x3 x4) := by
  intro x0 x1 x2 x3 x4
  refine of_word rfl (fmt30 (K := 0x58000006) (by decide) rfl).1 (fun hi => ?_)
  generalize hw : put _ _ _ = w
  obtain ⟨_, r0, r1, r2, r3, y0, y1, y2, y3, y4⟩ := fmt30 (K := 0x58000006) (by decide) hw
  rw [major_2c (r3.trans (by decide))]
  have e0 : bitsAt 3 0 w = 6 := r1.trans (by decide)
  have e1 : bitsAt 1 4 w = 0 := r0.trans (by decide)
  have e2 : bitsAt 5 10 w = 0 := r2.trans (by decide)
  have n0 : ¬ bitsAt 5 0 w = 0 := fun h => absurd (e0.symm.trans (bits_inside 0 3 h (by decide))) (by decide)
  have n1 : ¬ bitsAt 5 0 w = 16 := fun h => absurd (e1.symm.trans (bits_inside 4 1 h (by decide))) (by decide)
  have n2 : ¬ bitsAt 5 0 w = 1 := fun h => absurd (e0.symm.trans (bits_inside 0 3 h (by decide))) (by decide)
  have n3 : ¬ bitsAt 5 0 w = 17 := fun h => absurd (e1.symm.trans (bits_inside 4 1 h (by decide))) (by decide)
  have n4 : ¬ bitsAt 5 0 w = 4 := fun h => absurd (e0.symm.trans (bits_inside 0 3 h (by decide))) (by decide)
  have n5 : ¬ bitsAt 5 0 w = 5 := fun h => absurd (e0.symm.trans (bits_inside 0 3 h (by decide))) (by decide)
  have n6 : ¬ bitsAt 5 0 w = 21 := fun h => absurd (e1.symm.trans (bits_inside 4 1 h (by decide))) (by decide)
  simp only [decodeMajor2c, e0, e1, e2, n0, n1, n2, n3, n4, n5, n6, y0, y1, y2, y3, y4, and_true, and_false, false_and, reduceIte, Nat.reduceEqDiff, reduceCtorEq]

theorem vcconj : ∀ x0 x1 x2 x3, Statement (.vcconj x0 x1 x2 x3) := by
  intro x0 x1 x2 x3
  refine of_word rfl (fmt17 (K := 0x58000007) (by decide) rfl).1 (fun hi => ?_)
  generalize hw : put _ _ _ = w
  obtain ⟨_, r0, r1, r2, y0, y1, y2, y3⟩ := fmt17 (K := 0x58000007) (by decide) hw
  rw [major_2c (r2.trans (by decide))]
  have e0 : bitsAt 5 0 w = 7 := r0.trans (by decide)
  have e1 : bitsAt 5 10 w = 0 := r1.trans (by decide)
  have n0 : ¬ bitsAt 3 0 w = 2 := fun h => absurd (h.symm.trans (bits_inside 0 3 e0 (by decide))) (by decide)
  have n1 : ¬ bitsAt 1 4 w = 1 := fun h => absurd (h.symm.trans (bits_inside 4 1 e0 (by decide))) (by decide)
  have n2 : ¬ bitsAt 3 0 w = 3 := fun h => absurd (h.symm.trans (bits_inside 0 3 e0 (by decide))) (by decide)
  have n3 : ¬ bitsAt 3 0 w = 6 := fun h => absurd (h.symm.trans (bits_inside 0 3 e0 (by decide))) (by decide)
  simp only [decodeMajor2c, e0, e1, n0, n1, n2, n3, y0, y1, y2, y3, and_true, and_false, false_and, reduceIte, Nat.reduceEqDiff, reduceCtorEq]

theorem vbfly2 : ∀ x0 x1 x2 x3 x4, Statement (.vbfly2 x0 x1 x2 x3 x4) := by
  intro x0 x1 x2 x3 x4
  refine of_word rfl (fmt16 (K := 0x5a000000) (by decide) rfl).1 (fun hi => ?_)
  generalize hw : put _ _ _ = w
  obtain ⟨_, r0, r1, y0, y1, y2, y3, y4⟩ := fmt16 (K := 0x5a000000) (by decide) hw
  rw [major_2d (r1.trans (by decide))]
  have e0 : bitsAt 5 0 w = 0 := r0.trans (by decide)
  simp only [decodeMajor2d, e0, y0, y1, y2, y3, y4, and_true, and_false, false_and, reduceIte, Nat.reduceEqDiff, reduceCtorEq]

theorem vbfly4 : ∀ x0 x1 x2 x3 x4, Statement (.vbfly4 x0 x1 x2 x3 x4) := by
  intro x0 x1 x2 x3 x4
  refine of_word rfl (fmt16 (K := 0x5a000001) (by decide) rfl).1 (fun hi => ?_)
  generalize hw : put _ _ _ = w
  obtain ⟨_, r0, r1, y0, y1, y2, y3, y4⟩ := fmt16 (K := 0x5a000001) (by decide) hw
  rw [major_2d (r1.trans (by decide))]
  have e0 : bitsAt 5 0 w = 1 := r0.trans (by decide)
  simp only [decodeMajor2d, e0, y0, y1, y2, y3, y4, and_true, and_false, false_and, reduceIte, Nat.reduceEqDiff, reduceCtorEq]

theorem vbitrev : ∀ x0 x1 x2 x3, Statement (.vbitrev x0 x1 x2 x3) := by
  intro x0 x1 x2 x3
  refine of_word rfl (fmt17 (K := 0x5a000002) (by decide) rfl).1 (fun hi => ?_)
  generalize hw : put _ _ _ = w
  obtain ⟨_, r0, r1, r2, y0, y1, y2, y3⟩ := fmt17 (K := 0x5a000002) (by decide) hw
  rw [major_2d (r2.trans (by decide))]
  have e0 : bitsAt 5 0 w = 2 := r0.trans (by decide)
  have e1 : bitsAt 5 10 w = 0 := r1.trans (by decide)
  simp only [decodeMajor2d, e0, e1, y0, y1, y2, y3, and_true, and_false, false_and, reduceIte, Nat.reduceEqDiff, reduceCtorEq]

theorem vbperm : ∀ x0 x1 x2 x3 x4, Statement (.vbperm x0 x1 x2 x3 x4) := by
  intro x0 x1 x2 x3 x4
  refine of_word rfl (fmt16 (K := 0x5a000003) (by decide) rfl).1 (fun hi => ?_)
  generalize hw : put _ _ _ = w
  obtain ⟨_, r0, r1, y0, y1, y2, y3, y4⟩ := fmt16 (K := 0x5a000003) (by decide) hw
  rw [major_2d (r1.trans (by decide))]
  have e0 : bitsAt 5 0 w = 3 := r0.trans (by decide)
  simp only [decodeMajor2d, e0, y0, y1, y2, y3, y4, and_true, and_false, false_and, reduceIte, Nat.reduceEqDiff, reduceCtorEq]

theorem vbgath : ∀ x0 x1 x2 x3 x4, Statement (.vbgath x0 x1 x2 x3 x4) := by
  intro x0 x1 x2 x3 x4
  refine of_word rfl (fmt16 (K := 0x5a000004) (by decide) rfl).1 (fun hi => ?_)
  generalize hw : put _ _ _ = w
  obtain ⟨_, r0, r1, y0, y1, y2, y3, y4⟩ := fmt16 (K := 0x5a000004) (by decide) hw
  rw [major_2d (r1.trans (by decide))]
  have e0 : bitsAt 5 0 w = 4 := r0.trans (by decide)
  simp only [decodeMajor2d, e0, y0, y1, y2, y3, y4, and_true, and_false, false_and, reduceIte, Nat.reduceEqDiff, reduceCtorEq]

theorem vintlv : ∀ x0 x1 x2 x3 x4, Statement (.vintlv x0 x1 x2 x3 x4) := by
  intro x0 x1 x2 x3 x4
  refine of_word rfl (fmt16 (K := 0x5a000005) (by decide) rfl).1 (fun hi => ?_)
  generalize hw : put _ _ _ = w
  obtain ⟨_, r0, r1, y0, y1, y2, y3, y4⟩ := fmt16 (K := 0x5a000005) (by decide) hw
  rw [major_2d (r1.trans (by decide))]
  have e0 : bitsAt 5 0 w = 5 := r0.trans (by decide)
  simp only [decodeMajor2d, e0, y0, y1, y2, y3, y4, and_true, and_false, false_and, reduceIte, Nat.reduceEqDiff, reduceCtorEq]

theorem vdintlv : ∀ x0 x1 x2 x3 x4, Statement (.vdintlv x0 x1 x2 x3 x4) := by
  intro x0 x1 x2 x3 x4
  refine of_word rfl (fmt16 (K := 0x5a000006) (by decide) rfl).1 (fun hi => ?_)
  generalize hw : put _ _ _ = w
  obtain ⟨_, r0, r1, y0, y1, y2, y3, y4⟩ := fmt16 (K := 0x5a000006) (by decide) hw
  rw [major_2d (r1.trans (by decide))]
  have e0 : bitsAt 5 0 w = 6 := r0.trans (by decide)
  simp only [decodeMajor2d, e0, y0, y1, y2, y3, y4, and_true, and_false, false_and, reduceIte, Nat.reduceEqDiff, reduceCtorEq]

theorem vrotz : ∀ x0 x1 x2 x3 x4, Statement (.vrotz x0 x1 x2 x3 x4) := by
  intro x0 x1 x2 x3 x4
  refine of_word rfl (fmt16 (K := 0x5a000007) (by decide) rfl).1 (fun hi => ?_)
  generalize hw : put _ _ _ = w
  obtain ⟨_, r0, r1, y0, y1, y2, y3, y4⟩ := fmt16 (K := 0x5a000007) (by decide) hw
  rw [major_2d (r1.trans (by decide))]
  have e0 : bitsAt 5 0 w = 7 := r0.trans (by decide)
  simp only [decodeMajor2d, e0, y0, y1, y2, y3, y4, and_true, and_false, false_and, reduceIte, Nat.reduceEqDiff, reduceCtorEq]

theorem vgold : ∀ x0 x1 x2 x3 x4, Statement (.vgold x0 x1 x2 x3 x4) := by
  intro x0 x1 x2 x3 x4
  refine of_word rfl (fmt16 (K := 0x5a000008) (by decide) rfl).1 (fun hi => ?_)
  generalize hw : put _ _ _ = w
  obtain ⟨_, r0, r1, y0, y1, y2, y3, y4⟩ := fmt16 (K := 0x5a000008) (by decide) hw
  rw [major_2d (r1.trans (by decide))]
  have e0 : bitsAt 5 0 w = 8 := r0.trans (by decide)
  simp only [decodeMajor2d, e0, y0, y1, y2, y3, y4, and_true, and_false, false_and, reduceIte, Nat.reduceEqDiff, reduceCtorEq]

theorem vllrpk : ∀ x0 x1 x2 x3 x4, Statement (.vllrpk x0 x1 x2 x3 x4) := by
  intro x0 x1 x2 x3 x4
  refine of_word rfl (fmt16 (K := 0x5a000009) (by decide) rfl).1 (fun hi => ?_)
  generalize hw : put _ _ _ = w
  obtain ⟨_, r0, r1, y0, y1, y2, y3, y4⟩ := fmt16 (K := 0x5a000009) (by decide) hw
  rw [major_2d (r1.trans (by decide))]
  have e0 : bitsAt 5 0 w = 9 := r0.trans (by decide)
  simp only [decodeMajor2d, e0, y0, y1, y2, y3, y4, and_true, and_false, false_and, reduceIte, Nat.reduceEqDiff, reduceCtorEq]

theorem vperm : ∀ x0 x1 x2 x3 x4, Statement (.vperm x0 x1 x2 x3 x4) := by
  intro x0 x1 x2 x3 x4
  refine of_word rfl (fmt16 (K := 0x5c000000) (by decide) rfl).1 (fun hi => ?_)
  generalize hw : put _ _ _ = w
  obtain ⟨_, r0, r1, y0, y1, y2, y3, y4⟩ := fmt16 (K := 0x5c000000) (by decide) hw
  rw [major_2e (r1.trans (by decide))]
  have e0 : bitsAt 5 0 w = 0 := r0.trans (by decide)
  simp only [decodeMajor2e, e0, y0, y1, y2, y3, y4, and_true, and_false, false_and, reduceIte, Nat.reduceEqDiff, reduceCtorEq]

theorem vpermb : ∀ x0 x1 x2 x3, Statement (.vpermb x0 x1 x2 x3) := by
  intro x0 x1 x2 x3
  refine of_word rfl (fmt27 (K := 0x5c000001) (by decide) rfl).1 (fun hi => ?_)
  generalize hw : put _ _ _ = w
  obtain ⟨_, r0, r1, y0, y1, y2, y3⟩ := fmt27 (K := 0x5c000001) (by decide) hw
  rw [major_2e (r0.trans (by decide))]
  have e0 : bitsAt 10 0 w = 1 := r1.trans (by decide)
  have n0 : ¬ bitsAt 5 0 w = 0 := fun h => absurd (h.symm.trans (bits_inside 0 5 e0 (by decide))) (by decide)
  simp only [decodeMajor2e, e0, n0, y0, y1, y2, y3, and_true, and_false, false_and, reduceIte, Nat.reduceEqDiff, reduceCtorEq]

theorem vxchg : ∀ x0 x1 x2, Statement (.vxchg x0 x1 x2) := by
  intro x0 x1 x2
  refine of_word rfl (fmt31 (K := 0x5c000002) (by decide) rfl).1 (fun hi => ?_)
  generalize hw : put _ _ _ = w
  obtain ⟨_, r0, r1, y0, y1, y2⟩ := fmt31 (K := 0x5c000002) (by decide) hw
  rw [major_2e (r0.trans (by decide))]
  have e0 : bitsAt 15 0 w = 2 := r1.trans (by decide)
  have n0 : ¬ bitsAt 5 0 w = 0 := fun h => absurd (h.symm.trans (bits_inside 0 5 e0 (by decide))) (by decide)
  have n1 : ¬ bitsAt 10 0 w = 1 := fun h => absurd (h.symm.trans (bits_inside 0 10 e0 (by decide))) (by decide)
  simp only [decodeMajor2e, e0, n0, n1, y0, y1, y2, and_true, and_false, false_and, reduceIte, Nat.reduceEqDiff, reduceCtorEq]

theorem vzip : ∀ x0 x1 x2 x3 x4, Statement (.vzip x0 x1 x2 x3 x4) := by
  intro x0 x1 x2 x3 x4
  refine of_word rfl (fmt16 (K := 0x5c000003) (by decide) rfl).1 (fun hi => ?_)
  generalize hw : put _ _ _ = w
  obtain ⟨_, r0, r1, y0, y1, y2, y3, y4⟩ := fmt16 (K := 0x5c000003) (by decide) hw
  rw [major_2e (r1.trans (by decide))]
  have e0 : bitsAt 5 0 w = 3 := r0.trans (by decide)
  have n0 : ¬ bitsAt 10 0 w = 1 := fun h => absurd (e0.symm.trans (bits_inside 0 5 h (by decide))) (by decide)
  have n1 : ¬ bitsAt 15 0 w = 2 := fun h => absurd (e0.symm.trans (bits_inside 0 5 h (by decide))) (by decide)
  simp only [decodeMajor2e, e0, n0, n1, y0, y1, y2, y3, y4, and_true, and_false, false_and, reduceIte, Nat.reduceEqDiff, reduceCtorEq]

theorem vunzip : ∀ x0 x1 x2 x3 x4, Statement (.vunzip x0 x1 x2 x3 x4) := by
  intro x0 x1 x2 x3 x4
  refine of_word rfl (fmt16 (K := 0x5c000004) (by decide) rfl).1 (fun hi => ?_)
  generalize hw : put _ _ _ = w
  obtain ⟨_, r0, r1, y0, y1, y2, y3, y4⟩ := fmt16 (K := 0x5c000004) (by decide) hw
  rw [major_2e (r1.trans (by decide))]
  have e0 : bitsAt 5 0 w = 4 := r0.trans (by decide)
  have n0 : ¬ bitsAt 10 0 w = 1 := fun h => absurd (e0.symm.trans (bits_inside 0 5 h (by decide))) (by decide)
  have n1 : ¬ bitsAt 15 0 w = 2 := fun h => absurd (e0.symm.trans (bits_inside 0 5 h (by decide))) (by decide)
  simp only [decodeMajor2e, e0, n0, n1, y0, y1, y2, y3, y4, and_true, and_false, false_and, reduceIte, Nat.reduceEqDiff, reduceCtorEq]

theorem vscget : ∀ x0 x1 x2 x3, Statement (.vscget x0 x1 x2 x3) := by
  intro x0 x1 x2 x3
  refine of_word rfl (fmt17 (K := 0x5e000000) (by decide) rfl).1 (fun hi => ?_)
  generalize hw : put _ _ _ = w
  obtain ⟨_, r0, r1, r2, y0, y1, y2, y3⟩ := fmt17 (K := 0x5e000000) (by decide) hw
  rw [major_2f (r2.trans (by decide))]
  have e0 : bitsAt 5 0 w = 0 := r0.trans (by decide)
  have e1 : bitsAt 5 10 w = 0 := r1.trans (by decide)
  simp only [decodeMajor2f, e0, e1, y0, y1, y2, y3, and_true, and_false, false_and, reduceIte, Nat.reduceEqDiff, reduceCtorEq]

theorem vscset : ∀ x0 x1 x2 x3 x4, Statement (.vscset x0 x1 x2 x3 x4) := by
  intro x0 x1 x2 x3 x4
  refine of_word rfl (fmt16 (K := 0x5e000001) (by decide) rfl).1 (fun hi => ?_)
  generalize hw : put _ _ _ = w
  obtain ⟨_, r0, r1, y0, y1, y2, y3, y4⟩ := fmt16 (K := 0x5e000001) (by decide) hw
  rw [major_2f (r1.trans (by decide))]
  have e0 : bitsAt 5 0 w = 1 := r0.trans (by decide)
  simp only [decodeMajor2f, e0, y0, y1, y2, y3, y4, and_true, and_false, false_and, reduceIte, Nat.reduceEqDiff, reduceCtorEq]

theorem vscnorm : ∀ x0 x1 x2 x3, Statement (.vscnorm x0 x1 x2 x3) := by
  intro x0 x1 x2 x3
  refine of_word rfl (fmt17 (K := 0x5e000002) (by decide) rfl).1 (fun hi => ?_)
  generalize hw : put _ _ _ = w
  obtain ⟨_, r0, r1, r2, y0, y1, y2, y3⟩ := fmt17 (K := 0x5e000002) (by decide) hw
  rw [major_2f (r2.trans (by decide))]
  have e0 : bitsAt 5 0 w = 2 := r0.trans (by decide)
  have e1 : bitsAt 5 10 w = 0 := r1.trans (by decide)
  simp only [decodeMajor2f, e0, e1, y0, y1, y2, y3, and_true, and_false, false_and, reduceIte, Nat.reduceEqDiff, reduceCtorEq]

theorem vgjstep : ∀ x0 x1 x2 x3, Statement (.vgjstep x0 x1 x2 x3) := by
  intro x0 x1 x2 x3
  refine of_word rfl (fmt17 (K := 0x60000000) (by decide) rfl).1 (fun hi => ?_)
  generalize hw : put _ _ _ = w
  obtain ⟨_, r0, r1, r2, y0, y1, y2, y3⟩ := fmt17 (K := 0x60000000) (by decide) hw
  rw [major_30 (r2.trans (by decide))]
  have e0 : bitsAt 5 0 w = 0 := r0.trans (by decide)
  have e1 : bitsAt 5 10 w = 0 := r1.trans (by decide)
  simp only [decodeMajor30, e0, e1, y0, y1, y2, y3, and_true, and_false, false_and, reduceIte, Nat.reduceEqDiff, reduceCtorEq]

theorem vbsolve : ∀ x0 x1 x2 x3 x4, Statement (.vbsolve x0 x1 x2 x3 x4) := by
  intro x0 x1 x2 x3 x4
  refine of_word rfl (fmt16 (K := 0x60000001) (by decide) rfl).1 (fun hi => ?_)
  generalize hw : put _ _ _ = w
  obtain ⟨_, r0, r1, y0, y1, y2, y3, y4⟩ := fmt16 (K := 0x60000001) (by decide) hw
  rw [major_30 (r1.trans (by decide))]
  have e0 : bitsAt 5 0 w = 1 := r0.trans (by decide)
  simp only [decodeMajor30, e0, y0, y1, y2, y3, y4, and_true, and_false, false_and, reduceIte, Nat.reduceEqDiff, reduceCtorEq]

theorem vnsstep : ∀ x0 x1 x2 x3 x4, Statement (.vnsstep x0 x1 x2 x3 x4) := by
  intro x0 x1 x2 x3 x4
  refine of_word rfl (fmt16 (K := 0x60000002) (by decide) rfl).1 (fun hi => ?_)
  generalize hw : put _ _ _ = w
  obtain ⟨_, r0, r1, y0, y1, y2, y3, y4⟩ := fmt16 (K := 0x60000002) (by decide) hw
  rw [major_30 (r1.trans (by decide))]
  have e0 : bitsAt 5 0 w = 2 := r0.trans (by decide)
  simp only [decodeMajor30, e0, y0, y1, y2, y3, y4, and_true, and_false, false_and, reduceIte, Nat.reduceEqDiff, reduceCtorEq]

theorem vwstag : ∀ x0 x1 x2 x3 x4, Statement (.vwstag x0 x1 x2 x3 x4) := by
  intro x0 x1 x2 x3 x4
  refine of_word rfl (fmt16 (K := 0x60000003) (by decide) rfl).1 (fun hi => ?_)
  generalize hw : put _ _ _ = w
  obtain ⟨_, r0, r1, y0, y1, y2, y3, y4⟩ := fmt16 (K := 0x60000003) (by decide) hw
  rw [major_30 (r1.trans (by decide))]
  have e0 : bitsAt 5 0 w = 3 := r0.trans (by decide)
  simp only [decodeMajor30, e0, y0, y1, y2, y3, y4, and_true, and_false, false_and, reduceIte, Nat.reduceEqDiff, reduceCtorEq]

theorem mma : ∀ x0 x1 x2, Statement (.mma x0 x1 x2) := by
  intro x0 x1 x2
  refine of_word rfl (fmt32 (K := 0x70000000) (by decide) rfl).1 (fun hi => ?_)
  generalize hw : put _ _ _ = w
  obtain ⟨_, r0, r1, r2, y0, y1, y2⟩ := fmt32 (K := 0x70000000) (by decide) hw
  rw [major_38 (r1.trans (by decide))]
  have e0 : bitsAt 11 0 w = 0 := r2.trans (by decide)
  have e1 : bitsAt 1 31 w = 0 := r0.trans (by decide)
  simp only [decodeMajor38, e0, e1, y0, y1, y2, and_true, and_false, false_and, reduceIte, Nat.reduceEqDiff, reduceCtorEq]

theorem mmas : ∀ x0 x1 x2 x3, Statement (.mmas x0 x1 x2 x3) := by
  intro x0 x1 x2 x3
  refine of_word rfl (fmt33 (K := 0x70000001) (by decide) rfl).1 (fun hi => ?_)
  generalize hw : put _ _ _ = w
  obtain ⟨_, r0, r1, r2, y0, y1, y2, y3⟩ := fmt33 (K := 0x70000001) (by decide) hw
  rw [major_38 (r2.trans (by decide))]
  have e0 : bitsAt 6 0 w = 1 := r1.trans (by decide)
  have e1 : bitsAt 1 31 w = 0 := r0.trans (by decide)
  have n0 : ¬ bitsAt 11 0 w = 0 := fun h => absurd (e0.symm.trans (bits_inside 0 6 h (by decide))) (by decide)
  simp only [decodeMajor38, e0, e1, n0, y0, y1, y2, y3, and_true, and_false, false_and, reduceIte, Nat.reduceEqDiff, reduceCtorEq]

theorem mzero : ∀ x0, Statement (.mzero x0) := by
  intro x0
  refine of_word rfl (fmt34 (K := 0x70000002) (by decide) rfl).1 (fun hi => ?_)
  generalize hw : put _ _ _ = w
  obtain ⟨_, r0, r1, r2, y0⟩ := fmt34 (K := 0x70000002) (by decide) hw
  rw [major_38 (r1.trans (by decide))]
  have e0 : bitsAt 21 0 w = 2 := r2.trans (by decide)
  have e1 : bitsAt 1 31 w = 0 := r0.trans (by decide)
  have n0 : ¬ bitsAt 11 0 w = 0 := fun h => absurd (h.symm.trans (bits_inside 0 11 e0 (by decide))) (by decide)
  have n1 : ¬ bitsAt 6 0 w = 1 := fun h => absurd (h.symm.trans (bits_inside 0 6 e0 (by decide))) (by decide)
  simp only [decodeMajor38, e0, e1, n0, n1, y0, and_true, and_false, false_and, reduceIte, Nat.reduceEqDiff, reduceCtorEq]

theorem mmaComplete : ∀ a0, Statement (.mmaComplete a0) :=
  fun _ => of_event rfl

theorem atov : ∀ x0 x1 x2 x3, Statement (.atov x0 x1 x2 x3) := by
  intro x0 x1 x2 x3
  refine of_word rfl (fmt33 (K := 0x72000000) (by decide) rfl).1 (fun hi => ?_)
  generalize hw : put _ _ _ = w
  obtain ⟨_, r0, r1, r2, y0, y1, y2, y3⟩ := fmt33 (K := 0x72000000) (by decide) hw
  rw [major_39 (r2.trans (by decide))]
  have e0 : bitsAt 6 0 w = 0 := r1.trans (by decide)
  have e1 : bitsAt 1 31 w = 0 := r0.trans (by decide)
  simp only [decodeMajor39, e0, e1, y0, y1, y2, y3, and_true, and_false, false_and, reduceIte, Nat.reduceEqDiff, reduceCtorEq]

theorem vtoa : ∀ x0 x1 x2 x3, Statement (.vtoa x0 x1 x2 x3) := by
  intro x0 x1 x2 x3
  refine of_word rfl (fmt33 (K := 0x72000001) (by decide) rfl).1 (fun hi => ?_)
  generalize hw : put _ _ _ = w
  obtain ⟨_, r0, r1, r2, y0, y1, y2, y3⟩ := fmt33 (K := 0x72000001) (by decide) hw
  rw [major_39 (r2.trans (by decide))]
  have e0 : bitsAt 6 0 w = 1 := r1.trans (by decide)
  have e1 : bitsAt 1 31 w = 0 := r0.trans (by decide)
  simp only [decodeMajor39, e0, e1, y0, y1, y2, y3, and_true, and_false, false_and, reduceIte, Nat.reduceEqDiff, reduceCtorEq]

theorem ald : ∀ x0 x1, Statement (.ald x0 x1) := by
  intro x0 x1
  refine of_word rfl (fmt35 (K := 0x72000002) (by decide) rfl).1 (fun hi => ?_)
  generalize hw : put _ _ _ = w
  obtain ⟨_, r0, r1, r2, r3, y0, y1⟩ := fmt35 (K := 0x72000002) (by decide) hw
  rw [major_39 (r2.trans (by decide))]
  have e0 : bitsAt 11 0 w = 2 := r3.trans (by decide)
  have e1 : bitsAt 5 16 w = 0 := r1.trans (by decide)
  have e2 : bitsAt 1 31 w = 0 := r0.trans (by decide)
  have n0 : ¬ bitsAt 6 0 w = 0 := fun h => absurd (h.symm.trans (bits_inside 0 6 e0 (by decide))) (by decide)
  have n1 : ¬ bitsAt 6 0 w = 1 := fun h => absurd (h.symm.trans (bits_inside 0 6 e0 (by decide))) (by decide)
  simp only [decodeMajor39, e0, e1, e2, n0, n1, y0, y1, and_true, and_false, false_and, reduceIte, Nat.reduceEqDiff, reduceCtorEq]

theorem ast : ∀ x0 x1, Statement (.ast x0 x1) := by
  intro x0 x1
  refine of_word rfl (fmt35 (K := 0x72000003) (by decide) rfl).1 (fun hi => ?_)
  generalize hw : put _ _ _ = w
  obtain ⟨_, r0, r1, r2, r3, y0, y1⟩ := fmt35 (K := 0x72000003) (by decide) hw
  rw [major_39 (r2.trans (by decide))]
  have e0 : bitsAt 11 0 w = 3 := r3.trans (by decide)
  have e1 : bitsAt 5 16 w = 0 := r1.trans (by decide)
  have e2 : bitsAt 1 31 w = 0 := r0.trans (by decide)
  have n0 : ¬ bitsAt 6 0 w = 0 := fun h => absurd (h.symm.trans (bits_inside 0 6 e0 (by decide))) (by decide)
  have n1 : ¬ bitsAt 6 0 w = 1 := fun h => absurd (h.symm.trans (bits_inside 0 6 e0 (by decide))) (by decide)
  simp only [decodeMajor39, e0, e1, e2, n0, n1, y0, y1, and_true, and_false, false_and, reduceIte, Nat.reduceEqDiff, reduceCtorEq]

theorem asave : ∀ x0 x1, Statement (.asave x0 x1) := by
  intro x0 x1
  refine of_word rfl (fmt35 (K := 0x72000004) (by decide) rfl).1 (fun hi => ?_)
  generalize hw : put _ _ _ = w
  obtain ⟨_, r0, r1, r2, r3, y0, y1⟩ := fmt35 (K := 0x72000004) (by decide) hw
  rw [major_39 (r2.trans (by decide))]
  have e0 : bitsAt 11 0 w = 4 := r3.trans (by decide)
  have e1 : bitsAt 5 16 w = 0 := r1.trans (by decide)
  have e2 : bitsAt 1 31 w = 0 := r0.trans (by decide)
  have n0 : ¬ bitsAt 6 0 w = 0 := fun h => absurd (h.symm.trans (bits_inside 0 6 e0 (by decide))) (by decide)
  have n1 : ¬ bitsAt 6 0 w = 1 := fun h => absurd (h.symm.trans (bits_inside 0 6 e0 (by decide))) (by decide)
  simp only [decodeMajor39, e0, e1, e2, n0, n1, y0, y1, and_true, and_false, false_and, reduceIte, Nat.reduceEqDiff, reduceCtorEq]

theorem arst : ∀ x0 x1, Statement (.arst x0 x1) := by
  intro x0 x1
  refine of_word rfl (fmt35 (K := 0x72000005) (by decide) rfl).1 (fun hi => ?_)
  generalize hw : put _ _ _ = w
  obtain ⟨_, r0, r1, r2, r3, y0, y1⟩ := fmt35 (K := 0x72000005) (by decide) hw
  rw [major_39 (r2.trans (by decide))]
  have e0 : bitsAt 11 0 w = 5 := r3.trans (by decide)
  have e1 : bitsAt 5 16 w = 0 := r1.trans (by decide)
  have e2 : bitsAt 1 31 w = 0 := r0.trans (by decide)
  have n0 : ¬ bitsAt 6 0 w = 0 := fun h => absurd (h.symm.trans (bits_inside 0 6 e0 (by decide))) (by decide)
  have n1 : ¬ bitsAt 6 0 w = 1 := fun h => absurd (h.symm.trans (bits_inside 0 6 e0 (by decide))) (by decide)
  simp only [decodeMajor39, e0, e1, e2, n0, n1, y0, y1, and_true, and_false, false_and, reduceIte, Nat.reduceEqDiff, reduceCtorEq]

theorem cbld : ∀ x0 x1, Statement (.cbld x0 x1) := by
  intro x0 x1
  refine of_word rfl (fmt36 (K := 0x74000000) (by decide) rfl).1 (fun hi => ?_)
  generalize hw : put _ _ _ = w
  obtain ⟨_, r0, r1, r2, r3, y0, y1⟩ := fmt36 (K := 0x74000000) (by decide) hw
  rw [major_3a (r2.trans (by decide))]
  have e0 : bitsAt 11 0 w = 0 := r3.trans (by decide)
  have e1 : bitsAt 4 21 w = 0 := r1.trans (by decide)
  have e2 : bitsAt 1 31 w = 0 := r0.trans (by decide)
  simp only [decodeMajor3a, e0, e1, e2, y0, y1, and_true, and_false, false_and, reduceIte, Nat.reduceEqDiff, reduceCtorEq]

theorem cbfill : ∀ x0 x1 x2, Statement (.cbfill x0 x1 x2) := by
  intro x0 x1 x2
  refine of_word rfl (fmt37 (K := 0x74000001) (by decide) rfl).1 (fun hi => ?_)
  generalize hw : put _ _ _ = w
  obtain ⟨_, r0, r1, r2, r3, y0, y1, y2⟩ := fmt37 (K := 0x74000001) (by decide) hw
  rw [major_3a (r3.trans (by decide))]
  have e0 : bitsAt 6 0 w = 1 := r2.trans (by decide)
  have e1 : bitsAt 4 21 w = 0 := r1.trans (by decide)
  have e2 : bitsAt 1 31 w = 0 := r0.trans (by decide)
  have n0 : ¬ bitsAt 11 0 w = 0 := fun h => absurd (e0.symm.trans (bits_inside 0 6 h (by decide))) (by decide)
  simp only [decodeMajor3a, e0, e1, e2, n0, y0, y1, y2, and_true, and_false, false_and, reduceIte, Nat.reduceEqDiff, reduceCtorEq]

theorem ecpy : ∀ x0 x1, Statement (.ecpy x0 x1) := by
  intro x0 x1
  refine of_word rfl (fmt1 (K := 0x78000000) (by decide) rfl).1 (fun hi => ?_)
  generalize hw : put _ _ _ = w
  obtain ⟨_, r0, r1, r2, y0, y1⟩ := fmt1 (K := 0x78000000) (by decide) hw
  rw [major_3c (r1.trans (by decide))]
  have e0 : bitsAt 15 0 w = 0 := r2.trans (by decide)
  have e1 : bitsAt 1 31 w = 0 := r0.trans (by decide)
  simp only [decodeMajor3c, e0, e1, y0, y1, and_true, and_false, false_and, reduceIte, Nat.reduceEqDiff, reduceCtorEq]

theorem eldpc : ∀ x0 x1 x2, Statement (.eldpc x0 x1 x2) := by
  intro x0 x1 x2
  refine of_word rfl (fmt0 (K := 0x78000001) (by decide) rfl).1 (fun hi => ?_)
  generalize hw : put _ _ _ = w
  obtain ⟨_, r0, r1, r2, y0, y1, y2⟩ := fmt0 (K := 0x78000001) (by decide) hw
  rw [major_3c (r1.trans (by decide))]
  have e0 : bitsAt 10 0 w = 1 := r2.trans (by decide)
  have e1 : bitsAt 1 31 w = 0 := r0.trans (by decide)
  have n0 : ¬ bitsAt 15 0 w = 0 := fun h => absurd (e0.symm.trans (bits_inside 0 10 h (by decide))) (by decide)
  simp only [decodeMajor3c, e0, e1, n0, y0, y1, y2, and_true, and_false, false_and, reduceIte, Nat.reduceEqDiff, reduceCtorEq]

theorem epolar : ∀ x0 x1 x2, Statement (.epolar x0 x1 x2) := by
  intro x0 x1 x2
  refine of_word rfl (fmt0 (K := 0x78000002) (by decide) rfl).1 (fun hi => ?_)
  generalize hw : put _ _ _ = w
  obtain ⟨_, r0, r1, r2, y0, y1, y2⟩ := fmt0 (K := 0x78000002) (by decide) hw
  rw [major_3c (r1.trans (by decide))]
  have e0 : bitsAt 10 0 w = 2 := r2.trans (by decide)
  have e1 : bitsAt 1 31 w = 0 := r0.trans (by decide)
  have n0 : ¬ bitsAt 15 0 w = 0 := fun h => absurd (e0.symm.trans (bits_inside 0 10 h (by decide))) (by decide)
  simp only [decodeMajor3c, e0, e1, n0, y0, y1, y2, and_true, and_false, false_and, reduceIte, Nat.reduceEqDiff, reduceCtorEq]

theorem eenc : ∀ x0 x1 x2, Statement (.eenc x0 x1 x2) := by
  intro x0 x1 x2
  refine of_word rfl (fmt0 (K := 0x78000003) (by decide) rfl).1 (fun hi => ?_)
  generalize hw : put _ _ _ = w
  obtain ⟨_, r0, r1, r2, y0, y1, y2⟩ := fmt0 (K := 0x78000003) (by decide) hw
  rw [major_3c (r1.trans (by decide))]
  have e0 : bitsAt 10 0 w = 3 := r2.trans (by decide)
  have e1 : bitsAt 1 31 w = 0 := r0.trans (by decide)
  have n0 : ¬ bitsAt 15 0 w = 0 := fun h => absurd (e0.symm.trans (bits_inside 0 10 h (by decide))) (by decide)
  simp only [decodeMajor3c, e0, e1, n0, y0, y1, y2, and_true, and_false, false_and, reduceIte, Nat.reduceEqDiff, reduceCtorEq]

theorem edge : ∀ x0 x1 x2, Statement (.edge x0 x1 x2) := by
  intro x0 x1 x2
  refine of_word rfl (fmt0 (K := 0x78000004) (by decide) rfl).1 (fun hi => ?_)
  generalize hw : put _ _ _ = w
  obtain ⟨_, r0, r1, r2, y0, y1, y2⟩ := fmt0 (K := 0x78000004) (by decide) hw
  rw [major_3c (r1.trans (by decide))]
  have e0 : bitsAt 10 0 w = 4 := r2.trans (by decide)
  have e1 : bitsAt 1 31 w = 0 := r0.trans (by decide)
  have n0 : ¬ bitsAt 15 0 w = 0 := fun h => absurd (e0.symm.trans (bits_inside 0 10 h (by decide))) (by decide)
  simp only [decodeMajor3c, e0, e1, n0, y0, y1, y2, and_true, and_false, false_and, reduceIte, Nat.reduceEqDiff, reduceCtorEq]

theorem ewait : ∀ x0 x1, Statement (.ewait x0 x1) := by
  intro x0 x1
  refine of_word rfl (fmt1 (K := 0x78000005) (by decide) rfl).1 (fun hi => ?_)
  generalize hw : put _ _ _ = w
  obtain ⟨_, r0, r1, r2, y0, y1⟩ := fmt1 (K := 0x78000005) (by decide) hw
  rw [major_3c (r1.trans (by decide))]
  have e0 : bitsAt 15 0 w = 5 := r2.trans (by decide)
  have e1 : bitsAt 1 31 w = 0 := r0.trans (by decide)
  have n0 : ¬ bitsAt 10 0 w = 1 := fun h => absurd (h.symm.trans (bits_inside 0 10 e0 (by decide))) (by decide)
  have n1 : ¬ bitsAt 10 0 w = 2 := fun h => absurd (h.symm.trans (bits_inside 0 10 e0 (by decide))) (by decide)
  have n2 : ¬ bitsAt 10 0 w = 3 := fun h => absurd (h.symm.trans (bits_inside 0 10 e0 (by decide))) (by decide)
  have n3 : ¬ bitsAt 10 0 w = 4 := fun h => absurd (h.symm.trans (bits_inside 0 10 e0 (by decide))) (by decide)
  simp only [decodeMajor3c, e0, e1, n0, n1, n2, n3, y0, y1, and_true, and_false, false_and, reduceIte, Nat.reduceEqDiff, reduceCtorEq]

theorem estat : ∀ x0 x1, Statement (.estat x0 x1) := by
  intro x0 x1
  refine of_word rfl (fmt1 (K := 0x78000006) (by decide) rfl).1 (fun hi => ?_)
  generalize hw : put _ _ _ = w
  obtain ⟨_, r0, r1, r2, y0, y1⟩ := fmt1 (K := 0x78000006) (by decide) hw
  rw [major_3c (r1.trans (by decide))]
  have e0 : bitsAt 15 0 w = 6 := r2.trans (by decide)
  have e1 : bitsAt 1 31 w = 0 := r0.trans (by decide)
  have n0 : ¬ bitsAt 10 0 w = 1 := fun h => absurd (h.symm.trans (bits_inside 0 10 e0 (by decide))) (by decide)
  have n1 : ¬ bitsAt 10 0 w = 2 := fun h => absurd (h.symm.trans (bits_inside 0 10 e0 (by decide))) (by decide)
  have n2 : ¬ bitsAt 10 0 w = 3 := fun h => absurd (h.symm.trans (bits_inside 0 10 e0 (by decide))) (by decide)
  have n3 : ¬ bitsAt 10 0 w = 4 := fun h => absurd (h.symm.trans (bits_inside 0 10 e0 (by decide))) (by decide)
  simp only [decodeMajor3c, e0, e1, n0, n1, n2, n3, y0, y1, and_true, and_false, false_and, reduceIte, Nat.reduceEqDiff, reduceCtorEq]

theorem ecancel : ∀ x0 x1, Statement (.ecancel x0 x1) := by
  intro x0 x1
  refine of_word rfl (fmt1 (K := 0x78000007) (by decide) rfl).1 (fun hi => ?_)
  generalize hw : put _ _ _ = w
  obtain ⟨_, r0, r1, r2, y0, y1⟩ := fmt1 (K := 0x78000007) (by decide) hw
  rw [major_3c (r1.trans (by decide))]
  have e0 : bitsAt 15 0 w = 7 := r2.trans (by decide)
  have e1 : bitsAt 1 31 w = 0 := r0.trans (by decide)
  have n0 : ¬ bitsAt 10 0 w = 1 := fun h => absurd (h.symm.trans (bits_inside 0 10 e0 (by decide))) (by decide)
  have n1 : ¬ bitsAt 10 0 w = 2 := fun h => absurd (h.symm.trans (bits_inside 0 10 e0 (by decide))) (by decide)
  have n2 : ¬ bitsAt 10 0 w = 3 := fun h => absurd (h.symm.trans (bits_inside 0 10 e0 (by decide))) (by decide)
  have n3 : ¬ bitsAt 10 0 w = 4 := fun h => absurd (h.symm.trans (bits_inside 0 10 e0 (by decide))) (by decide)
  simp only [decodeMajor3c, e0, e1, n0, n1, n2, n3, y0, y1, and_true, and_false, false_and, reduceIte, Nat.reduceEqDiff, reduceCtorEq]

theorem vamo : ∀ x0 x1 x2 x3 x4, Statement (.vamo x0 x1 x2 x3 x4) := by
  intro x0 x1 x2 x3 x4
  refine of_word rfl (fmt38 (K := 0x7a000000) (by decide) rfl).1 (fun hi => ?_)
  generalize hw : put _ _ _ = w
  obtain ⟨_, r0, r1, r2, y0, y1, y2, y3, y4⟩ := fmt38 (K := 0x7a000000) (by decide) hw
  rw [major_3d (r2.trans (by decide))]
  have e0 : bitsAt 1 4 w = 0 := r0.trans (by decide)
  have e1 : bitsAt 1 31 w = 0 := r1.trans (by decide)
  have hx0 := x0.isLt
  have hx1 := x1.isLt
  have hx2 := x2.isLt
  have hx3 := x3.isLt
  have hx4 := x4.isLt
  have hi2 : x4.toNat ≤ 9 := by simpa [Instr.wf, atomicOpAssigned] using hi
  simp only [put] at hw
  have n0 : ¬ bitsAt 25 0 w = 12 := by simp only [bitsAt]; omega
  have n1 : ¬ bitsAt 25 0 w = 13 := by simp only [bitsAt]; omega
  have n2 : ¬ bitsAt 10 0 w = 10 := by simp only [bitsAt]; omega
  have n3 : ¬ bitsAt 10 0 w = 17 := fun h => absurd (e0.symm.trans (bits_inside 4 1 h (by decide))) (by decide)
  have n4 : ¬ bitsAt 10 0 w = 14 := by simp only [bitsAt]; omega
  have n5 : ¬ bitsAt 10 0 w = 15 := by simp only [bitsAt]; omega
  have n6 : ¬ bitsAt 5 0 w = 11 := by simp only [bitsAt]; omega
  have n7 : ¬ bitsAt 5 0 w = 16 := fun h => absurd (e0.symm.trans (bits_inside 4 1 h (by decide))) (by decide)
  simp only [decodeMajor3d, e0, e1, n0, n1, n2, n3, n4, n5, n6, n7, y0, y1, y2, y3, y4, and_true, and_false, false_and, reduceIte, Nat.reduceEqDiff, reduceCtorEq]

theorem wdecl : ∀ x0 x1, Statement (.wdecl x0 x1) := by
  intro x0 x1
  refine of_word rfl (fmt7 (K := 0x7a00000a) (by decide) rfl).1 (fun hi => ?_)
  generalize hw : put _ _ _ = w
  obtain ⟨_, r0, r1, r2, r3, y0, y1⟩ := fmt7 (K := 0x7a00000a) (by decide) hw
  rw [major_3d (r2.trans (by decide))]
  have e0 : bitsAt 10 0 w = 10 := r3.trans (by decide)
  have e1 : bitsAt 5 20 w = 0 := r1.trans (by decide)
  have e2 : bitsAt 1 31 w = 0 := r0.trans (by decide)
  have n0 : ¬ bitsAt 25 0 w = 12 := fun h => absurd (e0.symm.trans (bits_inside 0 10 h (by decide))) (by decide)
  have n1 : ¬ bitsAt 25 0 w = 13 := fun h => absurd (e0.symm.trans (bits_inside 0 10 h (by decide))) (by decide)
  simp only [decodeMajor3d, e0, e1, e2, n0, n1, y0, y1, and_true, and_false, false_and, reduceIte, Nat.reduceEqDiff, reduceCtorEq]

theorem wupd : ∀ x0 x1 x2 x3, Statement (.wupd x0 x1 x2 x3) := by
  intro x0 x1 x2 x3
  refine of_word rfl (fmt22 (K := 0x7a00000b) (by decide) rfl).1 (fun hi => ?_)
  generalize hw : put _ _ _ = w
  obtain ⟨_, r0, r1, r2, y0, y1, y2, y3⟩ := fmt22 (K := 0x7a00000b) (by decide) hw
  rw [major_3d (r2.trans (by decide))]
  have e0 : bitsAt 5 0 w = 11 := r1.trans (by decide)
  have e1 : bitsAt 1 31 w = 0 := r0.trans (by decide)
  have n0 : ¬ bitsAt 25 0 w = 12 := fun h => absurd (e0.symm.trans (bits_inside 0 5 h (by decide))) (by decide)
  have n1 : ¬ bitsAt 25 0 w = 13 := fun h => absurd (e0.symm.trans (bits_inside 0 5 h (by decide))) (by decide)
  have n2 : ¬ bitsAt 10 0 w = 10 := fun h => absurd (e0.symm.trans (bits_inside 0 5 h (by decide))) (by decide)
  have n3 : ¬ bitsAt 10 0 w = 17 := fun h => absurd (e0.symm.trans (bits_inside 0 5 h (by decide))) (by decide)
  have n4 : ¬ bitsAt 10 0 w = 14 := fun h => absurd (e0.symm.trans (bits_inside 0 5 h (by decide))) (by decide)
  have n5 : ¬ bitsAt 10 0 w = 15 := fun h => absurd (e0.symm.trans (bits_inside 0 5 h (by decide))) (by decide)
  simp only [decodeMajor3d, e0, e1, n0, n1, n2, n3, n4, n5, y0, y1, y2, y3, and_true, and_false, false_and, reduceIte, Nat.reduceEqDiff, reduceCtorEq]

theorem wmerge : Statement .wmerge := by
  refine of_word rfl (by decide) (fun hi => by decide)

theorem wfree : Statement .wfree := by
  refine of_word rfl (by decide) (fun hi => by decide)

theorem rinst : ∀ x0 x1 x2, Statement (.rinst x0 x1 x2) := by
  intro x0 x1 x2
  refine of_word rfl (fmt0 (K := 0x7a00000e) (by decide) rfl).1 (fun hi => ?_)
  generalize hw : put _ _ _ = w
  obtain ⟨_, r0, r1, r2, y0, y1, y2⟩ := fmt0 (K := 0x7a00000e) (by decide) hw
  rw [major_3d (r1.trans (by decide))]
  have e0 : bitsAt 10 0 w = 14 := r2.trans (by decide)
  have e1 : bitsAt 1 31 w = 0 := r0.trans (by decide)
  have n0 : ¬ bitsAt 25 0 w = 12 := fun h => absurd (e0.symm.trans (bits_inside 0 10 h (by decide))) (by decide)
  have n1 : ¬ bitsAt 25 0 w = 13 := fun h => absurd (e0.symm.trans (bits_inside 0 10 h (by decide))) (by decide)
  simp only [decodeMajor3d, e0, e1, n0, n1, y0, y1, y2, and_true, and_false, false_and, reduceIte, Nat.reduceEqDiff, reduceCtorEq]

theorem rcall : ∀ x0 x1 x2, Statement (.rcall x0 x1 x2) := by
  intro x0 x1 x2
  refine of_word rfl (fmt0 (K := 0x7a00000f) (by decide) rfl).1 (fun hi => ?_)
  generalize hw : put _ _ _ = w
  obtain ⟨_, r0, r1, r2, y0, y1, y2⟩ := fmt0 (K := 0x7a00000f) (by decide) hw
  rw [major_3d (r1.trans (by decide))]
  have e0 : bitsAt 10 0 w = 15 := r2.trans (by decide)
  have e1 : bitsAt 1 31 w = 0 := r0.trans (by decide)
  have n0 : ¬ bitsAt 25 0 w = 12 := fun h => absurd (e0.symm.trans (bits_inside 0 10 h (by decide))) (by decide)
  have n1 : ¬ bitsAt 25 0 w = 13 := fun h => absurd (e0.symm.trans (bits_inside 0 10 h (by decide))) (by decide)
  simp only [decodeMajor3d, e0, e1, n0, n1, y0, y1, y2, and_true, and_false, false_and, reduceIte, Nat.reduceEqDiff, reduceCtorEq]

theorem rcallv : ∀ x0 x1 x2 x3, Statement (.rcallv x0 x1 x2 x3) := by
  intro x0 x1 x2 x3
  refine of_word rfl (fmt22 (K := 0x7a000010) (by decide) rfl).1 (fun hi => ?_)
  generalize hw : put _ _ _ = w
  obtain ⟨_, r0, r1, r2, y0, y1, y2, y3⟩ := fmt22 (K := 0x7a000010) (by decide) hw
  rw [major_3d (r2.trans (by decide))]
  have e0 : bitsAt 5 0 w = 16 := r1.trans (by decide)
  have e1 : bitsAt 1 31 w = 0 := r0.trans (by decide)
  have n0 : ¬ bitsAt 25 0 w = 12 := fun h => absurd (e0.symm.trans (bits_inside 0 5 h (by decide))) (by decide)
  have n1 : ¬ bitsAt 25 0 w = 13 := fun h => absurd (e0.symm.trans (bits_inside 0 5 h (by decide))) (by decide)
  have n2 : ¬ bitsAt 10 0 w = 10 := fun h => absurd (e0.symm.trans (bits_inside 0 5 h (by decide))) (by decide)
  have n3 : ¬ bitsAt 10 0 w = 17 := fun h => absurd (e0.symm.trans (bits_inside 0 5 h (by decide))) (by decide)
  have n4 : ¬ bitsAt 10 0 w = 14 := fun h => absurd (e0.symm.trans (bits_inside 0 5 h (by decide))) (by decide)
  have n5 : ¬ bitsAt 10 0 w = 15 := fun h => absurd (e0.symm.trans (bits_inside 0 5 h (by decide))) (by decide)
  simp only [decodeMajor3d, e0, e1, n0, n1, n2, n3, n4, n5, y0, y1, y2, y3, and_true, and_false, false_and, reduceIte, Nat.reduceEqDiff, reduceCtorEq]

theorem rfree : ∀ x0 x1, Statement (.rfree x0 x1) := by
  intro x0 x1
  refine of_word rfl (fmt39 (K := 0x7a000011) (by decide) rfl).1 (fun hi => ?_)
  generalize hw : put _ _ _ = w
  obtain ⟨_, r0, r1, r2, r3, y0, y1⟩ := fmt39 (K := 0x7a000011) (by decide) hw
  rw [major_3d (r2.trans (by decide))]
  have e0 : bitsAt 10 0 w = 17 := r3.trans (by decide)
  have e1 : bitsAt 5 15 w = 0 := r1.trans (by decide)
  have e2 : bitsAt 1 31 w = 0 := r0.trans (by decide)
  have n0 : ¬ bitsAt 25 0 w = 12 := fun h => absurd (e0.symm.trans (bits_inside 0 10 h (by decide))) (by decide)
  have n1 : ¬ bitsAt 25 0 w = 13 := fun h => absurd (e0.symm.trans (bits_inside 0 10 h (by decide))) (by decide)
  simp only [decodeMajor3d, e0, e1, e2, n0, n1, y0, y1, and_true, and_false, false_and, reduceIte, Nat.reduceEqDiff, reduceCtorEq]

theorem twset : ∀ x0 x1 x2, Statement (.twset x0 x1 x2) := by
  intro x0 x1 x2
  refine of_word rfl (fmt0 (K := 0x7c000000) (by decide) rfl).1 (fun hi => ?_)
  generalize hw : put _ _ _ = w
  obtain ⟨_, r0, r1, r2, y0, y1, y2⟩ := fmt0 (K := 0x7c000000) (by decide) hw
  rw [major_3e (r1.trans (by decide))]
  have e0 : bitsAt 10 0 w = 0 := r2.trans (by decide)
  have e1 : bitsAt 1 31 w = 0 := r0.trans (by decide)
  simp only [decodeMajor3e, e0, e1, y0, y1, y2, and_true, and_false, false_and, reduceIte, Nat.reduceEqDiff, reduceCtorEq]

theorem twclr : ∀ x0 x1, Statement (.twclr x0 x1) := by
  intro x0 x1
  refine of_word rfl (fmt39 (K := 0x7c000001) (by decide) rfl).1 (fun hi => ?_)
  generalize hw : put _ _ _ = w
  obtain ⟨_, r0, r1, r2, r3, y0, y1⟩ := fmt39 (K := 0x7c000001) (by decide) hw
  rw [major_3e (r2.trans (by decide))]
  have e0 : bitsAt 10 0 w = 1 := r3.trans (by decide)
  have e1 : bitsAt 5 15 w = 0 := r1.trans (by decide)
  have e2 : bitsAt 1 31 w = 0 := r0.trans (by decide)
  simp only [decodeMajor3e, e0, e1, e2, y0, y1, and_true, and_false, false_and, reduceIte, Nat.reduceEqDiff, reduceCtorEq]

theorem twchk : ∀ x0 x1 x2 x3, Statement (.twchk x0 x1 x2 x3) := by
  intro x0 x1 x2 x3
  refine of_word rfl (fmt22 (K := 0x7c000002) (by decide) rfl).1 (fun hi => ?_)
  generalize hw : put _ _ _ = w
  obtain ⟨_, r0, r1, r2, y0, y1, y2, y3⟩ := fmt22 (K := 0x7c000002) (by decide) hw
  rw [major_3e (r2.trans (by decide))]
  have e0 : bitsAt 5 0 w = 2 := r1.trans (by decide)
  have e1 : bitsAt 1 31 w = 0 := r0.trans (by decide)
  have n0 : ¬ bitsAt 10 0 w = 0 := fun h => absurd (e0.symm.trans (bits_inside 0 5 h (by decide))) (by decide)
  have n1 : ¬ bitsAt 10 0 w = 1 := fun h => absurd (e0.symm.trans (bits_inside 0 5 h (by decide))) (by decide)
  simp only [decodeMajor3e, e0, e1, n0, n1, y0, y1, y2, y3, and_true, and_false, false_and, reduceIte, Nat.reduceEqDiff, reduceCtorEq]

theorem twconf : ∀ x0 x1 x2 x3, Statement (.twconf x0 x1 x2 x3) := by
  intro x0 x1 x2 x3
  refine of_word rfl (fmt22 (K := 0x7c000003) (by decide) rfl).1 (fun hi => ?_)
  generalize hw : put _ _ _ = w
  obtain ⟨_, r0, r1, r2, y0, y1, y2, y3⟩ := fmt22 (K := 0x7c000003) (by decide) hw
  rw [major_3e (r2.trans (by decide))]
  have e0 : bitsAt 5 0 w = 3 := r1.trans (by decide)
  have e1 : bitsAt 1 31 w = 0 := r0.trans (by decide)
  have n0 : ¬ bitsAt 10 0 w = 0 := fun h => absurd (e0.symm.trans (bits_inside 0 5 h (by decide))) (by decide)
  have n1 : ¬ bitsAt 10 0 w = 1 := fun h => absurd (e0.symm.trans (bits_inside 0 5 h (by decide))) (by decide)
  simp only [decodeMajor3e, e0, e1, n0, n1, y0, y1, y2, y3, and_true, and_false, false_and, reduceIte, Nat.reduceEqDiff, reduceCtorEq]

theorem twread : ∀ x0 x1, Statement (.twread x0 x1) := by
  intro x0 x1
  refine of_word rfl (fmt1 (K := 0x7c000004) (by decide) rfl).1 (fun hi => ?_)
  generalize hw : put _ _ _ = w
  obtain ⟨_, r0, r1, r2, y0, y1⟩ := fmt1 (K := 0x7c000004) (by decide) hw
  rw [major_3e (r1.trans (by decide))]
  have e0 : bitsAt 15 0 w = 4 := r2.trans (by decide)
  have e1 : bitsAt 1 31 w = 0 := r0.trans (by decide)
  have n0 : ¬ bitsAt 10 0 w = 0 := fun h => absurd (h.symm.trans (bits_inside 0 10 e0 (by decide))) (by decide)
  have n1 : ¬ bitsAt 10 0 w = 1 := fun h => absurd (h.symm.trans (bits_inside 0 10 e0 (by decide))) (by decide)
  have n2 : ¬ bitsAt 5 0 w = 2 := fun h => absurd (h.symm.trans (bits_inside 0 5 e0 (by decide))) (by decide)
  have n3 : ¬ bitsAt 5 0 w = 3 := fun h => absurd (h.symm.trans (bits_inside 0 5 e0 (by decide))) (by decide)
  simp only [decodeMajor3e, e0, e1, n0, n1, n2, n3, y0, y1, and_true, and_false, false_and, reduceIte, Nat.reduceEqDiff, reduceCtorEq]

theorem sliceCall : ∀ a0 a1 a2 a3 a4, Statement (.sliceCall a0 a1 a2 a3 a4) :=
  fun _ _ _ _ _ => of_event rfl

theorem registerWrite : ∀ a0 a1 a2, Statement (.registerWrite a0 a1 a2) :=
  fun _ _ _ => of_event rfl

theorem frameAssign : ∀ a0 a1 a2, Statement (.frameAssign a0 a1 a2) :=
  fun _ _ _ => of_event rfl

theorem frameRelease : ∀ a0 a1, Statement (.frameRelease a0 a1) :=
  fun _ _ => of_event rfl

theorem frameQuery : ∀ a0, Statement (.frameQuery a0) :=
  fun _ => of_event rfl

theorem releaseComplete : Statement .releaseComplete := of_event rfl

theorem mapWrite : ∀ a0 a1, Statement (.mapWrite a0 a1) :=
  fun _ _ => of_event rfl

theorem mapRemove : ∀ a0 a1, Statement (.mapRemove a0 a1) :=
  fun _ _ => of_event rfl

theorem mapRead : ∀ a0 a1, Statement (.mapRead a0 a1) :=
  fun _ _ => of_event rfl

theorem removalComplete : Statement .removalComplete := of_event rfl

theorem migpush : ∀ a0 a1, Statement (.migpush a0 a1) :=
  fun _ _ => of_event rfl

theorem migrate : ∀ a0 a1, Statement (.migrate a0 a1) :=
  fun _ _ => of_event rfl

theorem migrationComplete : ∀ a0 a1, Statement (.migrationComplete a0 a1) :=
  fun _ _ => of_event rfl

theorem counterHalving : Statement .counterHalving := of_event rfl

theorem pageWalk : ∀ a0 a1 a2, Statement (.pageWalk a0 a1 a2) :=
  fun _ _ _ => of_event rfl

theorem s1invWrite : ∀ a0 a1, Statement (.s1invWrite a0 a1) :=
  fun _ _ => of_event rfl

theorem s1invComplete : ∀ a0, Statement (.s1invComplete a0) :=
  fun _ => of_event rfl

theorem fqcfgWrite : ∀ a0 a1, Statement (.fqcfgWrite a0 a1) :=
  fun _ _ => of_event rfl

theorem fqheadWrite : ∀ a0 a1, Statement (.fqheadWrite a0 a1) :=
  fun _ _ => of_event rfl

theorem l2Fill : ∀ a0 a1 a2, Statement (.l2Fill a0 a1 a2) :=
  fun _ _ _ => of_event rfl

theorem l2Writeback : ∀ a0, Statement (.l2Writeback a0) :=
  fun _ => of_event rfl

theorem ingestSection : ∀ a0 a1 a2 a3 a4 a5 a6 a7 a8 a9 a10, Statement (.ingestSection a0 a1 a2 a3 a4 a5 a6 a7 a8 a9 a10) :=
  fun _ _ _ _ _ _ _ _ _ _ _ => of_event rfl

theorem slotClose : ∀ a0 a1 a2 a3, Statement (.slotClose a0 a1 a2 a3) :=
  fun _ _ _ _ => of_event rfl

theorem irctlWrite : ∀ a0 a1 a2, Statement (.irctlWrite a0 a1 a2) :=
  fun _ _ _ => of_event rfl

theorem flctlWrite : ∀ a0 a1, Statement (.flctlWrite a0 a1) :=
  fun _ _ => of_event rfl

theorem egressFetch : ∀ a0 a1, Statement (.egressFetch a0 a1) :=
  fun _ _ => of_event rfl

theorem egressTransmit : ∀ a0 a1, Statement (.egressTransmit a0 a1) :=
  fun _ _ => of_event rfl

theorem engineStart : ∀ a0, Statement (.engineStart a0) :=
  fun _ => of_event rfl

theorem copyComplete : ∀ a0, Statement (.copyComplete a0) :=
  fun _ => of_event rfl

theorem codingComplete : ∀ a0, Statement (.codingComplete a0) :=
  fun _ => of_event rfl

theorem engineStop : ∀ a0 a1, Statement (.engineStop a0 a1) :=
  fun _ _ => of_event rfl

theorem budgetReset : Statement .budgetReset := of_event rfl

theorem aownWrite : ∀ a0 a1 a2, Statement (.aownWrite a0 a1 a2) :=
  fun _ _ _ => of_event rfl

theorem acfgWrite : ∀ a0 a1, Statement (.acfgWrite a0 a1) :=
  fun _ _ => of_event rfl

theorem vgcapWrite : ∀ a0 a1, Statement (.vgcapWrite a0 a1) :=
  fun _ _ => of_event rfl

theorem rtctlWrite : ∀ a0 a1, Statement (.rtctlWrite a0 a1) :=
  fun _ _ => of_event rfl

theorem wseqWrite : ∀ a0 a1, Statement (.wseqWrite a0 a1) :=
  fun _ _ => of_event rfl

theorem pwrcapWrite : ∀ a0, Statement (.pwrcapWrite a0) :=
  fun _ => of_event rfl

theorem governorSample : ∀ a0 a1, Statement (.governorSample a0 a1) :=
  fun _ _ => of_event rfl

theorem thermalTrip : ∀ a0, Statement (.thermalTrip a0) :=
  fun _ => of_event rfl

theorem rateReduction : ∀ a0, Statement (.rateReduction a0) :=
  fun _ => of_event rfl

theorem launch : ∀ a0, Statement (.launch a0) :=
  fun _ => of_event rfl

theorem map : ∀ a0, Statement (.map a0) :=
  fun _ => of_event rfl

theorem unmap : ∀ a0, Statement (.unmap a0) :=
  fun _ => of_event rfl

theorem copy : ∀ a0, Statement (.copy a0) :=
  fun _ => of_event rfl

theorem watch : ∀ a0, Statement (.watch a0) :=
  fun _ => of_event rfl

theorem notify : ∀ a0, Statement (.notify a0) :=
  fun _ => of_event rfl

theorem attest : ∀ a0, Statement (.attest a0) :=
  fun _ => of_event rfl

theorem functionReset : ∀ a0, Statement (.functionReset a0) :=
  fun _ => of_event rfl

theorem pageResponse : ∀ a0 a1 a2 a3 a4 a5, Statement (.pageResponse a0 a1 a2 a3 a4 a5) :=
  fun _ _ _ _ _ _ => of_event rfl

theorem proxyResponse : ∀ a0 a1, Statement (.proxyResponse a0 a1) :=
  fun _ _ => of_event rfl

theorem hostAccess : ∀ a0 a1 a2, Statement (.hostAccess a0 a1 a2) :=
  fun _ _ _ => of_event rfl

theorem hostSnoop : ∀ a0 a1, Statement (.hostSnoop a0 a1) :=
  fun _ _ => of_event rfl

theorem backInvalidateResponse : ∀ a0, Statement (.backInvalidateResponse a0) :=
  fun _ => of_event rfl

theorem twinInbound : ∀ a0 a1 a2, Statement (.twinInbound a0 a1 a2) :=
  fun _ _ _ => of_event rfl

theorem trainArrival : ∀ a0 a1, Statement (.trainArrival a0 a1) :=
  fun _ _ => of_event rfl

theorem trainAck : ∀ a0 a1, Statement (.trainAck a0 a1) :=
  fun _ _ => of_event rfl

theorem dispatch : ∀ a0, Statement (.dispatch a0) :=
  fun _ => of_event rfl

theorem preemptTimeout : ∀ a0, Statement (.preemptTimeout a0) :=
  fun _ => of_event rfl

theorem handlerTimeout : ∀ a0, Statement (.handlerTimeout a0) :=
  fun _ => of_event rfl

theorem yieldTimeout : ∀ a0, Statement (.yieldTimeout a0) :=
  fun _ => of_event rfl

theorem windowWaitExpiry : ∀ a0, Statement (.windowWaitExpiry a0) :=
  fun _ => of_event rfl

theorem forcedStop : ∀ a0, Statement (.forcedStop a0) :=
  fun _ => of_event rfl

theorem partWayStop : ∀ a0 a1, Statement (.partWayStop a0 a1) :=
  fun _ _ => of_event rfl

theorem deadlineReached : ∀ a0 a1, Statement (.deadlineReached a0 a1) :=
  fun _ _ => of_event rfl

theorem abandonStop : ∀ a0, Statement (.abandonStop a0) :=
  fun _ => of_event rfl

theorem markerWrite : ∀ a0 a1, Statement (.markerWrite a0 a1) :=
  fun _ _ => of_event rfl

theorem setvlRestart : ∀ a0, Statement (.setvlRestart a0) :=
  fun _ => of_event rfl

theorem napWake : ∀ a0, Statement (.napWake a0) :=
  fun _ => of_event rfl

theorem barwaitResume : ∀ a0, Statement (.barwaitResume a0) :=
  fun _ => of_event rfl

theorem ewaitResume : ∀ a0, Statement (.ewaitResume a0) :=
  fun _ => of_event rfl

theorem commitWaitEnd : ∀ a0, Statement (.commitWaitEnd a0) :=
  fun _ => of_event rfl

theorem queueWaitEnd : ∀ a0, Statement (.queueWaitEnd a0) :=
  fun _ => of_event rfl

theorem pendingLineFree : ∀ a0, Statement (.pendingLineFree a0) :=
  fun _ => of_event rfl

theorem tileReleaseWait : ∀ a0, Statement (.tileReleaseWait a0) :=
  fun _ => of_event rfl

theorem qdrainEnd : ∀ a0, Statement (.qdrainEnd a0) :=
  fun _ => of_event rfl

theorem phendResume : ∀ a0, Statement (.phendResume a0) :=
  fun _ => of_event rfl

theorem chainDetach : ∀ a0 a1, Statement (.chainDetach a0 a1) :=
  fun _ _ => of_event rfl

theorem bridgeError : ∀ a0, Statement (.bridgeError a0) :=
  fun _ => of_event rfl

theorem dbgtWrite : ∀ a0 a1, Statement (.dbgtWrite a0 a1) :=
  fun _ _ => of_event rfl

theorem frzWrite : ∀ a0, Statement (.frzWrite a0) :=
  fun _ => of_event rfl

theorem trctlWrite : ∀ a0 a1, Statement (.trctlWrite a0 a1) :=
  fun _ _ => of_event rfl

theorem triggerFire : ∀ a0 a1 a2, Statement (.triggerFire a0 a1 a2) :=
  fun _ _ _ => of_event rfl

theorem triggerArrival : ∀ a0 a1 a2, Statement (.triggerArrival a0 a1 a2) :=
  fun _ _ _ => of_event rfl

theorem triggerAction : ∀ a0 a1 a2 a3, Statement (.triggerAction a0 a1 a2 a3) :=
  fun _ _ _ _ => of_event rfl

theorem powerOnReset : Statement .powerOnReset := of_event rfl

theorem bringupComplete : Statement .bringupComplete := of_event rfl

theorem storeBufferDrain : ∀ a0, Statement (.storeBufferDrain a0) :=
  fun _ => of_event rfl

theorem cancelledCommandStop : ∀ a0 a1, Statement (.cancelledCommandStop a0 a1) :=
  fun _ _ => of_event rfl

theorem resumeAfterDetach : ∀ a0 a1, Statement (.resumeAfterDetach a0 a1) :=
  fun _ _ => of_event rfl

theorem ptpServoStep : ∀ a0, Statement (.ptpServoStep a0) :=
  fun _ => of_event rfl

theorem twinLinkState : ∀ a0, Statement (.twinLinkState a0) :=
  fun _ => of_event rfl

theorem uncorrectableError : ∀ a0, Statement (.uncorrectableError a0) :=
  fun _ => of_event rfl

theorem illegalWord : ∀ a0, Statement (.illegalWord a0) :=
  fun _ => of_event rfl

theorem fetchFault : ∀ a0, Statement (.fetchFault a0) :=
  fun _ => of_event rfl

theorem unknownOpEntry : ∀ a0, Statement (.unknownOpEntry a0) :=
  fun _ => of_event rfl

end Sys2Proof.Laws.RoundTrip
end

