-- ==== Sys2Proof/Laws/Trace.lean ====
section
/-!
SUPPORT. What the shared operations of the trace units and the power governor keep (R438, R445): the FIFO of a
trace unit never holds more than 64 records, and the governor keeps at most four samples.
-/

namespace Sys2Proof.Machine

@[simp] theorem State.vc_modVc_same (s : State) (n : Nat) (f : Vc → Vc) : (s.modVc n f).vc n = f (s.vc n) :=
  tget_tset_same ..

theorem State.vc_modVc_other (s : State) (n m : Nat) (f : Vc → Vc) (h : m ≠ n) : (s.modVc n f).vc m = s.vc m :=
  tget_tset_other _ _ _ _ _ h

/-- A change of a VC that leaves its FIFO alone leaves every FIFO alone. -/
theorem State.fifo_modVc (s : State) (n m : Nat) (f : Vc → Vc) (h : ∀ v : Vc, (f v).trFifo = v.trFifo) :
    ((s.modVc n f).vc m).trFifo = (s.vc m).trFifo := by
  by_cases e : m = n
  · subst e; rw [State.vc_modVc_same, h]
  · rw [State.vc_modVc_other s n m f e]

/-- Bytes written at their homes leave every FIFO alone. -/
@[simp] theorem State.fifo_pokeBytes (s : State) (kid m : Nat) (keep : Option Nat) (ws : List (Nat × Byte)) :
    ((s.pokeBytes kid keep ws).vc m).trFifo = (s.vc m).trFifo := by
  have fold : ∀ t : State, ((ws.foldl (fun u w =>
      (u.pokeByte w.1 (u.inSharing w.1 kid) w.2).dropDcache keep w.1) t).vc m).trFifo = (t.vc m).trFifo := by
    intro t
    refine foldl_keeps (fun u : State => (u.vc m).trFifo = (t.vc m).trFifo) _ (fun u w hu => ?_) _ _ rfl
    refine foldl_keeps (fun u : State => (u.vc m).trFifo = (t.vc m).trFifo) _ (fun u v hv => ?_) _ _ ?_
    · refine Eq.trans ?_ hv
      apply State.fifo_modVc
      intro _; rfl
    · rw [State.pokeByte]
      split
      · exact hu
      · exact hu
  unfold State.pokeBytes
  simp only
  split
  · exact fold s
  · exact fold s

/-- A record written to the buffer leaves every FIFO alone (R439). -/
@[simp] theorem State.fifo_putRecord (s : State) (vc m : Nat) (x : W64) :
    ((s.putRecord vc x).vc m).trFifo = (s.vc m).trFifo := by
  simp only [State.putRecord]
  split
  · rw [State.fifo_modVc (f := _) (h := ?h)]
    · exact State.fifo_pokeBytes ..
    · intro _; rfl
  · rfl

/-- The FIFO of a trace unit only gets shorter as it is written out (R438). -/
theorem State.fifo_traceDrain (s : State) (vc n : Nat) :
    ((s.traceDrain vc n).vc vc).trFifo.length ≤ (s.vc vc).trFifo.length := by
  induction n generalizing s with
  | zero => exact Nat.le_refl _
  | succ n ih =>
    simp only [State.traceDrain]
    split
    · exact Nat.le_refl _
    · next h =>
      split
      · refine Nat.le_trans (ih _) ?_
        simp [h]
      · simp

/-- No record takes the FIFO of a trace unit past 64 (R438), whatever else changes when it enters. -/
theorem State.fifo_pushRecord (s : State) (vc : Nat) (x : W64) (g : Vc → Vc)
    (h : (s.vc vc).trFifo.length ≤ 64) : ((s.pushRecord vc x g).vc vc).trFifo.length ≤ 64 := by
  have hd := Nat.le_trans (State.fifo_traceDrain s vc (Config.freeNat s.free % 65)) h
  simp only [State.pushRecord, State.vc_modVc_same]
  split
  · exact hd
  · split
    · simp only [List.length_append, List.length_singleton]; omega
    · exact hd

/-- The governor keeps at most four samples (R445). -/
theorem Hub.sampled_length (h : Hub) (draw : BitVec 10) : (h.sampled draw).pwDraws.length ≤ 4 := by
  simp only [Hub.sampled, List.length_cons, List.length_take]
  omega

end Sys2Proof.Machine
end

