-- ==== Sys2Proof/Laws/Vector.lean ====
section
/-!
SUPPORT. The shared forms of the element-wise instructions, where their checks pass.
-/

namespace Sys2Proof.Machine

open Sys2Proof

variable {s : State} {types : Vt → Bool} {d a b p : BitVec 5}

/-- An element-wise instruction whose checks pass writes the results of its active elements. -/
theorem State.elemWise_ok {more : List (BitVec 5)} {f : State → Vt → Nat → Res}
    (h : s.vecOk (d :: a :: more) types = true) :
    s.elemWise types d a p more f =
      ((if (s.actives p).isEmpty then s else (s.mapElems d p (f s s.vt)).copyScales d a)).retires := by
  refine State.conclude_ok ?_
  rw [M.bind_ok _ _ s s _ (vectorChecks_ok h)]
  rfl

/-- Two vector sources. -/
theorem State.binary_vec_ok {f : Vt → Nat → Nat → Out} (h : s.vecOk [d, a, b] types = true) :
    s.binary types d a (.vec b) p f =
      s.elemNext d a p (fun e => f s.vt (s.elem a e) (s.elem b e)) :=
  State.elemWise_ok (more := [b]) h

/-- A vector and a scalar source. -/
theorem State.binary_sca_ok {f : Vt → Nat → Nat → Out} (h : s.vecOk [d, a] types = true) :
    s.binary types d a (.sca b) p f =
      s.elemNext d a p (fun e => f s.vt (s.elem a e) (s.scalarElem b)) :=
  State.elemWise_ok (more := []) h

/-- One vector source. -/
theorem State.unary_ok {f : Vt → Nat → Out} (h : s.vecOk [d, a] types = true) :
    s.unary types d a p f = s.elemNext d a p (fun e => f s.vt (s.elem a e)) :=
  State.elemWise_ok (more := []) h

/-- A conversion whose types may be converted. -/
theorem State.conv_ok {gs : Nat} {far : Bool} {src : Vt → Option Ty} {st : Ty}
    (h : s.vecOk [d] (fun _ => true) = true) (hg : groupOk s.vt (gs * s.vt.gm) a = true)
    (hs : src s.vt = some st) (hc : convOk st s.vt.ty = true)
    (hm : (far && rangesMeet d.toNat s.vt.gm a.toNat (gs * s.vt.gm)) = false) :
    s.conv d a p gs far src =
      (s.mapElems d p (fun e => s.vt.res (convertElem st s.vt.ty s.vt.sat s.vt.rnd
        (s.elemOf (gs * s.vt.gm) st.width a.toNat e)))).retires := by
  refine State.conclude_ok ?_
  rw [M.bind_ok _ _ s s _ (vectorChecks_ok h), need_bind, if_pos hg]
  simp only [hs]
  rw [need_bind, if_pos hc, need_bind, if_pos (by simp only [hm]; rfl)]
  rfl

end Sys2Proof.Machine
end

