-- ==== Sys2Proof/Tests/Slice0.lean ====
section
/-!
SUPPORT. Tests: ill-formed terms, one word of each instruction, the manual's worked examples and rules one
step each, and a concrete state that meets the hypotheses of each obligation. Expected results are the
manual's own numbers or worked out by hand from its rules.
-/

namespace Sys2Proof

set_option Elab.async false

/-! ### Well-formedness: an ill-formed term for each check -/

/-- R140: fields that name a predicate hold 1 to 31. -/
theorem test_wf_predicates :
    [.pand false 0 1 2 0, .pand false 1 0 2 0, .por false 1 2 0 0, .pxor false 0 1 2 0, .pandn false 1 0 2 0,
      .pnot false 0 1 0, .pnot false 1 0 0, .pseta false 0 0, .pfirst false 0 1 0, .ppopc false 3 0 0,
      .pscan false 1 0 0, .vcmp false 0 1 2 0 0, .vcmpVs false 0 1 2 0 0, .mmas 0 1 2 0].all
        (fun i : Instr => !i.wf) = true := by decide
/-- R142, R143, R183, R345, R358: operations, conditions, scopes and banks that are not assigned. -/
theorem test_wf_codes :
    [.amo 1 2 3 0 0 10, .vamo 1 2 3 0 10, .vcmp false 3 1 2 0 14, .vcmpVs false 3 1 2 0 15, .fence 6,
      .pmovl false 1 2 3, .pmovl false 1 2 12, .pld false 1 2 3, .pst false 1 2 3].all
        (fun i : Instr => !i.wf) = true := by decide +kernel
/-- R12, R13, R44: units that the package does not have. -/
theorem test_wf_units :
    [.napWake 1984, .mmaComplete 1984, .dispatch 20, .launch 384, .trctlWrite 496 0, .slotClose 16 0 0 0,
      .slotClose 0 8 0 0, .irctlWrite 0 8 0, .engineStart 40, .flctlWrite 256 0, .egressFetch 256 0,
      .sliceCall 384 0 0 0 0, .sliceCall 0 16 0 0 0, .pageResponse 20 0 0 0 0 0, .triggerArrival 0 0 496,
      .ingestSection 8 0 0 0 0 0 0 0 0 0 []].all (fun i : Instr => !i.wf) = true := by decide
/-- The last unit of each kind is one. -/
theorem test_wf_last_units :
    [.napWake 1983, .dispatch 19, .launch 383, .trctlWrite 495 0, .slotClose 15 7 0 0, .engineStart 39,
      .flctlWrite 255 0, .sliceCall 383 15 0 0 0].all (fun i : Instr => i.wf) = true := by decide

/-! ### Words that are no instruction (R140, R144) -/

theorem test_decode_refuses :
    decodeWord 0 = .error .majorUnassigned ∧ decodeWord 0xFFFFFFFF = .error .majorUnassigned ∧
      decodeWord 0x82000000 = .error .fieldIllegal ∧ decodeWord 0x02000014 = .error .fieldIllegal ∧
      decodeWord 0x02000411 = .error .fieldIllegal ∧ decodeWord 0x140000A0 = .error .fieldIllegal ∧
      decode [0, 0, 2] = .error .tooShort := ⟨rfl, rfl, rfl, rfl, rfl, rfl, rfl⟩
/-- Storage order is little-endian (R2), and the rest of the bytes is left. -/
theorem test_decode_bytes :
    (match decode [0x00, 0x14, 0x32, 0x02, 7] with
     | .ok (i, r) => decide (i = .add 3 4 5 ∧ r = [7])
     | .error _ => false) = true ∧
      decodeTableWord 32 0x02321400 = some (.add 3 4 5) ∧ decodeTableWord 32 0 = none := by decide +kernel

/-! ### Decoding: words written out from R137 to R143 -/

/-- One word of each instruction of major 0x01 (R141). -/
theorem test_decode_major_01 :
    decodeWord 0x0355F800 = .ok (.add 21 11 30) ∧
    decodeWord 0x0355F801 = .ok (.sub 21 11 30) ∧
    decodeWord 0x0355F802 = .ok (.and 21 11 30) ∧
    decodeWord 0x0355F803 = .ok (.or 21 11 30) ∧
    decodeWord 0x0355F804 = .ok (.xor 21 11 30) ∧
    decodeWord 0x0355F805 = .ok (.andn 21 11 30) ∧
    decodeWord 0x0355F806 = .ok (.sll 21 11 30) ∧
    decodeWord 0x0355F807 = .ok (.srl 21 11 30) ∧
    decodeWord 0x0355F808 = .ok (.sra 21 11 30) ∧
    decodeWord 0x0355F809 = .ok (.slt 21 11 30) ∧
    decodeWord 0x0355F80A = .ok (.sltn 21 11 30) ∧
    decodeWord 0x0355F80B = .ok (.mul 21 11 30) ∧
    decodeWord 0x0355F80C = .ok (.mulh 21 11 30) ∧
    decodeWord 0x0355F80D = .ok (.div 21 11 30) ∧
    decodeWord 0x0355F80E = .ok (.divn 21 11 30) ∧
    decodeWord 0x0355F80F = .ok (.rem 21 11 30) ∧
    decodeWord 0x0355F810 = .ok (.remn 21 11 30) ∧
    decodeWord 0x03558011 = .ok (.clz 21 11) ∧
    decodeWord 0x03558012 = .ok (.popc 21 11) ∧
    decodeWord 0x03558013 = .ok (.brev 21 11) := by
  refine ⟨rfl, rfl, rfl, rfl, rfl, rfl, rfl, rfl, rfl, rfl, rfl, rfl, rfl, rfl, rfl, rfl, rfl, rfl, rfl, rfl⟩

/-- One word of each instruction of major 0x02 (R141). -/
theorem test_decode_major_02 :
    decodeWord 0x055589C5 = .ok (.addi 21 11 2501) ∧
    decodeWord 0x055599C5 = .ok (.andi 21 11 2501) ∧
    decodeWord 0x0555A9C5 = .ok (.ori 21 11 2501) ∧
    decodeWord 0x0555B9C5 = .ok (.xori 21 11 2501) ∧
    decodeWord 0x0555C02A = .ok (.slli 21 11 42) ∧
    decodeWord 0x0555D02A = .ok (.srli 21 11 42) ∧
    decodeWord 0x0555E02A = .ok (.srai 21 11 42) ∧
    decodeWord 0x0555F9C5 = .ok (.slti 21 11 2501) := by
  refine ⟨rfl, rfl, rfl, rfl, rfl, rfl, rfl, rfl⟩

/-- One word of each instruction of major 0x03 (R141). -/
theorem test_decode_major_03 :
    decodeWord 0x0759D3E7 = .ok (.lui 21 644071) := rfl

/-- One word of each instruction of major 0x04 (R141). -/
theorem test_decode_major_04 :
    decodeWord 0x0959D3E7 = .ok (.addpc 21 644071) := rfl

/-- One word of each instruction of major 0x08 (R141). -/
theorem test_decode_major_08 :
    decodeWord 0x115589C5 = .ok (.lb 21 11 2501) ∧
    decodeWord 0x115599C5 = .ok (.lh 21 11 2501) ∧
    decodeWord 0x1155A9C5 = .ok (.lw 21 11 2501) ∧
    decodeWord 0x1155B9C5 = .ok (.ld 21 11 2501) ∧
    decodeWord 0x1155C9C5 = .ok (.lbn 21 11 2501) ∧
    decodeWord 0x1155D9C5 = .ok (.lhn 21 11 2501) ∧
    decodeWord 0x1155E9C5 = .ok (.lwn 21 11 2501) ∧
    decodeWord 0x1155F9C5 = .ok (.lda 21 11 2501) := by
  refine ⟨rfl, rfl, rfl, rfl, rfl, rfl, rfl, rfl⟩

/-- One word of each instruction of major 0x09 (R141). -/
theorem test_decode_major_09 :
    decodeWord 0x135589C5 = .ok (.sb 21 11 2501) ∧
    decodeWord 0x135599C5 = .ok (.sh 21 11 2501) ∧
    decodeWord 0x1355A9C5 = .ok (.sw 21 11 2501) ∧
    decodeWord 0x1355B9C5 = .ok (.sd 21 11 2501) ∧
    decodeWord 0x1355C9C5 = .ok (.sdr 21 11 2501) := by
  refine ⟨rfl, rfl, rfl, rfl, rfl⟩

/-- One word of each instruction of major 0x0A (R141). -/
theorem test_decode_major_0a :
    decodeWord 0x1555F899 = .ok (.amo 21 11 30 2 1 9) := rfl

/-- One word of each instruction of major 0x0C (R141). -/
theorem test_decode_major_0c :
    decodeWord 0x195589C5 = .ok (.beq 21 11 2501) ∧
    decodeWord 0x195599C5 = .ok (.bne 21 11 2501) ∧
    decodeWord 0x1955A9C5 = .ok (.blt 21 11 2501) ∧
    decodeWord 0x1955B9C5 = .ok (.bge 21 11 2501) ∧
    decodeWord 0x1955C9C5 = .ok (.bltn 21 11 2501) ∧
    decodeWord 0x1955D9C5 = .ok (.bgen 21 11 2501) := by
  refine ⟨rfl, rfl, rfl, rfl, rfl, rfl⟩

/-- One word of each instruction of major 0x0D (R141). -/
theorem test_decode_major_0d :
    decodeWord 0x1B59D3E7 = .ok (.jal 21 644071) := rfl

/-- One word of each instruction of major 0x0E (R141). -/
theorem test_decode_major_0e :
    decodeWord 0x1D5589C5 = .ok (.jalr 21 11 2501) := rfl

/-- One word of each instruction of major 0x0F (R141). -/
theorem test_decode_major_0f :
    decodeWord 0x1F55F800 = .ok (.lnest 21 11 30) ∧
    decodeWord 0x1E400001 = .ok (.lbody 4) ∧
    decodeWord 0x1E0AAC02 = .ok (.lexit 21 11) := by
  refine ⟨rfl, rfl, rfl⟩

/-- One word of each instruction of major 0x10 (R141). -/
theorem test_decode_major_10 :
    decodeWord 0x21504E28 = .ok (.csrr 21 2501) ∧
    decodeWord 0x2155CE29 = .ok (.csrw 21 11 2501) ∧
    decodeWord 0x2155CE2A = .ok (.csrs 21 11 2501) ∧
    decodeWord 0x2155CE2B = .ok (.csrc 21 11 2501) := by
  refine ⟨rfl, rfl, rfl, rfl⟩

/-- One word of each instruction of major 0x11 (R141). -/
theorem test_decode_major_11 :
    decodeWord 0x236AF000 = .ok (.svc 23228) ∧
    decodeWord 0x22000001 = .ok .eret ∧
    decodeWord 0x23500002 = .ok (.nap 21) ∧
    decodeWord 0x23558003 = .ok (.wake 21 11) ∧
    decodeWord 0x22000004 = .ok .yield ∧
    decodeWord 0x22000005 = .ok .halt ∧
    decodeWord 0x236AF006 = .ok (.bkpt 23228) ∧
    decodeWord 0x22000007 = .ok .ifence ∧
    decodeWord 0x220AAC08 = .ok (.raise 21 11) := by
  refine ⟨rfl, rfl, rfl, rfl, rfl, rfl, rfl, rfl, rfl⟩

/-- One word of each instruction of major 0x12 (R141). -/
theorem test_decode_major_12 :
    decodeWord 0x25558000 = .ok (.gjoin 21 11) ∧
    decodeWord 0x25558001 = .ok (.gleave 21 11) ∧
    decodeWord 0x25558002 = .ok (.barw 21 11) ∧
    decodeWord 0x25558003 = .ok (.bararv 21 11) ∧
    decodeWord 0x25558004 = .ok (.barrlx 21 11) ∧
    decodeWord 0x2555F805 = .ok (.barwait 21 11 30) ∧
    decodeWord 0x25558006 = .ok (.phend 21 11) ∧
    decodeWord 0x25558007 = .ok (.gsize 21 11) ∧
    decodeWord 0x25500008 = .ok (.tid 21) := by
  refine ⟨rfl, rfl, rfl, rfl, rfl, rfl, rfl, rfl, rfl⟩

/-- One word of each instruction of major 0x13 (R141). -/
theorem test_decode_major_13 :
    decodeWord 0x2755F800 = .ok (.spawn 21 11 30) ∧
    decodeWord 0x260A8001 = .ok (.jdone 21) ∧
    decodeWord 0x27558002 = .ok (.jstat 21 11) ∧
    decodeWord 0x2755F803 = .ok (.jdeadl 21 11 30) ∧
    decodeWord 0x27500004 = .ok (.ptpnow 21) ∧
    decodeWord 0x2755F805 = .ok (.chbind 21 11 30) ∧
    decodeWord 0x2755F806 = .ok (.chpub 21 11 30) ∧
    decodeWord 0x27558007 = .ok (.chread 21 11) := by
  refine ⟨rfl, rfl, rfl, rfl, rfl, rfl, rfl, rfl⟩

/-- One word of each instruction of major 0x14 (R141). -/
theorem test_decode_major_14 :
    decodeWord 0x28001000 = .ok (.fence 4) ∧
    decodeWord 0x280AAC01 = .ok (.fencee 21 11) ∧
    decodeWord 0x28002402 = .ok (.qdrain 9) ∧
    decodeWord 0x280A8003 = .ok (.winpub 21) := by
  refine ⟨rfl, rfl, rfl, rfl⟩

/-- One word of each instruction of major 0x15 (R141). -/
theorem test_decode_major_15 :
    decodeWord 0x2B558000 = .ok (.vcfg 21 11) ∧
    decodeWord 0x2B558001 = .ok (.setvl 21 11) ∧
    decodeWord 0x2B558002 = .ok (.vkeep 21 11) ∧
    decodeWord 0x2B558003 = .ok (.vdead 21 11) ∧
    decodeWord 0x2B55F804 = .ok (.vlmaxr 21 11 30) := by
  refine ⟨rfl, rfl, rfl, rfl, rfl⟩

/-- One word of each instruction of major 0x16 (R141). -/
theorem test_decode_major_16 :
    decodeWord 0xAD55D3D3 = .ok (.vindex true 21 11 167 83) := rfl

/-- One word of each instruction of major 0x17 (R141). -/
theorem test_decode_major_17 :
    decodeWord 0xAF55F8E0 = .ok (.pand true 21 11 30 7) ∧
    decodeWord 0xAF55F8E1 = .ok (.por true 21 11 30 7) ∧
    decodeWord 0xAF55F8E2 = .ok (.pxor true 21 11 30 7) ∧
    decodeWord 0xAF55F8E3 = .ok (.pandn true 21 11 30 7) ∧
    decodeWord 0xAF5583C4 = .ok (.pnot true 21 11 30) ∧
    decodeWord 0xAF500165 = .ok (.pseta true 21 11) ∧
    decodeWord 0xAF5583C6 = .ok (.pfirst true 21 11 30) ∧
    decodeWord 0xAF5583C7 = .ok (.ppopc true 21 11 30) ∧
    decodeWord 0xAF5583C8 = .ok (.pscan true 21 11 30) ∧
    decodeWord 0xAF55A409 = .ok (.pmovl true 21 11 9) ∧
    decodeWord 0xAF55880A = .ok (.pld true 21 11 2) ∧
    decodeWord 0xAF55880B = .ok (.pst true 21 11 2) := by
  refine ⟨rfl, rfl, rfl, rfl, rfl, rfl, rfl, rfl, rfl, rfl, rfl, rfl⟩

/-- One word of each instruction of major 0x18 (R141). -/
theorem test_decode_major_18 :
    decodeWord 0xB15583C0 = .ok (.vld true 21 11 30) ∧
    decodeWord 0x315583C1 = .ok (.vldff 21 11 30) := by
  refine ⟨rfl, rfl⟩

/-- One word of each instruction of major 0x19 (R141). -/
theorem test_decode_major_19 :
    decodeWord 0xB355F8E0 = .ok (.vlds true 21 11 30 7) := rfl

/-- One word of each instruction of major 0x1A (R141). -/
theorem test_decode_major_1a :
    decodeWord 0xB555F8E0 = .ok (.vldx true 21 11 30 7) := rfl

/-- One word of each instruction of major 0x1B (R141). -/
theorem test_decode_major_1b :
    decodeWord 0xB75583C0 = .ok (.vst true 21 11 30) ∧
    decodeWord 0xB755F8E1 = .ok (.vsts true 21 11 30 7) ∧
    decodeWord 0xB755F8E2 = .ok (.vstx true 21 11 30 7) ∧
    decodeWord 0xB755F8E3 = .ok (.vstxo true 21 11 30 7) := by
  refine ⟨rfl, rfl, rfl, rfl⟩

/-- One word of each instruction of major 0x1C (R141). -/
theorem test_decode_major_1c :
    decodeWord 0xB955F8E0 = .ok (.vldbp true 21 11 30 7) ∧
    decodeWord 0xB955F8E1 = .ok (.vstbp true 21 11 30 7) := by
  refine ⟨rfl, rfl⟩

/-- One word of each instruction of major 0x1D (R141). -/
theorem test_decode_major_1d :
    decodeWord 0x3B55F8E0 = .ok (.vscatr 21 11 30 7) ∧
    decodeWord 0x3B5583C1 = .ok (.vputr 21 11 30) := by
  refine ⟨rfl, rfl⟩

/-- One word of each instruction of major 0x1E (R141). -/
theorem test_decode_major_1e :
    decodeWord 0x3C0AAFC0 = .ok (.vappend 21 11 30) ∧
    decodeWord 0x3D558001 = .ok (.vqpop 21 11) := by
  refine ⟨rfl, rfl⟩

/-- One word of each instruction of major 0x20 (R141). -/
theorem test_decode_major_20 :
    decodeWord 0xC155F8E0 = .ok (.vadd true 21 11 30 7) ∧
    decodeWord 0xC15593D0 = .ok (.vaddVs true 21 11 4 30) ∧
    decodeWord 0xC155F8E1 = .ok (.vsub true 21 11 30 7) ∧
    decodeWord 0xC15593D1 = .ok (.vsubVs true 21 11 4 30) ∧
    decodeWord 0xC155F8E2 = .ok (.vrsub true 21 11 30 7) ∧
    decodeWord 0xC15593D2 = .ok (.vrsubVs true 21 11 4 30) ∧
    decodeWord 0xC155F8E3 = .ok (.vmul true 21 11 30 7) ∧
    decodeWord 0xC15593D3 = .ok (.vmulVs true 21 11 4 30) ∧
    decodeWord 0xC155F8E4 = .ok (.vmulh true 21 11 30 7) ∧
    decodeWord 0xC15593D4 = .ok (.vmulhVs true 21 11 4 30) ∧
    decodeWord 0xC155F8E5 = .ok (.vmulhn true 21 11 30 7) ∧
    decodeWord 0xC15593D5 = .ok (.vmulhnVs true 21 11 4 30) ∧
    decodeWord 0xC155F8E6 = .ok (.vmin true 21 11 30 7) ∧
    decodeWord 0xC15593D6 = .ok (.vminVs true 21 11 4 30) ∧
    decodeWord 0xC155F8E7 = .ok (.vmax true 21 11 30 7) ∧
    decodeWord 0xC15593D7 = .ok (.vmaxVs true 21 11 4 30) ∧
    decodeWord 0xC155F8E8 = .ok (.vminn true 21 11 30 7) ∧
    decodeWord 0xC15593D8 = .ok (.vminnVs true 21 11 4 30) ∧
    decodeWord 0xC155F8E9 = .ok (.vmaxn true 21 11 30 7) ∧
    decodeWord 0xC15593D9 = .ok (.vmaxnVs true 21 11 4 30) ∧
    decodeWord 0xC155F8EA = .ok (.vand true 21 11 30 7) ∧
    decodeWord 0xC15593DA = .ok (.vandVs true 21 11 4 30) ∧
    decodeWord 0xC155F8EB = .ok (.vor true 21 11 30 7) ∧
    decodeWord 0xC15593DB = .ok (.vorVs true 21 11 4 30) ∧
    decodeWord 0xC155F8EC = .ok (.vxor true 21 11 30 7) ∧
    decodeWord 0xC15593DC = .ok (.vxorVs true 21 11 4 30) ∧
    decodeWord 0xC155F8ED = .ok (.vsll true 21 11 30 7) ∧
    decodeWord 0xC15593DD = .ok (.vsllVs true 21 11 4 30) ∧
    decodeWord 0xC155F8EE = .ok (.vsrl true 21 11 30 7) ∧
    decodeWord 0xC15593DE = .ok (.vsrlVs true 21 11 4 30) ∧
    decodeWord 0xC155F8EF = .ok (.vsra true 21 11 30 7) ∧
    decodeWord 0xC15593DF = .ok (.vsraVs true 21 11 4 30) := by
  refine ⟨rfl, rfl, rfl, rfl, rfl, rfl, rfl, rfl, rfl, rfl, rfl, rfl, rfl, rfl, rfl, rfl, rfl, rfl, rfl, rfl, rfl, rfl, rfl, rfl, rfl, rfl, rfl, rfl, rfl, rfl, rfl, rfl⟩

/-- One word of each instruction of major 0x21 (R141). -/
theorem test_decode_major_21 :
    decodeWord 0xC355F8E9 = .ok (.vcmp true 21 11 30 7 9) ∧
    decodeWord 0xC35593D9 = .ok (.vcmpVs true 21 11 4 30 9) := by
  refine ⟨rfl, rfl⟩

/-- One word of each instruction of major 0x22 (R141). -/
theorem test_decode_major_22 :
    decodeWord 0xC555F8E0 = .ok (.vqadd true 21 11 30 7) ∧
    decodeWord 0xC55593D0 = .ok (.vqaddVs true 21 11 4 30) ∧
    decodeWord 0xC555F8E1 = .ok (.vqsub true 21 11 30 7) ∧
    decodeWord 0xC55593D1 = .ok (.vqsubVs true 21 11 4 30) ∧
    decodeWord 0xC555F8E2 = .ok (.vqmul true 21 11 30 7) ∧
    decodeWord 0xC55593D2 = .ok (.vqmulVs true 21 11 4 30) ∧
    decodeWord 0xC555F8E3 = .ok (.vshrrnd true 21 11 30 7) ∧
    decodeWord 0xC55593D3 = .ok (.vshrrndVs true 21 11 4 30) ∧
    decodeWord 0xC555F8E4 = .ok (.vsatn true 21 11 30 7) ∧
    decodeWord 0xC55593D4 = .ok (.vsatnVs true 21 11 4 30) ∧
    decodeWord 0xC55583C5 = .ok (.vhead true 21 11 30) ∧
    decodeWord 0xC55583C6 = .ok (.vqneg true 21 11 30) ∧
    decodeWord 0xC55583C7 = .ok (.vqabs true 21 11 30) := by
  refine ⟨rfl, rfl, rfl, rfl, rfl, rfl, rfl, rfl, rfl, rfl, rfl, rfl, rfl⟩

/-- One word of each instruction of major 0x23 (R141). -/
theorem test_decode_major_23 :
    decodeWord 0xC755F8E0 = .ok (.vfadd true 21 11 30 7) ∧
    decodeWord 0xC75593D0 = .ok (.vfaddVs true 21 11 4 30) ∧
    decodeWord 0xC755F8E1 = .ok (.vfsub true 21 11 30 7) ∧
    decodeWord 0xC75593D1 = .ok (.vfsubVs true 21 11 4 30) ∧
    decodeWord 0xC755F8E2 = .ok (.vfmul true 21 11 30 7) ∧
    decodeWord 0xC75593D2 = .ok (.vfmulVs true 21 11 4 30) ∧
    decodeWord 0xC755F8E3 = .ok (.vfdiv true 21 11 30 7) ∧
    decodeWord 0xC75593D3 = .ok (.vfdivVs true 21 11 4 30) ∧
    decodeWord 0xC755F8E4 = .ok (.vfmin true 21 11 30 7) ∧
    decodeWord 0xC75593D4 = .ok (.vfminVs true 21 11 4 30) ∧
    decodeWord 0xC755F8E5 = .ok (.vfmax true 21 11 30 7) ∧
    decodeWord 0xC75593D5 = .ok (.vfmaxVs true 21 11 4 30) ∧
    decodeWord 0xC755F8E6 = .ok (.vfma true 21 11 30 7) ∧
    decodeWord 0xC75593D6 = .ok (.vfmaVs true 21 11 4 30) ∧
    decodeWord 0xC755F8E7 = .ok (.vfms true 21 11 30 7) ∧
    decodeWord 0xC75593D7 = .ok (.vfmsVs true 21 11 4 30) ∧
    decodeWord 0xC755F8E8 = .ok (.vfnma true 21 11 30 7) ∧
    decodeWord 0xC75593D8 = .ok (.vfnmaVs true 21 11 4 30) ∧
    decodeWord 0xC755F8E9 = .ok (.vfclamp true 21 11 30 7) ∧
    decodeWord 0xC75593D9 = .ok (.vfclampVs true 21 11 4 30) ∧
    decodeWord 0xC75583CA = .ok (.vfsqrt true 21 11 30) ∧
    decodeWord 0xC75583CB = .ok (.vfabs true 21 11 30) ∧
    decodeWord 0xC75583CC = .ok (.vfneg true 21 11 30) := by
  refine ⟨rfl, rfl, rfl, rfl, rfl, rfl, rfl, rfl, rfl, rfl, rfl, rfl, rfl, rfl, rfl, rfl, rfl, rfl, rfl, rfl, rfl, rfl, rfl⟩

/-- One word of each instruction of major 0x24 (R141). -/
theorem test_decode_major_24 :
    decodeWord 0xC955A7C0 = .ok (.vcvt true 21 11 9 30) ∧
    decodeWord 0xC955A7C1 = .ok (.vwiden true 21 11 9 30) ∧
    decodeWord 0xC955A7C2 = .ok (.vnarrow true 21 11 9 30) := by
  refine ⟨rfl, rfl, rfl⟩

/-- One word of each instruction of major 0x25 (R141). -/
theorem test_decode_major_25 :
    decodeWord 0xCB5583C0 = .ok (.vabs true 21 11 30) ∧
    decodeWord 0xCB5583C1 = .ok (.vneg true 21 11 30) ∧
    decodeWord 0xCB5583C2 = .ok (.vclz true 21 11 30) ∧
    decodeWord 0xCB5583C3 = .ok (.vpopc true 21 11 30) ∧
    decodeWord 0xCB5583C4 = .ok (.vmov true 21 11 30) ∧
    decodeWord 0xCB502FC5 = .ok (.vmovs true 21 11 30) ∧
    decodeWord 0xCB55F806 = .ok (.vmovx true 21 11 30) ∧
    decodeWord 0xCB55F807 = .ok (.vins true 21 11 30) := by
  refine ⟨rfl, rfl, rfl, rfl, rfl, rfl, rfl, rfl⟩

/-- One word of each instruction of major 0x26 (R141). -/
theorem test_decode_major_26 :
    decodeWord 0xCD55F8E0 = .ok (.vsel true 21 11 30 7) ∧
    decodeWord 0xCD5583C1 = .ok (.vcompr true 21 11 30) ∧
    decodeWord 0xCD5583C2 = .ok (.vexpnd true 21 11 30) ∧
    decodeWord 0xCD55F8E3 = .ok (.vslideup true 21 11 30 7) ∧
    decodeWord 0xCD55F8E4 = .ok (.vslidedn true 21 11 30 7) ∧
    decodeWord 0xCD5583C5 = .ok (.vrev true 21 11 30) := by
  refine ⟨rfl, rfl, rfl, rfl, rfl, rfl⟩

/-- One word of each instruction of major 0x28 (R141). -/
theorem test_decode_major_28 :
    decodeWord 0xD155B7C0 = .ok (.vred true 21 11 1 5 30) ∧
    decodeWord 0xD155B7C1 = .ok (.vfred true 21 11 1 5 30) ∧
    decodeWord 0xD155B7C2 = .ok (.vcred true 21 11 1 5 30) := by
  refine ⟨rfl, rfl, rfl⟩

/-- One word of each instruction of major 0x2C (R141). -/
theorem test_decode_major_2c :
    decodeWord 0xD955F8E0 = .ok (.vcadd true 21 11 30 7) ∧
    decodeWord 0xD95593D0 = .ok (.vcaddVs true 21 11 4 30) ∧
    decodeWord 0xD955F8E1 = .ok (.vcsub true 21 11 30 7) ∧
    decodeWord 0xD95593D1 = .ok (.vcsubVs true 21 11 4 30) ∧
    decodeWord 0xD955F8EA = .ok (.vcmul true 21 11 30 7 1) ∧
    decodeWord 0xD95593DA = .ok (.vcmulVs true 21 11 4 30 1) ∧
    decodeWord 0xD955F8EB = .ok (.vcmac true 21 11 30 7 1) ∧
    decodeWord 0xD95593DB = .ok (.vcmacVs true 21 11 4 30 1) ∧
    decodeWord 0xD95583C4 = .ok (.vcmag2 true 21 11 30) ∧
    decodeWord 0xD955F8E5 = .ok (.vcscl true 21 11 30 7) ∧
    decodeWord 0xD95593D5 = .ok (.vcsclVs true 21 11 4 30) ∧
    decodeWord 0xD95583CE = .ok (.vcrot true 21 11 30 1) ∧
    decodeWord 0xD95583C7 = .ok (.vcconj true 21 11 30) := by
  refine ⟨rfl, rfl, rfl, rfl, rfl, rfl, rfl, rfl, rfl, rfl, rfl, rfl, rfl⟩

/-- One word of each instruction of major 0x2D (R141). -/
theorem test_decode_major_2d :
    decodeWord 0xDB55F8E0 = .ok (.vbfly2 true 21 11 30 7) ∧
    decodeWord 0xDB55F8E1 = .ok (.vbfly4 true 21 11 30 7) ∧
    decodeWord 0xDB5583C2 = .ok (.vbitrev true 21 11 30) ∧
    decodeWord 0xDB55F8E3 = .ok (.vbperm true 21 11 30 7) ∧
    decodeWord 0xDB55F8E4 = .ok (.vbgath true 21 11 30 7) ∧
    decodeWord 0xDB55F8E5 = .ok (.vintlv true 21 11 30 7) ∧
    decodeWord 0xDB55F8E6 = .ok (.vdintlv true 21 11 30 7) ∧
    decodeWord 0xDB55F8E7 = .ok (.vrotz true 21 11 30 7) ∧
    decodeWord 0xDB55F8E8 = .ok (.vgold true 21 11 30 7) ∧
    decodeWord 0xDB55F8E9 = .ok (.vllrpk true 21 11 30 7) := by
  refine ⟨rfl, rfl, rfl, rfl, rfl, rfl, rfl, rfl, rfl, rfl⟩

/-- One word of each instruction of major 0x2E (R141). -/
theorem test_decode_major_2e :
    decodeWord 0xDD55F8E0 = .ok (.vperm true 21 11 30 7) ∧
    decodeWord 0xDD55F801 = .ok (.vpermb true 21 11 30) ∧
    decodeWord 0xDD558002 = .ok (.vxchg true 21 11) ∧
    decodeWord 0xDD55F8E3 = .ok (.vzip true 21 11 30 7) ∧
    decodeWord 0xDD55F8E4 = .ok (.vunzip true 21 11 30 7) := by
  refine ⟨rfl, rfl, rfl, rfl, rfl⟩

/-- One word of each instruction of major 0x2F (R141). -/
theorem test_decode_major_2f :
    decodeWord 0xDF5583C0 = .ok (.vscget true 21 11 30) ∧
    decodeWord 0xDF55F8E1 = .ok (.vscset true 21 11 30 7) ∧
    decodeWord 0xDF5583C2 = .ok (.vscnorm true 21 11 30) := by
  refine ⟨rfl, rfl, rfl⟩

/-- One word of each instruction of major 0x30 (R141). -/
theorem test_decode_major_30 :
    decodeWord 0xE15583C0 = .ok (.vgjstep true 21 11 30) ∧
    decodeWord 0xE155F8E1 = .ok (.vbsolve true 21 11 30 7) ∧
    decodeWord 0xE155F8E2 = .ok (.vnsstep true 21 11 30 7) ∧
    decodeWord 0xE155F8E3 = .ok (.vwstag true 21 11 30 7) := by
  refine ⟨rfl, rfl, rfl, rfl⟩

/-- One word of each instruction of major 0x38 (R141). -/
theorem test_decode_major_38 :
    decodeWord 0x71355800 = .ok (.mma 9 21 11) ∧
    decodeWord 0x71355F81 = .ok (.mmas 9 21 11 30) ∧
    decodeWord 0x71200002 = .ok (.mzero 9) := by
  refine ⟨rfl, rfl, rfl⟩

/-- One word of each instruction of major 0x39 (R141). -/
theorem test_decode_major_39 :
    decodeWord 0x73355F80 = .ok (.atov 9 21 11 30) ∧
    decodeWord 0x73355F81 = .ok (.vtoa 9 21 11 30) ∧
    decodeWord 0x7320A802 = .ok (.ald 9 21) ∧
    decodeWord 0x7320A803 = .ok (.ast 9 21) ∧
    decodeWord 0x7320A804 = .ok (.asave 9 21) ∧
    decodeWord 0x7320A805 = .ok (.arst 9 21) := by
  refine ⟨rfl, rfl, rfl, rfl, rfl, rfl⟩

/-- One word of each instruction of major 0x3A (R141). -/
theorem test_decode_major_3a :
    decodeWord 0x7404A800 = .ok (.cbld 4 21) ∧
    decodeWord 0x74155F81 = .ok (.cbfill 21 11 30) := by
  refine ⟨rfl, rfl⟩

/-- One word of each instruction of major 0x3C (R141). -/
theorem test_decode_major_3c :
    decodeWord 0x79558000 = .ok (.ecpy 21 11) ∧
    decodeWord 0x7955F801 = .ok (.eldpc 21 11 30) ∧
    decodeWord 0x7955F802 = .ok (.epolar 21 11 30) ∧
    decodeWord 0x7955F803 = .ok (.eenc 21 11 30) ∧
    decodeWord 0x7955F804 = .ok (.edge 21 11 30) ∧
    decodeWord 0x79558005 = .ok (.ewait 21 11) ∧
    decodeWord 0x79558006 = .ok (.estat 21 11) ∧
    decodeWord 0x79558007 = .ok (.ecancel 21 11) := by
  refine ⟨rfl, rfl, rfl, rfl, rfl, rfl, rfl, rfl⟩

/-- One word of each instruction of major 0x3D (R141). -/
theorem test_decode_major_3d :
    decodeWord 0x7B55F8E9 = .ok (.vamo 21 11 30 7 9) ∧
    decodeWord 0x7A0AAC0A = .ok (.wdecl 21 11) ∧
    decodeWord 0x7B55F8EB = .ok (.wupd 21 11 30 7) ∧
    decodeWord 0x7A00000C = .ok .wmerge ∧
    decodeWord 0x7A00000D = .ok .wfree ∧
    decodeWord 0x7B55F80E = .ok (.rinst 21 11 30) ∧
    decodeWord 0x7B55F80F = .ok (.rcall 21 11 30) ∧
    decodeWord 0x7B55F8F0 = .ok (.rcallv 21 11 30 7) ∧
    decodeWord 0x7B502C11 = .ok (.rfree 21 11) := by
  refine ⟨rfl, rfl, rfl, rfl, rfl, rfl, rfl, rfl, rfl⟩

/-- One word of each instruction of major 0x3E (R141). -/
theorem test_decode_major_3e :
    decodeWord 0x7D55F800 = .ok (.twset 21 11 30) ∧
    decodeWord 0x7D502C01 = .ok (.twclr 21 11) ∧
    decodeWord 0x7D55F8E2 = .ok (.twchk 21 11 30 7) ∧
    decodeWord 0x7D55F8E3 = .ok (.twconf 21 11 30 7) ∧
    decodeWord 0x7D558004 = .ok (.twread 21 11) := by
  refine ⟨rfl, rfl, rfl, rfl, rfl⟩

end Sys2Proof

namespace Sys2Proof.Machine

open Sys2Proof

set_option Elab.async false

/-! ### Small states -/

/-- A package whose current thread is at job start in U mode, at the first byte of its scratchpad. -/
def demo : State := State.reset.withFetchWord 32 0x02321400

/-- The state with some scalar registers set, rising numbers. -/
def State.regs (s : State) (rs : List (Nat × Nat)) : State :=
  s.modSc (fun c => { c with s := rs.map (fun r => (r.1, BitVec.ofNat 64 r.2)) })

/-- The state in a mode. -/
def State.at (s : State) (m : Mode) : State := s.modSc (fun c => { c with mode := m })

/-- The state with a vtype and a vl. -/
def State.typed (s : State) (vt vl : Nat) : State :=
  s.modVec (fun v => { v with vtype := BitVec.ofNat 23 vt, vl := BitVec.ofNat 13 vl })

/-- The state with every register r holding some elements at the current width. -/
def State.elts (s : State) (r : BitVec 5) (xs : List Nat) : State :=
  ((List.range xs.length).zip xs).foldl (fun t x => t.putElem r x.1 x.2) s

/-- Where an outcome goes. -/
def endOf (o : Host.Outcome State Fault Refusal) : State :=
  match o with
  | .next t => t
  | _ => State.reset

/-- An outcome is a next state that meets a test. -/
def nextIs (o : Host.Outcome State Fault Refusal) (f : State → Bool) : Bool :=
  match o with
  | .next t => f t
  | _ => false

/-- A computation succeeds, with a result and a state that meet a test. -/
def okIs {α : Type} (m : M α) (s : State) (f : α → State → Bool) : Bool :=
  match m s with
  | (.ok a, t) => f a t
  | _ => false

/-- An access finds a place and a state that meet a test. -/
def gotIs (s : State) (acc : Access) (va : W64) (n : Nat) (f : Phys → State → Bool) : Bool :=
  match s.got acc va n with
  | some (p, u) => f p u
  | none => false

/-! ### Hypotheses are met -/

theorem test_meets_loads :
    [1, 2, 4, 8].all (fun n => gotIs demo .load (BitVec.ofNat 64 (ownWindow + scratchSize - n)) n
        (fun p u => !(u.scalarTouch p).consumes p.loc n && (u.scalarTouch p).plain && !(u.scalarTouch p).cv.vector &&
        decide ((u.scalarTouch p).th = { demo.th with hw := (u.scalarTouch p).th.hw }) &&
        decide (u.claim (p.loc / 128 * 128) p.kid = u) && p.loc == scratchBase + scratchSize - n)) = true := by decide +kernel

theorem test_meets_stores :
    [1, 2, 4, 8].all (fun n => gotIs demo .store (BitVec.ofNat 64 ownWindow) n
      (fun p u => u.roomAt [p] && u.th.hw.trains.isEmpty && decide (u.th = demo.th))) = true := by
  decide +kernel

theorem test_meets_load_immediate :
    demo.plain = true ∧ (3#5 ≠ 0#5) ∧ -(2 ^ 31) - 2048 ≤ (2 ^ 31 - 2049 : Int) ∧
      nextIs (exec (.lui 3 (asmHi (BitVec.ofInt 64 (2 ^ 31 - 2049)))) demo) (fun t =>
        nextIs (exec (.addi 3 3 (asmLo (BitVec.ofInt 64 (2 ^ 31 - 2049)))) t)
          (fun u => u.rd 3 == 0x7FFFF7FF#64)) = true := by decide +kernel

theorem test_meets_division :
    ((demo.regs [(1, 2 ^ 63), (2, 2 ^ 64 - 1)]).rd 1 = BitVec.ofInt 64 (-(2 ^ 63)) ∧
      (demo.regs [(1, 2 ^ 63), (2, 2 ^ 64 - 1)]).rd 2 = BitVec.ofInt 64 (-1)) := by decide

theorem test_meets_far_atomics :
    [(0#1, 4), (1#1, 8)].all (fun w => gotIs (demo.regs [(1, ownWindow + 64)]) .store
      ((demo.regs [(1, ownWindow + 64)]).rd 1) w.2 (fun p u =>
        (match (demo.regs [(1, ownWindow + 64)]).walk
            (demo.regs [(1, ownWindow + 64)]).ctx .load (BitVec.ofNat 64 (ownWindow + 64)) with
          | .error .perm => false
          | _ => true) &&
        !isTwin p.loc && !u.bufHeld u.cur u.th.hw.buf && u.drainAll.th.hw.trains.isEmpty &&
        (let v := u.drainAll.claim p.loc p.kid
         !v.poisoned p.loc w.2 && !v.writeHeld (some v.cur) p.loc w.2 && v.roomNow [p] && v.plain && !v.cv.vector &&
           decide (v.th = { (demo.regs [(1, ownWindow + 64)]).th with hw := v.th.hw }) &&
           decide (v.claim (p.loc / 128 * 128) p.kid = v)))) = true := by decide +kernel

/-- A state whose nest is open with one level, and the same armed at the end of its body. -/
def nested : State := demo.modNest (fun n => n.define { creg := 3, areg := 4, drain := false, inc := 8 } 2)
def armed : State := nested.modNest (fun n =>
  { n with armed := true, blen := 1, pos := 1, body := ((demo.th.sc.pc >>> 2).setWidth 62) })

theorem test_meets_control :
    ((demo.regs [(1, ownWindow)]).rd 1 + (-4 : BitVec 12).signExtend 64).toNat % 4 = 0 ∧
      ((demo.regs [(1, ownWindow)]).rd 1 + (1 : BitVec 12).signExtend 64).toNat % 4 ≠ 0 ∧
      demo.cv.many = false ∧ demo.th.nest.open_ = false ∧ demo.rd 2 = 0 ∧
      nested.th.nest.armed = false ∧ nested.th.nest.open_ = true ∧ nested.th.nest.nlev.toNat < 6 ∧
      armed.th.nest.open_ = true ∧ armed.th.nest.armed = true ∧ armed.rd 1 = armed.rd 2 ∧
      (armed.regs [(1, 1)]).rd 1 ≠ armed.rd 2 ∧ (match armed.bodyEnd with | (.ok _, _) => true | _ => false) = true := by
  decide +kernel

theorem test_meets_csrs :
    demo.th.nest.buf = [] ∧ demo.csrOk 0x011 = true ∧ demo.csrMay 0x012 0 = true ∧
      (demo.regs [(1, 1)]).csrMay 0x012 ((demo.regs [(1, 1)]).csr 0x012 ||| 1) = true ∧
      (demo.regs [(1, 1)]).csrMay 0x012 (demo.csr 0x012 - (demo.csr 0x012 &&& 1)) = true ∧
      csrMap 0xFFF = none ∧ (csrMap 0x110).isSome = true ∧ (csrMap 0x11C).isSome = true ∧
      (csrMap 0x200).isSome = true ∧ demo.th.sc.mode = .U ∧ demo.cv.many = false := by decide

theorem test_meets_system_calls :
    demo.cv.many = false ∧ (demo.at .S).th.sc.mode = .S ∧ demo.th.tr.lvl = 0 ∧
      (demo.modTr (fun r => { r with lvl := 3 })).th.tr.lvl = 3 ∧
      ((demo.regs [(1, 1)]).at .L).th.sc.mode ≠ .U ∧ (demo.regs [(1, 1)]).rd 1 = 1#64 ∧
      (demo.regs [(1, 0x14)]).rd 1 = 0x14#64 ∧ (demo.regs [(1, 0x15)]).rd 1 = 0x15#64 ∧
      (demo.modHeld (fun h => { h with yreq := true })).th.held.yreq = true := by decide

theorem test_meets_sleep :
    (demo.modHw (fun h => { h with wake := 255 })).th.hw.wake ≠ 0 ∧ demo.th.hw.wake = 0 ∧
      demo.th.held.yreq = false ∧
      (let x := 2047
       x - bitsAt 1 16 x * 2 ^ 16 < 2048 ∧
       (demo.wakeTargets x).any (fun n =>
         !(demo.part demo.curPart).table.tiles.contains (tileOf n)) = true) ∧
      (let x := 2 ^ 16
       x - bitsAt 1 16 x * 2 ^ 16 < 2048 ∧
       (demo.wakeTargets x).any (fun n =>
         !(demo.part demo.curPart).table.tiles.contains (tileOf n)) = false) ∧
      demo.clear = true ∧ (demo.at .L).clear = true ∧ (demo.at .L).th.sc.mode = .L ∧
      (demo.at .S).th.sc.mode = .S ∧ demo.bufHeld demo.cur demo.th.hw.buf = false ∧
      demo.drainAll.th.hw.trains.any (fun x => demo.drainAll.covers 5 x.dest) = false ∧
      demo.drainAll.th.hw.trainErr.any (fun l => demo.drainAll.covers 5 (demo.drainAll.destOf l)) = false ∧ bitsAt 15 48 (2 ^ 63 + 2 ^ 48 - 1 : Nat) = 0 ∧
      bitsAt 15 48 (2 ^ 63 : Nat) = 0 ∧ (2 ^ 63 : Nat) % 2 ^ 48 = 0 ∧
      (demo.drainAll.tile demo.curTile).locks = [] := by decide

/-- A booted package of one partition with one channel and every slice; function 0 has key 1, virtual
addresses 0 to 16 MiB are guest addresses, and guest frames 0 to 3 stand in data frames 1 to 4, frame 2
under the key of a sharing window, frame 3 at host address 0. -/
def booted : State :=
  let s := { demo with
    hub := { demo.hub with bootDone := true, fit := .gib256 }
    parts := [(0, { Part.reset with
      exists_ := true
      table := { base := 0, channels := [0], slices := List.range 96, tiles := [0, 8], jobCap := 16 } })]
    vfs := [(0, { Vf.reset with part := 0, kid := 1, maxJob := 8 })]
    mem := { demo.mem with
      st2 := [(0, BitVec.ofNat 64 (15 + 1 * 32 + 1 * 2 ^ 21)), (1, BitVec.ofNat 64 (15 + 1 * 32 + 2 * 2 ^ 21)),
              (2, BitVec.ofNat 64 (15 + 5 * 32 + 3 * 2 ^ 21)), (3, BitVec.ofNat 64 (15 + 16))]
      frames := [(1, { st := .assigned, kid := 1, maps := 1 }), (2, { st := .assigned, kid := 1, maps := 1 }),
                 (3, { st := .assigned, kid := 5, maps := 1 }), (4, { st := .assigned, kid := 1, maps := 0 })] } }
  ((s.poke (2 ^ 21) 1 (leBytes 8 (1 + 0x40 * 2 ^ 12))).poke (2 ^ 21 + 0x8000) 1
    (leBytes 8 (1 + 0x80 * 2 ^ 12))).poke (2 ^ 21 + 0x10000) 1 (leBytes 8 0x1BF)

/-- How HALT's read of the save area at 0x300000 ends: found, poisoned, held up by the walker's update, and with
vsave 0 nothing to read. -/
theorem test_meets_halt :
    (let s := (booted.at .L).modTr (fun r => { r with vsave := 0x300 })
     let a := (s.poke (2 ^ 21 + 0x10000) 1 (leBytes 8 0x13F)).modMem (fun m =>
       { m with hostHeld := [(2 ^ 21 + 0x10000) / 128] })
     let ends := fun (s : State) => s.clear && decide (s.th.sc.mode = .L)
     let read := fun (s : State) => (s.drainAll.readResume s.drainAll.cur).1
     ends s && (match read s with | .found _ => true | _ => false) && ends (s.poisonWord (0x5002C8 / 8)) &&
       decide (read (s.poisonWord (0x5002C8 / 8)) = .mac) && ends a && decide (read a = .held) && ends (demo.at .L) &&
       decide (read (demo.at .L) = .missing)) = true := by decide +kernel

theorem test_meets_winpub :
    (let s := booted.regs [(1, 0x400000)]
     (match s.placed .store (s.rd 1) with
      | some (p, u) => p.owner && isDevice p.loc && u.clear && !u.drainAll.storesLeft p.kid &&
          (u.drainAll.pendingOf p.kid).all (fun c => (u.drainAll.heldRange c.1 1).isEmpty)
      | none => false)) = true := by decide +kernel

theorem test_meets_groups :
    (let m := (endOf (exec (.gjoin 0 1) (demo.regs [(1, 4095)])))
     (m.regs [(1, 4095)]).rd 1 = 4095#64 ∧ ((m.group 4095).member m.cur).isSome = true ∧
     (m.group 4095).live = true ∧ (demo.group 4095).member demo.cur = none ∧
     demo.memberships < 8 ∧ (demo.group 4095).live = false ∧ m.clear = true ∧
     m.drainAll.th.hw.trains = [] ∧ m.drainAll.th.hw.trainErr = [] ∧ m.bufHeld m.cur m.th.hw.buf = false ∧ m.th.hw.barDone = none ∧
     ((m.modHw (fun h => { h with barDone := some (4095, 0, true) })).th.hw.barDone = some (4095, 0, true)) ∧
     ((m.group 4095).phase - (0 : BitVec 32) - 1).toInt < 0 ∧
     0 ≤ ((m.group 4095).phase - (0xFFFFFFFF : BitVec 32) - 1).toInt) := by decide

/-- A first BARW alone in its group, where the phase passes, and beside a member that has not arrived. -/
theorem test_meets_barw_arrives :
    (let m := endOf (exec (.gjoin 0 1) (demo.regs [(1, 7)]))
     let two := m.modGroup 7 (fun g => { g with members := g.members ++ [{ slot := 1, arr := false, la := 0, bw := false }] })
     [(m, true), (two, false)].all (fun x =>
       let v := x.1.drainAll.changeGroup 7 (fun g =>
         (g.modMember 0 (fun k => { k with la := g.phase, bw := true })).arrive 0)
       x.1.clear && decide (((x.1.group 7).member 0).map (·.bw) = some false) && decide (v.th.hw.barDone = none) &&
         (match (v.group 7).member v.cur with
          | some k => (v.group 7).passed k.la == x.2
          | none => false))) = true := by decide +kernel

theorem test_meets_groups_full :
    8 ≤ ((List.range 8).foldl (fun s n => endOf (exec (.gjoin 0 1) (s.regs [(1, n)]))) demo).memberships := by
  decide

theorem test_meets_groups_other :
    (let m := endOf (exec (.gjoin 0 1) (demo.regs [(1, 7)]))
     let o := m.modGroup 7 (fun g => { g with members :=
       [{ slot := 1, arr := true, la := 0, bw := false }] })
     (o.group 7).live = true ∧ (o.group 7).member o.cur = none) := by decide

/-- A member that has arrived and waits, in an open phase and in a passed one. -/
def waiting (phase : Nat) : State :=
  demo.modGroup 7 (fun _ => { members := [{ slot := 0, arr := true, la := 0, bw := true },
                                          { slot := 1, arr := false, la := 0, bw := false }],
                              phase := BitVec.ofNat 32 phase })

theorem test_meets_barrier_wait :
    ((waiting 0).group 7).member 0 = some { slot := 0, arr := true, la := 0, bw := true } ∧
      ((waiting 0).group 7).passed 0 = false ∧ ((waiting 1).group 7).passed 0 = true := by decide

/-- A job descriptor: entry 0x300000, one lane group, reset vtype, a class and affinity to a tile. -/
def descOf (cls aff : Nat) : List Byte :=
  leBytes 128 (0x300000 + (cls + 4 + aff * 256) * 2 ^ 512 + 0x1C021A * 2 ^ 576)

/-- A thread with the address of a descriptor in s1, no node in s2. -/
def jobState (desc : List Byte) : State :=
  (booted.regs [(1, 0x300000), (2, 0xFFFF)]).poke (2 * 2 ^ 21 + 0x100000) 1 desc

/-- What the descriptor at s1 meets. -/
def jobMeets (s : State) (f : Option Nat → State → Bool) : Bool :=
  okIs (loadWide (s.rd 1) 128 128) s (fun bs t => f (t.jobRefusal t.curPart t.th.id.vf.toNat bs) t)

theorem test_meets_jobs_accepted :
    jobMeets (jobState (descOf 1 1)) (fun r t => r.isNone && t.clear) = true := by decide +kernel
theorem test_meets_jobs_bad_descriptor :
    jobMeets (jobState (descOf 1 2)) (fun r _ => decide (r = some 1)) = true := by decide +kernel
theorem test_meets_jobs_class_not_permitted :
    jobMeets ((jobState (descOf 1 0)).modVf 0 (fun f => { f with w1 := 0 }))
      (fun r _ => decide (r = some 4)) = true := by decide +kernel
theorem test_meets_jobs_node :
    jobMeets ((jobState (descOf 1 1)).modTile 0 (fun t =>
        { t with nodes := [(9, { Node.reset with st := .pending })] })) (fun _ t =>
      t.nodeIn t.curPart 9 && (t.node 9).holds && !t.cv.many && !t.nodeIn t.curPart 0xFFFE &&
        t.nodeIn t.curPart 8 && !(t.node 8).holds) = true := by decide +kernel

/-- A thread that runs the job in entry 0, a child of no job. -/
def running : State :=
  (booted.modPart 0 (fun p => { p with jobs := [(0, { Job.reset with
    gen := 1, live := true, st := .running, desc := descOf 1 1, deadline := 5, slot := some 0 })] })).modTh
      (fun t => { t with id := { t.id with job := jobIdOf 0 { Job.reset with gen := 1 } } })

theorem test_meets_jobs_done :
    running.th.sc.mode ≠ .S ∧ running.th.hw.window = none ∧ running.clear = true ∧
      (match (running.drainAll.part 0).job? running.th.id.job with
       | some j => !j.finished &&
           !running.drainAll.rangesHeld (some running.drainAll.cur) (running.drainAll.completionRanges j)
       | none => false) = true ∧ ((booted.tick.part 0).job? booted.th.id.job).isNone = true ∧
      ((running.tick.part 0).job? running.th.id.job).isSome = true := by decide +kernel
theorem test_meets_jobs_deadline :
    (running.regs [(1, 3)]).rd 1 ≠ 0 ∧ (running.at .L).th.sc.mode ≠ .U ∧ running.th.sc.mode = .U ∧
    booted.deadlineJob 0x12345 = none ∧ (running.deadlineJob 0).map (fun x => (x.2.deadline, x.2.finished)) =
      some (5, false) := by decide +kernel

/-- A published chain slot 1023 and a thread bound to it. -/
def bound (cur : Nat) : State :=
  (booted.modPart 0 (fun p => { p with chains := [(1023, { mark := 7, fin := false })] })).modVec (fun v =>
    { v with chBound := true, chSlot := 1023, vcur := BitVec.ofNat 64 cur })

theorem test_meets_chains :
    booted.th.sc.mode ≠ .S ∧ booted.th.tr.absent = false ∧
      ((1023 : Nat) < 1024 ∧ 2 ^ 16 ≤ (2 ^ 16 + 1023 : Nat) ∧ (2 ^ 16 + 1023 : Nat) < 2 ^ 16 + 1024) ∧
      (let x := 1023 + 3 * 2 ^ 16; x - bitsAt 2 16 x * 2 ^ 16 < 1024) ∧ booted.clear = true := by
  decide +kernel

theorem test_meets_configuration :
    demo.th.sc.mode ≠ .S ∧ demo.th.tr.absent = false ∧ demo.vtypeOk 0x1C0202 = true ∧
      (vtOf 0x1C0202).nregE = demo.vt.nregE ∧ demo.vtypeOk 0x1C0002 = true ∧
      (vtOf 0x1C0002).nregE ≠ demo.vt.nregE ∧ demo.th.tr.vsave = 0 ∧ demo.vtypeOk 0x1C0207 = false ∧
      (let s := demo.modTr (fun r => { r with vsave := BitVec.ofNat 52 (ownWindow / 4096) })
       decide (s.th.tr.vsave ≠ 0) && s.vtypeOk 0x1C0002 &&
         okIs (translateAll .store [(s.parkHeader, 8)]) s (fun _ _ => true)) = true ∧
      demo.cv.many = false ∧ (demo.typed 0x1C0202 3).vecOk [31] (Vt.isIn [0, 1, 2, 3, 6]) = true ∧
      (demo.typed 0x1C061A 3).vecOk [30] (Vt.isIn [0, 1, 2, 3, 6]) = true := by decide +kernel

theorem test_meets_setvl :
    demo.th.hw.window = none ∧ demo.th.held.yreq = false ∧ demo.th.vec.chBound = false ∧
      okIs (moveRegs (demo.targetSet (min demo.th.held.cap.toNat demo.th.held.pwr.toNat))) demo
        (fun _ _ => true) = true ∧
      (bound 7).th.vec.chBound = true ∧ ((bound 7).chain 1023).fin = false ∧
      ((bound 7).chain 1023).mark.toNat ≤ (bound 7).th.vec.vcur.toNat + (bound 7).th.vec.vl.toNat ∧
      (let s := (bound 3).regs [(1, 5)]
       let hold := s.targetSet (min s.th.held.cap.toNat s.th.held.pwr.toNat)
       okIs (moveRegs hold) s (fun _ _ => true) && decide ((s.th.vec.chSlot) = 1023) &&
         decide (min (s.rd 1).toNat (min (vlmaxOf s.vt hold.count)
           ((s.chain 1023).mark.toNat - (s.th.vec.vcur.toNat + s.th.vec.vl.toNat))) ≠ 0)) = true := by
  decide +kernel

theorem test_meets_predicates :
    demo.wholePass = true ∧ (demo.modCv (fun c => { c with cut := [0] })).wholePass = false ∧
      okIs (wholeBeats .load (BitVec.ofNat 64 (ownWindow + scratchSize - 512)) 8) demo (fun ps u =>
        ps.length == 8 && ps.all (fun b => !u.poisoned b.2.2.loc 64)) = true ∧
      okIs (wholeBeats .store (BitVec.ofNat 64 ownWindow) 8) demo (fun ps u =>
        ps.length == 8 && u.roomAll ps) = true := by decide +kernel

/-- A thread with i32 elements, vl 3, base in s1 and stride in s2, indexes 8, 0 and 4 in v2. -/
def vecState : State :=
  ((demo.typed 0x1C0202 3).regs [(1, ownWindow + scratchSize - 12), (2, 2 ^ 64 - 4),
    (3, ownWindow + scratchSize - 4)]).elts 2 [8, 0, 4]

/-- Addresses translate, and their places meet a test. -/
def placesIs (s : State) (acc : Access) (base : W64) (off : Nat → W64)
    (f : List (Nat × W64 × Phys) → State → Bool) : Bool :=
  match s.placesOf acc s.vt.size (s.elemAddrs base 0 off) with
  | some (ps, u) => f (u.performed ps) u
  | none => false

/-- Three 4-byte places hold no poisoned word once their lines are in place. -/
def cleanAfter (footprint : Nat) (ps : List (Nat × W64 × Phys)) (u : State) : Bool :=
  ps.length == 3 && (u.touchLines (ps.map (·.2.2)) (u.loadAlloc footprint) false).cleanAt 4 ps

theorem test_meets_vector_loads :
    vecState.vecOk [4] (fun _ => true) = true ∧ vecState.vecOk [4, 2] (fun t => !t.sq) = true ∧
      placesIs vecState .load (vecState.rd 1) vecState.unitOff (cleanAfter vecState.unitFootprint) = true ∧
      placesIs vecState .load (vecState.rd 3) (strideOff (vecState.rd 2))
        (cleanAfter (vecState.strideFootprint (vecState.rd 2))) = true ∧
      placesIs vecState .load (vecState.rd 1) (vecState.indexOff 2) (cleanAfter vecState.indexFootprint) = true := by decide +kernel
theorem test_meets_vector_stores :
    placesIs vecState .store (vecState.rd 1) vecState.unitOff (fun ps u => u.roomAll ps) = true ∧
      placesIs vecState .store (vecState.rd 3) (strideOff (vecState.rd 2)) (fun ps u => u.roomAll ps) =
        true ∧
      placesIs vecState .store (vecState.rd 1) (vecState.indexOff 2) (fun ps u => u.roomAll ps) = true := by
  decide +kernel
/-- The same with two elements inside the scratchpad and one beyond it. -/
theorem test_meets_first_fault :
    (let s := vecState.regs [(1, ownWindow + scratchSize - 8)]
     let as := s.elemAddrs (s.rd 1) 0 s.unitOff
     let bs := vecState.elemAddrs (vecState.rd 1) 0 vecState.unitOff
     (match s.touched .load s.vt.size as as with
      | some (t, u) => (match t.bad with
         | f :: _ => decide (as.head?.map (·.1) ≠ some f.1) && f.1 == 2 &&
             (let ps := t.ok.filter (fun x => decide (x.1 < f.1))
              (u.touchLines (ps.map (·.2.2)) (u.loadAlloc s.unitFootprint) false).cleanAt s.vt.size ps)
         | [] => false)
      | none => false) &&
     (match vecState.touched .load 4 bs bs with
      | some (t, u) => t.bad.isEmpty && cleanAfter vecState.unitFootprint t.ok u
      | none => false)) = true := by decide +kernel

/-- i8 planes of one element at the end of the scratchpad. -/
def planeState : State := (demo.typed 0x1C0200 1).regs [(1, ownWindow), (2, 64)]

theorem test_meets_plane_stores :
    (let s := planeState
     let c := s.planeBytes (s.rd 1) (s.rd 2) 8 (s.wanted 0)
     c.all (fun x => (s.lockHitVa x.2 1 true).isNone && !s.homeLocked .store x.2 1) &&
     okIs (translateElems .store (s.short c) 1) s (fun t u => t.bad.isEmpty && !t.ok.isEmpty &&
       u.roomAll (t.ok.filter (fun y => !u.cv.withheld.getLsbD y.1)))) = true := by decide +kernel
theorem test_meets_planes :
    (let s := planeState
     let b := s.planeBytes (s.rd 1) (s.rd 2) (s.vt.planes + 1) (s.wanted 0)
     s.vecOk [4] (fun t => (t.cls == 0 && t.sewE == 0) || t.sq) && !s.vt.sq && (s.rd 1).toNat % 64 == 0 &&
     b.all (fun x => (s.lockHitVa x.2 1 false).isNone && !s.homeLocked .load x.2 1) &&
     okIs (translateElems .load (s.short b) 1) s (fun t u =>
       let now := s.planesRead (s.rd 2) t.ok ((s.wanted 0).filter u.performs)
       t.bad.isEmpty && !now.isEmpty &&
         (u.touchLines (now.map (·.2.2)) (u.loadAlloc u.vl) false).cleanAt 1 now) &&
     (let q := (demo.typed 0x1C0230 8).regs [(1, ownWindow), (2, 64)]
      q.vt.sq && q.vecOk [4] (fun t => (t.cls == 0 && t.sewE == 0) || t.sq))) = true := by
  decide +kernel

/-- A queue at the own window's start, with room for 4 entries: head, tail, commit, ring at 4096, no
spawn; one element of s2 = 9 onward is appended. -/
def queueState (head tail commit vl : Nat) : State :=
  ((demo.typed 0x1C020A vl).regs [(1, ownWindow), (2, 9)]).poke scratchBase 0
    (leBytes 64 (head + tail * 2 ^ 64 + commit * 2 ^ 128 + 4 * 2 ^ 192 + (ownWindow + 4096) * 2 ^ 256))

theorem test_meets_trains :
    (let t := (booted.typed 0x1C0202 2).regs [(1, 0x400000 - 8)]
     placesIs t .store (t.rd 1) t.unitOff (fun ps u => ps.length == 2 && !u.bufHeld u.cur u.th.hw.buf &&
       u.drainAll.roomAll ps)) = true := by decide +kernel

theorem test_meets_indexed_trains :
    (let i := ((booted.typed 0x1C0202 1).regs [(1, 0x400000 - 8)]).elts 2 [4]
     placesIs i .store (i.rd 1) (i.indexOff 2) (fun ps u => ps.length == 1 && !u.bufHeld u.cur u.th.hw.buf &&
       u.drainAll.roomAll ps) &&
     i.vecOk [4, 2] (fun t => !t.sq)) = true := by decide +kernel

/-- What an append of some elements meets: its header, ring and commit. -/
def appendMeets (s : State) : Bool :=
  let hdr := s.rd 1
  decide (s.th.hw.append = none ∧ s.actives 0 ≠ []) &&
  okIs (queuePlace hdr) s (fun place s1 => s1.clear &&
    okIs (readQueue hdr place) s1.drainAll (fun q s3 =>
      let m := min (s.actives 0).length (q.cap - (q.tail + 2 ^ 64 - q.head) % 2 ^ 64)
      let ring := BitVec.ofNat 64 q.ring
      let tail := { place with loc := place.loc + 8 }
      let x := s.reservation (.vappend 1 2 0) hdr place q m (maskOf ((s.actives 0).drop m))
      decide (0 < q.cap) && (s3.lockHitVa ring (q.cap * 4) true).isNone &&
      okIs (translateRing ring (q.cap * 4)) s3 (fun rp s4 =>
        let slots := (List.range m).filterMap (fun i => s.ringPlace rp.flatten (q.entry ((q.tail + i) % 2 ^ 64)))
        okIs (homeWaits ((tail, 8) :: slots.map (fun y => (y, 4)))) s4 (fun _ _ => true) &&
        okIs (commitAppend x)
          (((slots.zip (s.actives 0)).foldl (fun t x => t.entryWrite x.1 (leBytes 4 ((s.rd 2).toNat + x.2)))
            (s4.homeWrite tail (leBytes 8 (q.tail + m)))).modHw (fun w => { w with append := some x }))
          (fun _ _ => true))))

/-- Room for all of three elements, for one of them, and for none. -/
theorem test_meets_append :
    appendMeets (queueState 0 0 0 3) = true ∧ appendMeets (queueState 0 3 3 3) = true ∧
      appendMeets (queueState 0 4 4 3) = true ∧ (queueState 0 0 0 0).actives 0 = [] := by decide +kernel
/-- A committed append of some entries from entry 2 on to the queue at a place. -/
def committed (loc count : Nat) : Append :=
  { hdr := BitVec.ofNat 64 ownWindow, loc := loc, kid := 0, owner := false, first := 2, count := count, rejected := 0,
    instr := .vappend 1 2 0, word := 0 }

/-- It waits at COMMIT 1, publishes at 2, and at 2 with SPAWN set and THR 3 crosses. -/
theorem test_meets_append_wait :
    (let x := committed scratchBase 1
     let at_ := fun (commit more : Nat) => (((queueState 0 2 commit 3).poke (scratchBase + 28) 0
       (leBytes 12 more))).modHw (fun h => { h with append := some x })
     let ok := fun (s : State) => !(s.claim x.loc x.kid).poisoned x.loc 64 &&
       okIs (homeWaits [({ x.place with loc := x.loc + 16 }, 8)]) (s.claim x.loc x.kid) (fun _ _ => true)
     let q := fun (s : State) => (s.claim x.loc x.kid).appendQueue x
     let ring := (ownWindow + 4096) * 2 ^ 32
     ok (at_ 1 ring) && (q (at_ 1 ring)).commit == 1 && ok (at_ 2 ring) && (q (at_ 2 ring)).commit == 2 &&
       (q (at_ 2 ring)).spawn == 0 && !isTwin (x.loc + 16)) = true := by decide +kernel
theorem test_meets_append_spawn :
    (let x := committed scratchBase 1
     let s := ((((queueState 0 2 2 3).poke (scratchBase + 28) 0 (leBytes 4 3)).poke (scratchBase + 40) 0
       (leBytes 8 (ownWindow + 128))).poke (scratchBase + 128) 0 (descOf 1 1)).modHw (fun h => { h with append := some x })
     let t := s.claim x.loc x.kid
     let q := t.appendQueue x
     let at_ := fun (s : State) (va : W64) (f : Phys → State → Bool) =>
       okIs (spawnPlace va) s (fun y w => match y with | .ok p => f p w | .error _ => false)
     let reads := fun (s : State) (p : Phys) (f : List Byte → State → Bool) =>
       let u := s.touch [p.loc / 128] p.kid (fun _ => .age 0) false
       !u.poisoned p.loc 128 && f (u.homeBytes p 128) u
     q.spawn == ownWindow + 128 && q.commit == 2 && q.thr == 3 &&
       at_ t (BitVec.ofNat 64 q.spawn) (fun p w =>
         okIs (queueSpawn x.hdr (BitVec.ofNat 64 q.spawn) (.ok p))
           (w.endAppend.homeWrite { x.place with loc := x.loc + 16 } (leBytes 8 3)) (fun _ _ => true) &&
         reads w p (fun bs u => (u.jobRefusal w.curPart w.th.id.vf.toNat bs).isNone)) &&
       at_ (jobState (descOf 1 2)) 0x300000 (fun p w =>
         reads w p (fun bs u => (u.jobRefusal w.curPart w.th.id.vf.toNat bs).isSome)) &&
       decide ((0x300001#64).toNat % 128 ≠ 0 ∧ XFault.perm ≠ .mac)) = true := by decide +kernel
theorem test_meets_pop :
    (let s := queueState 1 3 3 3
     s.vecOk [4] (fun t => (t.cls == 0 || t.cls == 1) && t.sewE == 2) &&
     okIs (queuePlace (s.rd 1)) s (fun place s1 => okIs (readQueue (s.rd 1) place) s1 (fun q s2 =>
       let k := min s.vl ((q.commit + 2 ^ 64 - q.head) % 2 ^ 64)
       let as := (List.range k).map (fun e => (e, q.entry ((q.head + e) % 2 ^ 64)))
       let r := s1.touch [place.loc / 128] place.kid (fun _ => .age 0) false
       k == 2 && q.ring % 4 == 0 && !r.consumes place.loc 64 && as.all (fun x => (s2.lockHitVa x.2 4 false).isNone &&
         !s2.homeLocked .load x.2 4) && okIs (translateElems .load as 4) s2 (fun t s3 => t.bad.isEmpty && !s3.bufHeld s3.cur s3.th.hw.buf &&
         okIs (homeWaits [(place, 8)]) s3.drainAll (fun _ _ => true) &&
         (s3.drainAll.touchLines (t.ok.map (·.2.2)) (.age 0) false).cleanAt 4 t.ok)))) = true ∧
    (queueState 0 0 0 0).vl = 0 := by decide +kernel

/-- The type conditions of the vector instructions, met by a type of each class they name. -/
theorem test_meets_vector_types :
    ([0x1C0200, 0x1C020B, 0x1C0211, 0x1C0230].all (fun t =>
        (demo.typed t 4).vecOk [31, 0, 30] (Vt.isIn [0, 1, 2, 6])) &&
      [0x1C0200, 0x1C020B, 0x1C0211, 0x1C0222].all (fun t =>
        (demo.typed t 4).vecOk [31, 0, 30] (Vt.isIn [0, 1, 2, 4])) &&
      [0x1C0211, 0x1C0222].all (fun t => (demo.typed t 4).vecOk [31, 0, 30] (Vt.isIn [2, 4])) &&
      [0x1C0203, 0x1C0212, 0x1C0221].all (fun t => (demo.typed t 4).vecOk [31, 0] (Vt.isIn [0, 2, 4])) &&
      [0x1C0219, 0x1C021A, 0x1C0259].all (fun t => (demo.typed t 4).vecOk [31, 0, 30] (Vt.isIn [3])) &&
      [0x1C0222, 0x1C022B].all (fun t => (demo.typed t 4).vecOk [31, 0, 30] isComplex) &&
      [0x1C0200, 0x1C0208].all (fun t => (demo.typed t 4).vecOk [31, 0] (Vt.isIn [0, 1])) &&
      [0x1C0200, 0x1C0210, 0x1C0230].all (fun t => (demo.typed t 4).vecOk [31, 0] (Vt.isIn [0, 2, 6])) &&
      (List.range 10).all (fun k => (demo.typed 0x1C0201 4).vecOk [31, 0] (cmpTypes k)) &&
      [10, 11, 12, 13].all (fun k => (demo.typed 0x1C021A 4).vecOk [31, 0] (cmpTypes k))) = true := by
  decide +kernel

theorem test_meets_head :
    ((demo.typed 0x1C0201 4).actives 0).isEmpty = false ∧ ((demo.typed 0x1C0201 0).actives 0).isEmpty = true := by
  decide +kernel

theorem test_meets_conversions :
    (let s := demo.typed 0x1C021A 4
     groupOk s.vt s.vt.gm 31 && convOk (codeType 0 2) s.vt.ty && s.vt.sewE != 0 &&
       convOk (codeType 3 1) s.vt.ty && !rangesMeet 31 s.vt.gm 30 s.vt.gm && s.vt.sewE != 3 &&
       groupOk s.vt (2 * s.vt.gm) 30 && convOk (codeType 3 3) s.vt.ty &&
       !rangesMeet 29 s.vt.gm 30 (2 * s.vt.gm)) = true := by decide +kernel

theorem test_meets_moves :
    (let s := (demo.typed 0x1C0202 4).regs [(1, 3), (2, 4)]
     s.vecOk [31] (fun _ => true) && decide ((s.rd 1).toNat < s.vl) && decide (s.vl ≤ (s.rd 2).toNat) &&
       s.vt.isIn [0, 2, 6] && !(demo.typed 0x1C020A 4).vt.isIn [0, 2, 6] && s.performs 3 && !s.done 3 &&
       !rangesMeet 4 s.vt.gm 5 s.vt.gm && decide (s.th.held.remote = 0) && s.wholePass &&
       s.vecOk [4, 5] (fun t => !t.sq)) = true := by decide +kernel

theorem test_meets_reductions :
    ([0x1C0202, 0x1C0208, 0x1C0211].all (fun t => (demo.typed t 4).vecOk [31, 0] (Vt.isIn [0, 1, 2])) &&
      (demo.typed 0x1C022B 4).vecOk [31, 0] (fun t => t.cls == 5) &&
      (demo.typed 0x1C0222 4).vecOk [31, 0] (fun t => t.cls == 4) && (demo.typed 0x1C0222 4).wholePass &&
      (demo.typed 0x1C0222 4).vl != 0 && (demo.typed 0x1C0202 0).vl == 0 && (demo.typed 0x1C0202 0).vecOk [31, 0] (Vt.isIn [0, 1, 2]) &&
      (demo.typed 0x1C021A 0).vl == 0 && (demo.typed 0x1C021A 0).vecOk [31, 0] (Vt.isIn [3]) &&
      (demo.typed 0x1C0222 0).vl == 0 && (demo.typed 0x1C0222 0).vecOk [31, 0] (Vt.isIn [4, 5])) = true := by decide +kernel

theorem test_meets_signal :
    (let s := (demo.typed 0x1C0222 8).regs [(1, 4), (2, 2 + 1 * 2 ^ 16), (3, 384), (4, 2)]
     let g := (demo.typed 0x1C020B 2).regs [(4, 2)]
     let l := (demo.typed 0x1C0200 2).regs [(5, 15)]
     s.vl % 4 == 0 && !rangesMeet 4 s.vt.gm 6 s.vt.gm && decide (s.th.held.remote = 0) && s.wholePass &&
       s.vl == 2 ^ Nat.log2 s.vl && s.vl % (s.rd 1).toNat == 0 && (s.rd 2).toNat == 2 + 1 * 2 ^ 16 &&
       s.vl % 2 == 0 && s.vecOk [4, 6, 8] (fun t => !t.sq) && (s.typed 0x1C0222 0).vl == 0 &&
       (s.typed 0x1C0222 0).vecOk [4, 6] (fun t => !t.sq) && ((s.typed 0x1C0222 0).selected 0).isEmpty &&
       !(s.selected 0).isEmpty &&
       g.vecOk [4, 6] (fun t => decide (t.cls = 1 ∧ t.sewE = 3)) && (g.rd 4).toNat == 2 &&
       l.vecOk [4] (fun t => decide (t.cls = 0 ∧ t.sewE = 0)) && groupOk l.vt (2 * l.vt.gm) 30 &&
       !rangesMeet 4 l.vt.gm 30 (2 * l.vt.gm) && (l.rd 5).toNat == 15 &&
       (demo.typed 0x1C0202 384).vl % 384 == 0 && (demo.typed 0x1C0230 2).vecOk [4, 6, 8] Vt.sq) = true := by
  decide +kernel
/-- A span of two local and two remote lane groups. -/
theorem test_meets_exchange :
    (let s := (demo.typed 0x1C0202 8).modHeld (fun h => { h with loc := 3, remote := 12, pvc := 248 })
     s.vecOk [4, 6] (fun _ => true) && decide (s.th.held.remote ≠ 0) &&
       popN 4 s.th.held.loc.toNat == popN 4 s.th.held.remote.toNat && s.wholePass && (s.typed 0x1C0202 0).vl == 0 &&
       (s.typed 0x1C0202 0).vecOk [4, 6] (fun _ => true)) = true := by decide +kernel

/-- A batch of two 2 × 2 matrices. -/
theorem test_meets_solver :
    (let s := ((demo.typed 0x1C0222 8).elts 6 [2, 2, 2, 2]).regs [(1, 0x12), (2, 0x68)]
     let span := (demo.typed 0x1C0222 8).modHeld (fun h => { h with loc := 3, remote := 12, pvc := 248 })
     okIs (solverChecks 4 0 [6] 6 false) s (fun r _ => decide (r.2 = (2, 2))) &&
     okIs (solverChecks 4 0 [8, 6] 6 true) s (fun r _ => decide (r.2 = (2, 2))) &&
     (s.selected 1).isEmpty && decide (s.th.held.remote = 0) && !span.cv.many && span.vecOk [4, 6] (Vt.isIn [4]) &&
     decide (span.th.held.remote ≠ 0) &&
     s.vecOk [4, 6] (Vt.isIn [4]) && decide ((s.rd 1).toNat < 512) && !(s.rd 1).getLsbD 7 &&
     (s.rd 2).toNat % 16 == 8 && s.wholePass) = true := by decide +kernel

/-- A thread whose context has tag 5. -/
def tagged (vt vl : Nat) : State := (demo.typed vt vl).modTr (fun r => { r with ctag := 5 })

theorem test_meets_tiles :
    (let s := (tagged 0x1C0202 4).regs [(1, 31), (2, ownWindow)]
     let l := s.at .L
     s.owns 15 && decide ((s.modVc 0 (fun v => v.setOwner 15 6 0)).owns 15 = false) &&
       s.vecOk [4] (fun x => decide (x.sewE = 2) && !x.sq) && decide ((s.rd 1).toNat < 32) &&
       decide ((s.rd 1).toNat * 32 + s.vl ≤ 1024) && !(s.actives 0).isEmpty &&
       !(s.claimed 15).tilePoison 15 ((s.todo 0).map ((s.rd 1).toNat * 32 + ·)) &&
       okIs (wholeBeats .load (s.rd 2) 64) s (fun ps u => u.owns 15 &&
         (u.touchLines (ps.map (·.2.2)) (u.loadAlloc 4096) false).cleanAt 64 ps &&
         okIs (readTile ps) u (fun _ _ => true)) &&
       okIs (wholeBeats .store (s.rd 2) 64) s (fun ps u => u.owns 15 && u.roomAll ps &&
         !u.tilePoison 15 (List.range 1024) && okIs (storeTile 15 ps) (u.claimed 15) (fun _ _ => true)) &&
       okIs (wholeBeats .store (s.rd 2) 64) l (fun ps u => !u.tileBusy u.cur 15 &&
         okIs (storeTile 15 ps) u (fun _ _ => true)) &&
       okIs (wholeBeats .load (s.rd 2) 64) l (fun ps u => !u.tileBusy u.cur 15 &&
         okIs (loadTile 15 ps) u (fun _ _ => true)) && decide (l.th.tr.ctag ≠ 0)) = true := by decide +kernel

/-- One row of f16 against a window at offset 0; and one selected of rows 0 and 1. -/
theorem test_meets_matrix :
    (let s := ((tagged 0x1C0219 32).regs [(1, 0), (2, 2 * 2 ^ 32)]).setPred 1 2
     let ks := (List.range 2).filter (fun k => (s.pred (s.predNo 1)).getLsbD k)
     let q : Product := { t := s.vt, a := 4, w := bWord 0, kb := 1, steps := [(0, 0)] }
     let r : Product := { t := s.vt, a := 4, w := bWord (2 * 2 ^ 32), kb := 2, steps := (List.range ks.length).zip ks }
     s.vecOk [4] matrixType && (bWord (s.rd 1).toNat).ku == 0 && s.bOk s.vt (bWord (s.rd 1).toNat) 1 &&
       s.vl == 32 && s.owns 3 && (s.claimed 3).arrayTurn &&
       okIs (operandsClean 3 q) (s.claimed 3) (fun _ _ => true) && s.cv.cut.isEmpty &&
       (bWord (s.rd 2).toNat).ku == 2 && s.bOk s.vt (bWord (s.rd 2).toNat) 2 && ks == [1] &&
       okIs (operandsClean 3 r) (s.claimed 3) (fun _ _ => true) &&
       (let e := s.typed 0x1C0219 0
        e.vecOk [4] matrixType && e.vl == 0 && e.bOk e.vt (bWord (e.rd 1).toNat) 0 &&
          ((List.range 2).filter (fun k => ((e.setPred 1 0).pred ((e.setPred 1 0).predNo 1)).getLsbD k)).isEmpty)) = true := by decide +kernel

/-- One row of 32 bytes, as bytes of f16 and as planes. -/
theorem test_meets_caldera :
    [(0 : Nat), 2].all (fun bt =>
      let n := if bt = 0 then 2 else 1
      let bpl := if bt = 2 then 1 else 0
      let span := if bt = 2 then (bpl + 1) * planeStride 1 else n
      let x := bt * 2 ^ 15 + bpl * 2 ^ 17 + 1 * 2 ^ 20 + 64 * 2 ^ 33
      let s := demo.regs [(1, x), (2, ownWindow + 64)]
      let rows := [(rowAddr (s.rd 2) 64 0, 32 * n)]
      bitsAt 15 0 x == 0 && bitsAt 2 15 x == bt && bitsAt 3 17 x == bpl && bitsAt 13 20 x == 1 &&
        x / 2 ^ 33 == 64 && s.inAcfg 0 span &&
        s.th.sc.mode != .S && !s.th.tr.absent && okIs (checkRows rows) s (fun _ _ => true) &&
        okIs (checkCald 0 span) s (fun _ _ => true) &&
        okIs (translateBy (fun u va => u.lanePlaces va.toNat) .load rows) s (fun all u =>
          all.length == 1 && okIs (readRows (s.rd 2) 64 0 all) u (fun got _ => !got.isEmpty))) = true := by
  decide +kernel
theorem test_meets_fill :
    (let s := (demo.typed 0x1C0200 32).regs [(1, 32704)]
     let f := (demo.typed 0x1C0219 32).regs [(1, 32766)]
     let r := (s.regs [(1, 0)])
     s.vecOk [4] fillType && f.vecOk [4] fillType && f.inAcfg 32766 2 && (f.rd 1).toNat % 2 == 0 &&
       r.inAcfg 0 ((s.vt.planes + 1) * planeStride 1) &&
       okIs (checkCald 0 ((s.vt.planes + 1) * planeStride 1)) r (fun _ _ => true) &&
       okIs (checkCald 32766 2) f (fun _ _ => true) && decide ((f.rd 1).toNat < 2 ^ 15) && f.vl % 32 == 0 &&
       (f.typed 0x1C0219 0).inAcfg 32766 0 && (f.typed 0x1C0219 0).vl == 0 && (r.typed 0x1C0200 0).vecOk [4] fillType &&
       r.inAcfg 0 ((s.vt.planes + 1) * planeStride 0)) =
      true := by decide +kernel

/-- A copy descriptor: some bytes from 0x300000 to 0x300100, its node. -/
def copyBytes (count node : Nat) : List Byte :=
  leBytes 128 (0x300000 + 0x300100 * 2 ^ 64 + (1 + node * 2 ^ 32) * 2 ^ 128 + count * 2 ^ 256 + 2 ^ 288 + 2 ^ 320)

/-- A polar encode of 16 bits of 32: information at 0x300040, FROZ at 0x300080, STW 0x3000C0. -/
def polarBytes (k : Nat) : List Byte :=
  leBytes 64 (0x300040 + 0x300100 * 2 ^ 64 + 0x300080 * 2 ^ 128 + 0x3000C0 * 2 ^ 192 +
    (5 + k * 2 ^ 4 + 0xFFFF * 2 ^ 16) * 2 ^ 256 + 2 ^ 320)

/-- A booted package with a descriptor at 0x300400 and FROZ with its low half frozen. -/
def withDesc (d : List Byte) : State :=
  (((booted.regs [(1, 0x300400), (2, 0)]).poke (2 * 2 ^ 21 + 0x100400) 1 d).poke (2 * 2 ^ 21 + 0x100080) 1
    (leBytes 4 0x0000FFFF))

/-- The descriptor at 0x300400 is read and its submission gives a code. -/
def submitIs (s : State) (eng : Option Nat) (k : EngKind) (enc : Bool) (n : Nat)
    (node : List Byte → BitVec 16) (code : Nat) : Bool :=
  okIs (loadWide 0x300400 n 64) s (fun d t => okIs (submit eng k enc d (node d)) t (fun c _ => c == code))

theorem test_meets_submission :
    (submitIs (withDesc (copyBytes 8 0xFFFF)) (some 0) .copy false 128 (fun d => (copyDesc d).node) 0 &&
      submitIs (withDesc (copyBytes 8 0xFFFE)) (some 0) .copy false 128 (fun d => (copyDesc d).node) 2 &&
      submitIs (withDesc (polarBytes 16)) (some 32) .polar true 64 (codingNode .polar) 0 &&
      submitIs (withDesc (polarBytes 16)) ((withDesc []).chosenEngine .polar 0) .polar true 64
        (codingNode .polar) 3) = true := by decide +kernel
theorem test_meets_submission_parts :
    (let d := copyBytes 8 0xFFFF
     let c := booted.newCmd .copy false d 0xFFFF
     let full := (List.range 70).foldl (fun s _ => s.enqueue 0 c) booted
     booted.clear && decide ((booted.drainAll.queue 0).length < queueCap 0) &&
       booted.drainAll.locksFit 0 c.sides && decide (queueCap 0 ≤ (full.drainAll.queue 0).length) &&
       booted.nodeIn booted.curPart 0 && !(booted.node 0).holds && !booted.nodeIn booted.curPart 0xFFFE) = true := by
  decide +kernel

theorem test_meets_nodes :
    (let n := booted.modTile 0 (fun t => { t with nodes := [(9, { Node.reset with st := .pending }),
                                                           (10, { Node.reset with st := .done })] })
     n.nodeWord 9 != 0xFF && decide ((n.node 9).st ≠ .free) && !(n.node 9).finished && (n.node 10).finished &&
       decide ((n.node 11).st = .free) && n.nodeWord 0xFFFE == 0xFF &&
       decide (2 ^ 16 ≤ ((booted.regs [(1, 2 ^ 16)]).rd 1).toNat)) = true := by decide +kernel

theorem test_meets_vector_atomics :
    (let s := ((demo.typed 0x1C0202 3).regs [(1, ownWindow + scratchSize - 12)]).elts 2 [8, 0, 4]
     let as := s.elemAddrs (s.rd 1) 0 (s.indexOff 2)
     s.vecOk [4, 2] (fun t => t.isIn [0, 1] && decide (2 ≤ t.sewE)) && decide (4 + 2 * s.vt.gm ≤ s.vt.nreg) &&
       okIs (alignElems s.vt.size as) s (fun _ _ => true) && okIs (lockElems s.vt.size true as) s (fun _ _ => true) &&
       okIs (translateAtomics (s.short as) 4) s (fun t u => t.bad.isEmpty && t.ok.length == 3 &&
         !u.bufHeld u.cur u.th.hw.buf &&
         (let v := u.drainAll
          okIs (atomicWaits ((v.performed t.ok).map (·.2.2)) 4) v (fun _ _ => true) &&
          okIs (claimAll 4 ((v.performed t.ok).map (·.2))) v (fun _ _ => true)))) = true := by decide +kernel

/-- A thread with a declared window of 16 bytes of 4-byte sums at 0x300000, lane 0's word 1 touched. -/
def windowed : State :=
  (((booted.typed 0x1C020A 2).regs [(1, 0x300000), (2, 16)]).elts 2 [4, 12]).modHw (fun h => { h with
    window := some { base := 0x300000, ctl := 16, touched := [(1, 7)], discarded := false } })

theorem test_meets_windows :
    (let d := booted.regs [(1, 0x300000), (2, 8)]
     let w : Window := { base := 0x300000, ctl := 16, touched := [(1, 7)], discarded := false }
     let as := windowed.elemAddrs (windowed.rd 1) 0 (windowed.indexOff 2)
     decide ((d.rd 2).toNat < 2 ^ 15 ∧ 8 ≤ winLen 8 ∧ winLen 8 % winWord 8 = 0 ∧ winLen 1024 ≤ 1024) &&
       decide (d.th.hw.window = none) && decide ((d.rd 1).toNat % 64 = 0) &&
       decide (d.lockHitVa (d.rd 1) (winLen 8) true = none) && decide (d.tiles = []) &&
       (d.homeRuns d.ctx (d.rd 1) (winLen 8)).all (fun r => !d.windowLocked (some d.cur) r.1 (r.2 - r.1 + 1)) &&
       decide (windowed.th.hw.lostWindow = none) && windowed.vecOk [4, 2] (winType 16) && as.length == 2 &&
       as.all (fun e => decide ((e.2 - w.base).toNat + 4 ≤ winLen 16 ∧ e.2.toNat % 4 = 0)) &&
       okIs (lockElems 4 true as) windowed (fun _ _ => true) &&
       okIs (translateWideBy atomicRefused .store w.base (winLen 16) 64) windowed (fun ps u => !u.bufHeld u.cur u.th.hw.buf &&
         (let v := u.drainAll
          let work := (windowWords w ps).filterMap (fun q =>
            if (w.copies (8 * windowed.lg) q.1).isEmpty then none else some q)
          okIs (atomicWaits (work.map (·.2)) 4) v (fun _ _ => true) &&
          okIs (claimAll 4 (work.map (fun q => (w.base + BitVec.ofNat 64 (q.1 * 4), q.2)))) v (fun _ _ => true))) &&
       decide ((windowed.modHw (fun h => { h with window := none, lostWindow := some 5 })).th.hw.lostWindow =
         some 5)) = true := by decide +kernel

/-- Routine 15 of function 0 in slot 63: it returns its first argument, or fails with code 16. -/
def routineState (w : Nat) : State :=
  ((((booted.typed 0x1C020B 1).regs [(1, 0x300000), (2, 15), (3, 9)]).elts 2 [0]).modVf 0 (fun f =>
    { f with rmap := [(15, 63)] })).modPart 0 (fun p => { p with
      routines := [(63, { vf := 0, words := [BitVec.ofNat 32 w], draining := false })] })
def retWord : Nat := 0x28 * 2 ^ 26 + 1 * 2 ^ 20
def failWord : Nat := 0x29 * 2 ^ 26 + 16

theorem test_meets_routine :
    [(retWord, true), (failWord, false)].all (fun x =>
      let s := routineState x.1
      decide ((s.rd 2).toNat < 16) && (s.vf 0).routine 15 == 63 && !s.bufHeld s.cur s.th.hw.buf &&
        okIs (checkLine (s.rd 1)) s.drainAll (fun _ _ => true) &&
        okIs (translateAtomic (s.rd 1) 1) s.drainAll (fun q v => isDevice q.loc && v.homeFree q.line 128 &&
          okIs (holdLines [(s.rd 1, q)]) v (fun _ r =>
          match r.callSlice r.curPart 63 q 3 4 with
           | (.ret y, false, _) => x.2 && y == 3
           | (.fail code _, false, w) => !x.2 && code == 16 && !w.cv.many
           | _ => false))) = true := by decide +kernel
theorem test_meets_routine_lines :
    (let s := routineState retWord
     let as := s.elemAddrs (s.rd 1) 0 (s.indexOff 2)
     s.vecOk [4, 2] (fun t => t.isIn [0, 1] && decide (t.sewE = 3)) && as.length == 1 &&
       as.all (fun e => okIs (checkLine e.2) s (fun _ _ => true))) = true := by decide +kernel

theorem test_meets_routines :
    (let s := routineState retWord
     let as := s.elemAddrs (s.rd 1) 0 (s.indexOff 2)
     okIs (translateAtomicsChecked checkLineHome as) s (fun t u => t.bad.isEmpty && t.ok.all (fun x => isDevice x.2.2.loc) &&
         !u.bufHeld u.cur u.th.hw.buf &&
         okIs (holdLines ((u.drainAll.performed t.ok).map (·.2))) u.drainAll (fun _ r =>
           okIs (callAll 63 4 s.vt.gm (u.drainAll.performed t.ok)) r (fun l _ => l.isEmpty)))) = true := by decide +kernel
theorem test_meets_install :
    (let s := ((booted.regs [(1, 0x300000), (2, 15)]).at .S).poke (2 * 2 ^ 21 + 0x100000) 1 (leBytes 4 retWord)
     okIs (loadWide (s.rd 1) 4 128) s (fun bs t =>
       decide ((verifyImage [BitVec.ofNat 32 (leNat bs)]).1 = none) && (t.vf 0).routine 15 == 64 &&
         decide ((t.part 0).freeSlot = some 0) && decide ((t.part 0).slotsUsed 0 < (t.vf 0).slrMax.toNat)) &&
     decide ((verifyImage [0]).1 = some (3, 0)) && ((routineState retWord).vf 0).routine 15 != 64) = true := by
  decide +kernel

/-- Function 0 with one watch sequence: its entry 0 traps on token 5, entry 1 pauses on token 6. -/
def watching (drafts : List (BitVec 24)) : State :=
  { ((booted.typed 0x1C020B 1).elts 2 [0]) with
    vfs := [(0, { Vf.reset with part := 0, kid := 1, wsCount := 1 })]
    seqs := [(0, { Seq.reset with inuse := true, drafts := drafts.map (fun t => { tok := t, hits := [], win := none }),
                                  entries := [(0, BitVec.ofNat 256 (1 + 16 + 5 * 2 ^ 64))] })] }

theorem test_meets_watch :
    (let s := (watching []).elts 4 [9]
     let t := (watching []).elts 4 [5]
     s.vecOk [6, 2, 4] (fun t => t.isIn [0, 1] && decide (t.sewE = 3)) && !rangesMeet 6 s.vt.gm 2 s.vt.gm &&
       !rangesMeet 6 s.vt.gm 4 s.vt.gm &&
       (let r := s.watchAll (fun u => u.checkOne 0) 6 2 4 (s.actives 0)
        r.1 == [] && !s.rangesHeld (some s.cur) (s.forkRanges r.2 0)) &&
       (t.watchAll (fun u => u.checkOne 0) 6 2 4 (t.actives 0)).1 == [0] &&
       ((watching [9]).watchAll (fun u => u.confirmOne 0) 6 2 4 ((watching [9]).actives 0)).1 == [] &&
       (((watching [5]).elts 4 [1]).watchAll (fun u => u.confirmOne 0) 6 2 4
         ((watching [5]).actives 0)).1 == [0]) = true := by decide +kernel
theorem test_meets_watch_control :
    (let s := (watching []).regs [(1, 0x300000)]
     (s.vf 0).wsCount.toNat == 1 && (s.seq 0 0).inuse && decide ((s.seq 0 0).drafts = []) &&
       okIs (loadWide (s.rd 1) 32 32) s (fun bs _ => entryOk (BitVec.ofNat 256 (leNat bs))) &&
       !entryOk (BitVec.ofNat 256 4) && !(booted.seq 0 0).inuse && decide (((watching [9]).seq 0 0).drafts ≠ []) &&
       ((watching [9]).seq 0 0).inuse && decide ((2 ^ 20 + 2 ^ 21) &&& 0x37FFFF = 2 ^ 20 + 2 ^ 21) &&
       (let n := (watching []).modSeq 0 0 (fun _ => Seq.reset)
        !(n.seq 0 0).inuse && (n.vf 0).wsCount.toNat == 1) &&
       decide ((7 * 2 ^ 16 + 0x300000) &&& 0x37FFFF = 7 * 2 ^ 16 + 0x300000) &&
       decide ((7 * 2 ^ 16) &&& 0x17FFFF = 7 * 2 ^ 16) && bitsAt 4 16 (9 * 2 ^ 16) == 9) = true := by
  decide +kernel

/-! ### Hypotheses of the events -/

theorem test_meets_frames :
    (let r := endOf (exec (.frameRelease (4, 0) 0) booted)
     (framesOf 5 15).length == 16 && (framesOf 5 15).all booted.isDataFrame && (framesOf 5 15).all booted.assignable &&
       (framesOf 1764 0).all booted.isDataFrame && !(framesOf 1765 0).all booted.isDataFrame &&
       (framesOf 4 0).all booted.releasable && !(framesOf 4 0).all booted.assignable &&
       !(framesOf 1 0).all booted.releasable && !booted.hub.fcGo && r.hub.fcGo && decide (r.hub.fcOp = 2) &&
       r.sweepDone (framesOf r.hub.fcFrame r.hub.fcCount)) = true := by decide +kernel

/-- MAPENT for frame 4 of key 1, and one for a frame of another key. -/
def mapEnt (frame : Nat) : State :=
  booted.modHub (fun h => { h with mapEnt := BitVec.ofNat 64 (15 + 32 + frame * 2 ^ 21) })

theorem test_meets_maps :
    (let s := mapEnt 4
     let e := s.hub.mapEnt &&& ~~~ 0x8000#64
     let r := endOf (exec (.mapRemove 1 0) s)
     let w := endOf (exec (.mapWrite 1 0) s)
     !s.hub.mcGo && e.getLsbD 0 && !st2Reserved e && s.entryAccepted e &&
       !(mapEnt 3).entryAccepted ((mapEnt 3).hub.mapEnt &&& ~~~ 0x8000#64) &&
       !(s.st2Entry 383 (2 ^ 19 - 1)).getLsbD 0 && (s.st2Entry 0 1).getLsbD 0 &&
       r.hub.mcGo && !r.unmapWaits 0 1 && !r.hub.mcReplace && w.hub.mcReplace && !w.unmapWaits 0 1 &&
       w.entryAccepted w.hub.mcImage &&
       !(endOf (exec (.frameRelease (4, 0) 0) w)).entryAccepted w.hub.mcImage) = true := by decide +kernel

/-- Guest frame 3 is hot, the pool holds frame 4 and the notice ring is on. -/
def hot : State :=
  (((booted.modPart 0 (fun p => { p with migThr := 1 })).modVf 0 (fun f => { f with pool := [4] })).modHub
    (fun h => { h with nqLog := 4, nqBase := BitVec.ofNat 46 (scratchBase / 64) })).modMem (fun m =>
      { m with access := [(7, 1)], recent := [7] })

theorem test_meets_migration :
    (let t := endOf (exec (.migrate 0 3) hot)
     hot.canMigrate 0 3 && (t.st2Entry 0 3).getLsbD 0 && (t.st2Entry 0 3).getLsbD 15 && t.hub.noticeOn &&
       !t.hub.noticeFull && (t.vf 0).pool == [4] && t.poolFrameOk 0 4 &&
       (t.heldRange hostBase (2 ^ 21)).isEmpty && (t.heldRange (4 * 2 ^ 21) (2 ^ 21)).isEmpty && st2Frame (t.st2Entry 0 3) == 0 &&
       !((t.modMem (fun m => { m with hostHeld := [hostBase / 128] })).heldRange hostBase (2 ^ 21)).isEmpty &&
       !(t.modFrame 4 (fun f => { f with st := .free })).poolFrameOk 0 4) = true := by decide +kernel
theorem test_meets_translation :
    (let b := (booted.at .S).modPart 0 (fun p => { p with invBusy := true })
     let d := endOf (exec (.hostAccess true (2 ^ 22 / 128) []) booted)
     booted.th.hw.occ && booted.th.hw.buf.isEmpty && booted.th.hw.trains.isEmpty &&
       (match booted.walk (booted.ctxOf 0) .load 0x300000 with
        | .ok x => (booted.updateHeld x).isNone
        | _ => false) &&
       (let w := (booted.modHub (fun h => { h with twEn := true, twUp := true, twAp := 0 }))
        match w.walk (w.ctxOf 0) .load 0x600000 with
        | .ok x => asksTwin .load x && (w.updateHeld x).isNone && x.pte.isNone
        | _ => false) &&
       decide ((booted.frame 2).st = .assigned ∧ (booted.frame 2).kid = 1) && decide ((booted.frame 0).st ≠ .assigned) &&
       !((booted.at .S).part 0).invBusy && (b.part 0).invBusy && !b.invWaits 0 &&
       (match d.partOfPa (2 ^ 22) with
        | some (_, p) =>
          let sl := sliceOf p.table (2 ^ 22)
          (tget [] d.mem.l2 (sl.1 * 1024 + sl.2)).any (fun w => w.line == 2 ^ 22 / 128 && w.dirty) &&
            (booted.uncached p (2 ^ 22)).any (fun x => x.level == 1)
        | none => false) &&
       (match booted.l2Set (2 ^ 22) with
        | some (_, key) => !(tget [] booted.mem.l2 key).any (fun w => w.line == 2 ^ 22 / 128)
        | none => false) && booted.zeroLine (2 ^ 22 / 128) &&
       !(booted.modMem (fun m => { m with ctr := [(2 ^ 22 / 512, { major := 0, minor := 1 })] })).zeroLine
         (2 ^ 22 / 128)) = true := by decide +kernel

/-- Region 7 of tile 8 takes eAxC 5 of port 7; flow 255 sends for function 0 from a queue in tile 8's
scratchpad with one descriptor: PRBs 272 to 272 of symbol 13, at time 100, payload at 0x300000. -/
def front : State :=
  let s := { booted with
    tiles := [(8, { Tile.reset with ingest := [(7, { Ingest.reset with
      en := true, ports := 0x80, eaxc := 5, prbs := 1, base := 64, seen := [3], late := 0 })] })]
    flows := [(255, { Flow.reset with en := true, tile := 8, logn := 4, base := 4096 })] }
  (s.poke (scratchLoc 8 65536) 0 (leBytes 8 1)).poke (scratchLoc 8 65600) 0
    (leBytes 32 (100 + 0x300000 * 2 ^ 64 + 272 * 2 ^ 128 + 1 * 2 ^ 144 + 13 * 2 ^ 160 + 9 * 2 ^ 176))

theorem test_meets_ingest :
    (let s1 := front.modHub (fun h => { h with ptp := 10 ^ 12 })
     let r := (front.tile 8).region 7
     let x : W64 := 1 + 0x80 * 2 + 5 * 2 ^ 9
     front.hub.bootDone && !demo.hub.bootDone && (demo.atTime 0).isSome &&
       decide (front.atTime (10 ^ 12) = some s1) && s1.regionsFor 7 5 == [(8, 7)] && s1.regionsFor 7 6 == [] &&
       r.en && r.seen.contains 3 && decide (symbolStart r.mu.toNat 3 13 (10 ^ 12) + 0 < (10 ^ 12 : Nat)) &&
       !(x - 1).getLsbD 0 && x.getLsbD 0 && (front.tile 8).regionOk 7 (r.write x.toNat) &&
       !(front.tile 8).regionOk 7 (r.write (x.toNat + 3 * 2 ^ 43))) = true := by decide +kernel
theorem test_meets_egress :
    (let f := front.flow 255
     let d := front.peekNat (f.header + 64) 32
     let t := endOf (exec (.egressFetch 255 10100) front)
     let bad := front.poke (scratchLoc 8 65600 + 24) 0 [1]
     front.flowOk 255 (f.write 1) && !front.flowOk 255 { f.write 1 with logn := 3 } && decide (f.ready = []) &&
       front.flowTail f != front.flowHead f && txOk d && !txOk (bad.peekNat (f.header + 64) 32) &&
       txTime d + 10000 == 10100 &&
       (match front.defaultPlaces 0 .load (BitVec.ofNat 64 (bitsAt 64 64 d)) (txNum d * f.bytesPerPrb) with
        | some q => !q.any (fun p => front.poisoned p.2.2.phys.loc p.2.1)
        | none => false) &&
       decide ((front.defaultPlaces 0 .load 0xFFFFFFFFFFFFFF00 8) = none) && !front.poisoned f.header 16 && !front.poisoned (f.header + 64) 32 &&
       (front.poisonWord (f.header / 8)).poisoned f.header 8 && !front.poisoned f.header 8 &&
       decide (txTime d + 10000 < 10101) &&
       (let t := (front.poke (2 ^ 21 + 0x10000) 1 (leBytes 8 0x13F)).modHub (fun h => { h with ptp := 10100 })
        let held := t.modMem (fun m => { m with hostHeld := [2 ^ 21 / 128, (2 ^ 21 + 0x8000) / 128, (2 ^ 21 + 0x10000) / 128] })
        match t.defaultPlaces 0 .load (BitVec.ofNat 64 (bitsAt 64 64 d)) (txNum d * f.bytesPerPrb) with
        | some q => (t.updatesHeld q).isEmpty && !(held.updatesHeld q).isEmpty
        | none => false) &&
       (match (t.flow 255).ready with | (tx, _, _) :: [] => tx == 100 | _ => false) && (t.flow 255).en &&
       tget 0 t.hub.portFree f.port.toNat == 0 && tget 0 t.hub.portRate f.port.toNat == 0 &&
       decide ((10100 : Nat) < tget 0 (t.modHub (fun h => { h with portFree := [(0, 10101)] })).hub.portFree 0)) = true := by
  decide +kernel
theorem test_meets_errors :
    (let d := endOf (exec (.hostAccess true (2 ^ 22 / 128) []) booted)
     d.dirtyLine (2 ^ 22 / 128) && !booted.dirtyLine (2 ^ 22 / 128) && isScratch (scratchBase + scratchSize - 1) &&
       !(booted.vc 495).caldPoison.contains (2 ^ 20 / 8 - 1) &&
       !(booted.vc 495).accPoison.contains (15 * 512 + 511)) = true := by decide +kernel

/-- A command on an engine, running or not, cancelled or not. -/
def engine (n : Nat) (k : EngKind) (enc : Bool) (d : List Byte) (running cancelled : Bool) : State :=
  { withDesc d with engines := [(n, [{ booted.newCmd k enc d 0xFFFF with
      running := running, cancelled := cancelled }])] }

/-- The running command of an engine meets a test. -/
def runs (s : State) (n : Nat) (f : Cmd → Bool) : Bool :=
  match s.running n with
  | some c => f c
  | none => false

/-- The command of a COPY entry, from 0x300000 to 0x302000 of function 0, runs. -/
def ringEngine : State :=
  let c := booted.ringCmd 0 0 (ringCopyOf (0x300000 * 2 ^ 64 + 0x302000 * 2 ^ 128 + 8 * 2 ^ 192))
  { booted with engines := [(0, [{ c with running := true }])] }

theorem test_meets_copies :
    (let s := engine 0 .copy false (copyBytes 8 0xFFFF) true false
     let p := (s.modVf 0 (fun f => { f with allow := [(3, 1)], left := [(3, 0)] }))
     let n := ringEngine
     decide ((engine 0 .copy false (copyBytes 8 0xFFFF) false false).running 0 = none) &&
       ((engine 0 .copy false (copyBytes 8 0xFFFF) false false).nextCommand 0).isSome &&
       !(s.part (s.enginePart 0)).freeze &&
       runs s 0 (fun c => decide (c.copyStatus = none) && !c.copyEmpty && !s.mustStop 0 c && !s.ringBlocked c &&
         (s.copyRun c c.total).1 == .done) &&
       runs p 0 (fun c => (p.copyRun c c.total).1 == .paused && p.mustStop 0 c && (p.copyRun c 0).1 == .paused) &&
       runs n 0 (fun c => c.ring.isSome && decide (c.copyStatus = none) && !c.copyEmpty && !n.mustStop 0 c) &&
       runs (engine 0 .copy false (copyBytes 0 0xFFFF) true false) 0 (fun c => c.copyEmpty &&
         decide (c.copyStatus = none)) &&
       runs (engine 0 .copy false (leBytes 128 0) true false) 0 (fun c => decide (c.copyStatus = some 2)) &&
       runs (engine 0 .copy false (copyBytes 8 0xFFFF) true true) 0 (fun c => c.cancelled)) = true := by
  decide +kernel
theorem test_meets_coding :
    (let s := engine 32 .polar true (polarBytes 16) true false
     runs s 32 (fun c => decide (codingStatus c.kind c.encode c.desc = none) && !s.mustStop 32 c &&
       (match s.polarWork c with
        | .ok (w, u) => (match u.outPlaces c (w.outs ++ [(c.stw, leBytes 8 w.word)]) with | .ok _ => true | _ => false)
        | .error _ => false)) &&
     runs (engine 32 .polar true (leBytes 64 0) true true) 32 (fun c =>
       decide (codingStatus c.kind c.encode c.desc = some 2) && c.cancelled)) = true := by decide +kernel

/-- A thread with one buffered store to 0x300000's place and one train to the slice of 0x300080's. -/
def busy : State :=
  booted.modHw (fun h => { h with
    buf := [BufEntry.plain [(2 * 2 ^ 21 + 0x100000, 7)] 1]
    trains := [{ num := 0, dest := .slice 1, vf := 0, kid := 1, elems := [(2 * 2 ^ 21 + 0x100080, [9])], lanes := [0],
                 count := 1, arrived := false, error := false }] })

theorem test_meets_ordering :
    (let t := endOf (exec (.trainArrival 0 (.slice 1)) busy)
     let h := busy.modMem (fun m => { m with hostHeld := [(2 * 2 ^ 21 + 0x100000) / 128], backInv := [9] })
     let gs := beatGroups (busy.thread 0).hw.buf
     (match gs with
      | [[e]] => busy.nextBeats 0 gs == [0] && !e.writes.isEmpty && !busy.writesHeld (some 0) e.kid e.writes &&
          h.writesHeld (some 0) e.kid e.writes && !e.more
      | _ => false) && decide (busy.dieOfLoc scratchBase = some (dieOfTile (tileOf 0))) &&
       !busy.writesHeld (some 0) 0 [(scratchBase, 7)] &&
       (match (busy.thread 0).hw.trains with
        | [x] => decide (x.dest = .slice 1) && !x.arrived && !busy.writesHeld (some 0) x.kid x.writes
        | _ => false) &&
       ((t.thread 0).hw.trains.any (fun t => decide (t.dest = .slice 1) && t.arrived)) &&
       isDevice (2 ^ 22) && booted.decoded (2 ^ 22) && booted.hub.hostUp && booted.hostMay (2 ^ 22 / 128) &&
       !booted.hostWaits (2 ^ 22 / 128) && !booted.mem.hostHeld.contains (2 ^ 22 / 128) &&
       (let u := booted.touch [2 ^ 22 / 128] (booted.kidOf (2 ^ 22)) (fun _ => .age 0) false
        !u.poisoned (2 ^ 22) 128 && !u.kidFailed (u.kidOf (2 ^ 22)) && (u.poisonWord (2 ^ 22 / 8)).poisoned (2 ^ 22) 128) &&
       (booted.modMem (fun m => { m with winLocks := [(0, 2 ^ 22, 2 ^ 22 + 8)] })).hostWaits (2 ^ 22 / 128) &&
       h.mem.backInv.contains 9) = true := by decide +kernel
/-- The twin reaches 0x200000 of function 0. -/
theorem test_meets_twin :
    (let w := booted.modHub (fun h => { h with twEn := true, twUp := true, twInvf := 0 })
     let e := w.st2Entry 0 1
     let p := w.st2Phys e 0x200000
     let u := (runLines p.loc 8).foldl (fun t l => t.claim (l * 128) p.kid) w
     e.getLsbD 0 && !st2Home e && permits e.toNat 1 .store && permits e.toNat 1 .load && !w.keyRefused e &&
       w.decoded p.loc && !w.windowLine none p.loc 8 &&
       !w.writesHeld none p.kid (writesOf p.loc (w.homeBytes p 8)) && !u.poisoned p.loc 8 &&
       !booted.hub.twEn && st2Home (w.st2Entry 0 3)) = true := by decide +kernel

/-- A thread that waits. -/
def waits (w : Wait) : State := booted.modHw (fun h => { h with wait := some w })

/-- The same with group 7 in phase 1. -/
def passed : State := (waits (.barrier 7 0)).modPart 0 (fun p =>
  { p with groups := [(7, { phase := 1, members := [{ slot := 0, arr := false, la := 0, bw := false }] })] })

theorem test_meets_wait_ends :
    (decide (((booted.modVc 0 (fun v => { v with array := some (0, 3) })).vc (vcOf 0)).array = some (0, 3)) &&
       decide (((waits (.chain 1 false 8 false 8)).chainOf 0).mark ≠ 1) &&
       decide (((waits .nap).modHw (fun h => { h with wake := 1 })).th.hw.wake ≠ 0) &&
       (tget Group.reset (passed.part 0).groups 7).passed 0 && decide (((waits (.node 9)).node 9).st = .free) &&
       ((waits .commit).modHw (fun h => { h with append := some { committed 0 0 with first := 0 } })).commitReached 0 &&
       decide (passed.th.hw.barDone = none) && !(tget Group.reset (passed.part 0).groups 7).passed 1 &&
       (tget Group.reset (passed.part 0).groups 7).live &&
       decide ((passed.modHw (fun h => { h with barDone := some (7, 0, false) })).th.hw.barDone ≠ none) &&
       !(waits (.tileHeld 3)).tileBusy 0 3 && decide ((waits .phend).th.hw.trains = []) &&
       decide ((waits .engineRoom).th.hw.wait = some .engineRoom) && !booted.th.hw.detached.contains 3 &&
       decide ((booted.modHeld (fun h => { h with loc := 3, pwr := 1 })).th.held.pwr.toNat <
         (booted.modHeld (fun h => { h with loc := 3, pwr := 1 })).th.held.count) && booted.th.hw.occ &&
       decide (booted.th.hw.wait = none)) = true := by decide +kernel

theorem test_meets_debug :
    (let s := booted.modVc 278 (fun v => { v with trPend := [(3, 10)], trSize := 1 })
     (booted.atTime 10).isSome && (s.vcsOf 0).contains 278 && (s.vc 278).trPend.any (fun x => x.1 == 3)) = true ∧
    (let a := booted.modVc 278 (fun v => { v with trPend := [(6, 11), (7, 10), (7, 12)], trSize := 1 })
     let r := booted.modHub (fun h => { h with bootStep := 7, hcReach := ⟨[1983], [495], [19]⟩ })
     ((a.vcsOf 0).contains 278 && (a.vc 278).trPend.contains (7, 10) && decide (a.actionTime 0 (7, 10) ≤ 10) &&
       (a.vc 278).trPend.all (fun y => !a.actsBefore 0 y (7, 10)) &&
       !(a.vc 278).trEn && (a.vc 278).trSize != 0 && (a.vc 278).trFits && !(demo.vc 278).trFits &&
       r.debugReaches (0x900000 + 8 * 1983) && !r.debugReaches (0x900000 + 8 * 1982) &&
       r.debugReaches (0x910000 + 0x10 * 495) && !r.debugReaches (0x910000 + 0x10 * 494) && !demo.hub.bootDone && !demo.hub.bootErr &&
       decide ((demo.modHub (fun h => { h with bootStep := 7 })).hub.bootStep = 7))) = true := by decide +kernel

/-- Job 0 waits in class 0 with deadline 9 for tile 8, job 1 in class 1; the slots of both tiles are free,
or a thread of the partition runs job 2 in slot 0 and no lane group is free. -/
def queued : State :=
  booted.modPart 0 (fun p => { p with jobs :=
    [(0, { Job.reset with gen := 1, live := true, st := .ready, desc := descOf 0 0x100, deadline := 9 }),
     (1, { Job.reset with gen := 1, live := true, st := .ready, desc := descOf 1 0 })] })
def crowded : State :=
  (queued.modPart 0 (fun p => { p with
    table := { p.table with tiles := [] }
    jobs := p.jobs ++ [(2, { Job.reset with
      gen := 1, live := true, st := .running, desc := descOf 1 0, slot := some 0 })] }))

theorem test_meets_dispatch :
    (let only := queued.modPart 0 (fun p => { p with jobs := p.jobs.drop 1 })
     let p := (only.part 0).dropDeficits
     let able := (only.placeable 0).filter (fun e => e.2.cls != 0)
     let qs := ((p.waitingJobs.filter (fun e => e.2.cls != 0)).map (fun e => e.2.queue)).eraseDups
     let first := nextQueue qs p.lastQueue
     (match earliest (queued.placeable 0) with
      | some (e, j) => e == 0 && (queued.slotFor 0 e j).isSome
      | none => false) &&
       decide (earliest (crowded.placeable 0) = none) &&
       (match earliest ((crowded.part 0).waitingJobs.filter (fun e => e.2.wants.isNone)) with
        | some (e, j) => e == 0 && decide (crowded.victim 0 j.aff = some 0)
        | none => false) &&
       decide (earliest (only.placeable 0) = none) &&
       decide (earliest ((only.part 0).waitingJobs.filter (fun e => e.2.wants.isNone)) = none) && !p.visiting &&
       (match visit qs (fun q => (oldest able q).map (fun e => e.2.lgs)) only.weight (9 * (qs.length + 1)) first
          (tset 0 p.deficit first (tget 0 p.deficit first + only.weight first)) with
        | some (q, _) => q == 1 && (match oldest able q with
            | some (e, j) => e == 1 && (only.slotFor 0 e j).isSome && only.headerReady j
            | none => false)
        | none => false)) = true := by
  decide +kernel
/-- The job of class 1 resumes from 0x300000, and the walker's update for its header is held up. -/
theorem test_meets_header_waits :
    (let s := (((queued.modPart 0 (fun p => { p with jobs := (p.jobs.drop 1).map (fun e =>
         (e.1, { e.2 with resume := some (0x300000, booted.th.tr.asid, booted.th.tr.root) })) })).poke
       (2 ^ 21 + 0x10000) 1 (leBytes 8 0x13F)).modMem (fun m => { m with hostHeld := [(2 ^ 21 + 0x10000) / 128] }))
     let able := (s.placeable 0).filter (fun e => e.2.cls != 0)
     match oldest able 1 with
     | some (e, j) => (s.slotFor 0 e j).isSome && !s.headerReady j
     | none => false) = true := by decide +kernel
theorem test_meets_deadlines :
    (let s := queued.modPart 0 (fun p => { p with jobs :=
       [(0, { Job.reset with gen := 1, live := true, st := .abandoned, settling := true, desc := descOf 1 0 })] })
     let id := jobIdOf 0 { Job.reset with gen := 1 }
     (queued.atTime 9).isSome && (match (s.part 0).job? id with
       | some j => decide (j.st = .abandoned) && j.settling && decide (j.slot = none)
           && !(s.cancelCommands 0 id).rangesHeld none ((s.cancelCommands 0 id).settleRanges j)
       | none => false) && decide ((s.cancelCommands 0 id).commandsOf 0 id = [])) = true := by decide +kernel

/-- A thread with a stop request. -/
def stopping (r : StopReq) : State := booted.modHw (fun h => { h with stops := [r] })

theorem test_meets_stops :
    (decide ((stopping (.forced 3)).th.landing = some (.forced 3)) && decide ((stopping .abandon).th.landing = some .abandon) &&
      decide ((stopping (.spanLost 248)).th.landing = some (.spanLost 248)) && decide ((booted.vc 0).array = none) &&
      ((stopping (.forced 1)).modHw (fun h => { h with window := windowed.th.hw.window })).th.hw.stops.any waitsForWindow &&
      booted.th.hw.occ && !booted.th.hw.mig && booted.th.hw.append.isNone && decide ((stopping (.forced 1)).th.hw.wait ≠ some .array) &&
      decide ((stopping (.forced 1)).th.hw.stops ≠ []) && !(booted.at .L).tileBusy 0 15 && booted.canRun &&
      (match (booted.modSc (fun c => { c with pc := 0x40000000 })).walk booted.ctx .fetch 0x40000000 with
       | .error _ => true | .ok _ => false)) = true := by decide +kernel

/-- Function 0 with a submission ring at guest address 0x300000 that holds one entry, a completion ring at
0x301000 and no watch window. -/
def ring (x : Nat) : State :=
  (booted.modVf 0 (fun f => { f with
    sqBase := BitVec.ofNat 34 (0x300000 / 64), sqLog := 4, sqTail := 1, cqBase := BitVec.ofNat 34 (0x301000 / 64),
    cqLog := 4 })).poke (2 * 2 ^ 21 + 0x100000) 1 (leBytes 64 x)

/-- The entry at the head. -/
def entryIs (s : State) (f : Nat → State → Bool) : Bool :=
  match s.sqEntry 0 with
  | some x => !(s.vf 0).resetting && !s.cqHeld 0 && f x (s.takeSq 0)
  | none => false

theorem test_meets_host_operations :
    (entryIs ((ring (1 + 0x300080 * 2 ^ 64)).poke (2 * 2 ^ 21 + 0x100080) 1 (descOf 1 0)) (fun x t => sqLegal x &&
        (match t.gpaPlaces 0 .load (bitsAt 64 64 x) 128 with
         | some ps => decide ((t.claimPlaces ps).jobRefusal 0 0 (t.placeBytes ps) = none) && !t.placesPoisoned ps
         | none => false)) &&
      entryIs (ring (2 + 0x7FFFF * 2 ^ 64 + 2 ^ 128 + 7 * 2 ^ 160)) (fun x t => sqLegal x &&
        decide (gfnRange x = some [0x7FFFF]) && decide (t.st2Entry 0 0x7FFFF = 0)) &&
      entryIs (ring (3 + 2 * 2 ^ 64 + 2 * 2 ^ 128)) (fun x t => sqLegal x && decide (gfnRange x = some [2, 3]) &&
        !([2, 3].any (t.unmapWaits 0)) && [2, 3].all (fun g => (t.st2Entry 0 g).getLsbD 0)) &&
      entryIs (ring (4 + 0x300000 * 2 ^ 64 + 0x302000 * 2 ^ 128 + 8 * 2 ^ 192)) (fun x t => sqLegal x &&
        (t.copySide 0 false .load (bitsAt 64 64 x) 8).isNone && (t.copySide 0 false .store (bitsAt 64 128 x) 8).isNone &&
        decide (t.copySide 0 true .load (bitsAt 64 64 x) 8 = some 1) &&
        (t.part 0).table.tiles.all (fun e => decide ((t.queue e).length < queueCap e))) &&
      [5, 6, 7].all (fun op => entryIs (ring op) (fun x _ => sqLegal x && sqOp x == op)) &&
      [0, 8, 255].all (fun op => entryIs (ring op) (fun x _ => !sqLegal x))) = true := by decide +kernel

theorem firstBelow_zero (n : Nat) (f : Nat → Bool) (h : f 0 = true) : firstBelow (n + 1) f = some 0 := by
  simp [firstBelow, List.range_succ_eq_map, h]

/-- A watch window of one sequence fits at whatever base is chosen first. -/
theorem test_meets_watch_window :
    firstBelow 65536 (fun k => (ring 5).windowOk 0 ((Config.freeNat (ring 5).free + k) % 65536) 1) = some 0 := by
  refine firstBelow_zero 65535 _ ?_
  have h : ∀ b : Nat, b < 65536 → (ring 5).windowOk 0 b 1 = true := by
    intro b hb
    have hv : (ring 5).vfs.all (fun e => e.1 == 0) = true := by decide +kernel
    have hs : (ring 5).seqs = [] := by decide +kernel
    simp only [List.all_eq_true] at hv
    simp only [State.windowOk, hs, List.all_nil, Bool.or_true, Bool.and_true, Bool.and_eq_true, decide_eq_true_eq,
      List.all_eq_true, Bool.or_eq_true]
    exact ⟨by omega, fun e he => Or.inl (hv e he)⟩
  exact h _ (Nat.mod_lt _ (by decide))

theorem test_meets_host_rest :
    (let r := endOf (exec (.functionReset 0) { booted with th := Thread.reset })
     let s := routineState retWord
     !(booted.vf 0).resetting && (r.vf 0).resetting && r.resetReady 0 && !((r.flushRing 0 4096).vf 0).sqPosted &&
       (let f := { (ring 5).modVf 0 (fun f => { f with cqHead := 1, resetting := true }) with th := Thread.reset }
        (f.vf 0).resetting && f.resetReady 0 && ((f.flushRing 0 4096).vf 0).sqPosted) &&
       !(ringEngine.startReset 0).resetReady 0 && (s.writeEntry 0 0x400000).isSome && !s.writeHeld none 0x400000 128 &&
       !(s.claim 0x400000 1).poisoned 0x400000 128 && s.hub.hostUp && s.hcReaches (0x920000 + 19 * 0x20 + 3 * 8) &&
       (s.writeEntry 0 0x400000).all (fun e => s.roomNow [s.st2Phys e 0]) &&
       decide (2 ≤ ((booted.modPart 0 (fun p => { p with prqLog := 10 })).part 0).prqLog.toNat) &&
       (let hdr := scratchLoc (booted.part 0).prqTile.toNat ((booted.part 0).prqBase.toNat * 16)
        !booted.poisoned hdr 16 && !booted.poisoned (hdr + 16) 8 && (booted.poisonWord (hdr / 8)).poisoned hdr 16 &&
          (booted.poisonWord (hdr / 8 + 2)).poisoned (hdr + 16) 8) &&
       (s.vf 0).routine 15 != 64 && isDevice 0x300000 && s.decoded 0x300000 && !s.poisoned (0x300000 / 128 * 128) 128 &&
       decide ((0x3F80 : Nat) % 128 ≤ 64)) = true := by decide +kernel

/-! ### Hypotheses on steps, convoys and traps -/

theorem test_meets_step :
    (let s := demo
     let s0 := (s.modCv (fun _ => Convoy.single)).modNest Nest.settle
     let f := s0.fetchConvoy
     decide (s.sched = []) && !s.hub.clocksOff && s.canRun && decide (s.th.landing = none) &&
       decide (s.th.hw.wait = none) && decide (s.th.hw.cut = []) && s.th.hw.append.isNone && !s0.needsBody &&
       (match f with
        | (.ok [w], u) => decide (u.th.hw.cut = []) && decide (u.th.hw.wait = none) && (match decodeWord w.toNat with | .ok i => decide (i = .add 3 4 5) | _ => false)
        | _ => false) &&
       !s.inBody && s.th.sc.pc.toNat % 4 == 0 &&
       (s.fetchReady s.th.sc.pc).1 &&
       (let t := (s.fetchReady s.th.sc.pc).2
        match t.resolve t.scalarPlaces t.ctx .fetch s.th.sc.pc with
        | (.ok x, u) => let v := u.claim x.phys.loc x.phys.kid
            x.phys.loc % 64 == s.th.sc.pc.toNat % 64 && !v.poisoned (x.phys.loc / 64 * 64) 64 &&
            (v.blockCopies (x.phys.loc / 64)).isEmpty && decide (leNat (v.homeBytes x.phys 4) < 2 ^ 31)
        | _ => false)) = true := by decide +kernel

/-- The convoy at a program counter, of words written from the byte there on. -/
def convoyOf (off : Nat) (ws : List Nat) : State :=
  (demo.modSc (fun c => { c with pc := BitVec.ofNat 64 (ownWindow + off) })).poke (scratchBase + off) 0
    (ws.flatMap (leBytes 4))

/-- What the words at the program counter form. -/
def formed (s : State) (f : List W32 → State → Bool) : Bool :=
  match ((s.modCv (fun _ => Convoy.single)).modNest Nest.settle).fillBody with
  | (none, t) => (match t.fetchConvoy with | (.ok ws, u) => f ws u | _ => false)
  | _ => false

/-- Two FX members and a third, and a convoy whose second word is no instruction. -/
theorem test_meets_convoys :
    (formed (convoyOf 0 [0xC0202400, 0xC0302400, 0x40402400]) (fun ws u =>
        match decodeMembers 0 ws with
        | .ok ms => ms.length == 3 && (convoyBreach u ms).isSome
        | _ => false) &&
      formed (convoyOf 0 [0xC0202400, 0x00000000]) (fun ws _ =>
        match decodeMembers 0 ws with
        | .error (m, w) => m == 1 && w == 0
        | _ => false)) = true := by decide +kernel
/-- The states along a convoy of VADD and VSUB on disjoint registers, and of VADD, VLD, VMUL and VST. -/
def alongConvoy (s : State) (ms : List (Instr × W32)) : List State :=
  ms.zipIdx.foldl (fun l m => l ++ [endOf (exec m.1.1 ((l.getLastD s).modCv (fun c =>
    { c with mbr := BitVec.ofNat 2 m.2, word := m.1.2, trap := none })))]) [s]

/-- Convoys of two and of four members run to their end. -/
theorem test_meets_members_in_order :
    (let two := [(Instr.vadd true 2 4 6 0, 0), (Instr.vsub false 8 4 6 0, 0)]
     let four := [(Instr.vadd true 2 4 6 0, 0), (Instr.vsub true 8 4 6 0, 0), (Instr.vld true 10 1 0, 0),
       (Instr.pand false 1 2 3 0, (0 : W32))]
     [two, four].all (fun ms =>
       let s := (demo.typed 0x1C0202 3).regs [(1, ownWindow + 64)]
       let l := alongConvoy ((s.modCv (fun _ => manyCv ms s.th.hw.storeNum)).modCv
         (fun c => { c with withheld := 0, faulted := 0 })) ms
       l.length == ms.length + 1 && l.all (fun t => decide (t.cv.trap = none) && !t.cv.waits && t.cv.many) &&
         (let e := l.getLastD s
          decide (e.cv.faulted = 0) && !e.inBody && decide (e.cv.raised &&& e.th.fl.vtrapen = 0) &&
            !e.th.hw.dbStep && e.cv.len == 4 * ms.length && decide (e.th.sc.pc = s.th.sc.pc)))) = true := by
  decide +kernel
theorem test_meets_forming :
    (wordAt (BitVec.ofNat 512 (leNat (leBytes 64 (2 ^ 31 * 2 ^ 480)))) 60).getLsbD 31 = true ∧
      (wordAt (BitVec.ofNat 512 (2 ^ 31)) 60).getLsbD 31 = false ∧
      [48, 52, 56, 60].all (fun o => (wordAt (BitVec.ofNat 512 (2 ^ 512 - 1)) o).getLsbD 31) = true := by
  decide +kernel

theorem test_meets_retirement :
    (let v := demo.modCv (fun c => { c with vector := true })
     let r := (demo.modCv (fun c => { c with raised := 0x80 })).modFl (fun f => { f with vtrapen := 0x80 })
     let d := demo.modHw (fun h => { h with dbStep := true })
     demo.plain && !demo.cv.vector && v.plain && v.cv.vector && (demo.modCv (fun c => { c with many := true })).cv.many &&
       decide (r.cv.raised &&& r.th.fl.vtrapen ≠ 0) && decide (d.cv.raised &&& d.th.fl.vtrapen = 0) && d.th.hw.dbStep &&
       decide (d.th.sc.mode = .U) &&
       decide (d.th.hw.stepHold = none) && !(d.complete none).th.haltLands && !d.th.haltLands &&
       ((stopping (.forced 3)).modHw (fun h => { h with stops := .forced 1 :: h.stops, dbStep := true })).th.haltLands &&
       decide ((d.modTh Thread.holdStep).th.hw.stepHold ≠ none) && !demo.th.hw.dbStep) = true := by decide +kernel

/-- The same with two body convoys, at the second. -/
def inLoop : State := armed.modNest (fun n =>
  { n with buf := [(0, [0x02000000]), (demo.th.sc.pc, [0x02321400])] })

theorem test_meets_nest :
    (let s := inLoop.regs [(3, 2)]
     let l := s.th.nest.level 0
     let u := s.wr l.creg (s.rd l.creg - (if l.drain then s.th.vec.vl.setWidth 64 else 1))
     let w := inLoop.regs [(3, 1)]
     let two := fun (n : Nat) => (inLoop.modNest (fun n => { n with nlev := 2 })).regs [(3, 1), (0, n)]
     !(two 0).rd 3 == 0 && (two 0).inBody && decide (2 ≤ (two 0).th.nest.nlev.toNat) &&
     !demo.inBody && s.inBody && decide (s.th.nest.pos = s.th.nest.blen) && decide (0 < s.th.nest.nlev.toNat) &&
       decide (0 < ((u.wr l.areg (u.rd l.areg + l.inc.signExtend 64)).rd l.creg).toInt) &&
       decide (((w.wr 3 (w.rd 3 - 1)).rd 3).toInt ≤ 0) && w.th.nest.nlev == 1 &&
       decide ((inLoop.modNest (fun n => { n with pos := 0 })).th.nest.pos < inLoop.th.nest.blen)) = true := by
  decide +kernel

theorem test_meets_traps :
    ([1, 7, 10, 12, 13, 14, 18, 20].all (fun c => decide (c < 32)) &&
      decide ((demo.modHw (fun h => { h with dbClaim := true })).th.hw.dbClaim = true ∧ demo.th.hw.dbClaim = false) &&
      decide ((demo.modTr (fun r => { r with tvec := 1 })).th.tr.tvec ≠ 0) && decide (demo.th.tr.tvec = 0) &&
      decide (demo.th.sc.mode = .U)) = true := by decide +kernel

theorem test_meets_element_wise :
    legalVtype demo.th.vec.vtype.toNat = true ∧ (demo.typed 0x1C0202 4).vl ≤ (demo.typed 0x1C0202 4).vlmax ∧
      legalVtype (demo.typed 0x1C0230 4).th.vec.vtype.toNat = true ∧ (demo.typed 0x1C0230 4).vt.sq = true ∧
      (demo.typed 0x1C0230 4).vl ≤ (demo.typed 0x1C0230 4).vlmax ∧
      (demo.typed 0x1C0202 4).vt.sq = false ∧ demo.plain = true ∧ demo.th.zeroOk = true := by decide +kernel

theorem test_meets_memory :
    (List.range 8).all (fun k => !(booted.inSharing (2 ^ 22 + k) 1)) = true ∧ booted.memOk = true := by
  decide +kernel
theorem test_meets_canonical_step :
    Memory.wf demo.mem.cells = true ∧ nextIs (step demo) (fun t => Memory.wf t.mem.cells) = true := by
  decide +kernel

theorem test_meets_invariants :
    (demo.zeroAll && demo.vecLegal && demo.spansWhole && nextIs (step demo) (fun _ => true)) = true := by decide +kernel

theorem test_meets_stopped_clocks :
    (demo.modHub (fun h => { h with clocksOff := true })).hub.clocksOff = true ∧
      demo.sched.head? ≠ some (.event .powerOnReset) := by decide +kernel

/-! ### The manual's worked examples and rules, one step each -/

/-- The first n elements of a register. -/
def el (s : State) (r : BitVec 5) (n : Nat) : List Nat := (List.range n).map (s.elem r)

/-- R301: −7 divided by 2 is −3 with remainder −1, and R300's division by zero. -/
theorem test_div :
    (let s := demo.regs [(1, 2 ^ 64 - 7), (2, 2)]
     nextIs (exec (.div 3 1 2) s) (fun t => t.rd 3 == BitVec.ofInt 64 (-3)) &&
       nextIs (exec (.rem 3 1 2) s) (fun t => t.rd 3 == BitVec.ofInt 64 (-1)) &&
       nextIs (exec (.divn 3 1 4) s) (fun t => t.rd 3 == BitVec.allOnes 64) &&
       nextIs (exec (.rem 3 1 4) s) (fun t => t.rd 3 == BitVec.ofInt 64 (-7))) = true := by decide +kernel

/-- R98: a write to s0 is discarded. R300: ADD wraps; SLT is signed. -/
theorem test_scalar :
    (let s := demo.regs [(1, 2 ^ 64 - 1), (2, 1)]
     nextIs (exec (.add 3 1 2) s) (fun t => t.rd 3 == 0) && nextIs (exec (.add 0 2 2) s) (fun t => t.rd 0 == 0) &&
       nextIs (exec (.slt 3 1 2) s) (fun t => t.rd 3 == 1) && nextIs (exec (.sltn 3 1 2) s) (fun t => t.rd 3 == 0) &&
       nextIs (exec (.lui 3 0x80000) s) (fun t => t.rd 3 == 0xFFFFFFFF80000000)) = true := by decide +kernel

/-- R2, R305: the byte at the lowest address is bits 7:0; LH extends by sign and LHN by zero. -/
theorem test_byte_order :
    (let s := (demo.regs [(1, ownWindow), (2, 0x1122334455668788)])
     let t := endOf (exec (.sd 2 1 64) s)
     decide (t.drainAll.peek (scratchBase + 64) 3 = [0x88, 0x87, 0x66]) &&
       nextIs (exec (.lh 3 1 64) t) (fun u => u.rd 3 == 0xFFFFFFFFFFFF8788) &&
       nextIs (exec (.lhn 3 1 64) t) (fun u => u.rd 3 == 0x8788)) = true := by decide +kernel

/-- R307's example. -/
theorem test_amo :
    (let s := (demo.regs [(3, ownWindow), (10, 0x80000000), (11, 5)]).poke scratchBase 0 [0, 0, 0, 0x80]
     nextIs (exec (.amo 10 3 11 0 0 6) s) (fun t => t.rd 10 == 0xFFFFFFFF80000000 && t.peekNat scratchBase 4 == 5) &&
       nextIs (exec (.amo 10 3 11 0 0 4) s) (fun t =>
         t.rd 10 == 0xFFFFFFFF80000000 && t.peekNat scratchBase 4 == 0x80000000) &&
       nextIs (exec (.amo 10 3 11 0 0 9) (demo.regs [(3, ownWindow), (10, 0x80000000), (11, 1)] |>.poke scratchBase 0
         [0, 0, 0, 0x80])) (fun t => t.rd 10 == 0xFFFFFFFF80000000 && t.peekNat scratchBase 4 == 1)) = true := by
  decide +kernel

/-- The first words of the row-sum loop of R296's example: LNEST, LBODY. -/
theorem test_decode_nest :
    decodeWord 0x1E91B000 = .ok (.lnest 9 3 12) ∧ decodeWord 0x1E100001 = .ok (.lbody 1) := ⟨rfl, rfl⟩
/-- Passes 3 and 4 of that loop: s9 counts 4 elements, s10 three rows, s3 the address. -/
theorem test_nest :
    (let s := inLoop.regs [(9, 1), (10, 3), (3, 0x100)]
     let l := fun (r : BitVec 5) (i : BitVec 48) => ({ creg := r, areg := 3, drain := false, inc := i } : NestLevel)
     let n := s.modNest (fun n => { n with nlev := 2, lev := [(0, l 9 4), (1, l 10 16)], init := [(0, 4), (1, 3)] })
     let t := (n.nestStep 7 0).1
     t.rd 9 == 4 && t.rd 10 == 2 && t.rd 3 == 0x114 && (n.nestStep 7 0).2) = true := by decide +kernel

/-- R316: SVC enters S mode at tvec with the cause and the argument. -/
theorem test_svc :
    (let s := (demo.modPart 0 (fun r => { r with stvec := 0x1000000 })).modSc (fun c => { c with pc := 0x2000 })
     nextIs (exec (.svc 0x123) s) (fun t => decide (t.th.sc.mode = .S) && t.th.sc.pc == 0x400002C0 &&
       t.th.tr.epc == 0x2004 && t.th.tr.cause.toNat % 32 == Cause.svc)) = true := by decide +kernel

/-- R356 to R358's example. -/
theorem test_predicates :
    (let s := (demo.typed 0x1C0202 8).setPred 1 0x2C
     nextIs (exec (.pfirst false 2 1 0) s) (fun t => t.pred 2 == 4) &&
       nextIs (exec (.pscan false 3 1 0) s) (fun t => t.pred 3 == 0xFC) &&
       nextIs (exec (.ppopc false 9 1 0) s) (fun t => t.rd 9 == 3)) = true := by decide +kernel

/-- R191's example: VSHRRND of q15 with SAT, under RNE and RNA. -/
theorem test_vshrrnd :
    (let s := (((demo.typed 0x1E0211 4).elts 1 [0x3000, 0x0C00, 0x5555, 0xFFFF]).elts 2 [0xFFFE, 0xFFFE, 3, 1]).modFl
       (fun f => { f with vhr := 63 })
     nextIs (exec (.vshrrnd false 3 1 2 0) s) (fun t => decide (el t 3 4 = [0x7FFF, 0x3000, 0x0AAB, 0]) &&
       t.th.fl.vflg == 0x20 && tget 0 t.th.fl.vidx 5 == 0 && t.th.fl.vhr == 0) &&
     nextIs (exec (.vshrrnd false 3 1 2 0) (s.modVec (fun v => { v with vtype := 0x1F0211 })))
       (fun t => t.elem 3 3 == 0xFFFF)) = true := by decide +kernel

/-- R117's worked q15 products, under RNE with SAT and under RDN. -/
theorem test_vqmul :
    (let xs := [0x4000, 1, 0xFFFF, 0x8000]
     let ys := [0x6000, 0x4000, 0x4000, 0x8000]
     let s := fun t => ((demo.typed t 4).elts 1 xs).elts 2 ys
     nextIs (exec (.vqmul false 3 1 2 0) (s 0x1E0211)) (fun t => decide (el t 3 4 = [0x3000, 0, 0, 0x7FFF]) &&
       t.th.fl.vflg == 0x20 && tget 0 t.th.fl.vidx 5 == 3) &&
     nextIs (exec (.vqmul false 3 1 2 0) (s 0x1C8211)) (fun t =>
       decide (el t 3 4 = [0x3000, 0, 0xFFFF, 0x8000]) && t.th.fl.vflg == 0x20)) = true := by decide +kernel

/-- R194's example: VFMA of f32 under a predicate. -/
theorem test_vfma :
    (let s := ((((demo.typed 0x1C021A 4).elts 1 [0x40400000, 0x3F800000, 0x40E00000, 0x7F800000]).elts 3
       [0x3F800000, 0x4B800000, 0x40A00000, 0xFF800000]).regs [(11, 0x3F000000)]).setPred 4 0xB
     nextIs (exec (.vfmaVs false 3 1 11 4) s) (fun t =>
       decide (el t 3 4 = [0x40200000, 0x4B800000, 0x40A00000, 0x7FC00000]) && t.th.fl.vflg == 0x11 &&
         tget 0 t.th.fl.vidx 4 == 1 && tget 0 t.th.fl.vidx 0 == 3 && t.th.fl.vflgpc == s.th.sc.pc)) = true := by
  decide +kernel

/-- R119's worked encodings: 1/3, 0.1 and 500 in small formats. -/
theorem test_formats :
    (f32.div 0 0x3F800000 0x40400000).val = 0x3EAAAAAB ∧ (bf16.div 0 0x3F80 0x4040).val = 0x3EAB ∧
      (f16.div 0 0x3C00 0x4900).val = 0x2E66 ∧ (f8e4.roundFin 0 false 500 0).val = 0x7E ∧
      (f8e4.roundFin 0 false 500 0).ev = 0x14 ∧ (f8e4.roundFin 0 false 300 0).val = 0x79 ∧
      (f16.roundFin 0 false 1 (-20)).val = 0x10 := by decide +kernel

/-- R197's conversions of f32 to i32, and 1/3 narrowed to bf16. -/
theorem test_conversions :
    (let s := (demo.typed 0x1C0202 4).elts 5 [0x40200000, 0xC0600000, 0x4F32D05E, 0x7FC00000]
     nextIs (exec (.vcvt false 2 5 3 0) s) (fun t => decide (el t 2 4 = [2, 0xFFFFFFFC, 0x7FFFFFFF, 0]) &&
       t.th.fl.vflg == 0x11 && tget 0 t.th.fl.vidx 0 == 2) &&
     nextIs (exec (.vnarrow false 4 0 3 0) (((demo.typed 0x1C021A 1).elts 0 [0x3EAAAAAB]).typed 0x1C0259 1))
       (fun t => t.elem 4 0 == 0x3EAB && t.th.fl.vflg == 0x10)) = true := by decide +kernel

/-- R203's compress and expand. -/
theorem test_compress :
    (let s := ((demo.typed 0x1C0202 8).elts 1 [10, 11, 12, 13, 14, 15, 16, 17]).setPred 1 0xA6
     let c := endOf (exec (.vcompr false 2 1 1) s)
     decide (el c 2 8 = [11, 12, 15, 17, 0, 0, 0, 0]) &&
     nextIs (exec (.vexpnd false 3 2 1) (c.elts 3 (List.replicate 8 9))) (fun t =>
       decide (el t 3 8 = [9, 11, 12, 9, 9, 15, 9, 17]))) = true := by decide +kernel

/-- R205's sum with a seed, under i16 and q15 with and without SAT. -/
theorem test_reductions :
    (let s := fun t => (((demo.typed t 5).elts 2 [30000, 10000, 60536, 700, 1]).elts 6 [100]).modFl
       (fun f => { f with vhr := 63 })
     nextIs (exec (.vred false 6 2 1 0 0) (s 0x1C0201)) (fun t => t.elem 6 0 == 0x8BD9 && t.th.fl.vflg == 0) &&
       nextIs (exec (.vred false 6 2 1 0 0) (s 0x1E0211)) (fun t => t.elem 6 0 == 0x7FFF &&
         t.th.fl.vflg == 0x20 && tget 0 t.th.fl.vidx 5 == 0 && t.th.fl.vhr == 0) &&
       nextIs (exec (.vred false 6 2 1 0 0) (s 0x1C0211)) (fun t => t.elem 6 0 == 0x8BD9 &&
         t.th.fl.vflg == 0x20 && t.th.fl.vhr == 0)) = true := by decide +kernel

/-- R210's conjugate product and R211's radix-2 butterflies, of cq15. -/
theorem test_complex :
    (let s := ((demo.typed 0x1C0222 4).elts 4 [0x4000, 0, 0x2000, 0]).elts 6 [0x80000000]
     nextIs (exec (.vcmul false 2 8 10 0 1) (((demo.typed 0x1C0222 1).elts 8 [0x40004000]).elts 10 [0x40004000]))
       (fun t => t.elem 2 0 == 0x4000) &&
     nextIs (exec (.vbfly2 false 8 4 6 0) s) (fun t => t.elem 8 0 == 0xF0002000 && t.elem 8 1 == 0x10002000 &&
       t.th.fl.vflg == 0)) = true := by decide +kernel

/-- R214's rotation, R216's LLR packing and R217's whole-beat exchange. -/
theorem test_signal :
    (let s := ((demo.typed 0x1C0202 8).elts 1 [0, 1, 2, 3, 4, 5, 6, 7]).regs [(1, 4 + 1 * 2 ^ 16)]
     let l := (((demo.typed 0x1C0201 4).elts 30 [300, 65529, 200, 65336]).regs [(5, 1)]).typed 0x1C0200 4
     nextIs (exec (.vrotz false 2 1 1 0) s) (fun t => decide (el t 2 8 = [1, 2, 3, 0, 5, 6, 7, 4])) &&
       nextIs (exec (.vllrpk false 4 30 5 0) l) (fun t => decide (el t 4 4 = [127, 252, 100, 156]) &&
         t.th.fl.vflg == 0x20 && tget 0 t.th.fl.vidx 5 == 0)) = true := by decide +kernel

/-- R223's worked inversion, both steps. -/
theorem test_inversion :
    (let s := ((((demo.typed 0x1C0222 4).elts 8 [0x4000, 0x2000, 0x2000, 0x4000]).elts 2 [0x12]).modFl
       (fun f => { f with vhr := 63 }))
     let t := endOf (exec (.vgjstep false 8 2 0) s)
     let r := t.modFl (fun f => { f with vpthr := 0x01000000, vlam := 0x08000000 })
     decide (el t 8 4 = [0x2000, 0x800, 0xF800, 0x600]) && t.elem 2 0 == 0x00010312 &&
       nextIs (exec (.vgjstep false 8 2 0) t) (fun u => decide (el u 8 4 = [0x2AAB, 0xEAAB, 0xEAAB, 0x2AAB]) &&
         u.elem 2 0 == 0x00020312 && u.th.fl.vhr == 1) &&
       nextIs (exec (.vgjstep false 8 2 0) r) (fun u => decide (el u 8 4 = [0x2492, 0xF6DB, 0xF6DB, 0x1249]) &&
         u.elem 2 0 == 0x00120312 && u.th.fl.vflg == 0x40 && tget 0 u.th.fl.vidx 6 == 0)) = true := by
  decide +kernel

/-- R231's product of two steps of bf16. -/
theorem test_mma :
    (let s := (((tagged 0x1C0259 64).elts 4 [0x3FC0]).putElem 4 32 0x3A00).modVc 0 (fun v =>
       { (v.setOwner 3 5 0).setAccWord 3 0 0x3F800000 with cald := [(0, 0), (1, 0x40), (2, 0), (3, 0x3A)] })
     nextIs (exec (.mma 3 4 1) (s.regs [(1, 0)])) (fun t => accWord (t.acc 3) 0 == 0x40800000 &&
       t.th.fl.vflg == 0x10 && tget 0 t.th.fl.vidx 4 == 0)) = true := by decide +kernel

/-- R249's merge of two lanes' copies of an f32 sum. -/
theorem test_wmerge :
    (let s := (windowed.poke (2 * 2 ^ 21 + 0x100000) 1 [0, 0, 0x80, 0x3F]).modHw (fun h => { h with
       window := some { base := 0x300000, ctl := 8 + 2 ^ 11, touched := [(0, 0x4B800000), (3 * 2 ^ 11, 0x3F800000)],
                        discarded := false } })
     nextIs (exec .wmerge s) (fun t => t.peekNat (2 * 2 ^ 21 + 0x100000) 4 == 0x4B800000 &&
       t.th.fl.vflg == 0x10)) = true := by decide +kernel

/-- R125's plane readings of 91 at 4 planes, with and without MID. -/
theorem test_planes :
    (let rows := [0, 4, 0, 4]
     let s := fun t => ((demo.typed t 8).regs [(1, ownWindow)]).pokeBytes 0 none
       ((List.range 4).map (fun j => (scratchBase + 64 * j, BitVec.ofNat 8 (rows.getD j 0))))
     nextIs (exec (.vldbp false 4 1 0 0) (s 0x0C0200)) (fun t => t.elem 4 2 == 5 && t.elem 4 3 == 0) &&
       nextIs (exec (.vldbp false 4 1 0 0) (s 0x4C0200)) (fun t => t.elem 4 2 == 11)) = true := by decide +kernel

/-- R180's example of an append and the pop after it. -/
theorem test_queue :
    (let h := 5 + 7 * 2 ^ 64 + 7 * 2 ^ 128 + 8 * 2 ^ 192 + (ownWindow + 4096) * 2 ^ 256
     let s := ((((demo.typed 0x1C020A 16).regs [(5, ownWindow), (12, 1000)]).setPred 7 0x1252).poke scratchBase 0
       (leBytes 64 h)).poke (scratchBase + 4096 + 20) 0 (leBytes 8 (900 + 903 * 2 ^ 32))
     let t := endOf (exec (.vappend 5 12 7) s)
     let u := endOf (exec (.vqpop 4 5) (t.typed 0x1C020A 4))
     t.peekNat (scratchBase + 16) 8 == 12 && t.peekNat (scratchBase + 4096) 16 ==
       1004 + 1006 * 2 ^ 32 + 1009 * 2 ^ 64 + 1012 * 2 ^ 96 && t.pred 95 == 0 &&
       decide (el u 4 4 = [900, 903, 1001, 1004]) && u.peekNat scratchBase 8 == 9 && u.vl == 4) = true := by
  decide +kernel

/-- R23's channel map and R82's block floating point. -/
theorem test_maps :
    channelOf ⟨0, [4, 5, 6, 7, 8, 9, 10, 11, 12, 13, 14, 15], [], [], 0⟩ 0x40080 =
      { channel := 13, w := 170, bank := 0, row := 10 } ∧
      (bfpPrb ([0x03, 0x82, 0xBE, 0x80] ++ List.replicate 24 0)).take 4 = [0x28, 0xF8, 0xD0, 0x07] := by
  decide +kernel

/-- R104's example, and R105's write of vl in U and L mode. -/
theorem test_csrs :
    (vtOf 0x1E1522).nreg = 16 ∧ (vtOf 0x1E1522).gm = 2 ∧ (vtOf 0x1E1522).pb = 1 ∧ (vtOf 0x1E1522).cls = 4 ∧
      (vtOf 0x1E1522).sat = true ∧ (vtOf 0x1C021A).planes + 1 = 8 ∧
      nextIs (exec (.csrw 10 9 0) (demo.regs [(9, 1)])) (fun t => t.th.tr.cause.toNat % 32 == Cause.priv) = true := by
  decide +kernel

/-- R145: three FX members break a rule; a load whose destination another member writes does (R146). -/
theorem test_decode_convoy :
    decodeWord 0xB0118000 = .ok (.vld true 1 3 0) ∧ decodeWord 0xC620A412 = .ok (.vfmulVs true 2 1 9 0) ∧
      decodeWord 0x36220000 = .ok (.vst false 2 4 0) ∧ decodeWord 0x04000000 = .ok (.addi 0 0 0) ∧
      decodeWord 0x20900088 = .ok (.csrr 9 0x011) ∧ decodeWord 0x18901FFB = .ok (.bne 9 0 0xFFB) :=
  ⟨rfl, rfl, rfl, rfl, rfl, rfl⟩

/-- The worked walk of the translation chapter: VA 0x123456789A of function 7. -/
theorem test_walk :
    (let s := { booted with
       hub := { booted.hub with fit := .gib256 }
       vfs := [(7, { Vf.reset with part := 0, kid := 35 })]
       mem := { booted.mem with
         cells := [], st2 := [(7 * 2 ^ 19 + 0x200, 0x48A00467), (7 * 2 ^ 19 + 0x3891, 0x48C00467)]
         frames := [(0x245, { st := .assigned, kid := 35, maps := 1 }), (0x246, { st := .assigned, kid := 35, maps := 1 })] } }
     let p := fun (u : State) (off x : Nat) => u.poke (0x48A00000 + off) 35 (leBytes 8 x)
     let ptr := fun (gpa : Nat) => 1 + gpa / 2 ^ 9 * 2 ^ 12
     let t := p (p (p (p s 0 (ptr 0x40008000)) 0x8008 (ptr 0x40010000)) 0x111A0 (ptr 0x40018000)) 0x180A8 0x3891A0002F
     (match t.walk { vf := 7, asid := 0, root := 0x8000, user := true, tile := none, part := 0 } .load 0x123456789A with
      | .ok x => x.phys.loc == 0x48D6789A && x.phys.kid == 35 && x.pte.isSome
      | .error _ => false)) = true := by decide +kernel

/-- R156: cq15, nreg=16, gm=2, pb=1, sat makes %vtype 0x001E_1522; R162: f32, nreg=16 makes 0x001C_011A. -/
theorem test_vcfg :
    ({ Vcfg.plain .cq15 with nreg := 16, gm := 2, pb := 1, sat := true } : Vcfg).value = some 0x1E1522 ∧
    ({ Vcfg.plain .f32 with nreg := 16 } : Vcfg).value = some 0x1C011A := by decide +kernel
/-- R153: `nop` is 0x0400_0000; R309: `ret` is 0x1C00_8000; `li` to the top of its range and beyond. -/
theorem test_pseudo :
    (assemble (Asm.start 0 0 0) [.pseudo .nop, .pseudo .ret]).map (fun a => leNat a.text.bytes) = some 0x1C00800004000000 ∧
    (Pseudo.li 3 0x7FFFF7FF).instrs 0 = some [.lui 3 0x7FFFF, .addi 3 3 0x7FF] ∧
    (Pseudo.li 3 2048).instrs 0 = some [.lui 3 1, .addi 3 3 0x800] ∧
    (Pseudo.li 3 0x7FFFF800).instrs 0 = none := by decide +kernel
/-- R154: a convoy of two words that would cross a 64-byte boundary follows a NOP; C is set on its first. -/
theorem test_emit_convoy :
    (emitConvoy 0x1C021A 60 [.vld false 1 2 0, .vadd false 3 4 5 0]).map
        (fun ws => ws.map (fun w => (w.getLsbD 31, w == nopWord))) =
      some [(false, true), (true, false), (false, false)] := by decide +kernel
/-- R155: 0.1 and −0.5 in f32 are 0x3DCC_CCCD and 0xBF00_0000; 1.5 in bf16 is 0x3FC0. -/
theorem test_float_directives :
    (assemble (Asm.start 0 0 0) [.select .data, .float [(1, 1), (-5, 1)], .bf16 [(15, 1)]]).map
        (fun a => leNat a.data.bytes) =
      some 0x3FC0BF0000003DCCCCCD := by decide +kernel

/-- A step runs the word at the program counter: ADD s3, s4, s5 of a context at job start. -/
theorem test_step :
    nextIs (step (demo.regs [(4, 2), (5, 3)])) (fun t => t.rd 3 == 5 && t.th.sc.pc == demo.th.sc.pc + 4) = true := by
  decide +kernel
/-- An illegal word traps ILLOP, with eval the word (R144). -/
theorem test_step_illegal :
    nextIs (step (State.reset.withFetchWord 32 0)) (fun t => t.th.tr.cause.toNat == Cause.illop && t.th.tr.val == 0) =
      true := by decide +kernel

end Sys2Proof.Machine
end

section
/-!
PROOF. What FRAMECMD and MAPCMD do (R31, R32, R34, R43, R44): one equation for each way a command or its
completing event can end, and the statement about both commands assembled from them.
-/

namespace Sys2Proof.Machine

open Sys2Proof

/-! ### The rows of both commands -/

theorem exec_frameAssign (frame : BitVec 31) (kid : BitVec 9) (count : BitVec 4) (s : State) :
    exec (.frameAssign frame kid count) s = execFrameAssign frame kid count s := rfl
theorem exec_frameRelease (frame : BitVec 31 × BitVec 9) (count : BitVec 4) (s : State) :
    exec (.frameRelease frame count) s = execFrameRelease frame count s := rfl
theorem exec_frameQuery (frame : BitVec 31 × BitVec 9 × BitVec 4) (s : State) :
    exec (.frameQuery frame) s = execFrameQuery frame s := rfl
theorem exec_releaseComplete (s : State) : exec .releaseComplete s = execReleaseComplete s := rfl
theorem exec_mapWrite (gfn : BitVec 19) (vf : BitVec 9) (s : State) :
    exec (.mapWrite gfn vf) s = execMapWrite gfn vf s := rfl
theorem exec_mapRemove (gfn : BitVec 19) (vf : BitVec 9) (s : State) :
    exec (.mapRemove gfn vf) s = execMapRemove gfn vf s := rfl
theorem exec_mapRead (gfn : BitVec 19) (vf : BitVec 9) (s : State) :
    exec (.mapRead gfn vf) s = execMapRead gfn vf s := rfl
theorem exec_removalComplete (s : State) : exec .removalComplete s = execRemovalComplete s := rfl

/-! ### FRAMECMD (R31, R32, R34) -/

section FrameCommands

variable {s : State} {frame : BitVec 31} {kid : BitVec 9} {count : BitVec 4}

theorem frameCommands_of_busy (hgo : s.hub.fcGo = true) :
    exec (.frameAssign frame kid count) s = .next s ∧ exec (.frameRelease (frame, kid) count) s = .next s ∧
      exec (.frameQuery (frame, kid, count)) s = .next s := by
  refine ⟨?_, ?_, ?_⟩
  · simp only [exec_frameAssign, execFrameAssign, hgo, if_true]
  · simp only [exec_frameRelease, execFrameRelease, hgo, if_true]
  · simp only [exec_frameQuery, execFrameQuery, hgo, if_true]

theorem frameAssign_accepted (hgo : s.hub.fcGo = false)
    (hdata : (framesOf frame count).all s.isDataFrame = true)
    (hfree : (framesOf frame count).all s.assignable = true) :
    exec (.frameAssign frame kid count) s =
      .next ((s.assignFrames (framesOf frame count) kid).modHub
        (fun h => h.frameCmd frame kid count 1 0 false)) := by
  simp [exec_frameAssign, execFrameAssign, hgo, hdata, hfree]

theorem frameAssign_refused (hgo : s.hub.fcGo = false)
    (hdata : (framesOf frame count).all s.isDataFrame = true)
    (hfree : (framesOf frame count).all s.assignable = false) :
    exec (.frameAssign frame kid count) s =
      .next (s.modHub (fun h => h.frameCmd frame kid count 1 2 false)) := by
  simp [exec_frameAssign, execFrameAssign, hgo, hdata, hfree]

theorem frameRelease_started (hgo : s.hub.fcGo = false)
    (hdata : (framesOf frame count).all s.isDataFrame = true)
    (hunmapped : (framesOf frame count).all s.releasable = true) :
    exec (.frameRelease (frame, kid) count) s =
      .next ((s.startRelease (framesOf frame count)).modHub
        (fun h => h.frameCmd frame kid count 2 1 true)) := by
  simp [exec_frameRelease, execFrameRelease, hgo, hdata, hunmapped]

theorem frameRelease_refused (hgo : s.hub.fcGo = false)
    (hdata : (framesOf frame count).all s.isDataFrame = true)
    (hunmapped : (framesOf frame count).all s.releasable = false) :
    exec (.frameRelease (frame, kid) count) s =
      .next (s.modHub (fun h => h.frameCmd frame kid count 2 2 false)) := by
  simp [exec_frameRelease, execFrameRelease, hgo, hdata, hunmapped]

theorem frameQuery_answered (hgo : s.hub.fcGo = false) (hdata : s.isDataFrame frame.toNat = true) :
    exec (.frameQuery (frame, kid, count)) s = .next (s.modHub (fun h =>
      { h with fcFrame := frame, fcOp := 3, fcStatus := 0, fcGo := false,
               fcKid := if (s.frame frame.toNat).st = .free then 0 else (s.frame frame.toNat).kid,
               fcCount := BitVec.ofNat 4 (min 15 (s.frame frame.toNat).maps),
               fcState := match (s.frame frame.toNat).st with
                 | .free => 0
                 | .assigned => 1
                 | .releasing => 2 })) := by
  rw [exec_frameQuery]
  exact (if_neg (by simp [hgo])).trans (if_neg (by simp [hdata]))

theorem frameQuery_refused (hgo : s.hub.fcGo = false) (hdata : s.isDataFrame frame.toNat = false) :
    exec (.frameQuery (frame, kid, count)) s =
      .next (s.modHub (fun h => h.frameCmd frame kid count 3 3 false)) := by
  simp [exec_frameQuery, execFrameQuery, hgo, hdata]

/-- R32 step 4: the frames become free once the host holds none of their lines. -/
theorem releaseComplete_of_sweepDone (hgo : s.hub.fcGo = true) (hop : s.hub.fcOp = 2#3)
    (hsweep : s.sweepDone (framesOf s.hub.fcFrame s.hub.fcCount) = true) :
    exec .releaseComplete s =
      .next (((framesOf s.hub.fcFrame s.hub.fcCount).foldl State.freeFrame s).modHub
        (fun h => { h with fcStatus := 0, fcGo := false })) := by
  simp [exec_releaseComplete, execReleaseComplete, hgo, hop, hsweep]

end FrameCommands

/-! ### MAPCMD (R43, R44) -/

/-- The entry that a write of the map port asks for: MAPENT with MIG clear (R43, log entry 64). -/
def State.askedEntry (s : State) : BitVec 64 := s.hub.mapEnt &&& ~~~ 0x8000#64

section MapCommands

variable {s : State} {gfn : BitVec 19} {vf : BitVec 9}

/-- A write that passes the checks of R43 and R44 ends in one of three ways: it is refused, waits for the
removal of the entry it replaces, or is done. -/
theorem mapWrite_of_wellFormed (hgo : s.hub.mcGo = false) (hvf : vf.toNat < 384)
    (hvalid : s.askedEntry.getLsbD 0 = true) (hres : st2Reserved s.askedEntry = false) :
    exec (.mapWrite gfn vf) s =
      if !s.entryAccepted s.askedEntry then
        .next (s.modHub (fun h => h.mapCmd gfn vf 1 2 false false))
      else if (s.st2Entry vf.toNat gfn.toNat).getLsbD 0 then
        .next ((s.startUnmap vf.toNat gfn.toNat).modHub
          (fun h => { h.mapCmd gfn vf 1 1 true true with mcImage := s.askedEntry }))
      else
        .next ((s.mapEntry vf.toNat gfn.toNat s.askedEntry).modHub
          (fun h => h.mapCmd gfn vf 1 0 false false)) := by
  have hchecks : ¬ (384 ≤ vf.toNat ∨ ¬ s.askedEntry.getLsbD 0 = true ∨ st2Reserved s.askedEntry = true) := by
    simp [hvf, hvalid, hres]
  rw [exec_mapWrite]
  exact (if_neg (ne_true_of_eq_false hgo)).trans (if_neg hchecks)

theorem mapWrite_refused (hgo : s.hub.mcGo = false) (hvf : vf.toNat < 384)
    (hvalid : s.askedEntry.getLsbD 0 = true) (hres : st2Reserved s.askedEntry = false)
    (hrefused : s.entryAccepted s.askedEntry = false) :
    exec (.mapWrite gfn vf) s = .next (s.modHub (fun h => h.mapCmd gfn vf 1 2 false false)) := by
  rw [mapWrite_of_wellFormed hgo hvf hvalid hres, hrefused, Bool.not_false, if_pos rfl]

theorem mapWrite_over_invalid (hgo : s.hub.mcGo = false) (hvf : vf.toNat < 384)
    (hvalid : s.askedEntry.getLsbD 0 = true) (hres : st2Reserved s.askedEntry = false)
    (haccepted : s.entryAccepted s.askedEntry = true)
    (hold : (s.st2Entry vf.toNat gfn.toNat).getLsbD 0 = false) :
    exec (.mapWrite gfn vf) s =
      .next ((s.mapEntry vf.toNat gfn.toNat s.askedEntry).modHub
        (fun h => h.mapCmd gfn vf 1 0 false false)) := by
  rw [mapWrite_of_wellFormed hgo hvf hvalid hres, haccepted, Bool.not_true, if_neg Bool.false_ne_true,
    hold, if_neg Bool.false_ne_true]

theorem mapWrite_over_valid (hgo : s.hub.mcGo = false) (hvf : vf.toNat < 384)
    (hvalid : s.askedEntry.getLsbD 0 = true) (hres : st2Reserved s.askedEntry = false)
    (haccepted : s.entryAccepted s.askedEntry = true)
    (hold : (s.st2Entry vf.toNat gfn.toNat).getLsbD 0 = true) :
    exec (.mapWrite gfn vf) s =
      .next ((s.startUnmap vf.toNat gfn.toNat).modHub
        (fun h => { h.mapCmd gfn vf 1 1 true true with mcImage := s.askedEntry })) := by
  rw [mapWrite_of_wellFormed hgo hvf hvalid hres, haccepted, Bool.not_true, if_neg Bool.false_ne_true,
    if_pos hold]

theorem mapRemove_started (hgo : s.hub.mcGo = false) (hvf : vf.toNat < 384)
    (hvalid : (s.st2Entry vf.toNat gfn.toNat).getLsbD 0 = true) :
    exec (.mapRemove gfn vf) s =
      .next ((s.startUnmap vf.toNat gfn.toNat).modHub (fun h => h.mapCmd gfn vf 2 1 true false)) := by
  simp [exec_mapRemove, execMapRemove, hgo, Nat.not_le.mpr hvf, hvalid]

theorem mapRead_answered (hgo : s.hub.mcGo = false) (hvf : vf.toNat < 384) :
    exec (.mapRead gfn vf) s = .next (s.modHub (fun h =>
      { h.mapCmd gfn vf 3 0 false false with mapEnt := s.st2Entry vf.toNat gfn.toNat })) := by
  simp [exec_mapRead, execMapRead, hgo, Nat.not_le.mpr hvf]

/-- MAPCMD's fields when the removal it waited for is over (R44). -/
def State.mapDone (s : State) (status : BitVec 3) : State :=
  s.modHub (fun h => { h with mcStatus := status, mcGo := false, mcReplace := false })

/-- Log entry 36: once no store is on its way through the entry, a plain removal ends, and a write that
asked for the removal follows, or is refused with the old entry valid again. -/
theorem removalComplete_of_not_waits (hgo : s.hub.mcGo = true)
    (hwaits : s.unmapWaits s.hub.mcVf.toNat s.hub.mcGfn.toNat = false) :
    exec .removalComplete s =
      let v := s.hub.mcVf.toNat
      let g := s.hub.mcGfn.toNat
      if !s.hub.mcReplace then .next ((s.endUnmap v g).mapDone 0)
      else if s.entryAccepted s.hub.mcImage then
        .next (((s.endUnmap v g).mapEntry v g s.hub.mcImage).mapDone 0)
      else .next ((s.setSt2 v g (s.st2Entry v g ||| 1#64)).mapDone 2) := by
  rw [exec_removalComplete]
  exact if_neg (by simp [hgo, hwaits])

end MapCommands

/-- Settles O37: each clause is one of the equations above. -/
theorem frameAndMapCommands : Obligations.FrameAndMapCommands := by
  intro s frame kid count gfn vf
  refine ⟨frameAssign_accepted, frameRelease_started,
    fun hgo hdata => ⟨frameAssign_refused hgo hdata, frameRelease_refused hgo hdata⟩,
    frameQuery_answered, frameQuery_refused, frameCommands_of_busy, releaseComplete_of_sweepDone,
    fun hgo hvf hvalid hres => ⟨mapWrite_refused hgo hvf hvalid hres,
      mapWrite_over_invalid hgo hvf hvalid hres, mapWrite_over_valid hgo hvf hvalid hres⟩,
    mapRemove_started, mapRead_answered, fun hgo hwaits => ?removal⟩
  case removal =>
    have hends := removalComplete_of_not_waits hgo hwaits
    refine ⟨fun hplain => ?_, fun hreplace haccepted => ?_, fun hreplace hrefused => ?_⟩
    · rw [hends, hplain]; rfl
    · rw [hends, hreplace]; exact if_pos haccepted
    · rw [hends, hreplace]; exact if_neg (ne_true_of_eq_false hrefused)

end Sys2Proof.Machine
end

section
/-!
PROOF. Migration, walks, invalidation, the fault queue's registers, and the lines between the L2 and memory (R29,
R40, R49, R51 to R54, R56): one equation for each way an event can end, and the statement assembled from them.
-/

namespace Sys2Proof.Machine

open Sys2Proof

/-! ### The rows of the events -/

theorem exec_migpush (n : Nat) (frame : BitVec 31) (s : State) :
    exec (.migpush n frame) s = execMigpush n frame s := rfl
theorem exec_migrate (n : Nat) (gfn : BitVec 19) (s : State) :
    exec (.migrate n gfn) s = execMigrate n gfn s := rfl
theorem exec_migrationComplete (n : Nat) (gfn : BitVec 19) (s : State) :
    exec (.migrationComplete n gfn) s = execMigrationComplete n gfn s := rfl
theorem exec_counterHalving (s : State) : exec .counterHalving s = execCounterHalving s := rfl
theorem exec_pageWalk (slot : Nat) (va : W64) (acc : Access) (s : State) :
    exec (.pageWalk slot va acc) s = execPageWalk slot va acc s := rfl
theorem exec_s1invWrite (slot : Nat) (data : W64) (s : State) :
    exec (.s1invWrite slot data) s = execS1invWrite slot data s := rfl
theorem exec_s1invComplete (n : Nat) (s : State) :
    exec (.s1invComplete n) s = execS1invComplete n s := rfl
theorem exec_fqcfgWrite (n : Nat) (data : W64) (s : State) :
    exec (.fqcfgWrite n data) s = execFqcfgWrite n data s := rfl
theorem exec_fqheadWrite (n : Nat) (data : W64) (s : State) :
    exec (.fqheadWrite n data) s = execFqheadWrite n data s := rfl
theorem exec_l2Fill (line kid : Nat) (mac : MacOutcome) (s : State) :
    exec (.l2Fill line kid mac) s = execL2Fill line kid mac s := rfl
theorem exec_l2Writeback (line : Nat) (s : State) :
    exec (.l2Writeback line) s = execL2Writeback line s := rfl

/-! ### What the state's operations read back -/

/-- A stage-2 entry reads back what was written to it. -/
@[simp] theorem st2Entry_setSt2_same (s : State) (n g : Nat) (e : BitVec 64) :
    (s.setSt2 n g e).st2Entry n g = e := tget_tset_same 0 s.mem.st2 (n * 2 ^ 19 + g) e

/-- A partition reads back what an update made of it. -/
@[simp] theorem part_modPart_same (s : State) (n : Nat) (f : Part → Part) :
    (s.modPart n f).part n = f (s.part n) := tget_tset_same Part.reset s.parts n (f (s.part n))

@[simp] theorem thread_cur (s : State) : s.thread s.cur = s.th := if_pos rfl

@[simp] theorem switchTo_cur (s : State) : s.switchTo s.cur = s := if_pos rfl

/-- An event on the registers of the running context acts on the state as it stands. -/
theorem onSlot_cur {s : State} (f : State → State) (hocc : s.th.hw.occ = true) :
    s.onSlot s.cur f = (f (s.switchTo s.cur)).switchTo s.cur := by
  rw [State.onSlot, thread_cur, if_pos hocc]

/-! ### Migration (R52, R53) -/

section Migration

variable {s : State} {n : Nat} {gfn : BitVec 19}

/-- R52 step 1: the entry has MIG set, and no byte moves yet. -/
theorem migrate_sets_mig (hcan : s.canMigrate n gfn.toNat = true) :
    ∃ t : State, exec (.migrate n gfn) s = .next t ∧
      t.st2Entry n gfn.toNat = s.st2Entry n gfn.toNat ||| 0x8000#64 ∧ t.mem.cells = s.mem.cells :=
  ⟨_, (exec_migrate n gfn s).trans (if_pos hcan), st2Entry_setSt2_same s n gfn.toNat _, rfl⟩

/-- The first host byte that the entry of a guest frame maps. -/
def State.migSource (s : State) (n : Nat) (gfn : BitVec 19) : Nat :=
  hostBase + st2Frame (s.st2Entry n gfn.toNat) * 2 ^ 21

/-- The state after a range has moved into pool frame f, with the frames r left in the pool (R52 steps 2 to 5). -/
def State.migrated (s : State) (n : Nat) (gfn : BitVec 19) (f : BitVec 31) (r : List (BitVec 31)) : State :=
  let g := gfn.toNat
  let e := s.st2Entry n g
  let kid := (s.frame f.toNat).kid.toNat
  let src := s.migSource n gfn
  let dst := f.toNat * 2 ^ 21
  let new := BitVec.ofNat 64 (bitsAt 4 0 e.toNat + kid * 2 ^ 5 + bit (e.getLsbD 14) 14 + f.toNat * 2 ^ 21)
  let t := (((((s.copyRange src dst kid).setSt2 n g new).dropSt2 n g).countMap new true).modVf n
    (fun v => { v with pool := r })).postNotice (st2Frame e) n g f.toNat
  { t with
    th := t.th.moveRange src dst kid
    slots := t.slots.map (fun x => (x.1, x.2.moveRange src dst kid)) }

/-- R52 step 2: what the host holds of the range is called back first. -/
theorem migrationComplete_calls_back (hmig : (s.st2Entry n gfn.toNat).getLsbD 15 = true)
    (hheld : s.heldRange (s.migSource n gfn) (2 ^ 21) ≠ []) :
    exec (.migrationComplete n gfn) s = .next (s.callBack [(s.migSource n gfn, 2 ^ 21)]) := by
  have hnonempty : (!(s.heldRange (s.migSource n gfn) (2 ^ 21)).isEmpty) = true := by
    rw [List.isEmpty_eq_false_iff.mpr hheld]; rfl
  rw [exec_migrationComplete]
  exact (if_neg (by rw [hmig]; exact Bool.false_ne_true)).trans (if_pos hnonempty)

/-- A pool without a usable frame is passed over whole. -/
theorem dropWhile_of_none_usable {pool : List (BitVec 31)} (hnone : ∀ f ∈ pool, s.poolFrameOk n f = false) :
    pool.dropWhile (fun f => !s.poolFrameOk n f) = [] := by
  induction pool with
  | nil => rfl
  | cons f r ih =>
    rw [List.dropWhile_cons_of_pos (by rw [hnone f List.mem_cons_self]; rfl)]
    exact ih (fun g hg => hnone g (List.mem_cons_of_mem f hg))

/-- Log entry 104: without a usable pool frame the range stays where it is. -/
theorem migrationComplete_without_frame (hmig : (s.st2Entry n gfn.toNat).getLsbD 15 = true)
    (hheld : s.heldRange (s.migSource n gfn) (2 ^ 21) = [])
    (hpool : ∀ f ∈ (s.vf n).pool, s.poolFrameOk n f = false) :
    exec (.migrationComplete n gfn) s =
      .next ((s.setSt2 n gfn.toNat (s.st2Entry n gfn.toNat &&& ~~~ 0x8000#64)).modVf n
        (fun f => { f with pool := [] })) := by
  rw [State.migSource] at hheld
  simp only [exec_migrationComplete, execMigrationComplete, hmig, hheld,
    dropWhile_of_none_usable hpool, List.isEmpty_nil, Bool.not_true, Bool.false_eq_true, if_false]

theorem migrationComplete_moves {f : BitVec 31} {r : List (BitVec 31)}
    (hpool : (s.vf n).pool.dropWhile (fun f => !s.poolFrameOk n f) = f :: r)
    (hmig : (s.st2Entry n gfn.toNat).getLsbD 15 = true)
    (hsrc : s.heldRange (s.migSource n gfn) (2 ^ 21) = [])
    (hdst : s.heldRange (f.toNat * 2 ^ 21) (2 ^ 21) = [])
    (hon : s.hub.noticeOn = true) (hroom : s.hub.noticeFull = false) :
    exec (.migrationComplete n gfn) s = .next (s.migrated n gfn f r) := by
  rw [State.migSource] at hsrc
  simp only [exec_migrationComplete, execMigrationComplete, hmig, hsrc, hpool, hdst, hon, hroom,
    List.isEmpty_nil, Bool.not_true, Bool.not_false, Bool.and_self, Bool.false_eq_true, if_false, if_true]
  rfl

end Migration

/-! ### Walks (R40, R42) -/

section Walks

variable {s : State} {slot : Nat} {va : W64} {acc : Access} {x : Xlat}

/-- A walk whose update nothing holds up fills the TLBs, unless the twin refuses its access. -/
theorem pageWalk_of_not_held (hocc : (s.thread slot).hw.occ = true)
    (hwalk : s.walk (s.ctxOf slot) acc va = .ok x)
    (hclear : x.pte = none ∨ (s.thread slot).hw.buf = [] ∧ (s.thread slot).hw.trains = [])
    (hline : s.updateHeld x = none) :
    exec (.pageWalk slot va acc) s =
      if s.twinRefuses acc x then .next s.bump
      else .next ((if asksTwin acc x then s.bump else s).applyXlat
        [.scalar (vcOf slot), .tile (tileOf slot)] x) := by
  have hwaits : (x.pte.isSome && (!(s.thread slot).hw.buf.isEmpty || !(s.thread slot).hw.trains.isEmpty)) =
      false := by
    rcases hclear with hpte | ⟨hbuf, htrains⟩
    · rw [hpte]; rfl
    · rw [hbuf, htrains]; exact Bool.and_false _
  simp only [exec_pageWalk, execPageWalk, hocc, hwalk, hwaits, hline, Bool.false_eq_true, if_false, if_true]

end Walks

/-! ### Invalidation (R54) -/

section Invalidation

variable {s : State} {n : Nat}

theorem s1invWrite_idle {data : W64} (hocc : s.th.hw.occ = true) (hmode : s.th.sc.mode = .S)
    (hidle : (s.part s.curPart).invBusy = false) :
    exec (.s1invWrite s.cur data) s =
      .next (((s.switchTo s.cur).csrSet 0x201 data.toNat).switchTo s.cur) := by
  rw [exec_s1invWrite, execS1invWrite, onSlot_cur _ hocc, switchTo_cur,
    if_pos ⟨hmode, ne_true_of_eq_false hidle⟩]

/-- The state after an invalidation of a partition has completed: its TLBs hold no entry that it names, its walker
caches none of the function, and BUSY is clear. -/
def State.invalidated (s : State) (n : Nat) : State :=
  let p := s.part n
  (s.modMem (fun m => { m with
    tlbs := m.tlbs.filter (fun x => !(p.table.tiles.contains x.1.tileNo && p.drops x.2))
    walkCache := m.walkCache.filter (fun x =>
      !(p.table.tiles.contains x.1 && x.2.vf == p.invVf.toNat)) })).modPart n
    (fun p => { p with invBusy := false })

/-- Log entry 35: an invalidation completes when none of the function's accesses is on its way. -/
theorem s1invComplete_of_not_waits (hbusy : (s.part n).invBusy = true) (hwaits : s.invWaits n = false) :
    exec (.s1invComplete n) s = .next (s.invalidated n) := by
  rw [exec_s1invComplete]
  exact if_pos (by rw [hbusy, hwaits]; rfl)

theorem invalidated_invBusy : ((s.invalidated n).part n).invBusy = false := by
  rw [State.invalidated, part_modPart_same]

/-- The TLBs keep entries only, and in the partition's tiles none that the invalidation names. -/
theorem mem_invalidated_tlbs {e : TlbPlace × TlbEntry} (he : e ∈ (s.invalidated n).mem.tlbs) :
    e ∈ s.mem.tlbs ∧
      ((s.part n).table.tiles.contains e.1.tileNo = true → (s.part n).drops e.2 = false) := by
  obtain ⟨hmem, hkept⟩ := List.mem_filter.mp he
  refine ⟨hmem, fun htile => ?_⟩
  simpa only [htile, Bool.true_and, Bool.not_eq_true'] using hkept

end Invalidation

/-! ### Lines between the L2 and memory (R29, R56) -/

/-- The state after a line of a partition has been read for an access under its frame's key, by the outcome of
the checks: a line that passes allocates under that key, and a MAC failure fails the functions that it falls on and
stops what reads the line (R22, R26, R28, R29). -/
def State.lineRead (s : State) (line kid n : Nat) (p : Part) : MacOutcome → State
  | .good => s.fillUnder line kid
  | .corrected => (s.fillUnder line kid).modHub (fun h => { h with eccCount := h.eccCount + 1 })
  | .dataLine => if s.zeroLine line then s else (s.macFailure (s.owners kid)).poisonLine line
  | .counterNode level =>
    if (s.uncached p (line * 128)).any (fun x => x.level == level) then
      (s.macFailure (s.ownersUnder n level (counterIndex p (line * 128) / 8 ^ level) p)).poisonLine line
    else s

section Fills

variable {s : State} {line kid n key : Nat} {p q : Part} (hset : s.l2Set (line * 128) = some (q, key))
  (hpart : s.partOfPa (line * 128) = some (n, p))
  (hmiss : (tget [] s.mem.l2 key).any (fun w => w.line == line) = false)

include hset hpart hmiss

/-- Log entry 23: an event whose precondition fails does nothing. -/
theorem l2Fill_other_key (mac : MacOutcome)
    (hother : (s.frame (line * 128 / 2 ^ 21)).st ≠ .assigned ∨
      (s.frame (line * 128 / 2 ^ 21)).kid.toNat ≠ kid) :
    exec (.l2Fill line kid mac) s = .next s := by
  have hskip : ((tget [] s.mem.l2 key).any (fun w => w.line == line) ||
      (s.frame (line * 128 / 2 ^ 21)).st != .assigned ||
      (s.frame (line * 128 / 2 ^ 21)).kid.toNat != kid) = true := by
    rw [hmiss, Bool.false_or, Bool.or_eq_true, bne_iff_ne, bne_iff_ne]; exact hother
  simp only [exec_l2Fill, execL2Fill, hset, hpart, hskip, if_true]

variable (hst : (s.frame (line * 128 / 2 ^ 21)).st = .assigned)
  (hkid : (s.frame (line * 128 / 2 ^ 21)).kid.toNat = kid)

include hst hkid

/-- Under the key of its frame, a line that no way holds ends as its check does. -/
theorem l2Fill_assigned_key (mac : MacOutcome) :
    exec (.l2Fill line kid mac) s = .next (s.lineRead line kid n p mac) := by
  have hfills : ((tget [] s.mem.l2 key).any (fun w => w.line == line) ||
      (s.frame (line * 128 / 2 ^ 21)).st != .assigned ||
      (s.frame (line * 128 / 2 ^ 21)).kid.toNat != kid) = false := by
    rw [hmiss, hst, hkid, bne_self_eq_false, bne_self_eq_false]; rfl
  simp only [exec_l2Fill, execL2Fill, hset, hpart, hfills, Bool.false_eq_true, if_false]
  cases mac <;> rfl

end Fills

theorem l2Writeback_dirty {s : State} {line n : Nat} {p : Part} {w : L2Way}
    (hpart : s.partOfPa (line * 128) = some (n, p)) :
    let sl := sliceOf p.table (line * 128)
    let key := sl.1 * 1024 + sl.2
    let ways := tget [] s.mem.l2 key
    ways.find? (fun x => x.line == line && x.dirty) = some w →
    exec (.l2Writeback line) s = .next ((s.modMem (fun m => { m with
      l2 := tset [] m.l2 key (ways.map (fun x =>
        if x.line = line then { x with dirty := false } else x)) })).writeback line w.kid) := by
  intro sl key ways hdirty
  simp only [exec_l2Writeback, execL2Writeback, hpart, hdirty, ways, key, sl]

/-- Settles O38: each clause is one of the equations above. -/
theorem migrationAndTranslation : Obligations.MigrationAndTranslation := by
  intro s n gfn frame
  refine ⟨exec_migpush n frame s, migrate_sets_mig, fun f r => migrationComplete_moves,
    fun hmig => ⟨migrationComplete_calls_back hmig, migrationComplete_without_frame hmig⟩,
    exec_counterHalving s, fun slot va acc x hocc hwalk hclear hline => ?walk, fun data => s1invWrite_idle,
    fun hbusy hwaits => ⟨s.invalidated n, s1invComplete_of_not_waits hbusy hwaits, invalidated_invBusy,
      fun e => mem_invalidated_tlbs⟩,
    fun data => ⟨exec_fqcfgWrite n data s, exec_fqheadWrite n data s⟩,
    fun line kid m key lv p q hset hpart hmiss => ⟨l2Fill_other_key hset hpart hmiss, fun hst hkid => ?fill⟩,
    fun line m p w => l2Writeback_dirty⟩
  case walk =>
    have hends := pageWalk_of_not_held hocc hwalk hclear hline
    refine ⟨fun hasks => ?_, fun hasks => ?_⟩
    · rw [hends, State.twinRefuses, hasks]; rfl
    · rw [hends, State.twinRefuses, hasks]; exact (apply_ite Host.Outcome.next _ _ _).symm
  case fill =>
    have hread := l2Fill_assigned_key hset hpart hmiss hst hkid
    refine ⟨hread .good, hread .corrected, fun hchecked => ?_, fun hzero => ?_, fun ⟨x, hfetched, hlevel⟩ => ?_⟩
    · exact (hread .dataLine).trans (congrArg _ (if_neg (ne_true_of_eq_false hchecked)))
    · exact (hread .dataLine).trans (congrArg _ (if_pos hzero))
    · have hany : (s.uncached p (line * 128)).any (fun x => x.level == lv) = true :=
        List.any_eq_true.mpr ⟨x, hfetched, beq_iff_eq.mpr hlevel⟩
      exact (hread (.counterNode lv)).trans (congrArg _ (if_pos hany))

end Sys2Proof.Machine
end

section
/-!
PROOF. Accumulator tiles (R74, R235 to R238): when a tile may be claimed and consumed, what a load's traffic leaves
of the owners, and one equation for each way a tile instruction can end.
-/

namespace Sys2Proof.Machine

open Sys2Proof

/-! ### The rows of the instructions -/

theorem exec_mzero (t : BitVec 4) (s : State) : exec (.mzero t) s = execMzero t s := rfl
theorem exec_atov (t : BitVec 4) (d b p : BitVec 5) (s : State) :
    exec (.atov t d b p) s = execAtov t d b p s := rfl
theorem exec_vtoa (t : BitVec 4) (a b p : BitVec 5) (s : State) :
    exec (.vtoa t a b p) s = execVtoa t a b p s := rfl
theorem exec_ald (t : BitVec 4) (b : BitVec 5) (s : State) : exec (.ald t b) s = execAld t b s := rfl
theorem exec_ast (t : BitVec 4) (b : BitVec 5) (s : State) : exec (.ast t b) s = execAst t b s := rfl
theorem exec_asave (t : BitVec 4) (b : BitVec 5) (s : State) : exec (.asave t b) s = execAsave t b s := rfl
theorem exec_arst (t : BitVec 4) (b : BitVec 5) (s : State) : exec (.arst t b) s = execArst t b s := rfl

/-! ### Ownership and poison of tiles (R74, R75) -/

section Tiles

variable {s : State} {t : BitVec 4} {ws : List Nat}

/-- The check of R74 in terms of `owns`. -/
theorem checkOwner_run (t : BitVec 4) (s : State) :
    checkOwner t s =
      if s.owns t then (.ok (), s)
      else (.error (.trap (plainTrap Cause.afirst (t.setWidth 64))), s) := by
  simp only [checkOwner, M.get_bind, M.ite_run, trap_run, M.pure_run]
  by_cases hown : s.owns t = true
  · rw [if_pos hown, if_neg]
    grind [State.owns]
  · rw [if_neg hown, if_pos]
    grind [State.owns]

theorem checkOwner_ok (hown : s.owns t = true) : checkOwner t s = (.ok (), s) := by
  rw [checkOwner_run, if_pos hown]

/-- An owned tile is the thread's own after the claim. -/
theorem claimTile_ok (hown : s.owns t = true) : claimTile t s = (.ok (), s.claimed t) := by
  simp only [claimTile]
  rw [M.bind_ok _ _ s s () (checkOwner_ok hown), M.get_bind, M.ite_run, State.claimed]
  split <;> rfl

theorem claimTile_trap (hown : s.owns t = false) :
    claimTile t s = (.error (.trap (plainTrap Cause.afirst (t.setWidth 64))), s) := by
  have hcheck : checkOwner t s = (.error (.trap (plainTrap Cause.afirst (t.setWidth 64))), s) := by
    rw [checkOwner_run, if_neg (ne_true_of_eq_false hown)]
  simp only [claimTile]
  rw [M.bind_error _ _ s s _ hcheck]

/-- Consuming words of a tile stops the function exactly when one of them is poisoned. -/
theorem tileClean_run (t : BitVec 4) (ws : List Nat) (s : State) :
    tileClean t ws s =
      if s.tilePoison t ws then (.error (.trap (plainTrap Cause.macfail 0)), s) else (.ok (), s) := by
  simp only [tileClean, M.get_bind, M.ite_run, trap_run, M.pure_run]
  rfl

theorem tileClean_ok (hclean : s.tilePoison t ws = false) : tileClean t ws s = (.ok (), s) := by
  rw [tileClean_run, if_neg (ne_true_of_eq_false hclean)]

/-- A tile whose words are clean once it is the thread's own is claimed: an unowned one is zeroed first. -/
theorem claimClean_ok (hown : s.owns t = true) (hclean : (s.claimed t).tilePoison t ws = false) :
    claimClean t ws s = (.ok (), s.claimed t) := by
  have hready : tileReady t ws s = (.ok (), s) := by
    simp only [tileReady]
    rw [M.bind_ok _ _ s s () (checkOwner_ok hown), M.get_bind, M.ite_run]
    split
    case isTrue howned =>
      rw [State.claimed, if_neg howned] at hclean
      exact tileClean_ok hclean
    case isFalse => rfl
  simp only [claimClean]
  rw [M.bind_ok _ _ s s () hready, claimTile_ok hown]

@[simp] theorem State.claimed_todo (p : BitVec 5) : (s.claimed t).todo p = s.todo p := by
  unfold State.claimed
  split <;> rfl

theorem awaitTile_ok (hfree : s.tileBusy s.cur t = false) : awaitTile t s = (.ok (), s) := by
  simp only [awaitTile]
  rw [M.get_bind, M.ite_run, if_neg (ne_true_of_eq_false hfree)]
  rfl

end Tiles

/-! ### Operations that leave the tiles and their owners alone -/

/-- What the ownership of tiles rests on: the slot in hand, its context's records and the VCs (R74). -/
def State.tileView (s : State) : Nat × Recs × Table Vc := (s.cur, s.th.tr, s.vcs)

theorem State.owns_congr {s u : State} (t : BitVec 4) (h : u.tileView = s.tileView) :
    u.owns t = s.owns t := by
  simp only [State.tileView, Prod.mk.injEq] at h
  obtain ⟨hcur, htr, hvcs⟩ := h
  simp only [State.owns, State.vc, State.curVc, hcur, htr, hvcs]

/-- A fold of steps that each keep the view keeps it. -/
theorem tileView_foldl {β : Type} (f : State → β → State) (hf : ∀ u b, (f u b).tileView = u.tileView)
    (l : List β) (s : State) : (l.foldl f s).tileView = s.tileView :=
  foldl_keeps (fun u : State => u.tileView = s.tileView) f (fun u b hu => (hf u b).trans hu) l s rfl

@[simp] theorem tileView_modMem (s : State) (f : Mem → Mem) : (s.modMem f).tileView = s.tileView := rfl
@[simp] theorem tileView_modHub (s : State) (f : Hub → Hub) : (s.modHub f).tileView = s.tileView := rfl
@[simp] theorem tileView_metaFetch (s : State) (p : Part) (pa : Nat) :
    (s.metaFetch p pa).tileView = s.tileView := rfl
@[simp] theorem tileView_poisonLine (s : State) (line : Nat) : (s.poisonLine line).tileView = s.tileView := rfl

/-- An abandoned slot keeps its context's records until it stops (R373). -/
@[simp] theorem tileView_askAbandon (s : State) (slots : List Nat) :
    (s.askAbandon slots).tileView = s.tileView := by
  refine tileView_foldl _ (fun u n => ?_) slots s
  simp only [State.modThread]
  split <;> rfl

@[simp] theorem tileView_failFunction (s : State) (vf : Nat) : (s.failFunction vf).tileView = s.tileView :=
  tileView_askAbandon _ _

@[simp] theorem tileView_macFailure (s : State) (vfs : List Nat) : (s.macFailure vfs).tileView = s.tileView :=
  tileView_foldl State.failFunction tileView_failFunction vfs s

@[simp] theorem tileView_writeback (s : State) (line kid : Nat) : (s.writeback line kid).tileView = s.tileView := by
  unfold State.writeback
  dsimp only
  split
  · rfl
  · split
    · exact tileView_macFailure s _
    · rfl

@[simp] theorem tileView_refetch (s : State) (line kid : Nat) : (s.refetch line kid).tileView = s.tileView := by
  unfold State.refetch
  dsimp only
  split
  · rfl
  · exact tileView_macFailure s _

@[simp] theorem tileView_claim (s : State) (loc kid : Nat) : (s.claim loc kid).tileView = s.tileView := by
  unfold State.claim
  split
  · rfl
  · dsimp only
    split
    · exact tileView_refetch _ _ _
    · rfl

@[simp] theorem tileView_l2Fill (s : State) (key : Nat) (w : L2Way) : (s.l2Fill key w).tileView = s.tileView := by
  unfold State.l2Fill
  dsimp only
  split
  · rfl
  · split
    · rfl
    · rw [tileView_modMem, apply_ite State.tileView, tileView_writeback, ite_self]

@[simp] theorem tileView_l2Access (s : State) (loc kid : Nat) (al : Alloc) (write : Bool) :
    (s.l2Access loc kid al write).tileView = s.tileView := by
  unfold State.l2Access
  split
  · rfl
  · dsimp only
    split
    · exact tileView_claim s loc kid
    · split
      · rw [apply_ite State.tileView, tileView_writeback, ite_self, tileView_metaFetch, tileView_claim]
      · rw [tileView_l2Fill, tileView_metaFetch, tileView_claim]

@[simp] theorem tileView_countHost (s : State) (loc : Nat) : (s.countHost loc).tileView = s.tileView := by
  unfold State.countHost
  split <;> rfl

/-- The L2 traffic of a load changes no tile and no owner. -/
@[simp] theorem tileView_touchLines (s : State) (ps : List Phys) (al : Alloc) (write : Bool) :
    (s.touchLines ps al write).tileView = s.tileView :=
  tileView_foldl _ (fun u l => by rw [tileView_countHost, tileView_l2Access]) _ s

/-! ### A tile's image and memory (R237) -/

section Images

variable {s u v : State} {t : BitVec 4} {ps : List (Nat × W64 × Phys)}

/-- Clean places give the bytes that the thread sees there, and the state stays as it is. -/
theorem readPlaces_ok {n : Nat} (hclean : s.cleanAt n ps = true) :
    readPlaces n ps s = (.ok (ps.map (fun a => (a.1, s.seen a.2.2 n))), s) := by
  induction ps with
  | nil => rfl
  | cons a r ih =>
    rw [State.cleanAt, List.all_cons, Bool.and_eq_true, Bool.not_eq_true'] at hclean
    obtain ⟨ha, hr⟩ := hclean
    have htake : takeBytes a.2.1 a.2.2 n s =
        (.ok ((List.range n).map (fun k => s.readByte a.2.2.owner (a.2.2.loc + k))), s) := by
      simp [takeBytes, M.get_bind, ha]
    have hplace : readPlace a.2.1 a.2.2 n s = (.ok (s.seen a.2.2 n), s) := by
      simp only [readPlace]
      rw [M.bind_ok _ _ s s _ htake]
      rfl
    simp only [readPlaces]
    rw [M.bind_ok _ _ s s _ hplace, M.bind_ok _ _ s s _ (ih hr)]
    rfl

/-- A computation both of whose parts leave the state alone leaves it alone. -/
theorem M.bind_state {α β : Type} {x : M α} {f : α → M β} (hx : (x s).2 = s) (hf : ∀ a, (f a s).2 = s) :
    ((x >>= f) s).2 = s := by
  rw [M.bind_run]
  rcases hxs : x s with ⟨_ | a, w⟩
  · rwa [hxs] at hx
  · rw [hxs] at hx
    exact hx ▸ hf a

theorem takeBytes_state (va : W64) (p : Phys) (n : Nat) (s : State) : (takeBytes va p n s).2 = s := by
  simp only [takeBytes, M.get_bind]
  rw [M.ite_run]
  split <;> rfl

/-- Reading places leaves the state alone, whether or not it ends early. -/
theorem readPlaces_state (n : Nat) (ps : List (Nat × W64 × Phys)) (s : State) :
    (readPlaces n ps s).2 = s := by
  induction ps with
  | nil => rfl
  | cons a r ih =>
    have hplace : (readPlace a.2.1 a.2.2 n s).2 = s := by
      simp only [readPlace]
      exact M.bind_state (takeBytes_state _ _ n s) (fun _ => rfl)
    simp only [readPlaces]
    exact M.bind_state hplace (fun _ => M.bind_state ih (fun _ => rfl))

theorem readTile_state (ps : List (Nat × W64 × Phys)) (s : State) :
    (readTile ps s).2 = s.touchLines (ps.map (·.2.2)) (s.loadAlloc 4096) false := by
  simp only [readTile, M.modify_bind]
  exact M.bind_state (readPlaces_state 64 ps _) (fun _ => rfl)

/-- The context owns the same tiles after it has read an image. -/
theorem owns_of_readTile {x : BitVec 32768} (hread : readTile ps u = (.ok x, v)) : v.owns t = u.owns t := by
  have hv : v = u.touchLines (ps.map (·.2.2)) (u.loadAlloc 4096) false := by
    rw [← readTile_state, hread]
  rw [hv]
  exact State.owns_congr t (tileView_touchLines u _ _ false)

/-- The image that a thread sees at the 64 beats of a tile's range. -/
def State.imageSeen (s : State) (ps : List (Nat × W64 × Phys)) : BitVec 32768 :=
  BitVec.ofNat 32768 (ps.foldl (fun x b => x + s.seen b.2.2 64 * 2 ^ (512 * b.1)) 0)

theorem readTile_ok (hv : u.touchLines (ps.map (·.2.2)) (u.loadAlloc 4096) false = v)
    (hclean : v.cleanAt 64 ps = true) : readTile ps u = (.ok (v.imageSeen ps), v) := by
  simp only [readTile, M.modify_bind]
  rw [hv, M.bind_ok _ _ v v _ (readPlaces_ok hclean), M.pure_run, List.foldl_map]
  rfl

theorem loadTile_ok (hv : u.touchLines (ps.map (·.2.2)) (u.loadAlloc 4096) false = v)
    (hclean : v.cleanAt 64 ps = true) : loadTile t ps u = (.ok (), v.setTile t (v.imageSeen ps)) := by
  simp only [loadTile]
  rw [M.bind_ok _ _ u v _ (readTile_ok hv hclean)]
  rfl

theorem storeTile_ok (hclean : u.tilePoison t (List.range 1024) = false) (hroom : u.roomAll ps = true) :
    storeTile t ps u = (.ok (), u.pushEntries (ps.map (fun b =>
      { beat := (0, b.1), kid := b.2.2.kid,
        bytes := writesOf b.2.2.loc (((leBytes 4096 (u.acc t).toNat).drop (64 * b.1)).take 64) }))
      (u.bigStore 4096) false) := by
  simp only [storeTile]
  rw [M.bind_ok _ _ u u () (tileClean_ok hclean), M.bind_ok _ _ u u () (storeRoom_ok hroom)]
  rfl

/-- A tile that has been stored held no poison (R75). -/
theorem clean_of_storeTile (hstore : storeTile t ps u = (.ok (), v)) :
    u.tilePoison t (List.range 1024) = false := by
  cases hpoison : u.tilePoison t (List.range 1024) with
  | false => rfl
  | true =>
    have hstop : tileClean t (List.range 1024) u = (.error (.trap (plainTrap Cause.macfail 0)), u) := by
      rw [tileClean_run, if_pos hpoison]
    simp only [storeTile] at hstore
    rw [M.bind_error _ _ u u _ hstop] at hstore
    cases hstore

end Images

/-! ### How the instructions end (R235 to R238) -/

section Instructions

variable {s u v : State} {d a b p : BitVec 5} {t : BitVec 4} {ps : List (Nat × W64 × Phys)}
  {x : BitVec 32768}

/-- The checks of ASAVE and ARST pass in L mode (R238, R325, R328). -/
theorem handlerGate_ok (hmode : s.th.sc.mode = .L) (hvec : s.th.tr.absent = false) :
    handlerGate s = (.ok (), s) := by
  have hgate : vectorGate s = (.ok (), s) := vectorGate_ok (by rw [hmode]; decide) hvec
  simp [handlerGate, needPrivileged, hmode, hgate]

/-- A tile takes the rows of the checked range, the first of them s[b] (R236). -/
theorem rowChecks_ok {r : BitVec 5} (htype : s.vecOk [r] (fun x => decide (x.sewE = 2) && !x.sq) = true)
    (hrow : (s.rd b).toNat < 32) (hrows : (s.rd b).toNat * 32 + s.vl ≤ 1024) :
    rowChecks r b s = (.ok ((s.rd b).toNat * 32), s) := by
  simp only [rowChecks]
  rw [M.bind_ok _ _ s s _ (vectorChecks_ok htype), M.get_bind, need_bind, if_pos (by simp [hrow, hrows])]
  rfl

section VectorSide

variable (hmode : s.th.sc.mode ≠ .S) (hvec : s.th.tr.absent = false)

include hmode hvec

theorem mzero_owned (hown : s.owns t = true) :
    exec (.mzero t) s =
      (((s.claimed t).modVc (s.claimed t).curVc (fun v => v.setAcc t 0)).clearMprog).retires := by
  rw [exec_mzero]
  refine State.conclude_ok ?_
  rw [M.bind_ok _ _ s s () (vectorGate_ok hmode hvec), M.bind_ok _ _ s _ () (claimTile_ok hown)]
  rfl

theorem mzero_foreign (halone : s.cv.many = false) (hown : s.owns t = false) :
    exec (.mzero t) s = s.traps (plainTrap Cause.afirst (t.setWidth 64)) := by
  rw [exec_mzero]
  refine State.conclude_trap ?_ halone
  rw [M.bind_ok _ _ s s () (vectorGate_ok hmode hvec), M.bind_error _ _ s s _ (claimTile_trap hown)]

/-- R10: the image is read before the tile is claimed. -/
theorem ald_read (hbeats : wholeBeats .load (s.rd b) 64 s = (.ok ps, u))
    (hown : u.owns t = true) (hread : readTile ps u = (.ok x, v)) :
    exec (.ald t b) s = ((v.claimed t).setTile t x).retires := by
  have howned : v.owns t = true := (owns_of_readTile hread).trans hown
  rw [exec_ald]
  refine State.conclude_ok ?_
  rw [M.bind_ok _ _ s s () (vectorGate_ok hmode hvec), M.bind_ok _ _ s u ps hbeats,
    M.bind_ok _ _ u u () (checkOwner_ok hown), M.bind_ok _ _ u v x hread,
    M.bind_ok _ _ v _ () (claimTile_ok howned)]
  rfl

theorem ast_stored (hbeats : wholeBeats .store (s.rd b) 64 s = (.ok ps, u)) (hown : u.owns t = true)
    (hstore : storeTile t ps (u.claimed t) = (.ok (), v)) : exec (.ast t b) s = v.retires := by
  rw [exec_ast]
  refine State.conclude_ok ?_
  rw [M.bind_ok _ _ s s () (vectorGate_ok hmode hvec), M.bind_ok _ _ s u ps hbeats,
    M.bind_ok _ _ u _ () (claimClean_ok hown (clean_of_storeTile hstore)), hstore]

end VectorSide

/-- The words are those of the tile as the thread's own, an unowned one zeroed (R74). -/
theorem atov_owned (htype : s.vecOk [d] (fun x => decide (x.sewE = 2) && !x.sq) = true)
    (hrow : (s.rd b).toNat < 32) (hrows : (s.rd b).toNat * 32 + s.vl ≤ 1024)
    (hactive : (s.actives p).isEmpty = false) (hown : s.owns t = true)
    (hclean : (s.claimed t).tilePoison t
      (((s.claimed t).todo p).map ((s.rd b).toNat * 32 + ·)) = false) :
    exec (.atov t d b p) s = ((((s.claimed t).todo p).foldl (fun x e =>
      x.putElem d e (accWord ((s.claimed t).acc t) ((s.rd b).toNat * 32 + e))) (s.claimed t))).retires := by
  rw [exec_atov]
  refine State.conclude_ok ?_
  rw [M.bind_ok _ _ s s _ (rowChecks_ok htype hrow hrows), hactive, Bool.not_false, if_pos rfl]
  rw [State.claimed_todo] at hclean ⊢
  rw [M.bind_ok _ _ s _ () (claimClean_ok hown hclean)]
  rfl

theorem vtoa_owned (htype : s.vecOk [a] (fun x => decide (x.sewE = 2) && !x.sq) = true)
    (hrow : (s.rd b).toNat < 32) (hrows : (s.rd b).toNat * 32 + s.vl ≤ 1024)
    (hactive : (s.actives p).isEmpty = false) (hown : s.owns t = true) :
    exec (.vtoa t a b p) s = ((s.claimed t).modVc (s.claimed t).curVc (fun v =>
      v.setAccWords t (((s.claimed t).todo p).map (fun e =>
        ((s.rd b).toNat * 32 + e, (s.claimed t).elem a e))))).retires := by
  rw [exec_vtoa]
  refine State.conclude_ok ?_
  rw [M.bind_ok _ _ s s _ (rowChecks_ok htype hrow hrows), hactive, Bool.not_false, if_pos rfl,
    M.bind_ok _ _ s _ () (claimTile_ok hown)]
  rfl

section Handlers

variable (hmode : s.th.sc.mode = .L) (hvec : s.th.tr.absent = false)

include hmode hvec

theorem asave_stored (hbeats : wholeBeats .store (s.rd b) 64 s = (.ok ps, u))
    (hfree : u.tileBusy u.cur t = false) (hstore : storeTile t ps u = (.ok (), v)) :
    exec (.asave t b) s = v.retires := by
  rw [exec_asave]
  refine State.conclude_ok ?_
  rw [M.bind_ok _ _ s s () (handlerGate_ok hmode hvec), M.bind_ok _ _ s u ps hbeats,
    M.bind_ok _ _ u u () (awaitTile_ok hfree), hstore]

/-- The owner is set without zeroing the image just loaded. -/
theorem arst_loaded (hctag : s.th.tr.ctag ≠ 0#16) (hbeats : wholeBeats .load (s.rd b) 64 s = (.ok ps, u))
    (hfree : u.tileBusy u.cur t = false) (hload : loadTile t ps u = (.ok (), v)) :
    exec (.arst t b) s =
      (v.modVc v.curVc (fun x => x.markOwner t.toNat s.th.tr.ctag s.th.id.vf)).retires := by
  rw [exec_arst]
  refine State.conclude_ok ?_
  rw [M.bind_ok _ _ s s () (handlerGate_ok hmode hvec), need_bind,
    if_pos (show (s.th.tr.ctag != 0) = true from bne_iff_ne.mpr hctag),
    M.bind_ok _ _ s u ps hbeats, M.bind_ok _ _ u u () (awaitTile_ok hfree), M.bind_ok _ _ u v () hload]
  rfl

end Handlers

end Instructions

/-- Settles O30: each clause is one of the equations above. -/
theorem accumulatorTiles : Obligations.AccumulatorTiles := by
  intro s d a b p t
  exact ⟨mzero_owned, fun halone hmode hvec => mzero_foreign hmode hvec halone,
    atov_owned, vtoa_owned, fun ps u v x => ald_read, fun ps u v => ast_stored,
    fun ps u v => asave_stored, fun ps u v => arst_loaded,
    fun ps u hclean => ⟨readTile_ok rfl hclean, loadTile_ok rfl hclean⟩,
    fun ps u => storeTile_ok⟩

end Sys2Proof.Machine
end

section
/-!
PROOF. The fronthaul unit and uncorrectable errors (R63, R64, R66 to R68, R70, R75): one equation for each way an
event can end, and the statement assembled from them.
-/

namespace Sys2Proof.Machine

open Sys2Proof

/-! ### The rows of the events -/

theorem exec_ingestSection (port eaxc frameId subframe slotId symbol startPrb numPrb comp time : Nat)
    (prbs : List Byte) (s : State) :
    exec (.ingestSection port eaxc frameId subframe slotId symbol startPrb numPrb comp time prbs) s =
      execIngestSection port eaxc frameId subframe slotId symbol startPrb numPrb comp time prbs s := rfl
theorem exec_slotClose (tile region sl time : Nat) (s : State) :
    exec (.slotClose tile region sl time) s = execSlotClose tile region sl time s := rfl
theorem exec_irctlWrite (tile region : Nat) (data : W64) (s : State) :
    exec (.irctlWrite tile region data) s = execIrctlWrite tile region data s := rfl
theorem exec_flctlWrite (n : Nat) (data : W64) (s : State) :
    exec (.flctlWrite n data) s = execFlctlWrite n data s := rfl
theorem exec_egressFetch (n time : Nat) (s : State) :
    exec (.egressFetch n time) s = execEgressFetch n time s := rfl
theorem exec_egressTransmit (n time : Nat) (s : State) :
    exec (.egressTransmit n time) s = execEgressTransmit n time s := rfl
theorem exec_uncorrectableError (place : ErrPlace) (s : State) :
    exec (.uncorrectableError place) s = execUncorrectableError place s := rfl

/-! ### Ingest (R63 to R67) -/

section Ingest

variable {s s1 : State} {tile region sl time port eaxc : Nat} {data : W64}

section Sections

variable {frameId subframe slotId symbol startPrb numPrb comp : Nat} {prbs : List Byte}
  (htime : s.atTime time = some s1)

include htime

theorem ingestSection_sideshow (hboot : s.hub.bootDone = false) :
    exec (.ingestSection port eaxc frameId subframe slotId symbol startPrb numPrb comp time prbs) s =
      .next (s1.bridge port
        { eaxc := eaxc, frameId := frameId, subframe := subframe, slotId := slotId, symbol := symbol,
          startPrb := startPrb, numPrb := numPrb, comp := comp, time := time, prbs := prbs }) := by
  simp only [exec_ingestSection, execIngestSection, htime, hboot, Bool.not_false, if_true]

theorem ingestSection_unmatched (hboot : s.hub.bootDone = true) (hnone : s1.regionsFor port eaxc = []) :
    exec (.ingestSection port eaxc frameId subframe slotId symbol startPrb numPrb comp time prbs) s =
      .next (s1.modHub (fun h =>
        { h with portUnm := tset 0 h.portUnm port (tget 0 h.portUnm port + 1) })) := by
  simp only [exec_ingestSection, execIngestSection, htime, hboot, hnone, Bool.not_true, Bool.false_eq_true,
    if_false]

theorem ingestSection_matched (hboot : s.hub.bootDone = true) (hsome : s1.regionsFor port eaxc ≠ []) :
    exec (.ingestSection port eaxc frameId subframe slotId symbol startPrb numPrb comp time prbs) s =
      .next ((s1.regionsFor port eaxc).foldl (fun t r => t.ingest r.1 r.2
        { eaxc := eaxc, frameId := frameId, subframe := subframe, slotId := slotId, symbol := symbol,
          startPrb := startPrb, numPrb := numPrb, comp := comp, time := time, prbs := prbs }) s1) := by
  obtain ⟨r, rs, hregions⟩ := List.exists_cons_of_ne_nil hsome
  simp only [exec_ingestSection, execIngestSection, htime, hboot, hregions, Bool.not_true, Bool.false_eq_true,
    if_false]

end Sections

theorem slotClose_signals (htime : s.atTime time = some s1)
    (hen : ((s.tile tile).region region).en = true)
    (hseen : ((s.tile tile).region region).seen.contains sl = true)
    (hpast : symbolStart ((s.tile tile).region region).mu.toNat sl 13 time +
      (((s.tile tile).region region).late.toNat * 64 : Nat) < time) :
    exec (.slotClose tile region sl time) s =
      .next ((s1.modRegion tile region (fun r =>
        { r with seen := r.seen.filter (fun x => x != sl) })).signalNode ((s.tile tile).region region).node) := by
  have hends : (((s.tile tile).region region).en && ((s.tile tile).region region).seen.contains sl &&
      decide (symbolStart ((s.tile tile).region region).mu.toNat sl 13 time +
        (((s.tile tile).region region).late.toNat * 64 : Nat) < time)) = true := by
    rw [hen, hseen, decide_eq_true hpast]
    rfl
  simp only [exec_slotClose, execSlotClose, htime, hends, if_true]

theorem irctlWrite_disables (hdata : data.getLsbD 0 = false) :
    exec (.irctlWrite tile region data) s = .next (s.modRegion tile region (fun _ =>
      { ((s.tile tile).region region).write data.toNat with en := false })) := by
  rw [exec_irctlWrite]
  exact if_pos (by rw [hdata]; rfl)

section Enabling

variable (hdata : data.getLsbD 0 = true)

include hdata

/-- A write of IRCTL with EN set enables the region in full service where R63 allows it, and is refused otherwise. -/
theorem irctlWrite_en :
    exec (.irctlWrite tile region data) s =
      (let r := ((s.tile tile).region region).write data.toNat
       if s.hub.bootDone && (s.tile tile).regionOk region r then
         .next (s.modRegion tile region (fun _ =>
           { r with en := true, err := false, lateCnt := 0, earlyCnt := 0, fmtCnt := 0, seen := [] }))
       else .next (s.modRegion tile region (fun _ => { r with en := false, err := true }))) := by
  rw [exec_irctlWrite]
  exact if_neg (by rw [hdata]; exact Bool.false_ne_true)

theorem irctlWrite_enables (hboot : s.hub.bootDone = true)
    (hok : (s.tile tile).regionOk region (((s.tile tile).region region).write data.toNat) = true) :
    exec (.irctlWrite tile region data) s = .next (s.modRegion tile region (fun _ =>
      { ((s.tile tile).region region).write data.toNat with
        en := true, err := false, lateCnt := 0, earlyCnt := 0, fmtCnt := 0, seen := [] })) := by
  rw [irctlWrite_en hdata]
  exact if_pos (by rw [hboot, hok]; rfl)

theorem irctlWrite_refused
    (hok : (s.tile tile).regionOk region (((s.tile tile).region region).write data.toNat) = false) :
    exec (.irctlWrite tile region data) s = .next (s.modRegion tile region (fun _ =>
      { ((s.tile tile).region region).write data.toNat with en := false, err := true })) := by
  rw [irctlWrite_en hdata]
  exact if_neg (by rw [hok, Bool.and_false]; exact Bool.false_ne_true)

end Enabling

end Ingest

/-! ### Egress (R68 to R70) -/

section FlowControl

variable {s : State} {n : Nat} {data : W64}

theorem flctlWrite_disables (hdata : data.getLsbD 0 = false) :
    exec (.flctlWrite n data) s =
      .next ((s.removeFlow n).modFlow n (fun f => f.write data.toNat)) := by
  rw [exec_flctlWrite]
  exact if_pos (by rw [hdata]; rfl)

variable (hdata : data.getLsbD 0 = true)

include hdata

theorem flctlWrite_refused (hok : s.flowOk n ((s.flow n).write data.toNat) = false) :
    exec (.flctlWrite n data) s = .next ((s.removeFlow n).modFlow n (fun f =>
      { f.write data.toNat with en := false, err := true })) := by
  simp only [exec_flctlWrite, execFlctlWrite, hdata, hok, Bool.not_true, Bool.false_and, Bool.false_eq_true,
    if_false]

variable (hok : s.flowOk n ((s.flow n).write data.toNat) = true)

include hok

/-- Log entry 120: a poisoned TAIL leaves the flow disabled and stops its function. -/
theorem flctlWrite_poisoned (hpoison : s.poisoned ((s.flow n).write data.toNat).header 8 = true) :
    exec (.flctlWrite n data) s = .next ((s.modFlow n (fun _ =>
      { (s.flow n).write data.toNat with en := false, err := false, ready := [] })).macFailure
        [((s.flow n).write data.toNat).vf.toNat]) := by
  simp only [exec_flctlWrite, execFlctlWrite, hdata, hok, hpoison, Bool.not_true, Bool.and_self,
    Bool.false_eq_true, if_false, if_true]

theorem flctlWrite_enables (hclean : s.poisoned ((s.flow n).write data.toNat).header 8 = false) :
    exec (.flctlWrite n data) s = .next ((s.modFlow n (fun _ =>
      { (s.flow n).write data.toNat with
        en := true, err := false, sent := 0, lateCnt := 0, drop := 0, ready := [] })).poke
      (((s.flow n).write data.toNat).header + 8) 0
      (leBytes 8 (s.flowTail ((s.flow n).write data.toNat)))) := by
  simp only [exec_flctlWrite, execFlctlWrite, hdata, hok, hclean, Bool.not_true, Bool.and_false,
    Bool.false_eq_true, if_false, if_true]

end FlowControl

/-! ### The fetch of a descriptor (R70 steps 1 to 3) -/

/-- The descriptor at HEAD of a flow's queue, as a 256-bit number (R69). -/
def State.nextDescriptor (s : State) (f : Flow) : Nat :=
  s.peekNat (f.header + 64 + s.flowHead f % 2 ^ f.logn.toNat * 32) 32

/-- The runs of memory that hold a descriptor's payload, under the flow's function (R70 step 2). -/
def State.payloadRuns (s : State) (f : Flow) (d : Nat) : Option Runs :=
  s.defaultPlaces f.vf.toNat .load (BitVec.ofNat 64 (bitsAt 64 64 d)) (txNum d * f.bytesPerPrb)

/-- The walk for a descriptor's payload meets a MAC failure. -/
def State.payloadMac (s : State) (f : Flow) (d : Nat) : Bool :=
  s.defaultMac f.vf.toNat .load (BitVec.ofNat 64 (bitsAt 64 64 d)) (txNum d * f.bytesPerPrb)

/-- How the fetch of a descriptor with payload runs ends: it is dropped, counted late, still to come once the lines of
the walkers' updates are free, or read (R70, R419). -/
def State.fetchRuns (s1 : State) (n time : Nat) (f : Flow) (d : Nat) (q : Runs) : State :=
  let t := (s1.twinAsked .load q).readRuns q
  if s1.runsRefused .load q then (s1.twinAsked .load q).dropDescriptor n f
  else if s1.tooLate (txTime d) time then
    (s1.modFlow n (fun f => { f with lateCnt := sat16 f.lateCnt 1 })).advanceFlow f
  else if !(s1.updatesHeld q).isEmpty then s1.callBack (s1.updatesHeld q)
  else if t.runsPoisoned q then (t.dropDescriptor n f).macFailure [f.vf.toNat]
  else t.modFlow n (fun f => { f with ready := [(txTime d, d / 2 ^ 128, t.bytesAt q)] })

section Fetch

variable {s s1 t : State} {n time : Nat} {f : Flow} {q : Runs} {d : Nat}

section FetchRuns

theorem fetchRuns_late (hlate : s1.tooLate (txTime d) time = true) :
    s1.fetchRuns n time f d q =
      if s1.runsRefused .load q then (s1.twinAsked .load q).dropDescriptor n f
      else (s1.modFlow n (fun f => { f with lateCnt := sat16 f.lateCnt 1 })).advanceFlow f := by
  simp only [State.fetchRuns, hlate, if_true]

variable (hlate : s1.tooLate (txTime d) time = false)

include hlate

theorem fetchRuns_held (hheld : s1.updatesHeld q ≠ []) :
    s1.fetchRuns n time f d q =
      if s1.runsRefused .load q then (s1.twinAsked .load q).dropDescriptor n f
      else s1.callBack (s1.updatesHeld q) := by
  simp only [State.fetchRuns, hlate, List.isEmpty_eq_false_iff.mpr hheld, Bool.not_false, Bool.false_eq_true,
    if_false, if_true]

variable (hfree : s1.updatesHeld q = []) (hread : (s1.twinAsked .load q).readRuns q = t)

include hfree hread

theorem fetchRuns_read (hclean : t.runsPoisoned q = false) :
    s1.fetchRuns n time f d q =
      if s1.runsRefused .load q then (s1.twinAsked .load q).dropDescriptor n f
      else t.modFlow n (fun f => { f with ready := [(txTime d, d / 2 ^ 128, t.bytesAt q)] }) := by
  simp only [State.fetchRuns, hlate, hfree, hread, hclean, List.isEmpty_nil, Bool.not_true, Bool.false_eq_true,
    if_false]

theorem fetchRuns_poisoned (hpoison : t.runsPoisoned q = true) :
    s1.fetchRuns n time f d q =
      if s1.runsRefused .load q then (s1.twinAsked .load q).dropDescriptor n f
      else (t.dropDescriptor n f).macFailure [f.vf.toNat] := by
  simp only [State.fetchRuns, hlate, hfree, hread, hpoison, List.isEmpty_nil, Bool.not_true, Bool.false_eq_true,
    if_false, if_true]

end FetchRuns

/-- An enabled flow with nothing fetched takes a descriptor that is posted (R70 step 1). -/
theorem takes_descriptor (hen : f.en = true) (hready : f.ready = []) (hposted : s.flowTail f ≠ s.flowHead f) :
    (!f.en || !f.ready.isEmpty || decide (s.flowTail f = s.flowHead f)) = false := by
  rw [hen, hready, decide_eq_false hposted]
  rfl

variable (htime : s.atTime time = some s1) (hen : (s.flow n).en = true) (hready : (s.flow n).ready = [])
  (hposted : s.flowTail (s.flow n) ≠ s.flowHead (s.flow n)) (hheader : s.poisoned (s.flow n).header 16 = false)
  (hdesc : s.poisoned ((s.flow n).header + 64 + s.flowHead (s.flow n) % 2 ^ (s.flow n).logn.toNat * 32) 32 = false)

include htime hen hready hposted hheader hdesc

theorem egressFetch_out_of_range (hok : txOk (s.nextDescriptor (s.flow n)) = false) :
    exec (.egressFetch n time) s = .next (s1.dropDescriptor n (s.flow n)) := by
  rw [State.nextDescriptor] at hok
  simp only [exec_egressFetch, execEgressFetch, htime, takes_descriptor hen hready hposted, hheader, hdesc, hok,
    Bool.false_and, Bool.false_eq_true, if_false]

variable (hok : txOk (s.nextDescriptor (s.flow n)) = true)

include hok

theorem egressFetch_untranslated
    (hruns : s.payloadRuns (s.flow n) (s.nextDescriptor (s.flow n)) = none) :
    exec (.egressFetch n time) s =
      .next (if s.payloadMac (s.flow n) (s.nextDescriptor (s.flow n)) then
          (s1.dropDescriptor n (s.flow n)).macFailure [(s.flow n).vf.toNat]
        else s1.dropDescriptor n (s.flow n)) := by
  rw [State.payloadRuns, State.nextDescriptor] at hruns
  rw [State.nextDescriptor] at hok
  simp only [exec_egressFetch, execEgressFetch, htime, takes_descriptor hen hready hposted, hheader, hdesc, hok,
    hruns, Bool.true_and, Bool.false_eq_true, if_false, if_true]
  rfl

theorem egressFetch_runs
    (hruns : s.payloadRuns (s.flow n) (s.nextDescriptor (s.flow n)) = some q) :
    exec (.egressFetch n time) s =
      .next (s1.fetchRuns n time (s.flow n) (s.nextDescriptor (s.flow n)) q) := by
  rw [State.payloadRuns, State.nextDescriptor] at hruns
  rw [State.nextDescriptor] at hok ⊢
  simp only [exec_egressFetch, execEgressFetch, htime, takes_descriptor hen hready hposted, hheader, hdesc, hok,
    hruns, State.fetchRuns, apply_ite Host.Outcome.next, Bool.false_eq_true, if_false, if_true]

end Fetch

/-! ### The message of a descriptor (R70 steps 4 and 5) -/

section Transmit

variable {s s1 : State} {n time tx w : Nat} {payload : List Byte} {rest : List (Nat × Nat × List Byte)}

theorem eq_of_atTime (htime : s.atTime time = some s1) : s1 = s.modHub (fun h => { h with ptp := time }) := by
  unfold State.atTime at htime
  split at htime
  · exact (Option.some.inj htime).symm
  · cases htime

/-- The state after a flow's first message has left its port at a time (R68, R70 steps 4 and 5, R432). -/
def State.transmitted (s1 : State) (n time : Nat) (f : Flow) (w : Nat) (payload : List Byte)
    (rest : List (Nat × Nat × List Byte)) : State :=
  let port := f.port.toNat
  let u := s1.modHub (fun h => { h with
    portFree := tset 0 h.portFree port (time + portTime (tget 0 h.portRate port) payload.length) })
  (({ u with sent := f.message (tget 0 s1.hub.portMac port) w payload :: s1.sent } : State).modFlow n
    (fun f => { f with ready := rest, sent := f.sent + 1 })).advanceFlow f

variable (htime : s.atTime time = some s1) (hready : (s.flow n).ready = (tx, w, payload) :: rest)

include htime hready

/-- Log entry 106: a message that exceeds its port's rate limit is held back. -/
theorem egressTransmit_held (hport : time < tget 0 s.hub.portFree (s.flow n).port.toNat) :
    exec (.egressTransmit n time) s = .next s := by
  simp only [exec_egressTransmit, execEgressTransmit, htime, hready, decide_eq_true hport, Bool.or_true, if_true]

theorem egressTransmit_leaves (hen : (s.flow n).en = true) (hdue : tx ≤ time)
    (hfirst : ∀ e ∈ s.flows, e.2.en = true → e.2.port = (s.flow n).port → ∀ x ∈ e.2.ready.head?, tx ≤ x.1)
    (hport : tget 0 s.hub.portFree (s.flow n).port.toNat ≤ time) :
    exec (.egressTransmit n time) s = .next (s1.transmitted n time (s.flow n) w payload rest) := by
  obtain rfl := eq_of_atTime htime
  simp only [exec_egressTransmit, execEgressTransmit, htime, hready, hen, decide_eq_false (Nat.not_lt.mpr hdue),
    decide_eq_false (Nat.not_lt.mpr hport), Bool.not_true, Bool.false_or, Bool.or_false]
  refine if_neg ?_
  rw [List.any_eq_true]
  rintro ⟨e, he, hearlier⟩
  simp only [Bool.and_eq_true, beq_iff_eq] at hearlier
  obtain ⟨⟨hon, hsame⟩, htx⟩ := hearlier
  rcases hq : e.2.ready with _ | ⟨x, r⟩
  · simp only [hq, Bool.false_eq_true] at htx
  · simp only [hq, decide_eq_true_eq] at htx
    exact Nat.not_le.mpr htx (hfirst e he hon hsame x (by rw [hq]; rfl))

end Transmit

/-! ### Uncorrectable errors (R75) -/

section Errors

variable {s : State}

/-- A VC depends on an update only through what the update makes of it. -/
theorem modVc_congr {n : Nat} {f g : Vc → Vc} (h : f (s.vc n) = g (s.vc n)) : s.modVc n f = s.modVc n g := by
  rw [State.modVc, State.modVc, h]

theorem uncorrectableError_dirty_line {line : Nat} (hdirty : s.dirtyLine line = true) :
    exec (.uncorrectableError (.l2Line line)) s =
      .next ((s.countCorrected.poisonWord (line * 16 + Config.freeNat s.countCorrected.free % 16)).bump) := by
  rw [exec_uncorrectableError]
  exact if_pos hdirty

theorem uncorrectableError_clean_line {line : Nat} (hclean : s.dirtyLine line = false) :
    exec (.uncorrectableError (.l2Line line)) s = .next s.countCorrected := by
  rw [exec_uncorrectableError]
  exact if_neg (ne_true_of_eq_false hclean)

theorem uncorrectableError_scratchWord {loc : Nat} (hscratch : isScratch loc = true) :
    exec (.uncorrectableError (.scratchWord loc)) s = .next (s.countCorrected.poisonWord (loc / 8)) := by
  rw [exec_uncorrectableError]
  exact congrArg _ (if_pos hscratch)

theorem uncorrectableError_calderaWord {vc off : Nat}
    (hnew : (s.vc vc).caldPoison.contains (off / 8) = false) :
    exec (.uncorrectableError (.calderaWord vc off)) s =
      .next (s.countCorrected.modVc vc (fun v => { v with caldPoison := v.caldPoison ++ [off / 8] })) := by
  rw [exec_uncorrectableError]
  exact congrArg _ (modVc_congr (congrArg (fun l => ({ s.vc vc with caldPoison := l } : Vc))
    (if_neg (ne_true_of_eq_false hnew))))

theorem uncorrectableError_tileWord {vc tile off : Nat}
    (hnew : (s.vc vc).accPoison.contains (tile * 512 + off / 8) = false) :
    exec (.uncorrectableError (.tileWord vc tile off)) s =
      .next (s.countCorrected.modVc vc (fun v =>
        { v with accPoison := v.accPoison ++ [tile * 512 + off / 8] })) := by
  rw [exec_uncorrectableError]
  exact congrArg _ (modVc_congr (congrArg (fun l => ({ s.vc vc with accPoison := l } : Vc))
    (if_neg (ne_true_of_eq_false hnew))))

end Errors

/-- Settles O39: each clause is one of the equations above. -/
theorem fronthaulAndErrors : Obligations.FronthaulAndErrors := by
  intro s
  refine ⟨fun port eaxc fr sf sl sym sp np comp time prbs s1 htime => ⟨ingestSection_sideshow htime,
      ingestSection_unmatched htime, ingestSection_matched htime⟩,
    fun tile region sl time s1 => slotClose_signals,
    fun tile region data => ⟨irctlWrite_disables, irctlWrite_enables, irctlWrite_refused⟩,
    fun n data => ⟨flctlWrite_disables, flctlWrite_poisoned, flctlWrite_enables, flctlWrite_refused⟩,
    ?fetch, ?transmit,
    fun line => uncorrectableError_dirty_line, fun line => uncorrectableError_clean_line,
    fun loc => uncorrectableError_scratchWord, fun vc off => uncorrectableError_calderaWord,
    fun vc tile off => uncorrectableError_tileWord⟩
  case fetch =>
    intro n time s1 f i d ps gone turned late htime hen hready hposted hheader hdesc
    have hruns := fun q => egressFetch_runs (q := q) htime hen hready hposted hheader hdesc
    exact ⟨egressFetch_out_of_range htime hen hready hposted hheader hdesc,
      egressFetch_untranslated htime hen hready hposted hheader hdesc,
      fun q hok hq hlate => (hruns q hok hq).trans (congrArg _ (fetchRuns_late hlate)),
      fun q hok hq hlate hheld => (hruns q hok hq).trans (congrArg _ (fetchRuns_held hlate hheld)),
      fun q t hok hq hlate hfree hread =>
        ⟨fun hclean => (hruns q hok hq).trans (congrArg _ (fetchRuns_read hlate hfree hread hclean)),
        fun hpoison => (hruns q hok hq).trans (congrArg _ (fetchRuns_poisoned hlate hfree hread hpoison))⟩⟩
  case transmit =>
    intro n time tx w payload rest s1 f htime hready hen hdue hfirst
    refine ⟨egressTransmit_held htime hready, fun hport => ?_⟩
    rw [egressTransmit_leaves htime hready hen hdue hfirst hport]
    obtain rfl := eq_of_atTime htime
    rfl

end Sys2Proof.Machine
end

section
/-!
PROOF. Engines at work (R77, R80, R84 to R86, R92, R96, R97, R424): one equation for each way an event of an engine
can end, and the statement assembled from them.
-/

namespace Sys2Proof.Machine

open Sys2Proof

/-! ### The rows of the events -/

theorem exec_engineStart (n : Nat) (s : State) : exec (.engineStart n) s = execEngineStart n s := rfl
theorem exec_copyComplete (n : Nat) (s : State) : exec (.copyComplete n) s = execCopyComplete n s := rfl
theorem exec_codingComplete (n : Nat) (s : State) : exec (.codingComplete n) s = execCodingComplete n s := rfl
theorem exec_engineStop (n steps : Nat) (s : State) :
    exec (.engineStop n steps) s = execEngineStop n steps s := rfl
theorem exec_cancelledCommandStop (n steps : Nat) (s : State) :
    exec (.cancelledCommandStop n steps) s = execCancelledCommandStop n steps s := rfl
theorem exec_budgetReset (s : State) : exec .budgetReset s = execBudgetReset s := rfl

theorem engineStart_starts {s : State} {n : Nat} {c : Cmd} (hidle : s.running n = none)
    (hfreeze : (s.part (s.enginePart n)).freeze = false) (hnext : s.nextCommand n = some c) :
    exec (.engineStart n) s =
      .next ((s.modCmd c.id (fun c => { c with running := true })).nodeState c.node .running) := by
  simp only [exec_engineStart, execEngineStart, hidle, hfreeze, hnext, Option.isSome_none, Bool.or_self,
    Bool.false_eq_true, if_false]

/-! ### A run of a copy (R80) and the end of a ring entry's command (R424) -/

section CopyStep

variable {s u : State} {c : Cmd} {k steps : Nat} {paused : State → State}

theorem copyStep_bad_descriptor (hstatus : c.copyStatus = some k) :
    s.copyStep c steps paused = s.failCmd c k := by
  rw [State.copyStep, hstatus]

variable (hstatus : c.copyStatus = none)

include hstatus

theorem copyStep_empty (hempty : c.copyEmpty = true) :
    s.copyStep c steps paused = s.endCmd c .done 1 := by
  simp only [State.copyStep, hstatus, hempty, if_true]

variable (hempty : c.copyEmpty = false)

include hempty

theorem copyStep_done (hrun : s.copyRun c steps = (.done, u)) :
    s.copyStep c steps paused = u.endCmd c .done 1 := by
  simp only [State.copyStep, hstatus, hempty, hrun, Bool.false_eq_true, if_false]

theorem copyStep_paused (hrun : s.copyRun c steps = (.paused, u)) :
    s.copyStep c steps paused = paused u := by
  simp only [State.copyStep, hstatus, hempty, hrun, Bool.false_eq_true, if_false]

end CopyStep

/-- A command that no ring entry asked for posts nothing, and so never waits for the completion ring. -/
theorem ringBlocked_of_no_ring {s : State} {c : Cmd} (hring : c.ring = none) : s.ringBlocked c = false := by
  rw [State.ringBlocked, hring]
  rfl

theorem copyStatus_of_no_ring {c : Cmd} (hring : c.ring = none) :
    c.copyStatus = (copyDesc c.desc).status c.cbase.toNat c.csize.toNat := by
  rw [Cmd.copyStatus, hring]
  rfl

theorem endCmd_of_ring {s : State} {c : Cmd} {r : RingCopy} (hring : c.ring = some r) (st : NodeState)
    (status : Nat) :
    s.endCmd c st status = (((s.dropCmd c.id).releaseLocks c.id).finishNode c.node st status).postCompletion
      c.vf.toNat r.tag.toNat (ringStatus st status) 0 := by
  rw [State.endCmd, hring]

/-! ### Events of the running command -/

section Running

variable {s u : State} {n k steps : Nat} {c : Cmd} (hrunning : s.running n = some c)

include hrunning

/-- R96: a command that must stop does not run on to its end. -/
theorem completions_of_mustStop (hstop : s.mustStop n c = true) :
    exec (.copyComplete n) s = .next s ∧ exec (.codingComplete n) s = .next s := by
  constructor
  · simp only [exec_copyComplete, execCopyComplete, hrunning, hstop, or_true, if_true]
  · simp only [exec_codingComplete, execCodingComplete, hrunning, hstop, or_true, if_true]

section Completion

variable (hcancel : c.cancelled = false) (hstop : s.mustStop n c = false)

include hcancel hstop

theorem copyComplete_runs (hkind : c.kind = .copy) (hring : s.ringBlocked c = false) :
    exec (.copyComplete n) s = .next (s.copyStep c c.total (fun t => t.stopCmd c none)) := by
  simp only [exec_copyComplete, execCopyComplete, hrunning, hcancel, hstop, hkind, hring, ne_eq, not_true_eq_false,
    Bool.false_eq_true, or_self, if_false]

variable (hkind : c.kind ≠ .copy)

include hkind

theorem codingComplete_bad_descriptor (hstatus : codingStatus c.kind c.encode c.desc = some k) :
    exec (.codingComplete n) s = .next (s.failAny c k) := by
  simp only [exec_codingComplete, execCodingComplete, hrunning, hcancel, hstop, hkind, hstatus, Bool.false_eq_true,
    or_self, if_false]

/-- Log entry 46: the engine time is charged before anything is written. -/
theorem codingComplete_writes {w : Coded} {ps : List (W64 × List Byte × List (W64 × Nat × Xlat))}
    (hstatus : codingStatus c.kind c.encode c.desc = none)
    (hwork : (if c.kind = .ldpc then s.ldpcWork c else s.polarWork c) = .ok (w, u))
    (hplaces : u.outPlaces c (w.outs ++ [(c.stw, leBytes 8 w.word)]) = .ok ps) :
    exec (.codingComplete n) s =
      .next (if (u.chargeTime c).spent c then (u.chargeTime c).stopCmd c none
        else (ps.foldl (fun t o => t.writeAt o.2.2 o.1 o.2.1) (u.chargeTime c)).endCmd c .done 1) := by
  simp only [exec_codingComplete, execCodingComplete, hrunning, hcancel, hstop, hkind, hstatus, hwork, hplaces,
    apply_ite Host.Outcome.next, Bool.false_eq_true, or_self, if_false]

end Completion

section Stop

variable (hstop : s.mustStop n c = true) (hcancel : c.cancelled = false)

include hstop hcancel

theorem engineStop_coding (hkind : c.kind ≠ .copy) :
    exec (.engineStop n steps) s = .next ((s.chargeTime c).stopCmd c none) := by
  simp only [exec_engineStop, execEngineStop, hrunning, hstop, hcancel, ne_eq, hkind, not_false_eq_true,
    Bool.not_true, Bool.or_self, Bool.false_eq_true, if_false, if_true]

theorem engineStop_copy (hkind : c.kind = .copy) (hring : s.ringBlocked c = false) :
    exec (.engineStop n steps) s = .next (s.copyStep c steps (fun t => t.stopCmd c none)) := by
  simp only [exec_engineStop, execEngineStop, hrunning, hstop, hcancel, hkind, hring, ne_eq, not_true_eq_false,
    Bool.not_true, Bool.or_self, Bool.false_eq_true, if_false]

end Stop

section Cancelled

variable (hcancel : c.cancelled = true)

include hcancel

theorem cancelledCommandStop_coding (hkind : c.kind ≠ .copy) :
    exec (.cancelledCommandStop n steps) s = .next (s.endCmd c .cancelled c.cancelStatus) := by
  simp only [exec_cancelledCommandStop, execCancelledCommandStop, hrunning, hcancel, ne_eq, hkind,
    not_false_eq_true, Bool.not_true, Bool.false_eq_true, if_false, if_true]

theorem cancelledCommandStop_copy (hkind : c.kind = .copy) (hring : s.ringBlocked c = false)
    (hstatus : c.copyStatus = none) (hempty : c.copyEmpty = false) :
    exec (.cancelledCommandStop n steps) s =
      .next ((s.copyRun c steps).2.endCmd c .cancelled c.cancelStatus) := by
  simp only [exec_cancelledCommandStop, execCancelledCommandStop, hrunning, hcancel, hkind, hring, hstatus, hempty,
    ne_eq, not_true_eq_false, Option.isSome_none, Bool.not_true, Bool.or_self, Bool.false_eq_true, if_false]

end Cancelled

end Running

/-! ### Budgets (R97) -/

/-- The multiple of PERIOD at which the next reset of the budgets takes place, counted in periods. -/
def State.nextBudgetTurn (s : State) : Nat :=
  let turn := s.hub.ptp / (s.hub.engPer.toNat * 1000)
  if turn = s.hub.budgetTurn then turn + 1 else turn

/-- The state at the start of a new period: every count stands at its ALLOW, and the time is not before the period's
start. -/
def State.budgetsRestored (s : State) : State :=
  { s.modHub (fun h => { h with
      budgetTurn := s.nextBudgetTurn
      ptp := max h.ptp (s.nextBudgetTurn * (s.hub.engPer.toNat * 1000)) }) with
    vfs := s.vfs.map (fun e => (e.1, { e.2 with left := e.2.allow })) }

theorem budgetReset_restores (s : State) : exec .budgetReset s = .next s.budgetsRestored := rfl

/-- Settles O40: each clause is one of the equations above. -/
theorem engineWork : Obligations.EngineWork := by
  intro s
  refine ⟨fun n c => engineStart_starts, ?copy, ?descriptor, fun n c => completions_of_mustStop, ?posting, ?coding,
    fun n k c hrunning hkind hcancel hstop => codingComplete_bad_descriptor hrunning hcancel hstop hkind,
    ?stop, ?cancelled, ?budgets⟩
  case copy =>
    intro n c u hrunning hkind hcancel hstop hring hstatus
    rw [copyComplete_runs hrunning hcancel hstop hkind hring]
    exact ⟨fun hempty => congrArg _ (copyStep_empty hstatus hempty),
      fun hempty hrun => congrArg _ (copyStep_done hstatus hempty hrun),
      fun hempty hrun => congrArg _ (copyStep_paused hstatus hempty hrun)⟩
  case descriptor =>
    intro n k c hrunning hkind hcancel hstop hring hbad
    rw [copyComplete_runs hrunning hcancel hstop hkind (ringBlocked_of_no_ring hring),
      copyStep_bad_descriptor ((copyStatus_of_no_ring hring).trans hbad)]
  case posting =>
    intro c r hring st k
    rw [endCmd_of_ring hring]
    cases st <;> rfl
  case coding =>
    intro n c w u ps hrunning hkind hcancel hstop
    exact codingComplete_writes hrunning hcancel hstop hkind
  case stop =>
    intro n steps c u hrunning hstop hcancel
    refine ⟨engineStop_coding hrunning hstop hcancel, fun hkind hring hstatus hempty hrun => ?_⟩
    rw [engineStop_copy hrunning hstop hcancel hkind hring, copyStep_paused hstatus hempty hrun]
  case cancelled =>
    intro n steps c hrunning hcancel
    exact ⟨cancelledCommandStop_coding hrunning hcancel, cancelledCommandStop_copy hrunning hcancel⟩
  case budgets =>
    exact ⟨s.budgetsRestored, budgetReset_restores s, rfl, Nat.le_max_left _ _, Nat.le_max_right _ _, rfl, rfl⟩

end Sys2Proof.Machine
end

section
/-!
PROOF. The scalar registers and s0 (R98): what a read finds after a write, and that no write lists s0 in the
register table.
-/

namespace Sys2Proof.Machine

open Sys2Proof

/-! ### Pairs of a table after a write -/

section Tables

variable {α : Type} {t : Table α} {k : Nat} {v : α} {e : Nat × α}

theorem mem_of_mem_terase (he : e ∈ terase t k) : e ∈ t := by
  induction t with
  | nil => exact he
  | cons p r ih =>
    unfold terase at he
    split at he
    · exact List.mem_cons_of_mem _ (ih he)
    · exact (List.mem_cons.mp he).elim (fun h => h ▸ List.mem_cons_self) (fun h => List.mem_cons_of_mem _ (ih h))

theorem eq_or_mem_of_mem_tinsert (he : e ∈ tinsert t k v) : e = (k, v) ∨ e ∈ t := by
  induction t with
  | nil => exact .inl (List.mem_singleton.mp he)
  | cons p r ih =>
    unfold tinsert at he
    split at he
    · exact List.mem_cons.mp he
    · split at he
      · exact (List.mem_cons.mp he).imp_right (List.mem_cons_of_mem _)
      · rcases List.mem_cons.mp he with rfl | h
        · exact .inr List.mem_cons_self
        · exact (ih h).imp_right (List.mem_cons_of_mem _)

/-- A write adds at most a pair of its own key. -/
theorem key_eq_or_mem_of_mem_tset [DecidableEq α] {d : α} (he : e ∈ tset d t k v) : e.1 = k ∨ e ∈ t := by
  unfold tset at he
  split at he
  · exact .inr (mem_of_mem_terase he)
  · exact (eq_or_mem_of_mem_tinsert he).imp_left (congrArg Prod.fst)

end Tables

/-! ### Registers -/

theorem zeroOk_iff (t : Thread) : t.zeroOk = true ↔ ∀ e ∈ t.sc.s, e.1 ≠ 0 := by
  simp [Thread.zeroOk]

/-- No write gives s0 a value. -/
theorem zeroOk_wr {s : State} (r : BitVec 5) (v : W64) (h : s.th.zeroOk = true) : (s.wr r v).th.zeroOk = true := by
  by_cases hr : r = 0#5
  · rw [hr, wr_zero, h]
  · have hkey : r.toNat ≠ 0 := fun h0 => hr (BitVec.eq_of_toNat_eq h0)
    rw [zeroOk_iff] at h ⊢
    intro e he
    rw [State.wr, if_neg hr, State.modSc_sc] at he
    rcases key_eq_or_mem_of_mem_tset he with hnew | hold
    · exact hnew ▸ hkey
    · exact h e hold

/-- Settles O52: s0 by the definition of a read and of a write, the others by the read-after-write lemmas. -/
theorem registerZero : Obligations.RegisterZero := by
  intro s v r
  exact ⟨rd_zero s, wr_zero s v, rd_wr_same s r v, fun q => rd_wr_other s r q v, zeroOk_wr r v⟩

end Sys2Proof.Machine
end

section
/-!
PROOF. A step from a legal vector state to an illegal one: the vector type and length of a thread that is its own
partner are not kept by SETVL (R287, R288).
-/

namespace Sys2Proof.Machine

open Sys2Proof

theorem vl_le_vlmax_of_vecLegal {s : State} (h : s.vecLegal = true) : s.vl ≤ s.vlmax := by
  simp only [State.vecLegal, Thread.vecLegal, Bool.and_eq_true, decide_eq_true_eq] at h
  obtain ⟨⟨⟨-, hvl⟩, -⟩, -⟩ := h
  exact hvl

/-- A thread on slot 0 about to run `setvl s3, s1` with s1 = 200, under 8-bit elements in 8 registers (VLMAX 2,048
for one lane group). CAP is 1, so that the span is to end, and vlg names VC 0, the thread's own, as the partner:
R288 gives VC 248, and no rule sets another, but nothing in `vecLegal` or `spansWhole` excludes it. -/
def selfSpanned : State :=
  (((State.reset.withFetchWord 32 0x2A308001).modSc (fun c => { c with s := [(1, 200)] })).modVec
    (fun v => { v with vtype := 0x1C0000#23 })).modHeld (fun h => { h with cap := 1, remote := 1, pvc := 0 })

theorem selfSpanned_vecLegal : selfSpanned.vecLegal = true := by decide +kernel
theorem selfSpanned_spansWhole : selfSpanned.spansWhole = true := by decide +kernel

/-- An outcome is a state whose thread has the vector type of reset, one lane group's VLMAX of 128 under it, and a
vector length of 200. -/
def longUnderResetType (o : Host.Outcome State Fault Refusal) : Bool :=
  match o with
  | .next t => t.th.vec.vtype == 0x1C021A#23 && t.vlmax == 128 && t.vl == 200
  | .fault _ => false
  | .refused _ => false

theorem vlmax_lt_vl_of_longUnderResetType {o : Host.Outcome State Fault Refusal} (h : longUnderResetType o = true) :
    ∃ t, o = .next t ∧ t.vlmax < t.vl := by
  cases o with
  | next t =>
    simp only [longUnderResetType, Bool.and_eq_true, beq_iff_eq] at h
    obtain ⟨⟨-, hmax⟩, hvl⟩ := h
    exact ⟨t, rfl, by omega⟩
  | fault _ => cases h
  | refused _ => cases h

/-- SETVL takes its grant of 200 from the VLMAX of the type in force, then releases the partner slot: that is the
thread's own, whose vector type falls to the one of reset, and the grant is written to vl all the same. -/
theorem step_selfSpanned : longUnderResetType (step selfSpanned) = true := by decide +kernel

/-- Refutes O58: the statement speaks of every state, reachable from reset or not, and from `selfSpanned` a step
leaves vl = 200 with VLMAX = 128. -/
theorem not_resetState : ¬ Obligations.ResetState := by
  rintro ⟨-, hkept, -⟩
  obtain ⟨t, hstep, hlong⟩ := vlmax_lt_vl_of_longUnderResetType step_selfSpanned
  have hlegal : t.vecLegal = true := hkept selfSpanned t selfSpanned_vecLegal selfSpanned_spansWhole hstep
  exact absurd (vl_le_vlmax_of_vecLegal hlegal) (Nat.not_le.mpr hlong)

end Sys2Proof.Machine
end

section
/-!
PROOF. The encoding: the worked words decode as the manual says, and decoding undoes encoding
(R137, R140 to R144).
-/

namespace Sys2Proof.Laws.RoundTrip

open Sys2Proof

/-- Every row of the opcode table round-trips: the lemma of its row says so. -/
theorem every_row (i : Instr) : Statement i :=
  Instr.rec (motive := Statement)
    add sub and or xor andn sll srl sra slt sltn mul mulh div divn rem remn clz popc brev addi andi ori
    xori slli srli srai slti lui addpc lb lh lw ld lbn lhn lwn lda sb sh sw sd sdr amo beq bne blt bge
    bltn bgen jal jalr lnest lbody lexit csrr csrw csrs csrc svc eret nap wake yield halt bkpt ifence
    raise gjoin gleave barw bararv barrlx barwait phend gsize tid spawn jdone jstat jdeadl ptpnow chbind
    chpub chread fence fencee qdrain winpub vcfg setvl vkeep vdead vlmaxr vindex pand por pxor pandn
    pnot pseta pfirst ppopc pscan pmovl pld pst vld vldff vlds vldx vst vsts vstx vstxo vldbp vstbp
    vscatr vputr vappend vqpop vadd vaddVs vsub vsubVs vrsub vrsubVs vmul vmulVs vmulh vmulhVs vmulhn
    vmulhnVs vmin vminVs vmax vmaxVs vminn vminnVs vmaxn vmaxnVs vand vandVs vor vorVs vxor vxorVs vsll
    vsllVs vsrl vsrlVs vsra vsraVs vcmp vcmpVs vqadd vqaddVs vqsub vqsubVs vqmul vqmulVs vshrrnd
    vshrrndVs vsatn vsatnVs vhead vqneg vqabs vfadd vfaddVs vfsub vfsubVs vfmul vfmulVs vfdiv vfdivVs
    vfmin vfminVs vfmax vfmaxVs vfma vfmaVs vfms vfmsVs vfnma vfnmaVs vfclamp vfclampVs vfsqrt vfabs
    vfneg vcvt vwiden vnarrow vabs vneg vclz vpopc vmov vmovs vmovx vins vsel vcompr vexpnd vslideup
    vslidedn vrev vred vfred vcred vcadd vcaddVs vcsub vcsubVs vcmul vcmulVs vcmac vcmacVs vcmag2 vcscl
    vcsclVs vcrot vcconj vbfly2 vbfly4 vbitrev vbperm vbgath vintlv vdintlv vrotz vgold vllrpk vperm
    vpermb vxchg vzip vunzip vscget vscset vscnorm vgjstep vbsolve vnsstep vwstag mma mmas mzero atov
    vtoa ald ast asave arst cbld cbfill ecpy eldpc epolar eenc edge ewait estat ecancel vamo wdecl wupd
    wmerge wfree rinst rcall rcallv rfree twset twclr twchk twconf twread mmaComplete sliceCall
    registerWrite frameAssign frameRelease frameQuery releaseComplete mapWrite mapRemove mapRead
    removalComplete migpush migrate migrationComplete counterHalving pageWalk s1invWrite s1invComplete
    fqcfgWrite fqheadWrite l2Fill l2Writeback ingestSection slotClose irctlWrite flctlWrite egressFetch
    egressTransmit engineStart copyComplete codingComplete engineStop budgetReset aownWrite acfgWrite
    vgcapWrite rtctlWrite wseqWrite pwrcapWrite governorSample thermalTrip rateReduction launch map
    unmap copy watch notify attest functionReset pageResponse proxyResponse hostAccess hostSnoop
    backInvalidateResponse twinInbound trainArrival trainAck dispatch preemptTimeout handlerTimeout
    yieldTimeout windowWaitExpiry forcedStop partWayStop deadlineReached abandonStop markerWrite
    setvlRestart napWake barwaitResume ewaitResume commitWaitEnd queueWaitEnd pendingLineFree
    tileReleaseWait qdrainEnd phendResume chainDetach bridgeError dbgtWrite frzWrite trctlWrite
    triggerFire triggerArrival triggerAction powerOnReset bringupComplete storeBufferDrain
    cancelledCommandStop resumeAfterDetach ptpServoStep twinLinkState uncorrectableError illegalWord
    fetchFault unknownOpEntry
    i

/-- What decodes from its encoding has one: an encoding of no bytes is too short to decode. -/
theorem encode_length {i : Instr} (hwf : i.wf = true) (hword : i.isWord = true) : (encode i).length = 4 := by
  have hdecode : decode (encode i ++ []) = .ok (i, []) := every_row i hwf hword []
  cases hw : i.word with
  | some w => simp [encode, hw, bytesOfWord]
  | none => simp [encode, hw, decode] at hdecode

end Sys2Proof.Laws.RoundTrip

namespace Sys2Proof.Machine

open Sys2Proof

/-- Settles O46: each word is decoded by evaluation. -/
theorem decodedWords : Obligations.DecodedWords :=
  ⟨rfl, rfl, rfl, rfl, rfl, rfl, rfl, rfl, rfl, rfl, rfl, rfl, rfl, rfl, rfl, rfl, rfl, rfl, rfl, rfl, rfl,
    rfl, rfl⟩

/-- Settles O47: the round trip of every row, and the length that it forces. -/
theorem encodeThenDecode : Obligations.EncodeThenDecode := by
  intro i hwf hword rest
  exact ⟨Laws.RoundTrip.encode_length hwf hword, Laws.RoundTrip.every_row i hwf hword rest⟩

end Sys2Proof.Machine
end

section
/-!
PROOF. How a convoy ends (R134, R145, R296, R400, R415, R434): what taking a trap and completing a convoy leave
unchanged, and the statement about retirement assembled from that.
-/

namespace Sys2Proof.Machine

open Sys2Proof

/-! ### Updates that change nothing -/

theorem State.modCv_eq_self {s : State} {f : Convoy → Convoy} (h : f s.cv = s.cv) : s.modCv f = s := by
  simp only [State.modCv, h]

theorem State.modHw_eq_self {s : State} {f : SlotHw → SlotHw} (h : f s.th.hw = s.th.hw) : s.modHw f = s := by
  simp only [State.modHw, h]

theorem State.modNest_eq_self {s : State} {f : Nest → Nest} (h : f s.th.nest = s.th.nest) : s.modNest f = s := by
  simp only [State.modNest, h]

/-! ### Taking a trap (R392) -/

section EnterHandler

variable (s : State) (m : Mode) (c : Nat)

/-- Moving to the SC changes nothing of the thread but that it is there. -/
@[simp] theorem State.migrate_th : s.migrate.th = { s.th with hw := { s.th.hw with mig := true } } := by
  unfold State.migrate
  split
  · next hmig => rw [← hmig]
  · rfl
@[simp] theorem State.migrate_mem : s.migrate.mem = s.mem := by unfold State.migrate; split <;> rfl

@[simp] theorem State.enterHandler_tr : (s.enterHandler m c).th.tr = s.th.tr := by
  cases m <;> simp [State.enterHandler]
@[simp] theorem State.enterHandler_fl : (s.enterHandler m c).th.fl = s.th.fl := by
  cases m <;> simp [State.enterHandler]
@[simp] theorem State.enterHandler_vec : (s.enterHandler m c).th.vec = s.th.vec := by
  cases m <;> simp [State.enterHandler]
@[simp] theorem State.enterHandler_regs : (s.enterHandler m c).th.sc.s = s.th.sc.s := by
  cases m <;> simp [State.enterHandler]
@[simp] theorem State.enterHandler_mem : (s.enterHandler m c).mem = s.mem := by
  cases m <;> simp [State.enterHandler]

end EnterHandler

/-- A trap other than MACFAIL leaves its records (R392 step 1) and enters a handler. -/
theorem State.takeTrapWith_enters {s : State} {t : TrapInfo} (vpart mpart : Bool) (ht : t.cause ≠ Cause.macfail) :
    s.takeTrapWith t vpart mpart =
      ((s.writeRecords s.th.sc.pc t vpart mpart).modHw
        (fun h => { h with wait := none, barDone := none, issued := false })).enterHandler
          (handlerMode s.th t.cause) t.cause :=
  if_neg ht

section TakeTrap

variable (s : State) {t : TrapInfo} (vpart mpart : Bool) (ht : t.cause ≠ Cause.macfail)
include ht

/-- The records are of the address, the cause, the value and the member. -/
theorem State.takeTrapWith_tr :
    (s.takeTrapWith t vpart mpart).th.tr = (s.writeRecords s.th.sc.pc t vpart mpart).th.tr := by
  simp [State.takeTrapWith_enters vpart mpart ht]

/-- Flags, vector state, registers and memory stay as they are. -/
theorem State.takeTrapWith_frame :
    (s.takeTrapWith t vpart mpart).th.fl = s.th.fl ∧ (s.takeTrapWith t vpart mpart).th.vec = s.th.vec ∧
      (s.takeTrapWith t vpart mpart).th.sc.s = s.th.sc.s ∧ (s.takeTrapWith t vpart mpart).mem = s.mem := by
  simp [State.takeTrapWith_enters vpart mpart ht, State.writeRecords]

end TakeTrap

/-! ### Completing a convoy -/

section Complete

variable (s : State)

@[simp] theorem State.wr_fl (r : BitVec 5) (v : W64) : (s.wr r v).th.fl = s.th.fl := by unfold State.wr; split <;> rfl
@[simp] theorem State.wr_hw (r : BitVec 5) (v : W64) : (s.wr r v).th.hw = s.th.hw := by unfold State.wr; split <;> rfl
@[simp] theorem State.wr_nest (r : BitVec 5) (v : W64) : (s.wr r v).th.nest = s.th.nest := by
  unfold State.wr; split <;> rfl
@[simp] theorem State.wr_pc (r : BitVec 5) (v : W64) : (s.wr r v).th.sc.pc = s.th.sc.pc := by
  unfold State.wr; split <;> rfl
@[simp] theorem State.wr_cv (r : BitVec 5) (v : W64) : (s.wr r v).cv = s.cv := by unfold State.wr; split <;> rfl

/-- What no write of a scalar changes, the commit of the late ones does not change either. -/
theorem State.commitLate_keeps {α : Type} (g : State → α) (hg : ∀ u r v, g (State.wr u r v) = g u) :
    g s.commitLate = g s :=
  foldl_keeps (fun u => g u = g s) _ (fun u p hu => (hg u p.1 p.2).trans hu) s.cv.late s rfl

@[simp] theorem State.commitLate_fl : s.commitLate.th.fl = s.th.fl := s.commitLate_keeps (·.th.fl) State.wr_fl
@[simp] theorem State.commitLate_hw : s.commitLate.th.hw = s.th.hw := s.commitLate_keeps (·.th.hw) State.wr_hw
@[simp] theorem State.commitLate_nest : s.commitLate.th.nest = s.th.nest :=
  s.commitLate_keeps (·.th.nest) State.wr_nest
@[simp] theorem State.commitLate_pc : s.commitLate.th.sc.pc = s.th.sc.pc := s.commitLate_keeps (·.th.sc.pc) State.wr_pc
@[simp] theorem State.commitLate_cv : s.commitLate.cv = s.cv := s.commitLate_keeps (·.cv) State.wr_cv

@[simp] theorem State.clearProgress_sc : s.clearProgress.th.sc = s.th.sc := rfl
@[simp] theorem State.clearProgress_fl : s.clearProgress.th.fl = s.th.fl := rfl
@[simp] theorem State.clearProgress_hw : s.clearProgress.th.hw = s.th.hw := rfl
@[simp] theorem State.clearProgress_nest : s.clearProgress.th.nest = s.th.nest := rfl
@[simp] theorem State.clearProgress_vec : s.clearProgress.th.vec = { s.th.vec with vstart := [] } := rfl
@[simp] theorem State.clearProgress_estat :
    s.clearProgress.th.tr.estat = { s.th.tr.estat with vpart := false, mpart := false, pfw := false } := rfl
@[simp] theorem State.clearProgress_cv : s.clearProgress.cv = s.cv := rfl
@[simp] theorem State.clearProgress_mem : s.clearProgress.mem = s.mem := rfl

/-- The state in which the nest is stepped: the scalars of vector members and the records of R400 are in. -/
def State.committed : State := if s.cv.vector then s.commitLate.clearProgress else s.commitLate

theorem State.complete_eq (taken : Option W64) :
    s.complete taken = (((s.committed.advance taken).modNest Nest.settle).modHw
      (fun h => { h with wait := none })).modCv (fun c => { c with late := [], raised := 0, raisers := [] }) := rfl

@[simp] theorem State.committed_fl : s.committed.th.fl = s.th.fl := by unfold State.committed; split <;> simp
@[simp] theorem State.committed_hw : s.committed.th.hw = s.th.hw := by unfold State.committed; split <;> simp
@[simp] theorem State.committed_nest : s.committed.th.nest = s.th.nest := by unfold State.committed; split <;> simp
@[simp] theorem State.committed_pc : s.committed.th.sc.pc = s.th.sc.pc := by unfold State.committed; split <;> simp
@[simp] theorem State.committed_cv : s.committed.cv = s.cv := by unfold State.committed; split <;> simp
@[simp] theorem State.committed_inBody : s.committed.inBody = s.inBody := by simp [State.inBody]

/-- What no write of a scalar changes, a step of the nest does not change either. -/
theorem State.nestStep_keeps {α : Type} (g : State → α) (hg : ∀ u r v, g (State.wr u r v) = g u) (fuel lv : Nat) :
    g (s.nestStep fuel lv).1 = g s := by
  induction fuel generalizing s lv with
  | zero => rfl
  | succ fuel ih =>
    unfold State.nestStep
    simp only [apply_ite Prod.fst, apply_ite g, hg, ih, ite_self]

/-- Outside a loop body the thread goes on at the target, or behind the convoy. -/
theorem State.advance_outside {s : State} (h : s.inBody = false) (taken : Option W64) :
    s.advance taken = s.modSc (fun c => { c with pc := taken.getD s.nextPc }) := by
  simp [State.advance, h]

/-- What neither the registers, the program counter nor the nest are, moving on does not change. -/
theorem State.advance_keeps {α : Type} (g : State → α) (hsc : ∀ u f, g (State.modSc u f) = g u)
    (hnest : ∀ u f, g (State.modNest u f) = g u) (hwr : ∀ u r v, g (State.wr u r v) = g u) (taken : Option W64) :
    g (s.advance taken) = g s := by
  unfold State.advance
  split
  · split
    · rw [hsc, hnest]
    · split
      · rw [hsc, hnest]
      · simp only
        split <;> rw [hsc, hnest, State.nestStep_keeps _ g hwr]
  · rw [hsc]

@[simp] theorem State.advance_fl (taken : Option W64) : (s.advance taken).th.fl = s.th.fl :=
  s.advance_keeps (·.th.fl) State.modSc_fl State.modNest_fl State.wr_fl taken
@[simp] theorem State.advance_hw (taken : Option W64) : (s.advance taken).th.hw = s.th.hw :=
  s.advance_keeps (·.th.hw) State.modSc_hw State.modNest_hw State.wr_hw taken

@[simp] theorem State.complete_fl (taken : Option W64) : (s.complete taken).th.fl = s.th.fl := by
  simp [State.complete_eq]
@[simp] theorem State.complete_hw (taken : Option W64) :
    (s.complete taken).th.hw = { s.th.hw with wait := none } := by
  simp [State.complete_eq]

/-- Outside a loop body a convoy that completes moves the program counter past its words. -/
theorem State.complete_pc_outside {s : State} (h : s.inBody = false) :
    (s.complete none).th.sc.pc = s.th.sc.pc + BitVec.ofNat 64 s.cv.len := by
  rw [State.complete_eq, State.advance_outside (s.committed_inBody.trans h)]
  simp [State.nextPc]

end Complete

/-! ### Retiring (R134, R415, R434) -/

/-- A convoy that raised a class whose trap is enabled completes and traps ARITH. -/
theorem State.retire_raised {s : State} (taken : Option W64) (h : s.cv.raised &&& s.th.fl.vtrapen ≠ 0#8) :
    s.retire taken = ((s.complete taken).modCv (fun c => { c with mbr := s.cv.raiser s.th.fl.vtrapen })).takeTrapWith
      (plainTrap Cause.arith (s.cv.raised.setWidth 64)) false false :=
  if_pos h

/-- Without one it completes, and single step may follow. -/
theorem State.retire_quiet {s : State} (taken : Option W64) (h : s.cv.raised &&& s.th.fl.vtrapen = 0#8) :
    s.retire taken = (s.complete taken).stepTrap :=
  if_neg (not_not_intro h)

theorem State.stepTrap_off {s : State} (h : s.th.hw.dbStep = false) : s.stepTrap = s :=
  if_neg (by simp [h])

theorem State.stepTrap_held {s : State} (h : s.th.hw.stepHold ≠ none) : s.stepTrap = s :=
  if_neg (by simp [h])

/-- A debug halt that can land goes first. -/
theorem State.stepTrap_yields {s : State} (hon : s.th.hw.dbStep = true) (hhold : s.th.hw.stepHold = none)
    (hlands : s.th.haltLands = true) : s.stepTrap = s.modTh Thread.holdStep := by
  rw [State.stepTrap, if_pos ⟨hon, hhold⟩, if_pos hlands]

theorem State.stepTrap_taken {s : State} (hon : s.th.hw.dbStep = true) (hhold : s.th.hw.stepHold = none)
    (hlands : s.th.haltLands = false) :
    s.stepTrap.th.tr.cause = 13 ∧ s.stepTrap.th.tr.val = 0 ∧ s.stepTrap.th.tr.epc = s.th.sc.pc := by
  have hstep : (plainTrap Cause.step 0).cause ≠ Cause.macfail := by decide
  rw [State.stepTrap, if_pos ⟨hon, hhold⟩, if_neg (ne_true_of_eq_false hlands)]
  rw [State.takeTrapWith_tr _ _ _ hstep]
  exact ⟨rfl, rfl, rfl⟩

/-! ### A convoy of one outside a loop nest (R145, R400) -/

section Plain

variable {s : State} (h : s.plain = true)
include h

theorem State.plain_parts :
    s.cv.many = false ∧ s.cv.late = [] ∧ s.cv.raised = 0#8 ∧ s.cv.raisers = [] ∧ s.cv.len = 4 ∧
      s.th.nest.open_ = false ∧ s.th.nest.stale = false ∧ s.th.hw.dbStep = false ∧ s.th.hw.wait = none := by
  simpa [State.plain, and_assoc] using h

theorem State.complete_plain : s.complete none = s.committed.modSc (fun c => { c with pc := c.pc + 4 }) := by
  obtain ⟨-, hlate, hraised, hraisers, hlen, hopen, hstale, -, hwait⟩ := State.plain_parts h
  have hadvance : s.committed.advance none = s.committed.modSc (fun c => { c with pc := c.pc + 4 }) := by
    rw [State.advance_outside (by simp [State.inBody, hopen])]
    simp [State.nextPc, hlen, State.modSc]
  rw [State.complete_eq, hadvance, State.modCv_eq_self, State.modHw_eq_self, State.modNest_eq_self]
  · simp [Nest.settle, hstale]
  · simp [← hwait]
  · simp [← hlate, ← hraised, ← hraisers]

theorem State.finish_plain : s.finish = s.committed.modSc (fun c => { c with pc := c.pc + 4 }) := by
  obtain ⟨hmany, -, hraised, -, -, -, -, hstep, -⟩ := State.plain_parts h
  rw [State.finish, hmany, if_neg Bool.false_ne_true, State.retire_quiet none (by simp [hraised]),
    State.stepTrap_off (by simp [hstep]), State.complete_plain h]

/-- A plain convoy has no scalars of vector members to commit. -/
theorem State.commitLate_plain : s.commitLate = s := by
  obtain ⟨-, hlate, -⟩ := State.plain_parts h
  simp [State.commitLate, hlate]

end Plain

/-- Settles O49: each clause is one of the equations above. -/
theorem retirement : Obligations.Retirement := by
  refine ⟨fun s hs hvec => ?scalar, fun s hs hvec => ?vector, fun s hmany => ?member,
    fun s taken hraised => ?arith, fun s taken hraised hon hhold hlands => ?step,
    fun s => ⟨State.stepTrap_off, State.stepTrap_held, State.stepTrap_yields, State.stepTrap_taken⟩⟩
  case scalar =>
    rw [State.finish_plain hs, State.committed, hvec, if_neg Bool.false_ne_true, State.commitLate_plain hs]
  case vector =>
    rw [State.finish_plain hs, State.committed, hvec, if_pos rfl, State.commitLate_plain hs]
    simp
  case member => exact if_pos hmany
  case arith =>
    have harith : (plainTrap Cause.arith (s.cv.raised.setWidth 64)).cause ≠ Cause.macfail := by
      show Cause.arith ≠ Cause.macfail
      decide
    intro t
    rw [show t = _ from State.retire_raised taken hraised]
    obtain ⟨hfl, -⟩ := State.takeTrapWith_frame ((s.complete taken).modCv _) false false harith
    rw [State.takeTrapWith_tr _ _ _ harith, hfl]
    exact ⟨rfl, rfl, rfl, s.complete_fl taken, rfl⟩
  case step =>
    intro t
    rw [show t = _ from State.retire_quiet taken hraised]
    exact State.stepTrap_taken (by simp [hon]) (by simp [hhold]) hlands

end Sys2Proof.Machine
end

section
/-!
PROOF. The rules of a convoy (R144 to R148, R283): what each rule's search finds, that a convoy refused has no effect,
how members are formed from a block, and that members which neither trap nor wait are performed in order.
-/

namespace Sys2Proof.Machine

open Sys2Proof

/-! ### The rules of R146 -/

/-- A search finds nothing when the first member breaks no rule and the search goes on to find nothing. -/
theorem firstBreach_cons {f : List Instr → Instr → Bool} {b : List Instr} {n : Nat} {m : Instr × W32}
    {r : List (Instr × W32)} :
    firstBreach f b n (m :: r) = none ↔ f b m.1 = false ∧ firstBreach f (b ++ [m.1]) (n + 1) r = none := by
  cases hm : f b m.1 <;> simp [firstBreach, hm]

/-- Rule 1 holds when every member is of group V. -/
theorem firstBreach_group (ms : List (Instr × W32)) (b : List Instr) (n : Nat) :
    firstBreach (fun _ i => breaksGroup i) b n ms = none ↔ ∀ m ∈ ms, (memberPipe m.1).isSome = true := by
  induction ms generalizing b n with
  | nil => simp [firstBreach]
  | cons m r ih => rw [firstBreach_cons, ih, List.forall_mem_cons, breaksGroup, Option.isNone_eq_false_iff]

/-- How many members of a convoy may use a pipe (R146 rule 3). -/
def Pipe.limit (k : Pipe) : Nat := if k = .fx then 2 else 1

/-- How many instructions use a pipe. -/
def pipeUses (l : List Instr) (k : Pipe) : Nat := (l.filter (fun i => memberPipe i == some k)).length

theorem pipeUses_append (l r : List Instr) (k : Pipe) : pipeUses (l ++ r) k = pipeUses l k + pipeUses r k := by
  simp [pipeUses]

theorem pipeUses_self {i : Instr} {k : Pipe} (hi : memberPipe i = some k) : pipeUses [i] k = 1 := by
  simp [pipeUses, hi]

theorem pipeUses_other {i : Instr} {k q : Pipe} (hi : memberPipe i = some k) (hq : q ≠ k) : pipeUses [i] q = 0 := by
  simp [pipeUses, hi, hq.symm]

/-- A member breaks rule 3 when the members before it have used up its pipe. -/
theorem breaksPipe_iff {b : List Instr} {i : Instr} {k : Pipe} (hi : memberPipe i = some k) :
    breaksPipe b i = true ↔ k.limit ≤ pipeUses b k := by
  by_cases hk : k = .fx <;> simp [breaksPipe, hi, Pipe.limit, pipeUses, hk]

/-- Rule 3 holds when no pipe is used beyond its limit, the members before counted in. -/
theorem firstBreach_pipe {ms : List (Instr × W32)} (hv : ∀ m ∈ ms, (memberPipe m.1).isSome = true)
    {b : List Instr} (hb : ∀ k, pipeUses b k ≤ k.limit) (n : Nat) :
    firstBreach breaksPipe b n ms = none ↔ ∀ k, pipeUses (b ++ ms.map (·.1)) k ≤ k.limit := by
  induction ms generalizing b n with
  | nil => simpa [firstBreach] using hb
  | cons m r ih =>
    obtain ⟨hm, hr⟩ := List.forall_mem_cons.mp hv
    obtain ⟨k, hk⟩ := Option.isSome_iff_exists.mp hm
    rw [firstBreach_cons, List.map_cons, List.append_cons b m.1 (r.map (·.1))]
    by_cases hfull : k.limit ≤ pipeUses b k
    · refine iff_of_false (fun hnone => ?_) (fun hall => ?_)
      · exact absurd hnone.1 (ne_false_of_eq_true ((breaksPipe_iff hk).mpr hfull))
      · have hover := hall k
        rw [pipeUses_append, pipeUses_append, pipeUses_self hk] at hover
        omega
    · have hnext : ∀ q, pipeUses (b ++ [m.1]) q ≤ q.limit := by
        intro q
        rw [pipeUses_append]
        by_cases hq : q = k
        · rw [hq, pipeUses_self hk]; omega
        · rw [pipeUses_other hk hq]; exact hb q
      rw [ih hr hnext, and_iff_right (eq_false_of_ne_true (mt (breaksPipe_iff hk).mp hfull))]

/-- Rule 5 holds when no member is related to a later one, or to one of those before. -/
theorem firstBreach_before (f : Instr → Instr → Bool) (ms : List (Instr × W32)) (b : List Instr) (n : Nat) :
    firstBreach (fun c i => c.any (fun j => f j i)) b n ms = none ↔
      (∀ j ∈ b, ∀ m ∈ ms, f j m.1 = false) ∧ ms.Pairwise (fun x y => f x.1 y.1 = false) := by
  induction ms generalizing b n with
  | nil => simp [firstBreach]
  | cons m r ih =>
    rw [firstBreach_cons, ih, List.pairwise_cons, List.any_eq_false]
    simp only [List.mem_append, List.mem_singleton, List.forall_mem_cons, or_imp, forall_and, forall_eq,
      Bool.not_eq_true, and_assoc]

/-- Rule 6 holds when no member is related to a later one. -/
theorem firstBreach_after (f : Instr → Instr → Bool) {all ms : List (Instr × W32)} {b : List Instr}
    (hms : all.drop b.length = ms) (n : Nat) :
    firstBreach (fun c i => (all.drop (c.length + 1)).any (fun l => f i l.1)) b n ms = none ↔
      ms.Pairwise (fun x y => f x.1 y.1 = false) := by
  induction ms generalizing b n with
  | nil => simp [firstBreach]
  | cons m r ih =>
    have hr : all.drop (b.length + 1) = r := by
      rw [← List.drop_drop, hms]; rfl
    rw [firstBreach_cons, ih (by simpa using hr), hr, List.pairwise_cons, List.any_eq_false]
    simp only [Bool.not_eq_true]

/-- No member is related to a later one: as a statement about places in the convoy. -/
theorem pairwise_iff_places {α : Type} {R : α → α → Prop} {l : List α} :
    l.Pairwise R ↔ ∀ i j : Nat, ∀ a b : α, i < j → l[i]? = some a → l[j]? = some b → R a b := by
  rw [List.pairwise_iff_getElem]
  constructor
  · intro h i j a b hij ha hb
    obtain ⟨hi, rfl⟩ := List.getElem?_eq_some_iff.mp ha
    obtain ⟨hj, rfl⟩ := List.getElem?_eq_some_iff.mp hb
    exact h i j hi hj hij
  · intro h i j hi hj hij
    exact h i j _ _ hij (List.getElem?_eq_getElem hi) (List.getElem?_eq_getElem hj)

/-- A convoy of several members breaks no rule when the search of each rule finds nothing. -/
theorem convoyBreach_none {s : State} {ms : List (Instr × W32)} (hlen : 2 ≤ ms.length) :
    convoyBreach s ms = none ↔
      firstBreach (fun _ i => breaksGroup i) [] 0 ms = none ∧ firstBreach breaksPipe [] 0 ms = none ∧
      firstBreach (fun b i => b.any (fun j => writesOverlap s j i)) [] 0 ms = none ∧
      firstBreach (fun b i => (ms.drop (b.length + 1)).any (fun l => readsWrittenBy s i l.1)) [] 0 ms = none := by
  rw [convoyBreach, if_neg (by omega)]
  cases firstBreach (fun _ i => breaksGroup i) [] 0 ms with
  | some e => simp
  | none =>
    cases firstBreach breaksPipe [] 0 ms with
    | some e => simp
    | none =>
      cases firstBreach (fun b i => b.any (fun j => writesOverlap s j i)) [] 0 ms with
      | some e => simp
      | none =>
        cases firstBreach (fun b i => (ms.drop (b.length + 1)).any (fun l => readsWrittenBy s i l.1)) [] 0 ms <;> simp

/-- The rules of R146, member by member. -/
theorem convoyBreach_none_iff {s : State} {ms : List (Instr × W32)} (hlen : 2 ≤ ms.length) :
    convoyBreach s ms = none ↔
      (∀ m ∈ ms, (memberPipe m.1).isSome = true) ∧
      (∀ k : Pipe, (ms.filter (fun m => memberPipe m.1 == some k)).length ≤ (if k = .fx then 2 else 1)) ∧
      (∀ i j : Nat, ∀ a b : Instr × W32, i < j → ms[i]? = some a → ms[j]? = some b →
        writesOverlap s a.1 b.1 = false ∧ readsWrittenBy s a.1 b.1 = false) := by
  rw [convoyBreach_none hlen, firstBreach_group, firstBreach_before,
    firstBreach_after (readsWrittenBy s) (all := ms) (ms := ms) (b := []) rfl, ← pairwise_iff_places,
    List.pairwise_and_iff]
  refine and_congr_right (fun hv => ?_)
  have huses (k : Pipe) : pipeUses (ms.map (·.1)) k = (ms.filter (fun m => memberPipe m.1 == some k)).length := by
    simp [pipeUses, List.filter_map, Function.comp_def]
  rw [firstBreach_pipe hv (b := []) (fun _ => Nat.zero_le _)]
  simp [huses, Pipe.limit]

/-! ### A convoy that is refused (R147, R148) -/

/-- A convoy that is refused traps at its own address, and leaves registers and memory as they are. -/
theorem refuseConvoy_effect (s : State) {cause : Nat} (mbr n : Nat) (val : W64) (hc : cause ≠ Cause.macfail) :
    let v := refuseConvoy s cause mbr n val
    v.th.tr.epc = s.th.sc.pc ∧ v.th.tr.cause = BitVec.ofNat 8 cause ∧ v.th.tr.val = val ∧
      v.th.tr.estat.mbr = BitVec.ofNat 2 mbr ∧ v.th.vec = s.th.vec ∧ v.th.sc.s = s.th.sc.s ∧ v.mem = s.mem := by
  have ht : (plainTrap cause val).cause ≠ Cause.macfail := hc
  obtain ⟨-, hvec, hregs, hmem⟩ := State.takeTrapWith_frame (s.modCv (fun _ => { Convoy.single with
    mbr := BitVec.ofNat 2 mbr, nmbr := BitVec.ofNat 2 (n - 1) })) false false ht
  simp only [refuseConvoy, State.modCv_th, State.modCv_mem, State.takeTrapWith_tr _ _ _ ht]
  exact ⟨rfl, rfl, rfl, rfl, hvec, hregs, hmem⟩

section Fetched

variable {s t f : State} {ws : List W32} (happend : s.th.hw.append = none)
  (hfill : ((s.modCv (fun _ => Convoy.single)).modNest Nest.settle).fillBody = (none, t))
  (hfetch : t.fetchConvoy = (.ok ws, f))
include happend hfill hfetch

/-- With an illegal member the convoy traps ILLOP (R148 step 3). -/
theorem runAtPc_illegal {n : Nat} {w : W32} (hdecode : decodeMembers 0 ws = .error (n, w)) :
    runAtPc s = .next (refuseConvoy (f.endWait f.cur (fun x => x == .fetch)) Cause.illop n ws.length
      (w.setWidth 64)) := by
  simp [runAtPc, happend, runFetched, hfill, hfetch, hdecode]

/-- A convoy that breaks a rule traps CONVOY (R147). -/
theorem runAtPc_breach {ms : List (Instr × W32)} {reason m : Nat} {w : W32} (hdecode : decodeMembers 0 ws = .ok ms)
    (hbreach : convoyBreach (f.endWait f.cur (fun x => x == .fetch)) ms = some (reason, m, w)) :
    runAtPc s = .next (refuseConvoy (f.endWait f.cur (fun x => x == .fetch)) Cause.convoy m ws.length
      (convoyVal reason m w)) := by
  simp [runAtPc, happend, runFetched, hfill, hfetch, hdecode, hbreach]

end Fetched

/-! ### Forming members (R145, R148 step 2) -/

section Forming

variable {blk : BitVec 512} {off fuel n : Nat}

theorem formWords_last (hc : (wordAt blk off).getLsbD 31 = false) :
    formWords blk (fuel + 1) off n = .ok [wordAt blk off] := by
  simp only [formWords, hc, Bool.not_false, if_true]

theorem formWords_block_end (hc : (wordAt blk off).getLsbD 31 = true) (hoff : off = 60) (hn : n ≠ 3) :
    formWords blk (fuel + 1) off n = .error (4, n, wordAt blk off) := by
  simp only [formWords, hc, Bool.not_true, Bool.false_eq_true, if_false, if_neg hn, if_pos hoff]

theorem formWords_fifth (hc : (wordAt blk off).getLsbD 31 = true) :
    formWords blk (fuel + 1) off 3 = .error (2, 3, wordAt blk off) := by
  simp only [formWords, hc, Bool.not_true, Bool.false_eq_true, if_false, if_true]

theorem formWords_continued {e : Nat × Nat × W32} (hc : (wordAt blk off).getLsbD 31 = true) (hoff : off ≠ 60)
    (hn : n ≠ 3) (hrest : formWords blk fuel (off + 4) (n + 1) = .error e) :
    formWords blk (fuel + 1) off n = .error e := by
  simp only [formWords, hc, Bool.not_true, Bool.false_eq_true, if_false, if_neg hn, if_neg hoff, hrest]

end Forming

/-! ### Members in order (R283) -/

section InOrder

variable {s : State} {ms : List (Instr × W32)} {ch : Nat → State}
  (hstart : ch 0 = (s.modCv (fun _ => manyCv ms s.th.hw.storeNum)).modCv
    (fun c => { c with withheld := 0, faulted := 0 }))
  (hmember : ∀ (k : Nat) (m : Instr × W32), ms[k]? = some m →
    exec m.1 ((ch k).modCv (fun c => { c with mbr := BitVec.ofNat 2 k, word := m.2, trap := none })) =
      .next (ch (k + 1)) ∧ (ch (k + 1)).cv.trap = none ∧ (ch (k + 1)).cv.waits = false)
include hstart hmember

/-- No state along the convoy has a trap or waits. -/
theorem alongConvoy_goes_on {k : Nat} (hk : k ≤ ms.length) : (ch k).cv.trap = none ∧ (ch k).cv.waits = false := by
  cases k with
  | zero => rw [hstart]; exact ⟨rfl, rfl⟩
  | succ k => exact (hmember k _ (List.getElem?_eq_getElem hk)).2

/-- The pass goes from each state to the next. -/
theorem runPass_in_order {k : Nat} (hk : k ≤ ms.length) : runPass k (ch k) (ms.drop k) = .next (ch ms.length) := by
  induction hr : ms.drop k generalizing k with
  | nil =>
    have : ms.length ≤ k := List.drop_eq_nil_iff.mp hr
    rw [Nat.le_antisymm hk this]
    rfl
  | cons m r ih =>
    have hlt : k < ms.length := by
      refine Nat.lt_of_not_le (fun hge => ?_)
      rw [List.drop_eq_nil_iff.mpr hge] at hr
      cases hr
    have hm : ms[k]? = some m := by
      rw [← List.head?_drop, hr]; rfl
    have hrest : ms.drop (k + 1) = r := by rw [← List.drop_drop, hr]; rfl
    obtain ⟨htrap, hwaits⟩ := alongConvoy_goes_on hstart hmember hk
    obtain ⟨hexec, -⟩ := hmember k m hm
    simp only [runPass, endsPass, htrap, hwaits, hexec, keepTrap, Bool.false_eq_true, if_false]
    exact ih hlt hrest

/-- The convoy then retires as one. -/
theorem perform_in_order (hlen : 2 ≤ ms.length) (hfaulted : (ch ms.length).cv.faulted = 0) :
    perform s ms = .next (((ch ms.length).retire none).modCv (fun _ => Convoy.single)) := by
  obtain ⟨htrap, hwaits⟩ := alongConvoy_goes_on hstart hmember (Nat.le_refl ms.length)
  have hpass : runPass 0 (ch 0) ms = .next (ch ms.length) := runPass_in_order hstart hmember (Nat.zero_le _)
  have hperform : perform s ms = runConvoy 4 (s.modCv (fun _ => manyCv ms s.th.hw.storeNum)) ms 0 := by
    match ms, hlen with
    | _ :: _ :: _, _ => rfl
  rw [hperform, runConvoy, ← hstart, hpass]
  simp [hwaits, hfaulted, endConvoy, htrap]

end InOrder

/-- Outside a loop body a convoy that raises no enabled class moves the program counter past its words. -/
theorem State.retire_pc {s : State} (hbody : s.inBody = false) (hraised : s.cv.raised &&& s.th.fl.vtrapen = 0#8)
    (hstep : s.th.hw.dbStep = false) : (s.retire none).th.sc.pc = s.th.sc.pc + BitVec.ofNat 64 s.cv.len := by
  rw [State.retire_quiet none hraised, State.stepTrap_off (by simp [hstep]), State.complete_pc_outside hbody]

/-- Settles O48: the rules as searches, the refusals, the forming of members, and the induction along the convoy. -/
theorem convoyRules : Obligations.ConvoyRules := by
  refine ⟨fun s ms hlen => convoyBreach_none_iff hlen, fun s t f ws ms reason m w => ?breach,
    fun s t f ws m w => ?illegal, fun blk off _ _ => ⟨formWords_last, ?blockEnd, ?five⟩,
    fun s ms ch hlen _ => ?inOrder⟩
  case breach =>
    intro u happend hfill hfetch hdecode hbreach
    obtain ⟨hepc, hcause, hval, -, hvec, hregs, hmem⟩ :=
      refuseConvoy_effect u m ws.length (convoyVal reason m w) (cause := Cause.convoy) (by decide)
    exact ⟨_, runAtPc_breach happend hfill hfetch hdecode hbreach, hepc, hcause, hval, hvec, hregs, hmem⟩
  case illegal =>
    intro u happend hfill hfetch hdecode
    exact ⟨_, runAtPc_illegal happend hfill hfetch hdecode,
      refuseConvoy_effect u m ws.length (w.setWidth 64) (cause := Cause.illop) (by decide)⟩
  case blockEnd => exact fun hc hoff => formWords_block_end hc hoff (by decide)
  case five =>
    intro hoff h0 h1 h2 h3
    exact formWords_continued h0 (by omega) (by decide) (formWords_continued h1 (by omega) (by decide)
      (formWords_continued h2 (by omega) (by decide) (formWords_fifth h3)))
  case inOrder =>
    intro e hstart hmember hfaulted
    exact ⟨by rw [hstart]; rfl, by rw [hstart]; rfl, by rw [hstart]; rfl,
      perform_in_order hstart hmember hlen hfaulted, State.retire_pc⟩

end Sys2Proof.Machine
end

section
/-!
PROOF. A step (R145, R148, R281, R283, R397): the bytes at the program counter form the convoy's word, a thread with
nothing to wait for runs it, and an entry of the schedule happens.
-/

namespace Sys2Proof.Machine

open Sys2Proof

/-! ### Numbers in storage order (R2) -/

theorem leNat_lt (l : List Byte) : leNat l < 2 ^ (8 * l.length) := by
  induction l with
  | nil => exact Nat.one_pos
  | cons b r ih =>
    have hb : b.toNat < 256 := b.isLt
    rw [leNat, List.length_cons, Nat.mul_succ, Nat.pow_add]
    omega

/-- A word as wide as the bytes holds their number. -/
theorem toNat_ofNat_leNat {l : List Byte} {n : Nat} (h : n = 8 * l.length) :
    (BitVec.ofNat n (leNat l)).toNat = leNat l := by
  rw [h, BitVec.toNat_ofNat, Nat.mod_eq_of_lt (leNat_lt l)]

theorem leNat_drop (l : List Byte) (k : Nat) : leNat (l.drop k) = leNat l / 256 ^ k := by
  induction k generalizing l with
  | zero => simp
  | succ k ih =>
    cases l with
    | nil => simp [leNat]
    | cons b r =>
      have hb : b.toNat < 256 := b.isLt
      rw [List.drop_succ_cons, ih, leNat, Nat.pow_succ', ← Nat.div_div_eq_div_mul,
        Nat.add_mul_div_left _ _ (by decide), Nat.div_eq_of_lt hb, Nat.zero_add]

theorem leNat_take (l : List Byte) (k : Nat) : leNat (l.take k) = leNat l % 256 ^ k := by
  induction k generalizing l with
  | zero => simp [leNat, Nat.mod_one]
  | succ k ih =>
    cases l with
    | nil => simp [leNat]
    | cons b r =>
      have hb : b.toNat < 256 := b.isLt
      rw [List.take_succ_cons, leNat, ih, leNat, Nat.pow_succ', Nat.mod_mul, Nat.add_mul_mod_self_left,
        Nat.mod_eq_of_lt hb, Nat.add_mul_div_left _ _ (by decide), Nat.div_eq_of_lt hb, Nat.zero_add]

/-! ### The word at an address (R148 step 1) -/

@[simp] theorem State.homeBytes_length (s : State) (p : Phys) (n : Nat) : (s.homeBytes p n).length = n := by
  simp [State.homeBytes]

/-- The four bytes at a place are four bytes of its 64-byte block. -/
theorem State.homeBytes_of_block (s : State) (p : Phys) (h : p.loc % 64 ≤ 60) :
    ((s.homeBytes { p with loc := p.loc / 64 * 64 } 64).drop (p.loc % 64)).take 4 = s.homeBytes p 4 := by
  apply List.ext_getElem
  · simp; omega
  · intro i _ _
    have hloc : p.loc / 64 * 64 + (p.loc % 64 + i) = p.loc + i := by omega
    simp [State.homeBytes, hloc]

/-- The block's word at a place's offset is the word of the four bytes there. -/
theorem wordAt_blockAt (s : State) (p : Phys) (h : p.loc % 64 ≤ 60) :
    wordAt (s.blockAt p) (p.loc % 64) = BitVec.ofNat 32 (leNat (s.homeBytes p 4)) := by
  rw [← s.homeBytes_of_block p h, leNat_take, leNat_drop]
  apply BitVec.eq_of_toNat_eq
  have hblock : (s.blockAt p).toNat = leNat (s.homeBytes { p with loc := p.loc / 64 * 64 } 64) :=
    toNat_ofNat_leNat (by rw [State.homeBytes_length])
  rw [wordAt, hblock, Nat.shiftRight_eq_div_pow, Nat.pow_mul]
  simp

/-- A block of which no copy is held comes from its home. -/
theorem State.fetchBlock_home {s : State} {p : Phys} (hcopies : (s.claim p.loc p.kid).blockCopies (p.loc / 64) = [])
    (hclean : (s.claim p.loc p.kid).poisoned (p.loc / 64 * 64) 64 = false) :
    let v := s.claim p.loc p.kid
    s.fetchBlock p = (some (v.blockAt p),
      (v.touch [p.loc / 128] p.kid (fun _ => .age 0) false).keepBlock (p.loc / 64) (v.blockAt p) true) := by
  simp [State.fetchBlock, hcopies, hclean]

/-- A fetch that is translated forms its words from the block. -/
theorem State.fetchAt_formed {s t u v : State} {pc : W64} {x : Xlat} {blk : BitVec 512} {ws : List W32}
    (halign : pc.toNat % 4 = 0) (hready : s.fetchReady pc = (true, t))
    (hresolve : t.resolve t.scalarPlaces t.ctx .fetch pc = (.ok x, u)) (hblock : u.fetchBlock x.phys = (some blk, v))
    (hform : formWords blk 4 (pc.toNat % 64) 0 = .ok ws) : s.fetchAt pc = (.ok ws, v) := by
  simp [State.fetchAt, halign, hready, hresolve, hblock, hform]

theorem State.fetchConvoy_outside {s : State} (h : s.inBody = false) : s.fetchConvoy = s.fetchAt s.th.sc.pc := by
  simp [State.fetchConvoy, h]

/-- The word at the program counter is a convoy of one when its continue bit is 0. -/
theorem fetchConvoy_word {s t u : State} {x : Xlat} (hbody : s.inBody = false)
    (halign : s.th.sc.pc.toNat % 4 = 0) (hready : s.fetchReady s.th.sc.pc = (true, t))
    (hresolve : t.resolve t.scalarPlaces t.ctx .fetch s.th.sc.pc = (.ok x, u))
    (hoff : x.phys.loc % 64 = s.th.sc.pc.toNat % 64)
    (hclean : (u.claim x.phys.loc x.phys.kid).poisoned (x.phys.loc / 64 * 64) 64 = false)
    (hcopies : (u.claim x.phys.loc x.phys.kid).blockCopies (x.phys.loc / 64) = [])
    (hword : leNat ((u.claim x.phys.loc x.phys.kid).homeBytes x.phys 4) < 2 ^ 31) :
    let v := u.claim x.phys.loc x.phys.kid
    s.fetchConvoy = (.ok [BitVec.ofNat 32 (leNat (v.homeBytes x.phys 4))],
      (v.touch [x.phys.loc / 128] x.phys.kid (fun _ => .age 0) false).keepBlock (x.phys.loc / 64)
        (v.blockAt x.phys) true) := by
  intro v
  have hat : wordAt (v.blockAt x.phys) (s.th.sc.pc.toNat % 64) = BitVec.ofNat 32 (leNat (v.homeBytes x.phys 4)) := by
    rw [← hoff]
    exact wordAt_blockAt v x.phys (by omega)
  have hlast : (wordAt (v.blockAt x.phys) (s.th.sc.pc.toNat % 64)).getLsbD 31 = false := by
    rw [hat, BitVec.getLsbD_ofNat, Nat.testBit_lt_two_pow hword, Bool.and_false]
  rw [State.fetchConvoy_outside hbody, ← hat]
  exact State.fetchAt_formed halign hready hresolve (State.fetchBlock_home hcopies hclean) (formWords_last hlast)

/-! ### The thread's turn (R281, R397) -/

theorem step_unscheduled {s : State} (hsched : s.sched = []) (hclocks : s.hub.clocksOff = false) :
    step s = runThread s := by
  simp [step, hsched, runSlot, hclocks]

/-- With no stop landing and no wait, the convoy at the program counter runs. -/
theorem runThread_of_ready {s : State} (hrun : s.canRun = true) (hland : s.th.landing = none)
    (hwait : s.th.hw.wait = none) : runThread s = runAtPc s := by
  unfold runThread
  simp only [hrun, hland, hwait, ite_self, if_true, reduceCtorEq, if_false, Option.isSome_none, Bool.false_and,
    Bool.false_eq_true]
  cases runAtPc s <;> rfl

theorem decodeMember_of_decodeWord {w : W32} {i : Instr} (h : decodeWord w.toNat = .ok i) :
    decodeMember w = some i := by
  simp [decodeMember, h]

/-- A convoy of one is its instruction in the context of its word. -/
theorem issue_single (s : State) (i : Instr) (w : W32) :
    issue s [(i, w)] = afterIssue s.cur (exec i ((s.atIssue [(i, w)]).modCv (fun _ => singleCv i w))) := rfl

theorem State.endWait_of_not_waiting {s : State} (ended : Wait → Bool) (h : s.th.hw.wait = none) :
    s.endWait s.cur ended = s := by
  simp [State.endWait, h]

/-- A word that decodes, fetched without the loop buffer, is issued as a convoy of one. -/
theorem runAtPc_single {s u : State} {i : Instr} {w : W32} (happend : s.th.hw.append = none)
    (hbody : ((s.modCv (fun _ => Convoy.single)).modNest Nest.settle).needsBody = false)
    (hfetch : ((s.modCv (fun _ => Convoy.single)).modNest Nest.settle).fetchConvoy = (.ok [w], u))
    (hcut : u.th.hw.cut = []) (hwait : u.th.hw.wait = none) (hdecode : decodeWord w.toNat = .ok i) :
    runAtPc s = issue (u.modHw (fun h => { h with cut := [] })) [(i, w)] := by
  have hfill : ((s.modCv (fun _ => Convoy.single)).modNest Nest.settle).fillBody =
      (none, (s.modCv (fun _ => Convoy.single)).modNest Nest.settle) := by
    simp [State.fillBody, hbody]
  have hmembers : decodeMembers 0 [w] = .ok [(i, w)] := by
    simp [decodeMembers, decodeMember_of_decodeWord hdecode]
  have hbreach : convoyBreach u [(i, w)] = none := if_pos (Nat.le_refl 1)
  simp [runAtPc, happend, runFetched, hfill, hfetch, State.endWait_of_not_waiting _ hwait, hmembers, hbreach, hcut]

/-- Settles O45: a step is the thread's turn, its turn is the convoy at the program counter, and that is the word's
instruction. -/
theorem stepRunsTheDecodedInstruction : Obligations.StepRunsTheDecodedInstruction := by
  refine ⟨fun s u i w => ?thread, fun s t u x => ?word, fun s i r hsched hclocks => ?event,
    fun s n r hsched => ?turn⟩
  case thread =>
    intro s0 v hsched hclocks hrun hland hwait _ happend hbody hfetch hcut huwait hdecode
    rw [step_unscheduled hsched hclocks, runThread_of_ready hrun hland hwait,
      runAtPc_single happend hbody hfetch hcut huwait hdecode, issue_single]
  case word => exact fun hbody => fetchConvoy_word hbody
  case event => simp [step, hsched, runEvent, hclocks]
  case turn => simp [step, hsched]

end Sys2Proof.Machine
end

section
/-!
PROOF. Vector loads and stores (R165, R168 to R171): what the checks of their addresses leave, and how a load and a
store go on once every address is aligned, unlocked and translated.
-/

namespace Sys2Proof.Machine

open Sys2Proof

theorem exec_vld (c : Bool) (d a p : BitVec 5) (s : State) :
    exec (.vld c d a p) s = s.vload d a p [d] true s.unitFootprint s.unitOff := rfl
theorem exec_vlds (c : Bool) (d a b p : BitVec 5) (s : State) :
    exec (.vlds c d a b p) s = s.vload d a p [d] true (s.strideFootprint (s.rd b)) (strideOff (s.rd b)) := rfl
theorem exec_vldx (c : Bool) (d a b p : BitVec 5) (s : State) :
    exec (.vldx c d a b p) s = s.vload d a p [d, b] false s.indexFootprint (s.indexOff b) := rfl
theorem exec_vldff (d a p : BitVec 5) (s : State) : exec (.vldff d a p) s = execVldff d a p s := rfl
theorem exec_vst (c : Bool) (d a p : BitVec 5) (s : State) :
    exec (.vst c d a p) s = s.vstore d a p [d] true s.unitFootprint false s.unitOff := rfl
theorem exec_vsts (c : Bool) (d a b p : BitVec 5) (s : State) :
    exec (.vsts c d a b p) s =
      s.vstore d a p [d] true (s.strideFootprint (s.rd b)) false (strideOff (s.rd b)) := rfl
theorem exec_vstx (c : Bool) (d a b p : BitVec 5) (s : State) :
    exec (.vstx c d a b p) s = s.vstore d a p [d, b] false s.indexFootprint true (s.indexOff b) := rfl
theorem exec_vstxo (c : Bool) (d a b p : BitVec 5) (s : State) :
    exec (.vstxo c d a b p) s = s.vstore d a p [d, b] false s.indexFootprint false (s.indexOff b) := rfl

/-! ### The checks of R165 -/

/-- A computation in two parts succeeds when both do. -/
theorem M.bind_eq_ok {α β : Type} {x : M α} {f : α → M β} {s u : State} {b : β} :
    (x >>= f) s = (.ok b, u) ↔ ∃ a t, x s = (.ok a, t) ∧ f a t = (.ok b, u) := by
  rw [M.bind_run]
  constructor
  · intro h
    rcases hx : x s with ⟨e | a, t⟩ <;> rw [hx] at h
    · cases h
    · exact ⟨a, t, rfl, h⟩
  · rintro ⟨a, t, hx, hf⟩
    rw [hx]
    exact hf

/-- A computation that leaves the state alone and succeeds ends where it began. -/
theorem M.eq_of_state {α : Type} {x : M α} {s t : State} {a : α} (hx : (x s).2 = s) (h : x s = (.ok a, t)) :
    t = s := by
  rw [h] at hx
  exact hx

section Checks

variable {s u : State} {acc : Access} {n : Nat} {as now : List (Nat × W64)}

theorem alignElems_state (z : Nat) (as : List (Nat × W64)) (s : State) : (alignElems z as s).2 = s := by
  unfold alignElems
  cases as.find? (fun a => decide (a.2.toNat % z ≠ 0)) <;> rfl

theorem checkLock_state (va : W64) (n : Nat) (store : Bool) (s : State) : (checkLock va n store s).2 = s := by
  simp only [checkLock, M.get_bind]
  cases s.lockHitVa va n store <;> rfl

theorem checkHomeLock_state (acc : Access) (va : W64) (n : Nat) (s : State) : (checkHomeLock acc va n s).2 = s := by
  simp only [checkHomeLock, M.get_bind]
  split <;> rfl

theorem lockElems_state (n : Nat) (store : Bool) (as : List (Nat × W64)) (s : State) :
    (lockElems n store as s).2 = s := by
  induction as with
  | nil => rfl
  | cons a r ih =>
    exact M.bind_state (checkLock_state a.2 n store s) (fun _ =>
      M.bind_state (checkHomeLock_state _ a.2 n s) (fun _ => ih))

theorem checkLock_ok {va : W64} {store : Bool} (h : s.lockHitVa va n store = none) :
    checkLock va n store s = (.ok (), s) := by
  simp only [checkLock, M.get_bind, h]
  rfl

theorem checkHomeLock_ok {va : W64} (h : s.homeLocked acc va n = false) : checkHomeLock acc va n s = (.ok (), s) := by
  simp [checkHomeLock, M.get_bind, h]

/-- Elements that meet no lock, in a table or at their homes, pass. -/
theorem lockElems_ok {store : Bool} (h : as.all (fun x => (s.lockHitVa x.2 n store).isNone &&
      !s.homeLocked (if store then .store else .load) x.2 n) = true) :
    lockElems n store as s = (.ok (), s) := by
  induction as with
  | nil => rfl
  | cons a r ih =>
    rw [List.all_cons, Bool.and_eq_true] at h
    obtain ⟨ha, hr⟩ := h
    obtain ⟨htable, hhome⟩ : s.lockHitVa a.2 n store = none ∧
        s.homeLocked (if store then .store else .load) a.2 n = false := by simpa using ha
    simp only [lockElems]
    rw [M.bind_ok _ _ s s () (checkLock_ok htable), M.bind_ok _ _ s s () (checkHomeLock_ok hhome)]
    exact ih hr

/-- Elements that have been translated were aligned and unlocked, and the checks left the state alone. -/
theorem State.touched_parts {t : Touch} {store : Bool} (h : s.touched acc n as now = some (t, u))
    (hacc : decide (acc = .store) = store) :
    alignElems n as s = (.ok (), s) ∧ lockElems n store as s = (.ok (), s) ∧
      translateElems acc now n s = (.ok t, u) := by
  subst hacc
  unfold State.touched at h
  split at h
  · next hrun =>
    simp only [Option.some.injEq, Prod.mk.injEq] at h
    obtain ⟨rfl, rfl⟩ := h
    obtain ⟨_, _, halign, hrest⟩ := M.bind_eq_ok.mp hrun
    obtain rfl := M.eq_of_state (alignElems_state n as s) halign
    obtain ⟨_, _, hlock, htranslate⟩ := M.bind_eq_ok.mp hrest
    obtain rfl := M.eq_of_state (lockElems_state n _ as _) hlock
    exact ⟨halign, hlock, htranslate⟩
  · cases h

/-- An access that finds a place for every element passes its checks, and none of its translations faults. -/
theorem State.placesOf_parts {ps : List (Nat × W64 × Phys)} {store : Bool} (h : s.placesOf acc n as = some (ps, u))
    (hacc : decide (acc = .store) = store) :
    alignElems n as s = (.ok (), s) ∧ lockElems n store as s = (.ok (), s) ∧
      translateElems acc (s.short as) n s = (.ok { ok := ps, bad := [] }, u) := by
  unfold State.placesOf at h
  split at h
  · next t w htouched =>
    split at h
    · next hbad =>
      simp only [Option.some.injEq, Prod.mk.injEq] at h
      obtain ⟨rfl, rfl⟩ := h
      obtain ⟨halign, hlock, htranslate⟩ := State.touched_parts htouched hacc
      exact ⟨halign, hlock, by rw [htranslate, ← List.isEmpty_iff.mp hbad]⟩
    · cases h
  · cases h

/-- Without a faulted element nothing traps (R48). -/
@[simp] theorem elementFaults_nil (acc : Access) (s : State) : elementFaults acc [] s = (.ok (), s) := rfl

end Checks

/-- Bytes of clean places are read as the thread sees them. -/
theorem takeBytes_ok {s : State} {va : W64} {p : Phys} {n : Nat} (h : s.consumes p.loc n = false) :
    takeBytes va p n s = (.ok ((List.range n).map (fun k => s.readByte p.owner (p.loc + k))), s) := by
  simp [takeBytes, M.get_bind, h]

theorem readPlace_ok {s : State} {va : W64} {p : Phys} {n : Nat} (h : s.consumes p.loc n = false) :
    readPlace va p n s = (.ok (s.seen p n), s) := by
  simp only [readPlace]
  rw [M.bind_ok _ _ s s _ (takeBytes_ok h)]
  rfl

/-! ### Loads (R168) -/

section Loads

variable {s u v : State} {d a p : BitVec 5} {z fp : Nat} {ps : List (Nat × W64 × Phys)}

/-- Elements at clean places take the bytes that the thread sees there. -/
theorem loadPlaces_ok (hv : u.touchLines (ps.map (·.2.2)) (u.loadAlloc fp) false = v)
    (hclean : v.cleanAt z ps = true) : loadPlaces d z ps fp u = (.ok (), v.fill d z ps) := by
  simp only [loadPlaces, M.modify_bind]
  rw [hv, M.bind_ok _ _ v v _ (readPlaces_ok hclean)]
  rfl

theorem loadElems_ok {as : List (Nat × W64)} (hplaces : s.placesOf .load z as = some (ps, u))
    (hv : u.touchLines ((u.performed ps).map (·.2.2)) (u.loadAlloc fp) false = v)
    (hclean : v.cleanAt z (u.performed ps) = true) :
    loadElems d z as fp s = (.ok (), v.fill d z (u.performed ps)) := by
  obtain ⟨halign, hlock, htranslate⟩ := State.placesOf_parts (store := false) hplaces rfl
  simp only [loadElems]
  rw [M.bind_ok _ _ s s () halign, M.bind_ok _ _ s s () hlock, M.get_bind, M.bind_ok _ _ s u _ htranslate,
    M.get_bind, M.bind_ok _ _ u _ () (loadPlaces_ok hv hclean)]
  rfl

/-- A load whose addresses find clean places completes. -/
theorem State.vload_ok {regs : List (BitVec 5)} {sqOk : Bool} {off : Nat → W64}
    (htype : s.vecOk regs (fun t => sqOk || !t.sq) = true)
    (hplaces : s.placesOf .load s.vt.size (s.elemAddrs (s.rd a) p off) = some (ps, u))
    (hclean : (u.touchLines ((u.performed ps).map (·.2.2)) (u.loadAlloc fp) false).cleanAt s.vt.size
      (u.performed ps) = true) :
    s.vload d a p regs sqOk fp off =
      ((u.touchLines ((u.performed ps).map (·.2.2)) (u.loadAlloc fp) false).fill d s.vt.size
        (u.performed ps)).retires := by
  refine State.conclude_ok ?_
  rw [M.bind_ok _ _ s s _ (vectorChecks_ok htype)]
  exact loadElems_ok hplaces rfl hclean

section FirstFault

variable {t : Touch} (htype : s.vecOk [d] (fun _ => true) = true)
  (htouched : s.touched .load s.vt.size (s.elemAddrs (s.rd a) p s.unitOff)
    (s.elemAddrs (s.rd a) p s.unitOff) = some (t, u))
include htype htouched

theorem vldff_unfaulted (hbad : t.bad = [])
    (hv : u.touchLines (t.ok.map (·.2.2)) (u.loadAlloc s.unitFootprint) false = v)
    (hclean : v.cleanAt s.vt.size t.ok = true) :
    exec (.vldff d a p) s = (v.fill d s.vt.size t.ok).retires := by
  obtain ⟨halign, hlock, htranslate⟩ := State.touched_parts (store := false) htouched rfl
  rw [exec_vldff]
  refine State.conclude_ok ?_
  rw [M.bind_ok _ _ s s _ (vectorChecks_ok htype), M.bind_ok _ _ s s () halign, M.bind_ok _ _ s s () hlock,
    M.bind_ok _ _ s u t htranslate]
  simp only [hbad]
  exact loadPlaces_ok hv hclean

/-- R169: a fault of an element that is not the lowest active one trims vl. -/
theorem vldff_trims {f : Nat × W64 × XFault} {fs : List (Nat × W64 × XFault)} (hbad : t.bad = f :: fs)
    (hlowest : (s.elemAddrs (s.rd a) p s.unitOff).head?.map (·.1) ≠ some f.1)
    (hps : t.ok.filter (fun x => decide (x.1 < f.1)) = ps)
    (hv : u.touchLines (ps.map (·.2.2)) (u.loadAlloc s.unitFootprint) false = v)
    (hclean : v.cleanAt s.vt.size ps = true) :
    exec (.vldff d a p) s = ((v.fill d s.vt.size ps).setVl f.1).retires := by
  obtain ⟨halign, hlock, htranslate⟩ := State.touched_parts (store := false) htouched rfl
  rw [exec_vldff]
  refine State.conclude_ok ?_
  rw [M.bind_ok _ _ s s _ (vectorChecks_ok htype), M.bind_ok _ _ s s () halign, M.bind_ok _ _ s s () hlock,
    M.bind_ok _ _ s u t htranslate]
  simp only [hbad]
  rw [if_neg hlowest, hps, M.bind_ok _ _ u _ () (loadPlaces_ok hv hclean)]
  rfl

end FirstFault

end Loads

/-- Settles O16: the three forms are one load, and VLDFF is that load of the elements before the first fault. -/
theorem vectorLoads : Obligations.VectorLoads := by
  refine ⟨fun s u c d a b p ps => ⟨?unit, ?stride, ?index⟩,
    fun s u d a p t f fs htype htouched => ⟨?whole, ?trimmed⟩⟩
  case unit => exact State.vload_ok (sqOk := true)
  case stride => exact State.vload_ok (sqOk := true)
  case index => exact State.vload_ok (sqOk := false)
  case whole => exact fun hbad => vldff_unfaulted htype htouched hbad rfl
  case trimmed => exact fun hbad hlowest => vldff_trims htype htouched hbad hlowest rfl rfl

/-! ### Stores (R170, R171) -/

section Stores

variable {s u : State} {d a p : BitVec 5} {z fp : Nat} {ps : List (Nat × W64 × Phys)} {any : Bool}

theorem storeElems_ok {as : List (Nat × W64)} (hplaces : s.placesOf .store z as = some (ps, u))
    (hroom : u.roomAll (u.performed ps) = true) :
    storeElems d z as fp any s =
      (.ok (), u.pushEntries (u.elemWrites d z (u.performed ps)) (u.bigStore fp) any) := by
  obtain ⟨halign, hlock, htranslate⟩ := State.placesOf_parts (store := true) hplaces rfl
  simp only [storeElems]
  rw [M.bind_ok _ _ s s () halign, M.bind_ok _ _ s s () hlock, M.get_bind, M.bind_ok _ _ s u _ htranslate,
    M.get_bind, M.bind_ok _ _ u u () (storeRoom_ok hroom)]
  rfl

/-- A store whose addresses find places with room completes. -/
theorem State.vstore_ok {regs : List (BitVec 5)} {sqOk : Bool} {off : Nat → W64}
    (htype : s.vecOk regs (fun t => sqOk || !t.sq) = true)
    (hplaces : s.placesOf .store s.vt.size (s.elemAddrs (s.rd a) p off) = some (ps, u))
    (hroom : u.roomAll (u.performed ps) = true) :
    s.vstore d a p regs sqOk fp any off =
      (u.pushEntries (u.elemWrites d s.vt.size (u.performed ps)) (u.bigStore fp) any).retires := by
  refine State.conclude_ok ?_
  rw [M.bind_ok _ _ s s _ (vectorChecks_ok htype)]
  exact storeElems_ok hplaces hroom

end Stores

/-- Settles O17: the four forms are one store. -/
theorem vectorStores : Obligations.VectorStores := by
  refine fun s u c d a b p ps => ⟨?unit, ?stride, ?beatOrder, ?elementOrder⟩
  case unit => exact State.vstore_ok (sqOk := true)
  case stride => exact State.vstore_ok (sqOk := true)
  case beatOrder => exact State.vstore_ok (sqOk := false)
  case elementOrder => exact State.vstore_ok (sqOk := false)

end Sys2Proof.Machine
end

section
/-!
PROOF. Bit-plane transfers (R173 to R175): the checks of their bytes, the bytes that VLDBP reads and the entries that
VSTBP makes.
-/

namespace Sys2Proof.Machine

open Sys2Proof

theorem exec_vldbp (c : Bool) (d a b p : BitVec 5) (s : State) :
    exec (.vldbp c d a b p) s = execVldbp c d a b p s := rfl
theorem exec_vstbp (c : Bool) (d a b p : BitVec 5) (s : State) :
    exec (.vstbp c d a b p) s = execVstbp c d a b p s := rfl

/-! ### A list in order -/

section Order

variable {α : Type} {le : α → α → Bool}

theorem mem_insertBy {x y : α} {l : List α} : y ∈ insertBy le x l ↔ y = x ∨ y ∈ l := by
  induction l with
  | nil => simp [insertBy]
  | cons z r ih =>
    unfold insertBy
    split
    · simp
    · simp [ih, or_left_comm]

/-- A list in order has the same items. -/
@[simp] theorem mem_sortBy {y : α} {l : List α} : y ∈ sortBy le l ↔ y ∈ l := by
  induction l with
  | nil => rfl
  | cons x r ih => rw [show sortBy le (x :: r) = insertBy le x (sortBy le r) from rfl, mem_insertBy, ih, List.mem_cons]

theorem all_sortBy {f : α → Bool} {l : List α} : (sortBy le l).all f = l.all f := by
  rw [Bool.eq_iff_iff, List.all_eq_true, List.all_eq_true]
  simp

end Order

/-! ### Checks and reads -/

section Planes

variable {s u v : State} {c : Bool} {d a b p : BitVec 5} {t : Touch}

/-- An aligned base whose bytes meet no lock passes. -/
theorem planeChecks_ok {base : W64} {store : Bool} {bytes : List (Nat × W64)}
    (htype : s.vecOk [d] (fun t => (t.cls == 0 && t.sewE == 0) || t.sq) = true) (hb : s.vt.sq = true ∨ b = 0#5)
    (hbase : bytes = [] ∨ base.toNat % 64 = 0)
    (hfree : bytes.all (fun x => (s.lockHitVa x.2 1 store).isNone &&
      !s.homeLocked (if store then .store else .load) x.2 1) = true) :
    planeChecks d b base store bytes s = (.ok (), s) := by
  have hscale : (s.vt.sq || b == 0#5) = true := by simpa using hb
  simp only [planeChecks]
  rw [M.bind_ok _ _ s s _ (vectorChecks_ok htype), need_bind, if_pos hscale]
  by_cases hempty : bytes = []
  · simp [hempty]
  · rw [if_pos hempty, if_neg (not_not_intro (hbase.resolve_left hempty))]
    exact lockElems_ok (by rw [all_sortBy]; exact hfree)

/-- Clean bytes are read as the thread sees them. -/
theorem readBytesAt_ok {ps : List (Nat × W64 × Phys)} (hclean : s.cleanAt 1 ps = true) :
    readBytesAt ps s = (.ok (ps.map (fun x => (x.2.1, s.seen x.2.2 1))), s) := by
  induction ps with
  | nil => rfl
  | cons x r ih =>
    rw [State.cleanAt, List.all_cons, Bool.and_eq_true, Bool.not_eq_true'] at hclean
    obtain ⟨hx, hr⟩ := hclean
    simp only [readBytesAt]
    rw [M.bind_ok _ _ s s _ (readPlace_ok hx), M.bind_ok _ _ s s _ (ih hr)]
    rfl

/-! ### How the transfers end -/

/-- An element that is performed is not withheld (R401). -/
@[simp] theorem State.not_withheld_and_performs (e : Nat) :
    (!s.cv.withheld.getLsbD e && s.performs e) = s.performs e := by
  simp [State.performs]

section Transfers

variable (htype : s.vecOk [d] (fun t => (t.cls == 0 && t.sewE == 0) || t.sq) = true)
  (hb : s.vt.sq = true ∨ b = 0#5)
include htype hb

theorem vldbp_completes {bytes : List (Nat × W64)} {now : List (Nat × W64 × Phys)}
    (hbytes : s.planeBytes (s.rd a) (s.rd b) (s.vt.planes + 1) (s.wanted p) = bytes)
    (hbase : bytes = [] ∨ (s.rd a).toNat % 64 = 0)
    (hfree : bytes.all (fun x => (s.lockHitVa x.2 1 false).isNone && !s.homeLocked .load x.2 1) = true)
    (htranslate : translateElems .load (s.short bytes) 1 s = (.ok t, u)) (hbad : t.bad = [])
    (hnow : s.planesRead (s.rd b) t.ok ((s.wanted p).filter u.performs) = now)
    (hv : u.touchLines (now.map (·.2.2)) (u.loadAlloc u.vl) false = v) (hclean : v.cleanAt 1 now = true) :
    exec (.vldbp c d a b p) s = (((s.wanted p).filter u.performs).foldl (fun w e =>
      w.putPlanes d (s.rd a) (s.rd b) (now.map (fun x => (x.2.1, v.seen x.2.2 1))) e) v).retires := by
  subst hbytes
  rw [exec_vldbp]
  refine State.conclude_ok ?_
  rw [M.bind_ok _ _ s s _ (planeChecks_ok htype hb hbase hfree), M.get_bind, M.bind_ok _ _ s u _ htranslate, M.get_bind]
  simp only [hbad, List.any_nil, Bool.not_false, Bool.true_and, hnow, hv, M.set_bind]
  rw [M.bind_ok _ _ v v _ (readBytesAt_ok hclean)]
  rfl

theorem vstbp_completes {bytes : List (Nat × W64)}
    (hbytes : s.planeBytes (s.rd a) (s.rd b) 8 (s.wanted p) = bytes)
    (hbase : bytes = [] ∨ (s.rd a).toNat % 64 = 0)
    (hfree : bytes.all (fun x => (s.lockHitVa x.2 1 true).isNone && !s.homeLocked .store x.2 1) = true)
    (htranslate : translateElems .store (s.short bytes) 1 s = (.ok t, u)) (hbad : t.bad = [])
    (hroom : u.roomAll (t.ok.filter (fun y => !u.cv.withheld.getLsbD y.1)) = true) :
    exec (.vstbp c d a b p) s = (u.pushEntries (u.planeWrites d p (s.rd a) (s.rd b)
      (fun e => u.cv.withheld.getLsbD e) t.ok ((s.wanted p).filter u.performs)) (u.bigStore u.vl) false).retires := by
  subst hbytes
  rw [exec_vstbp]
  refine State.conclude_ok ?_
  rw [M.bind_ok _ _ s s _ (planeChecks_ok htype hb hbase hfree), M.get_bind, M.bind_ok _ _ s u _ htranslate, M.get_bind]
  simp only [hbad, List.any_nil, Bool.false_or, State.not_withheld_and_performs]
  rw [M.bind_ok _ _ u u _ (storeRoom_ok hroom)]
  rfl

end Transfers

end Planes

/-! ### The container and the entries (R174, R175) -/

section Entries

variable {s : State} {d p : BitVec 5} {base sc : W64} {held : Nat → Bool} {ok : List (Nat × W64 × Phys)}
  {now : List Nat}

/-- Under i8 there is no scale byte to write. -/
theorem putPlanes_i8 (got : List (W64 × Nat)) (e : Nat) (hsq : s.vt.sq = false) :
    s.putPlanes d base sc got e = s.putElem d e (planeContainer
      ((List.range (s.vt.planes + 1)).foldl (fun x j =>
        2 * x + (if (byteAt got (planeAddr base e j)).testBit (e % 8) then 1 else 0)) 0)
      (s.vt.planes + 1) s.vt.mid) := by
  simp [State.putPlanes, hsq]

/-- The write of one byte at a translated place. -/
def byteWrite (tag : Nat) (y : Nat × W64 × Phys) (x : Byte) : Write :=
  { beat := (tag, y.2.1.toNat / 64), kid := y.2.2.kid, bytes := [(y.2.2.loc, x)] }

/-- VSTBP writes the plane bytes of the elements and, under sq, the scale bytes of their blocks, each at its place. -/
theorem mem_planeWrites {w : Write} : w ∈ s.planeWrites d p base sc held ok now ↔
    (∃ e ∈ now, ∃ j < 8, ∃ y, ok.find? (fun y => y.2.1 == planeAddr base e j) = some y ∧
      byteWrite 0 y (s.planeByte d p held (e / 8 * 8) j) = w) ∨
    (∃ e ∈ now, s.vt.sq = true ∧ ∃ y, ok.find? (fun y => y.2.1 == sc + BitVec.ofNat 64 (blockOf e)) = some y ∧
      byteWrite 1 y (BitVec.ofNat 8 (s.scaleByte (d.toNat + e / s.per s.vt.gm) (e % s.per s.vt.gm / 63))) = w) := by
  simp only [State.planeWrites, List.mem_append, List.mem_map, mem_sortBy, List.mem_eraseDups, List.mem_flatMap,
    List.mem_filterMap, List.mem_range, Option.ite_none_right_eq_some, Option.map_eq_some_iff]
  constructor
  · rintro (⟨_, ⟨e, he, j, hj, y, hy, rfl⟩, hw⟩ | ⟨_, ⟨e, he, hsq, y, hy, rfl⟩, hw⟩)
    · exact .inl ⟨e, he, j, hj, y, hy, hw⟩
    · exact .inr ⟨e, he, hsq, y, hy, hw⟩
  · rintro (⟨e, he, j, hj, y, hy, hw⟩ | ⟨e, he, hsq, y, hy, hw⟩)
    · exact .inl ⟨_, ⟨e, he, j, hj, y, hy, rfl⟩, hw⟩
    · exact .inr ⟨_, ⟨e, he, hsq, y, hy, rfl⟩, hw⟩

/-- Every byte of the entries lies at a translated place. -/
theorem planeWrites_placed {w : Write} (hw : w ∈ s.planeWrites d p base sc held ok now) {x : Nat × Byte}
    (hx : x ∈ w.bytes) : ∃ y ∈ ok, x.1 = y.2.2.loc := by
  rcases mem_planeWrites.mp hw with ⟨e, -, j, -, y, hy, rfl⟩ | ⟨e, -, -, y, hy, rfl⟩ <;>
    exact ⟨y, List.mem_of_find?_eq_some hy, congrArg Prod.fst (List.mem_singleton.mp hx)⟩

/-- The entries hold each plane byte of an element at its place. -/
theorem planeWrites_holds {e j : Nat} {y : Nat × W64 × Phys} (he : e ∈ now) (hj : j < 8)
    (hy : ok.find? (fun y => y.2.1 == planeAddr base e j) = some y) :
    ∃ w ∈ s.planeWrites d p base sc held ok now, (y.2.2.loc, s.planeByte d p held (e / 8 * 8) j) ∈ w.bytes :=
  ⟨_, mem_planeWrites.mpr (.inl ⟨e, he, j, hj, y, hy, rfl⟩), List.mem_singleton_self _⟩

end Entries

/-- Settles O18: how each transfer ends, the container under i8, and what the entries of a store hold. -/
theorem planeTransfers : Obligations.PlaneTransfers := by
  refine ⟨fun s u c d a b p t htype hb => ?load, fun s u c d a b p t htype hb => ?store,
    fun s d base sc got e hsq => putPlanes_i8 got e hsq,
    fun s d p base sc held ok now => ⟨fun w hw x hx => planeWrites_placed hw hx,
      fun e he j hj y hy => planeWrites_holds he hj hy⟩⟩
  case load =>
    exact fun hbase hfree htranslate hbad hclean =>
      vldbp_completes htype hb rfl hbase hfree htranslate hbad rfl rfl hclean
  case store =>
    exact fun hbase hfree htranslate hbad hroom =>
      vstbp_completes htype hb rfl hbase hfree htranslate hbad hroom

end Sys2Proof.Machine
end

section
/-!
PROOF. Remote trains and append queues (R176 to R182): what a send leaves unchanged, how a committed append waits,
publishes and spawns, and how entries are reserved and taken.
-/

namespace Sys2Proof.Machine

open Sys2Proof

theorem exec_vscatr (d a b p : BitVec 5) (s : State) :
    exec (.vscatr d a b p) s = s.remote d p [d, b] (s.rd a) (s.indexOff b) := rfl
theorem exec_vputr (d a p : BitVec 5) (s : State) :
    exec (.vputr d a p) s = s.remote d p [d] (s.rd a) s.unitOff := rfl
theorem exec_vappend (a b p : BitVec 5) (s : State) : exec (.vappend a b p) s = execVappend a b p s := rfl
theorem exec_vqpop (d a : BitVec 5) (s : State) : exec (.vqpop d a) s = execVqpop d a s := rfl

/-! ### Trains (R176, R177) -/

/-- A send writes no byte: the elements leave in trains. -/
@[simp] theorem homeByte_sendTrains (s : State) (ts : List Train) (l : Nat) :
    (s.sendTrains ts).homeByte l = s.homeByte l := rfl

/-- The trains of some elements, in ascending order (R176). -/
def State.trainsOf (s : State) (d : BitVec 5) (z : Nat) (ps : List (Nat × W64 × Phys)) : List Train :=
  ps.foldl (fun ts x =>
    addToTrain ts (s.destOf x.2.2.loc) s.th.id.vf x.2.2.kid x.2.2.loc (s.laneOf x.1) (leBytes z (s.elem d x.1))) []

/-- A remote store whose addresses find places with room sends its trains; its buffer has drained first, unless no
element is sent. -/
theorem State.remote_ok {s u v : State} {d p : BitVec 5} {regs : List (BitVec 5)} {base : W64} {off : Nat → W64}
    {ps : List (Nat × W64 × Phys)} (htype : s.vecOk regs (fun t => !t.sq) = true)
    (hplaces : s.placesOf .store s.vt.size (s.elemAddrs base p off) = some (ps, u))
    (hdrain : ps = [] ∧ v = u ∨ ps ≠ [] ∧ u.bufHeld u.cur u.th.hw.buf = false ∧ v = u.drainAll)
    (hroom : v.roomAll (v.performed ps) = true) :
    s.remote d p regs base off = (v.sendTrains (v.trainsOf d s.vt.size (v.performed ps))).retires := by
  obtain ⟨halign, hlock, htranslate⟩ := State.placesOf_parts (store := true) hplaces rfl
  refine State.conclude_ok ?_
  rw [M.bind_ok _ _ s s _ (vectorChecks_ok htype), M.bind_ok _ _ s s () halign, M.bind_ok _ _ s s () hlock, M.get_bind,
    M.bind_ok _ _ s u _ htranslate]
  rcases hdrain with ⟨rfl, rfl⟩ | ⟨hps, hheld, rfl⟩
  · simp only [ne_eq, not_true_eq_false, if_false]
    rw [M.get_bind, M.bind_ok _ _ v v () (storeRoom_ok hroom)]
    rfl
  · simp only [if_pos hps]
    rw [M.bind_ok _ _ u _ () (drainBuffer_ok hheld), M.get_bind, M.bind_ok _ _ _ _ () (storeRoom_ok hroom)]
    rfl

/-! ### The end of a committed append (R181) -/

theorem twinGrants_ok {s : State} {va : W64} {p : Phys} (h : isTwin p.loc = false) :
    twinGrants va p s = (.ok (), s) := by
  simp [twinGrants, M.get_bind, h]

/-- The place of COMMIT in a queue's header (R180). -/
def Append.commitPlace (x : Append) : Phys := { x.place with loc := x.loc + 16 }

/-- The entries of a queue that are published and not yet taken. -/
def Queue.published (q : Queue) : Nat := (q.commit + 2 ^ 64 - q.head) % 2 ^ 64

/-- Publishing n entries takes a queue that has a spawn over its threshold (R181). -/
def Queue.crosses (q : Queue) (n : Nat) : Bool :=
  decide (q.spawn ≠ 0 ∧ q.published < q.thr ∧ q.thr ≤ q.published + n)

/-- The state in which a committed append has published COMMIT. -/
def State.publishAppend (s : State) (x : Append) : State :=
  s.endAppend.homeWrite x.commitPlace (leBytes 8 (x.first.toNat + x.count))

section Commit

variable {s t u w : State} {x : Append} {q : Queue}
  (hclaim : s.claim x.loc x.kid = t) (hqueue : t.appendQueue x = q) (hclean : t.poisoned x.loc 64 = false)
include hclaim hqueue hclean

/-- It waits until COMMIT reaches its first entry. -/
theorem commitAppend_waits (hcommit : q.commit ≠ x.first.toNat) :
    commitAppend x s = (.error (.wait .commit), t) := by
  simp only [commitAppend, M.modify_bind, hclaim]
  rw [M.get_bind, hqueue, hclean, if_neg Bool.false_ne_true, if_pos hcommit, M.bind_error _ _ t t _ (waitFor_run _ t)]

section Publish

variable (hcommit : q.commit = x.first.toNat) (htwin : isTwin (x.loc + 16) = false)
  (hwaits : homeWaits [(x.commitPlace, 8)] t = (.ok (), t))
include hcommit htwin hwaits

/-- Then it publishes COMMIT, and pf receives what found no room. -/
theorem commitAppend_publishes (hcrosses : q.crosses x.count = false) :
    commitAppend x s = (.ok (), (t.publishAppend x).setPred 95 x.rejected) := by
  simp only [commitAppend, M.modify_bind, hclaim]
  rw [M.get_bind, hqueue, hclean, if_neg Bool.false_ne_true, if_neg (not_not_intro hcommit)]
  refine (M.bind_ok _ _ t t () hwaits).trans ?_
  unfold Queue.crosses Queue.published at hcrosses
  rw [hcrosses, if_neg Bool.false_ne_true, M.pure_bind, M.modify_bind]
  refine (M.bind_ok _ _ _ _ () (twinGrants_ok htwin)).trans ?_
  rw [M.modify_bind, if_neg Bool.false_ne_true]
  rfl

/-- Where that crosses THR, the descriptor is translated before COMMIT moves, and its job is spawned after. -/
theorem commitAppend_spawns {y : Except XFault Phys} (hcrosses : q.crosses x.count = true)
    (hplace : spawnPlace (BitVec.ofNat 64 q.spawn) t = (.ok y, w))
    (hspawn : queueSpawn x.hdr (BitVec.ofNat 64 q.spawn) y (w.publishAppend x) = (.ok (), u)) :
    commitAppend x s = (.ok (), u.setPred 95 x.rejected) := by
  simp only [commitAppend, M.modify_bind, hclaim]
  rw [M.get_bind, hqueue, hclean, if_neg Bool.false_ne_true, if_neg (not_not_intro hcommit)]
  refine (M.bind_ok _ _ t t () hwaits).trans ?_
  unfold Queue.crosses Queue.published at hcrosses
  rw [hcrosses, if_pos rfl, M.bind_ok _ _ t w y hplace, M.modify_bind]
  refine (M.bind_ok _ _ _ _ () (twinGrants_ok htwin)).trans ?_
  rw [M.modify_bind, if_pos rfl]
  refine (M.bind_ok _ _ _ u () hspawn).trans ?_
  rfl

end Publish

end Commit

/-! ### The spawn of a queue (R181, R370) -/

section Spawn

variable {s t : State} {hdr desc : W64} {y : Phys}

/-- A descriptor that is misaligned is not read. -/
theorem spawnPlace_misaligned (h : desc.toNat % 128 ≠ 0) : spawnPlace desc s = (.ok (.error .perm), s) := by
  simp only [spawnPlace]
  rw [if_pos h]
  rfl

/-- The spawn is refused, and the refusal counted, where the descriptor may not be read. -/
theorem queueSpawn_unreadable {f : XFault} (hf : f ≠ .mac) :
    queueSpawn hdr desc (.error f) s =
      (.ok (), (s.countRefusal s.th.id.vf.toNat).wakeSlot (s.countRefusal s.th.id.vf.toNat).cur) := by
  cases f with
  | mac => exact absurd rfl hf
  | _ => rfl

variable (ht : s.touch [y.loc / 128] y.kid (fun _ => .age 0) false = t) (hclean : t.poisoned y.loc 128 = false)
include ht hclean

theorem queueSpawn_accepted (h : t.jobRefusal s.curPart s.th.id.vf.toNat (t.homeBytes y 128) = none) :
    queueSpawn hdr desc (.ok y) s = (.ok (), (t.acceptJob s.curPart s.th.id.vf.toNat (t.homeBytes y 128) t.th.id.job
      0xFFFF#16 (some hdr)).2.wakeSlot (t.acceptJob s.curPart s.th.id.vf.toNat (t.homeBytes y 128) t.th.id.job
        0xFFFF#16 (some hdr)).2.cur) := by
  simp only [queueSpawn]
  rw [M.get_bind, M.modify_bind, M.get_bind, ht, hclean, if_neg Bool.false_ne_true, M.get_bind, M.modify_bind, if_pos h]
  rfl

theorem queueSpawn_refused (h : t.jobRefusal s.curPart s.th.id.vf.toNat (t.homeBytes y 128) ≠ none) :
    queueSpawn hdr desc (.ok y) s =
      (.ok (), (t.countRefusal s.th.id.vf.toNat).wakeSlot (t.countRefusal s.th.id.vf.toNat).cur) := by
  simp only [queueSpawn]
  rw [M.get_bind, M.modify_bind, M.get_bind, ht, hclean, if_neg Bool.false_ne_true, M.get_bind, M.modify_bind, if_neg h]
  rfl

end Spawn

/-! ### VAPPEND (R181) -/

section Append

variable {s s1 s2 s3 s4 u : State} {a b p : BitVec 5} {x : Append}

/-- A reissue goes on where the append had committed to. -/
theorem vappend_resumes (happend : s.th.hw.append = some x) :
    exec (.vappend a b p) s = s.conclude (commitAppend x) := by
  simp only [exec_vappend, execVappend, happend]

variable (happend : s.th.hw.append = none) (hmode : s.th.sc.mode ≠ .S) (hvec : s.th.tr.absent = false)
include happend hmode hvec

theorem vappend_idle (hnone : s.actives p = []) : exec (.vappend a b p) s = s.retires := by
  rw [exec_vappend]
  refine State.conclude_ok ?_
  rw [happend]
  refine (M.bind_ok _ _ s s () (vectorGate_ok hmode hvec)).trans ?_
  rw [if_neg (not_not_intro hnone)]
  rfl

/-- The state in which an append has moved TAIL on, written its entries at their slots in element order and committed
to the rest. -/
def State.appendEntries (s : State) (x : Append) (tail : Nat) (slots : List Phys) (es : List Nat) (first : Nat) :
    State :=
  ((slots.zip es).foldl (fun t y => t.entryWrite y.1 (leBytes 4 (first + y.2)))
    (s.homeWrite { x.place with loc := x.loc + 8 } (leBytes 8 (tail + x.count)))).modHw
      (fun w => { w with append := some x })

/-- An append reserves room for the first of its active elements, writes their entries and commits to the rest. -/
theorem vappend_reserves {place : Phys} {q : Queue} {rp : List (List (W64 × Phys × Nat))} {m : Nat}
    {slots : List Phys} (hsome : s.actives p ≠ []) (hplace : queuePlace (s.rd a) s = (.ok place, s1))
    (hclear : s1.clear = true) (hdrain : s1.drainAll = s2) (hread : readQueue (s.rd a) place s2 = (.ok q, s3))
    (hcap : 0 < q.cap) (hlock : s3.lockHitVa (BitVec.ofNat 64 q.ring) (q.cap * 4) true = none)
    (hring : translateRing (BitVec.ofNat 64 q.ring) (q.cap * 4) s3 = (.ok rp, s4))
    (hm : min (s.actives p).length (q.cap - (q.tail + 2 ^ 64 - q.head) % 2 ^ 64) = m)
    (hslots : (List.range m).filterMap (fun i => s.ringPlace rp.flatten (q.entry ((q.tail + i) % 2 ^ 64))) = slots)
    (hwaits : homeWaits (({ place with loc := place.loc + 8 }, 8) :: slots.map (fun y => (y, 4))) s4 = (.ok (), s4))
    (hx : s.reservation (.vappend a b p) (s.rd a) place q m (maskOf ((s.actives p).drop m)) = x)
    (hcommit : commitAppend x (s4.appendEntries x q.tail slots (s.actives p) (s.rd b).toNat) = (.ok (), u)) :
    exec (.vappend a b p) s = u.retires := by
  subst hm hslots hx hdrain
  rw [exec_vappend]
  refine State.conclude_ok ?_
  rw [happend]
  refine (M.bind_ok _ _ s s () (vectorGate_ok hmode hvec)).trans ?_
  rw [if_pos hsome, M.bind_ok _ _ s s1 place hplace, M.bind_ok _ _ s1 _ () (release_ok hclear),
    M.bind_ok _ _ _ s3 q hread, if_pos (Nat.ne_of_gt hcap), M.bind_ok _ _ s3 s3 () (checkLock_ok hlock), if_neg (Nat.ne_of_gt hcap)]
  refine (M.bind_ok _ _ s3 s4 rp hring).trans ?_
  refine (M.bind_ok _ _ s4 s4 () hwaits).trans ?_
  rw [M.modify_bind]
  exact hcommit

end Append

/-! ### VQPOP (R182) -/

section Pop

variable {s s1 s2 s3 u v : State} {d a : BitVec 5}

/-- A clean header with an aligned ring is read. -/
theorem readQueue_ok {hdr : W64} {place : Phys} {q : Queue}
    (hu : s.touch [place.loc / 128] place.kid (fun _ => .age 0) false = u)
    (hq : queueOf ((List.range 64).map (fun k => u.readByte place.owner (place.loc + k))) = q)
    (hclean : u.consumes place.loc 64 = false) (hring : q.ring % 4 = 0) :
    readQueue hdr place s = (.ok q, u) := by
  simp only [readQueue, M.modify_bind]
  rw [hu, M.bind_ok _ _ u u _ (takeBytes_ok hclean), hq, if_neg (not_not_intro hring)]
  rfl

variable (htype : s.vecOk [d] (fun t => (t.cls == 0 || t.cls == 1) && t.sewE == 2) = true)
include htype

theorem vqpop_idle (hvl : s.vl = 0) : exec (.vqpop d a) s = (s.setVl 0).retires := by
  rw [exec_vqpop]
  refine State.conclude_ok ?_
  rw [M.bind_ok _ _ s s _ (vectorChecks_ok htype), if_pos hvl]
  rfl

/-- The elements take the published entries from HEAD on, at most vl of them. -/
theorem vqpop_pops {place : Phys} {q : Queue} {k : Nat} {as : List (Nat × W64)} {t : Touch} (hvl : s.vl ≠ 0)
    (hplace : queuePlace (s.rd a) s = (.ok place, s1)) (hread : readQueue (s.rd a) place s1 = (.ok q, s2))
    (hk : min s.vl q.published = k)
    (has : (List.range k).map (fun e => (e, q.entry ((q.head + e) % 2 ^ 64))) = as)
    (hfree : as.all (fun x => (s2.lockHitVa x.2 4 false).isNone && !s2.homeLocked .load x.2 4) = true)
    (htranslate : translateElems .load as 4 s2 = (.ok t, s3)) (hbad : t.bad = [])
    (hheld : s3.bufHeld s3.cur s3.th.hw.buf = false)
    (hwaits : homeWaits [(place, 8)] s3.drainAll = (.ok (), s3.drainAll))
    (hv : s3.drainAll.touchLines (t.ok.map (·.2.2)) (.age 0) false = v) (hclean : v.cleanAt 4 t.ok = true) :
    exec (.vqpop d a) s = (((v.fill d 4 t.ok).homeWrite place (leBytes 8 (q.head + k))).setVl k).retires := by
  unfold Queue.published at hk
  subst hk has
  rw [exec_vqpop]
  refine State.conclude_ok ?_
  rw [M.bind_ok _ _ s s _ (vectorChecks_ok htype), if_neg hvl, M.bind_ok _ _ s s1 place hplace,
    M.bind_ok _ _ s1 s2 q hread, M.bind_ok _ _ s2 s2 () (lockElems_ok hfree), M.bind_ok _ _ s2 s3 t htranslate]
  simp only [hbad, List.isEmpty_nil, if_true]
  rw [M.bind_ok _ _ s3 _ () (drainBuffer_ok hheld), M.bind_ok _ _ _ _ () hwaits, M.modify_bind, hv,
    M.bind_ok _ _ v v _ (readPlaces_ok hclean)]
  rfl

end Pop

/-- Settles O19: the send, the end of a committed append, its spawn, the reservation and the pop, one equation each. -/
theorem trainsAndQueues : Obligations.TrainsAndQueues := by
  refine ⟨⟨fun s u v d a b p ps => ⟨State.remote_ok, State.remote_ok⟩, homeByte_sendTrains⟩,
    fun s u d a b p x => ⟨vappend_idle, ?resumed, ?committed, fun hdr desc y => ?spawn, ?unreadable,
      fun desc => spawnPlace_misaligned, vqpop_idle⟩,
    fun s s1 s2 s3 s4 u d a b p place q => ⟨fun rp => ?reserved, fun t => ?popped, ?header⟩⟩
  case resumed =>
    intro happend hcommit
    rw [vappend_resumes happend]
    exact State.conclude_ok hcommit
  case committed =>
    intro happend t q place before v hclean
    refine ⟨fun hcommit => ?waits, fun hcommit htwin hwaits => ⟨fun hspawn => ?publishes,
      fun y w hset hbelow hover hplace hspawn => ?spawns⟩⟩
    case waits =>
      rw [vappend_resumes happend]
      exact State.conclude_wait (commitAppend_waits rfl rfl hclean hcommit)
    case publishes =>
      have hcrosses : q.crosses x.count = false := by
        have : before = q.published := rfl
        simp only [Queue.crosses, decide_eq_false_iff_not]
        omega
      rw [vappend_resumes happend]
      exact State.conclude_ok (commitAppend_publishes rfl rfl hclean hcommit htwin hwaits hcrosses)
    case spawns =>
      have hcrosses : q.crosses x.count = true := decide_eq_true ⟨hset, hbelow, hover⟩
      rw [vappend_resumes happend]
      exact State.conclude_ok (commitAppend_spawns rfl rfl hclean hcommit htwin hwaits hcrosses hplace hspawn)
  case spawn => exact fun hclean => ⟨queueSpawn_accepted rfl hclean, queueSpawn_refused rfl hclean⟩
  case unreadable => exact fun hdr desc f hf => queueSpawn_unreadable hf
  case reserved =>
    exact fun happend hmode hvec hsome hplace hclear hdrain hread hcap hlock hring hwaits hcommit =>
      vappend_reserves happend hmode hvec hsome hplace hclear hdrain hread hcap hlock hring rfl rfl hwaits rfl hcommit
  case popped =>
    exact fun htype hvl hplace hread hfree htranslate hbad hheld hwaits hclean =>
      vqpop_pops htype hvl hplace hread rfl rfl hfree htranslate hbad hheld hwaits rfl hclean
  case header => exact fun hclean hring => readQueue_ok rfl rfl hclean hring

end Sys2Proof.Machine
end

section
/-!
PROOF. Integer arithmetic, fixed point, floating point and compares (R187 to R196): each instruction is the
element-wise form of R185 with the stated result for each element.
-/

namespace Sys2Proof.Machine

open Sys2Proof

/-- An element-wise instruction whose checks pass, with the result of each element given. -/
theorem State.elemWise_next {s : State} {types : Vt → Bool} {d a p : BitVec 5} {more : List (BitVec 5)}
    {f : State → Vt → Nat → Res} {r : Nat → Out} (h : s.vecOk (d :: a :: more) types = true)
    (hr : ∀ e, f s s.vt e = s.vt.res (r e)) : s.elemWise types d a p more f = s.elemNext d a p r := by
  rw [State.elemWise_ok h, funext hr]
  rfl

/-! ### Integers (R187) -/

section Wraps

variable (t : Vt) (x y k : Nat)

theorem Vt.wrap_mulhn : t.wrap (shrI (x * y) k) = { val := lowN t.sew (x * y / 2 ^ k : Nat), ev := 0 } := by
  rw [Vt.wrap, shrI, ← Int.natCast_mul, ← Int.natCast_ediv]

theorem Vt.wrap_sll : t.wrap (x * (2 ^ k : Nat)) = { val := lowN t.sew (x * 2 ^ k : Nat), ev := 0 } := by
  rw [Vt.wrap, ← Int.natCast_mul]

theorem Vt.wrap_srl : t.wrap (shrI x k) = { val := lowN t.sew (x / 2 ^ k : Nat), ev := 0 } := by
  rw [Vt.wrap, shrI, ← Int.natCast_ediv]

theorem Vt.wrap_minn : t.wrap (min x y : Int) = { val := lowN t.sew (min x y : Nat), ev := 0 } := by
  have hcast : (min x y : Int) = (min x y : Nat) := by omega
  rw [Vt.wrap, hcast]

theorem Vt.wrap_maxn : t.wrap (max x y : Int) = { val := lowN t.sew (max x y : Nat), ev := 0 } := by
  have hcast : (max x y : Int) = (max x y : Nat) := by omega
  rw [Vt.wrap, hcast]

end Wraps

/-- Settles O20: each form is element-wise; where the model computes on integers what the statement computes on
unsigned numbers, the two wrap to the same bits. -/
theorem vectorInteger : Obligations.VectorInteger := by
  refine ⟨fun s c d a b p => ⟨?_, ?_, ?_, ?_, ?_, ?_, ?_, ?_⟩,
    fun s c d a b p => ⟨?_, ?_, ?mulhn, ?mulhnVs, ?sll, ?sllVs, ?srl, ?srlVs, ?_, ?_⟩,
    fun s c d a b p => ⟨?_, ?_, ?_, ?_, ?minn, ?minnVs, ?maxn, ?maxnVs, ?_, ?_, ?_, ?_, ?_, ?_⟩⟩
  case mulhn | mulhnVs => exact fun h => State.elemWise_next h fun e => congrArg s.vt.res (s.vt.wrap_mulhn _ _ _)
  case sll | sllVs => exact fun h => State.elemWise_next h fun e => congrArg s.vt.res (s.vt.wrap_sll _ _)
  case srl | srlVs => exact fun h => State.elemWise_next h fun e => congrArg s.vt.res (s.vt.wrap_srl _ _)
  case minn | minnVs => exact fun h => State.elemWise_next h fun e => congrArg s.vt.res (s.vt.wrap_minn _ _)
  case maxn | maxnVs => exact fun h => State.elemWise_next h fun e => congrArg s.vt.res (s.vt.wrap_maxn _ _)
  all_goals exact fun h => State.elemWise_next h fun e => rfl

/-! ### Fixed point (R190 to R193) -/

/-- Settles O22: each form is element-wise, VHEAD with headroom of its sources and not of its results. -/
theorem fixedPoint : Obligations.FixedPoint := by
  refine fun s c d a b p => ⟨?_, ?_, ?_, ?_, ?_, ?_, ?_, ?_, ?_, ?_, ?_, ?_, ?active, ?idle⟩
  case active =>
    exact fun h hactive => (State.elemWise_ok h).trans (by rw [hactive, if_neg Bool.false_ne_true])
  case idle =>
    exact fun h hidle => (State.elemWise_ok h).trans (by rw [hidle, if_pos rfl])
  all_goals exact fun h => State.elemWise_next h fun e => rfl

/-! ### Floating point (R194 to R196) -/

/-- Settles O23: each form, of one, two or three sources, is element-wise. -/
theorem floatingPoint : Obligations.FloatingPoint := by
  intro s c d a b p
  and_intros
  all_goals exact fun h => State.elemWise_next h fun e => rfl

/-! ### Compares (R188, R189) -/

section Compare

variable {s : State} {d a p : BitVec 5} {y : Src} {cond : Nat}

theorem raisedOf_quiet {l : List (Nat × Nat)} (h : ∀ r ∈ l, r.2 = 0) : raisedOf l = 0 := by
  induction l with
  | nil => rfl
  | cons r l ih =>
    obtain ⟨hr, hl⟩ := List.forall_mem_cons.mp h
    simpa [raisedOf, hr] using ih hl

/-- Elements that raise nothing leave the flags alone (R132). -/
theorem State.mergeFlags_quiet (s : State) {l : List (Nat × Nat)} (h : ∀ r ∈ l, r.2 = 0) : s.mergeFlags l = s :=
  if_pos (raisedOf_quiet h)

/-- A compare whose checks pass writes its predicate and merges what its elements raise. -/
theorem State.compare_ok (h : s.vecOk (a :: y.regs) (cmpTypes cond) = true) :
    s.compare cond d a y p =
      ((s.writePred (s.predNo d) ((s.todo p).map (fun e =>
        (e, (cmpHolds cond s.vt (s.elem a e) (s.src y e)).1)))).mergeFlags ((s.todo p).map (fun e =>
        (e, (cmpHolds cond s.vt (s.elem a e) (s.src y e)).2)))).retires := by
  refine State.conclude_ok ?_
  rw [M.bind_ok _ _ s s _ (vectorChecks_ok h)]
  simp only [M.modify_run, List.map_map]
  rfl

/-- A compare whose condition raises nothing. -/
theorem State.compare_quiet {r : Nat → Bool} (h : s.vecOk (a :: y.regs) (cmpTypes cond) = true)
    (hr : ∀ e, cmpHolds cond s.vt (s.elem a e) (s.src y e) = (r e, 0)) :
    s.compare cond d a y p = (s.writePred (s.predNo d) ((s.todo p).map (fun e => (e, r e)))).retires := by
  rw [State.compare_ok h, State.mergeFlags_quiet]
  · simp only [hr]
  · simp [hr]

end Compare

/-- Settles O21: every condition is one compare, and conditions 0 to 9 raise nothing. -/
theorem vectorCompare : Obligations.VectorCompare := by
  refine fun s c d a b p => ⟨?_, ?_, ?_, ?_, ?_, ?_, ?_, ?_, ?_, ?_, ?every,
    ?_, ?_, ?_, ?_, ?_, ?_, ?_, ?_, ?_, ?_, ?everyVs⟩
  case every => exact fun k h => State.compare_ok (y := .vec b) h
  case everyVs => exact fun k h => State.compare_ok (y := .sca b) h
  all_goals exact fun h => State.compare_quiet h fun e => rfl

end Sys2Proof.Machine
end

section
/-!
PROOF. Conversions, moves, selection and reductions (R197 to R209): how the instructions that are not element-wise go
on once their checks pass, and the statements about them.
-/

namespace Sys2Proof.Machine

open Sys2Proof

theorem exec_vcompr (c : Bool) (d a p : BitVec 5) (s : State) :
    exec (.vcompr c d a p) s = execVcompr c d a p s := rfl
theorem exec_vexpnd (c : Bool) (d a p : BitVec 5) (s : State) :
    exec (.vexpnd c d a p) s = execVexpnd c d a p s := rfl
theorem exec_vslideup (c : Bool) (d a b p : BitVec 5) (s : State) :
    exec (.vslideup c d a b p) s = execVslideup c d a b p s := rfl
theorem exec_vslidedn (c : Bool) (d a b p : BitVec 5) (s : State) :
    exec (.vslidedn c d a b p) s = execVslidedn c d a b p s := rfl
theorem exec_vrev (c : Bool) (d a p : BitVec 5) (s : State) : exec (.vrev c d a p) s = execVrev c d a p s := rfl
theorem exec_vred (c : Bool) (d a : BitVec 5) (sd : BitVec 1) (o : BitVec 3) (p : BitVec 5) (s : State) :
    exec (.vred c d a sd o p) s = execVred c d a sd o p s := rfl
theorem exec_vfred (c : Bool) (d a : BitVec 5) (sd : BitVec 1) (o : BitVec 3) (p : BitVec 5) (s : State) :
    exec (.vfred c d a sd o p) s = execVfred c d a sd o p s := rfl
theorem exec_vcred (c : Bool) (d a : BitVec 5) (sd : BitVec 1) (o : BitVec 3) (p : BitVec 5) (s : State) :
    exec (.vcred c d a sd o p) s = execVcred c d a sd o p s := rfl

/-- Vector checks that pass leave one change of the state to be made. -/
theorem State.conclude_checks {s : State} {regs : List (BitVec 5)} {types : Vt → Bool} {g : Vt → State → State}
    (h : s.vecOk regs types = true) :
    s.conclude (do
      let t ← vectorChecks regs types
      modify (g t)) = (g s.vt s).retires := by
  refine State.conclude_ok ?_
  rw [M.bind_ok _ _ s s _ (vectorChecks_ok h)]
  rfl

/-! ### Conversions and moves (R197 to R201) -/

section Moves

variable {s : State} {c : Bool} {d a b : BitVec 5}

theorem vmovx_ok (h : s.vecOk [a] (fun _ => true) = true) {x : W64} (hx : s.movedOut a b = x) :
    exec (.vmovx c d a b) s = (s.wrLate d x).retires := by
  subst hx
  exact State.conclude_checks h

/-- The bits of an element within vl, with its sign where the class has one. -/
theorem State.movedOut_within (hi : (s.rd b).toNat < s.vl) :
    s.movedOut a b = if s.vt.isIn [0, 2, 6] then BitVec.ofInt 64 (sextN s.vt.sew (s.elem a (s.rd b).toNat))
      else BitVec.ofNat 64 (s.elem a (s.rd b).toNat) :=
  if_pos hi

theorem State.movedOut_beyond (hi : s.vl ≤ (s.rd b).toNat) : s.movedOut a b = 0 :=
  if_neg (Nat.not_lt.mpr hi)

theorem vins_ok (h : s.vecOk [d] (fun _ => true) = true) :
    exec (.vins c d a b) s =
      (if (s.rd b).toNat < s.vl ∧ s.performs (s.rd b).toNat ∧ ¬ s.done (s.rd b).toNat then
        s.writeElems d [((s.rd b).toNat, s.vt.res { val := lowN s.vt.sew (s.scalarElem a : Nat), ev := 0 })]
      else s).retires :=
  State.conclude_checks h

end Moves

/-- Settles O25: three conversions, five element-wise forms, the broadcast, and VMOVX and VINS on either side of vl. -/
theorem conversionsAndMoves : Obligations.ConversionsAndMoves := by
  refine ⟨fun s c d a p k => ⟨fun h hg hc => ?same, fun h hg hw hc hm => ?widen, fun h hg hn hc hm => ?narrow⟩,
    fun s c d a b p => ⟨?abs, ?neg, ?clz, ?popc, ?mov, fun h => ?movs, fun h hi hsigned => ?signed,
      fun h hi hbits => ?bits, fun h hi => ?beyond, fun h hi hp hd => ?inserted, fun h hi => ?outside⟩⟩
  case same => exact State.conv_ok (far := false) (src := fun t => some (codeType k t.sewE)) h hg rfl hc rfl
  case widen => exact State.conv_ok h hg (if_neg hw) hc hm
  case narrow => exact State.conv_ok h hg (if_neg hn) hc hm
  case movs => exact State.conclude_checks h
  case signed => exact vmovx_ok h ((State.movedOut_within hi).trans (if_pos hsigned))
  case bits => exact vmovx_ok h ((State.movedOut_within hi).trans (if_neg (ne_true_of_eq_false hbits)))
  case beyond => exact vmovx_ok h (State.movedOut_beyond hi)
  case inserted => rw [vins_ok h, if_pos ⟨hi, hp, ne_true_of_eq_false hd⟩]
  case outside => rw [vins_ok h, if_neg (fun hin => Nat.not_lt.mpr hi hin.1)]
  case abs | neg | clz | popc | mov => exact fun h => State.elemWise_next h fun e => rfl

/-! ### Select, compress, expand, slide and reverse (R202, R203) -/

/-- A move of whole registers lying apart, without a span, in a whole pass. -/
theorem State.moveWhole_ok {s : State} {d a p : BitVec 5} {f : State → List Nat → List (Nat × Nat)}
    {l : List (Nat × Nat)} (h : s.vecOk [d, a] (fun t => !t.sq) = true)
    (happart : rangesMeet d.toNat s.vt.gm a.toNat s.vt.gm = false) (hspan : s.th.held.remote = 0#4)
    (hwhole : s.wholePass = true) (hl : f s (s.selected p) = l) :
    s.moveWhole d a p f = (s.writeElems d (l.map (fun r =>
      (r.1, s.vt.res { val := lowN s.vt.sew (r.2 : Nat), ev := 0 })))).retires := by
  subst hl
  refine State.conclude_ok ?_
  rw [M.bind_ok _ _ s s _ (vectorChecks_ok h), M.get_bind, need_bind, if_pos (by simp [happart, hspan]), M.get_bind,
    M.ite_run, if_pos hwhole]
  rfl

/-- Settles O26: VSEL is element-wise under the predicate that means all; the others are one move each. -/
theorem selectAndMove : Obligations.SelectAndMove := by
  refine fun s c d a b p => ⟨?select, fun h happart hspan hwhole => ?compress,
    fun h happart hspan hwhole => ?expand, fun h happart hspan hwhole => ?slideUp,
    fun h happart hspan hwhole => ?slideDown, fun h happart hspan hwhole => ?reverse⟩
  case select =>
    intro h
    refine State.elemWise_next h fun e => congrArg (fun x : Int => s.vt.res (s.vt.wrap x)) ?_
    split <;> rfl
  case compress => rw [exec_vcompr]; exact State.moveWhole_ok h happart hspan hwhole rfl
  case expand => rw [exec_vexpnd]; exact State.moveWhole_ok h happart hspan hwhole rfl
  case slideUp => rw [exec_vslideup]; exact State.moveWhole_ok h happart hspan hwhole rfl
  case slideDown => rw [exec_vslidedn]; exact State.moveWhole_ok h happart hspan hwhole rfl
  case reverse => rw [exec_vrev]; exact State.moveWhole_ok h happart hspan hwhole rfl

/-! ### Reductions (R204 to R207) -/

section Reduce

variable {s : State} {types : Vt → Bool} {ops : Nat} {d a p : BitVec 5} {sd : BitVec 1} {o : BitVec 3}
  {f : State → Vt → List Nat → Option Nat → Nat × List (Nat × Nat)}
  (h : s.vecOk [d, a] types = true) (ho : o.toNat < ops)
include h ho

/-- A reduction in a whole pass writes element 0, merges its classes and folds its headroom. -/
theorem State.reduce_ok (hwhole : s.wholePass = true) (hvl : s.vl ≠ 0) {r : Nat × List (Nat × Nat)}
    (hr : f s s.vt (s.selected p) (if sd = 1#1 then some (s.elem d 0) else none) = r) :
    s.reduce types ops d a sd o p f =
      (((s.putElem d 0 r.1).mergeFlags r.2).foldHead (s.vt.headsOf r.1)).retires := by
  subst hr
  refine State.conclude_ok ?_
  rw [M.bind_ok _ _ s s _ (vectorChecks_ok h), need_bind, if_pos (decide_eq_true ho), M.get_bind, M.get_bind,
    M.ite_run, if_pos ⟨hwhole, hvl⟩]
  rfl

/-- A reduction with vl = 0 writes nothing (R209). -/
theorem State.reduce_empty (hvl : s.vl = 0) : s.reduce types ops d a sd o p f = s.retires := by
  refine State.conclude_ok ?_
  rw [M.bind_ok _ _ s s _ (vectorChecks_ok h), need_bind, if_pos (decide_eq_true ho), M.get_bind, M.get_bind,
    M.ite_run, if_neg (fun hc => hc.2 hvl)]
  rfl

end Reduce

/-- Checks that pass pass under a wider condition on the type. -/
theorem State.vecOk_mono {s : State} {regs : List (BitVec 5)} {types wider : Vt → Bool}
    (h : s.vecOk regs types = true) (hw : types s.vt = true → wider s.vt = true) :
    s.vecOk regs wider = true ∧ types s.vt = true := by
  simp only [State.vecOk, Bool.and_eq_true] at h ⊢
  obtain ⟨hregs, htype⟩ := h
  exact ⟨⟨hregs, hw htype⟩, htype⟩

/-- VCRED's checks under one of its two classes. -/
theorem State.vecOk_complex {s : State} {d a : BitVec 5} {n : Nat} (hn : n = 4 ∨ n = 5)
    (h : s.vecOk [d, a] (fun t => t.cls == n) = true) :
    s.vecOk [d, a] (Vt.isIn [4, 5]) = true ∧ s.vt.cls = n := by
  obtain ⟨hok, hcls⟩ := State.vecOk_mono h (wider := Vt.isIn [4, 5]) fun hcls => by
    simpa [Vt.isIn, eq_of_beq hcls] using hn
  exact ⟨hok, eq_of_beq hcls⟩

/-- Settles O27: each reduction is the common form, VCRED with the operation of its class. -/
theorem reductions : Obligations.Reductions := by
  refine fun s c d a p => ⟨fun o sd h hwhole hvl => ?red, fun o sd h ho hwhole hvl => ?fred,
    fun o sd h ho hwhole hvl => ?floatCred, fun o sd h ho hwhole hvl => ?intCred, fun o sd h hvl => ?redEmpty,
    fun o sd h ho hvl => ?fredEmpty, fun o sd h ho hvl => ?credEmpty⟩
  case red => rw [exec_vred]; exact State.reduce_ok h (ops := 8) o.isLt hwhole hvl rfl
  case fred => rw [exec_vfred]; exact State.reduce_ok h ho hwhole hvl rfl
  case floatCred =>
    obtain ⟨hok, hcls⟩ := State.vecOk_complex (.inr rfl) h
    rw [exec_vcred]
    exact State.reduce_ok hok (by simp [ho]) hwhole hvl (if_neg (by simp [hcls]))
  case intCred =>
    obtain ⟨hok, hcls⟩ := State.vecOk_complex (.inl rfl) h
    rw [exec_vcred]
    exact State.reduce_ok hok (by simp [ho]) hwhole hvl (if_pos hcls)
  case redEmpty => rw [exec_vred]; exact State.reduce_empty h (ops := 8) o.isLt hvl
  case fredEmpty => rw [exec_vfred]; exact State.reduce_empty h ho hvl
  case credEmpty => rw [exec_vcred]; exact State.reduce_empty h (by simp [ho]) hvl

end Sys2Proof.Machine
end

section
/-!
PROOF. Writes of elements (R9, R99, R100, R126, R185): bits replaced in a register are read back and leave the others,
the elements of a group lie apart from one another within its registers, and the statement about element-wise results.
-/

namespace Sys2Proof.Machine

open Sys2Proof

/-! ### Bits of a register -/

section Bits

variable {n lo w : Nat} (x : BitVec n) (v : Nat)

/-- A bit string with a field replaced, as a number: the bits above it, the new field and the bits below. -/
theorem spliceAt_toNat (h : lo + w ≤ n) :
    (spliceAt w x lo v).toNat = 2 ^ lo * (2 ^ w * (x.toNat / 2 ^ lo / 2 ^ w) + v % 2 ^ w) + x.toNat % 2 ^ lo := by
  have hfield := Nat.div_add_mod (x.toNat / 2 ^ lo) (2 ^ w)
  have hbelow := Nat.div_add_mod x.toNat (2 ^ lo)
  have htop : x.toNat / 2 ^ lo / 2 ^ w < 2 ^ (n - (lo + w)) := by
    rw [Nat.div_div_eq_div_mul, ← Nat.pow_add, Nat.div_lt_iff_lt_mul (Nat.two_pow_pos _), ← Nat.pow_add]
    exact lt_of_lt_of_eq x.isLt (by congr 1; omega)
  have hn : 2 ^ lo * (2 ^ w * 2 ^ (n - (lo + w))) = 2 ^ n := by
    rw [← Nat.pow_add, ← Nat.pow_add]; congr 1; omega
  have hnew := Nat.mod_lt v (Nat.two_pow_pos w)
  have hlow := Nat.mod_lt x.toNat (Nat.two_pow_pos lo)
  simp only [spliceAt, BitVec.toNat_ofNat, Nat.shiftLeft_eq, Nat.shiftRight_eq_div_pow]
  generalize x.toNat / 2 ^ lo / 2 ^ w = top at *
  generalize x.toNat / 2 ^ lo % 2 ^ w = old at *
  generalize v % 2 ^ w = new at *
  generalize x.toNat % 2 ^ lo = low at *
  have hsum : x.toNat - old * 2 ^ lo + new * 2 ^ lo = 2 ^ lo * (2 ^ w * top + new) + low := by
    rw [← hbelow, ← hfield, Nat.mul_add, Nat.mul_add, Nat.mul_comm old, Nat.mul_comm new]
    omega
  rw [hsum, Nat.mod_eq_of_lt]
  calc 2 ^ lo * (2 ^ w * top + new) + low
      < 2 ^ lo * (2 ^ w * top + new + 1) := by rw [Nat.mul_add (2 ^ lo) _ 1]; omega
    _ ≤ 2 ^ lo * (2 ^ w * (top + 1)) := Nat.mul_le_mul_left _ (by rw [Nat.mul_add]; omega)
    _ ≤ 2 ^ lo * (2 ^ w * 2 ^ (n - (lo + w))) := Nat.mul_le_mul_left _ (Nat.mul_le_mul_left _ htop)
    _ = 2 ^ n := hn

theorem sliceAt_spliceAt_same (h : lo + w ≤ n) : sliceAt w (spliceAt w x lo v) lo = v % 2 ^ w := by
  rw [sliceAt, spliceAt_toNat x v h, Nat.shiftRight_eq_div_pow, Nat.mul_add_div (Nat.two_pow_pos lo),
    Nat.div_eq_of_lt (Nat.mod_lt _ (Nat.two_pow_pos lo)), Nat.add_zero, Nat.mul_add_mod, Nat.mod_mod]

/-- A field above or below the one replaced. -/
theorem sliceAt_spliceAt_apart {p k : Nat} (h : lo + w ≤ n) (hp : lo + w ≤ p ∨ p + k ≤ lo) :
    sliceAt k (spliceAt w x lo v) p = sliceAt k x p := by
  simp only [sliceAt, Nat.shiftRight_eq_div_pow]
  rcases hp with habove | hbelow
  · have hp : 2 ^ p = 2 ^ lo * 2 ^ w * 2 ^ (p - (lo + w)) := by
      rw [← Nat.pow_add, ← Nat.pow_add]; congr 1; omega
    rw [hp, ← Nat.div_div_eq_div_mul, ← Nat.div_div_eq_div_mul, ← Nat.div_div_eq_div_mul (m := x.toNat),
      ← Nat.div_div_eq_div_mul (m := x.toNat), spliceAt_toNat x v h, Nat.mul_add_div (Nat.two_pow_pos lo),
      Nat.div_eq_of_lt (Nat.mod_lt _ (Nat.two_pow_pos lo)), Nat.add_zero, Nat.mul_add_div (Nat.two_pow_pos w),
      Nat.div_eq_of_lt (Nat.mod_lt v (Nat.two_pow_pos w)), Nat.add_zero]
  · have hlow : (spliceAt w x lo v).toNat % 2 ^ lo = x.toNat % 2 ^ lo := by
      rw [spliceAt_toNat x v h, Nat.mul_add_mod, Nat.mod_mod]
    have hdvd : 2 ^ p * 2 ^ k ∣ 2 ^ lo := by
      rw [← Nat.pow_add]
      exact Nat.pow_dvd_pow 2 hbelow
    rw [← Nat.mod_mul_right_div_self, ← Nat.mod_mul_right_div_self (m := x.toNat), ← Nat.mod_mod_of_dvd _ hdvd, hlow,
      Nat.mod_mod_of_dvd _ hdvd]

end Bits

section Registers

variable {r pos w x r' pos' w' : Nat} (s : State)

theorem State.regBits_putBits_same (h : pos + w ≤ 131072) : (s.putBits r pos w x).regBits r pos w = x % 2 ^ w := by
  simp only [State.regBits, State.putBits, State.modTr_vec, State.modVec_vec, tget_tset_same]
  exact sliceAt_spliceAt_same _ _ h

/-- Bits of another register, or of the same at another place. -/
theorem State.regBits_putBits_apart (h : pos + w ≤ 131072) (hr : r' = r → pos + w ≤ pos' ∨ pos' + w' ≤ pos) :
    (s.putBits r pos w x).regBits r' pos' w' = s.regBits r' pos' w' := by
  simp only [State.regBits, State.putBits, State.modTr_vec, State.modVec_vec, tget_tset]
  split
  · next heq => subst heq; exact sliceAt_spliceAt_apart _ _ h (hr rfl)
  · rfl

end Registers

/-! ### Places of elements (R99, R100, R126) -/

section Shape

/-- The element widths of R104. -/
theorem legalType_sew {cls fmt sew : Nat} (h : legalType cls fmt sew = true) : sew ≤ 3 ∧ (cls = 6 → sew = 0) := by
  unfold legalType at h
  repeat
    split at h
    · simp only [Bool.or_eq_true, decide_eq_true_eq] at h
      omega
  exact absurd h Bool.false_ne_true

theorem legalVtype_parts {x : Nat} (h : legalVtype x = true) :
    (vtOf x).sewE ≤ 3 ∧ (vtOf x).nregE ≤ 2 ∧ (vtOf x).gmE ≤ 3 ∧ ((vtOf x).sq = true → (vtOf x).sewE = 0) := by
  simp only [legalVtype, Bool.and_eq_true, decide_eq_true_eq] at h
  obtain ⟨⟨⟨-, htype⟩, hnreg, -⟩, -⟩ := h
  obtain ⟨hsew, hsq⟩ := legalType_sew htype
  exact ⟨hsew, hnreg, Nat.le_of_lt_succ (Nat.mod_lt _ (by decide)), fun hcls => hsq (eq_of_beq hcls)⟩

/-- VLMAX of R101 is a multiple of the largest group. -/
theorem eight_dvd_vlmaxOf {t : Vt} (hsew : t.sewE ≤ 3) (hnreg : t.nregE ≤ 2) (lg : Nat) : 8 ∣ vlmaxOf t lg := by
  unfold vlmaxOf Vt.nreg Vt.sew
  generalize t.sewE = e at *
  generalize t.nregE = k at *
  have hk : k = 0 ∨ k = 1 ∨ k = 2 := by omega
  have he : e = 0 ∨ e = 1 ∨ e = 2 ∨ e = 3 := by omega
  split
  · rcases hk with rfl | rfl | rfl <;> omega
  · rcases hk with rfl | rfl | rfl <;> rcases he with rfl | rfl | rfl | rfl <;> omega

theorem popN_le (n x : Nat) : popN n x ≤ n := by
  induction n with
  | zero => exact Nat.le_refl 0
  | succ n ih => unfold popN; split <;> omega

/-- A register has room for the elements that R101 gives it. -/
theorem vlmaxOf_fits {t : Vt} {lg : Nat} (hsq : t.sq = false) (hlg : lg ≤ 8) : vlmaxOf t lg * t.sew ≤ 131072 := by
  have hnreg : 8 ≤ t.nreg := by unfold Vt.nreg; have := Nat.two_pow_pos t.nregE; omega
  have hper : lg * 131072 / t.nreg ≤ 131072 :=
    Nat.div_le_of_le_mul (Nat.mul_le_mul_right 131072 (Nat.le_trans hlg hnreg))
  calc vlmaxOf t lg * t.sew ≤ lg * 131072 / t.nreg / t.sew * t.sew := by
        rw [vlmaxOf, hsq, if_neg Bool.false_ne_true]
        exact Nat.mul_le_mul_right _ (Nat.min_le_left ..)
    _ ≤ lg * 131072 / t.nreg := Nat.div_mul_le_self ..
    _ ≤ 131072 := hper

theorem bitPos_apart {sq : Bool} {w i j : Nat} (hw : sq = true → w = 8) (h : i ≠ j) :
    bitPos sq w i + w ≤ bitPos sq w j ∨ bitPos sq w j + w ≤ bitPos sq w i := by
  cases sq with
  | true =>
    simp only [bitPos, hw rfl, if_true]
    omega
  | false =>
    simp only [bitPos, Bool.false_eq_true, if_false]
    rcases Nat.lt_or_gt_of_ne h with hlt | hgt
    · exact .inl (by rw [← Nat.succ_mul]; exact Nat.mul_le_mul_right w hlt)
    · exact .inr (by rw [← Nat.succ_mul]; exact Nat.mul_le_mul_right w hgt)

end Shape

section Elements

variable {s : State} {d : BitVec 5} {e : Nat} (hlegal : legalVtype s.th.vec.vtype.toNat = true)
include hlegal

theorem State.sew_of_sq (hsq : s.vt.sq = true) : s.vt.sew = 8 := by
  obtain ⟨-, -, -, hsew⟩ := legalVtype_parts hlegal
  have hzero : s.vt.sewE = 0 := hsew hsq
  simp [Vt.sew, hzero]

/-- The registers of a group share its elements evenly. -/
theorem State.gm_mul_per : s.vt.gm * s.per s.vt.gm = s.vlmax := by
  obtain ⟨hsew, hnreg, hgm, -⟩ := legalVtype_parts hlegal
  refine Nat.mul_div_cancel' (Nat.dvd_trans ?_ (eight_dvd_vlmaxOf hsew hnreg s.lg))
  exact Nat.pow_dvd_pow (n := 3) 2 hgm

variable (he : e < s.vlmax)
include he

theorem State.reg_in_group : e / s.per s.vt.gm < s.vt.gm :=
  Nat.div_lt_of_lt_mul (by rw [Nat.mul_comm, State.gm_mul_per hlegal]; exact he)

theorem State.per_pos : 0 < s.per s.vt.gm := by
  refine Nat.pos_of_ne_zero fun hzero => ?_
  have hmul := State.gm_mul_per hlegal
  rw [hzero, Nat.mul_zero] at hmul
  omega

/-- The bits of an element lie within its register. -/
theorem State.bitPos_fits : bitPos s.vt.sq s.vt.sew (e % s.per s.vt.gm) + s.vt.sew ≤ 131072 := by
  have hi : e % s.per s.vt.gm < s.per s.vt.gm := Nat.mod_lt _ (State.per_pos hlegal he)
  have hper : s.per s.vt.gm ≤ s.vlmax := Nat.div_le_self ..
  cases hsq : s.vt.sq with
  | true =>
    have hmax : s.vlmax ≤ 4032 := by
      simp only [State.vlmax, vlmaxOf, hsq, if_true]
      exact Nat.min_le_right ..
    simp only [bitPos, State.sew_of_sq hlegal hsq, if_true]
    omega
  | false =>
    have hlg : s.lg ≤ 8 := Nat.add_le_add (popN_le 4 _) (popN_le 4 _)
    simp only [bitPos, Bool.false_eq_true, if_false]
    rw [← Nat.succ_mul]
    exact Nat.le_trans (Nat.mul_le_mul_right _ (Nat.lt_of_lt_of_le hi hper)) (vlmaxOf_fits hsq hlg)

/-- A write of an element is read back and leaves the other elements of the group. -/
theorem State.elem_putElem (x j : Nat) :
    (s.putElem d e x).elem d j = if j = e then x % 2 ^ s.vt.sew else s.elem d j := by
  have hfits := State.bitPos_fits hlegal he
  split
  · next heq => subst heq; exact State.regBits_putBits_same s hfits
  · next hne =>
    refine State.regBits_putBits_apart s hfits fun hreg => ?_
    refine bitPos_apart (State.sew_of_sq hlegal) fun hpos => hne ?_
    change d.toNat + j / s.per s.vt.gm = d.toNat + e / s.per s.vt.gm at hreg
    change e % s.per s.vt.gm = j % s.per s.vt.gm at hpos
    rw [← Nat.div_add_mod j (s.per s.vt.gm), ← Nat.div_add_mod e (s.per s.vt.gm), hpos, Nat.add_left_cancel hreg]

end Elements

/-! ### What writes of elements leave alone -/

/-- The state without what writes of elements change: vector registers and their dirty bits, the flags of R131 to
R135, and the classes raised in the convoy. -/
def State.unwritten (s : State) : State :=
  { s with
    th := { s.th with
      vec := { s.th.vec with v := [] }
      fl := { s.th.fl with vflg := 0, vflgpc := 0, vidx := [], vhr := 0 }
      tr := { s.th.tr with dReg := 0, dFlg := false } }
    cv := { s.cv with raised := 0, raisers := [] } }

section Unwritten

variable (s : State)

@[simp] theorem State.unwritten_putBits (r pos w x : Nat) : (s.putBits r pos w x).unwritten = s.unwritten := rfl
@[simp] theorem State.unwritten_mergeFlags (l : List (Nat × Nat)) : (s.mergeFlags l).unwritten = s.unwritten := by
  simp only [State.mergeFlags]; split <;> rfl
@[simp] theorem State.unwritten_foldHead (l : List Nat) : (s.foldHead l).unwritten = s.unwritten := by
  cases l <;> rfl

@[simp] theorem State.mergeFlags_vec (l : List (Nat × Nat)) : (s.mergeFlags l).th.vec = s.th.vec := by
  simp only [State.mergeFlags]; split <;> rfl
@[simp] theorem State.mergeFlags_dReg (l : List (Nat × Nat)) : (s.mergeFlags l).th.tr.dReg = s.th.tr.dReg := by
  simp only [State.mergeFlags]; split <;> rfl
@[simp] theorem State.foldHead_vec (l : List Nat) : (s.foldHead l).th.vec = s.th.vec := by cases l <;> rfl
@[simp] theorem State.foldHead_dReg (l : List Nat) : (s.foldHead l).th.tr.dReg = s.th.tr.dReg := by cases l <;> rfl

theorem State.unwritten_foldl_putElem (d : BitVec 5) (x : Nat → Nat) (l : List Nat) :
    (l.foldl (fun u e => u.putElem d e (x e)) s).unwritten = s.unwritten :=
  foldl_keeps (fun u => u.unwritten = s.unwritten) (fun u e => u.putElem d e (x e)) (fun _ _ hu => hu) l s rfl

@[simp] theorem State.unwritten_mapElems (d p : BitVec 5) (f : Nat → Res) :
    (s.mapElems d p f).unwritten = s.unwritten := by
  simp only [State.mapElems, State.writeElems, State.account, State.unwritten_foldHead, State.unwritten_mergeFlags,
    List.foldl_map]
  exact s.unwritten_foldl_putElem d (fun e => (f e).val) _

/-- The vector state after element-wise work is that after the writes of its elements. -/
theorem State.mapElems_vec (d p : BitVec 5) (f : Nat → Res) :
    (s.mapElems d p f).th.vec = ((s.todo p).foldl (fun u e => u.putElem d e (f e).val) s).th.vec := by
  simp [State.mapElems, State.writeElems, State.account, List.foldl_map]

theorem State.mapElems_dReg (d p : BitVec 5) (f : Nat → Res) :
    (s.mapElems d p f).th.tr.dReg = ((s.todo p).foldl (fun u e => u.putElem d e (f e).val) s).th.tr.dReg := by
  simp [State.mapElems, State.writeElems, State.account, List.foldl_map]

end Unwritten

/-- What reads none of the parts that writes of elements change. -/
theorem State.congr_unwritten {α : Type} (g : State → α) (hg : ∀ v, g (State.unwritten v) = g v) {s u : State}
    (h : u.unwritten = s.unwritten) : g u = g s := by
  rw [← hg u, h, hg]

/-- A write of bits changes one register. -/
theorem State.tget_putBits_other {s : State} {r pos w x k : Nat} (h : k ≠ r) :
    tget 0 (s.putBits r pos w x).th.vec.v k = tget 0 s.th.vec.v k :=
  tget_tset_other _ _ _ _ _ h

/-- Reading an element depends on the vector state and the lane groups held. -/
theorem State.elem_congr {s u : State} (hvec : u.th.vec = s.th.vec) (hheld : u.th.held = s.th.held) (d : BitVec 5)
    (e : Nat) : u.elem d e = s.elem d e := by
  simp only [State.elem, State.elemOf, State.regBits, State.per, State.vlmax, State.lg, State.vt, hvec, hheld]

theorem State.mem_todo {s : State} {p : BitVec 5} {e : Nat} :
    e ∈ s.todo p ↔ e < s.vl ∧ s.active p e = true ∧ s.performs e = true := by
  simp [State.todo]

theorem State.todo_lt_vlmax {s : State} {p : BitVec 5} (hvl : s.vl ≤ s.vlmax) : ∀ e ∈ s.todo p, e < s.vlmax :=
  fun _ he => Nat.lt_of_lt_of_le (State.mem_todo.mp he).1 hvl

/-! ### Element-wise work (R185) -/

section Work

variable {s : State} {d p : BitVec 5} {l : List Nat} (hlegal : legalVtype s.th.vec.vtype.toNat = true)
include hlegal

/-- Each element written holds its value, and the others theirs. -/
theorem State.elem_foldl_putElem (x : Nat → Nat) {e : Nat} (hl : ∀ j ∈ l, j < s.vlmax) :
    (l.foldl (fun u j => u.putElem d j (x j)) s).elem d e =
      if e ∈ l then x e % 2 ^ s.vt.sew else s.elem d e := by
  induction l generalizing s with
  | nil => rfl
  | cons j l ih =>
    obtain ⟨hj, hl⟩ := List.forall_mem_cons.mp hl
    rw [List.foldl_cons, ih (s := s.putElem d j (x j)) hlegal hl, State.elem_putElem hlegal hj,
      show (s.putElem d j (x j)).vt = s.vt from rfl]
    by_cases hmem : e ∈ l
    · simp [hmem]
    · by_cases heq : e = j <;> simp [hmem, heq]

/-- No register outside the group changes. -/
theorem State.tget_foldl_putElem (x : Nat → Nat) {r : Nat} (hl : ∀ j ∈ l, j < s.vlmax)
    (hr : r < d.toNat ∨ d.toNat + s.vt.gm ≤ r) :
    tget 0 (l.foldl (fun u j => u.putElem d j (x j)) s).th.vec.v r = tget 0 s.th.vec.v r := by
  induction l generalizing s with
  | nil => rfl
  | cons j l ih =>
    obtain ⟨hj, hl⟩ := List.forall_mem_cons.mp hl
    have hin : j / s.per s.vt.gm < s.vt.gm := State.reg_in_group hlegal hj
    have hne : r ≠ d.toNat + j / s.per s.vt.gm := by
      generalize j / s.per s.vt.gm = k at hin
      omega
    rw [List.foldl_cons, ih (s := s.putElem d j (x j)) hlegal hl hr]
    exact State.tget_putBits_other hne

variable (hvl : s.vl ≤ s.vlmax)
include hvl

theorem State.elem_mapElems (f : Nat → Res) {e : Nat} (he : e < s.vl) :
    (s.mapElems d p f).elem d e =
      if s.active p e && s.performs e then (f e).val % 2 ^ s.vt.sew else s.elem d e := by
  have hheld : (s.mapElems d p f).th.held =
      ((s.todo p).foldl (fun u j => u.putElem d j (f j).val) s).th.held :=
    congrArg (·.th.held) ((s.unwritten_mapElems d p f).trans
      (s.unwritten_foldl_putElem d (fun j => (f j).val) (s.todo p)).symm)
  rw [State.elem_congr (s.mapElems_vec d p f) hheld,
    State.elem_foldl_putElem hlegal (fun j => (f j).val) (State.todo_lt_vlmax hvl)]
  simp [State.mem_todo, he]

theorem State.tget_mapElems (f : Nat → Res) {r : Nat} (hr : r < d.toNat ∨ d.toNat + s.vt.gm ≤ r) :
    tget 0 (s.mapElems d p f).th.vec.v r = tget 0 s.th.vec.v r := by
  rw [State.mapElems_vec]
  exact State.tget_foldl_putElem hlegal _ (State.todo_lt_vlmax hvl) hr

end Work

/-- Settles O53: the writes of elements keep all but their group, its dirty bits and the flags. -/
theorem elementWiseResults : Obligations.ElementWiseResults := by
  intro s d p f hlegal hvl t
  have hunwritten : t.unwritten = s.unwritten := s.unwritten_mapElems d p f
  refine ⟨fun e => State.elem_mapElems hlegal hvl f, fun r => State.tget_mapElems hlegal hvl f,
    congrArg (·.th.vec.p) hunwritten, congrArg (·.th.sc) hunwritten, congrArg (·.mem) hunwritten,
    congrArg (·.th.nest) hunwritten, fun r hr => ?dirty⟩
  case dirty =>
    show (s.mapElems d p f).th.tr.dReg.getLsbD r = true
    rw [State.mapElems_dReg]
    exact foldl_keeps (fun u : State => u.th.tr.dReg.getLsbD r = true) _
      (fun u e hu => by simp [State.putElem, State.putElemOf, State.putBits, hu]) _ s hr

end Sys2Proof.Machine
end

section
/-!
PROOF. Frames of vector arithmetic (R185, R189): retiring a convoy outside a loop nest, or taking a trap, leaves
registers, flags and memory alone; element-wise instructions and conversions reach that end with nothing but their
group written, or with nothing changed at all.
-/

namespace Sys2Proof.Machine

open Sys2Proof

/-! ### The end of a convoy -/

/-- What of a thread neither its retiring outside a loop nest nor a trap changes. -/
structure Shown where
  regs : Table W64
  vec : VecState
  held : Held
  fl : Flags
  nest : Nest
  mem : Mem

def State.shown (s : State) : Shown :=
  { regs := s.th.sc.s, vec := { s.th.vec with vstart := [] }, held := s.th.held, fl := s.th.fl, nest := s.th.nest,
    mem := s.mem }

/-- What decides how a convoy ends. -/
def State.ending (s : State) : Scalars × Nest × SlotHw × Bool × List (BitVec 5 × W64) × Nat :=
  (s.th.sc, s.th.nest, s.th.hw, s.cv.many, s.cv.late, s.cv.len)

section Ends

variable {s u : State}

theorem State.shown_enterHandler (m : Mode) (c : Nat) : (s.enterHandler m c).shown = s.shown := by
  cases m <;> simp [State.enterHandler, State.shown]

theorem State.shown_takeTrapWith {t : TrapInfo} (vpart mpart : Bool) (ht : t.cause ≠ Cause.macfail) :
    (s.takeTrapWith t vpart mpart).shown = s.shown := by
  rw [State.takeTrapWith_enters vpart mpart ht, State.shown_enterHandler]
  rfl

section Outside

variable (hlate : s.cv.late = []) (hopen : s.th.nest.open_ = false) (hstale : s.th.nest.stale = false)
include hlate hopen hstale

theorem State.shown_complete : (s.complete none).shown = s.shown := by
  have hcommit : s.commitLate = s := by simp [State.commitLate, hlate]
  have hcommitted : s.committed.shown = s.shown := by
    rw [State.committed, hcommit]
    split <;> rfl
  have hnest : s.committed.th.nest.settle = s.committed.th.nest := by simp [Nest.settle, hstale]
  rw [State.complete_eq, State.advance_outside (by simp [State.inBody, hopen])]
  refine Eq.trans ?_ hcommitted
  simp only [State.shown, State.modCv_th, State.modHw_sc, State.modHw_vec, State.modHw_held, State.modHw_fl,
    State.modHw_nest, State.modNest_sc, State.modNest_vec, State.modNest_held, State.modNest_fl, State.modNest_nest,
    State.modSc_sc, State.modSc_vec, State.modSc_held, State.modSc_fl, State.modSc_nest, hnest]
  rfl

/-- Retiring outside a loop nest, without single step, with or without an ARITH trap. -/
theorem State.shown_retire (hstep : s.th.hw.dbStep = false) : (s.retire none).shown = s.shown := by
  by_cases hraised : s.cv.raised &&& s.th.fl.vtrapen = 0#8
  · rw [State.retire_quiet none hraised, State.stepTrap_off (by simp [hstep]), State.shown_complete hlate hopen hstale]
  · have harith : (plainTrap Cause.arith (s.cv.raised.setWidth 64)).cause ≠ Cause.macfail := by
      show Cause.arith ≠ Cause.macfail
      decide
    rw [State.retire_raised none hraised, State.shown_takeTrapWith _ _ harith]
    exact State.shown_complete hlate hopen hstale

end Outside

/-- What ends as a plain convoy does. -/
theorem State.shown_finish (hs : s.plain = true) (hu : u.ending = s.ending) : u.finish.shown = u.shown := by
  obtain ⟨hmany, hlate, -, -, -, hopen, hstale, hstep, -⟩ := State.plain_parts hs
  simp only [State.ending, Prod.mk.injEq] at hu
  obtain ⟨-, hnest, hhw, hmany', hlate', -⟩ := hu
  rw [State.finish, hmany', hmany, if_neg Bool.false_ne_true]
  exact State.shown_retire (by rw [hlate', hlate]) (by rw [hnest, hopen]) (by rw [hnest, hstale]) (by rw [hhw, hstep])

end Ends

/-! ### Computations that trap or reach a state -/

section Reaching

variable {α β : Type} {s t : State} {P : State → Prop}

/-- From s a computation traps with nothing changed, and not MACFAIL. -/
def TrapsHere (x : M α) (s : State) : Prop :=
  ∃ c v, x s = (.error (.trap (plainTrap c v)), s) ∧ c ≠ Cause.macfail

/-- A check with the answer a: it traps or changes nothing. -/
def Passes (x : M α) (a : α) (s : State) : Prop := x s = (.ok a, s) ∨ TrapsHere x s

/-- A computation that traps or reaches a state with P. -/
def Reaches (P : State → Prop) (m : M Unit) (s : State) : Prop :=
  (∃ u, m s = (.ok (), u) ∧ P u) ∨ TrapsHere m s

theorem TrapsHere.bind {x : M α} {f : α → M β} (h : TrapsHere x s) : TrapsHere (x >>= f) s := by
  obtain ⟨c, v, hx, hc⟩ := h
  exact ⟨c, v, M.bind_error x f s s _ hx, hc⟩

theorem TrapsHere.trap {c : Nat} {v : W64} (hc : c ≠ Cause.macfail) : TrapsHere (trap c v : M α) s := ⟨c, v, rfl, hc⟩

theorem TrapsHere.illop : TrapsHere (illop : M α) s := ⟨Cause.illop, s.evalWord, rfl, by decide⟩

theorem Passes.bind {x : M α} {f : α → M β} {a : α} {b : β} (hx : Passes x a s) (hf : Passes (f a) b s) :
    Passes (x >>= f) b s := by
  rcases hx with hok | htrap
  · exact hf.imp (M.bind_ok x f s s a hok).trans fun ⟨c, v, h, hc⟩ => ⟨c, v, (M.bind_ok x f s s a hok).trans h, hc⟩
  · exact .inr htrap.bind

theorem Reaches.bind {x : M α} {f : α → M Unit} {a : α} (hx : Passes x a s) (hf : Reaches P (f a) s) :
    Reaches P (x >>= f) s := by
  rcases hx with hok | htrap
  · unfold Reaches TrapsHere
    rwa [M.bind_ok x f s s a hok]
  · exact .inr htrap.bind

theorem Passes.need (b : Bool) : Passes (need b) () s := by
  cases b with
  | true => exact .inl rfl
  | false => exact .inr TrapsHere.illop

/-- Off the SC and with vector state present the gate passes; else it traps ILLOP or VFIRST (R325, R328). -/
theorem Passes.vectorGate : Passes vectorGate () s := by
  refine Passes.bind (a := s) (.inl rfl) ?_
  split
  · exact .inr .illop
  · split
    · exact .inr (.trap (by decide))
    · exact .inl rfl

theorem Passes.needGroups (regs : List (BitVec 5)) : Passes (needGroups regs) () s :=
  Passes.bind (a := s) (.inl rfl) (Passes.need _)

/-- The first checks of a vector instruction pass or trap (R184). -/
theorem Passes.vectorChecks (regs : List (BitVec 5)) (types : Vt → Bool) : Passes (vectorChecks regs types) s.vt s :=
  Passes.bind Passes.vectorGate (Passes.bind (Passes.needGroups regs) (Passes.bind (a := s) (.inl rfl)
    (Passes.bind (Passes.need _) (.inl rfl))))

theorem Reaches.modify {g : State → State} (h : P (g s)) : Reaches P (modify g) s := .inl ⟨_, rfl, h⟩

/-- How a meaning that reaches a state with P ends, at a plain boundary or within a convoy of several. -/
theorem Reaches.shown {m : M Unit} (hm : Reaches P m s) (hP : ∀ u, P u → u.ending = s.ending)
    (hconvoy : s.cv.many = true ∨ s.plain = true) (ht : s.conclude m = .next t) :
    ∃ u, (P u ∨ u = s) ∧ t.shown = u.shown ∧
      (s.cv.many = true → t.th.sc.pc = s.th.sc.pc ∧ t.cv.len = s.cv.len) := by
  rcases hm with ⟨u, hrun, hu⟩ | ⟨c, v, hrun, hc⟩
  case inl =>
    have hend : u.ending = s.ending := hP u hu
    obtain rfl : u.finish = t := Host.Outcome.next.inj ((State.conclude_ok hrun).symm.trans ht)
    refine ⟨u, .inl hu, ?_, fun hmany => ?_⟩
    · rcases hconvoy with hmany | hplain
      · have hmany' : u.cv.many = true := (congrArg (·.2.2.2.1) hend).trans hmany
        rw [State.finish, if_pos hmany']
      · exact State.shown_finish hplain hend
    · have hmany' : u.cv.many = true := (congrArg (·.2.2.2.1) hend).trans hmany
      rw [State.finish, if_pos hmany']
      exact ⟨congrArg (·.1.pc) hend, congrArg (·.2.2.2.2.2) hend⟩
  case inr =>
    refine ⟨s, .inr rfl, ?_⟩
    cases hmany : s.cv.many with
    | true =>
      obtain rfl := Host.Outcome.next.inj ((State.conclude_member hrun hmany).symm.trans ht)
      exact ⟨rfl, fun _ => ⟨rfl, rfl⟩⟩
    | false =>
      obtain rfl := Host.Outcome.next.inj ((State.conclude_trap hrun hmany).symm.trans ht)
      refine ⟨?_, fun h => absurd h Bool.false_ne_true⟩
      rw [State.takeTrap, if_neg (by simp [plainTrap])]
      exact State.shown_takeTrapWith _ _ hc

end Reaching

/-! ### Element-wise instructions and conversions -/

/-- u is s with, of its registers, at most those of the group at d written, and flags. -/
def GroupWritten (s : State) (d : BitVec 5) (u : State) : Prop :=
  u.unwritten = s.unwritten ∧
    ∀ r : Nat, r < d.toNat ∨ d.toNat + s.vt.gm ≤ r → tget 0 u.th.vec.v r = tget 0 s.th.vec.v r

theorem State.unwritten_copyScales (s : State) (d a : BitVec 5) : (s.copyScales d a).unwritten = s.unwritten := by
  unfold State.copyScales
  split
  · refine foldl_keeps (fun u => u.unwritten = s.unwritten) _ (fun u b hu => ?_) _ s rfl
    split
    · exact hu
    · exact hu
  · rfl

section Group

variable {s t : State} {d a p : BitVec 5} (hlegal : legalVtype s.th.vec.vtype.toNat = true) (hvl : s.vl ≤ s.vlmax)
include hlegal hvl

/-- The blocks of a group lie in its registers (R126). -/
theorem State.block_in_group {b : Nat × Nat × Nat} (hb : b ∈ s.blocks s.vt.gm) : b.1 < s.vt.gm := by
  simp only [State.blocks, List.mem_map, List.mem_filter, List.mem_range] at hb
  obtain ⟨e, ⟨he, -⟩, rfl⟩ := hb
  exact State.reg_in_group hlegal (Nat.lt_of_lt_of_le he hvl)

theorem GroupWritten.copyScales : GroupWritten s d (s.copyScales d a) := by
  refine ⟨s.unwritten_copyScales d a, fun r hr => ?_⟩
  unfold State.copyScales
  split
  · refine List.foldlRecOn (motive := fun u : State => tget 0 u.th.vec.v r = tget 0 s.th.vec.v r) _ _ rfl
      fun u hu b hb => ?_
    have hin := State.block_in_group hlegal hvl hb
    split
    · exact hu
    · exact (State.tget_putBits_other (by omega)).trans hu
  · rfl

theorem GroupWritten.mapElems (f : Nat → Res) : GroupWritten s d (s.mapElems d p f) :=
  ⟨s.unwritten_mapElems d p f, fun _ => State.tget_mapElems hlegal hvl f⟩

theorem GroupWritten.elemWise (f : Nat → Res) : GroupWritten s d ((s.mapElems d p f).copyScales d a) := by
  obtain ⟨hmap, hmapRegs⟩ := GroupWritten.mapElems (d := d) (p := p) hlegal hvl f
  have hlegal' : legalVtype (s.mapElems d p f).th.vec.vtype.toNat = true :=
    (State.congr_unwritten (fun u => legalVtype u.th.vec.vtype.toNat) (fun _ => rfl) hmap).trans hlegal
  have hvl' : (s.mapElems d p f).vl ≤ (s.mapElems d p f).vlmax := by
    rwa [State.congr_unwritten State.vl (fun _ => rfl) hmap, State.congr_unwritten State.vlmax (fun _ => rfl) hmap]
  have hgm : (s.mapElems d p f).vt.gm = s.vt.gm := State.congr_unwritten (fun u => u.vt.gm) (fun _ => rfl) hmap
  obtain ⟨hscale, hscaleRegs⟩ := GroupWritten.copyScales (d := d) (a := a) hlegal' hvl'
  exact ⟨hscale.trans hmap, fun r hr => (hscaleRegs r (hgm ▸ hr)).trans (hmapRegs r hr)⟩

/-- A meaning that traps with nothing changed or writes at most the group at d. -/
def WritesGroup (s : State) (d : BitVec 5) (o : Host.Outcome State Fault Refusal) : Prop :=
  ∃ m, o = s.conclude m ∧ Reaches (GroupWritten s d) m s

theorem WritesGroup.elemWise {types : Vt → Bool} {more : List (BitVec 5)} {f : State → Vt → Nat → Res} :
    WritesGroup s d (s.elemWise types d a p more f) := by
  refine ⟨_, rfl, Reaches.bind (Passes.vectorChecks _ _) (Reaches.modify ?_)⟩
  split
  · exact ⟨rfl, fun _ _ => rfl⟩
  · exact GroupWritten.elemWise hlegal hvl _

theorem WritesGroup.conv {gs : Nat} {far : Bool} {src : Vt → Option Ty} :
    WritesGroup s d (s.conv d a p gs far src) := by
  refine ⟨_, rfl, Reaches.bind (Passes.vectorChecks _ _) (Reaches.bind (Passes.need _) ?_)⟩
  cases hsrc : src s.vt with
  | none => exact .inr .illop
  | some st =>
    exact Reaches.bind (Passes.need _) (Reaches.bind (Passes.need _)
      (Reaches.modify (GroupWritten.mapElems hlegal hvl _)))

end Group

theorem State.rd_congr {s t : State} (h : t.th.sc.s = s.th.sc.s) (r : BitVec 5) : t.rd r = s.rd r := by
  simp only [State.rd, h]

/-- The frame of a meaning that writes at most a group. -/
theorem WritesGroup.frame {s t : State} {d : BitVec 5} {o : Host.Outcome State Fault Refusal}
    (ho : WritesGroup s d o) (hconvoy : s.cv.many = true ∨ s.plain = true) (ht : o = .next t) :
    (∀ r : BitVec 5, t.rd r = s.rd r) ∧ t.mem = s.mem ∧ t.th.vec.p = s.th.vec.p ∧
      t.th.vec.vl = s.th.vec.vl ∧ t.th.vec.vtype = s.th.vec.vtype ∧ t.th.held = s.th.held ∧
      t.th.nest = s.th.nest ∧
      (∀ r : Nat, r < d.toNat ∨ d.toNat + s.vt.gm ≤ r → tget 0 t.th.vec.v r = tget 0 s.th.vec.v r) ∧
      { t.th.fl with vflg := s.th.fl.vflg, vflgpc := s.th.fl.vflgpc, vidx := s.th.fl.vidx,
                     vhr := s.th.fl.vhr } = s.th.fl ∧
      (s.cv.many = true → t.th.sc.pc = s.th.sc.pc ∧ t.cv.len = s.cv.len) := by
  obtain ⟨m, rfl, hm⟩ := ho
  obtain ⟨u, hu, hshown, hpc⟩ :=
    Reaches.shown hm (fun _ hu => State.congr_unwritten State.ending (fun _ => rfl) hu.1) hconvoy ht
  obtain ⟨hunwritten, hregs⟩ : GroupWritten s d u := by
    rcases hu with hu | rfl
    · exact hu
    · exact ⟨rfl, fun _ _ => rfl⟩
  have hfl : t.th.fl = u.th.fl := congrArg Shown.fl hshown
  have hv : t.th.vec.v = u.th.vec.v := congrArg (·.vec.v) hshown
  refine ⟨State.rd_congr ((congrArg Shown.regs hshown).trans (congrArg (·.th.sc.s) hunwritten)),
    (congrArg Shown.mem hshown).trans (congrArg (·.mem) hunwritten),
    (congrArg (·.vec.p) hshown).trans (congrArg (·.th.vec.p) hunwritten),
    (congrArg (·.vec.vl) hshown).trans (congrArg (·.th.vec.vl) hunwritten),
    (congrArg (·.vec.vtype) hshown).trans (congrArg (·.th.vec.vtype) hunwritten),
    (congrArg Shown.held hshown).trans (congrArg (·.th.held) hunwritten),
    (congrArg Shown.nest hshown).trans (congrArg (·.th.nest) hunwritten),
    fun r hr => by rw [hv, hregs r hr], ?_, hpc⟩
  rw [hfl]
  exact congrArg (fun x : State => { x.th.fl with
    vflg := s.th.fl.vflg, vflgpc := s.th.fl.vflgpc, vidx := s.th.fl.vidx, vhr := s.th.fl.vhr }) hunwritten

/-! ### Compares -/

/-- u is s with at most predicate n written, and flags. -/
def PredWritten (s : State) (n : Nat) (u : State) : Prop :=
  u.ending = s.ending ∧
    u.shown = { s.shown with
      vec := { s.shown.vec with p := u.th.vec.p }
      fl := { s.th.fl with vflg := u.th.fl.vflg, vflgpc := u.th.fl.vflgpc, vidx := u.th.fl.vidx } } ∧
    ∀ r : Nat, r ≠ n → tget 0 u.th.vec.p r = tget 0 s.th.vec.p r

theorem PredWritten.writePred (s : State) (n : Nat) (bits : List (Nat × Bool)) (l : List (Nat × Nat)) :
    PredWritten s n ((s.writePred n bits).mergeFlags l) := by
  refine ⟨?_, ?_, fun r hr => ?_⟩
  · calc ((s.writePred n bits).mergeFlags l).ending
        = (s.writePred n bits).ending :=
          State.congr_unwritten State.ending (fun _ => rfl) (State.unwritten_mergeFlags _ l)
      _ = s.ending := rfl
  · simp only [State.mergeFlags]
    split <;> rfl
  · rw [State.mergeFlags_vec]
    exact tget_tset_other _ _ _ _ _ hr

/-- A meaning that traps with nothing changed or writes at most predicate n. -/
def WritesPred (s : State) (n : Nat) (o : Host.Outcome State Fault Refusal) : Prop :=
  ∃ m, o = s.conclude m ∧ Reaches (PredWritten s n) m s

theorem WritesPred.compare {s : State} {cond : Nat} {d a p : BitVec 5} {y : Src} :
    WritesPred s (s.predNo d) (s.compare cond d a y p) :=
  ⟨_, rfl, Reaches.bind (Passes.vectorChecks _ _) (Reaches.modify (PredWritten.writePred s _ _ _))⟩

/-- The frame of a meaning that writes at most one predicate. -/
theorem WritesPred.frame {s t : State} {n : Nat} {o : Host.Outcome State Fault Refusal}
    (ho : WritesPred s n o) (hconvoy : s.cv.many = true ∨ s.plain = true) (ht : o = .next t) :
    (∀ r : BitVec 5, t.rd r = s.rd r) ∧ t.mem = s.mem ∧ t.th.vec.v = s.th.vec.v ∧
      t.th.vec.vl = s.th.vec.vl ∧ t.th.vec.vtype = s.th.vec.vtype ∧ t.th.held = s.th.held ∧
      t.th.nest = s.th.nest ∧ (∀ r : Nat, r ≠ n → tget 0 t.th.vec.p r = tget 0 s.th.vec.p r) ∧
      { t.th.fl with vflg := s.th.fl.vflg, vflgpc := s.th.fl.vflgpc, vidx := s.th.fl.vidx } = s.th.fl ∧
      (s.cv.many = true → t.th.sc.pc = s.th.sc.pc ∧ t.cv.len = s.cv.len) := by
  obtain ⟨m, rfl, hm⟩ := ho
  obtain ⟨u, hu, hend, hpc⟩ := Reaches.shown hm (fun _ hu => hu.1) hconvoy ht
  obtain ⟨-, hwritten, hpreds⟩ : PredWritten s n u := by
    rcases hu with hu | rfl
    · exact hu
    · exact ⟨rfl, rfl, fun _ _ => rfl⟩
  have hp : t.th.vec.p = u.th.vec.p := congrArg (·.vec.p) hend
  have hshown := hend.trans hwritten
  have hfl := congrArg Shown.fl hshown
  refine ⟨State.rd_congr (congrArg Shown.regs hshown), congrArg Shown.mem hshown, congrArg (·.vec.v) hshown,
    congrArg (·.vec.vl) hshown, congrArg (·.vec.vtype) hshown, congrArg Shown.held hshown, congrArg Shown.nest hshown,
    fun r hr => by rw [hp, hpreds r hr], ?_, hpc⟩
  exact congrArg (fun x : Flags => { x with
    vflg := s.th.fl.vflg, vflgpc := s.th.fl.vflgpc, vidx := s.th.fl.vidx }) hfl

/-- Settles O55: of the rows of the list, in its order, all but the three conversions are element-wise. -/
theorem vectorFrames : Obligations.VectorFrames := by
  refine ⟨fun s t c d a b p k o i hconvoy hi hlegal hvl ht => ?arithmetic,
    fun s t c d a b p k i hconvoy hi ht => ?compare⟩
  case arithmetic =>
    suffices hrows : ∀ i ∈ _, WritesGroup s d (exec i s) from (hrows i hi).frame hconvoy ht
    iterate 75 refine List.forall_mem_cons.mpr ⟨WritesGroup.elemWise hlegal hvl, ?_⟩
    refine List.forall_mem_cons.mpr ⟨show WritesGroup s d (execVcvt c d a k p s) from .conv hlegal hvl, ?_⟩
    refine List.forall_mem_cons.mpr ⟨show WritesGroup s d (execVwiden c d a k p s) from .conv hlegal hvl, ?_⟩
    refine List.forall_mem_cons.mpr ⟨show WritesGroup s d (execVnarrow c d a k p s) from .conv hlegal hvl, ?_⟩
    iterate 11 refine List.forall_mem_cons.mpr ⟨WritesGroup.elemWise hlegal hvl, ?_⟩
    exact List.forall_mem_nil _
  case compare =>
    suffices hrows : ∀ i ∈ _, WritesPred s (s.predNo d) (exec i s) from (hrows i hi).frame hconvoy ht
    iterate 2 refine List.forall_mem_cons.mpr ⟨WritesPred.compare, ?_⟩
    exact List.forall_mem_nil _

end Sys2Proof.Machine
end

section
/-!
PROOF. Complex arithmetic, signal processing and permutes (R209 to R219): the checks that the instructions which are
not element-wise share, how such an instruction goes on once they pass, and the statements about them.
-/

namespace Sys2Proof.Machine

open Sys2Proof

/-! ### Complex arithmetic (R129, R210) -/

/-- Settles O24: each form is element-wise; the option bit of a product or a rotation selects the stated terms. -/
theorem complexArithmetic : Obligations.ComplexArithmetic := by
  intro s c d a b p
  and_intros
  all_goals exact fun h => State.elemWise_next h fun e => rfl

/-! ### Checks and whole passes (R209, R401, R402) -/

section Checks

variable {s : State} {d p : BitVec 5}

/-- A rule that holds, or that no active element calls for. -/
theorem needActive_ok {ok : State → Bool} (h : (s.selected p).isEmpty = true ∨ ok s = true) :
    needActive p ok s = (.ok (), s) := by
  rw [needActive, M.get_bind, Bool.or_eq_true_iff.mpr h]
  rfl

theorem needActive_no {ok : State → Bool} (hactive : (s.selected p).isEmpty = false) (h : ok s = false) :
    needActive p ok s = (.error (.trap (plainTrap Cause.illop s.evalWord)), s) := by
  rw [needActive, M.get_bind, hactive, h]
  rfl

theorem apart_ok {sources : List (BitVec 5)}
    (h : ∀ a ∈ sources, rangesMeet d.toNat s.vt.gm a.toNat s.vt.gm = false) (hspan : s.th.held.remote = 0#4) :
    apart d sources s = (.ok (), s) := by
  have hclear : (sources.all fun a => !rangesMeet d.toNat s.vt.gm a.toNat s.vt.gm) = true :=
    List.all_eq_true.mpr fun a ha => by rw [h a ha, Bool.not_false]
  rw [apart, M.get_bind, hclear, hspan]
  rfl

/-- A change that only a whole pass makes. -/
theorem wholePass_run (g : State → State) :
    (do if (← get).wholePass then modify g : M Unit) s = (.ok (), if s.wholePass then g s else s) := by
  rw [M.get_bind, M.ite_run]
  split <;> rfl

theorem State.selected_of_vl_zero (h : s.vl = 0) : s.selected p = [] := by rw [State.selected, h]; rfl

/-- Without elements nothing is written, merged or folded. -/
theorem State.putAll_nil (t : Vt) : s.putAll t d [] [] = s := rfl

variable {regs sources : List (BitVec 5)} {types : Vt → Bool} {ok : State → Bool} {g : Vt → State → State}
  (h : s.vecOk regs types = true)
include h

/-- Instructions whose only checks are those of every vector member. -/
theorem State.conclude_wholePass :
    s.conclude (do
      let t ← vectorChecks regs types
      if (← get).wholePass then modify (g t)) = (if s.wholePass then g s.vt s else s).retires := by
  refine State.conclude_ok ?_
  rw [M.bind_ok _ _ s s _ (vectorChecks_ok h)]
  exact wholePass_run _

/-- Instructions with a rule of their own, registers apart from vd and no span. -/
theorem State.conclude_apart (hrule : (s.selected p).isEmpty = true ∨ ok s = true)
    (happart : ∀ a ∈ sources, rangesMeet d.toNat s.vt.gm a.toNat s.vt.gm = false)
    (hspan : s.th.held.remote = 0#4) :
    s.conclude (do
      let t ← vectorChecks regs types
      needActive p ok
      apart d sources
      if (← get).wholePass then modify (g t)) = (if s.wholePass then g s.vt s else s).retires := by
  refine State.conclude_ok ?_
  rw [M.bind_ok _ _ s s _ (vectorChecks_ok h), M.bind_ok _ _ s s _ (needActive_ok hrule),
    M.bind_ok _ _ s s _ (apart_ok happart hspan)]
  exact wholePass_run _

end Checks

/-! ### Butterflies and reordering (R211 to R213) -/

section Moves

variable {s : State} {d a b p : BitVec 5}

theorem State.fly_ok {r : Nat} (h : s.vecOk [d, a, b] isComplex = true) (hvl : s.vl % r = 0)
    (ha : rangesMeet d.toNat s.vt.gm a.toNat s.vt.gm = false) (hspan : s.th.held.remote = 0#4)
    (hb : rangesMeet d.toNat s.vt.gm b.toNat s.vt.gm = false) (hwhole : s.wholePass = true) :
    s.fly r d a b p =
      (let rs := ((s.selected p).filter (fun e => decide (e < s.vl / r))).map
         (fun e => (e, s.butterfly s.vt r a b e))
       (s.putAll s.vt d
         (rs.foldl (fun l x => l ++ (List.range r).zipWith (fun k o => (r * x.1 + k, o.val)) x.2.1) [])
         (rs.map (fun x => (x.1, x.2.1.foldl (fun m o => m ||| o.ev) x.2.2)))).retires) :=
  (State.conclude_apart h (.inr (decide_eq_true hvl))
    (List.forall_mem_cons.mpr ⟨ha, List.forall_mem_singleton.mpr hb⟩) hspan).trans (by rw [if_pos hwhole])

section Reorder

variable {ok : State → Bool} {f : State → Nat → Nat} (h : s.vecOk [d, a] (fun t => !t.sq) = true)
  (happart : rangesMeet d.toNat s.vt.gm a.toNat s.vt.gm = false) (hspan : s.th.held.remote = 0#4)
include h happart hspan

theorem State.reorder_ok (hrule : ok s = true) (hwhole : s.wholePass = true) :
    s.reorder d a p ok f = (s.putAll s.vt d ((s.selected p).map (fun e => (e, s.elem a (f s e)))) []).retires :=
  (State.conclude_apart h (.inr hrule) (List.forall_mem_singleton.mpr happart) hspan).trans (by rw [if_pos hwhole])

/-- Without a selected element a reordering writes nothing, whatever its rule (R209). -/
theorem State.reorder_idle (hidle : s.selected p = []) : s.reorder d a p ok f = s.retires :=
  (State.conclude_apart h (.inl (List.isEmpty_iff.mpr hidle)) (List.forall_mem_singleton.mpr happart) hspan).trans
    (by rw [hidle, List.map_nil, State.putAll_nil, ite_self])

end Reorder
end Moves

section Rotation

variable {x : W64} {z k : Nat} (hx : x.toNat = z + k * 2 ^ 16) (hz : z ≤ 384)
include hx hz

theorem rotZ_eq : rotZ x = z := by
  rw [rotZ, bitsAt, hx]; omega

theorem rotC_eq (hk : k < z) : rotC x = k := by
  rw [rotC, bitsAt, hx]; omega

end Rotation

/-! ### Bits and codes (R214 to R216) -/

section Codes

variable {s : State} {c : Bool} {d a b p : BitVec 5}

theorem vbgath_ok (h : s.vecOk [d, a] (fun t => !t.sq) = true) (hsel : (s.selected p).isEmpty = false) :
    exec (.vbgath c d a b p) s =
      (((((List.range s.vl).filter (fun e => s.performs e && !s.done e)).map (fun e =>
          (e, s.gov p e && (s.elem a e).testBit ((s.rd b).toNat % s.vt.sew)))) ++
        ((List.range (8 * ceilDiv s.vl 8 - s.vl)).map (· + s.vl)).map (·, false)).foldl
          (fun v x => v.putBits d.toNat x.1 1 (if x.2 then 1 else 0)) s).retires :=
  (State.conclude_checks h).trans (by rw [hsel, if_neg Bool.false_ne_true])

theorem vgold_ok (h : s.vecOk [d, a] (fun t => decide (t.cls = 1 ∧ t.sewE = 3)) = true)
    (hop : (s.rd b).toNat ≤ 2) :
    exec (.vgold c d a b p) s = (s.mapElems d p (fun e =>
      let x1 := s.elem a e % 2 ^ 31
      let x2 := s.elem a e / 2 ^ 32 % 2 ^ 31
      s.vt.res { val := if (s.rd b).toNat = 0 then goldGen 64 x1 x2 0
                   else if (s.rd b).toNat = 1 then goldSteps 64 x1 x2 else goldSteps 1600 1 x1,
                 ev := 0 })).retires := by
  refine State.conclude_ok ?_
  rw [M.bind_ok _ _ s s _ (vectorChecks_ok h), M.get_bind,
    M.bind_ok _ _ s s _ (needActive_ok (.inr (decide_eq_true hop)))]
  rfl

theorem vllrpk_ok (h : s.vecOk [d] (fun t => decide (t.cls = 0 ∧ t.sewE = 0)) = true)
    (hgroup : groupOk s.vt (2 * s.vt.gm) a = true)
    (happart : rangesMeet d.toNat s.vt.gm a.toNat (2 * s.vt.gm) = false) (hn : (s.rd b).toNat < 16) :
    exec (.vllrpk c d a b p) s = (s.mapElems d p (fun e =>
      let y := rshift (sextN 16 (s.elemOf (2 * s.vt.gm) 16 a.toNat e)) (s.rd b).toNat s.vt.rnd
      let r := min (max y (-127)) 127
      s.vt.res { val := lowN 8 r, ev := if r = y then 0 else evSat })).retires := by
  refine State.conclude_ok ?_
  rw [M.bind_ok _ _ s s _ (vectorChecks_ok h), need_bind, if_pos (by rw [hgroup, happart]; rfl), M.get_bind,
    M.bind_ok _ _ s s _ (needActive_ok (.inr (decide_eq_true hn)))]
  rfl

end Codes

/-! ### Permutes across elements and die halves (R217, R218) -/

section Permutes

variable {s : State} {c : Bool} {d a b p : BitVec 5}

theorem vperm_ok (h : s.vecOk [d, a, b] (fun t => !t.sq) = true)
    (happart : rangesMeet d.toNat s.vt.gm a.toNat s.vt.gm = false) (hwhole : s.wholePass = true) :
    exec (.vperm c d a b p) s = (s.putAll s.vt d ((s.selected p).map (fun e =>
      (e, if decide (s.elem b e < s.vl) &&
          (s.localHalf (s.groupOf (s.elem b e)) == s.localHalf (s.groupOf e))
        then s.elem a (s.elem b e) else 0))) []).retires := by
  refine State.conclude_ok ?_
  rw [M.bind_ok _ _ s s _ (vectorChecks_ok h), need_bind, if_pos (by rw [happart]; rfl), wholePass_run, if_pos hwhole]

theorem vzip_ok (h : s.vecOk [d, a, b] (fun t => !t.sq) = true)
    (ha : rangesMeet d.toNat s.vt.gm a.toNat s.vt.gm = false) (hspan : s.th.held.remote = 0#4)
    (hb : rangesMeet d.toNat s.vt.gm b.toNat s.vt.gm = false) (hwhole : s.wholePass = true) :
    exec (.vzip c d a b p) s = (s.putAll s.vt d ((s.selected p).map (fun e =>
      (e, if e % 2 = 0 then s.elem a (e / 2) else s.elem b (e / 2)))) []).retires := by
  refine State.conclude_ok ?_
  rw [M.bind_ok _ _ s s _ (vectorChecks_ok h),
    M.bind_ok _ _ s s _ (apart_ok (List.forall_mem_cons.mpr ⟨ha, List.forall_mem_singleton.mpr hb⟩) hspan),
    wholePass_run, if_pos hwhole]

theorem vunzip_run (h : s.vecOk [d, a] (fun t => !t.sq) = true)
    (hparity : (s.selected p).isEmpty = true ∨ decide (b.toNat < 2) = true)
    (happart : rangesMeet d.toNat s.vt.gm a.toNat s.vt.gm = false) (hspan : s.th.held.remote = 0#4) :
    exec (.vunzip c d a b p) s = (if s.wholePass then s.putAll s.vt d ((s.selected p).map (fun e =>
      (e, if 2 * e + b.toNat < s.vl then s.elem a (2 * e + b.toNat) else 0))) [] else s).retires :=
  State.conclude_apart h hparity (List.forall_mem_singleton.mpr happart) hspan

/-- The beats of a group, each taken from the same position in the other die half, written over vd. -/
def State.exchanged (s : State) (d a : BitVec 5) : State :=
  (((List.range s.beats).map (fun k => (k, s.beat a (k / s.lg * s.lg + (k % s.lg + s.locals) % s.lg)))).foldl
    (fun v x => v.putBeat d x.1 x.2) s).foldGroup d

theorem vxchg_run (h : s.vecOk [d, a] (fun _ => true) = true)
    (hhalves : s.vl = 0 ∨ s.th.held.remote ≠ 0#4 ∧ popN 4 s.th.held.loc.toNat = popN 4 s.th.held.remote.toNat) :
    exec (.vxchg c d a) s = (if s.wholePass then s.exchanged d a else s).retires := by
  refine State.conclude_ok ?_
  rw [M.bind_ok _ _ s s _ (vectorChecks_ok h), M.get_bind, need_bind, if_pos (by simpa using hhalves), wholePass_run]
  rfl

theorem State.beats_of_vl_zero (h : s.vl = 0) : s.beats = 0 := by
  simp [State.beats, h, ceilDiv]

theorem State.foldGroup_of_vl_zero (h : s.vl = 0) : s.foldGroup d = s := by
  rw [State.foldGroup, h]; rfl

/-- Without elements there are no beats to exchange. -/
theorem State.exchanged_of_vl_zero (h : s.vl = 0) : s.exchanged d a = s := by
  rw [State.exchanged, State.beats_of_vl_zero h]
  exact State.foldGroup_of_vl_zero h

end Permutes

/-- Settles O28: butterflies and reorderings in their common forms, VBPERM element by element, the scales of sq from
the checks alone, and the others each by their own equation. -/
theorem signalAndPermutes : Obligations.SignalAndPermutes := by
  refine ⟨fun s c d a b p => ⟨?fly2, ?fly4, fun h hpow happart hspan hwhole => ?bitrev,
      fun h hvl happart hspan => ?bitrevEmpty, fun h hrows hdiv happart hspan hwhole => ?intlv,
      fun h hrows hdiv happart hspan hwhole => ?dintlv,
      fun z k hx hlow hz hk hdiv h happart hspan hwhole => ?rotz,
      fun h => ?bperm, vbgath_ok, vgold_ok, vllrpk_ok⟩,
    fun s c d a b p => ⟨vperm_ok, fun h hwhole => ?permb, fun h hspan hhalves hwhole => ?xchg,
      fun h hvl => ?xchgEmpty, fun h hidle happart hspan => ?unzipEmpty, vzip_ok,
      fun h hparity happart hspan hwhole => ?unzip, State.conclude_checks, State.conclude_checks, State.conclude_checks⟩⟩
  case fly2 | fly4 => exact State.fly_ok
  case bitrev => exact State.reorder_ok h happart hspan (decide_eq_true hpow) hwhole
  case bitrevEmpty => exact State.reorder_idle h happart hspan (State.selected_of_vl_zero hvl)
  case intlv | dintlv => exact State.reorder_ok h happart hspan (decide_eq_true ⟨hrows, hdiv⟩) hwhole
  case rotz =>
    obtain rfl := rotZ_eq hx hz
    obtain rfl := rotC_eq hx hz hk
    exact State.reorder_ok h happart hspan (decide_eq_true ⟨hlow, hz, hk, hx, hdiv⟩) hwhole
  case bperm => exact State.elemWise_next h fun e => rfl
  case permb => exact (State.conclude_wholePass h).trans (by rw [if_pos hwhole])
  case xchg => rw [vxchg_run h (.inr ⟨hspan, hhalves⟩), if_pos hwhole, State.exchanged]
  case xchgEmpty => rw [vxchg_run h (.inl hvl), State.exchanged_of_vl_zero hvl, ite_self]
  case unzipEmpty =>
    rw [vunzip_run h (.inl hidle) happart hspan, List.isEmpty_iff.mp hidle, List.map_nil, State.putAll_nil, ite_self]
  case unzip => rw [vunzip_run h (.inr (decide_eq_true hparity)) happart hspan, if_pos hwhole]

end Sys2Proof.Machine
end

section
/-!
PROOF. The batched solver (R220 to R226): a step whose checks pass in a whole pass, VWSTAG with and without selected
elements, and its trap in a spanned thread.
-/

namespace Sys2Proof.Machine

open Sys2Proof

/-! ### Tags of headers (R226) -/

/-- The headers of the selected elements with their new tags, and the classes that warm starts raise. -/
def State.tagged (s : State) (d a b p : BitVec 5) : State :=
  let rs := (s.selected p).map (fun e => (e, tagHead (s.rd b) (headOf (s.elem a e))))
  (rs.foldl (fun v r => v.putElem d r.1 r.2.1.word) s).mergeFlags
    (rs.map (fun r => (r.1, if r.2.2 then evWsx else 0)))

/-- Without a selected element no header is written and nothing is raised. -/
theorem State.tagged_idle {s : State} {d a b p : BitVec 5} (h : s.selected p = []) : s.tagged d a b p = s := by
  rw [State.tagged, h]
  rfl

/-- What VWSTAG asks of s[b]: no reserved bit, and a dimension of 1 to 8. -/
def tagOperandOk (x : W64) : Bool :=
  decide (x.toNat / 512 = 0) && !x.getLsbD 7 && decide (1 ≤ x.toNat % 16 ∧ x.toNat % 16 ≤ 8)

section Tags

variable {s : State} {c : Bool} {d a b p : BitVec 5} (h : s.vecOk [d, a] (Vt.isIn [4]) = true)
include h

theorem vwstag_run (hoperand : (s.selected p).isEmpty = true ∨ tagOperandOk (s.rd b) = true)
    (hspan : s.th.held.remote = 0#4) :
    exec (.vwstag c d a b p) s = (if s.wholePass then s.tagged d a b p else s).retires := by
  refine State.conclude_ok ?_
  rw [M.bind_ok _ _ s s _ (vectorChecks_ok h), M.get_bind, M.bind_ok _ _ s s _ (needActive_ok hoperand), M.get_bind,
    need_bind, if_pos (by rw [hspan]; rfl), wholePass_run]
  rfl

/-- In a spanned thread VWSTAG ends in ILLOP, whether its operand is refused first or the span is. -/
theorem vwstag_spanned (hone : s.cv.many = false) (hspan : s.th.held.remote ≠ 0#4) :
    exec (.vwstag c d a b p) s = s.traps (plainTrap Cause.illop s.evalWord) := by
  refine State.conclude_trap ?_ hone
  rw [M.bind_ok _ _ s s _ (vectorChecks_ok h), M.get_bind]
  by_cases hoperand : (s.selected p).isEmpty = true ∨ tagOperandOk (s.rd b) = true
  case pos =>
    have hrefused : (s.th.held.remote == 0) = false := beq_false_of_ne hspan
    rw [M.bind_ok _ _ s s _ (needActive_ok hoperand), M.get_bind, hrefused]
    rfl
  case neg =>
    obtain ⟨hactive, hbad⟩ := not_or.mp hoperand
    exact M.bind_error _ _ s s _ (needActive_no (eq_false_of_ne_true hactive) (eq_false_of_ne_true hbad))

end Tags

/-- Settles O29: the three steps go on from the checks that pass, and VWSTAG with and without
selected elements and in a span. -/
theorem batchedSolver : Obligations.BatchedSolver := by
  refine fun s c d a b p => ⟨fun t n m h hwhole => ?gaussJordan, fun t n m h hwhole => ?substitute,
    fun t n m h hwhole => ?newtonSchulz, fun h hlow hbit hmin hmax hspan hwhole => ?tag,
    fun h hidle hspan => ?tagIdle, fun hone h hspan => vwstag_spanned h hone hspan⟩
  case gaussJordan | substitute | newtonSchulz =>
    refine State.conclude_ok ?_
    rw [M.bind_ok _ _ s s _ h]
    exact (wholePass_run _).trans (by rw [if_pos hwhole])
  case tag =>
    have hoperand : tagOperandOk (s.rd b) = true := by
      rw [tagOperandOk, decide_eq_true (Nat.div_eq_of_lt hlow), hbit, decide_eq_true ⟨hmin, hmax⟩]; rfl
    rw [vwstag_run h (.inr hoperand) hspan, if_pos hwhole]
    rfl
  case tagIdle =>
    rw [vwstag_run h (.inl hidle) hspan, State.tagged_idle (List.isEmpty_iff.mp hidle), ite_self]

end Sys2Proof.Machine
end

section
/-!
PROOF. Matrix multiply (R229 to R234): how an issue on a tile and an array that are free ends, and the products that
MMA and MMAS ask for.
-/

namespace Sys2Proof.Machine

open Sys2Proof

theorem exec_mma (t : BitVec 4) (a b : BitVec 5) (s : State) : exec (.mma t a b) s = execMma t a b s := rfl
theorem exec_mmas (t : BitVec 4) (a b p : BitVec 5) (s : State) : exec (.mmas t a b p) s = execMmas t a b p s := rfl

/-! ### The end of a convoy leaves the VCs alone -/

section Vcs

variable (s : State)

@[simp] theorem State.wr_vcs (r : BitVec 5) (v : W64) : (s.wr r v).vcs = s.vcs := by unfold State.wr; split <;> rfl
@[simp] theorem State.commitLate_vcs : s.commitLate.vcs = s.vcs := s.commitLate_keeps (·.vcs) State.wr_vcs
@[simp] theorem State.clearProgress_vcs : s.clearProgress.vcs = s.vcs := rfl
@[simp] theorem State.committed_vcs : s.committed.vcs = s.vcs := by unfold State.committed; split <;> simp
@[simp] theorem State.advance_vcs (taken : Option W64) : (s.advance taken).vcs = s.vcs :=
  s.advance_keeps (·.vcs) State.modSc_vcs State.modNest_vcs State.wr_vcs taken
@[simp] theorem State.complete_vcs (taken : Option W64) : (s.complete taken).vcs = s.vcs := by
  simp [State.complete_eq]

@[simp] theorem State.migrate_vcs : s.migrate.vcs = s.vcs := by unfold State.migrate; split <;> rfl
@[simp] theorem State.enterHandler_vcs (m : Mode) (c : Nat) : (s.enterHandler m c).vcs = s.vcs := by
  cases m <;> simp [State.enterHandler]

theorem State.takeTrapWith_vcs {t : TrapInfo} (vpart mpart : Bool) (ht : t.cause ≠ Cause.macfail) :
    (s.takeTrapWith t vpart mpart).vcs = s.vcs := by
  rw [State.takeTrapWith_enters vpart mpart ht, State.enterHandler_vcs]
  rfl

theorem State.stepTrap_vcs : s.stepTrap.vcs = s.vcs := by
  have hstep : (plainTrap Cause.step 0).cause ≠ Cause.macfail := by decide
  unfold State.stepTrap
  split
  · split
    · rfl
    · exact State.takeTrapWith_vcs _ _ _ hstep
  · rfl

/-- Neither a retirement nor the ARITH or STEP trap behind it changes a VC. -/
@[simp] theorem State.finish_vcs : s.finish.vcs = s.vcs := by
  have harith : (plainTrap Cause.arith (s.cv.raised.setWidth 64)).cause ≠ Cause.macfail := by
    show Cause.arith ≠ Cause.macfail
    decide
  unfold State.finish
  split
  · rfl
  · by_cases hraised : s.cv.raised &&& s.th.fl.vtrapen = 0#8
    · rw [State.retire_quiet none hraised, State.stepTrap_vcs, State.complete_vcs]
    · rw [State.retire_raised none hraised, State.takeTrapWith_vcs _ _ _ harith]
      exact s.complete_vcs none

end Vcs

/-! ### Claimed tiles and clean operands (R74, R75) -/

section Claims

variable {s : State}

@[simp] theorem State.claimed_cur (t : BitVec 4) : (s.claimed t).cur = s.cur := by
  unfold State.claimed
  split <;> rfl

@[simp] theorem State.claimed_curVc (t : BitVec 4) : (s.claimed t).curVc = s.curVc :=
  congrArg vcOf (State.claimed_cur t)

/-- What of its VC a claim of a tile leaves as it was. -/
theorem State.claimed_vc_keeps {α : Type} (g : Vc → α) (hg : ∀ v k o vf, g (Vc.setOwner v k o vf) = g v)
    (t : BitVec 4) : g ((s.claimed t).vc s.curVc) = g (s.vc s.curVc) := by
  unfold State.claimed
  split
  · rw [State.vc_modVc_same, hg]
  · rfl

theorem State.claimed_array (t : BitVec 4) : ((s.claimed t).vc s.curVc).array = (s.vc s.curVc).array :=
  State.claimed_vc_keeps (·.array) (fun v k o vf => by unfold Vc.setOwner; split <;> rfl) t

theorem State.claimed_caldPoison (t : BitVec 4) :
    ((s.claimed t).vc s.curVc).caldPoison = (s.vc s.curVc).caldPoison :=
  State.claimed_vc_keeps (·.caldPoison) (fun v k o vf => by unfold Vc.setOwner; split <;> rfl) t

/-- The array that a slot takes now is free. -/
theorem State.array_none_of_arrayTurn (h : s.arrayTurn = true) : (s.vc s.curVc).array = none := by
  simp only [State.arrayTurn, Bool.and_eq_true, Option.isNone_iff_eq_none] at h
  exact h.1

end Claims

/-! ### Issue (R231 to R234) -/

section Issue

variable {s : State} {a b p : BitVec 5} {t : BitVec 4} {q : Product} {body : M (Option Product)}

/-- The steps of a product read a poisoned word of the caldera (R75). -/
def Product.meetsPoison (q : Product) (v : Vc) : Bool :=
  v.caldPoison.any (fun x => (List.range 8).any (fun i =>
    q.steps.any (fun st => q.w.reads q.t q.kb st.2 ((8 * x + i) % 32768))))

theorem caldClean_run (q : Product) (s : State) :
    caldClean q s =
      if q.meetsPoison (s.vc s.curVc) then (.error (.trap (plainTrap Cause.macfail 0)), s) else (.ok (), s) := by
  simp only [caldClean, M.get_bind, M.ite_run, trap_run, M.pure_run]
  rfl

theorem tileReady_ok {ws : List Nat} (hown : s.owns t = true) (hclean : (s.claimed t).tilePoison t ws = false) :
    tileReady t ws s = (.ok (), s) := by
  simp only [tileReady]
  rw [M.bind_ok _ _ s s () (checkOwner_ok hown), M.get_bind, M.ite_run]
  split
  case isTrue howned =>
    rw [State.claimed, if_neg howned] at hclean
    exact tileClean_ok hclean
  case isFalse => rfl

theorem caldClean_state (q : Product) (s : State) : (caldClean q s).2 = s := by
  rw [caldClean_run]
  split <;> rfl

theorem caldClean_ok_iff : caldClean q s = (.ok (), s) ↔ q.meetsPoison (s.vc s.curVc) = false := by
  rw [caldClean_run]
  cases q.meetsPoison (s.vc s.curVc) with
  | true => exact iff_of_false nofun nofun
  | false => exact iff_of_true rfl rfl

theorem tileClean_ok_iff {ws : List Nat} : tileClean t ws s = (.ok (), s) ↔ s.tilePoison t ws = false := by
  rw [tileClean_run]
  cases s.tilePoison t ws with
  | true => exact iff_of_false nofun nofun
  | false => exact iff_of_true rfl rfl

/-- Operands that are clean with the tile claimed are ready before it is claimed. -/
theorem operandsReady_ok (hown : s.owns t = true)
    (hclean : operandsClean t q (s.claimed t) = (.ok (), s.claimed t)) : operandsReady t q s = (.ok (), s) := by
  obtain ⟨_, _, hcald, htile⟩ := M.bind_eq_ok.mp hclean
  obtain rfl := M.eq_of_state (caldClean_state q _) hcald
  have hmeets : q.meetsPoison (s.vc s.curVc) = false := by
    rw [caldClean_ok_iff, State.claimed_curVc, Product.meetsPoison, State.claimed_caldPoison] at hcald
    exact hcald
  have hnone : (s.claimed t).tilePoison t [] = false := by simp [State.tilePoison]
  simp only [operandsReady]
  rw [M.bind_ok _ _ s s () (tileReady_ok hown hnone), M.bind_ok _ _ s s () (caldClean_ok_iff.mpr hmeets)]
  exact tileReady_ok hown (tileClean_ok_iff.mp htile)

/-- The state in which a product has been added to its tile and the array is held (R231, R234). -/
def State.issued (s : State) (t : BitVec 4) (q : Product) : State :=
  (((s.claimed t).multiply t q).clearMprog).modVc s.curVc (fun v =>
    { v with array := some (s.cur, t), lastArray := s.cur })

theorem State.finish_vc (s : State) (n : Nat) : s.finish.vc n = s.vc n := by simp [State.vc]

theorem State.matrix_issues (hbody : body s = (.ok (some q), s)) (hown : s.owns t = true)
    (hturn : (s.claimed t).arrayTurn = true) (hclean : operandsClean t q (s.claimed t) = (.ok (), s.claimed t))
    (hcut : s.cv.cut = []) :
    s.matrix t body = .next ((s.issued t q).finish.modHw (fun h => { h with wait := some .array })) := by
  have hfree : (s.vc s.curVc).array = none := by
    rw [← State.claimed_array t, ← State.claimed_curVc t]
    exact State.array_none_of_arrayTurn hturn
  have hheld : ((s.issued t q).finish.vc s.curVc).array = some (s.cur, t) := by
    rw [State.finish_vc, State.issued, State.vc_modVc_same]
  unfold State.matrix
  rw [State.conclude_ok (s := s) (t := s.issued t q)]
  · exact if_pos ⟨by rw [hfree]; rfl, hheld⟩
  · rw [M.bind_ok _ _ s s _ hbody]
    dsimp only
    rw [M.bind_ok _ _ s s () (operandsReady_ok hown hclean), M.bind_ok _ _ s _ () (claimTile_ok hown), M.get_bind,
      hturn, hcut]
    simp [State.issued]

theorem State.matrix_empty (hbody : body s = (.ok none, s)) : s.matrix t body = s.clearMprog.retires := by
  unfold State.matrix
  rw [State.conclude_ok (s := s) (t := s.clearMprog)]
  · refine if_neg fun ⟨hfree, hheld⟩ => ?_
    have hvc : s.clearMprog.finish.vc s.curVc = s.vc s.curVc := State.finish_vc _ _
    rw [hvc] at hheld
    rw [hheld] at hfree
    cases hfree
  · rw [M.bind_ok _ _ s s _ hbody]
    rfl

/-- The product of MMA (R231). -/
def State.mmaProduct (s : State) (a b : BitVec 5) : Product :=
  { t := s.vt
    a := a
    w := bWord (s.rd b).toNat
    kb := s.vl / 32
    steps := (List.range (s.vl / 32)).map (fun i => (i, i)) }

/-- The rows that the mask of MMAS selects (R232). -/
def State.maskRows (s : State) (b p : BitVec 5) : List Nat :=
  (List.range (bWord (s.rd b).toNat).ku).filter (fun k => (s.pred (s.predNo p)).getLsbD k)

/-- The product of MMAS (R232). -/
def State.mmasProduct (s : State) (a b p : BitVec 5) : Product :=
  { t := s.vt
    a := a
    w := bWord (s.rd b).toNat
    kb := (bWord (s.rd b).toNat).ku
    steps := (List.range (s.maskRows b p).length).zip (s.maskRows b p) }

/-- What a matrix instruction asks for alone decides its outcome. -/
theorem State.matrix_congr {body' : M (Option Product)} (h : body s = body' s) :
    s.matrix t body = s.matrix t body' := by
  simp only [State.matrix, State.conclude, M.bind_run, h]

variable (htype : s.vecOk [a] matrixType = true)
include htype

theorem mma_run (hku : (bWord (s.rd b).toNat).ku = 0) (hok : s.bOk s.vt (bWord (s.rd b).toNat) (s.vl / 32) = true) :
    exec (.mma t a b) s = s.matrix t (pure (if s.vl = 0 then none else some (s.mmaProduct a b))) := by
  rw [exec_mma]
  refine State.matrix_congr ?_
  rw [M.bind_ok _ _ s s _ (vectorChecks_ok htype), need_bind, if_pos (by rw [hku, hok]; rfl)]
  rfl

theorem mmas_run (hp : p ≠ 0#5) (hmin : 1 ≤ (bWord (s.rd b).toNat).ku) (hmax : (bWord (s.rd b).toNat).ku ≤ 4096)
    (hok : s.bOk s.vt (bWord (s.rd b).toNat) (bWord (s.rd b).toNat).ku = true)
    (hrows : (s.maskRows b p).length = s.vl / 32) :
    exec (.mmas t a b p) s = s.matrix t (pure (if s.vl = 0 then none else some (s.mmasProduct a b p))) := by
  rw [exec_mmas]
  refine State.matrix_congr ?_
  rw [M.bind_ok _ _ s s _ (vectorChecks_ok htype), need_bind, if_pos (by simp [hp, hmin, hmax, hok]), need_bind]
  exact if_pos (decide_eq_true hrows)

end Issue

/-- Settles O31: both forms are one issue, of the rows in order or of those that the mask selects. -/
theorem matrixMultiply : Obligations.MatrixMultiply := by
  refine fun s a b p => ⟨fun t q body => State.matrix_issues, fun t htype hku hok hvl => ?mma,
    fun t htype hp hmin hmax hok hrows hvl => ?mmas,
    fun t htype hvl => ⟨fun hku hok => ?mmaEmpty, fun hp hmin hmax hok hrows => ?mmasEmpty⟩⟩
  case mma =>
    rw [mma_run htype hku hok, if_neg hvl]
    exact State.matrix_issues rfl
  case mmas =>
    rw [mmas_run htype hp hmin hmax hok hrows, if_neg hvl]
    exact State.matrix_issues rfl
  case mmaEmpty =>
    rw [mma_run htype hku (by rwa [hvl]), if_pos hvl]
    exact State.matrix_empty rfl
  case mmasEmpty =>
    have hnone : s.maskRows b p = [] := hrows
    rw [mmas_run htype hp hmin hmax hok (by rw [hnone, hvl]; rfl), if_pos hvl]
    exact State.matrix_empty rfl

end Sys2Proof.Machine
end

section
/-!
PROOF. Caldera loads and fills (R239 to R241): the checks of the control words, the read of one piece of a row, and
what CBLD and CBFILL write.
-/

namespace Sys2Proof.Machine

open Sys2Proof

theorem exec_cbld (sc b : BitVec 5) (s : State) : exec (.cbld sc b) s = execCbld sc b s := rfl
theorem exec_cbfill (a b p : BitVec 5) (s : State) : exec (.cbfill a b p) s = execCbfill a b p s := rfl

theorem checkAlign_ok {s : State} {va : W64} {n : Nat} (h : va.toNat % n = 0) : checkAlign va n s = (.ok (), s) := by
  rw [checkAlign, if_pos h]
  rfl

/-- One piece of clean bytes is read as the thread sees it, after its lines have reached their slices. -/
theorem readWide_piece {s r : State} {va : W64} {q : Phys} {n : Nat}
    (hr : s.touch (runLines q.loc n) q.kid (fun _ => .age 0) false = r) (hclean : r.consumes q.loc n = false) :
    readWide va [(q, n)] s = (.ok ((List.range n).map (fun k => r.readByte q.owner (q.loc + k))), r) := by
  subst hr
  simp only [readWide, List.forIn_cons, List.forIn_nil, bind_assoc, M.modify_bind]
  rw [M.bind_ok _ _ _ _ _ (takeBytes_ok hclean)]
  rfl

/-- A check that holds passes. -/
theorem need_of {c : Bool} (h : c = true) (s : State) : need c s = (.ok (), s) := by
  rw [h, need_ok]

/-! ### CBLD (R239, R240) -/

/-- The control word of CBLD (R239). -/
structure LoadWord where
  cb : Nat
  bt : Nat
  bpl : Nat
  kr : Nat
  pitch : W64

def loadWord (x : Nat) : LoadWord :=
  { cb := bitsAt 15 0 x, bt := bitsAt 2 15 x, bpl := bitsAt 3 17 x, kr := bitsAt 13 20 x,
    pitch := BitVec.ofNat 64 (x / 2 ^ 33) }

/-- Bytes of an element. -/
def LoadWord.size (w : LoadWord) : Nat := if w.bt = 0 then 2 else 1

/-- Bytes that are written in each slice. -/
def LoadWord.span (w : LoadWord) : Nat :=
  if w.bt = 2 then (w.bpl + 1) * planeStride w.kr else w.kr * w.size

/-- The rows that are read, by address and length (R240). -/
def LoadWord.rows (w : LoadWord) (base : W64) : List (W64 × Nat) :=
  (List.range w.kr).map (fun k => (rowAddr base w.pitch k, 32 * w.size))

/-- Element i of row k, from the rows as numbers. -/
def LoadWord.elem (w : LoadWord) (got : List (Nat × Nat)) (k i : Nat) : Nat :=
  tget 0 (got.foldl (fun m q => tset 0 m q.1 q.2) ([] : Table Nat)) k / 2 ^ (8 * (i * w.size)) % 2 ^ (8 * w.size)

/-- The bytes that the rows give the columns: element n of row k goes to column n (R240). -/
def LoadWord.writes (w : LoadWord) (got : List (Nat × Nat)) : List (Nat × Byte) :=
  if w.bt = 2 then planeWrites w.cb (w.bpl + 1) w.kr (w.elem got)
  else (List.range 32).flatMap (fun i => (List.range w.kr).flatMap (fun k =>
    writesOf (caldAt i (w.cb + k * w.size)) (leBytes w.size (w.elem got k i))))

/-- The checks of R239 on the word alone. -/
def LoadWord.legal (w : LoadWord) : Bool :=
  decide (w.bt ≠ 3 ∧ (if w.bt = 2 then 1 ≤ w.bpl else w.bpl = 0) ∧ 1 ≤ w.kr ∧ w.kr ≤ 4096 ∧
    w.cb % (if w.bt = 2 then 64 else w.size) = 0)

/-- PITCH has no more bits than the word has above it. -/
theorem loadWord_pitch (x : W64) : (loadWord x.toNat).pitch.toNat = x.toNat / 2 ^ 33 :=
  BitVec.toNat_ofNat .. ▸ Nat.mod_eq_of_lt (Nat.lt_of_le_of_lt (Nat.div_le_self _ _) x.isLt)

/-- A load whose checks pass writes the elements of the rows that it reads. -/
theorem cbld_loads {s u v : State} {sc b : BitVec 5} {w : LoadWord} {all : List (List (W64 × Phys × Nat))}
    {got : List (Nat × Nat)} (hw : loadWord (s.rd sc).toNat = w) (hmode : s.th.sc.mode ≠ .S)
    (hvec : s.th.tr.absent = false) (hlegal : w.legal = true) (hwindow : s.inAcfg w.cb w.span = true)
    (halign : (s.rd b).toNat % w.size = 0) (hpitch : w.kr < 2 ∨ w.pitch.toNat % w.size = 0)
    (hrows : checkRows (w.rows (s.rd b)) s = (.ok (), s)) (hcald : checkCald w.cb w.span s = (.ok (), s))
    (htranslate : translateBy (fun u va => u.lanePlaces va.toNat) .load (w.rows (s.rd b)) s = (.ok all, u))
    (hread : readRows (s.rd b) w.pitch 0 all u = (.ok got, v)) :
    exec (.cbld sc b) s = (v.modVc v.curVc (fun y => y.putCald (w.writes got))).retires := by
  subst hw
  rw [exec_cbld]
  refine State.conclude_ok ?_
  rw [M.bind_ok _ _ s s () (vectorGate_ok hmode hvec)]
  refine (M.bind_ok _ _ s s () (need_of hlegal s)).trans ?_
  refine (M.bind_ok _ _ s s () (need_of hwindow s)).trans ?_
  refine (M.bind_ok _ _ s s () (checkAlign_ok halign)).trans ?_
  rw [if_neg fun ⟨htwo, hstep⟩ => hpitch.elim (Nat.not_lt.mpr htwo) hstep]
  refine (M.bind_ok _ _ s s () hrows).trans ((M.bind_ok _ _ s s () hcald).trans ?_)
  exact (M.bind_ok _ _ s u _ htranslate).trans (M.bind_ok _ _ u v _ hread)

/-! ### CBFILL (R241) -/

section Fill

variable {s : State} {a b p : BitVec 5}

/-- Bytes that CBFILL writes in each slice for some rows (R241). -/
def Vt.fillSpan (t : Vt) (rows : Nat) : Nat :=
  if t.cls == 0 then (t.planes + 1) * planeStride rows else rows * t.size

/-- What CBFILL writes from slice offset x on (R241). -/
def State.fillWrites (s : State) (a p : BitVec 5) (x : Nat) : List (Nat × Byte) :=
  if s.vt.cls == 0 then Machine.planeWrites x (s.vt.planes + 1) (s.vl / 32) (fun k n => s.elem a (32 * k + n))
  else (s.todo p).flatMap (fun e =>
    writesOf (caldAt (e % 32) (x + e / 32 * s.vt.size)) (leBytes s.vt.size (s.elem a e)))

variable (htype : s.vecOk [a] fillType = true) (hx : (s.rd b).toNat < 2 ^ 15) (hvl : s.vl % 32 = 0)
  (halign : (s.rd b).toNat % (if s.vt.cls == 0 then 64 else s.vt.size) = 0)
  (hp : (s.vt.cls == 0) = true → p = 0#5)
  (hwindow : s.inAcfg (s.rd b).toNat (s.vt.fillSpan (s.vl / 32)) = true)
include htype hx hvl halign hp hwindow

/-- A fill whose checks pass writes unless vl = 0. -/
theorem cbfill_run (hcald : s.vl ≠ 0 → checkCald (s.rd b).toNat (s.vt.fillSpan (s.vl / 32)) s = (.ok (), s)) :
    exec (.cbfill a b p) s = (if s.vl = 0 then s
      else s.modVc s.curVc (fun v => v.putCald (s.fillWrites a p (s.rd b).toNat))).retires := by
  have hgoverned : (!(s.vt.cls == 0) || p == 0#5) = true := by
    cases hcls : s.vt.cls == 0 with
    | true => simp [hp hcls]
    | false => rfl
  rw [exec_cbfill]
  refine State.conclude_ok ?_
  rw [M.bind_ok _ _ s s _ (vectorChecks_ok htype), need_bind,
    if_pos (Bool.and_eq_true_iff.mpr ⟨decide_eq_true ⟨hx, hvl, halign⟩, hgoverned⟩)]
  refine (M.bind_ok _ _ s s () (need_of hwindow s)).trans ?_
  by_cases hzero : s.vl = 0
  · rw [if_neg (not_not_intro hzero), if_pos hzero]
    rfl
  · rw [if_pos hzero, if_neg hzero]
    exact M.bind_ok _ _ s s () (hcald hzero)

end Fill

/-- Settles O32: CBLD and the read of its pieces, and the one equation of CBFILL with and without elements. -/
theorem calderaLoads : Obligations.CalderaLoads := by
  refine fun s a b p => ⟨fun sc all got u v => ?load, fun va q n hclean => readWide_piece rfl hclean, ?fill, ?empty⟩
  case load =>
    intro x bt bpl kr n span hmode hvec hbt hbpl hmin hmax hcb hwindow halign hpitch rows hrows hcald htranslate hread
    have hlegal : (loadWord x).legal = true := decide_eq_true ⟨hbt, hbpl, hmin, hmax, hcb⟩
    have hpitch' : kr < 2 ∨ (loadWord x).pitch.toNat % n = 0 := by rwa [loadWord_pitch]
    rw [cbld_loads (w := loadWord x) rfl hmode hvec hlegal hwindow halign hpitch' hrows hcald htranslate hread]
    rfl
  case fill =>
    intro x planes span htype hx hvl halign hp hwindow hsome hcald
    rw [cbfill_run htype hx hvl halign hp hwindow fun _ => hcald, if_neg hsome]
    rfl
  case empty =>
    intro x planes htype hx hvl halign hp hwindow
    have hspan : s.vt.fillSpan (s.vl / 32) = if planes then (s.vt.planes + 1) * planeStride 0 else 0 := by
      rw [hvl, Vt.fillSpan, Nat.zero_div, Nat.zero_mul]
    rw [cbfill_run htype hx (by rw [hvl]) halign hp (by rwa [hspan]) (absurd hvl), if_pos hvl]

end Sys2Proof.Machine
end

section
/-!
PROOF. Vector far atomics (R246) and accumulation windows (R247 to R250): loops of replacements at the homes, and how
each instruction ends.
-/

namespace Sys2Proof.Machine

open Sys2Proof

theorem exec_vamo (d a b p : BitVec 5) (o : BitVec 4) (s : State) :
    exec (.vamo d a b p o) s = execVamo d a b p o s := rfl
theorem exec_wdecl (a b : BitVec 5) (s : State) : exec (.wdecl a b) s = execWdecl a b s := rfl
theorem exec_wupd (d a b p : BitVec 5) (s : State) : exec (.wupd d a b p) s = execWupd d a b p s := rfl
theorem exec_wmerge (s : State) : exec .wmerge s = execWmerge s := rfl
theorem exec_wfree (s : State) : exec .wfree s = execWfree s := rfl

/-! ### Loops that run to their end -/

section Loops

variable {α β : Type}

/-- A loop whose steps all succeed is the fold of its steps. -/
theorem M.forIn_yields {f : α → β → M (ForInStep β)} {g : State × β → α → State × β}
    (hf : ∀ x b s, f x b s = (.ok (.yield (g (s, b) x).2), (g (s, b) x).1)) (l : List α) (b : β) (s : State) :
    forIn l b f s = (.ok (l.foldl g (s, b)).2, (l.foldl g (s, b)).1) := by
  induction l generalizing b s with
  | nil => rfl
  | cons x r ih =>
    rw [List.forIn_cons, M.bind_ok _ _ s _ _ (hf x b s)]
    exact ih _ _

/-- The same where only the state carries over. -/
theorem M.forIn_modifies {f : α → PUnit → M (ForInStep PUnit)} {g : State → α → State}
    (hf : ∀ x s, f x ⟨⟩ s = (.ok (.yield ⟨⟩), g s x)) (l : List α) (s : State) :
    forIn l PUnit.unit f s = (.ok ⟨⟩, l.foldl g s) := by
  induction l generalizing s with
  | nil => rfl
  | cons x r ih =>
    rw [List.forIn_cons, M.bind_ok _ _ s _ _ (hf x s)]
    exact ih _

end Loops

/-- The state after n bytes at a home are replaced by a function of their value (R307). -/
def State.replacedAt (s : State) (p : Phys) (n : Nat) (f : Nat → Nat) : State :=
  (s.claim p.loc p.kid).storeHome p.kid none (fun _ => .age 0)
    (writesOf p.loc (leBytes n (f ((s.claim p.loc p.kid).seenAtHome p n))))

theorem atomicNow_ok (p : Phys) (n : Nat) (f : Nat → Nat) (s : State) :
    atomicNow p n f s = (.ok ((s.claim p.loc p.kid).seenAtHome p n), s.replacedAt p n f) := rfl

/-! ### VAMO (R246) -/

section Vamo

variable {s u v c : State} {d a b p : BitVec 5} {o : BitVec 4} {ps : List (Nat × W64 × Phys)}

/-- One element of VAMO: its word is replaced at its home, and it takes the old value (R246). -/
def vamoStep (t : Vt) (d : BitVec 5) (o : BitVec 4) (s : State) (x : Nat × W64 × Phys) : State :=
  (s.replacedAt x.2.2 t.size (fun old =>
    amoNew o.toNat t.sew old (s.elem d x.1) (s.elemOf t.gm t.sew (d.toNat + t.gm) x.1))).putElem d x.1
      ((s.claim x.2.2.loc x.2.2.kid).seenAtHome x.2.2 t.size)

/-- The buffer drains before the first replacement, if there is one (R271). -/
theorem drain_bind {β : Type}
    (hdrain : ps = [] ∧ v = u ∨ ps ≠ [] ∧ u.bufHeld u.cur u.th.hw.buf = false ∧ v = u.drainAll) (f : Unit → M β) :
    (if !ps.isEmpty then (do let r ← drainBuffer; f r) else f ()) u = f () v := by
  rcases hdrain with ⟨rfl, rfl⟩ | ⟨hsome, hfree, rfl⟩
  · rfl
  · rw [if_pos (by simpa using hsome), M.bind_ok _ _ u _ () (drainBuffer_ok hfree)]

theorem vamo_ok (htype : s.vecOk [d, b] (fun t => t.isIn [0, 1] && decide (2 ≤ t.sewE)) = true) (ho : o.toNat ≤ 9)
    (hcas : o = 9#4 → d.toNat + 2 * s.vt.gm ≤ s.vt.nreg)
    (halign : alignElems s.vt.size (s.elemAddrs (s.rd a) p (s.indexOff b)) s = (.ok (), s))
    (hlock : lockElems s.vt.size true (s.elemAddrs (s.rd a) p (s.indexOff b)) s = (.ok (), s))
    (htranslate : translateAtomics (s.short (s.elemAddrs (s.rd a) p (s.indexOff b))) s.vt.size s =
      (.ok { ok := ps, bad := [] }, u))
    (hdrain : ps = [] ∧ v = u ∨ ps ≠ [] ∧ u.bufHeld u.cur u.th.hw.buf = false ∧ v = u.drainAll)
    (hwaits : atomicWaits ((v.performed ps).map (·.2.2)) s.vt.size v = (.ok (), v))
    (hclaim : claimAll s.vt.size ((v.performed ps).map (·.2)) v = (.ok (), c)) :
    exec (.vamo d a b p o) s = ((v.performed ps).foldl (vamoStep s.vt d o) c).retires := by
  have hregs : (o != 9#4 || decide (d.toNat + 2 * s.vt.gm ≤ s.vt.nreg)) = true := by
    by_cases hop : o = 9#4
    · rw [decide_eq_true (hcas hop), Bool.or_true]
    · rw [bne_iff_ne.mpr hop, Bool.true_or]
  rw [exec_vamo]
  refine State.conclude_ok ?_
  rw [M.bind_ok _ _ s s _ (vectorChecks_ok htype), need_bind,
    if_pos (Bool.and_eq_true_iff.mpr ⟨decide_eq_true ho, hregs⟩), M.bind_ok _ _ s s () halign,
    M.bind_ok _ _ s s () hlock, M.get_bind, M.bind_ok _ _ s u _ htranslate]
  refine (drain_bind hdrain _).trans ?_
  rw [M.get_bind, M.bind_ok _ _ v v () hwaits, M.bind_ok _ _ v c () hclaim,
    M.bind_ok _ _ c _ _ (M.forIn_modifies (g := vamoStep s.vt d o) ?_ _ c)]
  · exact elementFaults_nil _ _
  · intro x s'
    rfl

end Vamo

/-! ### Windows (R247 to R250) -/

theorem windowLost_ok {s : State} (h : s.th.hw.lostWindow = none) : windowLost s = (.ok (), s) := by
  simp only [windowLost, M.get_bind, h]
  rfl

/-- The trap of a discarded window is taken once (R250). -/
theorem windowLost_trap {s : State} {old : W64} (h : s.th.hw.lostWindow = some old) :
    windowLost s = (.error (.trap (plainTrap Cause.illop old)), s.modHw (fun h => { h with lostWindow := none })) := by
  simp only [windowLost, M.get_bind, h]
  rfl

theorem vectorGate_of_vecOk {s : State} {regs : List (BitVec 5)} {types : Vt → Bool}
    (h : s.vecOk regs types = true) : vectorGate s = (.ok (), s) := by
  simp only [State.vecOk, Bool.and_eq_true, bne_iff_ne, Bool.not_eq_true'] at h
  obtain ⟨⟨⟨hmode, hvec⟩, -⟩, -⟩ := h
  exact vectorGate_ok hmode hvec

/-! ### WDECL (R247) -/

section Declare

variable (s : State) (base : W64) (x : Nat)

/-- The tables that receive the lock of a window. -/
def State.windowTables : List Nat :=
  match (spaceOf s.th.id.vf s.th.tr.asid (some s.curTile) base.toNat).1 with
  | .scratch t => if t = s.curTile then [t] else [s.curTile, t]
  | _ => [s.curTile]

/-- The lock of a window of the current thread. -/
def State.windowLock : Lock :=
  let sp := spaceOf s.th.id.vf s.th.tr.asid (some s.curTile) base.toNat
  { space := sp.1, lo := sp.2, hi := sp.2 + winLen x - 1, write := true, node := 0xFFFF, cmd := 0,
    window := some s.cur }

def State.windowTabled : State :=
  (s.windowTables base).foldl
    (fun u t => u.modTile t (fun w => { w with locks := w.locks ++ [s.windowLock base x] })) s

@[simp] theorem State.windowTabled_th : (s.windowTabled base x).th = s.th :=
  foldl_keeps (fun u : State => u.th = s.th) _ (fun u t hu => (State.modTile_th u t _).trans hu) _ s rfl

@[simp] theorem State.windowTabled_mem : (s.windowTabled base x).mem = s.mem :=
  foldl_keeps (fun u : State => u.mem = s.mem) _ (fun u t hu => (State.modTile_mem u t _).trans hu) _ s rfl

/-- The state in which a window is declared, its locks in the tables and at its homes. -/
def State.declared : State :=
  ((s.windowTabled base x).modMem (fun m =>
    { m with winLocks := m.winLocks ++ (s.homeRuns s.ctx base (winLen x)).map (fun r => (s.cur, r.1, r.2)) })).modHw
      (fun h => { h with
        window := some { base := base, ctl := BitVec.ofNat 64 x, touched := [], discarded := false } })

end Declare

theorem wdecl_ok {s : State} {a b : BitVec 5} (hmode : s.th.sc.mode ≠ .S) (hvec : s.th.tr.absent = false)
    (hx : (s.rd b).toNat < 2 ^ 15) (hmin : 8 ≤ winLen (s.rd b).toNat) (hmax : winLen (s.rd b).toNat ≤ 1024)
    (hword : winLen (s.rd b).toNat % winWord (s.rd b).toNat = 0) (hnone : s.th.hw.window = none)
    (halign : (s.rd a).toNat % 64 = 0) (hlock : s.lockHitVa (s.rd a) (winLen (s.rd b).toNat) true = none)
    (hroom : ∀ t : Nat, (s.tile t).locks.length < 64)
    (hfree : (s.homeRuns s.ctx (s.rd a) (winLen (s.rd b).toNat)).all (fun r =>
      !s.windowLocked (some s.cur) r.1 (r.2 - r.1 + 1)) = true) :
    exec (.wdecl a b) s = (s.declared (s.rd a) (s.rd b).toNat).retires := by
  have hheld : ¬ (s.homeRuns s.ctx (s.rd a) (winLen (s.rd b).toNat)).any (fun r =>
      s.windowLocked (some s.cur) r.1 (r.2 - r.1 + 1)) = true := by
    simpa using hfree
  have hfull : ¬ (s.windowTables (s.rd a)).any (fun t => decide (64 ≤ (s.tile t).locks.length)) = true := by
    simpa using fun t _ => hroom t
  rw [exec_wdecl]
  refine State.conclude_ok ?_
  rw [M.bind_ok _ _ s s () (vectorGate_ok hmode hvec), need_bind,
    if_pos (Bool.and_eq_true_iff.mpr ⟨decide_eq_true ⟨hx, hmin, hmax, hword⟩, by rw [hnone]; rfl⟩),
    M.bind_ok _ _ s s () (checkAlign_ok halign), M.bind_ok _ _ s s () (checkLock_ok hlock), if_neg hheld]
  exact congrFun (if_neg hfull) s

/-! ### WUPD (R248) -/

/-- The window after the elements of a list, with the classes raised. -/
def State.touchedBy (s : State) (w : Window) (d : BitVec 5) (as : List (Nat × W64)) : Table W64 × List (Nat × Nat) :=
  as.foldl (fun acc e =>
    let q := touchCopy w.ctl.toNat acc.1 (copyKey (s.laneOf e.1) ((e.2 - w.base).toNat / s.vt.size)) (s.elem d e.1)
    (q.1, acc.2 ++ [(e.1, q.2)])) (w.touched, [])

theorem wupd_ok {s : State} {d a b p : BitVec 5} {w : Window} (hlost : s.th.hw.lostWindow = none)
    (hw : s.th.hw.window = some w) (htype : s.vecOk [d, b] (winType w.ctl.toNat) = true)
    (hinside : (s.elemAddrs (s.rd a) p (s.indexOff b)).all (fun e =>
      decide ((e.2 - w.base).toNat + s.vt.size ≤ winLen w.ctl.toNat ∧ e.2.toNat % s.vt.size = 0)) = true)
    (hlock : lockElems s.vt.size true (s.elemAddrs (s.rd a) p (s.indexOff b)) s = (.ok (), s)) :
    exec (.wupd d a b p) s =
      (let r := s.touchedBy w d ((s.elemAddrs (s.rd a) p (s.indexOff b)).filter (fun e => s.performs e.1))
       ((s.modHw (fun h => { h with window := some { w with touched := r.1 } })).mergeFlags r.2).retires) := by
  have hfind : (s.elemAddrs (s.rd a) p (s.indexOff b)).find? (fun e =>
      decide (winLen w.ctl.toNat < (e.2 - w.base).toNat + s.vt.size ∨ e.2.toNat % s.vt.size ≠ 0)) = none := by
    rw [List.find?_eq_none]
    intro e he
    have hin := of_decide_eq_true (List.all_eq_true.mp hinside e he)
    simpa using hin
  rw [exec_wupd]
  refine State.conclude_ok ?_
  rw [M.bind_ok _ _ s s () (vectorGate_of_vecOk htype), M.bind_ok _ _ s s () (windowLost_ok hlost)]
  simp only [hw]
  rw [M.bind_ok _ _ s s _ (vectorChecks_ok htype)]
  simp only [hfind]
  rw [M.bind_ok _ _ s s () hlock]
  rfl

/-! ### WMERGE (R249) -/

/-- The touched words of a window with their places and copies, in order. -/
def Window.work (w : Window) (lanes : Nat) (ps : List (Phys × Nat)) : List (Nat × Phys × List Nat) :=
  (windowWords w ps).filterMap (fun q =>
    let cs := w.copies lanes q.1
    if cs.isEmpty then none else some (q.1, q.2, cs))

/-- One word of WMERGE: its copies are folded into its home, and the classes that this raises are kept. -/
def mergeStep (x : Nat) (acc : State × List (Nat × Nat)) (q : Nat × Phys × List Nat) : State × List (Nat × Nat) :=
  let old := (acc.1.claim q.2.1.loc q.2.1.kid).seenAtHome q.2.1 (winWord x)
  (acc.1.replacedAt q.2.1 (winWord x) (fun old => (foldCopies x old q.2.2).val),
    acc.2 ++ [(q.1, (foldCopies x old q.2.2).ev)])

theorem wmerge_ok {s u c : State} {w : Window} {ps : List (Phys × Nat)} (hmode : s.th.sc.mode ≠ .S)
    (hvec : s.th.tr.absent = false) (hlost : s.th.hw.lostWindow = none) (hw : s.th.hw.window = some w)
    (htranslate : translateWideBy atomicRefused .store w.base (winLen w.ctl.toNat) 64 s = (.ok ps, u))
    (hdrain : u.bufHeld u.cur u.th.hw.buf = false)
    (hwaits : atomicWaits ((w.work (8 * s.lg) ps).map (·.2.1)) (winWord w.ctl.toNat) u.drainAll = (.ok (), u.drainAll))
    (hclaim : claimAll (winWord w.ctl.toNat) ((w.work (8 * s.lg) ps).map (fun q =>
      (w.base + BitVec.ofNat 64 (q.1 * winWord w.ctl.toNat), q.2.1))) u.drainAll = (.ok (), c)) :
    exec .wmerge s =
      (let r := (w.work (8 * s.lg) ps).foldl (mergeStep w.ctl.toNat) (c, [])
       ((r.1.mergeFlags r.2).modHw (fun h => { h with window := some { w with touched := [] } })).retires) := by
  rw [exec_wmerge]
  refine State.conclude_ok ?_
  rw [M.bind_ok _ _ s s () (vectorGate_ok hmode hvec), M.bind_ok _ _ s s () (windowLost_ok hlost)]
  simp only [hw]
  rw [M.bind_ok _ _ s u _ htranslate, M.bind_ok _ _ u _ () (drainBuffer_ok hdrain)]
  refine (M.bind_ok _ _ _ _ () hwaits).trans ((M.bind_ok _ _ _ c () hclaim).trans ?_)
  refine (M.bind_ok _ _ c _ _ (M.forIn_yields (g := mergeStep w.ctl.toNat) ?_ (w.work (8 * s.lg) ps) [] c)).trans ?_
  · exact fun q evs s' => rfl
  · rfl

/-! ### WFREE and discarded windows (R250) -/

theorem wfree_ok {s : State} (hmode : s.th.sc.mode ≠ .S) (hvec : s.th.tr.absent = false)
    (hlost : s.th.hw.lostWindow = none) : exec .wfree s = (s.dropWindow s.cur false).retires := by
  rw [exec_wfree]
  refine State.conclude_ok ?_
  rw [M.bind_ok _ _ s s () (vectorGate_ok hmode hvec), M.bind_ok _ _ s s () (windowLost_ok hlost)]
  rfl

/-- What begins with the check for a discarded window traps with its base. -/
theorem State.conclude_lost {s : State} {old : W64} (halone : s.cv.many = false) (hmode : s.th.sc.mode ≠ .S)
    (hvec : s.th.tr.absent = false) (hlost : s.th.hw.lostWindow = some old) (f : Unit → M Unit) :
    s.conclude (do vectorGate; let r ← windowLost; f r) =
      (s.modHw (fun h => { h with lostWindow := none })).traps (plainTrap Cause.illop old) := by
  refine State.conclude_trap ?_ halone
  rw [M.bind_ok _ _ s s () (vectorGate_ok hmode hvec), M.bind_error _ _ s _ _ (windowLost_trap hlost)]

/-- Settles O34: the loop of VAMO, each window instruction, and the one trap of a discarded window. -/
theorem atomicsAndWindows : Obligations.AtomicsAndWindows := by
  refine fun s d a b p => ⟨fun u v c w o ps as htype ho hcas has => ?vamo, ?declare, ?update, ?merge, wfree_ok,
    ?lost⟩
  case vamo =>
    subst has
    rintro halign hlock htranslate hdrain hwaits hclaim rfl
    exact vamo_ok htype ho hcas halign hlock htranslate hdrain hwaits hclaim
  case declare =>
    intro x hmode hvec hx hmin hmax hword hnone halign hlock hroom hfree
    refine ⟨s.declared (s.rd a) x, wdecl_ok hmode hvec hx hmin hmax hword hnone halign hlock hroom hfree, rfl, ?_⟩
    simp [State.declared]
  case update => exact fun w => wupd_ok
  case merge => exact fun w ps u c => wmerge_ok
  case lost =>
    exact fun old halone hmode hvec hlost => ⟨State.conclude_lost halone hmode hvec hlost _,
      State.conclude_lost halone hmode hvec hlost _, State.conclude_lost halone hmode hvec hlost _⟩

end Sys2Proof.Machine
end

section
/-!
PROOF. Engine commands and nodes (R243 to R245, R90, R93): the ways a submission ends, the two forms of the commands
that submit, and the node instructions.
-/

namespace Sys2Proof.Machine

open Sys2Proof

theorem exec_ecpy (d a : BitVec 5) (s : State) : exec (.ecpy d a) s = execEcpy d a s := rfl
theorem exec_eldpc (d a b : BitVec 5) (s : State) :
    exec (.eldpc d a b) s = s.codingIssue d a b false (fun _ => .ldpc) := rfl
theorem exec_epolar (d a b : BitVec 5) (s : State) :
    exec (.epolar d a b) s = s.codingIssue d a b false (fun _ => .polar) := rfl
theorem exec_eenc (d a b : BitVec 5) (s : State) :
    exec (.eenc d a b) s = s.codingIssue d a b true (fun desc => if kindBit desc then .polar else .ldpc) := rfl
theorem exec_edge (d a b : BitVec 5) (s : State) : exec (.edge d a b) s = execEdge d a b s := rfl
theorem exec_estat (d a : BitVec 5) (s : State) : exec (.estat d a) s = execEstat d a s := rfl
theorem exec_ewait (d a : BitVec 5) (s : State) : exec (.ewait d a) s = execEwait d a s := rfl
theorem exec_ecancel (d a : BitVec 5) (s : State) : exec (.ecancel d a) s = execEcancel d a s := rfl

/-! ### Submission (R244) -/

section Submit

variable {s u : State} {n : Nat} {k : EngKind} {e : Bool} {desc : List Byte} {node : BitVec 16}

theorem submit_outside (hnode : node ≠ 0xFFFF#16) (hin : s.nodeIn s.curPart node = false) :
    submit (some n) k e desc node s = (.ok 2, s) := by
  simp only [submit, M.get_bind]
  rw [if_pos ⟨hnode, ne_true_of_eq_false hin⟩]
  rfl

section Released

variable (hnode : node = 0xFFFF#16 ∨ s.nodeIn s.curPart node = true ∧ (s.node node).holds = false)
  (hclear : s.clear = true) (hu : s.drainAll = u)
include hnode hclear hu

/-- Past the release a submission waits for room, or registers its command and queues it (R244 steps 5 and 6). -/
theorem submit_run : submit (some n) k e desc node s =
    if queueCap n ≤ (u.queue n).length ∨ ¬ u.locksFit u.curTile (u.newCmd k e desc node).sides then
      (.error (.wait .engineRoom), u)
    else (.ok 0, u.enqueue n (u.newCmd k e desc node)) := by
  have hin : ¬(node ≠ 0xFFFF#16 ∧ ¬ s.nodeIn s.curPart node = true) := by grind
  have hfree : ¬(node ≠ 0xFFFF#16 ∧ (s.node node).holds = true) := by grind
  simp only [submit, M.get_bind]
  rw [if_neg hin, if_neg hfree, M.bind_ok _ _ s u () (hu ▸ release_ok hclear), M.get_bind]
  by_cases hfull : queueCap n ≤ (u.queue n).length ∨ ¬ u.locksFit u.curTile (u.newCmd k e desc node).sides
  · rw [if_pos hfull, if_pos hfull]
    rfl
  · rw [if_neg hfull, if_neg hfull]
    rfl

theorem submit_queues (hroom : (u.queue n).length < queueCap n)
    (hfit : u.locksFit u.curTile (u.newCmd k e desc node).sides = true) :
    submit (some n) k e desc node s = (.ok 0, u.enqueue n (u.newCmd k e desc node)) := by
  rw [submit_run hnode hclear hu, if_neg fun h => h.elim (Nat.not_le.mpr hroom) (not_not_intro hfit)]

theorem submit_full (hfull : queueCap n ≤ (u.queue n).length) :
    submit (some n) k e desc node s = (.error (.wait .engineRoom), u) := by
  rw [submit_run hnode hclear hu, if_pos (.inl hfull)]

end Released

end Submit

section Commands

variable {s t u : State} {d a b : BitVec 5} {desc : List Byte} {c : Nat}

theorem ecpy_writes (hdesc : loadWide (s.rd a) 128 64 s = (.ok desc, t))
    (hsubmit : submit (some s.curTile) .copy false desc (copyDesc desc).node t = (.ok c, u)) :
    exec (.ecpy d a) s = (u.wr d (BitVec.ofNat 64 c)).retires := by
  rw [exec_ecpy]
  refine State.conclude_ok ?_
  rw [M.bind_ok _ _ s t _ hdesc, M.bind_ok _ _ t u _ hsubmit]
  rfl

/-- The three coding commands write the code of their submission to the engine that s[b] names. -/
theorem State.codingIssue_writes {encode : Bool} {kind : List Byte → EngKind} {k : EngKind} (hk : kind desc = k)
    (hdesc : loadWide (s.rd a) 64 64 s = (.ok desc, t))
    (hx : (s.rd b).toNat = (s.rd b).toNat % 16 + (s.rd b).toNat / 256 % 2 * 256)
    (hsubmit : submit (s.chosenEngine k (s.rd b).toNat) k encode desc (codingNode k desc) t = (.ok c, u)) :
    s.codingIssue d a b encode kind = (u.wr d (BitVec.ofNat 64 c)).retires := by
  subst hk
  refine State.conclude_ok ?_
  rw [M.bind_ok _ _ s t _ hdesc, need_bind, if_pos (decide_eq_true hx), M.bind_ok _ _ t u _ hsubmit]
  rfl

end Commands

/-! ### Node instructions (R90, R245) -/

section Nodes

variable {s : State} {d a b : BitVec 5}

theorem nodeArg_ok {x : W64} (h : x.toNat < 2 ^ 16) (s : State) : nodeArg x s = (.ok (x.setWidth 16), s) := by
  simp only [nodeArg]
  rw [need_bind, if_pos (decide_eq_true h)]
  rfl

theorem nodeArg_illop {x : W64} (h : 2 ^ 16 ≤ x.toNat) (s : State) :
    nodeArg x s = (.error (.trap (plainTrap Cause.illop s.evalWord)), s) := by
  simp only [nodeArg]
  rw [need_bind, if_neg (ne_true_of_eq_false (decide_eq_false (Nat.not_lt.mpr h)))]

theorem edge_writes (hp : (s.rd a).toNat < 2 ^ 16) (hq : (s.rd b).toNat < 2 ^ 16) :
    exec (.edge d a b) s = (let r := s.addEdge ((s.rd a).setWidth 16) ((s.rd b).setWidth 16)
      (r.2.wr d (BitVec.ofNat 64 r.1)).retires) := by
  rw [exec_edge]
  refine State.conclude_ok ?_
  rw [M.bind_ok _ _ s s _ (nodeArg_ok hp s), M.bind_ok _ _ s s _ (nodeArg_ok hq s)]
  rfl

/-- A node instruction whose identifier has a bit above 15 set traps ILLOP, whatever it is to do with the node. -/
theorem State.conclude_nodeArg_illop (halone : s.cv.many = false) (ha : 2 ^ 16 ≤ (s.rd a).toNat)
    (f : BitVec 16 → M Unit) :
    s.conclude (do let id ← nodeArg (s.rd a); f id) = s.traps (plainTrap Cause.illop s.evalWord) :=
  State.conclude_trap (M.bind_error _ _ s s _ (nodeArg_illop ha s)) halone

variable (ha : (s.rd a).toNat < 2 ^ 16)
include ha

theorem estat_writes :
    exec (.estat d a) s = (s.wr d (BitVec.ofNat 64 (s.nodeWord ((s.rd a).setWidth 16)))).retires := by
  rw [exec_estat]
  refine State.conclude_ok ?_
  rw [M.bind_ok _ _ s s _ (nodeArg_ok ha s)]
  rfl

theorem ecancel_cancels :
    exec (.ecancel d a) s = (let w := s.nodeWord ((s.rd a).setWidth 16)
      ((if w = 0xFF then s else s.cancelNode ((s.rd a).setWidth 16)).wr d (BitVec.ofNat 64 w)).retires) := by
  rw [exec_ecancel]
  refine State.conclude_ok ?_
  rw [M.bind_ok _ _ s s _ (nodeArg_ok ha s)]
  rfl

theorem ewait_writes (h : s.nodeWord ((s.rd a).setWidth 16) = 0xFF ∨ (s.node ((s.rd a).setWidth 16)).st = .free ∨
      (s.node ((s.rd a).setWidth 16)).finished = true) :
    exec (.ewait d a) s = (s.wr d (BitVec.ofNat 64 (s.nodeWord ((s.rd a).setWidth 16)))).retires := by
  rw [exec_ewait]
  refine State.conclude_ok ?_
  rw [M.bind_ok _ _ s s _ (nodeArg_ok ha s)]
  dsimp only
  rw [if_neg (by grind)]
  rfl

theorem ewait_waits (hword : s.nodeWord ((s.rd a).setWidth 16) ≠ 0xFF)
    (hfree : (s.node ((s.rd a).setWidth 16)).st ≠ .free)
    (hfinished : (s.node ((s.rd a).setWidth 16)).finished = false) :
    exec (.ewait d a) s = s.awaits (.node ((s.rd a).setWidth 16)) := by
  rw [exec_ewait]
  refine State.conclude_wait ?_
  rw [M.bind_ok _ _ s s _ (nodeArg_ok ha s)]
  dsimp only
  rw [if_pos (by grind), M.bind_error _ _ s s _ (waitFor_run _ s)]

end Nodes

/-- Settles O33: the commands write what their submission gives, the submission ends in each of its ways, and the
node instructions act on the identifier of their operand. -/
theorem enginesAndNodes : Obligations.EnginesAndNodes := by
  refine ⟨⟨fun s t u d a desc c => ecpy_writes, fun s t u d a b desc => ?ldpc, fun s t u d a b desc => ?polar,
    fun s t u d a b desc => ?encode, fun s k e desc node => rfl, fun s n k e desc node => submit_outside,
    fun s u n k e desc node hnode hclear hu => ⟨submit_queues hnode hclear hu, submit_full hnode hclear hu⟩⟩,
    fun s d a b => ⟨edge_writes, estat_writes, ewait_writes, ewait_waits, ecancel_cancels,
      fun halone ha => ⟨?status, ?wait, ?cancel⟩⟩⟩
  case ldpc | polar | encode => exact fun hdesc hx c => State.codingIssue_writes rfl hdesc hx
  case status | wait | cancel => exact State.conclude_nodeArg_illop halone ha _

end Sys2Proof.Machine
end

section
/-!
PROOF. Slice routines (R255 to R259): the checks that the four instructions begin with, the result of an installation,
and the calls, of one line and of the lines of the elements.
-/

namespace Sys2Proof.Machine

open Sys2Proof

theorem exec_rinst (d a b : BitVec 5) (s : State) : exec (.rinst d a b) s = execRinst d a b s := rfl
theorem exec_rcall (d a b : BitVec 5) (s : State) : exec (.rcall d a b) s = execRcall d a b s := rfl
theorem exec_rcallv (d a b p : BitVec 5) (s : State) : exec (.rcallv d a b p) s = execRcallv d a b p s := rfl
theorem exec_rfree (d b : BitVec 5) (s : State) : exec (.rfree d b) s = execRfree d b s := rfl

/-! ### Privilege (R255) -/

section Supervisor

variable {s : State}

theorem needSupervisor_ok (h : s.th.sc.mode = .S) : needSupervisor s = (.ok (), s) := by
  rw [needSupervisor, M.get_bind, M.ite_run, if_neg (not_not_intro h)]
  rfl

theorem needSupervisor_priv (h : s.th.sc.mode ≠ .S) :
    needSupervisor s = (.error (.trap (plainTrap Cause.priv s.evalWord)), s) := by
  rw [needSupervisor, M.get_bind, M.ite_run, if_pos h, privTrap_run]

/-- What begins with the privilege check traps PRIV in another mode, whatever comes after it. -/
theorem State.conclude_needSupervisor_priv (halone : s.cv.many = false) (hmode : s.th.sc.mode ≠ .S)
    (f : Unit → M Unit) :
    s.conclude (do let r ← needSupervisor; f r) = s.traps (plainTrap Cause.priv s.evalWord) :=
  State.conclude_trap (M.bind_error _ _ s s _ (needSupervisor_priv hmode)) halone

end Supervisor

/-! ### Installation (R256, R257) -/

section Install

/-- The words of an image of n words. -/
def imageWords (bs : List Byte) (n : Nat) : List W32 :=
  (List.range n).map (fun i => BitVec.ofNat 32 (leNat ((bs.drop (4 * i)).take 4)))

/-- The result word of RINST: CODE, SLOT, COST and IDX (R256). -/
def installWord (ws : List W32) (code slot idx : Nat) : W64 :=
  BitVec.ofNat 64 (code + slot * 2 ^ 8 + (verifyImage ws).2 * 2 ^ 16 + idx * 2 ^ 24)

/-- The state after RINST has read an image under control word x: verified, and installed where codes 1 and 2 allow
it (R256). -/
def State.installed (t : State) (d : BitVec 5) (x : Nat) (ws : List W32) : State :=
  match (verifyImage ws).1 with
  | some (code, idx) => t.wr d (installWord ws code 0 idx)
  | none =>
    if (t.vf t.th.id.vf.toNat).routine (x % 16) ≠ 64 ∧ ¬ x.testBit 4 then t.wr d (installWord ws 1 0 0)
    else
      match (t.part t.curPart).freeSlot with
      | none => t.wr d (installWord ws 2 0 0)
      | some slot =>
        if (t.vf t.th.id.vf.toNat).slrMax.toNat ≤ (t.part t.curPart).slotsUsed t.th.id.vf then
          t.wr d (installWord ws 2 0 0)
        else (t.install t.th.id.vf (x % 16) slot ws).wr d (installWord ws 0 slot 0)

variable {s t : State} {d a b : BitVec 5} {bs : List Byte} {x code idx slot : Nat} {ws : List W32}

theorem State.installed_rejected (hverify : (verifyImage ws).1 = some (code, idx)) :
    t.installed d x ws = t.wr d (installWord ws code 0 idx) := by
  simp only [State.installed, hverify]

theorem State.installed_mapped (hverify : (verifyImage ws).1 = none)
    (hmapped : (t.vf t.th.id.vf.toNat).routine (x % 16) ≠ 64) (hreplace : x.testBit 4 = false) :
    t.installed d x ws = t.wr d (installWord ws 1 0 0) := by
  simp only [State.installed, hverify]
  exact if_pos ⟨hmapped, ne_true_of_eq_false hreplace⟩

theorem State.installed_slot (hverify : (verifyImage ws).1 = none)
    (hopen : (t.vf t.th.id.vf.toNat).routine (x % 16) = 64 ∨ x.testBit 4 = true)
    (hslot : (t.part t.curPart).freeSlot = some slot)
    (hroom : (t.part t.curPart).slotsUsed t.th.id.vf < (t.vf t.th.id.vf.toNat).slrMax.toNat) :
    t.installed d x ws = (t.install t.th.id.vf (x % 16) slot ws).wr d (installWord ws 0 slot 0) := by
  simp only [State.installed, hverify, hslot]
  rw [if_neg (fun h => hopen.elim h.1 h.2), if_neg (Nat.not_le.mpr hroom)]

theorem rinst_ok (hmode : s.th.sc.mode = .S) (hreserved : bitsAt 3 5 (s.rd b).toNat = 0)
    (hhigh : (s.rd b).toNat < 2 ^ 13)
    (hload : loadWide (s.rd a) (4 * (bitsAt 5 8 (s.rd b).toNat + 1)) 128 s = (.ok bs, t)) :
    exec (.rinst d a b) s =
      (t.installed d (s.rd b).toNat (imageWords bs (bitsAt 5 8 (s.rd b).toNat + 1))).retires := by
  rw [exec_rinst]
  refine State.conclude_ok ?_
  rw [M.bind_ok _ _ s s () (needSupervisor_ok hmode),
    M.bind_ok _ _ s s () (need_of (decide_eq_true ⟨hreserved, hhigh⟩) s), M.bind_ok _ _ s t _ hload, M.get_bind]
  unfold State.installed imageWords installWord
  dsimp only
  rcases (verifyImage _).1 with _ | ⟨code, idx⟩
  case some => rfl
  case none =>
    dsimp only
    split
    case isTrue => rfl
    case isFalse =>
      rcases (t.part t.curPart).freeSlot with _ | slot
      case none => rfl
      case some => dsimp only; split <;> rfl

/-- The state after RFREE of number n (R257). -/
def State.freed (s : State) (d : BitVec 5) (n : Nat) : State :=
  if (s.vf s.th.id.vf.toNat).routine n = 64 then s.wr d 1
  else
    ((s.modVf s.th.id.vf.toNat (fun f => { f with rmap := tset 64 f.rmap n 64 })).modPart s.curPart
      (fun p => { p with
        routines := tset Routine.reset p.routines ((s.vf s.th.id.vf.toNat).routine n) Routine.reset })).wr d 0

theorem rfree_ok (hmode : s.th.sc.mode = .S) (hn : (s.rd b).toNat < 16) :
    exec (.rfree d b) s = (s.freed d (s.rd b).toNat).retires := by
  rw [exec_rfree]
  refine State.conclude_ok ?_
  rw [M.bind_ok _ _ s s () (needSupervisor_ok hmode), M.bind_ok _ _ s s () (need_of (decide_eq_true hn) s)]
  rfl

end Install

/-! ### The checks before a call (R258) -/

section Checks

variable {s : State}

theorem callNumber_ok {x : W64} (h : x.toNat < 16) (s : State) : callNumber x s = (.ok x.toNat, s) := by
  rw [callNumber, M.bind_ok _ _ s s () (need_of (decide_eq_true h) s)]
  rfl

theorem callSlot_ok {n slot : Nat} (hslot : (s.vf s.th.id.vf.toNat).routine n = slot) (hmapped : slot ≠ 64) :
    callSlot n s = (.ok slot, s) := by
  subst hslot
  rw [callSlot, M.get_bind]
  dsimp only
  rw [if_neg hmapped]
  rfl

/-- A loop of checks that all pass passes. -/
theorem M.forIn_passes {α : Type} {f : α → M Unit} {l : List α} (h : ∀ x ∈ l, f x s = (.ok (), s)) :
    (forIn l PUnit.unit (fun x _ => do f x; pure (.yield ⟨⟩)) : M PUnit) s = (.ok ⟨⟩, s) := by
  induction l with
  | nil => rfl
  | cons x r ih =>
    obtain ⟨hx, hr⟩ := List.forall_mem_cons.mp h
    rw [List.forIn_cons, bind_assoc, M.bind_ok _ _ s s () hx]
    exact ih hr

/-- A computation ends an instruction by its result alone. -/
theorem State.conclude_congr {t : State} {m m' : M Unit} (h : m s = m' t) : s.conclude m = t.conclude m' := by
  simp only [State.conclude, h]

end Checks

/-! ### RCALL (R258, R261) -/

section Call

/-- How RCALL of number n ends after its call: with the value, or with SLICEERR at the next convoy (R261). -/
def endCall (d : BitVec 5) (n : Nat) (r : SliceEnd × Bool × State) : M Unit := do
  set r.2.2
  match r.1 with
  | .ret v => modify (fun u => u.wr d v)
  | .fail code idx =>
    throw (.trap { plainTrap Cause.sliceerr (sliceVal code idx r.2.1 n 0) with next := true })

variable {s u v r : State} {d a b : BitVec 5} {q : Phys} {slot : Nat}

/-- Past its checks RCALL is one call on the line that it holds. -/
theorem rcall_run (ha : a ≠ 31) (hn : (s.rd (a + 1)).toNat < 16)
    (hslot : (s.vf s.th.id.vf.toNat).routine (s.rd (a + 1)).toNat = slot) (hmapped : slot ≠ 64)
    (hfree : s.bufHeld s.cur s.th.hw.buf = false) (hdrain : s.drainAll = u)
    (hline : checkLine (s.rd a) u = (.ok (), u)) (htranslate : translateAtomic (s.rd a) 1 u = (.ok q, v))
    (hdevice : isDevice q.loc = true) (hhome : v.homeFree q.line 128 = true)
    (hhold : holdLines [(s.rd a, q)] v = (.ok (), r)) :
    exec (.rcall d a b) s =
      r.conclude (endCall d (s.rd (a + 1)).toNat (r.callSlice r.curPart slot q (s.rd d) (s.rd b))) := by
  subst hdrain
  rw [exec_rcall]
  refine State.conclude_congr ?_
  rw [M.bind_ok _ _ s s () (need_of (bne_iff_ne.mpr ha) s), M.bind_ok _ _ s s _ (callNumber_ok hn s),
    M.bind_ok _ _ s s _ (callSlot_ok hslot hmapped), M.bind_ok _ _ s _ () (drainBuffer_ok hfree),
    M.bind_ok _ _ _ _ () hline, M.bind_ok _ _ _ v _ htranslate, hdevice]
  refine (M.bind_ok _ _ v v () (checkHome_ok hhome)).trans ?_
  rw [M.bind_ok _ _ v r () hhold, M.get_bind]
  rfl

end Call

/-! ### RCALLV (R259) -/

section Calls

theorem callGroup_ok {t : Vt} {d a : BitVec 5} (hgroup : d.toNat + 2 * t.gm ≤ t.nreg) (ha : a ≠ 31) (s : State) :
    need (decide (d.toNat + 2 * t.gm ≤ t.nreg) && a != 31) s = (.ok (), s) :=
  need_of (Bool.and_eq_true_iff.mpr ⟨decide_eq_true hgroup, bne_iff_ne.mpr ha⟩) s

variable {s u v r w : State} {d a b p : BitVec 5} {ps : List (Nat × W64 × Phys)} {slot : Nat}
  (htype : s.vecOk [d, b] (fun t => t.isIn [0, 1] && decide (t.sewE = 3)) = true)
  (hgroup : d.toNat + 2 * s.vt.gm ≤ s.vt.nreg) (ha : a ≠ 31) (hn : (s.rd (a + 1)).toNat < 16)
include htype hgroup ha hn

theorem rcallv_idle (has : s.elemAddrs (s.rd a) p (s.indexOff b) = []) :
    exec (.rcallv d a b p) s = s.retires := by
  rw [exec_rcallv]
  refine State.conclude_ok ?_
  rw [M.bind_ok _ _ s s _ (vectorChecks_ok htype), M.bind_ok _ _ s s () (callGroup_ok hgroup ha s),
    M.bind_ok _ _ s s _ (callNumber_ok hn s), has]
  rfl

theorem rcallv_ok (has : s.elemAddrs (s.rd a) p (s.indexOff b) ≠ [])
    (hslot : (s.vf s.th.id.vf.toNat).routine (s.rd (a + 1)).toNat = slot) (hmapped : slot ≠ 64)
    (hlines : ∀ x ∈ s.elemAddrs (s.rd a) p (s.indexOff b), checkLine x.2 s = (.ok (), s))
    (htranslate : translateAtomicsChecked checkLineHome (s.elemAddrs (s.rd a) p (s.indexOff b)) s =
      (.ok { ok := ps, bad := [] }, u))
    (hdevice : ps.all (fun x => isDevice x.2.2.loc) = true) (hfree : u.bufHeld u.cur u.th.hw.buf = false)
    (hdrain : u.drainAll = v) (hhold : holdLines ((v.performed ps).map (·.2)) v = (.ok (), r))
    (hcalls : callAll slot d.toNat s.vt.gm (v.performed ps) r = (.ok [], w)) :
    exec (.rcallv d a b p) s = w.retires := by
  subst hdrain
  have hhost : ps.filter (fun x => !isDevice x.2.2.loc) = [] := by simpa using hdevice
  rw [exec_rcallv]
  refine State.conclude_ok ?_
  rw [M.bind_ok _ _ s s _ (vectorChecks_ok htype), M.bind_ok _ _ s s () (callGroup_ok hgroup ha s),
    M.bind_ok _ _ s s _ (callNumber_ok hn s)]
  dsimp only
  rw [if_pos (by simpa using has), M.bind_ok _ _ s s _ (callSlot_ok hslot hmapped),
    M.bind_ok _ _ s s _ (M.forIn_passes hlines), M.bind_ok _ _ s u _ htranslate]
  dsimp only
  rw [hhost]
  refine (M.bind_ok _ _ u _ () (drainBuffer_ok hfree)).trans ?_
  rw [M.get_bind, M.bind_ok _ _ _ r () hhold, M.bind_ok _ _ r w _ hcalls]
  rfl

end Calls

/-- Settles O35: an installation and a release by their result, the privilege check, and the calls by how they end. -/
theorem sliceRoutines : Obligations.SliceRoutines := by
  refine fun s d a b p => ⟨?install, fun hmode hn => ⟨fun hnone => ?unmapped, fun hsome => ?mapped⟩,
    fun halone hmode => ⟨State.conclude_needSupervisor_priv halone hmode _,
      State.conclude_needSupervisor_priv halone hmode _⟩, ?call, ?calls⟩
  case install =>
    intro t bs x n ws word hmode hreserved hhigh hload
    have hrun : exec (.rinst d a b) s = (t.installed d x ws).retires := rinst_ok hmode hreserved hhigh hload
    exact ⟨fun code idx hverify => hrun.trans (congrArg State.retires (State.installed_rejected hverify)),
      fun hverify hmapped hreplace =>
        hrun.trans (congrArg State.retires (State.installed_mapped hverify hmapped hreplace)),
      fun slot hverify hopen hslot hroom =>
        hrun.trans (congrArg State.retires (State.installed_slot hverify hopen hslot hroom))⟩
  case unmapped => rw [rfree_ok hmode hn, State.freed, if_pos hnone]
  case mapped => rw [rfree_ok hmode hn, State.freed, if_neg hsome]
  case call =>
    intro u v r w q wrote n slot ha hn hmapped hfree hdrain hline htranslate hdevice hhome hhold
    refine ⟨fun x hcall => ?_, fun code idx hcall halone => ?_⟩
    all_goals rw [rcall_run ha hn rfl hmapped hfree hdrain hline htranslate hdevice hhome hhold, hcall]
    · exact State.conclude_ok rfl
    · exact State.conclude_trap rfl halone
  case calls =>
    rintro u v r w ps as n slot htype hgroup ha hn rfl
    exact ⟨rcallv_idle htype hgroup ha hn, fun has hmapped => rcallv_ok htype hgroup ha hn has rfl hmapped⟩

end Sys2Proof.Machine
end

section
/-!
PROOF. Scalar arithmetic (R300 to R303): what the model computes on words is the exact result of the rules.
-/

namespace Sys2Proof.Machine

open Sys2Proof

/-! ### Words and exact integers -/

/-- A shift to the right with the sign is the division that rounds down (R300, SRA). -/
theorem sshiftRight_eq_ofInt (x : W64) (n : Nat) : x.sshiftRight n = BitVec.ofInt 64 (x.toInt / 2 ^ n) := by
  rw [BitVec.sshiftRight, Int.shiftRight_eq_div_pow]
  norm_cast

/-- LUI's and ADDPC's operand: twelve bits up is 4,096 times (R303). -/
theorem upper20_eq_ofInt (u : BitVec 20) : upper20 u = BitVec.ofInt 64 (u.toInt * 4096) := by
  unfold upper20
  rw [BitVec.shiftLeft_eq_mul_twoPow, BitVec.ofInt_mul]
  rfl

theorem clzN_word (x : W64) : clzN 64 x.toNat = if x = 0#64 then 64 else 63 - Nat.log2 x.toNat := by
  rw [clzN, Nat.mod_eq_of_lt x.isLt, bitLen]
  by_cases hx : x = 0#64
  · simp [hx]
  · have hn : x.toNat ≠ 0 := fun h => hx (BitVec.eq_of_toNat_eq h)
    rw [if_neg hn, if_neg hx]
    omega

theorem popN_eq_length (n x : Nat) : popN n x = ((List.range n).filter (fun i => x.testBit i)).length := by
  induction n with
  | zero => rfl
  | succ n ih =>
    rw [popN, ih, List.range_succ, List.filter_append, List.length_append]
    by_cases h : x.testBit n <;> simp [h]

theorem revN_lt (n x : Nat) : revN n x < 2 ^ n := by
  induction n generalizing x with
  | zero => exact Nat.one_pos
  | succ n ih =>
    have := ih (x / 2)
    have := Nat.pow_succ 2 n
    unfold revN
    split <;> omega

/-- A bit of the reversed number is the bit as far from the other end. -/
theorem testBit_revN {n i : Nat} (hi : i < n) (x : Nat) : (revN n x).testBit i = x.testBit (n - 1 - i) := by
  induction n generalizing x i with
  | zero => omega
  | succ n ih =>
    have hput : revN (n + 1) x = 2 ^ n * (x.testBit 0).toNat + revN n (x / 2) := by
      rw [revN]
      cases x.testBit 0 <;> simp
    rw [hput, Nat.testBit_two_pow_mul_add _ (revN_lt n (x / 2))]
    by_cases hin : i < n
    · rw [if_pos hin, ih hin, Nat.testBit_div_two]
      congr 1
      omega
    · obtain rfl : i = n := by omega
      rw [if_neg hin, Nat.sub_self, Nat.add_sub_cancel, Nat.sub_self]
      cases x.testBit 0 <;> rfl

/-- Settles O1: where the model's function is not the stated one, they agree by the lemmas above. -/
theorem registerArithmetic : Obligations.RegisterArithmetic := by
  intro s d a b
  refine ⟨rfl, rfl, rfl, rfl, rfl, rfl, rfl, rfl, ?sra, ?slt, ?sltn, ?mul, rfl, ?clz, ?popc, _, rfl, ?brev⟩
  case sra => exact congrArg (fun x => (s.wr d x).retires) (sshiftRight_eq_ofInt ..)
  case slt =>
    show (s.wr d (flagWord ((s.rd a).slt (s.rd b)))).retires = _
    simp [flagWord, BitVec.slt]
  case sltn =>
    show (s.wr d (flagWord ((s.rd a).ult (s.rd b)))).retires = _
    simp [flagWord, BitVec.ult]
  case mul =>
    rw [BitVec.ofInt_mul, BitVec.ofInt_toInt, BitVec.ofInt_toInt]
    rfl
  case clz => exact congrArg (fun n => (s.wr d (BitVec.ofNat 64 n)).retires) (clzN_word _)
  case popc => exact congrArg (fun n => (s.wr d (BitVec.ofNat 64 n)).retires) (popN_eq_length 64 _)
  case brev =>
    intro i hi
    rw [BitVec.getLsbD_ofNat, testBit_revN hi, decide_eq_true hi, Bool.true_and]
    rfl

/-! ### Division (R301) -/

theorem divS_eq (x y : W64) :
    divS x y = if y = 0#64 then BitVec.ofInt 64 (-1) else BitVec.ofInt 64 (x.toInt.tdiv y.toInt) := by
  have hquot : x.sdiv y = BitVec.ofInt 64 (x.toInt.tdiv y.toInt) := by
    rw [← BitVec.ofInt_toInt (x := x.sdiv y), BitVec.toInt_sdiv, ← BitVec.toInt_ofInt, BitVec.ofInt_toInt]
  rw [divS, hquot]
  rfl

theorem remS_eq (x y : W64) :
    remS x y = if y = 0#64 then x else BitVec.ofInt 64 (x.toInt - x.toInt.tdiv y.toInt * y.toInt) := by
  have hrem : x.srem y = BitVec.ofInt 64 (x.toInt - x.toInt.tdiv y.toInt * y.toInt) := by
    rw [← BitVec.ofInt_toInt (x := x.srem y), BitVec.toInt_srem, Int.tmod_def, Int.mul_comm]
  rw [remS, hrem]

theorem divU_eq (x y : W64) :
    divU x y = if y = 0#64 then BitVec.ofNat 64 (2 ^ 64 - 1) else BitVec.ofNat 64 (x.toNat / y.toNat) := by
  rw [divU, ← BitVec.toNat_udiv, BitVec.ofNat_toNat, BitVec.setWidth_eq]
  rfl

theorem remU_eq (x y : W64) :
    remU x y = if y = 0#64 then x else BitVec.ofNat 64 (x.toNat - x.toNat / y.toNat * y.toNat) := by
  have hrem : x % y = BitVec.ofNat 64 (x.toNat - x.toNat / y.toNat * y.toNat) := by
    rw [Nat.mul_comm, ← Nat.mod_eq_sub_mul_div, ← BitVec.toNat_umod, BitVec.ofNat_toNat, BitVec.setWidth_eq]
  rw [remU, hrem]

/-- Settles O2: the model's quotients and remainders of words are the stated ones. -/
theorem division : Obligations.Division := by
  intro s d a b
  rw [← divS_eq, ← remS_eq, ← divU_eq, ← remU_eq]
  refine ⟨rfl, rfl, rfl, rfl, fun ha hb => ?corner⟩
  case corner =>
    have hdiv : divS (s.rd a) (s.rd b) = s.rd a := by rw [ha, hb]; rfl
    have hrem : remS (s.rd a) (s.rd b) = 0 := by rw [ha, hb]; rfl
    exact ⟨congrArg (fun x => (s.wr d x).retires) hdiv, congrArg (fun x => (s.wr d x).retires) hrem⟩

/-- Settles O3: only the shift with the sign, the compare and the upper immediates are computed otherwise. -/
theorem immediateArithmetic : Obligations.ImmediateArithmetic := by
  intro s d a i n u
  refine ⟨rfl, rfl, rfl, rfl, rfl, rfl, ?srai, ?slti, ?lui, ?addpc⟩
  case srai => exact congrArg (fun x => (s.wr d x).retires) (sshiftRight_eq_ofInt ..)
  case slti =>
    show (s.wr d (flagWord ((s.rd a).slt (sext12 i)))).retires = _
    simp [flagWord, BitVec.slt, sext12, BitVec.toInt_signExtend_of_le]
  case lui => exact congrArg (fun x => (s.wr d x).retires) (upper20_eq_ofInt u)
  case addpc => exact congrArg (fun x => (s.wr d (s.th.sc.pc + x)).retires) (upper20_eq_ofInt u)

/-! ### A value as %hi and %lo -/

theorem sext12_asmLo (x : Int) : sext12 (asmLo (BitVec.ofInt 64 x)) = BitVec.ofInt 64 (x.bmod 4096) := by
  apply BitVec.eq_of_toInt_eq
  have hlow : (asmLo (BitVec.ofInt 64 x)).toInt = x.bmod 4096 := by
    rw [asmLo, BitVec.toInt_setWidth, BitVec.toNat_ofInt, Int.toNat_of_nonneg (by omega)]
    simp only [Int.bmod]
    omega
  have hmin : -2048 ≤ x.bmod 4096 := Int.le_bmod (by decide)
  have hmax : x.bmod 4096 < 2048 := Int.bmod_lt (by decide)
  rw [sext12, BitVec.toInt_signExtend_of_le (by decide), hlow, BitVec.toInt_ofInt,
    Int.bmod_eq_of_le (n := x.bmod 4096)] <;> omega

/-- Twelve bits down and then cut to twenty, a multiple of 4,096 leaves its factor. -/
theorem setWidth_ofInt_ushiftRight (k : Int) :
    ((BitVec.ofInt 64 (k * 4096)) >>> 12).setWidth 20 = BitVec.ofInt 20 k := by
  apply BitVec.eq_of_toNat_eq
  simp only [BitVec.toNat_setWidth, BitVec.toNat_ushiftRight, BitVec.toNat_ofInt, Nat.shiftRight_eq_div_pow]
  omega

theorem asmHi_ofInt (x : Int) : asmHi (BitVec.ofInt 64 x) = BitVec.ofInt 20 (x.bdiv 4096) := by
  have hsum : BitVec.ofInt 64 x = BitVec.ofInt 64 (x.bdiv 4096 * 4096) + BitVec.ofInt 64 (x.bmod 4096) := by
    rw [← BitVec.ofInt_add]
    exact congrArg _ (Int.bdiv_add_bmod' x 4096).symm
  have hlow : (asmLo (BitVec.ofInt 64 x)).signExtend 64 = BitVec.ofInt 64 (x.bmod 4096) := sext12_asmLo x
  rw [asmHi, hlow, hsum, BitVec.add_sub_cancel, setWidth_ofInt_ushiftRight]

/-- `%hi` and `%lo` add up to the value where the upper half with its carry fits 20 bits. -/
theorem upper20_asmHi_add_asmLo {x : Int} (hlo : -(2 ^ 31) - 2048 ≤ x) (hhi : x ≤ 2 ^ 31 - 2049) :
    upper20 (asmHi (BitVec.ofInt 64 x)) + sext12 (asmLo (BitVec.ofInt 64 x)) = BitVec.ofInt 64 x := by
  have hsplit : x.bdiv 4096 * 4096 + x.bmod 4096 = x := Int.bdiv_add_bmod' x 4096
  have hmin : -2048 ≤ x.bmod 4096 := Int.le_bmod (by decide)
  have hmax : x.bmod 4096 < 2048 := Int.bmod_lt (by decide)
  have hfits : (BitVec.ofInt 20 (x.bdiv 4096)).toInt = x.bdiv 4096 := by
    rw [BitVec.toInt_ofInt, Int.bmod_eq_of_le] <;> omega
  rw [upper20_eq_ofInt, asmHi_ofInt, sext12_asmLo, hfits, ← BitVec.ofInt_add, hsplit]

theorem State.plain_wr {s : State} (h : s.plain = true) (r : BitVec 5) (v : W64) : (s.wr r v).plain = true := by
  simpa [State.plain] using h

theorem State.committed_sc {s : State} (h : s.plain = true) : s.committed.th.sc = s.th.sc := by
  rw [State.committed, State.commitLate_plain h]
  split <;> rfl

/-- The end of a plain convoy leaves every register as it was. -/
theorem State.rd_finish_plain {s : State} (h : s.plain = true) (r : BitVec 5) : s.finish.rd r = s.rd r := by
  rw [State.finish_plain h, State.rd, State.modSc_sc, State.committed_sc h]
  rfl

/-- Settles O60: LUI leaves the upper part, to which ADDI adds the lower one. -/
theorem loadImmediatePair : Obligations.LoadImmediatePair := by
  intro s d x hs hd hlo hhi
  refine ⟨(s.wr d (upper20 (asmHi (BitVec.ofInt 64 x)))).finish, rfl, ?_⟩
  refine congrArg (fun v => (State.wr _ d v).retires) ?_
  rw [State.rd_finish_plain (State.plain_wr hs ..), rd_wr_same _ _ _ hd]
  exact upper20_asmHi_add_asmLo hlo hhi
end Sys2Proof.Machine
end

section
/-!
PROOF. Boundaries of convoys: stopped clocks (R446), the step of a loop nest (R296), and taking a trap (R392 to R395).
-/

namespace Sys2Proof.Machine

open Sys2Proof

/-! ### Stopped clocks (R446) -/

theorem runEvent_stopped {s : State} {i : Instr} (hoff : s.hub.clocksOff = true) (hi : i ≠ .powerOnReset) :
    runEvent i s = .fault .clocksStopped := by
  simp only [runEvent, hoff, if_true]

theorem runSlot_stopped {s : State} (hoff : s.hub.clocksOff = true) : runSlot s = .fault .clocksStopped := if_pos hoff

theorem State.switchTo_hub (s : State) (slot : Nat) : (s.switchTo slot).hub = s.hub := by
  unfold State.switchTo; split <;> rfl

/-- Settles O59: by the head of the schedule. -/
theorem clocksStopped : Obligations.ClocksStopped := by
  refine fun s hoff => ⟨fun r hreset => ?reset, fun hother => ?other⟩
  case reset =>
    rw [step, hreset]
    exact if_pos hoff
  case other =>
    unfold step
    split
    · next i r hsched => exact runEvent_stopped hoff (fun hi => hother (by simp [hsched, hi]))
    · next slot r hsched => exact runSlot_stopped ((congrArg _ (State.switchTo_hub ..)).trans hoff)
    · exact runSlot_stopped hoff

/-! ### The step of a nest (R296) -/

section Nest

variable {s : State}

/-- A body convoy before the last. -/
theorem State.advance_next (hbody : s.inBody = true) (hpos : s.th.nest.pos < s.th.nest.blen) :
    s.advance none = (s.modNest (fun n => { n with pos := n.pos + 1 })).modSc (fun c => { c with pc := s.nextPc }) := by
  rw [State.advance, if_pos hbody, if_pos hpos]

theorem State.advance_taken (hbody : s.inBody = true) (t : W64) :
    s.advance (some t) = (s.modNest Nest.close).modSc (fun c => { c with pc := t }) := by
  rw [State.advance, if_pos hbody]

/-- The last body convoy: the body again, or on behind it with the nest closed. -/
theorem State.advance_last (hbody : s.inBody = true) (hpos : s.th.nest.pos = s.th.nest.blen) :
    s.advance none =
      let r := s.nestStep 7 0
      if r.2 then (r.1.modNest (fun n => { n with pos := 0 })).modSc
          (fun c => { c with pc := s.th.nest.body.setWidth 64 <<< 2 })
        else (r.1.modNest Nest.close).modSc (fun c => { c with pc := s.nextPc }) := by
  have hnest : (s.nestStep 7 0).1.th.nest = s.th.nest := State.nestStep_keeps s (·.th.nest) State.wr_nest 7 0
  rw [State.advance, if_pos hbody]
  simp only [hnest]
  exact if_neg (by simp [hpos])

/-- A level counts down, by one or by vl, and moves its address (R296). -/
def State.stepLevel (s : State) (l : NestLevel) (vl : BitVec 13) : State :=
  let s1 := s.wr l.creg (s.rd l.creg - if l.drain then vl.setWidth 64 else 1#64)
  s1.wr l.areg (s1.rd l.areg + l.inc.signExtend 64)

/-- A level that has stepped exits: its count is restored. -/
def State.exitLevel (s : State) (l : NestLevel) (vl : BitVec 13) (count : W64) : State :=
  (s.stepLevel l vl).wr l.creg count

@[simp] theorem State.wr_vec (r : BitVec 5) (v : W64) : (s.wr r v).th.vec = s.th.vec := by unfold State.wr; split <;> rfl

section Level

variable {l : NestLevel} {vl : BitVec 13} {count : W64}

@[simp] theorem State.stepLevel_nest : (s.stepLevel l vl).th.nest = s.th.nest := by simp [State.stepLevel]
@[simp] theorem State.exitLevel_nest : (s.exitLevel l vl count).th.nest = s.th.nest := by simp [State.exitLevel]
@[simp] theorem State.exitLevel_vec : (s.exitLevel l vl count).th.vec = s.th.vec := by
  simp [State.exitLevel, State.stepLevel]

end Level

theorem State.nestStep_none {fuel lv : Nat} (h : s.th.nest.nlev.toNat ≤ lv) : s.nestStep fuel lv = (s, false) := by
  cases fuel with
  | zero => rfl
  | succ fuel => exact if_neg (by omega)

section Step

variable {n : Nest} {vl : BitVec 13} {fuel lv : Nat} (hnest : s.th.nest = n) (hvl : s.th.vec.vl = vl)
  (hlv : lv < n.nlev.toNat)
include hnest hvl hlv

/-- The level counts on. -/
theorem State.nestStep_replays (hcount : 0 < ((s.stepLevel (n.level lv) vl).rd (n.level lv).creg).toInt) :
    s.nestStep (fuel + 1) lv = (s.stepLevel (n.level lv) vl, true) := by
  subst hnest hvl
  rw [State.nestStep, if_pos hlv]
  exact if_pos hcount

/-- The level exits and the next one steps. -/
theorem State.nestStep_exits (hcount : ((s.stepLevel (n.level lv) vl).rd (n.level lv).creg).toInt ≤ 0) :
    s.nestStep (fuel + 1) lv = (s.exitLevel (n.level lv) vl (tget 0 n.init lv)).nestStep fuel (lv + 1) := by
  subst hnest hvl
  rw [State.nestStep, if_pos hlv]
  exact if_neg (Int.not_lt.mpr hcount)

end Step

end Nest

/-- Settles O50: how far the levels exit decides each clause. -/
theorem nestStepping : Obligations.NestStepping := by
  refine ⟨fun s hbody taken => State.advance_outside hbody taken,
    fun s hbody hpos => State.advance_next hbody hpos, fun s t hbody => State.advance_taken hbody t,
    fun s u => ?last⟩
  case last =>
    rintro l hbody hpos hlev rfl v
    have hlast := State.advance_last hbody hpos
    refine ⟨fun hreplay => ?replays, fun hexit hone => ?closes, fun hexit htwo =>
      ⟨fun hreplay => ?replays_next, fun hexit_next hone => ?closes_next⟩, fun hexit htwo => ?deeper⟩
    case replays =>
      rw [hlast, State.nestStep_replays rfl rfl hlev hreplay]
      rfl
    all_goals
      have hnext : s.nestStep 7 0 = State.nestStep _ 6 1 := State.nestStep_exits rfl rfl hlev hexit
      rw [hnext] at hlast
    case closes =>
      rw [hlast, State.nestStep_none (by simp [hone])]
      rfl
    case replays_next =>
      rw [hlast, State.nestStep_replays State.exitLevel_nest (congrArg _ State.exitLevel_vec) htwo hreplay]
      rfl
    case closes_next =>
      rw [hlast, State.nestStep_exits State.exitLevel_nest (congrArg _ State.exitLevel_vec) htwo hexit_next,
        State.nestStep_none (by simp [hone])]
      rfl
    case deeper => exact hlast
end Sys2Proof.Machine
end

section
/-!
PROOF. Bytes of memory (R2, R264, R265): what a write at a home and a store in the buffer leave to be read.
-/

namespace Sys2Proof.Machine

open Sys2Proof

/-! ### A run of bytes as writes -/

section Writes

variable {loc : Nat} {bs : List Byte}

theorem writesOf_eq : writesOf loc bs = (List.range bs.length).map (fun k => (loc + k, bs.getD k 0)) := by
  refine List.ext_getElem (by simp [writesOf]) fun k hk _ => ?_
  have hk : k < bs.length := by simpa [writesOf] using hk
  simp [writesOf, List.getElem?_eq_getElem hk]

/-- A run writes each of its locations, and no location twice. -/
theorem writesOf_at {k : Nat} (hk : k < bs.length) :
    (loc + k, bs.getD k 0) ∈ writesOf loc bs ∧ ∀ w ∈ writesOf loc bs, w.1 = loc + k → w.2 = bs.getD k 0 := by
  rw [writesOf_eq]
  refine ⟨List.mem_map.mpr ⟨k, List.mem_range.mpr hk, rfl⟩, fun w hw hloc => ?_⟩
  obtain ⟨j, -, rfl⟩ := List.mem_map.mp hw
  obtain rfl : j = k := Nat.add_left_cancel hloc
  rfl

theorem writesOf_outside {l : Nat} (h : l < loc ∨ loc + bs.length ≤ l) : ∀ w ∈ writesOf loc bs, w.1 ≠ l := by
  rw [writesOf_eq]
  intro w hw
  obtain ⟨k, hk, rfl⟩ := List.mem_map.mp hw
  have := List.mem_range.mp hk
  dsimp only
  omega

end Writes

/-! ### Writes at homes (R264) -/

section Home

variable {kid : Nat} {keep : Option Nat}

/-- What neither memory's bytes nor a VC is, the write of a byte and its cache traffic leave as it was. -/
theorem pokeByte_dropDcache_keeps {α : Type} (g : State → α) (hvc : ∀ u n f, g (State.modVc u n f) = g u)
    (hmem : ∀ (u : State) p c, g (u.modMem (fun m => { m with pending := p, cells := c })) = g u) (s : State)
    (loc : Nat) (pend : Bool) (b : Byte) : g ((s.pokeByte loc pend b).dropDcache keep loc) = g s := by
  unfold State.dropDcache
  refine foldl_keeps (fun t : State => g t = g s) _ (fun t v ht => (hvc ..).trans ht) _ _ ?_
  unfold State.pokeByte
  split
  · exact hmem s _ s.mem.cells
  · exact hmem s s.mem.pending _

theorem inSharing_pokeByte (s : State) (loc : Nat) (pend : Bool) (b : Byte) (l : Nat) :
    ((s.pokeByte loc pend b).dropDcache keep loc).inSharing l kid = s.inSharing l kid :=
  pokeByte_dropDcache_keeps (·.inSharing l kid) (fun _ _ _ => rfl) (fun _ _ _ => rfl) s loc pend b

/-- A location outside sharing windows holds the one byte that the writes give it. -/
theorem homeByte_pokeBytes_mem {s : State} {ws : List (Nat × Byte)} {l : Nat} {b : Byte} (hmem : (l, b) ∈ ws)
    (honce : ∀ w ∈ ws, w.1 = l → w.2 = b) (hsharing : s.inSharing l kid = false) :
    (s.pokeBytes kid keep ws).homeByte l = b := by
  have hfold : (ws.foldl (fun t w => (t.pokeByte w.1 (t.inSharing w.1 kid) w.2).dropDcache keep w.1) s).homeByte l =
      b := by
    induction ws using List.reverseRecOn with
    | nil => cases hmem
    | append_singleton r w ih =>
      rw [List.foldl_append, List.foldl_cons, List.foldl_nil, homeByte_dropDcache]
      by_cases hw : w.1 = l
      · have hkept := foldl_keeps (fun t : State => t.inSharing l kid = false) _
          (fun t (x : Nat × Byte) ht => (inSharing_pokeByte (keep := keep) t x.1 (t.inSharing x.1 kid) x.2 l).trans ht)
          r s hsharing
        rw [hw, hkept, homeByte_pokeByte_same]
        exact honce w (by simp) hw
      · rw [homeByte_pokeByte_other _ _ _ _ _ (Ne.symm hw)]
        refine ih ?_ (fun x hx => honce x (List.mem_append_left _ hx))
        rcases List.mem_append.mp hmem with hr | hlast
        · exact hr
        · exact absurd (congrArg Prod.fst (List.mem_singleton.mp hlast)).symm hw
  unfold State.pokeBytes
  dsimp only
  split <;> exact hfold

end Home

/-! ### The store buffer (R265) -/

theorem bufByte_append_singleton (buf : List BufEntry) (e : BufEntry) (l : Nat) :
    bufByte (buf ++ [e]) l = ((e.writes.reverse.find? (fun w => w.1 == l)).map (·.2)).or (bufByte buf l) := by
  induction buf with
  | nil => cases h : e.writes.reverse.find? (fun w => w.1 == l) <;> simp [bufByte, h]
  | cons x r ih =>
    rw [List.cons_append, bufByte, ih, bufByte]
    cases (e.writes.reverse.find? (fun w => w.1 == l)).map (·.2) <;> rfl

section Push

variable {s : State} {e : BufEntry} {own : Bool} {l : Nat}

/-- A location that the entry does not write reads as before. -/
theorem readByte_pushBuf_other (h : ∀ w ∈ e.writes, w.1 ≠ l) : (s.pushBuf e).readByte own l = s.readByte own l := by
  have hnone : e.writes.reverse.find? (fun w => w.1 == l) = none :=
    List.find?_eq_none.mpr (by simpa using fun a b hab => h (a, b) hab)
  unfold State.pushBuf
  split
  · rfl
  · show (match bufByte (s.th.hw.buf ++ [e]) l with | some b => b | none => s.homeByteFor own l) = _
    rw [bufByte_append_singleton, hnone]
    rfl

/-- A location reads the one byte that the entry gives it. -/
theorem readByte_pushBuf_mem {b : Byte} (hmem : (l, b) ∈ e.writes) (honce : ∀ w ∈ e.writes, w.1 = l → w.2 = b) :
    (s.pushBuf e).readByte own l = b := by
  have hfind : (e.writes.reverse.find? (fun w => w.1 == l)).map (·.2) = some b := by
    cases hw : e.writes.reverse.find? (fun w => w.1 == l) with
    | none => exact absurd (List.find?_eq_none.mp hw (l, b) (by simpa)) (by simp)
    | some w =>
      have hl : w.1 = l := by simpa using List.find?_some hw
      exact congrArg some (honce w (by simpa using List.mem_of_find?_eq_some hw) hl)
  rw [State.pushBuf, if_neg (by simp [List.ne_nil_of_mem hmem])]
  show (match bufByte (s.th.hw.buf ++ [e]) l with | some b => b | none => s.homeByteFor own l) = _
  rw [bufByte_append_singleton, hfind]
  rfl

end Push

/-- Settles O56: a run writes its locations once each, at home and in the buffer. -/
theorem memoryBytes : Obligations.MemoryBytes := by
  refine ⟨fun s loc kid bs hsharing => ⟨fun k hk => ?home, fun l hl => ?home_other⟩,
    fun s loc kid bs own => ⟨fun k hk => ?buffered, fun l hl => ?buffered_other⟩, fun s e kid keep ws hs => ?canonical⟩
  case home => exact homeByte_pokeBytes_mem (writesOf_at hk).1 (writesOf_at hk).2 (hsharing k hk)
  case home_other => exact homeByte_pokeBytes_other s kid l none _ (writesOf_outside hl)
  case buffered => exact readByte_pushBuf_mem (writesOf_at hk).1 (writesOf_at hk).2
  case buffered_other => exact readByte_pushBuf_other (writesOf_outside hl)
  case canonical => exact ⟨memOk_pokeBytes kid keep ws hs, memOk_performEntry e hs, memOk_drainAll hs⟩

end Sys2Proof.Machine
end

section
/-!
PROOF. Taking a trap (R392 to R395): the records, the handler's mode and entry, and what stays as it is.
-/

namespace Sys2Proof.Machine

open Sys2Proof

/-- Asking slots to stop changes nothing of the current thread but what its slot is asked. -/
theorem State.askAbandon_th (s : State) (slots : List Nat) :
    ∃ h : SlotHw, (s.askAbandon slots).th = { s.th with hw := h } := by
  refine foldl_keeps (fun t : State => ∃ h : SlotHw, t.th = { s.th with hw := h }) _ ?_ slots s ⟨s.th.hw, rfl⟩
  rintro t n ⟨h, hth⟩
  unfold State.modThread
  split
  · exact ⟨_, by rw [hth]⟩
  · exact ⟨h, hth⟩

theorem State.askAbandon_mem (s : State) (slots : List Nat) : (s.askAbandon slots).mem = s.mem := by
  refine foldl_keeps (fun t : State => t.mem = s.mem) _ (fun t n ht => ?_) slots s rfl
  unfold State.modThread
  split <;> exact ht

theorem State.failFunction_th (s : State) (vf : Nat) : ∃ h : SlotHw, (s.failFunction vf).th = { s.th with hw := h } :=
  State.askAbandon_th ..

theorem State.failFunction_mem (s : State) (vf : Nat) : (s.failFunction vf).mem = s.mem := State.askAbandon_mem ..

section Records

variable (s : State) (t : TrapInfo) (vpart mpart : Bool)

theorem State.takeTrapWith_macfail (ht : t.cause = Cause.macfail) :
    s.takeTrapWith t vpart mpart = ((s.writeRecords s.th.sc.pc t vpart mpart).modHw
        (fun h => { h with wait := none, barDone := none, issued := false })).failFunction s.th.id.vf.toNat :=
  if_pos ht

@[simp] theorem State.enterHandler_nest (m : Mode) (c : Nat) : (s.enterHandler m c).th.nest = s.th.nest := by
  cases m <;> simp [State.enterHandler]

/-- Whatever the cause, the records are written and registers and memory stay as they are. -/
theorem State.takeTrapWith_keeps :
    (s.takeTrapWith t vpart mpart).th.tr = (s.writeRecords s.th.sc.pc t vpart mpart).th.tr ∧
      (s.takeTrapWith t vpart mpart).th.sc.s = s.th.sc.s ∧ (s.takeTrapWith t vpart mpart).th.vec = s.th.vec ∧
      (s.takeTrapWith t vpart mpart).th.fl = s.th.fl ∧ (s.takeTrapWith t vpart mpart).th.nest = s.th.nest ∧
      (s.takeTrapWith t vpart mpart).mem = s.mem := by
  by_cases ht : t.cause = Cause.macfail
  · rw [State.takeTrapWith_macfail _ _ _ _ ht]
    obtain ⟨h, hth⟩ := State.failFunction_th ((s.writeRecords s.th.sc.pc t vpart mpart).modHw
      (fun h => { h with wait := none, barDone := none, issued := false })) s.th.id.vf.toNat
    rw [hth]
    exact ⟨rfl, rfl, rfl, rfl, rfl, State.failFunction_mem ..⟩
  · obtain ⟨hfl, hvec, hregs, hmem⟩ := State.takeTrapWith_frame s vpart mpart ht
    exact ⟨State.takeTrapWith_tr s vpart mpart ht, hregs, hvec, hfl, by
      simp [State.takeTrapWith_enters vpart mpart ht, State.writeRecords], hmem⟩

end Records

/-! ### The handler (R392 step 2, R393) -/

section Handler

variable (s : State) (c : Nat)

/-- L mode is entered at tvec. -/
theorem State.enterHandler_low :
    (s.enterHandler .L c).th.sc.mode = .L ∧ (s.enterHandler .L c).th.sc.pc = entryOf s.th.tr.tvec c := ⟨rfl, rfl⟩

/-- S mode is entered on the SC at the stvec entry. -/
theorem State.enterHandler_service :
    (s.enterHandler .S c).th.sc.mode = .S ∧ (s.enterHandler .S c).th.hw.mig = true ∧
      (s.enterHandler .S c).th.sc.pc = entryOf (s.part s.curPart).stvec c := by
  exact ⟨rfl, by simp [State.enterHandler], rfl⟩

end Handler

theorem causeInL_iff (c : Nat) : causeInL c = true ↔ c ∈ [7, 8, 9, 10, 16] := by
  rw [causeInL, decide_eq_true_iff]
  simp [Cause.rlock, Cause.vfirst, Cause.afirst, Cause.yieldreq, Cause.forced]

theorem causeDebug_iff (c : Nat) : causeDebug c = true ↔ c ∈ [12, 13] := by
  rw [causeDebug, decide_eq_true_iff]
  simp [Cause.bkpt, Cause.step]

section Mode

variable {t : Thread} {c : Nat}

theorem handlerMode_low (hmode : t.sc.mode = .U) (htvec : t.tr.tvec ≠ 0)
    (hc : causeInL c = true ∨ causeDebug c = true ∧ t.hw.dbClaim = true) : handlerMode t c = .L := by
  rw [handlerMode, if_neg (not_not_intro hmode), if_pos (by simpa [hc] using htvec)]

theorem handlerMode_service
    (h : t.sc.mode ≠ .U ∨ t.tr.tvec = 0 ∨ causeInL c = false ∧ (causeDebug c = false ∨ t.hw.dbClaim = false)) :
    handlerMode t c = .S := by
  unfold handlerMode
  split
  · rfl
  · next hmode =>
    refine if_neg ?_
    rcases h with hno | htvec | ⟨hlow, hdebug⟩
    · exact absurd hno hmode
    · simp [htvec]
    · rcases hdebug with hd | hd <;> simp [hlow, hd]

end Mode

/-- Settles O51: the records for every cause, the handler by the mode that handles it. -/
theorem takingATrap : Obligations.TakingATrap := by
  intro s t hnext hlt u
  have hu : u = s.takeTrapWith t false false := if_neg (by simp [hnext])
  have hlow : handlerMode s.th t.cause = .L → t.cause ≠ 18 →
      u.th.sc.mode = .L ∧ u.th.sc.pc = BitVec.ofNat 64 (s.th.tr.tvec.toNat * 64 + t.cause * 64) := by
    intro hmode ht
    rw [hu, State.takeTrapWith_enters _ _ ht, hmode]
    exact State.enterHandler_low ..
  have hservice : handlerMode s.th t.cause = .S → t.cause ≠ 18 → u.th.sc.mode = .S ∧ u.th.hw.mig = true ∧
      u.th.sc.pc = BitVec.ofNat 64 ((s.part s.curPart).stvec.toNat * 64 + t.cause * 64) := by
    intro hmode ht
    rw [hu, State.takeTrapWith_enters _ _ ht, hmode]
    exact State.enterHandler_service ..
  refine ⟨?records, fun hmode hc htvec => ?low, fun hmode hc htvec => ⟨fun hclaim => ?claimed, fun hclaim => ?unclaimed⟩,
    fun ht hor => ?service, fun ht => hu.trans (State.takeTrapWith_macfail _ _ _ _ ht)⟩
  case records =>
    obtain ⟨htr, hregs, hvec, hfl, hnest, hmem⟩ := State.takeTrapWith_keeps s t false false
    rw [hu, htr]
    exact ⟨rfl, rfl, rfl, rfl, rfl, hregs, hvec, hfl, hnest, hmem⟩
  case low => exact hlow (handlerMode_low hmode htvec (.inl ((causeInL_iff _).mpr hc))) (by rintro h; simp [h] at hc)
  case claimed =>
    exact hlow (handlerMode_low hmode htvec (.inr ⟨(causeDebug_iff _).mpr hc, hclaim⟩)) (by rintro h; simp [h] at hc)
  case unclaimed =>
    have hno : ¬ causeInL t.cause = true := by
      rw [causeInL_iff]
      simp only [List.mem_cons, List.not_mem_nil, or_false] at hc ⊢
      omega
    exact hservice (handlerMode_service (.inr (.inr ⟨Bool.eq_false_of_not_eq_true hno, .inr hclaim⟩)))
      (by rintro h; simp [h] at hc)
  case service =>
    refine hservice (handlerMode_service (hor.imp id (Or.imp id fun hc => ⟨?_, .inl ?_⟩))) ht
    all_goals
      rw [Bool.eq_false_iff, ne_eq]
      simp only [causeInL_iff, causeDebug_iff, List.mem_cons, List.not_mem_nil, or_false] at hc ⊢
      omega

end Sys2Proof.Machine
end

section
/-!
PROOF. Every step keeps memory canonical: how the parts of a meaning pass the property on.
-/

namespace Sys2Proof.Machine

open Sys2Proof

/-! ### What it is for a computation, an outcome, a choice or a work to keep memory canonical -/

/-- The computation keeps memory canonical, however it ends. -/
def M.Keeps {α : Type} (m : M α) : Prop := ∀ s : State, s.memOk = true → (m s).2.memOk = true

/-- The next state, if there is one, has canonical memory. -/
def EndsCanonical (o : Host.Outcome State Fault Refusal) : Prop := ∀ t, o = .next t → t.memOk = true

/-- The state, if there is one, has canonical memory. -/
def SomeCanonical (o : Option State) : Prop := ∀ t, o = some t → t.memOk = true

/-- The work of an engine leaves memory canonical where it stops, and P of what it gives where it goes on. -/
def WorkCanonical {β : Type} (P : β → Prop) (r : Except Stopped β) : Prop :=
  match r with
  | .ok b => P b
  | .error e => e.2.memOk = true

section Combine

variable {α β : Type} {s t : State}

theorem keeps_pure (a : α) : M.Keeps (pure a : M α) := fun _ h => h
theorem keeps_throw (e : Stop) : M.Keeps (throw e : M α) := fun _ h => h
theorem keeps_get : M.Keeps (get : M State) := fun _ h => h
theorem keeps_set (h : t.memOk = true) : M.Keeps (set t : M PUnit) := fun _ _ => h
theorem keeps_modify {f : State → State} (h : ∀ s : State, s.memOk = true → (f s).memOk = true) :
    M.Keeps (modify f : M PUnit) := h

theorem keeps_bind {x : M α} {f : α → M β} (hx : M.Keeps x) (hf : ∀ a, M.Keeps (f a)) : M.Keeps (x >>= f) := by
  intro s hs
  have hxs := hx s hs
  rw [M.bind_run]
  split
  · next a u hrun => exact hf a u (by rwa [hrun] at hxs)
  · next e u hrun => rwa [hrun] at hxs

theorem keeps_map {x : M α} (g : α → β) (hx : M.Keeps x) : M.Keeps (g <$> x) := by
  intro s hs
  have hxs := hx s hs
  rw [M.map_run]
  split
  · next a u hrun => rwa [hrun] at hxs
  · next e u hrun => rwa [hrun] at hxs

/-- What is got is the canonical state at hand. -/
theorem keeps_get_bind {f : State → M β} (hf : ∀ s : State, s.memOk = true → M.Keeps (f s)) :
    M.Keeps ((get : M State) >>= f) := fun s hs => hf s hs s hs

theorem keeps_forIn {l : List α} {b : β} {f : α → β → M (ForInStep β)} (hf : ∀ a b, M.Keeps (f a b)) :
    M.Keeps (forIn l b f) := by
  induction l generalizing b with
  | nil => exact keeps_pure b
  | cons a r ih =>
    rw [List.forIn_cons]
    refine keeps_bind (hf a b) fun step => ?_
    cases step with
    | done b => exact keeps_pure b
    | yield b => exact ih

theorem keeps_trap (c : Nat) (v : W64) : M.Keeps (trap c v : M α) := fun _ h => h
theorem keeps_waitFor (w : Wait) : M.Keeps (waitFor w : M α) := fun _ h => h
theorem keeps_illop : M.Keeps (illop : M α) := fun _ h => h
theorem keeps_privTrap : M.Keeps (privTrap : M α) := fun _ h => h
theorem keeps_need (b : Bool) : M.Keeps (need b) := by cases b <;> exact fun _ h => h

/-- A computation that leaves every state as it was. -/
theorem keeps_of_state {m : M α} (h : ∀ s, (m s).2 = s) : M.Keeps m := fun s hs => by rwa [h s]

theorem ends_next (h : t.memOk = true) : EndsCanonical (.next t) := by rintro _ ⟨⟩; exact h
theorem ends_fault (r : Fault) : EndsCanonical (.fault r) := by rintro _ ⟨⟩
theorem ends_refused (r : Refusal) : EndsCanonical (.refused r) := by rintro _ ⟨⟩
theorem canonical_some (h : t.memOk = true) : SomeCanonical (some t) := by rintro _ ⟨⟩; exact h
theorem canonical_none : SomeCanonical none := by rintro _ ⟨⟩
theorem work_ok {r : Except Stopped (β × State)} {b : β} (heq : r = .ok (b, t))
    (h : WorkCanonical (fun x => x.2.memOk = true) r) : t.memOk = true := by rwa [heq] at h
theorem work_ok_state {r : Except Stopped State} (heq : r = .ok t) (h : WorkCanonical (fun u => u.memOk = true) r) :
    t.memOk = true := by rwa [heq] at h
theorem work_error {P : β → Prop} {r : Except Stopped β} {e : Stopped} (heq : r = .error e) (h : WorkCanonical P r) :
    e.2.memOk = true := by rwa [heq] at h

theorem memOk_ite {c : Prop} [Decidable c] (hs : s.memOk = true) (ht : t.memOk = true) :
    (if c then s else t).memOk = true := by split <;> assumption
theorem keeps_ite {c : Prop} [Decidable c] {x y : M α} (hx : M.Keeps x) (hy : M.Keeps y) :
    M.Keeps (if c then x else y) := by split <;> assumption
theorem keeps_guard {c : Prop} [Decidable c] {x : M α} {y : M β} (hx : M.Keeps x) (hy : M.Keeps y) :
    M.Keeps (if c then x >>= fun _ => y else y) := keeps_ite (keeps_bind hx fun _ => hy) hy
theorem ends_ite {c : Prop} [Decidable c] {x y : Host.Outcome State Fault Refusal} (hx : EndsCanonical x)
    (hy : EndsCanonical y) : EndsCanonical (if c then x else y) := by split <;> assumption
theorem memOk_of_snd {e : α × State} {a : α} (heq : e = (a, t)) (h : e.2.memOk = true) : t.memOk = true := by
  rwa [heq] at h
theorem memOk_of_fst {e : State × α} {a : α} (heq : e = (t, a)) (h : e.1.memOk = true) : t.memOk = true := by
  rwa [heq] at h

/-- What each step of a fold keeps canonical, the fold does. -/
theorem memOk_foldl {f : State → β → State} {l : List β} (hf : ∀ t b, State.memOk t = true → (f t b).memOk = true)
    (h : s.memOk = true) : (l.foldl f s).memOk = true :=
  foldl_keeps (fun t : State => t.memOk = true) f hf l s h

end Combine

end Sys2Proof.Machine
end

section
/-!
PROOF. Every step keeps memory canonical: the operations of a thread, in the order of the model.
-/

namespace Sys2Proof.Machine

open Sys2Proof

/-! ### Registers, units, traps and retirement -/

theorem memOk_modSc {s : State} {f : Scalars → Scalars} (h : s.memOk = true) : (s.modSc f).memOk = true := h

theorem memOk_modVec {s : State} {f : VecState → VecState} (h : s.memOk = true) : (s.modVec f).memOk = true :=
  h

theorem memOk_modHeld {s : State} {f : Held → Held} (h : s.memOk = true) : (s.modHeld f).memOk = true := h

theorem memOk_modNest {s : State} {f : Nest → Nest} (h : s.memOk = true) : (s.modNest f).memOk = true := h

theorem memOk_modHw {s : State} {f : SlotHw → SlotHw} (h : s.memOk = true) : (s.modHw f).memOk = true := h

theorem memOk_modCv {s : State} {f : Convoy → Convoy} (h : s.memOk = true) : (s.modCv f).memOk = true := h

theorem memOk_modHub {s : State} {f : Hub → Hub} (h : s.memOk = true) : (s.modHub f).memOk = true := h

theorem memOk_switchTo {s : State} {slot : Nat} (h : s.memOk = true) : (s.switchTo slot).memOk = true :=
  memOk_ite h h

theorem memOk_modVc {s : State} {n : Nat} {f : Vc → Vc} (h : s.memOk = true) : (s.modVc n f).memOk = true := h

theorem memOk_modTile {s : State} {n : Nat} {f : Tile → Tile} (h : s.memOk = true) : (s.modTile n f).memOk = true :=
  h

theorem memOk_modPart {s : State} {n : Nat} {f : Part → Part} (h : s.memOk = true) : (s.modPart n f).memOk = true :=
  h

theorem memOk_modVf {s : State} {n : Nat} {f : Vf → Vf} (h : s.memOk = true) : (s.modVf n f).memOk = true := h

theorem memOk_wr {s : State} {r : BitVec 5} {v : W64} (h : s.memOk = true) : (s.wr r v).memOk = true :=
  memOk_ite h h

theorem memOk_setVl {s : State} {n : Nat} (h : s.memOk = true) : (s.setVl n).memOk = true := h

theorem memOk_setPred {s : State} {n : Nat} {x : BitVec 4096} (h : s.memOk = true) : (s.setPred n x).memOk = true :=
  h

theorem memOk_bump {s : State} (h : s.memOk = true) : s.bump.memOk = true := h

theorem memOk_tick {s : State} (h : s.memOk = true) : s.tick.memOk = true := h

theorem memOk_abandon {s : State} {part : Nat} {id : BitVec 32} {cause : Nat} (h : s.memOk = true) :
    (s.abandon part id cause).memOk = true := by
  unfold State.abandon
  dsimp only
  split
  · exact h
  · exact memOk_ite h (memOk_askAbandon _ h)

theorem memOk_abandonAll {s : State} {vf : Nat} (h : s.memOk = true) : (s.abandonAll vf).memOk = true :=
  memOk_askAbandon _ h

theorem memOk_migrate {s : State} (h : s.memOk = true) : s.migrate.memOk = true := memOk_ite h h

theorem memOk_enterHandler {s : State} {m : Mode} {c : Nat} (h : s.memOk = true) :
    (s.enterHandler m c).memOk = true := by
  unfold State.enterHandler
  split
  · exact memOk_modSc (memOk_migrate h)
  · exact h

theorem memOk_takeTrapWith {s : State} {t : TrapInfo} {vpart mpart : Bool} (h : s.memOk = true) :
    (s.takeTrapWith t vpart mpart).memOk = true :=
  memOk_ite (memOk_failFunction _ h) (memOk_enterHandler h)

theorem memOk_returnFrom {s : State} {m : Mode} (h : s.memOk = true) : (s.returnFrom m).memOk = true :=
  memOk_modSc (memOk_ite h h)

theorem memOk_nestStep {s : State} {fuel lv : Nat} (h : s.memOk = true) : (s.nestStep fuel lv).1.memOk = true := by
  rwa [State.nestStep_keeps s State.memOk (fun u r v => by unfold State.wr; split <;> rfl)]

theorem memOk_advance {s : State} {taken : Option W64} (h : s.memOk = true) : (s.advance taken).memOk = true := by
  unfold State.advance
  refine memOk_ite ?_ h
  dsimp only
  split
  · exact h
  · exact memOk_ite h (memOk_ite (memOk_modSc (memOk_modNest (memOk_nestStep h))) (memOk_modSc (memOk_modNest
        (memOk_nestStep h))))

theorem memOk_clearProgress {s : State} (h : s.memOk = true) : s.clearProgress.memOk = true := h

theorem memOk_commitLate {s : State} (h : s.memOk = true) : s.commitLate.memOk = true :=
  memOk_foldl (fun _ _ ht => memOk_wr ht) h

theorem memOk_complete {s : State} {taken : Option W64} (h : s.memOk = true) : (s.complete taken).memOk = true :=
  memOk_modCv (memOk_modHw (memOk_modNest (memOk_advance (memOk_ite (memOk_clearProgress (memOk_commitLate h))
      (memOk_commitLate h)))))

theorem memOk_takeTrap {s : State} {t : TrapInfo} (h : s.memOk = true) : (s.takeTrap t).memOk = true :=
  memOk_ite (memOk_takeTrapWith (memOk_complete h)) (memOk_takeTrapWith h)

theorem memOk_stepTrap {s : State} (h : s.memOk = true) : s.stepTrap.memOk = true :=
  memOk_ite (memOk_ite h (memOk_takeTrapWith h)) h

theorem memOk_endHold {s : State} {m : Mode} (h : s.memOk = true) : (s.endHold m).memOk = true := memOk_ite h h

theorem memOk_retire {s : State} {taken : Option W64} (h : s.memOk = true) : (s.retire taken).memOk = true :=
  memOk_ite (memOk_takeTrapWith (memOk_modCv (memOk_complete h))) (memOk_stepTrap (memOk_complete h))

theorem memOk_finish {s : State} (h : s.memOk = true) : s.finish.memOk = true := memOk_ite h (memOk_retire h)

theorem ends_conclude {s : State} {m : M Unit} (h : s.memOk = true) (hm : M.Keeps m) :
    EndsCanonical (s.conclude m) := by
  have hrun := hm s h
  unfold State.conclude
  split
  · next u e => exact ends_next (memOk_finish (memOk_of_snd e hrun))
  · next t u e =>
    have hu := memOk_of_snd e hrun
    split
    · exact ends_next hu
    · exact ends_next (memOk_takeTrap hu)
  · next w u e =>
    have hu := memOk_of_snd e hrun
    exact ends_next hu

theorem ends_trapNow {s : State} {t : TrapInfo} (h : s.memOk = true) : EndsCanonical (s.trapNow t) :=
  ends_conclude h (keeps_throw _)

theorem ends_result {s : State} {d : BitVec 5} {v : W64} (h : s.memOk = true) : EndsCanonical (s.result d v) :=
  ends_next (memOk_finish (memOk_wr h))

theorem keeps_needPrivileged : M.Keeps needPrivileged :=
  keeps_get_bind fun _ _ => keeps_ite keeps_privTrap (keeps_pure _)

/-! ### Operand forms -/

theorem keeps_vectorGate : M.Keeps vectorGate :=
  keeps_get_bind fun _ _ => keeps_ite keeps_illop (keeps_ite (keeps_trap _ _) (keeps_pure _))

theorem keeps_needGroups {vs : List (BitVec 5)} : M.Keeps (needGroups vs) :=
  keeps_get_bind fun _ _ => keeps_need _

theorem memOk_copyScales {s : State} {d src : BitVec 5} (h : s.memOk = true) : (s.copyScales d src).memOk = true :=
  memOk_ite (memOk_foldl (fun _ _ ht => memOk_ite ht ht) h) h

/-! ### Memory at its homes -/

theorem memOk_poisonLine {s : State} {line : Nat} (h : s.memOk = true) : (s.poisonLine line).memOk = true := h

theorem memOk_claimRun {s : State} {loc n kid : Nat} (h : s.memOk = true) : (s.claimRun loc n kid).memOk = true :=
  memOk_foldl (fun _ _ ht => memOk_claim _ _ ht) h

theorem keeps_checkLock {va : W64} {n : Nat} {store : Bool} : M.Keeps (checkLock va n store) := by
  unfold checkLock
  refine keeps_get_bind fun _ _ => ?_
  split
  · exact keeps_throw _
  · exact keeps_pure _

/-! ### What an access waits for, and the store buffer -/

theorem memOk_snoop {s : State} {line : Nat} (h : s.memOk = true) : (s.snoop line).memOk = true :=
  memOk_ite h h

theorem memOk_callBack {s : State} {rs : List (Nat × Nat)} (h : s.memOk = true) : (s.callBack rs).memOk = true :=
  memOk_foldl (fun _ _ ht => memOk_snoop ht) h

theorem memOk_whenFree {s : State} {self : Option Nat} {rs : List (Nat × Nat)} {done : State}
    (hs : s.memOk = true) (hdone : done.memOk = true) : (s.whenFree self rs done).memOk = true :=
  memOk_ite (memOk_callBack hs) hdone

theorem memOk_pushBuf {s : State} {e : BufEntry} (h : s.memOk = true) : (s.pushBuf e).memOk = true :=
  memOk_ite h h

theorem memOk_pushStore {s : State} {es : List BufEntry} (h : s.memOk = true) : (s.pushStore es).memOk = true :=
  memOk_modHw (memOk_foldl (fun _ _ ht => memOk_pushBuf ht) h)

theorem memOk_pushScalar {s : State} {ws : List (Nat × Byte)} {kid : Nat} {rel : Bool} (h : s.memOk = true) :
    (s.pushScalar ws kid rel).memOk = true :=
  memOk_pushStore h

theorem memOk_callBackBuf {s : State} {buf : List BufEntry} (h : s.memOk = true) :
    (s.callBackBuf buf).memOk = true :=
  memOk_callBack h

theorem keeps_drainBuffer : M.Keeps drainBuffer :=
  keeps_get_bind fun _ hs => keeps_ite (keeps_bind (keeps_set (memOk_callBackBuf hs)) fun _ => keeps_waitFor _)
      (keeps_set (memOk_drainAll hs))

/-! ### Translation as an access meets it -/

theorem memOk_walkTouch {s : State} {rs : List TableRead} (h : s.memOk = true) : (s.walkTouch rs).memOk = true :=
  memOk_foldl (fun _ _ ht => memOk_touch _ _ _ _ ht) h

theorem memOk_walkFill {s : State} {places : List TlbPlace} {x : Xlat} (h : s.memOk = true) :
    (s.walkFill places x).memOk = true := by
  unfold State.walkFill
  dsimp only
  split
  · exact h
  · refine memOk_foldl (fun _ _ ht => ?_) h
    split <;> exact ht

theorem memOk_setAD {s : State} {pte : Option (Phys × Nat)} (h : s.memOk = true) : (s.setAD pte).memOk = true := by
  unfold State.setAD
  split
  · exact h
  · exact memOk_storeHome _ _ _ _ h

theorem memOk_applyXlat {s : State} {places : List TlbPlace} {x : Xlat} (h : s.memOk = true) :
    (s.applyXlat places x).memOk = true := by
  unfold State.applyXlat
  dsimp only
  split
  · exact memOk_walkFill (memOk_setAD (memOk_walkTouch h))
  · exact (memOk_walkFill (memOk_setAD (memOk_walkTouch h)) :)

theorem memOk_resolve {s : State} {places : List TlbPlace} {c : Ctx} {acc : Access} {va : W64}
    (h : s.memOk = true) : (s.resolve places c acc va).2.memOk = true := by
  unfold State.resolve
  dsimp only
  split
  · split
    · exact memOk_callBack (memOk_ite h h)
    · split
      · split
        · split
          · exact h
          · exact memOk_applyXlat h
        · split
          · exact h
          · exact memOk_applyXlat h
      · exact memOk_applyXlat (memOk_ite h h)
  · exact memOk_ite (memOk_bump (memOk_walkTouch (memOk_ite h h))) (memOk_walkTouch (memOk_ite h h))

theorem memOk_fqMerge {s : State} {p : Part} {n kinds : Nat} (h : s.memOk = true) :
    (s.fqMerge p n kinds).memOk = true :=
  memOk_poke _ _ _ h

theorem memOk_appendBatch {s : State} {part : Nat} {vf : BitVec 9} {asid : BitVec 12} {thread : Nat} {fs : List
    PFault} (h : s.memOk = true) : (s.appendBatch part vf asid thread fs).1.memOk = true := by
  unfold State.appendBatch
  dsimp only
  split
  · exact h
  · split
    · exact h
    · split
      · exact h
      · refine memOk_modPart (memOk_foldl (fun _ _ ht => memOk_poke _ _ _ ht) ?_)
        refine memOk_foldl (fun _ _ ht => ?_) h
        split
        · exact memOk_fqMerge ht
        · exact ht

theorem keeps_faultTrap {α : Type} {fs : List (W64 × Access × XFault)} : M.Keeps (faultTrap fs : M α) := by
  unfold faultTrap
  split
  · exact keeps_trap _ _
  · exact keeps_get_bind fun s hs => keeps_bind (keeps_set (memOk_appendBatch hs)) fun _ => keeps_throw _

theorem keeps_awaitTrains : M.Keeps awaitTrains :=
  keeps_get_bind fun _ _ => keeps_ite (keeps_waitFor _) (keeps_pure _)

theorem keeps_checkArrivals {p : Phys} {n : Nat} : M.Keeps (checkArrivals p n) :=
  keeps_get_bind fun _ _ => keeps_ite (keeps_bind (keeps_waitFor _) fun _ => keeps_ite (keeps_waitFor _)
      (keeps_pure _)) (keeps_ite (keeps_waitFor _) (keeps_pure _))

theorem keeps_checkHome {va : W64} {p : Phys} {n : Nat} : M.Keeps (checkHome va p n) :=
  keeps_bind keeps_checkArrivals fun _ => keeps_get_bind fun _ _ => keeps_ite (keeps_throw _) (keeps_pure _)

theorem keeps_resolveIn {places : List TlbPlace} {ctx : State → Ctx} {acc : Access} {va : W64} :
    M.Keeps (resolveIn places ctx acc va) := by
  have ends : M.Keeps (do
      let u ← get
      let r := u.resolve places (ctx u) acc va
      set r.2
      match r.1 with
      | .error (.held _) => waitFor .line
      | x => pure x : M (Except XFault Xlat)) := by
    refine keeps_get_bind fun u hu => keeps_bind (keeps_set (memOk_resolve hu)) fun _ => ?_
    split
    · exact keeps_waitFor _
    · exact keeps_pure _
  unfold resolveIn
  refine keeps_get_bind fun s hs => ?_
  split
  · split
    · exact keeps_bind keeps_drainBuffer fun _ => keeps_bind keeps_awaitTrains fun _ => ends
    · exact ends
  · exact ends

theorem keeps_resolveNow {places : List TlbPlace} {acc : Access} {va : W64} : M.Keeps
    (resolveNow places acc va) := by
  unfold resolveNow
  refine keeps_bind keeps_resolveIn fun _ => ?_
  split
  · exact keeps_trap _ _
  · exact keeps_pure _

theorem keeps_translatePlace {acc : Access} {va : W64} : M.Keeps (translatePlace acc va) := by
  unfold translatePlace
  refine keeps_get_bind fun _ _ => keeps_bind keeps_resolveNow fun _ => ?_
  split
  · exact keeps_faultTrap
  · exact keeps_pure _

theorem keeps_translateScalar {acc : Access} {va : W64} {n : Nat} : M.Keeps (translateScalar acc va n) :=
  keeps_bind keeps_translatePlace fun _ => keeps_bind keeps_checkHome fun _ => keeps_pure _

theorem keeps_checkAlign {va : W64} {n : Nat} : M.Keeps (checkAlign va n) :=
  keeps_ite (keeps_pure _) (keeps_trap _ _)

theorem memOk_scalarTouch {s : State} {p : Phys} (h : s.memOk = true) : (s.scalarTouch p).memOk = true :=
  memOk_ite (memOk_ite h (memOk_modVc (memOk_touch _ _ _ _ h))) h

theorem keeps_takeBytes {va : W64} {p : Phys} {n : Nat} : M.Keeps (takeBytes va p n) :=
  keeps_get_bind fun _ _ => keeps_ite (keeps_bind (keeps_trap _ _) fun _ => keeps_pure _) (keeps_pure _)

theorem keeps_readBytes {va : W64} {p : Phys} {n : Nat} : M.Keeps (readBytes va p n) :=
  keeps_get_bind fun _ _ => keeps_bind (keeps_modify fun _ hs => memOk_scalarTouch hs) fun _ => keeps_ite
      (keeps_get_bind fun _ _ => keeps_pure _) keeps_takeBytes

theorem keeps_translateWideBy {refused : W64 → M Bool} {acc : Access} {va : W64} {n align : Nat}
    (hrefused : ∀ a, M.Keeps (refused a)) : M.Keeps (translateWideBy refused acc va n align) := by
  refine keeps_bind keeps_checkAlign fun _ => keeps_bind keeps_checkLock fun _ => ?_
  refine keeps_bind (keeps_forIn fun p x => ?_) fun x => keeps_ite (keeps_pure _) keeps_faultTrap
  refine keeps_bind (hrefused _) fun r => keeps_ite (keeps_pure _) (keeps_get_bind fun s _ => ?_)
  refine keeps_bind keeps_resolveNow fun y => ?_
  split
  · exact keeps_bind keeps_checkHome fun _ => keeps_get_bind fun u _ => keeps_ite (keeps_pure _) (keeps_pure _)
  · exact keeps_pure _

theorem keeps_translateWide {acc : Access} {va : W64} {n align : Nat} : M.Keeps (translateWide acc va n align) :=
  keeps_translateWideBy (fun _ => keeps_pure _)

theorem keeps_readWide {va : W64} {ps : List (Phys × Nat)} : M.Keeps (readWide va ps) :=
  keeps_bind (keeps_forIn fun _ _ => keeps_bind (keeps_modify fun _ hs => memOk_touch _ _ _ _ hs) fun _ =>
      keeps_bind keeps_takeBytes fun _ => keeps_pure _) fun _ => keeps_pure _

theorem keeps_loadWide {va : W64} {n align : Nat} : M.Keeps (loadWide va n align) :=
  keeps_bind keeps_translateWide fun _ => keeps_readWide

/-! ### Trace units and triggers -/

theorem memOk_putRecord {s : State} {vc : Nat} {x : W64} (h : s.memOk = true) : (s.putRecord vc x).memOk = true :=
  memOk_ite (memOk_modVc (memOk_poke _ _ _ h)) h

theorem memOk_traceDrain {s : State} {vc n : Nat} (h : s.memOk = true) : (s.traceDrain vc n).memOk = true := by
  induction n generalizing s with
  | zero => exact h
  | succ n ih =>
    unfold State.traceDrain
    split
    · exact h
    · exact memOk_ite (ih (memOk_putRecord h)) h

theorem memOk_pushRecord {s : State} {vc : Nat} {x : W64} {then_ : Vc → Vc} (h : s.memOk = true) :
    (s.pushRecord vc x then_).memOk = true :=
  memOk_modVc (memOk_bump (memOk_traceDrain h))

theorem memOk_putSync {s : State} {vc time : Nat} (h : s.memOk = true) : (s.putSync vc time).memOk = true :=
  memOk_ite (memOk_pushRecord h) (memOk_putRecord h)

theorem memOk_trace {s : State} {vc : Nat} {x : W64} {then_ : Vc → Vc} (h : s.memOk = true) :
    (s.trace vc x then_).memOk = true :=
  memOk_ite (memOk_putSync (memOk_pushRecord h)) (memOk_pushRecord h)

theorem memOk_traceOverflow {s : State} {vc elapsed : Nat} (h : s.memOk = true) :
    (s.traceOverflow vc elapsed).memOk = true :=
  memOk_trace h

theorem memOk_tracePipe {s : State} {vc : Nat} {f : Flight} {ev : Nat} (h : s.memOk = true) :
    (s.tracePipe vc f ev).memOk = true :=
  memOk_ite (memOk_trace (memOk_ite (memOk_traceOverflow h) h)) h

theorem memOk_traceConvoy {s : State} {members : Nat} (h : s.memOk = true) : (s.traceConvoy members).memOk = true :=
  memOk_ite (memOk_trace h) h

theorem memOk_modFlight {s : State} {vc num : Nat} {g : Flight → Flight} (h : s.memOk = true) :
    (s.modFlight vc num g).memOk = true :=
  h

theorem memOk_resumeFed {s : State} {vc : Nat} (h : s.memOk = true) : (s.resumeFed vc).memOk = true :=
  memOk_foldl (fun _ _ ht => memOk_modThread _ _ (memOk_modFlight (memOk_tracePipe ht))) h

theorem memOk_moveFlight {s : State} {vc : Nat} {f : Flight} (h : s.memOk = true) :
    (s.moveFlight vc f).memOk = true :=
  memOk_ite (memOk_resumeFed (memOk_modVc (memOk_tracePipe h))) (memOk_modFlight (memOk_tracePipe h))

theorem memOk_pump {s : State} {vc : Nat} {ends : Bool} {stop : Vc → Bool} {n : Nat} (h : s.memOk = true) :
    (s.pump vc ends stop n).memOk = true := by
  induction n generalizing s with
  | zero => exact h
  | succ n ih =>
    unfold State.pump
    refine memOk_ite h ?_
    split
    · exact h
    · exact ih (memOk_moveFlight h)

theorem memOk_passTime {s : State} {vc : Nat} {ends : Bool} (h : s.memOk = true) :
    (s.passTime vc ends).memOk = true :=
  memOk_ite h (memOk_pump h)

theorem memOk_pumpUntil {s : State} {vc : Nat} {stop : Vc → Bool} (h : s.memOk = true) :
    (s.pumpUntil vc stop).memOk = true :=
  memOk_pump h

theorem memOk_arrayTaken {s : State} {slot : Nat} (h : s.memOk = true) : (s.arrayTaken slot).memOk = true :=
  memOk_ite (memOk_pumpUntil h) h

theorem memOk_markFlights {s : State} {slot ev : Nat} (h : s.memOk = true) : (s.markFlights slot ev).memOk = true :=
  memOk_ite h h

theorem memOk_addFlights {s : State} {ms : List (Instr × W32)} (h : s.memOk = true) :
    (s.addFlights ms).memOk = true :=
  memOk_foldl (fun _ _ ht => ht) h

theorem memOk_detachFlight {s : State} {slot : Nat} {mbr : BitVec 2} (h : s.memOk = true) :
    (s.detachFlight slot mbr).memOk = true := by
  unfold State.detachFlight
  dsimp only
  split
  · exact h
  · exact memOk_ite (memOk_modFlight (memOk_tracePipe (memOk_pumpUntil (memOk_passTime h)))) (memOk_pumpUntil
        (memOk_passTime h))

theorem memOk_resumeFlight {s : State} {slot : Nat} {mbr : BitVec 2} (h : s.memOk = true) :
    (s.resumeFlight slot mbr).memOk = true := by
  unfold State.resumeFlight
  dsimp only
  split
  · exact h
  · exact memOk_pumpUntil (memOk_passTime h)

theorem memOk_fireTrigger {s : State} {part n time : Nat} (h : s.memOk = true) :
    (s.fireTrigger part n time).memOk = true :=
  memOk_foldl (fun _ _ ht => ht) h

theorem memOk_fireWhere {s : State} {f : Trigger → Bool} (h : s.memOk = true) : (s.fireWhere f).memOk = true :=
  memOk_foldl (fun _ _ ht => memOk_ite (memOk_fireTrigger ht) ht) h

theorem memOk_matchConvoy {s : State} (h : s.memOk = true) : s.matchConvoy.memOk = true := memOk_fireWhere h

/-! ### Event flags and headroom -/

theorem memOk_mergeFlags {s : State} {l : List (Nat × Nat)} (h : s.memOk = true) : (s.mergeFlags l).memOk = true :=
  memOk_ite h h

theorem memOk_foldHead {s : State} {l : List Nat} (h : s.memOk = true) : (s.foldHead l).memOk = true := by
  unfold State.foldHead
  split <;> exact h

theorem memOk_account {s : State} {rs : List (Nat × Res)} (h : s.memOk = true) : (s.account rs).memOk = true :=
  memOk_foldHead (memOk_mergeFlags h)

theorem memOk_writeElems {s : State} {d : BitVec 5} {rs : List (Nat × Res)} (h : s.memOk = true) :
    (s.writeElems d rs).memOk = true :=
  memOk_account (memOk_foldl (fun _ _ ht => ht) h)

theorem memOk_mapElems {s : State} {d p : BitVec 5} {f : Nat → Res} (h : s.memOk = true) :
    (s.mapElems d p f).memOk = true :=
  memOk_writeElems h

theorem keeps_vectorChecks {regs : List (BitVec 5)} {types : Vt → Bool} : M.Keeps (vectorChecks regs types) :=
  keeps_bind keeps_vectorGate fun _ => keeps_bind keeps_needGroups fun _ => keeps_get_bind fun _ _ => keeps_bind
      (keeps_need _) fun _ => keeps_pure _

/-! ### CSRs -/

theorem memOk_forget {s : State} {rs : List Nat} (h : s.memOk = true) : (s.forget rs).memOk = true :=
  memOk_foldl (fun _ _ ht => ht) h

theorem memOk_setVtype {s : State} {x : Nat} (h : s.memOk = true) : (s.setVtype x).memOk = true :=
  memOk_ite h (memOk_forget h)

theorem memOk_csrSet {s : State} {n x : Nat} (h : s.memOk = true) : (s.csrSet n x).memOk = true :=
  memOk_ite h (memOk_ite (memOk_setVtype h) (memOk_ite h (memOk_ite h (memOk_ite h (memOk_ite h (memOk_ite h
      (memOk_ite h (memOk_ite h (memOk_ite h (memOk_ite h (memOk_ite h (memOk_ite h (memOk_ite h (memOk_ite h
      (memOk_ite h (memOk_ite h (memOk_ite h (memOk_ite h (memOk_ite h (memOk_ite h (memOk_ite h (memOk_ite h
      (memOk_ite h (memOk_ite h (memOk_ite h (memOk_ite h (memOk_ite h (memOk_ite h (memOk_ite h (memOk_ite h
      (memOk_ite h (memOk_ite h (memOk_ite h (memOk_ite h (memOk_ite h (memOk_ite h
      h))))))))))))))))))))))))))))))))))))

theorem keeps_csrCheck {n : Nat} {o : CsrOp} : M.Keeps (csrCheck n o) := by
  unfold csrCheck
  refine keeps_get_bind fun _ _ => ?_
  dsimp only
  split
  · exact keeps_illop
  · refine keeps_guard keeps_privTrap (keeps_guard keeps_illop ?_)
    split
    · exact keeps_guard (keeps_trap _ _) (keeps_pure _)
    · exact keeps_guard keeps_illop (keeps_guard keeps_privTrap (keeps_guard keeps_privTrap (keeps_guard
          (keeps_trap _ _) (keeps_pure _))))

theorem ends_csrAccess {s : State} {d : BitVec 5} {n : Nat} {o : CsrOp} (h : s.memOk = true) :
    EndsCanonical (s.csrAccess d n o) := by
  unfold State.csrAccess
  refine ends_conclude h (keeps_bind keeps_csrCheck fun _ => ?_)
  dsimp only
  split
  · exact keeps_modify fun _ hs => memOk_wr hs
  · exact keeps_bind (keeps_need _) fun _ => keeps_ite (keeps_guard (keeps_waitFor _)
        (keeps_modify fun _ hs => memOk_wr (memOk_csrSet hs))) (keeps_modify fun _ hs => memOk_wr (memOk_csrSet hs))

/-! ### Scalar accesses -/

theorem keeps_storeRoom {ps : List Phys} : M.Keeps (storeRoom ps) :=
  keeps_get_bind fun _ _ => keeps_ite (keeps_waitFor _) (keeps_pure _)

theorem keeps_pendingRoom {ps : List Phys} : M.Keeps (pendingRoom ps) :=
  keeps_get_bind fun _ _ => keeps_ite (keeps_waitFor _) (keeps_pure _)

theorem keeps_loadScalar {va : W64} {n : Nat} : M.Keeps (loadScalar va n) :=
  keeps_bind keeps_checkAlign fun _ => keeps_bind keeps_checkLock fun _ => keeps_bind keeps_translateScalar fun _
      => keeps_bind keeps_readBytes fun _ => keeps_pure _

theorem keeps_storeScalar {va : W64} {n v : Nat} : M.Keeps (storeScalar va n v) :=
  keeps_bind keeps_checkAlign fun _ => keeps_bind keeps_checkLock fun _ => keeps_bind keeps_translateScalar fun _
      => keeps_bind keeps_storeRoom fun _ => keeps_modify fun _ hs => memOk_pushScalar hs

theorem keeps_translateAtomic {va : W64} {n : Nat} : M.Keeps (translateAtomic va n) := by
  unfold translateAtomic
  refine keeps_get_bind fun _ _ => ?_
  dsimp only
  split
  · exact keeps_trap _ _
  · refine keeps_bind keeps_resolveNow fun _ => ?_
    split
    · exact keeps_guard (keeps_trap _ _) keeps_faultTrap
    · exact keeps_bind keeps_checkHome fun _ => keeps_get_bind fun _ hs => keeps_ite (keeps_bind
          (keeps_set hs) fun _ => keeps_guard (keeps_trap _ _) (keeps_pure _)) (keeps_pure _)

theorem keeps_atomicNow {p : Phys} {n : Nat} {f : Nat → Nat} : M.Keeps (atomicNow p n f) :=
  keeps_get_bind fun _ hs => keeps_bind (keeps_set (memOk_storeHome _ _ _ _ (memOk_claim _ _ hs))) fun _ =>
      keeps_pure _

theorem keeps_homeWaits {ps : List (Phys × Nat)} : M.Keeps (homeWaits ps) :=
  keeps_get_bind fun _ hs => keeps_ite (keeps_bind (keeps_set (memOk_callBack hs)) fun _ => keeps_bind
      (keeps_waitFor _) fun _ => keeps_pendingRoom) keeps_pendingRoom

theorem keeps_atomicWaits {ps : List Phys} {n : Nat} : M.Keeps (atomicWaits ps n) := keeps_homeWaits

theorem keeps_atomicAt {p : Phys} {n : Nat} {f : Nat → Nat} : M.Keeps (atomicAt p n f) :=
  keeps_bind keeps_atomicWaits fun _ => keeps_atomicNow

theorem keeps_atomicScalar {va : W64} {n : Nat} {rel : Bool} {f : Nat → Nat} : M.Keeps (atomicScalar va n rel f) :=
  keeps_bind keeps_checkAlign fun _ => keeps_bind keeps_checkLock fun _ => keeps_bind keeps_translateAtomic fun _
      => keeps_bind keeps_drainBuffer fun _ => keeps_ite (keeps_bind keeps_awaitTrains fun _ => keeps_bind
      (keeps_modify fun _ hs => memOk_claim _ _ hs) fun _ => keeps_get_bind fun _ _ => keeps_ite (keeps_bind
      (keeps_trap _ _) fun _ => keeps_atomicAt) keeps_atomicAt) (keeps_bind (keeps_modify fun _ hs => memOk_claim _
      _ hs) fun _ => keeps_get_bind fun _ _ => keeps_ite (keeps_bind (keeps_trap _ _) fun _ => keeps_atomicAt)
      keeps_atomicAt)

end Sys2Proof.Machine
end

section
/-!
PROOF. Every step keeps memory canonical: jobs, groups and vector access.
-/

namespace Sys2Proof.Machine

open Sys2Proof

/-! ### The command graph, jobs and groups -/

theorem memOk_jobReady {s : State} {part : Nat} {id : BitVec 32} (h : s.memOk = true) :
    (s.jobReady part id).memOk = true :=
  h

theorem memOk_launchNode {s : State} {id : BitVec 16} (h : s.memOk = true) : (s.launchNode id).memOk = true := by
  unfold State.launchNode
  refine memOk_ite ?_ h
  dsimp only
  split <;> exact h

theorem memOk_decrement {s : State} {id : BitVec 16} (h : s.memOk = true) : (s.decrement id).memOk = true :=
  memOk_ite (memOk_launchNode h) h

theorem memOk_freeEdges {s : State} {id : BitVec 16} {n : Nat} (h : s.memOk = true) :
    (s.freeEdges id n).memOk = true :=
  h

theorem memOk_cancelRunning {s : State} {cmd : Option Nat} {predFailed : Bool} (h : s.memOk = true) :
    (s.cancelRunning cmd predFailed).memOk = true :=
  h

theorem memOk_cancelNodes {s : State} {fuel : Nat} {ids : List (BitVec 16)} (h : s.memOk = true) :
    (s.cancelNodes fuel ids).memOk = true := by
  induction fuel generalizing s ids with
  | zero => unfold State.cancelNodes; exact h
  | succ fuel ih =>
    cases ids with
    | nil => unfold State.cancelNodes; exact h
    | cons id r =>
      unfold State.cancelNodes
      refine memOk_ite (ih ?_) (memOk_ite (ih (memOk_cancelRunning h)) (ih h))
      have hc : (match (s.node id).cmd with
          | some c => ((((s.modNode id (fun n => { n with st := .cancelled, status := 7, succ := [] })).freeEdges
              id (s.node id).succ.length).releaseLocks c).dropCmd c)
          | none => (s.modNode id (fun n => { n with st := .cancelled, status := 7, succ := [] })).freeEdges
              id (s.node id).succ.length).memOk = true := by
        split <;> exact h
      split
      · exact memOk_abandon hc
      · exact hc

theorem memOk_finishNode {s : State} {id : BitVec 16} {st : NodeState} {status : Nat} (h : s.memOk = true) :
    (s.finishNode id st status).memOk = true := by
  unfold State.finishNode
  refine memOk_ite h (memOk_ite ?_ ?_)
  · refine memOk_foldl (fun _ _ ht => memOk_decrement ht) (memOk_freeEdges ?_)
    split <;> exact h
  · refine memOk_cancelNodes (memOk_freeEdges ?_)
    split <;> exact h

theorem memOk_finishJobNode {s : State} {id : BitVec 16} {job : BitVec 32} {st : NodeState} {status : Nat}
    (h : s.memOk = true) : (s.finishJobNode id job st status).memOk = true :=
  memOk_ite (memOk_finishNode h) h

theorem memOk_nameNode {s : State} {vf : Nat} {id : BitVec 16} {cmd : Option Nat} {job : Option (BitVec 32)}
    (h : s.memOk = true) : (s.nameNode vf id cmd job).memOk = true :=
  memOk_ite h h

theorem memOk_defaultWrite {s : State} {vf : Nat} {va : W64} {bs : List Byte} (h : s.memOk = true) :
    (s.defaultWrite vf va bs).1.memOk = true := by
  unfold State.defaultWrite
  split
  · exact memOk_ite (memOk_macFailure _ h) h
  · split
    · exact h
    · exact memOk_foldl (fun _ _ ht => memOk_performEntry _ (memOk_applyXlat ht)) h

theorem memOk_modJob {s : State} {part : Nat} {id : BitVec 32} {f : Job → Job} (h : s.memOk = true) :
    (s.modJob part id f).memOk = true :=
  h

theorem memOk_writeCompletion {s : State} {j : Job} {mkf : Bool} (h : s.memOk = true) :
    (s.writeCompletion j mkf).memOk = true :=
  memOk_ite h (memOk_defaultWrite h)

theorem memOk_acceptJob {s : State} {part vf : Nat} {d : List Byte} {parent : BitVec 32} {node : BitVec 16} {a :
    Option W64} (h : s.memOk = true) : (s.acceptJob part vf d parent node a).2.memOk = true := by
  unfold State.acceptJob
  dsimp only
  split
  · exact memOk_abandon (memOk_ite (memOk_jobReady (memOk_nameNode h)) (memOk_nameNode h))
  · exact memOk_ite (memOk_jobReady (memOk_nameNode h)) (memOk_nameNode h)

theorem memOk_endBarriers {s : State} {part : Nat} (h : s.memOk = true) : (s.endBarriers part).memOk = true :=
  h

theorem memOk_dropWindow {s : State} {slot : Nat} {lost : Bool} (h : s.memOk = true) :
    (s.dropWindow slot lost).memOk = true := by
  unfold State.dropWindow
  dsimp only
  split
  · exact h
  · exact (memOk_modThread _ _ h :)

theorem memOk_emptySlot {s : State} {slot : Nat} {leave : Bool} (h : s.memOk = true) :
    (s.emptySlot slot leave).memOk = true := by
  unfold State.emptySlot
  refine memOk_modThread _ _ ?_
  split
  · refine memOk_modThread _ _ ?_
    split
    · exact memOk_ite (memOk_modVc (memOk_modTile (memOk_ite (memOk_endBarriers (memOk_modPart (memOk_dropWindow
          (memOk_markFlights h)))) (memOk_dropWindow (memOk_markFlights h))))) (memOk_modTile (memOk_ite
          (memOk_endBarriers (memOk_modPart (memOk_dropWindow (memOk_markFlights h)))) (memOk_dropWindow
          (memOk_markFlights h))))
    · exact memOk_modTile (memOk_ite (memOk_endBarriers (memOk_modPart (memOk_dropWindow (memOk_markFlights h))))
          (memOk_dropWindow (memOk_markFlights h)))
  · split
    · exact memOk_ite (memOk_modVc (memOk_modTile (memOk_ite (memOk_endBarriers (memOk_modPart (memOk_dropWindow
          (memOk_markFlights h)))) (memOk_dropWindow (memOk_markFlights h))))) (memOk_modTile (memOk_ite
          (memOk_endBarriers (memOk_modPart (memOk_dropWindow (memOk_markFlights h)))) (memOk_dropWindow
          (memOk_markFlights h))))
    · exact memOk_modTile (memOk_ite (memOk_endBarriers (memOk_modPart (memOk_dropWindow (memOk_markFlights h))))
          (memOk_dropWindow (memOk_markFlights h)))

theorem memOk_settleDone {s : State} {part : Nat} {id result : BitVec 32} (h : s.memOk = true) :
    (s.settleDone part id result).memOk = true := by
  unfold State.settleDone
  dsimp only
  split
  · exact h
  · exact memOk_ite h (memOk_modPart (memOk_finishJobNode (memOk_writeCompletion h)))

theorem memOk_unitRead {s : State} {c : Ctx} {va : W64} {n : Nat} (h : s.memOk = true) :
    (s.unitRead c va n).2.memOk = true := by
  unfold State.unitRead
  dsimp only
  split
  · next e =>
      split
      · exact memOk_of_snd e (memOk_resolve h)
      · exact memOk_touch _ _ _ _ (memOk_of_snd e (memOk_resolve h))
  · next e =>
      exact memOk_of_snd e (memOk_resolve h)
  · next e =>
      exact memOk_of_snd e (memOk_resolve h)
  · next e =>
      exact memOk_of_snd e (memOk_resolve h)

theorem memOk_readResume {s : State} {slot : Nat} (h : s.memOk = true) : (s.readResume slot).2.memOk = true := by
  unfold State.readResume
  dsimp only
  split
  · exact h
  · exact memOk_unitRead h

theorem memOk_parkJob {s : State} {slot : Nat} {resume : Bool} (h : s.memOk = true) :
    (s.parkJob slot resume).memOk = true :=
  h

/-! ### Releases and wakes -/

theorem keeps_release : M.Keeps release := keeps_bind keeps_drainBuffer fun _ => keeps_awaitTrains

theorem keeps_trainError {mine : Nat → Bool} : M.Keeps (trainError mine) := by
  unfold trainError
  refine keeps_get_bind fun _ hs => ?_
  split
  · exact keeps_bind (keeps_set hs) fun _ => keeps_trap _ _
  · exact keeps_pure _

theorem memOk_wakeSlot {s : State} {slot : Nat} (h : s.memOk = true) : (s.wakeSlot slot).memOk = true :=
  memOk_modThread _ _ h

/-! ### What the vector memory instructions share -/

theorem keeps_alignElems {z : Nat} {as : List (Nat × W64)} : M.Keeps (alignElems z as) := by
  unfold alignElems
  split
  · exact keeps_trap _ _
  · exact keeps_pure _

theorem keeps_checkHomeLock {acc : Access} {va : W64} {n : Nat} : M.Keeps (checkHomeLock acc va n) :=
  keeps_get_bind fun _ _ => keeps_ite (keeps_throw _) (keeps_pure _)

theorem keeps_lockElems {n : Nat} {store : Bool} {l : List (Nat × W64)} : M.Keeps (lockElems n store l) := by
  induction l with
  | nil => exact keeps_pure _
  | cons a r ih => exact keeps_bind keeps_checkLock fun _ => keeps_bind keeps_checkHomeLock fun _ => ih

theorem keeps_translateChecked {check : W64 → Phys → M Unit} {acc : Access} {as : List (Nat × W64)}
    (hcheck : ∀ a p, M.Keeps (check a p)) : M.Keeps (translateChecked check acc as) := by
  refine keeps_bind (keeps_forIn fun r x => ?_) fun x => keeps_pure _
  refine keeps_get_bind fun s _ => keeps_bind keeps_resolveNow fun z => ?_
  split
  · exact keeps_bind (hcheck _ _) fun _ => keeps_pure _
  · exact keeps_pure _

theorem keeps_translateElems {acc : Access} {as : List (Nat × W64)} {n : Nat} : M.Keeps (translateElems acc as n) :=
  keeps_translateChecked (fun _ _ => keeps_checkHome)

theorem keeps_elementFaults {acc : Access} {bad : List (Nat × W64 × XFault)} : M.Keeps (elementFaults acc bad) := by
  unfold elementFaults
  dsimp only
  split
  · exact keeps_pure _
  · split
    · exact keeps_bind (keeps_modify fun _ hs => memOk_ite hs hs) fun _ => keeps_throw _
    · exact keeps_get_bind fun _ hs => keeps_ite (keeps_bind (keeps_modify fun _ hs => memOk_modCv
          (memOk_ite hs hs)) fun _ => keeps_bind (keeps_throw _) fun _ => keeps_bind (keeps_set (memOk_ite
          (memOk_appendBatch hs) (memOk_ite (memOk_modCv (memOk_appendBatch hs)) (memOk_setPred (memOk_modCv
          (memOk_appendBatch hs)))))) fun _ => keeps_throw _) (keeps_bind (keeps_set (memOk_ite
          (memOk_appendBatch hs) (memOk_ite (memOk_modCv (memOk_appendBatch hs)) (memOk_setPred (memOk_modCv
          (memOk_appendBatch hs)))))) fun _ => keeps_throw _)

theorem keeps_wholeBeats {acc : Access} {va : W64} {n : Nat} : M.Keeps (wholeBeats acc va n) :=
  keeps_bind keeps_checkAlign fun _ => keeps_bind keeps_lockElems fun _ => keeps_bind keeps_translateElems fun _ =>
      keeps_ite (keeps_pure _) keeps_faultTrap

theorem memOk_touchLines {s : State} {ps : List Phys} {al : Alloc} {write : Bool} (h : s.memOk = true) :
    (s.touchLines ps al write).memOk = true :=
  memOk_foldl (fun _ _ ht => memOk_countHost _ (memOk_l2Access _ _ _ _ ht)) h

theorem keeps_readPlace {va : W64} {p : Phys} {n : Nat} : M.Keeps (readPlace va p n) :=
  keeps_bind keeps_takeBytes fun _ => keeps_pure _

theorem keeps_readPlaces {n : Nat} {l : List (Nat × W64 × Phys)} : M.Keeps (readPlaces n l) := by
  induction l with
  | nil => exact keeps_pure _
  | cons a r ih => exact keeps_bind keeps_readPlace fun _ => keeps_bind ih fun _ => keeps_pure _

theorem keeps_loadPlaces {d : BitVec 5} {z : Nat} {now : List (Nat × W64 × Phys)} {footprint : Nat} : M.Keeps
    (loadPlaces d z now footprint) :=
  keeps_bind (keeps_modify fun _ hs => memOk_touchLines hs) fun _ => keeps_bind keeps_readPlaces fun _ =>
      keeps_modify fun _ hs => memOk_foldl (fun _ _ ht => ht) hs

theorem keeps_loadElems {d : BitVec 5} {z : Nat} {as : List (Nat × W64)} {footprint : Nat} : M.Keeps
    (loadElems d z as footprint) :=
  keeps_bind keeps_alignElems fun _ => keeps_bind keeps_lockElems fun _ => keeps_get_bind fun _ _ => keeps_bind
      keeps_translateElems fun _ => keeps_get_bind fun _ _ => keeps_bind keeps_loadPlaces fun _ =>
      keeps_elementFaults

theorem memOk_shuffle {s : State} {ws : List Write} (h : s.memOk = true) : (s.shuffle ws).2.memOk = true := by
  unfold State.shuffle
  split <;> exact h

theorem memOk_shuffleAll {s : State} {l : List (List Write)} (h : s.memOk = true) :
    (s.shuffleAll l).2.memOk = true := by
  induction l generalizing s with
  | nil => exact h
  | cons b r ih => exact ih (memOk_shuffle h)

theorem memOk_pushEntries {s : State} {ws : List Write} {big any : Bool} (h : s.memOk = true) :
    (s.pushEntries ws big any).memOk = true := by
  unfold State.pushEntries
  refine memOk_pushStore ?_
  split
  · exact memOk_shuffleAll h
  · exact h

theorem keeps_storeElems {d : BitVec 5} {z : Nat} {as : List (Nat × W64)} {footprint : Nat} {any : Bool} : M.Keeps
    (storeElems d z as footprint any) :=
  keeps_bind keeps_alignElems fun _ => keeps_bind keeps_lockElems fun _ => keeps_get_bind fun _ _ => keeps_bind
      keeps_translateElems fun _ => keeps_get_bind fun _ _ => keeps_bind keeps_storeRoom fun _ => keeps_bind
      (keeps_modify fun _ hs => memOk_pushEntries hs) fun _ => keeps_elementFaults

/-! ### Accumulator tiles -/

theorem keeps_tileClean {t : BitVec 4} {ws : List Nat} : M.Keeps (tileClean t ws) :=
  keeps_get_bind fun _ _ => keeps_ite (keeps_trap _ _) (keeps_pure _)

theorem keeps_checkOwner {t : BitVec 4} : M.Keeps (checkOwner t) :=
  keeps_get_bind fun _ _ => keeps_ite (keeps_trap _ _) (keeps_pure _)

theorem keeps_claimTile {t : BitVec 4} : M.Keeps (claimTile t) :=
  keeps_bind keeps_checkOwner fun _ => keeps_get_bind fun _ hs => keeps_ite (keeps_set hs) (keeps_pure _)

theorem keeps_tileReady {t : BitVec 4} {ws : List Nat} : M.Keeps (tileReady t ws) :=
  keeps_bind keeps_checkOwner fun _ => keeps_get_bind fun _ _ => keeps_ite keeps_tileClean (keeps_pure _)

theorem keeps_claimClean {t : BitVec 4} {ws : List Nat} : M.Keeps (claimClean t ws) :=
  keeps_bind keeps_tileReady fun _ => keeps_claimTile

theorem keeps_awaitTile {t : BitVec 4} : M.Keeps (awaitTile t) :=
  keeps_get_bind fun _ _ => keeps_ite (keeps_waitFor _) (keeps_pure _)

theorem memOk_clearMprog {s : State} (h : s.memOk = true) : s.clearMprog.memOk = true := h

theorem ends_execMzero {t : BitVec 4} {s : State} (h : s.memOk = true) : EndsCanonical (execMzero t s) :=
  ends_conclude h (keeps_bind keeps_vectorGate fun _ => keeps_bind keeps_claimTile fun _ => keeps_modify fun _ hs
      => hs)

theorem keeps_rowChecks {v b : BitVec 5} : M.Keeps (rowChecks v b) :=
  keeps_bind keeps_vectorChecks fun _ => keeps_get_bind fun _ _ => keeps_bind (keeps_need _) fun _ => keeps_pure _

theorem ends_execAtov {t : BitVec 4} {d b p : BitVec 5} {s : State} (h : s.memOk = true) :
    EndsCanonical (execAtov t d b p s) :=
  ends_conclude h (keeps_bind keeps_rowChecks fun _ => keeps_ite (keeps_bind keeps_claimClean fun _ => keeps_modify
      fun _ hs => memOk_foldl (fun _ _ ht => ht) hs) (keeps_pure _))

theorem ends_execVtoa {t : BitVec 4} {a b p : BitVec 5} {s : State} (h : s.memOk = true) :
    EndsCanonical (execVtoa t a b p s) :=
  ends_conclude h (keeps_bind keeps_rowChecks fun _ => keeps_ite (keeps_bind keeps_claimTile fun _ => keeps_modify
      fun _ hs => hs) (keeps_pure _))

theorem keeps_readTile {ps : List (Nat × W64 × Phys)} : M.Keeps (readTile ps) :=
  keeps_bind (keeps_modify fun _ hs => memOk_touchLines hs) fun _ => keeps_bind keeps_readPlaces fun _ =>
      keeps_pure _

theorem keeps_loadTile {t : BitVec 4} {ps : List (Nat × W64 × Phys)} : M.Keeps (loadTile t ps) :=
  keeps_bind keeps_readTile fun _ => keeps_modify fun _ hs => hs

theorem keeps_storeTile {t : BitVec 4} {ps : List (Nat × W64 × Phys)} : M.Keeps (storeTile t ps) :=
  keeps_bind keeps_tileClean fun _ => keeps_bind keeps_storeRoom fun _ => keeps_modify fun _ hs =>
      memOk_pushEntries hs

theorem ends_execAld {t : BitVec 4} {b : BitVec 5} {s : State} (h : s.memOk = true) :
    EndsCanonical (execAld t b s) :=
  ends_conclude h (keeps_bind keeps_vectorGate fun _ => keeps_bind keeps_wholeBeats fun _ => keeps_bind
      keeps_checkOwner fun _ => keeps_bind keeps_readTile fun _ => keeps_bind keeps_claimTile fun _ => keeps_modify
      fun _ hs => hs)

theorem ends_execAst {t : BitVec 4} {b : BitVec 5} {s : State} (h : s.memOk = true) :
    EndsCanonical (execAst t b s) :=
  ends_conclude h (keeps_bind keeps_vectorGate fun _ => keeps_bind keeps_wholeBeats fun _ => keeps_bind
      keeps_claimClean fun _ => keeps_storeTile)

theorem keeps_handlerGate : M.Keeps handlerGate :=
  keeps_get_bind fun _ _ => keeps_ite (keeps_bind keeps_illop fun _ => keeps_bind keeps_needPrivileged fun _ =>
      keeps_vectorGate) (keeps_bind keeps_needPrivileged fun _ => keeps_vectorGate)

theorem ends_execAsave {t : BitVec 4} {b : BitVec 5} {s : State} (h : s.memOk = true) :
    EndsCanonical (execAsave t b s) :=
  ends_conclude h (keeps_bind keeps_handlerGate fun _ => keeps_bind keeps_wholeBeats fun _ => keeps_bind
      keeps_awaitTile fun _ => keeps_storeTile)

theorem ends_execArst {t : BitVec 4} {b : BitVec 5} {s : State} (h : s.memOk = true) :
    EndsCanonical (execArst t b s) :=
  ends_conclude h (keeps_bind keeps_handlerGate fun _ => keeps_bind (keeps_need _) fun _ => keeps_bind
      keeps_wholeBeats fun _ => keeps_bind keeps_awaitTile fun _ => keeps_bind keeps_loadTile fun _ => keeps_modify
      fun _ hs => hs)

/-! ### Groups and phases -/

theorem keeps_waitEnded {n : Nat} {q : BitVec 32} : M.Keeps (waitEnded n q) := by
  unfold waitEnded
  refine keeps_get_bind fun _ hs => ?_
  split
  · exact keeps_bind (keeps_set hs) fun _ => keeps_pure _
  · exact keeps_pure _

theorem keeps_groupNumber {a : BitVec 5} : M.Keeps (groupNumber a) :=
  keeps_get_bind fun _ _ => keeps_bind (keeps_need _) fun _ => keeps_pure _

theorem keeps_needMember {n : Nat} : M.Keeps (needMember n) := by
  unfold needMember
  refine keeps_get_bind fun _ _ => ?_
  split
  · exact keeps_pure _
  · exact keeps_illop

theorem ends_execGjoin {d a : BitVec 5} {s : State} (h : s.memOk = true) : EndsCanonical (execGjoin d a s) :=
  ends_conclude h (keeps_bind keeps_groupNumber fun _ => keeps_ite (keeps_modify fun _ hs => memOk_wr hs)
      (keeps_ite (keeps_modify fun _ hs => memOk_wr hs) (keeps_ite (keeps_modify fun _ hs => memOk_wr hs)
      (keeps_modify fun _ hs => memOk_wr hs))))

theorem ends_execGleave {d a : BitVec 5} {s : State} (h : s.memOk = true) : EndsCanonical (execGleave d a s) :=
  ends_conclude h (keeps_bind keeps_groupNumber fun _ => keeps_ite (keeps_modify fun _ hs => memOk_wr hs)
      (keeps_modify fun _ hs => memOk_wr hs))

theorem keeps_arriveIn {n : Nat} {d : BitVec 5} : M.Keeps (arriveIn n d) :=
  keeps_modify fun _ hs => memOk_wr hs

theorem ends_execBarw {d a : BitVec 5} {s : State} (h : s.memOk = true) : EndsCanonical (execBarw d a s) := by
  unfold execBarw
  refine ends_conclude h (keeps_bind keeps_groupNumber fun _ => ?_)
  refine keeps_bind keeps_needMember fun _ => keeps_ite ?_ ?_
  · refine keeps_bind keeps_release fun _ => keeps_bind (keeps_modify fun _ hs => hs) fun _ => ?_
    refine keeps_get_bind fun _ _ => ?_
    split
    · exact keeps_illop
    · exact keeps_bind keeps_waitEnded fun _ => keeps_get_bind fun _ hs => keeps_ite (keeps_set (memOk_wr hs))
          (keeps_waitFor _)
  · refine keeps_get_bind fun _ _ => ?_
    split
    · exact keeps_illop
    · exact keeps_bind keeps_waitEnded fun _ => keeps_get_bind fun _ hs => keeps_ite (keeps_set (memOk_wr hs))
          (keeps_waitFor _)

theorem ends_execBararv {d a : BitVec 5} {s : State} (h : s.memOk = true) : EndsCanonical (execBararv d a s) :=
  ends_conclude h (keeps_bind keeps_groupNumber fun _ => keeps_bind keeps_needMember fun _ => keeps_bind
      keeps_release fun _ => keeps_arriveIn)

theorem ends_execBarrlx {d a : BitVec 5} {s : State} (h : s.memOk = true) : EndsCanonical (execBarrlx d a s) :=
  ends_conclude h (keeps_bind keeps_groupNumber fun _ => keeps_bind keeps_needMember fun _ => keeps_arriveIn)

theorem ends_execBarwait {d a b : BitVec 5} {s : State} (h : s.memOk = true) :
    EndsCanonical (execBarwait d a b s) := by
  unfold execBarwait
  refine ends_conclude h (keeps_bind keeps_groupNumber fun _ => ?_)
  refine keeps_bind (keeps_need _) fun _ => keeps_bind keeps_waitEnded fun _ => ?_
  split
  · exact keeps_modify fun _ hs => memOk_wr hs
  · exact keeps_ite (keeps_modify fun _ hs => memOk_wr hs) (keeps_ite (keeps_modify fun _ hs => memOk_wr hs)
        (keeps_waitFor _))

theorem ends_execPhend {d a : BitVec 5} {s : State} (h : s.memOk = true) : EndsCanonical (execPhend d a s) :=
  ends_conclude h (keeps_bind keeps_groupNumber fun _ => keeps_bind keeps_needMember fun _ => keeps_bind
      keeps_drainBuffer fun _ => keeps_get_bind fun _ _ => keeps_ite (keeps_bind
      (keeps_waitFor _) fun _ => keeps_bind keeps_trainError fun _ => keeps_arriveIn)
      (keeps_bind keeps_trainError fun _ => keeps_arriveIn))

theorem ends_execGsize {d a : BitVec 5} {s : State} (h : s.memOk = true) : EndsCanonical (execGsize d a s) :=
  ends_conclude h (keeps_bind keeps_groupNumber fun _ => keeps_modify fun _ hs => memOk_wr hs)

/-! ### Jobs, time and chain slots -/

theorem ends_execSpawn {d a b : BitVec 5} {s : State} (h : s.memOk = true) : EndsCanonical (execSpawn d a b s) := by
  unfold execSpawn
  refine ends_conclude h (keeps_bind (keeps_need _) fun _ => ?_)
  refine keeps_bind keeps_loadWide fun _ => keeps_get_bind fun _ _ => ?_
  refine keeps_ite (keeps_modify fun _ hs => memOk_wr hs) (keeps_ite (keeps_trap _ _) ?_)
  dsimp only
  split
  · exact keeps_modify fun _ hs => memOk_wr hs
  · exact keeps_bind keeps_release fun _ => keeps_modify fun _ hs => memOk_wr (memOk_acceptJob hs)

theorem ends_execJdone {a : BitVec 5} {s : State} (h : s.memOk = true) : EndsCanonical (execJdone a s) := by
  unfold execJdone
  refine ends_ite (ends_trapNow h) (ends_ite (ends_trapNow h) ?_)
  dsimp only
  split
  · next e =>
      exact ends_ite (ends_next (memOk_modHw (memOk_callBack (memOk_of_snd e ((keeps_bind keeps_drainBuffer fun _
          => keeps_awaitTrains) _ h))))) (ends_next (memOk_emptySlot (memOk_modJob (memOk_settleDone
          (memOk_of_snd e ((keeps_bind keeps_drainBuffer fun _ => keeps_awaitTrains) _ h))))))
  · next e =>
      exact ends_next (memOk_takeTrap (memOk_of_snd e ((keeps_bind keeps_drainBuffer fun _ => keeps_awaitTrains) _
          h)))
  · next e =>
      exact ends_next (memOk_modHw (memOk_of_snd e ((keeps_bind keeps_drainBuffer fun _ => keeps_awaitTrains) _ h)))

theorem ends_execJstat {d a : BitVec 5} {s : State} (h : s.memOk = true) : EndsCanonical (execJstat d a s) :=
  ends_conclude h (keeps_bind (keeps_need _) fun _ => keeps_modify fun _ hs => memOk_modHw (memOk_wr hs))

theorem memOk_withTh {s : State} {t : Thread} (h : s.memOk = true) : State.memOk { s with th := t } = true := h

theorem memOk_slotDeadline {t : State} {o : Option Nat} {f : Thread → Thread} (h : t.memOk = true) :
    (match o with | some n => t.modThread n f | none => t).memOk = true := by
  cases o with
  | none => exact h
  | some n => exact memOk_modThread n f h

theorem ends_execJdeadl {d a b : BitVec 5} {s : State} (h : s.memOk = true) :
    EndsCanonical (execJdeadl d a b s) := by
  unfold execJdeadl
  refine ends_conclude h ?_
  split
  · exact keeps_modify fun t ht => memOk_wr ht
  · next id j _ =>
    refine keeps_ite (keeps_modify fun t ht => memOk_wr ht) (keeps_modify fun t ht => ?_)
    have hjob : (t.tick.modJob t.tick.curPart id
        (fun i => { i with deadline := newDeadline (decide (s.th.sc.mode = .U)) j (s.rd b) })).memOk = true :=
      memOk_tick ht
    refine memOk_ite (memOk_abandon (memOk_wr ?_)) (memOk_wr ?_) <;>
      exact memOk_ite (memOk_withTh (memOk_slotDeadline hjob)) (memOk_slotDeadline hjob)

theorem keeps_slotWord {a : BitVec 5} : M.Keeps (slotWord a) :=
  keeps_get_bind fun _ _ => keeps_bind (keeps_need _) fun _ => keeps_pure _

theorem ends_execChbind {d a b : BitVec 5} {s : State} (h : s.memOk = true) : EndsCanonical (execChbind d a b s) :=
  ends_conclude h (keeps_bind keeps_vectorGate fun _ => keeps_bind keeps_slotWord fun _ => keeps_bind
      (keeps_need _) fun _ => keeps_ite (keeps_bind (keeps_need _) fun _ => keeps_modify fun _ hs => memOk_wr hs)
      (keeps_modify fun _ hs => memOk_wr hs))

theorem ends_execChpub {d a b : BitVec 5} {s : State} (h : s.memOk = true) : EndsCanonical (execChpub d a b s) :=
  ends_conclude h (keeps_bind keeps_slotWord fun _ => keeps_bind keeps_release fun _ => keeps_modify fun _ hs =>
      memOk_wr hs)

theorem ends_execChread {d a : BitVec 5} {s : State} (h : s.memOk = true) : EndsCanonical (execChread d a s) :=
  ends_conclude h (keeps_bind keeps_slotWord fun _ => keeps_bind (keeps_need _) fun _ => keeps_modify fun _ hs =>
      memOk_wr hs)

/-! ### Lane groups and slots -/

theorem memOk_readHeader {s : State} {j : Job} (h : s.memOk = true) : (s.readHeader j).2.memOk = true := by
  unfold State.readHeader
  split
  · exact h
  · exact memOk_unitRead h

/-! ### Vector configuration -/

theorem memOk_applyHold {s : State} {h : Hold} (hs : s.memOk = true) : (s.applyHold h).memOk = true :=
  memOk_modJob (memOk_modHw (memOk_modHeld (memOk_ite (memOk_modThread _ _ hs) (memOk_ite
      (memOk_modThread _ _ hs) hs))))

theorem keeps_translateRanges {check : W64 → Phys → Nat → M Unit} {places : State → W64 → List TlbPlace} {acc :
    Access}
    {rs : List (W64 × Nat)} (hcheck : ∀ a p n, M.Keeps (check a p n)) :
    M.Keeps (translateRanges check places acc rs) := by
  refine keeps_bind (keeps_forIn fun r x => ?_) fun x => keeps_ite (keeps_pure _) keeps_faultTrap
  refine keeps_bind (keeps_forIn fun p y => ?_) fun y => keeps_pure _
  refine keeps_get_bind fun s _ => keeps_bind keeps_resolveNow fun z => ?_
  split
  · exact keeps_bind (hcheck _ _ _) fun _ => keeps_get_bind fun u _ => keeps_ite (keeps_pure _) (keeps_pure _)
  · exact keeps_pure _

theorem keeps_translateBy {places : State → W64 → List TlbPlace} {acc : Access} {rs : List (W64 × Nat)} : M.Keeps
    (translateBy places acc rs) :=
  keeps_translateRanges (fun _ _ _ => keeps_checkHome)

theorem keeps_translateAll {acc : Access} {rs : List (W64 × Nat)} : M.Keeps (translateAll acc rs) :=
  keeps_translateRanges (fun _ _ _ => keeps_checkArrivals)

theorem memOk_storeAt {s : State} {ps : List (W64 × Phys × Nat)} {bs : List Byte} (h : s.memOk = true) :
    (s.storeAt ps bs).memOk = true :=
  memOk_pushStore h

theorem keeps_readAt {va : W64} {ps : List (W64 × Phys × Nat)} : M.Keeps (readAt va ps) := keeps_readWide

theorem keeps_shrinkRegs {lo ln : Nat} : M.Keeps (shrinkRegs lo ln) :=
  keeps_get_bind fun _ _ => keeps_ite (keeps_bind keeps_translateAll fun _ => keeps_bind keeps_readAt fun _ =>
      keeps_bind (keeps_modify fun _ hs => memOk_storeAt (memOk_foldl (fun _ _ ht => memOk_storeAt ht) hs)) fun _
      => keeps_modify fun _ hs => hs) (keeps_modify fun _ hs => hs)

theorem keeps_growRegs {lo ln : Nat} : M.Keeps (growRegs lo ln) :=
  keeps_get_bind fun _ _ => keeps_ite (keeps_bind keeps_translateAll fun _ => keeps_bind keeps_readAt fun _ =>
      keeps_bind keeps_translateAll fun _ => keeps_bind (keeps_forIn fun _ _ => keeps_bind keeps_readAt fun _ =>
      keeps_pure _) fun _ => keeps_modify fun _ hs => memOk_storeAt (memOk_foldl (fun _ _ ht => ht) hs))
      (keeps_modify fun _ hs => hs)

theorem keeps_moveRegs {h : Hold} : M.Keeps (moveRegs h) :=
  keeps_get_bind fun _ _ => keeps_ite (keeps_ite (keeps_bind keeps_shrinkRegs fun _ => keeps_modify fun _ hs =>
      memOk_forget hs) (keeps_ite (keeps_bind keeps_growRegs fun _ => keeps_modify fun _ hs => memOk_forget hs)
      (keeps_modify fun _ hs => memOk_forget hs))) (keeps_pure _)

theorem ends_execVcfg {d a : BitVec 5} {s : State} (h : s.memOk = true) : EndsCanonical (execVcfg d a s) :=
  ends_conclude h (keeps_bind keeps_vectorGate fun _ => keeps_bind (keeps_need _) fun _ => keeps_ite
      (keeps_bind keeps_translateAll fun _ => keeps_bind (keeps_modify fun _ hs => memOk_storeAt hs) fun _ =>
      keeps_modify fun _ hs => memOk_wr (memOk_setVtype hs)) (keeps_modify fun _ hs => memOk_wr
      (memOk_setVtype hs)))

theorem ends_execSetvl {d a : BitVec 5} {s : State} (h : s.memOk = true) : EndsCanonical (execSetvl d a s) :=
  ends_conclude h (keeps_bind keeps_vectorGate fun _ => keeps_ite (keeps_bind (keeps_modify fun _ hs => hs) fun _
      => keeps_bind (keeps_trap _ _) fun _ => keeps_ite (keeps_bind (keeps_waitFor _) fun _ => keeps_bind
      keeps_moveRegs fun _ => keeps_modify fun _ hs => memOk_wr (memOk_setVl (memOk_ite (memOk_modVec
      (memOk_applyHold hs)) (memOk_applyHold hs)))) (keeps_bind keeps_moveRegs fun _ => keeps_modify fun _ hs =>
      memOk_wr (memOk_setVl (memOk_ite (memOk_modVec (memOk_applyHold hs)) (memOk_applyHold hs))))) (keeps_ite
      (keeps_bind (keeps_waitFor _) fun _ => keeps_bind keeps_moveRegs fun _ => keeps_modify fun _ hs => memOk_wr
      (memOk_setVl (memOk_ite (memOk_modVec (memOk_applyHold hs)) (memOk_applyHold hs))))
      (keeps_bind keeps_moveRegs fun _ => keeps_modify fun _ hs => memOk_wr (memOk_setVl (memOk_ite (memOk_modVec
      (memOk_applyHold hs)) (memOk_applyHold hs))))))

theorem ends_execVkeep {d a : BitVec 5} {s : State} (h : s.memOk = true) : EndsCanonical (execVkeep d a s) :=
  ends_conclude h (keeps_bind keeps_vectorGate fun _ => keeps_bind (keeps_need _) fun _ => keeps_modify fun _ hs =>
      memOk_wr hs)

theorem ends_execVdead {d a : BitVec 5} {s : State} (h : s.memOk = true) : EndsCanonical (execVdead d a s) :=
  ends_conclude h (keeps_bind keeps_vectorGate fun _ => keeps_bind (keeps_need _) fun _ => keeps_modify fun _ hs =>
      memOk_wr (memOk_forget hs))

theorem ends_execVlmaxr {d a b : BitVec 5} {s : State} (h : s.memOk = true) : EndsCanonical (execVlmaxr d a b s) :=
  ends_conclude h (keeps_bind keeps_vectorGate fun _ => keeps_modify fun _ hs => memOk_wr hs)

theorem ends_execVindex {_cont : Bool} {d p : BitVec 5} {i : BitVec 8} {k : BitVec 7} {s : State} (h :
    s.memOk = true) : EndsCanonical (execVindex _cont d p i k s) :=
  ends_conclude h (keeps_bind keeps_vectorChecks fun _ => keeps_modify fun _ hs => memOk_mapElems hs)

/-! ### The caldera -/

theorem keeps_checkRows {rows : List (W64 × Nat)} : M.Keeps (checkRows rows) := by
  unfold checkRows
  refine keeps_get_bind fun _ _ => ?_
  split
  · exact keeps_throw _
  · exact keeps_pure _

theorem keeps_checkCald {cb span : Nat} : M.Keeps (checkCald cb span) := by
  refine keeps_get_bind fun s _ => keeps_ite ?_ (keeps_pure _)
  dsimp only
  split
  · exact keeps_throw _
  · exact keeps_pure _

theorem keeps_readRows {base pitch : W64} {k : Nat} {l : List (List (W64 × Phys × Nat))} :
    M.Keeps (readRows base pitch k l) := by
  induction l generalizing k with
  | nil => exact keeps_pure _
  | cons a r ih => exact keeps_bind keeps_readAt fun _ => keeps_bind ih fun _ => keeps_pure _

theorem ends_execCbld {sc b : BitVec 5} {s : State} (h : s.memOk = true) : EndsCanonical (execCbld sc b s) :=
  ends_conclude h (keeps_bind keeps_vectorGate fun _ => keeps_bind (keeps_need _) fun _ => keeps_bind
      (keeps_need _) fun _ => keeps_bind keeps_checkAlign fun _ => keeps_ite (keeps_bind
      (keeps_trap _ _) fun _ => keeps_bind keeps_checkRows fun _ => keeps_bind keeps_checkCald fun _ => keeps_bind
      keeps_translateBy fun _ => keeps_bind keeps_readRows fun _ => keeps_modify fun _ hs => hs)
      (keeps_bind keeps_checkRows fun _ => keeps_bind keeps_checkCald fun _ => keeps_bind keeps_translateBy fun _
      => keeps_bind keeps_readRows fun _ => keeps_modify fun _ hs => hs))

theorem ends_execCbfill {a b p : BitVec 5} {s : State} (h : s.memOk = true) : EndsCanonical (execCbfill a b p s) :=
  ends_conclude h (keeps_bind keeps_vectorChecks fun _ => keeps_bind (keeps_need _) fun _ => keeps_bind
      (keeps_need _) fun _ => keeps_ite (keeps_bind keeps_checkCald fun _ => keeps_modify fun _ hs => hs)
      (keeps_pure _))

/-! ### Fetching a convoy -/

theorem memOk_keepBlock {s : State} {key : Nat} {b : BitVec 512} {fill : Bool} (h : s.memOk = true) :
    (s.keepBlock key b fill).memOk = true :=
  memOk_ite h h

theorem memOk_fetchBlock {s : State} {p : Phys} (h : s.memOk = true) : (s.fetchBlock p).2.memOk = true := by
  unfold State.fetchBlock
  dsimp only
  split
  · split
    · exact memOk_claim _ _ h
    · exact memOk_keepBlock (memOk_bump (memOk_claim _ _ h))
  · split
    · exact memOk_keepBlock (memOk_ite (memOk_claim _ _ h) (memOk_bump (memOk_claim _ _ h)))
    · split
      · split
        · exact memOk_claim _ _ h
        · exact memOk_keepBlock (memOk_touch _ _ _ _ (memOk_claim _ _ h))
      · split
        · exact memOk_bump (memOk_claim _ _ h)
        · exact memOk_keepBlock (memOk_touch _ _ _ _ (memOk_bump (memOk_claim _ _ h)))

theorem memOk_fetchReady {s : State} {pc : W64} (h : s.memOk = true) : (s.fetchReady pc).2.memOk = true := by
  unfold State.fetchReady
  split
  · split
    · exact h
    · split
      · exact memOk_callBackBuf h
      · exact memOk_drainAll h
  · exact h

theorem memOk_fetchAt {s : State} {pc : W64} (h : s.memOk = true) : (s.fetchAt pc).2.memOk = true := by
  unfold State.fetchAt
  dsimp only
  split
  · exact h
  · split
    · exact memOk_fetchReady h
    · split
      · exact memOk_resolve (memOk_fetchReady h)
      · exact memOk_resolve (memOk_fetchReady h)
      · exact memOk_resolve (memOk_fetchReady h)
      · split
        · exact memOk_fetchBlock (memOk_resolve (memOk_fetchReady h))
        · split <;> exact memOk_fetchBlock (memOk_resolve (memOk_fetchReady h))

theorem memOk_formBody {s : State} {n : Nat} {pc : W64} (h : s.memOk = true) : (s.formBody n pc).2.2.memOk = true
    := by
  induction n generalizing s pc with
  | zero => exact h
  | succ n ih =>
    have hf : (s.fetchAt pc).2.memOk = true := memOk_fetchAt h
    unfold State.formBody
    split
    · next ws u e => exact ih (memOk_of_snd e hf)
    · next x u e => exact memOk_of_snd e hf

theorem memOk_fillBody {s : State} (h : s.memOk = true) : (s.fillBody).2.memOk = true := by
  unfold State.fillBody
  dsimp only
  split
  · exact memOk_modNest (memOk_formBody h)
  · exact h

theorem memOk_bodyEnd {s : State} (h : s.memOk = true) : s.bodyEnd.2.memOk = true := by
  have hr : (if s.th.nest.buf.length = s.th.nest.blen.toNat + 1 then (s.th.nest.buf, none, s)
      else s.formBody (s.th.nest.blen.toNat + 1) s.th.nest.start).2.2.memOk = true := by
    split
    · exact h
    · exact memOk_formBody h
  unfold State.bodyEnd
  dsimp only
  cases (if s.th.nest.buf.length = s.th.nest.blen.toNat + 1 then (s.th.nest.buf, none, s)
      else s.formBody (s.th.nest.blen.toNat + 1) s.th.nest.start).2.1 <;> exact hr

theorem memOk_fetchConvoy {s : State} (h : s.memOk = true) : (s.fetchConvoy).2.memOk = true := by
  unfold State.fetchConvoy
  split
  · split
    · exact h
    · exact memOk_fetchAt h
  · exact memOk_fetchAt h

theorem memOk_fetchTrap {s : State} {f : FetchStop} (h : s.memOk = true) : (s.fetchTrap f).memOk = true := by
  unfold State.fetchTrap
  dsimp only
  split
  · exact memOk_takeTrapWith h
  · exact h
  · exact memOk_takeTrapWith h
  · exact memOk_takeTrapWith (memOk_appendBatch h)

/-! ### Branches, jumps and loop nests -/

theorem ends_branchIf {s : State} {c : Bool} {o : BitVec 12} (h : s.memOk = true) :
    EndsCanonical (s.branchIf c o) :=
  ends_next (memOk_retire h)

theorem ends_execLnest {d a b : BitVec 5} {s : State} (h : s.memOk = true) : EndsCanonical (execLnest d a b s) :=
  ends_conclude h (keeps_bind (keeps_need _) fun _ => keeps_bind (keeps_need _) fun _ => keeps_bind
      (keeps_need _) fun _ => keeps_modify fun _ hs => hs)

theorem ends_execLexit {a b : BitVec 5} {s : State} (h : s.memOk = true) : EndsCanonical (execLexit a b s) := by
  unfold execLexit
  refine ends_ite (ends_trapNow h) (ends_ite ?_ (ends_next (memOk_retire h)))
  split
  · next e =>
      exact ends_next (memOk_retire (memOk_modNest (memOk_of_snd e (memOk_bodyEnd h))))
  · next e =>
      exact ends_next (memOk_fetchTrap (memOk_of_snd e (memOk_bodyEnd h)))

end Sys2Proof.Machine
end

section
/-!
PROOF. Every step keeps memory canonical: engines, the watch unit and the vector families.
-/

namespace Sys2Proof.Machine

open Sys2Proof

/-! ### Engine commands and node instructions -/

theorem memOk_registerLocks {s : State} {c : Cmd} (h : s.memOk = true) : (s.registerLocks c).memOk = true :=
  memOk_foldl (fun _ _ ht => memOk_foldl (fun _ _ ht => ht) ht) h

theorem memOk_enqueue {s : State} {e : Nat} {c : Cmd} (h : s.memOk = true) : (s.enqueue e c).memOk = true :=
  (memOk_nameNode (memOk_registerLocks h) :)

theorem keeps_submit {eng : Option Nat} {k : EngKind} {encode : Bool} {desc : List Byte} {node : BitVec 16} :
    M.Keeps (submit eng k encode desc node) := by
  unfold submit
  dsimp only
  split
  · exact keeps_pure _
  · exact keeps_get_bind fun _ _ => keeps_ite (keeps_pure _) (keeps_guard (keeps_trap _ _)
        (keeps_bind keeps_release fun _ => keeps_get_bind fun _ hs => keeps_guard (keeps_waitFor _) (keeps_bind
        (keeps_set (memOk_enqueue hs)) fun _ => keeps_pure _)))

theorem ends_codingIssue {s : State} {d a b : BitVec 5} {encode : Bool} {kind : List Byte → EngKind} (h :
    s.memOk = true) : EndsCanonical (s.codingIssue d a b encode kind) :=
  ends_conclude h (keeps_bind keeps_loadWide fun _ => keeps_bind (keeps_need _) fun _ => keeps_bind keeps_submit
      fun _ => keeps_modify fun _ hs => memOk_wr hs)

theorem ends_execEcpy {d a : BitVec 5} {s : State} (h : s.memOk = true) : EndsCanonical (execEcpy d a s) :=
  ends_conclude h (keeps_bind keeps_loadWide fun _ => keeps_bind keeps_submit fun _ => keeps_modify fun _ hs =>
      memOk_wr hs)

theorem memOk_addEdge {s : State} {p q : BitVec 16} (h : s.memOk = true) : (s.addEdge p q).2.memOk = true := by
  unfold State.addEdge
  dsimp only
  split
  · exact h
  · split
    · exact h
    · split
      · exact h
      · split
        · exact memOk_ite (memOk_cancelNodes h) h
        · split <;> exact h

theorem keeps_nodeArg {x : W64} : M.Keeps (nodeArg x) := keeps_bind (keeps_need _) fun _ => keeps_pure _

theorem ends_execEdge {d a b : BitVec 5} {s : State} (h : s.memOk = true) : EndsCanonical (execEdge d a b s) :=
  ends_conclude h (keeps_bind keeps_nodeArg fun _ => keeps_bind keeps_nodeArg fun _ => keeps_modify fun _ hs =>
      memOk_wr (memOk_addEdge hs))

theorem ends_execEwait {d a : BitVec 5} {s : State} (h : s.memOk = true) : EndsCanonical (execEwait d a s) :=
  ends_conclude h (keeps_bind keeps_nodeArg fun _ => keeps_ite (keeps_bind (keeps_waitFor _) fun _ => keeps_modify
      fun _ hs => memOk_wr hs) (keeps_modify fun _ hs => memOk_wr hs))

theorem ends_execEstat {d a : BitVec 5} {s : State} (h : s.memOk = true) : EndsCanonical (execEstat d a s) :=
  ends_conclude h (keeps_bind keeps_nodeArg fun _ => keeps_modify fun _ hs => memOk_wr hs)

theorem memOk_cancelNode {s : State} {id : BitVec 16} (h : s.memOk = true) : (s.cancelNode id).memOk = true := by
  unfold State.cancelNode
  refine memOk_ite h ?_
  dsimp only
  split
  · exact memOk_abandon h
  · refine memOk_ite h (memOk_finishNode ?_)
    split <;> exact h

theorem ends_execEcancel {d a : BitVec 5} {s : State} (h : s.memOk = true) : EndsCanonical (execEcancel d a s) :=
  ends_conclude h (keeps_bind keeps_nodeArg fun _ => keeps_modify fun _ hs => memOk_wr (memOk_ite hs
      (memOk_cancelNode hs)))

/-! ### The watch unit -/

theorem memOk_modSeq {s : State} {vf q : Nat} {f : Seq → Seq} (h : s.memOk = true) :
    (s.modSeq vf q f).memOk = true :=
  h

theorem memOk_notify {s : State} {vf bits : Nat} (h : s.memOk = true) : (s.notify vf bits).memOk = true :=
  memOk_ite h h

theorem memOk_writeAt {s : State} {ps : List (W64 × Nat × Xlat)} {va : W64} {bs : List Byte}
    (h : s.memOk = true) : (s.writeAt ps va bs).memOk = true :=
  memOk_foldl (fun _ _ ht => memOk_performEntry _ (memOk_applyXlat ht)) h

theorem memOk_readRuns {s : State} {ps : Runs} (h : s.memOk = true) : (s.readRuns ps).memOk = true :=
  memOk_foldl (fun _ _ ht => memOk_touch _ _ _ _ (memOk_applyXlat ht)) h

theorem memOk_twinAsked {s : State} {acc : Access} {ps : Runs} (h : s.memOk = true) :
    (s.twinAsked acc ps).memOk = true :=
  memOk_ite h h

theorem memOk_addOne {s : State} {c : Runs} (h : s.memOk = true) : (s.addOne c).memOk = true := by
  unfold State.addOne
  dsimp only
  split
  · exact h
  · exact memOk_storeHome _ _ _ _ (memOk_claim _ _ (memOk_applyXlat h))

theorem memOk_fork {s : State} {vf q : Nat} (h : s.memOk = true) : (s.fork vf q).2.memOk = true := by
  unfold State.fork
  dsimp only
  split
  · exact memOk_ite (memOk_macFailure _ (memOk_readRuns h)) h
  · split
    · exact memOk_ite (memOk_macFailure _ (memOk_readRuns h)) h
    · split
      · exact memOk_macFailure _ (memOk_readRuns h)
      · exact memOk_modSeq (memOk_foldl (fun _ _ ht => memOk_addOne ht) (memOk_writeAt (memOk_readRuns h)))

theorem memOk_applyCheck {s : State} {vf q : Nat} {t : BitVec 24} (h : s.memOk = true) :
    (s.applyCheck vf q t).2.memOk = true := by
  unfold State.applyCheck
  dsimp only
  split
  · exact memOk_modSeq (memOk_notify h)
  · split
    · split <;> exact memOk_ite (memOk_bump (memOk_fork (memOk_notify h))) (memOk_fork (memOk_notify h))
    · split
      · split
        · split
          · exact memOk_modSeq (memOk_notify h)
          · exact memOk_notify h
        · split
          · exact memOk_modSeq (memOk_notify h)
          · exact memOk_notify h
      · split <;> exact memOk_notify h

theorem memOk_checkOne {s : State} {vf x y : Nat} (h : s.memOk = true) : (s.checkOne vf x y).2.2.memOk = true := by
  have ite_snd : ∀ {c : Prop} [Decidable c] {p q : Nat × Bool × State}, p.2.2.memOk = true → q.2.2.memOk = true →
      (if c then p else q).2.2.memOk = true := by
    intro c _ p q hp hq
    split <;> assumption
  exact ite_snd h (ite_snd h (ite_snd h (memOk_applyCheck h)))

theorem memOk_applyDrafts {s : State} {vf q n : Nat} {l : List (BitVec 24)} (h : s.memOk = true) :
    (s.applyDrafts vf q n l).2.2.memOk = true := by
  induction l generalizing s n with
  | nil => exact h
  | cons t r ih =>
    unfold State.applyDrafts
    dsimp only
    split
    · exact memOk_applyCheck h
    · exact ih (memOk_applyCheck h)

theorem memOk_confirmOne {s : State} {vf x y : Nat} (h : s.memOk = true) : (s.confirmOne vf x y).2.2.memOk = true
    := by
  unfold State.confirmOne
  dsimp only
  split
  · exact h
  · split
    · exact memOk_modSeq (memOk_applyDrafts h)
    · exact memOk_modSeq (memOk_applyDrafts h)

theorem memOk_watchAll {s : State} {f : State → Nat → Nat → Nat × Bool × State} {d a b : BitVec 5} {l : List Nat}
    (hf : ∀ t x y, State.memOk t = true → (f t x y).2.2.memOk = true) (h : s.memOk = true) :
    (s.watchAll f d a b l).2.memOk = true := by
  induction l generalizing s with
  | nil => exact h
  | cons e r ih => exact ih (hf _ _ _ h)

theorem keeps_watchElems {f : State → Nat → Nat → Nat × Bool × State} {d a b p : BitVec 5}
    (hf : ∀ t x y, State.memOk t = true → (f t x y).2.2.memOk = true) : M.Keeps (watchElems f d a b p) := by
  have ends : ∀ (t : State) (es : List Nat), t.memOk = true → M.Keeps (do
      set t
      match es with
      | [] => pure ()
      | e :: l =>
        modify (fun u => u.setPred 95 (maskOf (e :: l)))
        throw (.trap { plainTrap Cause.twatch (BitVec.ofNat 64 (e + (l.length + 1) * 2 ^ 16)) with
          next := true, pfw := true }) : M Unit) := by
    intro t es ht
    refine keeps_bind (keeps_set ht) fun _ => ?_
    cases es with
    | nil => exact keeps_pure _
    | cons e l => exact keeps_bind (keeps_modify fun s hs => hs) fun _ => keeps_throw _
  refine keeps_bind keeps_vectorChecks fun t => keeps_bind (keeps_need _) fun _ => keeps_get_bind fun s hs => ?_
  have hr : (s.watchAll f d a b (s.actives p)).2.memOk = true := memOk_watchAll hf hs
  refine keeps_ite (keeps_bind (keeps_set (memOk_callBack hs)) fun _ => keeps_bind (keeps_waitFor _) fun _ => ?_) ?_
  · exact ends _ _ hr
  · exact ends _ _ hr

theorem keeps_watchElems_checkOne {f : State → Nat → Nat → Nat × Bool × State} {vf : Nat} {d a b p : BitVec 5}
    (hf : ∀ t x y, f t x y = State.checkOne t vf x y) : M.Keeps (watchElems f d a b p) := by
  refine keeps_watchElems fun t x y ht => ?_
  rw [hf]
  exact memOk_checkOne ht

theorem ends_execTwchk {d a b p : BitVec 5} {s : State} (h : s.memOk = true) :
    EndsCanonical (execTwchk d a b p s) :=
  ends_conclude h (keeps_watchElems_checkOne fun _ _ _ => rfl)

theorem ends_execTwconf {d a b p : BitVec 5} {s : State} (h : s.memOk = true) :
    EndsCanonical (execTwconf d a b p s) :=
  ends_conclude h (keeps_watchElems (fun _ _ _ x => memOk_confirmOne x))

theorem keeps_controlWord {b : BitVec 5} {mask : Nat} : M.Keeps (controlWord b mask) :=
  keeps_get_bind fun _ _ => keeps_bind (keeps_need _) fun _ => keeps_pure _

theorem ends_execTwset {d a b : BitVec 5} {s : State} (h : s.memOk = true) : EndsCanonical (execTwset d a b s) :=
  ends_conclude h (keeps_bind keeps_controlWord fun _ => keeps_ite (keeps_bind (keeps_pure _) fun _ =>
      keeps_get_bind fun _ _ => keeps_ite (keeps_modify fun _ hs => memOk_wr hs) (keeps_ite
      (keeps_modify fun _ hs => memOk_wr hs) (keeps_ite (keeps_modify fun _ hs => memOk_wr hs) (keeps_ite
      (keeps_modify fun _ hs => memOk_wr hs) (keeps_modify fun _ hs => memOk_wr (memOk_ite (memOk_ite hs hs)
      (memOk_modSeq (memOk_ite hs hs)))))))) (keeps_bind keeps_loadWide fun _ => keeps_get_bind fun _ _ =>
      keeps_ite (keeps_modify fun _ hs => memOk_wr hs) (keeps_ite (keeps_modify fun _ hs => memOk_wr hs)
      (keeps_ite (keeps_modify fun _ hs => memOk_wr hs) (keeps_ite (keeps_modify fun _ hs => memOk_wr hs)
      (keeps_modify fun _ hs => memOk_wr (memOk_ite (memOk_ite hs hs) (memOk_modSeq (memOk_ite hs hs)))))))))

theorem ends_execTwclr {d b : BitVec 5} {s : State} (h : s.memOk = true) : EndsCanonical (execTwclr d b s) :=
  ends_conclude h (keeps_bind keeps_controlWord fun _ => keeps_bind (keeps_need _) fun _ => keeps_ite
      (keeps_modify fun _ hs => memOk_wr hs) (keeps_ite (keeps_modify fun _ hs => memOk_wr hs) (keeps_ite
      (keeps_modify fun _ hs => memOk_wr hs) (keeps_ite (keeps_modify fun _ hs => memOk_wr hs)
      (keeps_modify fun _ hs => memOk_wr hs)))))

theorem ends_execTwread {d a : BitVec 5} {s : State} (h : s.memOk = true) : EndsCanonical (execTwread d a s) :=
  ends_conclude h (keeps_bind keeps_controlWord fun _ => keeps_bind (keeps_need _) fun _ => keeps_modify fun _ hs
      => memOk_wr hs)

/-! ### The fronthaul unit and soft errors -/

theorem canonical_atTime {s : State} {time : Nat} (h : s.memOk = true) : SomeCanonical (s.atTime time) := by
  unfold State.atTime
  split
  · exact canonical_some h
  · exact canonical_none

theorem memOk_modRegion {s : State} {tile n : Nat} {f : Ingest → Ingest} (h : s.memOk = true) :
    (s.modRegion tile n f).memOk = true :=
  h

theorem memOk_bridge {s : State} {port : Nat} {x : Section} (h : s.memOk = true) : (s.bridge port x).memOk = true :=
  h

theorem memOk_ingest {s : State} {tile n : Nat} {x : Section} (h : s.memOk = true) :
    (s.ingest tile n x).memOk = true :=
  memOk_ite h (memOk_ite h (memOk_ite h (memOk_ite (memOk_macFailure _ h) (memOk_modRegion (memOk_poke _ _ _
      (memOk_poke _ _ _ h))))))

theorem ends_execIngestSection {port eaxc frameId subframe slotId symbol startPrb numPrb comp time : Nat} {prbs :
    List Byte} {s : State} (h : s.memOk = true) : EndsCanonical (execIngestSection port eaxc frameId subframe
    slotId symbol startPrb numPrb comp time prbs s) := by
  unfold execIngestSection
  dsimp only
  split
  · exact ends_next h
  · next e =>
      refine ends_ite (ends_next (memOk_bridge (canonical_atTime h _ e))) ?_
      split
      · exact ends_next (memOk_modHub (canonical_atTime h _ e))
      · exact ends_next (memOk_foldl (fun _ _ ht => memOk_ingest ht) (canonical_atTime h _ e))

theorem memOk_signalNode {s : State} {id : BitVec 16} (h : s.memOk = true) : (s.signalNode id).memOk = true :=
  memOk_ite (memOk_finishNode h) h

theorem ends_execSlotClose {tile region sl time : Nat} {s : State} (h : s.memOk = true) :
    EndsCanonical (execSlotClose tile region sl time s) := by
  unfold execSlotClose
  dsimp only
  split
  · exact ends_next h
  · next e =>
      exact ends_ite (ends_next (memOk_signalNode (memOk_modRegion (canonical_atTime h _ e)))) (ends_next h)

theorem memOk_modFlow {s : State} {f : Nat} {g : Flow → Flow} (h : s.memOk = true) : (s.modFlow f g).memOk = true :=
  h

theorem memOk_removeFlow {s : State} {n : Nat} (h : s.memOk = true) : (s.removeFlow n).memOk = true :=
  memOk_ite h (memOk_ite (memOk_macFailure _ h) h)

theorem ends_execFlctlWrite {flow : Nat} {data : W64} {s : State} (h : s.memOk = true) :
    EndsCanonical (execFlctlWrite flow data s) :=
  ends_ite (ends_next (memOk_modFlow (memOk_removeFlow h))) (ends_ite (ends_next (memOk_macFailure _ h)) (ends_ite
      (ends_next (memOk_poke _ _ _ h)) (ends_next (memOk_modFlow (memOk_removeFlow h)))))

theorem memOk_advanceFlow {s : State} {f : Flow} (h : s.memOk = true) : (s.advanceFlow f).memOk = true :=
  memOk_ite (memOk_macFailure _ h) (memOk_poke _ _ _ h)

theorem memOk_dropDescriptor {s : State} {n : Nat} {f : Flow} (h : s.memOk = true) :
    (s.dropDescriptor n f).memOk = true :=
  memOk_advanceFlow h

theorem ends_execEgressFetch {flow time : Nat} {s : State} (h : s.memOk = true) :
    EndsCanonical (execEgressFetch flow time s) := by
  unfold execEgressFetch
  dsimp only
  split
  · exact ends_next h
  · next e =>
      refine ends_ite (ends_next h) (ends_ite (ends_next (memOk_macFailure _ (canonical_atTime h _ e))) ?_)
      refine ends_ite (ends_next (memOk_macFailure _ (memOk_dropDescriptor (canonical_atTime h _ e)))) ?_
      split
      · exact ends_next (memOk_ite (memOk_macFailure _ (memOk_dropDescriptor (canonical_atTime h _ e)))
            (memOk_dropDescriptor (canonical_atTime h _ e)))
      · exact ends_ite (ends_next (memOk_dropDescriptor (memOk_twinAsked (canonical_atTime h _ e)))) (ends_ite
            (ends_next (memOk_advanceFlow (memOk_modFlow (canonical_atTime h _ e)))) (ends_ite (ends_next
            (memOk_callBack (canonical_atTime h _ e))) (ends_ite (ends_next (memOk_macFailure _
            (memOk_dropDescriptor (memOk_readRuns (memOk_twinAsked (canonical_atTime h _ e)))))) (ends_next
            (memOk_modFlow (memOk_readRuns (memOk_twinAsked (canonical_atTime h _ e))))))))

theorem ends_execEgressTransmit {flow time : Nat} {s : State} (h : s.memOk = true) :
    EndsCanonical (execEgressTransmit flow time s) := by
  unfold execEgressTransmit
  dsimp only
  split
  · next u _ _ _ _ e _ =>
    have hu := canonical_atTime h u e
    exact ends_ite (ends_next h) (ends_next (memOk_advanceFlow hu))
  · exact ends_next h

theorem ends_execUncorrectableError {place : ErrPlace} {s : State} (h : s.memOk = true) :
    EndsCanonical (execUncorrectableError place s) := by
  unfold execUncorrectableError
  dsimp only
  split
  · exact ends_ite (ends_next h) (ends_next h)
  · exact ends_next (memOk_ite h h)
  · exact ends_next h
  · exact ends_next h

/-! ### Matrix multiply -/

theorem memOk_multiply {s : State} {t : BitVec 4} {p : Product} (h : s.memOk = true) :
    (s.multiply t p).memOk = true := by
  unfold State.multiply
  exact memOk_mergeFlags h

theorem keeps_caldClean {p : Product} : M.Keeps (caldClean p) :=
  keeps_get_bind fun _ _ => keeps_ite (keeps_trap _ _) (keeps_pure _)

theorem keeps_operandsReady {t : BitVec 4} {p : Product} : M.Keeps (operandsReady t p) :=
  keeps_bind keeps_tileReady fun _ => keeps_bind keeps_caldClean fun _ => keeps_tileReady

theorem memOk_markProgress {s : State} {p : Product} (h : s.memOk = true) : (s.markProgress p).memOk = true := by
  unfold State.markProgress
  dsimp only
  split
  · split
    · exact memOk_ite h h
    · exact h
  · exact h

theorem ends_matrix {s : State} {t : BitVec 4} {body : M (Option Product)} (h : s.memOk = true)
    (hbody : M.Keeps body) :
    EndsCanonical (s.matrix t body) := by
  have hc : EndsCanonical (s.conclude (do
      match ← body with
      | none => modify State.clearMprog
      | some p =>
        operandsReady t p
        claimTile t
        if !(← get).arrayTurn then waitFor (.arrayQueue t)
        if s.cv.cut.isEmpty then
          modify (fun u => ((u.multiply t p).clearMprog).modVc u.curVc (fun v =>
            { v with array := some (u.cur, t), lastArray := u.cur }))
        else modify (fun u => ((u.multiply t p).markProgress p).modVc u.curVc (fun v =>
          { v with lastArray := u.cur })))) := by
    refine ends_conclude h (keeps_bind hbody fun o => ?_)
    cases o with
    | none => exact keeps_modify fun _ hu => hu
    | some p =>
      refine keeps_bind keeps_operandsReady fun _ => keeps_bind keeps_claimTile fun _ => keeps_get_bind fun u _ =>
          ?_
      refine keeps_ite (keeps_bind (keeps_waitFor _) fun _ => ?_) ?_ <;>
        exact keeps_ite (keeps_modify fun u hu => memOk_modVc (memOk_clearMprog (memOk_multiply hu)))
          (keeps_modify fun u hu => memOk_modVc (memOk_markProgress (memOk_multiply hu)))
  unfold State.matrix
  dsimp only
  split
  · next u e =>
    have hu := hc u e
    exact ends_ite (ends_next hu) (ends_next hu)
  · exact hc

theorem ends_execMma {t : BitVec 4} {a b : BitVec 5} {s : State} (h : s.memOk = true) :
    EndsCanonical (execMma t a b s) :=
  ends_matrix h (keeps_bind keeps_vectorChecks fun _ => keeps_bind (keeps_need _) fun _ => keeps_pure _)

theorem ends_execMmas {t : BitVec 4} {a b p : BitVec 5} {s : State} (h : s.memOk = true) :
    EndsCanonical (execMmas t a b p s) :=
  ends_matrix h (keeps_bind keeps_vectorChecks fun _ => keeps_bind (keeps_need _) fun _ => keeps_bind
      (keeps_need _) fun _ => keeps_pure _)

/-! ### Fences and drains -/

theorem ends_execFence {sc : BitVec 5} {s : State} (h : s.memOk = true) : EndsCanonical (execFence sc s) :=
  ends_conclude h (keeps_bind keeps_drainBuffer fun _ => keeps_get_bind fun _ _ => keeps_ite (keeps_bind
      (keeps_waitFor _) fun _ => keeps_trainError) keeps_trainError)

theorem ends_execFencee {a b : BitVec 5} {s : State} (h : s.memOk = true) : EndsCanonical (execFencee a b s) :=
  ends_conclude h (keeps_bind (keeps_need _) fun _ => keeps_bind keeps_drainBuffer fun _ => keeps_ite
      (keeps_get_bind fun _ _ => keeps_ite (keeps_waitFor _) (keeps_pure _)) (keeps_pure _))

theorem ends_execWinpub {a : BitVec 5} {s : State} (h : s.memOk = true) : EndsCanonical (execWinpub a s) :=
  ends_conclude h (keeps_bind keeps_translatePlace fun _ => keeps_ite (keeps_bind
      (keeps_trap _ _) fun _ => keeps_bind keeps_release fun _ => keeps_get_bind fun _ hs => keeps_ite (keeps_bind
      (keeps_waitFor _) fun _ => keeps_ite (keeps_bind (keeps_set (memOk_callBack hs)) fun _ => keeps_bind
      (keeps_waitFor _) fun _ => keeps_set (memOk_publish _ hs)) (keeps_set (memOk_publish _ hs))) (keeps_ite
      (keeps_bind (keeps_set (memOk_callBack hs)) fun _ => keeps_bind (keeps_waitFor _) fun _ => keeps_set
      (memOk_publish _ hs)) (keeps_set (memOk_publish _ hs)))) (keeps_bind keeps_release fun _ => keeps_get_bind
      fun _ hs => keeps_ite (keeps_bind (keeps_waitFor _) fun _ => keeps_ite (keeps_bind (keeps_set
      (memOk_callBack hs)) fun _ => keeps_bind (keeps_waitFor _) fun _ => keeps_set (memOk_publish _ hs))
      (keeps_set (memOk_publish _ hs))) (keeps_ite (keeps_bind (keeps_set (memOk_callBack hs)) fun _ => keeps_bind
      (keeps_waitFor _) fun _ => keeps_set (memOk_publish _ hs)) (keeps_set (memOk_publish _ hs)))))

/-! ### Vector loads and stores -/

theorem ends_vload {s : State} {d a p : BitVec 5} {regs : List (BitVec 5)} {sqOk : Bool} {fp : Nat} {off :
    Nat → W64} (h : s.memOk = true) : EndsCanonical (s.vload d a p regs sqOk fp off) :=
  ends_conclude h (keeps_bind keeps_vectorChecks fun _ => keeps_loadElems)

theorem ends_vstore {s : State} {d a p : BitVec 5} {regs : List (BitVec 5)} {sqOk : Bool} {fp : Nat} {any :
    Bool} {off : Nat → W64} (h : s.memOk = true) : EndsCanonical (s.vstore d a p regs sqOk fp any off) :=
  ends_conclude h (keeps_bind keeps_vectorChecks fun _ => keeps_storeElems)

theorem ends_execVldff {d a p : BitVec 5} {s : State} (h : s.memOk = true) : EndsCanonical (execVldff d a p s) := by
  unfold execVldff
  refine ends_conclude h (keeps_bind keeps_vectorChecks fun _ => ?_)
  refine keeps_bind keeps_alignElems fun _ => keeps_bind keeps_lockElems fun _ => ?_
  refine keeps_bind keeps_translateElems fun _ => ?_
  split
  · exact keeps_loadPlaces
  · exact keeps_ite keeps_faultTrap (keeps_bind keeps_loadPlaces fun _ => keeps_modify fun _ hs => hs)

theorem keeps_planeChecks {d b : BitVec 5} {base : W64} {store : Bool} {bytes : List (Nat × W64)} : M.Keeps
    (planeChecks d b base store bytes) :=
  keeps_bind keeps_vectorChecks fun _ => keeps_bind (keeps_need _) fun _ => keeps_ite (keeps_ite (keeps_bind
      (keeps_trap _ _) fun _ => keeps_lockElems) keeps_lockElems) (keeps_pure _)

theorem keeps_readBytesAt {l : List (Nat × W64 × Phys)} : M.Keeps (readBytesAt l) := by
  induction l with
  | nil => exact keeps_pure _
  | cons a r ih => exact keeps_bind keeps_readPlace fun _ => keeps_bind ih fun _ => keeps_pure _

theorem memOk_putPlanes {s : State} {d : BitVec 5} {base sc : W64} {got : List (W64 × Nat)} {e : Nat}
    (h : s.memOk = true) : (s.putPlanes d base sc got e).memOk = true :=
  memOk_ite h h

theorem ends_execVldbp {_cont : Bool} {d a b p : BitVec 5} {s : State} (h : s.memOk = true) :
    EndsCanonical (execVldbp _cont d a b p s) :=
  ends_conclude h (keeps_bind keeps_planeChecks fun _ => keeps_get_bind fun _ _ => keeps_bind keeps_translateElems
      fun _ => keeps_get_bind fun _ hs => keeps_bind (keeps_set (memOk_touchLines hs)) fun _ => keeps_bind
      keeps_readBytesAt fun _ => keeps_bind (keeps_modify fun _ hs => memOk_foldl
      (fun _ _ ht => memOk_putPlanes ht) hs) fun _ => keeps_elementFaults)

theorem ends_execVstbp {_cont : Bool} {d a b p : BitVec 5} {s : State} (h : s.memOk = true) :
    EndsCanonical (execVstbp _cont d a b p s) :=
  ends_conclude h (keeps_bind keeps_planeChecks fun _ => keeps_get_bind fun _ _ => keeps_bind keeps_translateElems
      fun _ => keeps_get_bind fun _ _ => keeps_bind keeps_storeRoom fun _ => keeps_bind
      (keeps_modify fun _ hs => memOk_pushEntries hs) fun _ => keeps_elementFaults)

/-! ### Remote trains and append queues -/

theorem ends_remote {s : State} {d p : BitVec 5} {regs : List (BitVec 5)} {base : W64} {off : Nat → W64} (h :
    s.memOk = true) : EndsCanonical (s.remote d p regs base off) :=
  ends_conclude h (keeps_bind keeps_vectorChecks fun _ => keeps_bind keeps_alignElems fun _ => keeps_bind
      keeps_lockElems fun _ => keeps_get_bind fun _ _ => keeps_bind keeps_translateElems fun _ => keeps_ite
      (keeps_bind keeps_drainBuffer fun _ => keeps_get_bind fun _ hs => keeps_bind keeps_storeRoom fun _ =>
      keeps_bind (keeps_set hs) fun _ => keeps_elementFaults) (keeps_get_bind fun _ hs => keeps_bind
      keeps_storeRoom fun _ => keeps_bind (keeps_set hs) fun _ => keeps_elementFaults))

theorem memOk_homeWrite {s : State} {p : Phys} {bs : List Byte} (h : s.memOk = true) :
    (s.homeWrite p bs).memOk = true :=
  memOk_storeHome _ _ _ _ h

theorem memOk_entryWrite {s : State} {p : Phys} {bs : List Byte} (h : s.memOk = true) :
    (s.entryWrite p bs).memOk = true :=
  memOk_ite (memOk_homeWrite h) (memOk_ite h (memOk_bump (memOk_homeWrite h)))

theorem keeps_twinGrants {va : W64} {p : Phys} : M.Keeps (twinGrants va p) :=
  keeps_get_bind fun _ hs => keeps_ite (keeps_bind (keeps_set hs) fun _ => keeps_ite (keeps_trap _ _)
      (keeps_pure _)) (keeps_pure _)

theorem keeps_spawnPlace {desc : W64} : M.Keeps (spawnPlace desc) := by
  unfold spawnPlace
  refine keeps_ite (keeps_pure _) (keeps_get_bind fun _ _ => ?_)
  refine keeps_bind keeps_resolveIn fun _ => ?_
  split
  · exact keeps_get_bind fun _ _ => keeps_ite (keeps_pure _) (keeps_pure _)
  · exact keeps_pure _

theorem keeps_queueSpawn {hdr desc : W64} {place : Except XFault Phys} : M.Keeps (queueSpawn hdr desc place) := by
  unfold queueSpawn
  refine keeps_get_bind fun _ _ => ?_
  dsimp only
  split
  · exact keeps_bind (keeps_modify fun _ hs => memOk_touch _ _ _ _ hs) fun _ => keeps_get_bind fun _ _ =>
        keeps_guard (keeps_trap _ _) (keeps_get_bind fun _ _ => keeps_bind (keeps_modify fun _ hs => memOk_ite
        (memOk_acceptJob hs) hs) fun _ => keeps_modify fun _ hs => memOk_wakeSlot hs)
  · exact keeps_bind (keeps_trap _ _) fun _ => keeps_modify fun _ hs => memOk_wakeSlot hs
  · exact keeps_bind (keeps_modify fun _ hs => hs) fun _ => keeps_modify fun _ hs => memOk_wakeSlot hs

theorem keeps_commitAppend {a : Append} : M.Keeps (commitAppend a) :=
  keeps_bind (keeps_modify fun _ hs => memOk_claim _ _ hs) fun _ => keeps_get_bind fun _ hs => keeps_ite
      (keeps_bind (keeps_set hs) fun _ => keeps_bind (keeps_trap _ _) fun _ => keeps_ite (keeps_bind
      (keeps_waitFor _) fun _ => keeps_bind keeps_homeWaits fun _ => keeps_ite (keeps_bind keeps_spawnPlace fun _
      => keeps_bind (keeps_modify fun _ hs => hs) fun _ => keeps_bind keeps_twinGrants fun _ => keeps_bind
      (keeps_modify fun _ hs => memOk_homeWrite hs) fun _ => keeps_ite (keeps_bind keeps_queueSpawn fun _ =>
      keeps_modify fun _ hs => hs) (keeps_modify fun _ hs => hs)) (keeps_bind (keeps_pure _) fun _ => keeps_bind
      (keeps_modify fun _ hs => hs) fun _ => keeps_bind keeps_twinGrants fun _ => keeps_bind
      (keeps_modify fun _ hs => memOk_homeWrite hs) fun _ => keeps_ite (keeps_bind keeps_queueSpawn fun _ =>
      keeps_modify fun _ hs => hs) (keeps_modify fun _ hs => hs))) (keeps_bind keeps_homeWaits fun _ => keeps_ite
      (keeps_bind keeps_spawnPlace fun _ => keeps_bind (keeps_modify fun _ hs => hs) fun _ => keeps_bind
      keeps_twinGrants fun _ => keeps_bind (keeps_modify fun _ hs => memOk_homeWrite hs) fun _ => keeps_ite
      (keeps_bind keeps_queueSpawn fun _ => keeps_modify fun _ hs => hs) (keeps_modify fun _ hs => hs))
      (keeps_bind (keeps_pure _) fun _ => keeps_bind (keeps_modify fun _ hs => hs) fun _ => keeps_bind
      keeps_twinGrants fun _ => keeps_bind (keeps_modify fun _ hs => memOk_homeWrite hs) fun _ => keeps_ite
      (keeps_bind keeps_queueSpawn fun _ => keeps_modify fun _ hs => hs) (keeps_modify fun _ hs => hs))))
      (keeps_ite (keeps_bind (keeps_waitFor _) fun _ => keeps_bind keeps_homeWaits fun _ => keeps_ite
      (keeps_bind keeps_spawnPlace fun _ => keeps_bind (keeps_modify fun _ hs => hs) fun _ => keeps_bind
      keeps_twinGrants fun _ => keeps_bind (keeps_modify fun _ hs => memOk_homeWrite hs) fun _ => keeps_ite
      (keeps_bind keeps_queueSpawn fun _ => keeps_modify fun _ hs => hs) (keeps_modify fun _ hs => hs))
      (keeps_bind (keeps_pure _) fun _ => keeps_bind (keeps_modify fun _ hs => hs) fun _ => keeps_bind
      keeps_twinGrants fun _ => keeps_bind (keeps_modify fun _ hs => memOk_homeWrite hs) fun _ => keeps_ite
      (keeps_bind keeps_queueSpawn fun _ => keeps_modify fun _ hs => hs) (keeps_modify fun _ hs => hs)))
      (keeps_bind keeps_homeWaits fun _ => keeps_ite (keeps_bind keeps_spawnPlace fun _ => keeps_bind
      (keeps_modify fun _ hs => hs) fun _ => keeps_bind keeps_twinGrants fun _ => keeps_bind
      (keeps_modify fun _ hs => memOk_homeWrite hs) fun _ => keeps_ite (keeps_bind keeps_queueSpawn fun _ =>
      keeps_modify fun _ hs => hs) (keeps_modify fun _ hs => hs)) (keeps_bind (keeps_pure _) fun _ => keeps_bind
      (keeps_modify fun _ hs => hs) fun _ => keeps_bind keeps_twinGrants fun _ => keeps_bind
      (keeps_modify fun _ hs => memOk_homeWrite hs) fun _ => keeps_ite (keeps_bind keeps_queueSpawn fun _ =>
      keeps_modify fun _ hs => hs) (keeps_modify fun _ hs => hs))))

theorem keeps_readQueue {hdr : W64} {place : Phys} : M.Keeps (readQueue hdr place) :=
  keeps_bind (keeps_modify fun _ hs => memOk_touch _ _ _ _ hs) fun _ => keeps_bind keeps_takeBytes fun _ =>
      keeps_ite (keeps_bind (keeps_trap _ _) fun _ => keeps_pure _) (keeps_pure _)

theorem keeps_translateRing {ring : W64} {n : Nat} : M.Keeps (translateRing ring n) :=
  keeps_get_bind fun _ _ => keeps_translateBy

theorem keeps_queuePlace {hdr : W64} : M.Keeps (queuePlace hdr) := by
  unfold queuePlace
  refine keeps_bind keeps_checkAlign fun _ => keeps_bind keeps_checkLock fun _ => ?_
  refine keeps_bind keeps_translateBy fun _ => ?_
  split
  · exact keeps_bind keeps_twinGrants fun _ => keeps_pure _
  · exact keeps_pure _

theorem ends_execVappend {a b p : BitVec 5} {s : State} (h : s.memOk = true) :
    EndsCanonical (execVappend a b p s) := by
  unfold execVappend
  refine ends_conclude h ?_
  dsimp only
  split
  · exact keeps_commitAppend
  · exact keeps_bind keeps_vectorGate fun _ => keeps_ite (keeps_bind keeps_queuePlace fun _ => keeps_bind
        keeps_release fun _ => keeps_bind keeps_readQueue fun _ => keeps_guard keeps_checkLock (keeps_ite
        (keeps_bind (keeps_pure _) fun _ => keeps_bind keeps_homeWaits fun _ => keeps_bind
        (keeps_modify fun _ hs => memOk_modHw (memOk_foldl (fun _ _ ht => memOk_entryWrite ht)
        (memOk_homeWrite hs))) fun _ => keeps_commitAppend) (keeps_bind keeps_translateRing fun _ => keeps_bind
        keeps_homeWaits fun _ => keeps_bind (keeps_modify fun _ hs => memOk_modHw (memOk_foldl
        (fun _ _ ht => memOk_entryWrite ht) (memOk_homeWrite hs))) fun _ => keeps_commitAppend))) (keeps_pure _)

theorem ends_execVqpop {d a : BitVec 5} {s : State} (h : s.memOk = true) : EndsCanonical (execVqpop d a s) :=
  ends_conclude h (keeps_bind keeps_vectorChecks fun _ => keeps_ite (keeps_modify fun _ hs => hs)
      (keeps_bind keeps_queuePlace fun _ => keeps_bind keeps_readQueue fun _ => keeps_bind keeps_lockElems fun _ =>
      keeps_bind keeps_translateElems fun _ => keeps_ite (keeps_bind keeps_drainBuffer fun _ => keeps_bind
      keeps_homeWaits fun _ => keeps_bind (keeps_modify fun _ hs => memOk_touchLines hs) fun _ => keeps_bind
      keeps_readPlaces fun _ => keeps_bind (keeps_modify fun _ hs => memOk_foldl
      (fun _ _ ht => ht) hs) fun _ => keeps_bind keeps_elementFaults fun _ => keeps_modify fun _ hs => memOk_setVl
      (memOk_homeWrite hs)) (keeps_bind (keeps_modify fun _ hs => memOk_touchLines hs) fun _ => keeps_bind
      keeps_readPlaces fun _ => keeps_bind (keeps_modify fun _ hs => memOk_foldl
      (fun _ _ ht => ht) hs) fun _ => keeps_bind keeps_elementFaults fun _ => keeps_modify fun _ hs => memOk_setVl
      (memOk_homeWrite hs))))

/-! ### Vector far atomics and accumulation windows -/

theorem memOk_refusedAtTwin {s : State} {l : List (Nat × W64 × Phys)} (h : s.memOk = true) :
    (s.refusedAtTwin l).2.memOk = true := by
  induction l generalizing s with
  | nil => exact h
  | cons a r ih =>
    unfold State.refusedAtTwin
    split
    · exact ih h
    · exact ih h

theorem keeps_translateAtomicsChecked {check : W64 → Phys → M Unit} {as : List (Nat × W64)}
    (hcheck : ∀ a p, M.Keeps (check a p)) : M.Keeps (translateAtomicsChecked check as) := by
  refine keeps_get_bind fun s _ => keeps_bind (keeps_translateChecked hcheck) fun t => keeps_get_bind fun u hu => ?_
  dsimp only
  split
  · exact keeps_bind (keeps_trap _ _) fun _ => keeps_bind (keeps_set (memOk_refusedAtTwin hu)) fun _ => keeps_pure _
  · exact keeps_bind (keeps_set (memOk_refusedAtTwin hu)) fun _ => keeps_pure _

theorem keeps_translateAtomics {as : List (Nat × W64)} {n : Nat} : M.Keeps (translateAtomics as n) :=
  keeps_translateAtomicsChecked (fun _ _ => keeps_checkHome)

theorem keeps_claimAll {n : Nat} {l : List (W64 × Phys)} : M.Keeps (claimAll n l) := by
  induction l with
  | nil => exact keeps_pure _
  | cons a r ih =>
    refine keeps_bind (keeps_modify fun s hs => memOk_claim _ _ hs) fun _ => keeps_get_bind fun s _ => ?_
    exact keeps_ite (keeps_bind (keeps_trap _ _) fun _ => ih) ih

theorem ends_execVamo {d a b p : BitVec 5} {o : BitVec 4} {s : State} (h : s.memOk = true) :
    EndsCanonical (execVamo d a b p o s) :=
  ends_conclude h (keeps_bind keeps_vectorChecks fun _ => keeps_bind (keeps_need _) fun _ => keeps_bind
      keeps_alignElems fun _ => keeps_bind keeps_lockElems fun _ => keeps_get_bind fun _ _ => keeps_bind
      keeps_translateAtomics fun _ => keeps_ite (keeps_bind keeps_drainBuffer fun _ => keeps_get_bind fun _ _ =>
      keeps_bind keeps_atomicWaits fun _ => keeps_bind keeps_claimAll fun _ => keeps_bind
      (keeps_forIn fun _ _ => keeps_get_bind fun _ _ => keeps_bind keeps_atomicNow fun _ => keeps_bind
      (keeps_modify fun _ hs => hs) fun _ => keeps_pure _) fun _ => keeps_elementFaults)
      (keeps_get_bind fun _ _ => keeps_bind keeps_atomicWaits fun _ => keeps_bind keeps_claimAll fun _ =>
      keeps_bind (keeps_forIn fun _ _ => keeps_get_bind fun _ _ => keeps_bind keeps_atomicNow fun _ => keeps_bind
      (keeps_modify fun _ hs => hs) fun _ => keeps_pure _) fun _ => keeps_elementFaults))

theorem ends_execWdecl {a b : BitVec 5} {s : State} (h : s.memOk = true) : EndsCanonical (execWdecl a b s) := by
  have ends : ∀ (side : List Nat) (lock : Lock) (l : List (Nat × Nat × Nat)) (win : Window), M.Keeps
      (modify fun u : State =>
      ((side.foldl (fun u t => u.modTile t (fun w => { w with locks := w.locks ++ [lock] })) u).modMem
        (fun m => { m with winLocks := m.winLocks ++ l })).modHw (fun h => { h with window := some win })) := by
    intro side lock l win
    refine keeps_modify fun u hu => ?_
    exact memOk_foldl (f := fun u t => u.modTile t (fun w => { w with locks := w.locks ++ [lock] }))
        (fun _ _ ht => ht) hu
  unfold execWdecl
  refine ends_conclude h (keeps_bind keeps_vectorGate fun _ => keeps_bind (keeps_need _) fun _ => ?_)
  refine keeps_bind keeps_checkAlign fun _ => keeps_bind keeps_checkLock fun _ => ?_
  refine keeps_ite (keeps_bind (keeps_throw _) fun _ => ?_) ?_ <;>
    exact keeps_ite (keeps_bind (keeps_waitFor _) fun _ => ends _ _ _ _) (ends _ _ _ _)

theorem keeps_windowLost : M.Keeps windowLost := by
  unfold windowLost
  refine keeps_get_bind fun _ hs => ?_
  split
  · exact keeps_bind (keeps_set hs) fun _ => keeps_trap _ _
  · exact keeps_pure _

theorem ends_execWupd {d a b p : BitVec 5} {s : State} (h : s.memOk = true) :
    EndsCanonical (execWupd d a b p s) := by
  unfold execWupd
  refine ends_conclude h (keeps_bind keeps_vectorGate fun _ => ?_)
  refine keeps_bind keeps_windowLost fun _ => ?_
  dsimp only
  split
  · exact keeps_illop
  · refine keeps_bind keeps_vectorChecks fun _ => ?_
    split
    · exact keeps_bind (keeps_trap _ _) fun _ => keeps_bind keeps_lockElems fun _ => keeps_modify fun _ hs =>
          memOk_mergeFlags hs
    · exact keeps_bind keeps_lockElems fun _ => keeps_modify fun _ hs => memOk_mergeFlags hs

theorem keeps_atomicRefused {va : W64} : M.Keeps (atomicRefused va) := by
  unfold atomicRefused
  refine keeps_get_bind fun _ hs => ?_
  dsimp only
  split
  · exact keeps_pure _
  · exact keeps_guard (keeps_trap _ _) (keeps_ite (keeps_bind (keeps_set hs) fun _ => keeps_pure _) (keeps_pure _))
  · exact keeps_pure _

theorem ends_execWmerge {s : State} (h : s.memOk = true) : EndsCanonical (execWmerge s) := by
  unfold execWmerge
  refine ends_conclude h (keeps_bind keeps_vectorGate fun _ => ?_)
  refine keeps_bind keeps_windowLost fun _ => ?_
  dsimp only
  split
  · exact keeps_illop
  · exact keeps_bind (keeps_translateWideBy (fun _ => keeps_atomicRefused)) fun _ => keeps_bind keeps_drainBuffer
        fun _ => keeps_bind keeps_atomicWaits fun _ => keeps_bind keeps_claimAll fun _ => keeps_bind
        (keeps_forIn fun _ _ => keeps_bind keeps_atomicNow fun _ => keeps_pure _) fun _ => keeps_modify fun _ hs =>
        memOk_modHw (memOk_mergeFlags hs)

theorem ends_execWfree {s : State} (h : s.memOk = true) : EndsCanonical (execWfree s) :=
  ends_conclude h (keeps_bind keeps_vectorGate fun _ => keeps_bind keeps_windowLost fun _ => keeps_modify fun _ hs
      => memOk_dropWindow hs)

end Sys2Proof.Machine
end

section
/-!
PROOF. Every step keeps memory canonical: events.
-/

namespace Sys2Proof.Machine

open Sys2Proof

/-! ### Ends of waits -/

theorem memOk_endWait {s : State} {slot : Nat} {ended : Wait → Bool} (h : s.memOk = true) :
    (s.endWait slot ended).memOk = true := by
  unfold State.endWait
  dsimp only
  split
  · exact memOk_ite (memOk_modThread _ _ h) h
  · exact h

theorem memOk_arrayDone {s : State} {slot : Nat} (h : s.memOk = true) : (s.arrayDone slot).memOk = true := by
  unfold State.arrayDone
  split
  · exact memOk_ite (memOk_endWait h) h
  · exact h

theorem ends_execMmaComplete {slot : Nat} {s : State} (h : s.memOk = true) :
    EndsCanonical (execMmaComplete slot s) :=
  ends_next (memOk_arrayDone h)

theorem ends_execBarwaitResume {slot : Nat} {s : State} (h : s.memOk = true) :
    EndsCanonical (execBarwaitResume slot s) := by
  unfold execBarwaitResume
  refine ends_next ?_
  dsimp only
  split
  · exact memOk_modThread _ _ h
  · exact h

/-! ### Debug events -/

theorem memOk_askForced {s : State} {slot : Nat} {why : BitVec 2} (h : s.memOk = true) :
    (s.askForced slot why).memOk = true :=
  memOk_modThread _ _ h

theorem ends_execDbgtWrite {slot : Nat} {data : W64} {s : State} (h : s.memOk = true) :
    EndsCanonical (execDbgtWrite slot data s) :=
  ends_ite (ends_next h) (ends_next (memOk_ite (memOk_askForced (memOk_modThread _ _ h)) (memOk_modThread _ _ h)))

theorem memOk_endCapture {s : State} {vc : Nat} (h : s.memOk = true) : (s.endCapture vc).memOk = true :=
  memOk_traceDrain (memOk_passTime h)

theorem memOk_startCapture {s : State} {vc : Nat} (h : s.memOk = true) : (s.startCapture vc).memOk = true :=
  memOk_putSync h

theorem ends_execTrctlWrite {vc : Nat} {data : W64} {s : State} (h : s.memOk = true) :
    EndsCanonical (execTrctlWrite vc data s) :=
  ends_ite (ends_next h) (ends_next (memOk_ite (memOk_startCapture (memOk_modVc (memOk_endCapture h)))
      (memOk_modVc (memOk_endCapture h))))

theorem ends_execTriggerFire {part : Nat} {n : BitVec 2} {time : Nat} {s : State} (h : s.memOk = true) :
    EndsCanonical (execTriggerFire part n time s) := by
  unfold execTriggerFire
  split
  · exact ends_next h
  · next e =>
      exact ends_next (memOk_fireTrigger (canonical_atTime h _ e))

theorem ends_execTriggerArrival {part : Nat} {n : BitVec 2} {vc : Nat} {s : State} (h : s.memOk = true) :
    EndsCanonical (execTriggerArrival part n vc s) := by
  unfold execTriggerArrival
  dsimp only
  split
  · exact ends_next h
  · exact ends_next (memOk_modVc (memOk_putSync h))

theorem ends_execTriggerAction {part : Nat} {n : BitVec 2} {vc time : Nat} {s : State} (h : s.memOk = true) :
    EndsCanonical (execTriggerAction part n vc time s) := by
  unfold execTriggerAction
  dsimp only
  split
  · next e _ =>
      exact ends_ite (ends_next h) (ends_ite (ends_ite (ends_next (memOk_startCapture (memOk_modVc (memOk_modVc
          (canonical_atTime h _ e))))) (ends_next (memOk_modVc (canonical_atTime h _ e)))) (ends_ite (ends_next
          (memOk_modVc (canonical_atTime h _ e))) (ends_next (memOk_ite (memOk_modPart (memOk_modVc
          (memOk_endCapture (memOk_modVc (canonical_atTime h _ e))))) (memOk_modVc (memOk_endCapture (memOk_modVc
          (canonical_atTime h _ e))))))))
  · exact ends_next h

/-! ### Frames, stage 2, migration and translation events -/

theorem memOk_startRelease {s : State} {fs : List Nat} (h : s.memOk = true) : (s.startRelease fs).memOk = true := by
  have hf : (fs.foldl (fun t f => t.modFrame f (fun x => { x with st := .releasing })) s).memOk = true :=
    memOk_foldl (fun _ _ ht => ht) h
  unfold State.startRelease
  exact memOk_foldl (fun _ _ ht => memOk_snoop ht) hf

theorem ends_execFrameAssign {frame : BitVec 31} {kid : BitVec 9} {count : BitVec 4} {s : State} (h :
    s.memOk = true) : EndsCanonical (execFrameAssign frame kid count s) :=
  ends_ite (ends_next h) (ends_ite (ends_next h) (ends_ite (ends_next h) (ends_next (memOk_modHub
      (memOk_assignFrames _ _ h)))))

theorem ends_execFrameRelease {frame : BitVec 31 × BitVec 9} {count : BitVec 4} {s : State} (h : s.memOk = true) :
    EndsCanonical (execFrameRelease frame count s) :=
  ends_ite (ends_next h) (ends_ite (ends_next h) (ends_ite (ends_next h) (ends_next (memOk_modHub
      (memOk_startRelease h)))))

theorem ends_execReleaseComplete {s : State} (h : s.memOk = true) : EndsCanonical (execReleaseComplete s) :=
  ends_ite (ends_next (memOk_modHub (memOk_foldl (fun _ _ ht => memOk_freeFrame _ ht) h))) (ends_next h)

theorem memOk_setSt2 {s : State} {vf gfn : Nat} {e : BitVec 64} (h : s.memOk = true) :
    (s.setSt2 vf gfn e).memOk = true :=
  h

theorem memOk_dropSt2 {s : State} {vf gfn : Nat} (h : s.memOk = true) : (s.dropSt2 vf gfn).memOk = true := h

theorem memOk_countMap {s : State} {e : BitVec 64} {up : Bool} (h : s.memOk = true) :
    (s.countMap e up).memOk = true :=
  memOk_ite h h

theorem memOk_mapEntry {s : State} {vf gfn : Nat} {e : BitVec 64} (h : s.memOk = true) :
    (s.mapEntry vf gfn e).memOk = true :=
  memOk_countMap h

theorem memOk_endUnmap {s : State} {vf gfn : Nat} (h : s.memOk = true) : (s.endUnmap vf gfn).memOk = true :=
  memOk_countMap h

theorem ends_execMapWrite {gfn : BitVec 19} {vf : BitVec 9} {s : State} (h : s.memOk = true) :
    EndsCanonical (execMapWrite gfn vf s) :=
  ends_ite (ends_next h) (ends_ite (ends_next h) (ends_ite (ends_next h) (ends_ite (ends_next h) (ends_next
      (memOk_modHub (memOk_mapEntry h))))))

theorem ends_execRemovalComplete {s : State} (h : s.memOk = true) : EndsCanonical (execRemovalComplete s) :=
  ends_ite (ends_next h) (ends_ite (ends_next (memOk_modHub (memOk_endUnmap h))) (ends_ite (ends_next
      (memOk_modHub (memOk_mapEntry (memOk_endUnmap h)))) (ends_next h)))

theorem memOk_postNotice {s : State} {hframe vf gfn dframe : Nat} (h : s.memOk = true) :
    (s.postNotice hframe vf gfn dframe).memOk = true :=
  memOk_modHub (memOk_poke _ _ _ h)

theorem memOk_withThreads {s : State} {t : Thread} {l : List (Nat × Thread)} (h : s.memOk = true) :
    State.memOk { s with th := t, slots := l } = true := h

theorem ends_execMigrationComplete {vf : Nat} {gfn : BitVec 19} {s : State} (h : s.memOk = true) :
    EndsCanonical (execMigrationComplete vf gfn s) := by
  unfold execMigrationComplete
  refine ends_ite (ends_next h) (ends_ite (ends_next (memOk_callBack h)) ?_)
  dsimp only
  split
  · exact ends_next h
  · next frame rest _ =>
    refine ends_ite (ends_next (memOk_callBack h)) (ends_ite (ends_next ?_) (ends_next h))
    have hcopy := memOk_copyRange (hostBase + st2Frame (s.st2Entry vf gfn.toNat) * 2 ^ 21) (frame.toNat * 2 ^ 21)
      (s.frame frame.toNat).kid.toNat h
    exact memOk_withThreads (memOk_postNotice (memOk_modVf (memOk_countMap (memOk_dropSt2 (memOk_setSt2 hcopy)))))

theorem ends_execPageWalk {slot : Nat} {va : W64} {acc : Access} {s : State} (h : s.memOk = true) :
    EndsCanonical (execPageWalk slot va acc s) := by
  unfold execPageWalk
  refine ends_ite ?_ (ends_next h)
  split
  · refine ends_ite (ends_next h) ?_
    split
    · exact ends_next (memOk_callBack h)
    · exact ends_ite (ends_next h) (ends_next (memOk_applyXlat (memOk_ite h h)))
  · exact ends_next h

theorem memOk_onSlot {s : State} {slot : Nat} {f : State → State}
    (hf : ∀ t : State, t.memOk = true → (f t).memOk = true) (h : s.memOk = true) :
        (s.onSlot slot f).memOk = true := by
  unfold State.onSlot
  split
  · exact memOk_switchTo (hf _ (memOk_switchTo h))
  · exact h

theorem ends_execS1invComplete {part : Nat} {s : State} (h : s.memOk = true) :
    EndsCanonical (execS1invComplete part s) :=
  ends_ite (ends_next h) (ends_next h)

theorem memOk_fillUnder {s : State} {line kid : Nat} (h : s.memOk = true) : (s.fillUnder line kid).memOk = true :=
  memOk_ite (memOk_l2Access _ _ _ _ h) (memOk_poisonLine (memOk_macFailure _ h))

theorem ends_execL2Fill {line kid : Nat} {mac : MacOutcome} {s : State} (h : s.memOk = true) :
    EndsCanonical (execL2Fill line kid mac s) := by
  unfold execL2Fill
  dsimp only
  split
  · refine ends_ite (ends_next h) ?_
    split
    · exact ends_next (memOk_fillUnder h)
    · exact ends_next (memOk_modHub (memOk_fillUnder h))
    · exact ends_next (memOk_ite h (memOk_poisonLine (memOk_macFailure _ h)))
    · exact ends_next (memOk_ite (memOk_poisonLine (memOk_macFailure _ h)) h)
  · exact ends_next h

theorem ends_execL2Writeback {line : Nat} {s : State} (h : s.memOk = true) :
    EndsCanonical (execL2Writeback line s) := by
  unfold execL2Writeback
  dsimp only
  split
  · exact ends_next h
  · split
    · exact ends_next h
    · exact ends_next (memOk_writeback _ _ h)

/-! ### Guest physical ranges and rings -/

theorem memOk_claimPlaces {s : State} {ps : Places} (h : s.memOk = true) : (s.claimPlaces ps).memOk = true :=
  memOk_foldl (fun _ _ ht => memOk_claimRun ht) h

theorem memOk_writePlaces {s : State} {ps : Places} {bs : List Byte} (h : s.memOk = true) :
    (s.writePlaces ps bs).memOk = true :=
  foldl_keeps (fun u : State × List Byte => u.1.memOk = true) _ (fun _ _ hu => memOk_performEntry _ hu) ps (s, bs) h

theorem memOk_reachSq {s : State} {vf : Nat} (h : s.memOk = true) : (s.reachSq vf).memOk = true :=
  memOk_claimPlaces h

theorem memOk_takeSq {s : State} {vf : Nat} (h : s.memOk = true) : (s.takeSq vf).memOk = true :=
  memOk_modVf (memOk_reachSq h)

theorem memOk_postCompletion {s : State} {vf tag status result : Nat} (h : s.memOk = true) :
    (s.postCompletion vf tag status result).memOk = true := by
  unfold State.postCompletion
  refine memOk_modVf ?_
  split
  · exact memOk_writePlaces h
  · exact h

theorem memOk_callBackCq {s : State} {vf : Nat} (h : s.memOk = true) : (s.callBackCq vf).memOk = true :=
  memOk_callBack h

/-! ### Engines at work -/

theorem memOk_modCmd {s : State} {id : Nat} {f : Cmd → Cmd} (h : s.memOk = true) : (s.modCmd id f).memOk = true :=
  h

theorem memOk_charge {s : State} {c : Cmd} {n : Nat} (h : s.memOk = true) : (s.charge c n).memOk = true := by
  unfold State.charge
  split <;> exact h

theorem memOk_nodeState {s : State} {id : BitVec 16} {st : NodeState} (h : s.memOk = true) :
    (s.nodeState id st).memOk = true :=
  memOk_ite h h

theorem ends_execEngineStart {eng : Nat} {s : State} (h : s.memOk = true) :
    EndsCanonical (execEngineStart eng s) := by
  unfold execEngineStart
  refine ends_ite (ends_next h) ?_
  split
  · exact ends_next h
  · exact ends_next (memOk_nodeState h)

theorem memOk_stopCmd {s : State} {c : Cmd} {faulted : Option (Option Nat)} (h : s.memOk = true) :
    (s.stopCmd c faulted).memOk = true :=
  memOk_nodeState h

theorem memOk_endCmd {s : State} {c : Cmd} {st : NodeState} {status : Nat} (h : s.memOk = true) :
    (s.endCmd c st status).memOk = true := by
  unfold State.endCmd
  dsimp only
  split
  · exact memOk_postCompletion (memOk_finishNode h)
  · exact memOk_finishNode h

theorem memOk_failCmd {s : State} {c : Cmd} {status : Nat} (h : s.memOk = true) :
    (s.failCmd c status).memOk = true :=
  memOk_endCmd (memOk_ite (memOk_macFailure _ h) h)

theorem memOk_after {e : Stopped} {before : State} (he : e.2.memOk = true) (h : before.memOk = true) :
    (e.after before).memOk = true := by
  unfold Stopped.after
  split
  · exact h
  · exact he

theorem work_engRead {s : State} {ps : List (W64 × Nat × Xlat)} (h : s.memOk = true) : WorkCanonical
    (fun x => x.2.memOk = true) (s.engRead ps) := by
  unfold State.engRead
  dsimp only
  split
  · exact memOk_foldl (fun _ _ ht => memOk_touch _ _ _ _ (memOk_applyXlat ht)) h
  · exact memOk_foldl (fun _ _ ht => memOk_touch _ _ _ _ (memOk_applyXlat ht)) h

theorem memOk_failAny {s : State} {c : Cmd} {status : Nat} (h : s.memOk = true) :
    (s.failAny c status).memOk = true := by
  unfold State.failAny
  dsimp only
  split
  · exact memOk_callBack h
  · exact memOk_failCmd (memOk_writeAt h)

theorem memOk_engStopped {s : State} {c : Cmd} {why : EngStop} (h : s.memOk = true) :
    (s.engStopped c why).memOk = true := by
  unfold State.engStopped
  dsimp only
  split
  · exact memOk_failAny h
  · exact memOk_callBack h
  · split
    · exact memOk_failAny h
    · split
      · next e =>
          exact memOk_stopCmd (memOk_of_fst e (memOk_appendBatch h))
      · next e =>
          exact memOk_stopCmd (memOk_of_fst e (memOk_appendBatch h))
      · next e =>
          exact memOk_failAny (memOk_of_fst e (memOk_appendBatch h))
      · next e =>
          exact memOk_failAny (memOk_of_fst e (memOk_appendBatch h))

theorem work_engPlaces {s : State} {c : Cmd} {acc : Access} {va : W64} {n : Nat} (h : s.memOk = true) :
    WorkCanonical (fun _ => True) (s.engPlaces c acc va n) := by
  unfold State.engPlaces
  split
  · exact memOk_walkTouch h
  · split
    · exact h
    · split
      · exact h
      · trivial

theorem work_copyRead {s : State} {c : Cmd} {cal : Bool} {a : Int} {n : Nat} (h : s.memOk = true) :
    WorkCanonical (fun x => x.2.memOk = true) (s.copyRead c cal a n) := by
  unfold State.copyRead
  dsimp only
  split
  · split
    · exact h
    · exact h
  · split
    · next e he => exact work_error he (work_engPlaces h)
    · exact work_engRead h

theorem work_gather {s : State} {c : Cmd} {cal : Bool} {l : List (Int × Nat)} (h : s.memOk = true) :
    WorkCanonical (fun x => x.2.memOk = true) (s.gather c cal l) := by
  induction l generalizing s with
  | nil => exact h
  | cons r rs ih =>
    unfold State.gather
    split
    · next e he => exact work_error he (work_copyRead h)
    · next b u he =>
      have hu := ih (work_ok he (work_copyRead h))
      cases hg : u.gather c cal rs with
      | error e => exact work_error hg hu
      | ok x => exact work_ok hg hu

theorem work_copySource {s : State} {c : Cmd} {d : CopyDesc} {k : Nat} (h : s.memOk = true) :
    WorkCanonical (fun x => x.2.memOk = true) (s.copySource c d k) := by
  unfold State.copySource
  split
  · next e he => exact work_error he (work_gather h)
  · next bs u he =>
    have hu : u.memOk = true := work_ok he (work_gather h)
    split <;> exact hu

theorem work_descTuple {s : State} {c : Cmd} {d : CopyDesc} {k : Nat} (h : s.memOk = true) :
    WorkCanonical (fun t => t.memOk = true) (s.descTuple c d k) := by
  unfold State.descTuple
  split
  · next e he => exact work_error he (work_copySource h)
  · next bs u he =>
    have hu : u.memOk = true := work_ok he (work_copySource h)
    dsimp only
    split
    · exact hu
    · split
      · next e he => exact work_error he (work_engPlaces hu)
      · exact memOk_writeAt hu

theorem work_ringTuple {s : State} {c : Cmd} {r : RingCopy} {k : Nat} (h : s.memOk = true) : WorkCanonical
    (fun t => t.memOk = true) (s.ringTuple c r k) := by
  unfold State.ringTuple
  dsimp only
  split
  · split
    · exact h
    · split
      · exact h
      · split
        · exact h
        · split
          · exact memOk_touch _ _ _ _ h
          · exact memOk_performEntry _ (memOk_modCmd (memOk_bump (memOk_touch _ _ _ _ h)))
  · exact h

theorem work_copyTuple {s : State} {c : Cmd} {k : Nat} (h : s.memOk = true) :
    WorkCanonical (fun t => t.memOk = true) (s.copyTuple c k) := by
  unfold State.copyTuple
  split
  · exact work_ringTuple h
  · exact work_descTuple h

theorem memOk_copyRun {s : State} {c : Cmd} {fuel : Nat} (h : s.memOk = true) :
    (s.copyRun c fuel).2.memOk = true := by
  induction fuel generalizing s c with
  | zero => exact h
  | succ fuel ih =>
    unfold State.copyRun
    split
    · exact h
    · split
      · exact h
      · split
        · next e he => exact memOk_after (work_error he (work_copyTuple h)) h
        · next u he =>
          have hu : u.memOk = true := work_ok_state he (work_copyTuple h)
          exact ih (memOk_modCmd (memOk_charge hu))

theorem memOk_copyStep {s : State} {c : Cmd} {steps : Nat} {paused : State → State}
    (hpaused : ∀ t : State, t.memOk = true → (paused t).memOk = true) (h : s.memOk = true) :
    (s.copyStep c steps paused).memOk = true := by
  unfold State.copyStep
  split
  · exact memOk_failCmd h
  · refine memOk_ite (memOk_endCmd h) ?_
    have hr : (s.copyRun c steps).2.memOk = true := memOk_copyRun h
    split
    · next u e => exact memOk_endCmd (memOk_of_snd e hr)
    · next u e => exact hpaused u (memOk_of_snd e hr)
    · next w u e => exact memOk_engStopped (memOk_of_snd e hr)

theorem ends_execCopyComplete {eng : Nat} {s : State} (h : s.memOk = true) :
    EndsCanonical (execCopyComplete eng s) := by
  unfold execCopyComplete
  split
  · exact ends_next h
  · exact ends_ite (ends_next h) (ends_ite (ends_next (memOk_callBackCq h)) (ends_next (memOk_copyStep
        (fun _ x => memOk_stopCmd x) h)))

theorem memOk_chargeTime {s : State} {c : Cmd} (h : s.memOk = true) : (s.chargeTime c).memOk = true :=
  memOk_bump (memOk_charge h)

theorem ends_execEngineStop {eng steps : Nat} {s : State} (h : s.memOk = true) :
    EndsCanonical (execEngineStop eng steps s) := by
  unfold execEngineStop
  split
  · exact ends_next h
  · exact ends_ite (ends_next h) (ends_ite (ends_next (memOk_stopCmd (memOk_chargeTime h))) (ends_ite (ends_next
        (memOk_stopCmd h)) (ends_next (memOk_copyStep (fun _ x => memOk_stopCmd x) h))))

theorem ends_execCancelledCommandStop {eng steps : Nat} {s : State} (h : s.memOk = true) :
    EndsCanonical (execCancelledCommandStop eng steps s) := by
  unfold execCancelledCommandStop
  dsimp only
  split
  · exact ends_next h
  · exact ends_ite (ends_next h) (ends_ite (ends_next (memOk_endCmd h)) (ends_ite (ends_next (memOk_callBackCq h))
        (ends_next (memOk_endCmd (memOk_ite h (memOk_copyRun h))))))

theorem work_codeRead {s : State} {c : Cmd} {va : W64} {n : Nat} (h : s.memOk = true) :
    WorkCanonical (fun x => x.2.memOk = true) (s.codeRead c va n) := by
  unfold State.codeRead
  split
  · exact h
  · split
    · next e he => exact work_error he (work_engPlaces h)
    · exact work_engRead h

theorem work_ldpcWork {s : State} {c : Cmd} (h : s.memOk = true) :
    WorkCanonical (fun x => x.2.memOk = true) (s.ldpcWork c) := by
  unfold State.ldpcWork
  dsimp only
  split
  · split
    · next e he => exact work_error he (work_codeRead h)
    · next bs u he =>
      have hu : u.memOk = true := work_ok he (work_codeRead h)
      exact hu
  · split
    · next e he => exact work_error he (work_codeRead h)
    · next bs u he =>
      have hu : u.memOk = true := work_ok he (work_codeRead h)
      have hq : WorkCanonical (fun x => x.2.memOk = true) (if (ldpcDesc c.desc).hm = 1 then
          u.codeRead c (ldpcDesc c.desc).harq (ldpcDesc c.desc).ncb else .ok ([], u)) := by
        split
        · exact work_codeRead hu
        · exact hu
      split
      · next e he => exact work_error he hq
      · next hq' v he => exact work_ok he hq

theorem work_polarWork {s : State} {c : Cmd} (h : s.memOk = true) :
    WorkCanonical (fun x => x.2.memOk = true) (s.polarWork c) := by
  unfold State.polarWork
  dsimp only
  split
  · next e he => exact work_error he (work_codeRead h)
  · next bs u he =>
    have hu : u.memOk = true := work_ok he (work_codeRead h)
    split
    · exact hu
    · split
      · split
        · next e he => exact work_error he (work_codeRead hu)
        · next bs v he =>
          have hv : v.memOk = true := work_ok he (work_codeRead hu)
          exact hv
      · split
        · next e he => exact work_error he (work_codeRead hu)
        · next bs v he =>
          have hv : v.memOk = true := work_ok he (work_codeRead hu)
          exact hv

theorem work_outPlaces {s : State} {c : Cmd} {l : List (W64 × List Byte)} (h : s.memOk = true) :
    WorkCanonical (fun _ => True) (s.outPlaces c l) := by
  induction l with
  | nil => trivial
  | cons o r ih =>
    unfold State.outPlaces
    have ho : WorkCanonical (fun _ => True)
        (if o.2.isEmpty then .ok [] else s.engPlaces c .store o.1 o.2.length : Except Stopped _) := by
      split
      · trivial
      · exact work_engPlaces h
    split
    · trivial
    · next he => exact work_error he ho
    · next he _ => exact work_error he ih

theorem ends_execCodingComplete {eng : Nat} {s : State} (h : s.memOk = true) :
    EndsCanonical (execCodingComplete eng s) := by
  unfold execCodingComplete
  split
  · exact ends_next h
  · next c _ =>
    refine ends_ite (ends_next h) ?_
    split
    · exact ends_next (memOk_failAny h)
    · have hw : WorkCanonical (fun x => x.2.memOk = true)
          (if c.kind = .ldpc then s.ldpcWork c else s.polarWork c) := by
        split
        · exact work_ldpcWork h
        · exact work_polarWork h
      split
      · next e he => exact ends_next (memOk_engStopped (memOk_after (work_error he hw) h))
      · next w u he =>
        have hu : u.memOk = true := work_ok he hw
        split
        · next e he => exact ends_next (memOk_engStopped (memOk_after (work_error he (work_outPlaces hu)) h))
        · have ht := memOk_chargeTime (c := c) hu
          exact ends_ite (ends_next (memOk_stopCmd ht))
            (ends_next (memOk_endCmd (memOk_foldl (fun _ _ hv => memOk_writeAt hv) ht)))

/-! ### The ringmaster -/

theorem memOk_takeSlot {s : State} {part entry slot : Nat} (h : s.memOk = true) :
    (s.takeSlot part entry slot).memOk = true :=
  h

theorem memOk_resumeJob {s : State} {part entry slot : Nat} {j : Job} {va : W64} {f : Nat → Nat}
    (h : s.memOk = true) : (s.resumeJob part entry slot j va f).memOk = true :=
  memOk_switchTo (memOk_ite (memOk_takeTrapWith (memOk_switchTo (memOk_ite (memOk_modPart (memOk_takeSlot
      (memOk_modThread _ _ h :))) (memOk_modThread _ _ (memOk_modPart (memOk_takeSlot
      (memOk_modThread _ _ h :))))))) (memOk_ite (memOk_migrate (memOk_switchTo (memOk_ite (memOk_modPart
      (memOk_takeSlot (memOk_modThread _ _ h :))) (memOk_modThread _ _ (memOk_modPart (memOk_takeSlot
      (memOk_modThread _ _ h :))))))) (memOk_switchTo (memOk_ite (memOk_modPart (memOk_takeSlot
      (memOk_modThread _ _ h :))) (memOk_modThread _ _ (memOk_modPart (memOk_takeSlot
      (memOk_modThread _ _ h :))))))))

theorem memOk_startJob {s : State} {part entry slot : Nat} {j : Job} (h : s.memOk = true) :
    (s.startJob part entry slot j).memOk = true := by
  unfold State.startJob
  dsimp only
  split
  · exact memOk_takeSlot (memOk_bump (memOk_modThread _ _ h))
  · split
    · exact memOk_resumeJob (memOk_readHeader h)
    · exact memOk_macFailure _ (memOk_readHeader h)
    · exact memOk_readHeader h

theorem memOk_chooseVictim {s : State} {part entry slot : Nat} (h : s.memOk = true) :
    (s.chooseVictim part entry slot).memOk = true :=
  memOk_modPart (memOk_modThread _ _ h)

theorem memOk_endVisit {s : State} {part : Nat} (h : s.memOk = true) : (s.endVisit part).memOk = true :=
  memOk_ite h h

theorem memOk_dispatchShared {s : State} {part : Nat} (h : s.memOk = true) : (s.dispatchShared part).memOk = true
    := by
  unfold State.dispatchShared
  dsimp only
  split
  · exact memOk_endVisit h
  · split
    · exact h
    · exact memOk_ite (memOk_readHeader h) (memOk_endVisit (memOk_modPart (memOk_startJob h)))

theorem ends_execDispatch {part : Nat} {s : State} (h : s.memOk = true) : EndsCanonical (execDispatch part s) := by
  unfold execDispatch
  dsimp only
  split
  · exact ends_next (memOk_endVisit (memOk_startJob h))
  · split
    · exact ends_next (memOk_chooseVictim h)
    · exact ends_next (memOk_dispatchShared h)

theorem ends_execDeadlineReached {part time : Nat} {s : State} (h : s.memOk = true) :
    EndsCanonical (execDeadlineReached part time s) := by
  unfold execDeadlineReached
  dsimp only
  split
  · exact ends_next h
  · next e =>
      exact ends_next (memOk_foldl (fun _ _ ht => memOk_abandon ht) (canonical_atTime h _ e))

theorem memOk_cancelCommands {s : State} {part : Nat} {id : BitVec 32} (h : s.memOk = true) :
    (s.cancelCommands part id).memOk = true :=
  memOk_foldl (fun _ _ ht => memOk_ite ht (memOk_endCmd ht)) h

theorem memOk_writeTarget {s : State} {j : Job} {k : Nat} (h : s.memOk = true) :
    (s.writeTarget j k).2.memOk = true := by
  unfold State.writeTarget
  dsimp only
  split
  · exact h
  · exact memOk_defaultWrite h

theorem ends_execMarkerWrite {part : Nat} {job : BitVec 32} {s : State} (h : s.memOk = true) :
    EndsCanonical (execMarkerWrite part job s) := by
  unfold execMarkerWrite
  dsimp only
  split
  · exact ends_next h
  · exact ends_ite (ends_next h) (ends_ite (ends_next (memOk_cancelCommands h)) (ends_next (memOk_whenFree
        (memOk_cancelCommands h) (memOk_modPart (memOk_finishJobNode (memOk_modJob (memOk_ite (memOk_endBarriers
        (memOk_modPart (memOk_cancelCommands h))) (memOk_writeCompletion (memOk_writeTarget (memOk_writeTarget
        (memOk_endBarriers (memOk_modPart (memOk_cancelCommands h)))))))))))))

/-! ### Slice routines -/

theorem memOk_callSlice {s : State} {part slot : Nat} {p : Phys} {a b : W64} (h : s.memOk = true) :
    (s.callSlice part slot p a b).2.2.memOk = true := by
  unfold State.callSlice
  dsimp only
  split
  · exact memOk_storeHome _ _ _ _ (memOk_dropDcache _ _ (memOk_dropDcache _ _ h))
  · exact memOk_touch _ _ _ _ (memOk_dropDcache _ _ (memOk_dropDcache _ _ h))

theorem keeps_callNumber {x : W64} : M.Keeps (callNumber x) := keeps_bind (keeps_need _) fun _ => keeps_pure _

theorem keeps_callSlot {n : Nat} : M.Keeps (callSlot n) :=
  keeps_get_bind fun _ _ => keeps_ite (keeps_bind (keeps_trap _ _) fun _ => keeps_pure _) (keeps_pure _)

theorem keeps_checkLine {va : W64} : M.Keeps (checkLine va) := by
  refine keeps_get_bind fun s _ => ?_
  dsimp only
  split
  · exact keeps_throw _
  · exact keeps_ite (keeps_throw _) (keeps_pure _)

theorem keeps_checkLineHome {va : W64} {p : Phys} : M.Keeps (checkLineHome va p) := keeps_checkHome

theorem keeps_holdLines {as : List (W64 × Phys)} : M.Keeps (holdLines as) :=
  keeps_bind keeps_homeWaits fun _ => keeps_claimAll

theorem ends_execRcall {d a b : BitVec 5} {s : State} (h : s.memOk = true) : EndsCanonical (execRcall d a b s) := by
  unfold execRcall
  refine ends_conclude h (keeps_bind (keeps_need _) fun _ => ?_)
  refine keeps_bind keeps_callNumber fun _ => keeps_bind keeps_callSlot fun _ => ?_
  refine keeps_bind keeps_drainBuffer fun _ => keeps_bind keeps_checkLine fun _ => ?_
  refine keeps_bind keeps_translateAtomic fun _ => keeps_ite ?_ ?_
  · refine keeps_bind (keeps_trap _ _) fun _ => keeps_bind keeps_checkLineHome fun _ => ?_
    refine keeps_bind keeps_holdLines fun _ => keeps_get_bind fun _ hs => ?_
    refine keeps_bind (keeps_set (memOk_callSlice hs)) fun _ => ?_
    dsimp only
    split
    · exact keeps_modify fun _ hs => memOk_wr hs
    · exact keeps_throw _
  · refine keeps_bind keeps_checkLineHome fun _ => keeps_bind keeps_holdLines fun _ => ?_
    refine keeps_get_bind fun _ hs => keeps_bind (keeps_set (memOk_callSlice hs)) fun _ => ?_
    dsimp only
    split
    · exact keeps_modify fun _ hs => memOk_wr hs
    · exact keeps_throw _

theorem keeps_callAll {slot d gm : Nat} {l : List (Nat × W64 × Phys)} : M.Keeps (callAll slot d gm l) := by
  induction l with
  | nil => exact keeps_pure _
  | cons a r ih =>
    refine keeps_get_bind fun u hu => keeps_bind (keeps_set (memOk_callSlice hu)) fun _ => ?_
    split
    · exact keeps_bind (keeps_modify fun s hs => hs) fun _ => keeps_bind ih fun _ => keeps_pure _
    · exact keeps_bind ih fun _ => keeps_pure _

theorem ends_execRcallv {d a b p : BitVec 5} {s : State} (h : s.memOk = true) :
    EndsCanonical (execRcallv d a b p s) := by
  unfold execRcallv
  refine ends_conclude h (keeps_bind keeps_vectorChecks fun _ => ?_)
  refine keeps_bind (keeps_need _) fun _ => keeps_bind keeps_callNumber fun _ => keeps_ite ?_ (keeps_pure _)
  refine keeps_bind keeps_callSlot fun _ => ?_
  refine keeps_bind (keeps_forIn fun _ _ => keeps_bind keeps_checkLine fun _ => keeps_pure _) fun _ => ?_
  refine keeps_bind (keeps_translateAtomicsChecked (fun _ _ => keeps_checkLineHome)) fun _ => keeps_ite ?_ ?_
  · refine keeps_bind keeps_faultTrap fun _ => keeps_bind keeps_drainBuffer fun _ => ?_
    refine keeps_get_bind fun _ _ => keeps_bind keeps_holdLines fun _ => keeps_bind keeps_callAll fun _ => ?_
    dsimp only
    split
    · exact keeps_pure _
    · exact keeps_bind (keeps_modify fun _ hs => hs) fun _ => keeps_throw _
  · refine keeps_bind keeps_drainBuffer fun _ => keeps_get_bind fun _ _ => ?_
    refine keeps_bind keeps_holdLines fun _ => keeps_bind keeps_callAll fun _ => ?_
    dsimp only
    split
    · exact keeps_pure _
    · exact keeps_bind (keeps_modify fun _ hs => hs) fun _ => keeps_throw _

theorem keeps_needSupervisor : M.Keeps needSupervisor :=
  keeps_get_bind fun _ _ => keeps_ite keeps_privTrap (keeps_pure _)

theorem ends_execRinst {d a b : BitVec 5} {s : State} (h : s.memOk = true) : EndsCanonical (execRinst d a b s) := by
  unfold execRinst
  refine ends_conclude h (keeps_bind keeps_needSupervisor fun _ => ?_)
  refine keeps_bind (keeps_need _) fun _ => keeps_bind keeps_loadWide fun _ => keeps_get_bind fun _ _ => ?_
  dsimp only
  split
  · exact keeps_modify fun _ hs => memOk_wr hs
  · refine keeps_ite (keeps_modify fun _ hs => memOk_wr hs) ?_
    split
    · exact keeps_modify fun _ hs => memOk_wr hs
    · exact keeps_ite (keeps_modify fun _ hs => memOk_wr hs) (keeps_modify fun _ hs => memOk_wr hs)

theorem ends_execRfree {d b : BitVec 5} {s : State} (h : s.memOk = true) : EndsCanonical (execRfree d b s) :=
  ends_conclude h (keeps_bind keeps_needSupervisor fun _ => keeps_bind (keeps_need _) fun _ => keeps_modify fun _
      hs => memOk_ite (memOk_wr hs) (memOk_wr hs))

/-! ### Stops from outside -/

theorem memOk_trapAt {s : State} {slot : Nat} {t : TrapInfo} {g : Progress} (h : s.memOk = true) :
    (s.trapAt slot t g).memOk = true :=
  memOk_onSlot (fun _ x => memOk_modCv (memOk_modHw (memOk_takeTrapWith x))) (memOk_markFlights h)

theorem memOk_landForced {s : State} {slot : Nat} {why : BitVec 2} {g : Progress} (h : s.memOk = true) :
    (s.landForced slot why g).memOk = true :=
  memOk_modThread _ _ (memOk_trapAt (memOk_dropWindow (memOk_ite (memOk_modThread _ _ h) h)))

theorem memOk_landSpanLost {s : State} {slot : Nat} {vc : BitVec 9} {g : Progress} (h : s.memOk = true) :
    (s.landSpanLost slot vc g).memOk = true := by
  unfold State.landSpanLost
  refine memOk_modThread _ _ (memOk_trapAt (memOk_onSlot (fun _ x => x) ?_))
  split
  · exact memOk_modThread _ _ h
  · exact h

theorem memOk_landAbandon {s : State} {slot : Nat} (h : s.memOk = true) : (s.landAbandon slot).memOk = true :=
  memOk_ite h (memOk_ite (memOk_callBackBuf h) (memOk_cancelCommands (memOk_modJob (memOk_emptySlot (memOk_foldl
      (fun _ _ ht => memOk_performEntry _ ht) h)))))

theorem memOk_land {s : State} {slot : Nat} {r : StopReq} {g : Progress} (h : s.memOk = true) :
    (s.land slot r g).memOk = true := by
  unfold State.land
  split
  · exact memOk_landAbandon h
  · exact memOk_landForced h
  · exact memOk_landSpanLost h

theorem memOk_landFirst {s : State} {slot : Nat} {f : StopReq → Bool} (h : s.memOk = true) :
    (s.landFirst slot f).memOk = true := by
  unfold State.landFirst
  dsimp only
  split
  · exact memOk_ite (memOk_land (memOk_modCv (memOk_arrayDone h))) h
  · exact h

theorem ends_execForcedStop {slot : Nat} {s : State} (h : s.memOk = true) : EndsCanonical (execForcedStop slot s) :=
  ends_next (memOk_landFirst h)

theorem ends_execAbandonStop {slot : Nat} {s : State} (h : s.memOk = true) :
    EndsCanonical (execAbandonStop slot s) :=
  ends_next (memOk_landFirst h)

theorem memOk_grantChanged {s : State} {slot : Nat} (h : s.memOk = true) : (s.grantChanged slot).memOk = true :=
  memOk_endWait h

theorem ends_execFetchFault {va : W64} {s : State} (h : s.memOk = true) : EndsCanonical (execFetchFault va s) := by
  unfold execFetchFault
  refine ends_ite ?_ (ends_next h)
  split
  · exact ends_next h
  · exact ends_next (memOk_modCv (memOk_fetchTrap h))

theorem memOk_withSliceRes {s : State} {r : Option (Nat × Nat × Bool × W64)} (h : s.memOk = true) :
    State.memOk { s with sliceRes := r } = true := h

theorem ends_execSliceCall {vf n loc : Nat} {x y : W64} {s : State} (h : s.memOk = true) :
    EndsCanonical (execSliceCall vf n loc x y s) := by
  unfold execSliceCall
  dsimp only
  split
  · exact ends_next h
  · next e _ =>
    refine ends_ite (ends_next h) (ends_ite (ends_next (memOk_callBack h)) (ends_ite (ends_next h) ?_))
    refine ends_ite (ends_next (memOk_macFailure _ (memOk_claim _ _ h))) (ends_next ?_)
    exact memOk_withSliceRes (memOk_callSlice (memOk_claim _ _ h))

/-! ### The host interface -/

theorem memOk_onEntry {s : State} {vf : Nat} {f : Nat → State} (hf : ∀ x, (f x).memOk = true) (h : s.memOk = true) :
    (s.onEntry vf f).memOk = true := by
  unfold State.onEntry
  refine memOk_ite h (memOk_ite (memOk_macFailure _ (memOk_reachSq h)) (memOk_ite (memOk_callBackCq h) ?_))
  split
  · exact hf _
  · exact h

theorem ends_serve {s : State} {vf op : Nat} {f : Nat → State → Nat × Nat × State}
    (hf : ∀ x t, State.memOk t = true → (f x t).2.2.memOk = true) (h : s.memOk = true) :
    EndsCanonical (s.serve vf op f) := by
  refine ends_next (memOk_onEntry (fun x => memOk_ite h ?_) h)
  exact memOk_postCompletion (hf _ _ (memOk_takeSq h))

theorem ends_execUnknownOpEntry {vf : Nat} {s : State} (h : s.memOk = true) :
    EndsCanonical (execUnknownOpEntry vf s) :=
  ends_next (memOk_onEntry (fun _ => memOk_ite h (memOk_postCompletion (memOk_takeSq h))) h)

theorem ends_execLaunch {vf : Nat} {s : State} (h : s.memOk = true) : EndsCanonical (execLaunch vf s) := by
  refine ends_serve (fun x t ht => ?_) h
  dsimp only
  split
  · exact ht
  · split
    · exact ht
    · split
      · exact memOk_macFailure _ (memOk_claimPlaces ht)
      · split
        · exact memOk_claimPlaces ht
        · exact memOk_acceptJob (memOk_claimPlaces ht)

theorem ends_execMap {vf : Nat} {s : State} (h : s.memOk = true) : EndsCanonical (execMap vf s) := by
  refine ends_serve (fun x t ht => ?_) h
  split
  · exact ht
  · split
    · exact ht
    · split
      · exact ht
      · exact memOk_foldl (fun _ _ hu => memOk_mapEntry hu) (memOk_assignFrames _ _ ht)

theorem ends_execUnmap {vf : Nat} {s : State} (h : s.memOk = true) : EndsCanonical (execUnmap vf s) := by
  unfold execUnmap
  split
  · refine ends_ite (ends_next h) (ends_serve (fun x t ht => ?_) h)
    split
    · exact ht
    · exact memOk_foldl (fun _ _ hu => memOk_endUnmap hu) ht
  · exact ends_serve (fun _ _ ht => ht) h

theorem ends_execCopy {vf : Nat} {s : State} (h : s.memOk = true) : EndsCanonical (execCopy vf s) := by
  have hrefuse : ∀ tag k, ((s.takeSq vf).postCompletion vf tag k 0).memOk = true := fun tag k =>
    memOk_postCompletion (memOk_takeSq h)
  refine ends_next (memOk_onEntry (fun x => memOk_ite h ?_) h)
  refine memOk_ite (hrefuse _ _) ?_
  dsimp only
  split
  · exact hrefuse _ _
  · exact hrefuse _ _
  · split
    · exact h
    · exact memOk_enqueue (memOk_takeSq h)

theorem memOk_writeWseq {s : State} {vf base count : Nat} (h : s.memOk = true) :
    (s.writeWseq vf base count).memOk = true :=
  memOk_ite h h

theorem ends_execWatch {vf : Nat} {s : State} (h : s.memOk = true) : EndsCanonical (execWatch vf s) := by
  refine ends_serve (fun x t ht => ?_) h
  dsimp only
  split
  · exact ht
  · exact memOk_modVf (memOk_writeWseq ht)

theorem ends_execNotify {vf : Nat} {s : State} (h : s.memOk = true) : EndsCanonical (execNotify vf s) :=
  ends_serve (fun _ _ ht => ht) h

theorem ends_execAttest {vf : Nat} {s : State} (h : s.memOk = true) : EndsCanonical (execAttest vf s) := by
  refine ends_ite (ends_next (memOk_callBack h)) (ends_serve (fun x t ht => ?_) h)
  split
  · exact ht
  · split
    · exact ht
    · exact memOk_writePlaces ht

theorem memOk_cancelUnits {s : State} {vf : Nat} (h : s.memOk = true) : (s.cancelUnits vf).memOk = true :=
  memOk_foldl (fun _ _ ht => memOk_ite ht (memOk_ite (memOk_callBackCq ht) (memOk_endCmd ht))) h

theorem memOk_cancelReserved {s : State} {vf : Nat} (h : s.memOk = true) : (s.cancelReserved vf).memOk = true :=
  memOk_foldl (fun _ _ ht => memOk_finishNode ht) h

theorem memOk_startReset {s : State} {vf : Nat} (h : s.memOk = true) : (s.startReset vf).memOk = true :=
  memOk_cancelReserved (memOk_cancelUnits (memOk_abandonAll h))

theorem memOk_flushRing {s : State} {vf fuel : Nat} (h : s.memOk = true) : (s.flushRing vf fuel).memOk = true := by
  induction fuel generalizing s with
  | zero => exact h
  | succ fuel ih =>
    unfold State.flushRing
    refine memOk_ite h (memOk_ite (ih (memOk_takeSq h)) (memOk_ite (memOk_callBackCq h) (memOk_ite h ?_)))
    split
    · exact ih (memOk_postCompletion (memOk_takeSq h))
    · have ht := memOk_postCompletion (vf := vf) (tag := Config.freeNat s.free % 2 ^ 16) (status := 2) (result := 0)
        (memOk_bump (memOk_takeSq (vf := vf) h))
      exact ih (memOk_ite (memOk_macFailure _ ht) ht)

theorem memOk_dropFronthaul {s : State} {vf : Nat} (h : s.memOk = true) : (s.dropFronthaul vf).memOk = true :=
  (memOk_foldl (fun _ _ ht => memOk_removeFlow ht) h :)

theorem memOk_dropOwners {s : State} {vf : Nat} (h : s.memOk = true) : (s.dropOwners vf).memOk = true :=
  memOk_foldl (fun _ _ ht => ht) h

theorem memOk_clearUnits {s : State} {vf : Nat} (h : s.memOk = true) : (s.clearUnits vf).memOk = true := h

theorem memOk_unmapFunction {s : State} {vf : Nat} (h : s.memOk = true) : (s.unmapFunction vf).memOk = true :=
  memOk_startRelease (memOk_modVf (memOk_foldl (fun _ _ ht => memOk_ite ht (memOk_ite ht (memOk_endUnmap ht))) h))

theorem memOk_rekey {s : State} {vf : Nat} (h : s.memOk = true) : (s.rekey vf).memOk = true := memOk_ite h h

theorem memOk_endReset {s : State} {vf : Nat} (h : s.memOk = true) : (s.endReset vf).memOk = true :=
  memOk_ite (memOk_modVf (memOk_rekey (memOk_foldl (fun _ _ ht => memOk_freeFrame _ ht) h))) (memOk_foldl
      (fun _ _ ht => memOk_freeFrame _ ht) h)

theorem ends_execFunctionReset {vf : Nat} {s : State} (h : s.memOk = true) :
    EndsCanonical (execFunctionReset vf s) :=
  ends_ite (ends_next (memOk_startReset h)) (ends_ite (ends_next (memOk_cancelUnits h)) (ends_ite (ends_next
      (memOk_flushRing h)) (ends_next (memOk_endReset (memOk_unmapFunction (memOk_dropOwners (memOk_clearUnits
      (memOk_dropFronthaul (memOk_cancelReserved (memOk_flushRing h))))))))))

theorem memOk_countDrop {s : State} {vf : Nat} (h : s.memOk = true) : (s.countDrop vf).memOk = true := h

theorem memOk_consumeRequest {s : State} {hdr : Nat} (h : s.memOk = true) : (s.consumeRequest hdr).memOk = true :=
    by
  unfold State.consumeRequest
  dsimp only
  split
  · exact h
  · exact memOk_poke _ _ _ h

theorem ends_execPageResponse {part : Nat} {tag : BitVec 16} {inc status : BitVec 8} {slot : BitVec 16} {vf :
    Nat} {s : State} (h : s.memOk = true) : EndsCanonical (execPageResponse part tag inc status slot vf s) :=
  ends_ite (ends_next h) (ends_ite (ends_next (memOk_macFailure _ h)) (ends_ite (ends_next (memOk_countDrop
      (memOk_consumeRequest h))) (ends_next (memOk_wakeSlot (memOk_poke _ _ _ (memOk_poke _ _ _
      (memOk_consumeRequest h)))))))

/-! ### Ordering events -/

theorem ends_execStoreBufferDrain {slot : Nat} {s : State} (h : s.memOk = true) :
    EndsCanonical (execStoreBufferDrain slot s) := by
  unfold execStoreBufferDrain
  dsimp only
  split
  · exact ends_next h
  · exact ends_ite (ends_next (memOk_callBackBuf h)) (ends_next (memOk_modThread _ _ (memOk_foldl
        (fun _ _ ht => memOk_performEntry _ ht) (memOk_ite h h))))

theorem memOk_performElem {s : State} {t : Train} {x : Nat × List Byte} (h : s.memOk = true) :
    (s.performElem t x).memOk = true :=
  memOk_ite h (memOk_performEntry _ h)

theorem memOk_performTrain {s : State} {t : Train} (h : s.memOk = true) : (s.performTrain t).memOk = true :=
  memOk_foldl (fun _ _ ht => memOk_performElem ht) h

theorem memOk_performUntil {s : State} {t : Train} {l : List (Nat × List Byte)} (h : s.memOk = true) :
    (s.performUntil t l).2.memOk = true := by
  induction l generalizing s with
  | nil => exact h
  | cons x r ih =>
    unfold State.performUntil
    split
    · exact h
    · exact ih (memOk_performElem h)

theorem ends_execTrainArrival {slot : Nat} {dest : Dest} {s : State} (h : s.memOk = true) :
    EndsCanonical (execTrainArrival slot dest s) := by
  unfold execTrainArrival
  dsimp only
  split
  · exact ends_next h
  · exact ends_ite (ends_ite (ends_next (memOk_modThread _ _ (memOk_performUntil h))) (ends_next (memOk_callBack
        (memOk_modThread _ _ (memOk_performUntil h))))) (ends_ite (ends_next (memOk_modThread _ _ h)) (ends_next
        (memOk_modThread _ _ (memOk_performTrain h))))

theorem ends_execTrainAck {slot : Nat} {dest : Dest} {s : State} (h : s.memOk = true) :
    EndsCanonical (execTrainAck slot dest s) := by
  unfold execTrainAck
  dsimp only
  split
  · exact ends_next h
  · exact ends_next (memOk_modThread _ _ h)

theorem memOk_answer {s : State} {r : Option (List Byte)} (h : s.memOk = true) : (s.answer r).memOk = true := h

theorem memOk_giveHost {s : State} {line : Nat} (h : s.memOk = true) : (s.giveHost line).memOk = true := h

theorem ends_execHostAccess {write : Bool} {line : Nat} {data : List Byte} {s : State} (h : s.memOk = true) :
    EndsCanonical (execHostAccess write line data s) :=
  ends_ite (ends_next h) (ends_ite (ends_next (memOk_ite h h)) (ends_ite (ends_next (memOk_touch _ _ _ _
      (memOk_foldl (fun _ _ ht => memOk_dropDcache _ _ (memOk_pokeByte _ _ _ ht)) (memOk_claim _ _ h))))
      (ends_next (memOk_ite (memOk_answer (memOk_giveHost (memOk_touch _ _ _ _ h))) (memOk_answer
      (memOk_touch _ _ _ _ h))))))

theorem ends_execBackInvalidateResponse {line : Nat} {s : State} (h : s.memOk = true) :
    EndsCanonical (execBackInvalidateResponse line s) :=
  ends_ite (ends_next h) (ends_next h)

theorem ends_execTwinInbound {acc : Inbound} {gpa : BitVec 40} {data : List Byte} {s : State} (h : s.memOk = true) :
    EndsCanonical (execTwinInbound acc gpa data s) := by
  unfold execTwinInbound
  refine ends_ite (ends_next h) (ends_ite (ends_next (memOk_ite (memOk_callBack h) h)) ?_)
  refine ends_ite (ends_next (memOk_answer (memOk_macFailure _ (memOk_foldl (fun _ _ ht => memOk_claim _ _ ht)
      h)))) ?_
  dsimp only
  split
  · exact ends_next (memOk_performEntry _ h)
  · exact ends_next (memOk_answer (memOk_touch _ _ _ _ (memOk_foldl (fun _ _ ht => memOk_claim _ _ ht) h)))
  · exact ends_next (memOk_answer (memOk_storeHome _ _ _ _ (memOk_foldl (fun _ _ ht => memOk_claim _ _ ht) h)))

/-! ### Power, temperature and bring-up -/

theorem memOk_setPower {s : State} {p : BitVec 4} (h : s.memOk = true) : (s.setPower p).memOk = true :=
  memOk_foldl (fun _ _ ht => memOk_modThread _ _ ht) h

theorem ends_execThermalTrip {temp : BitVec 8} {s : State} (h : s.memOk = true) :
    EndsCanonical (execThermalTrip temp s) :=
  ends_ite (ends_next h) (ends_ite (ends_next (memOk_setPower h)) (ends_ite (ends_next h) (ends_next h)))

theorem memOk_settleSlot {s : State} {slot : Nat} (h : s.memOk = true) : (s.settleSlot slot).memOk = true :=
  memOk_foldl (fun _ _ ht => memOk_performTrain ht) (memOk_foldl (fun _ _ ht => memOk_performEntry _ ht) h)

theorem memOk_stopContext {s : State} {slot : Nat} (h : s.memOk = true) : (s.stopContext slot).memOk = true :=
  memOk_cancelCommands (memOk_modJob (memOk_emptySlot (memOk_abandon (memOk_settleSlot h))))

theorem memOk_excludeVcs {s : State} {bad : List Nat} (h : s.memOk = true) : (s.excludeVcs bad).memOk = true :=
  memOk_foldl (fun _ _ ht => ht) (memOk_foldl (fun _ _ ht => memOk_stopContext ht) h)

theorem memOk_bootNext {s : State} (h : s.memOk = true) : s.bootNext.memOk = true := by
  unfold State.bootNext
  refine memOk_ite h ?_
  dsimp only
  split
  · exact h
  · exact memOk_ite h h
  · exact h
  · exact h
  · exact memOk_modHub (memOk_modHub (memOk_excludeVcs h))
  · exact h
  · exact h

theorem ends_execBringupComplete {s : State} (h : s.memOk = true) : EndsCanonical (execBringupComplete s) := by
  unfold execBringupComplete
  dsimp only
  refine ends_ite (ends_next h) (ends_next ?_)
  have hu : (s.occupied.foldl State.settleSlot s).memOk = true := memOk_foldl (fun _ _ ht => memOk_settleSlot ht) h
  exact twf_filter _ _ _ hu

/-! ### Register writes -/

theorem memOk_writeTrg {s : State} {part n x : Nat} (h : s.memOk = true) : (s.writeTrg part n x).memOk = true :=
  memOk_ite (memOk_fireTrigger h) h

theorem memOk_writeBar {s : State} {vf off x : Nat} (h : s.memOk = true) : (s.writeBar vf off x).memOk = true :=
  memOk_ite (memOk_ite h h) (memOk_ite (memOk_ite h h) (memOk_ite (memOk_ite h h) (memOk_ite h (memOk_ite
      (memOk_ite (memOk_startReset h) h) h))))

theorem memOk_writeVfReg {s : State} {a x : Nat} (h : s.memOk = true) : (s.writeVfReg a x).memOk = true :=
  memOk_ite (memOk_ite h h) (memOk_ite (memOk_ite h h) (memOk_ite h (memOk_ite (memOk_ite h (memOk_ite h
      (memOk_ite h h))) h)))

theorem memOk_writeHubReg {s : State} {a x : Nat} (h : s.memOk = true) : (s.writeHubReg a x).memOk = true :=
  memOk_ite h (memOk_ite h (memOk_ite h (memOk_ite h (memOk_ite h (memOk_ite h (memOk_ite (memOk_ite h h)
      (memOk_ite (memOk_ite h (memOk_ite h h)) (memOk_ite (memOk_ite h h) (memOk_writeVfReg h)))))))))

theorem memOk_writeUnplaced {s : State} {a x : Nat} (h : s.memOk = true) : (s.writeUnplaced a x).memOk = true :=
  memOk_ite (memOk_ite h h) (memOk_ite h h)

theorem memOk_writeDebugReg {s : State} {a x : Nat} (h : s.memOk = true) : (s.writeDebugReg a x).memOk = true :=
  memOk_ite (memOk_writeTrg h) h

theorem memOk_noticeCleared {before after : State} (hafter : after.memOk = true) :
    (before.noticeCleared after).memOk = true :=
  memOk_ite hafter hafter

theorem ends_execRegisterWrite {agent : Agent} {addr : Nat} {data : W64} {s : State} (h : s.memOk = true) :
    EndsCanonical (execRegisterWrite agent addr data s) := by
  unfold execRegisterWrite
  refine ends_next (memOk_ite h ?_)
  split
  · exact memOk_ite (memOk_writeBar h) h
  · exact memOk_ite h h
  · exact memOk_ite (memOk_writeDebugReg h) h
  · exact memOk_ite (memOk_writeUnplaced h) (memOk_ite (memOk_ite (memOk_writeDebugReg h) h)
        (memOk_noticeCleared (memOk_writeHubReg h)))

end Sys2Proof.Machine
end

section
/-!
PROOF. Every step keeps memory canonical: the remaining instruction families.
-/

namespace Sys2Proof.Machine

open Sys2Proof

/-! ### Predicate instructions -/

theorem memOk_wrLate {s : State} {d : BitVec 5} {v : W64} (h : s.memOk = true) : (s.wrLate d v).memOk = true :=
  memOk_ite h (memOk_wr h)

theorem ends_predOp {s : State} {d p : BitVec 5} {f : Nat → Bool} (h : s.memOk = true) :
    EndsCanonical (s.predOp d p f) :=
  ends_conclude h (keeps_bind keeps_vectorGate fun _ => keeps_modify fun _ hs => hs)

theorem ends_predWhole {s : State} {d p : BitVec 5} {f : Nat → Bool} (h : s.memOk = true) :
    EndsCanonical (s.predWhole d p f) :=
  ends_conclude h (keeps_bind keeps_vectorGate fun _ => keeps_ite (keeps_modify fun _ hs => hs) (keeps_pure _))

theorem ends_execPpopc {_cont : Bool} {d a p : BitVec 5} {s : State} (h : s.memOk = true) :
    EndsCanonical (execPpopc _cont d a p s) :=
  ends_conclude h (keeps_bind keeps_vectorGate fun _ => keeps_ite (keeps_modify fun _ hs => memOk_wrLate hs)
      (keeps_pure _))

theorem ends_execPld {_cont : Bool} {d a : BitVec 5} {k : BitVec 2} {s : State} (h : s.memOk = true) :
    EndsCanonical (execPld _cont d a k s) :=
  ends_conclude h (keeps_bind keeps_vectorGate fun _ => keeps_bind keeps_wholeBeats fun _ => keeps_bind
      (keeps_modify fun _ hs => memOk_touchLines hs) fun _ => keeps_bind keeps_readPlaces fun _ => keeps_modify fun
      _ hs => hs)

theorem ends_execPst {_cont : Bool} {d a : BitVec 5} {k : BitVec 2} {s : State} (h : s.memOk = true) :
    EndsCanonical (execPst _cont d a k s) :=
  ends_conclude h (keeps_bind keeps_vectorGate fun _ => keeps_bind keeps_wholeBeats fun _ => keeps_bind
      keeps_storeRoom fun _ => keeps_modify fun _ hs => memOk_pushEntries hs)

/-! ### Scalar loads, stores and atomics -/

theorem ends_loadTo {s : State} {d a : BitVec 5} {o : BitVec 12} {n : Nat} {f : Nat → W64} (h : s.memOk = true) :
    EndsCanonical (s.loadTo d a o n f) :=
  ends_conclude h (keeps_bind keeps_loadScalar fun _ => keeps_modify fun _ hs => memOk_wr hs)

theorem ends_storeFrom {s : State} {d a : BitVec 5} {o : BitVec 12} {n : Nat} (h : s.memOk = true) :
    EndsCanonical (s.storeFrom d a o n) :=
  ends_conclude h keeps_storeScalar

theorem ends_execSdr {d a : BitVec 5} {o : BitVec 12} {s : State} (h : s.memOk = true) :
    EndsCanonical (execSdr d a o s) :=
  ends_conclude h (keeps_bind keeps_checkAlign fun _ => keeps_bind keeps_checkLock fun _ => keeps_bind
      keeps_translateScalar fun _ => keeps_bind keeps_storeRoom fun _ => keeps_bind keeps_awaitTrains fun _ =>
      keeps_modify fun _ hs => memOk_pushScalar hs)

theorem ends_execAmo {d a b : BitVec 5} {r : BitVec 2} {w : BitVec 1} {o : BitVec 4} {s : State} (h :
    s.memOk = true) : EndsCanonical (execAmo d a b r w o s) :=
  ends_conclude h (keeps_bind keeps_atomicScalar fun _ => keeps_modify fun _ hs => memOk_wr hs)

/-! ### Vector integer operations -/

theorem ends_elemWise {s : State} {types : Vt → Bool} {d a p : BitVec 5} {more : List (BitVec 5)} {f :
    State → Vt → Nat → Res} (h : s.memOk = true) : EndsCanonical (s.elemWise types d a p more f) :=
  ends_conclude h (keeps_bind keeps_vectorChecks fun _ => keeps_modify fun _ hs => memOk_ite hs (memOk_copyScales
      (memOk_mapElems hs)))

theorem ends_binary {s : State} {types : Vt → Bool} {d a : BitVec 5} {y : Src} {p : BitVec 5} {f :
    Vt → Nat → Nat → Out} (h : s.memOk = true) : EndsCanonical (s.binary types d a y p f) :=
  ends_elemWise h

theorem ends_unary {s : State} {types : Vt → Bool} {d a p : BitVec 5} {f : Vt → Nat → Out} (h : s.memOk = true) :
    EndsCanonical (s.unary types d a p f) :=
  ends_elemWise h

theorem ends_intOp {s : State} {d a : BitVec 5} {y : Src} {p : BitVec 5} {f : Vt → Nat → Nat → Int} (h :
    s.memOk = true) : EndsCanonical (s.intOp d a y p f) :=
  ends_binary h

theorem ends_bitOp {s : State} {d a : BitVec 5} {y : Src} {p : BitVec 5} {f : Nat → Nat → Nat} (h : s.memOk = true) :
    EndsCanonical (s.bitOp d a y p f) :=
  ends_binary h

theorem ends_compare {s : State} {cond : Nat} {d a : BitVec 5} {y : Src} {p : BitVec 5} (h : s.memOk = true) :
    EndsCanonical (s.compare cond d a y p) :=
  ends_conclude h (keeps_bind keeps_vectorChecks fun _ => keeps_modify fun _ hs => memOk_mergeFlags hs)

/-! ### Conversions -/

theorem ends_conv {s : State} {d a p : BitVec 5} {gs : Nat} {apart : Bool} {src : Vt → Option Ty} (h :
    s.memOk = true) : EndsCanonical (s.conv d a p gs apart src) := by
  unfold State.conv
  refine ends_conclude h (keeps_bind keeps_vectorChecks fun _ => ?_)
  refine keeps_bind (keeps_need _) fun _ => ?_
  split
  · exact keeps_illop
  · exact keeps_bind (keeps_need _) fun _ => keeps_bind (keeps_need _) fun _ => keeps_modify fun _ hs =>
        memOk_mapElems hs

/-! ### Signal operations -/

theorem keeps_needActive {p : BitVec 5} {ok : State → Bool} : M.Keeps (needActive p ok) :=
  keeps_get_bind fun _ _ => keeps_need _

theorem keeps_apart {d : BitVec 5} {sources : List (BitVec 5)} : M.Keeps (apart d sources) :=
  keeps_get_bind fun _ _ => keeps_need _

theorem memOk_putAll {s : State} {t : Vt} {d : BitVec 5} {vals evs : List (Nat × Nat)} (h : s.memOk = true) :
    (s.putAll t d vals evs).memOk = true :=
  memOk_foldHead (memOk_mergeFlags (memOk_foldl (fun _ _ ht => ht) h))

theorem ends_fly {s : State} {r : Nat} {d a b p : BitVec 5} (h : s.memOk = true) :
    EndsCanonical (s.fly r d a b p) :=
  ends_conclude h (keeps_bind keeps_vectorChecks fun _ => keeps_bind keeps_needActive fun _ => keeps_bind
      keeps_apart fun _ => keeps_get_bind fun _ _ => keeps_ite (keeps_modify fun _ hs => memOk_putAll hs)
      (keeps_pure _))

theorem ends_reorder {s : State} {d a p : BitVec 5} {ok : State → Bool} {f : State → Nat → Nat} (h :
    s.memOk = true) : EndsCanonical (s.reorder d a p ok f) :=
  ends_conclude h (keeps_bind keeps_vectorChecks fun _ => keeps_bind keeps_needActive fun _ => keeps_bind
      keeps_apart fun _ => keeps_get_bind fun _ _ => keeps_ite (keeps_modify fun _ hs => memOk_putAll hs)
      (keeps_pure _))

theorem ends_execVbgath {_cont : Bool} {d a b p : BitVec 5} {s : State} (h : s.memOk = true) :
    EndsCanonical (execVbgath _cont d a b p s) :=
  ends_conclude h (keeps_bind keeps_vectorChecks fun _ => keeps_modify fun _ hs => memOk_ite hs (memOk_foldl
      (fun _ _ ht => ht) hs))

theorem ends_execVgold {_cont : Bool} {d a b p : BitVec 5} {s : State} (h : s.memOk = true) :
    EndsCanonical (execVgold _cont d a b p s) :=
  ends_conclude h (keeps_bind keeps_vectorChecks fun _ => keeps_get_bind fun _ _ => keeps_bind keeps_needActive fun
      _ => keeps_modify fun _ hs => memOk_mapElems hs)

theorem ends_execVllrpk {_cont : Bool} {d a b p : BitVec 5} {s : State} (h : s.memOk = true) :
    EndsCanonical (execVllrpk _cont d a b p s) :=
  ends_conclude h (keeps_bind keeps_vectorChecks fun _ => keeps_bind (keeps_need _) fun _ => keeps_get_bind fun _ _
      => keeps_bind keeps_needActive fun _ => keeps_modify fun _ hs => memOk_mapElems hs)

/-! ### The solver -/

theorem keeps_solverChecks {d p : BitVec 5} {rest : List (BitVec 5)} {head : BitVec 5} {pairs : Bool} : M.Keeps
    (solverChecks d p rest head pairs) := by
  unfold solverChecks
  refine keeps_bind keeps_vectorChecks fun _ => keeps_bind keeps_apart fun _ => ?_
  dsimp only
  split
  · exact keeps_bind (keeps_need _) fun _ => keeps_get_bind fun _ _ => keeps_ite (keeps_pure _) (keeps_bind
        (keeps_need _) fun _ => keeps_bind (keeps_need _) fun _ => keeps_pure _)
  · exact keeps_get_bind fun _ _ => keeps_ite (keeps_pure _) (keeps_bind (keeps_need _) fun _ => keeps_bind
        (keeps_need _) fun _ => keeps_pure _)

theorem memOk_putResults {s : State} {t : Vt} {d head : BitVec 5} {size : Nat} {rs : List (Nat × Renormed × List
    (Nat × Nat))} (h : s.memOk = true) : (s.putResults t d head size rs).memOk = true :=
  memOk_foldl (fun _ _ ht => ht) (memOk_putAll h)

theorem ends_execVgjstep {_cont : Bool} {d a p : BitVec 5} {s : State} (h : s.memOk = true) :
    EndsCanonical (execVgjstep _cont d a p s) :=
  ends_conclude h (keeps_bind keeps_solverChecks fun _ => keeps_get_bind fun _ _ => keeps_ite
      (keeps_modify fun _ hs => memOk_putResults hs) (keeps_pure _))

theorem ends_execVbsolve {_cont : Bool} {d a b p : BitVec 5} {s : State} (h : s.memOk = true) :
    EndsCanonical (execVbsolve _cont d a b p s) :=
  ends_conclude h (keeps_bind keeps_solverChecks fun _ => keeps_get_bind fun _ _ => keeps_ite
      (keeps_modify fun _ hs => memOk_putResults hs) (keeps_pure _))

theorem ends_execVnsstep {_cont : Bool} {d a b p : BitVec 5} {s : State} (h : s.memOk = true) :
    EndsCanonical (execVnsstep _cont d a b p s) :=
  ends_conclude h (keeps_bind keeps_solverChecks fun _ => keeps_get_bind fun _ _ => keeps_ite
      (keeps_modify fun _ hs => memOk_putResults hs) (keeps_pure _))

theorem ends_execVwstag {_cont : Bool} {d a b p : BitVec 5} {s : State} (h : s.memOk = true) :
    EndsCanonical (execVwstag _cont d a b p s) :=
  ends_conclude h (keeps_bind keeps_vectorChecks fun _ => keeps_get_bind fun _ _ => keeps_bind keeps_needActive fun
      _ => keeps_get_bind fun _ _ => keeps_bind (keeps_need _) fun _ => keeps_get_bind fun _ _ => keeps_ite
      (keeps_modify fun _ hs => memOk_mergeFlags (memOk_foldl (fun _ _ ht => ht) hs)) (keeps_pure _))

/-! ### System instructions -/

theorem ends_execEret {s : State} (h : s.memOk = true) : EndsCanonical (execEret s) :=
  ends_ite (ends_trapNow h) (ends_ite (ends_trapNow h) (ends_ite (ends_ite (ends_trapNow h) (ends_next
      (memOk_endHold (memOk_stepTrap (memOk_returnFrom h))))) (ends_next (memOk_endHold (memOk_stepTrap
      (memOk_returnFrom h))))))

theorem ends_execNap {d : BitVec 5} {s : State} (h : s.memOk = true) : EndsCanonical (execNap d s) :=
  ends_conclude h (keeps_ite (keeps_modify fun _ hs => memOk_modHw (memOk_wr hs)) (keeps_ite
      (keeps_modify fun _ hs => memOk_wr hs) (keeps_waitFor _)))

theorem ends_execWake {d a : BitVec 5} {s : State} (h : s.memOk = true) : EndsCanonical (execWake d a s) :=
  ends_conclude h (keeps_bind (keeps_need _) fun _ => keeps_ite (keeps_modify fun _ hs => memOk_wr hs)
      (keeps_bind keeps_release fun _ => keeps_modify fun _ hs => memOk_wr (memOk_foldl
      (fun _ _ ht => memOk_wakeSlot ht) hs)))

theorem memOk_endHalt {s : State} (h : s.memOk = true) : s.endHalt.memOk = true := by
  unfold State.endHalt
  dsimp only
  split
  · exact memOk_modHw (memOk_readResume h)
  · exact memOk_emptySlot (memOk_parkJob (memOk_macFailure _ (memOk_readResume h)))
  · exact memOk_emptySlot (memOk_parkJob (memOk_readResume h))
  · exact memOk_emptySlot (memOk_parkJob (memOk_readResume h))

theorem ends_execHalt {s : State} (h : s.memOk = true) : EndsCanonical (execHalt s) := by
  unfold execHalt
  split
  · exact ends_trapNow h
  · split
    · next e =>
        exact ends_next (memOk_endHalt (memOk_of_snd e ((keeps_bind keeps_drainBuffer fun _ => keeps_awaitTrains) _
            h)))
    · next e =>
        exact ends_next (memOk_takeTrap (memOk_of_snd e ((keeps_bind keeps_drainBuffer fun _ => keeps_awaitTrains)
            _ h)))
    · next e =>
        exact ends_next (memOk_modHw (memOk_of_snd e ((keeps_bind keeps_drainBuffer fun _ => keeps_awaitTrains) _
            h)))
  · exact ends_next h

theorem ends_execIfence {s : State} (h : s.memOk = true) : EndsCanonical (execIfence s) := by
  have hc : EndsCanonical (s.conclude (do
      drainBuffer
      modify (fun t => (t.modVc t.curVc (fun v => { v with icache := [] })).modHw
        (fun h => { h with fetched := [] })))) :=
    ends_conclude h (keeps_bind keeps_drainBuffer fun _ => keeps_modify fun _ ht => ht)
  unfold execIfence
  split
  · next t e =>
    have ht := hc t e
    exact ends_next (memOk_ite ht ht)
  · exact hc

/-! ### Vector float operations -/

theorem ends_floatOp {s : State} {d a : BitVec 5} {y : Src} {p : BitVec 5} {f : Fmt → Nat → Nat → Nat → Out} (h :
    s.memOk = true) : EndsCanonical (s.floatOp d a y p f) :=
  ends_binary h

theorem ends_floatOp3 {s : State} {d a : BitVec 5} {y : Src} {p : BitVec 5} {f :
    Fmt → Nat → Nat → Nat → Nat → Out} (h : s.memOk = true) : EndsCanonical (s.floatOp3 d a y p f) :=
  ends_elemWise h

/-! ### Moves -/

theorem ends_execVmovs {_cont : Bool} {d b p : BitVec 5} {s : State} (h : s.memOk = true) :
    EndsCanonical (execVmovs _cont d b p s) :=
  ends_conclude h (keeps_bind keeps_vectorChecks fun _ => keeps_modify fun _ hs => memOk_mapElems hs)

theorem ends_execVmovx {_cont : Bool} {d a b : BitVec 5} {s : State} (h : s.memOk = true) :
    EndsCanonical (execVmovx _cont d a b s) :=
  ends_conclude h (keeps_bind keeps_vectorChecks fun _ => keeps_modify fun _ hs => memOk_wrLate hs)

theorem ends_execVins {_cont : Bool} {d a b : BitVec 5} {s : State} (h : s.memOk = true) :
    EndsCanonical (execVins _cont d a b s) :=
  ends_conclude h (keeps_bind keeps_vectorChecks fun _ => keeps_modify fun _ hs => memOk_ite
      (memOk_writeElems hs) hs)

/-! ### Permutes -/

theorem memOk_putBeat {s : State} {v : BitVec 5} {k x : Nat} (h : s.memOk = true) :
    (s.putBeat v k x).memOk = true :=
  h

theorem ends_execVperm {_cont : Bool} {d a b p : BitVec 5} {s : State} (h : s.memOk = true) :
    EndsCanonical (execVperm _cont d a b p s) :=
  ends_conclude h (keeps_bind keeps_vectorChecks fun _ => keeps_bind (keeps_need _) fun _ => keeps_get_bind fun _ _
      => keeps_ite (keeps_modify fun _ hs => memOk_putAll hs) (keeps_pure _))

theorem memOk_foldGroup {s : State} {d : BitVec 5} (h : s.memOk = true) : (s.foldGroup d).memOk = true :=
  memOk_foldHead h

theorem ends_execVpermb {_cont : Bool} {d a b : BitVec 5} {s : State} (h : s.memOk = true) :
    EndsCanonical (execVpermb _cont d a b s) :=
  ends_conclude h (keeps_bind keeps_vectorChecks fun _ => keeps_get_bind fun _ _ => keeps_ite
      (keeps_modify fun _ hs => memOk_foldGroup (memOk_foldl (fun _ _ ht => memOk_putBeat ht) hs)) (keeps_pure _))

theorem ends_execVxchg {_cont : Bool} {d a : BitVec 5} {s : State} (h : s.memOk = true) :
    EndsCanonical (execVxchg _cont d a s) :=
  ends_conclude h (keeps_bind keeps_vectorChecks fun _ => keeps_get_bind fun _ _ => keeps_bind
      (keeps_need _) fun _ => keeps_get_bind fun _ _ => keeps_ite (keeps_modify fun _ hs => memOk_foldGroup
      (memOk_foldl (fun _ _ ht => memOk_putBeat ht) hs)) (keeps_pure _))

theorem ends_execVzip {_cont : Bool} {d a b p : BitVec 5} {s : State} (h : s.memOk = true) :
    EndsCanonical (execVzip _cont d a b p s) :=
  ends_conclude h (keeps_bind keeps_vectorChecks fun _ => keeps_bind keeps_apart fun _ => keeps_get_bind fun _ _ =>
      keeps_ite (keeps_modify fun _ hs => memOk_putAll hs) (keeps_pure _))

theorem ends_execVunzip {_cont : Bool} {d a b p : BitVec 5} {s : State} (h : s.memOk = true) :
    EndsCanonical (execVunzip _cont d a b p s) :=
  ends_conclude h (keeps_bind keeps_vectorChecks fun _ => keeps_bind keeps_needActive fun _ => keeps_bind
      keeps_apart fun _ => keeps_get_bind fun _ _ => keeps_ite (keeps_modify fun _ hs => memOk_putAll hs)
      (keeps_pure _))

theorem ends_execVscget {_cont : Bool} {d a p : BitVec 5} {s : State} (h : s.memOk = true) :
    EndsCanonical (execVscget _cont d a p s) :=
  ends_conclude h (keeps_bind keeps_vectorChecks fun _ => keeps_modify fun _ hs => memOk_foldl
      (fun _ _ ht => ht) hs)

theorem ends_execVscset {_cont : Bool} {d a b p : BitVec 5} {s : State} (h : s.memOk = true) :
    EndsCanonical (execVscset _cont d a b p s) :=
  ends_conclude h (keeps_bind keeps_vectorChecks fun _ => keeps_modify fun _ hs => memOk_foldl
      (fun _ _ ht => memOk_putBeat ht) hs)

theorem ends_execVscnorm {_cont : Bool} {d a p : BitVec 5} {s : State} (h : s.memOk = true) :
    EndsCanonical (execVscnorm _cont d a p s) :=
  ends_conclude h (keeps_bind keeps_vectorChecks fun _ => keeps_modify fun _ hs => memOk_foldl
      (fun _ _ ht => memOk_putBeat ht) hs)

/-! ### Reductions -/

theorem ends_reduce {s : State} {types : Vt → Bool} {ops : Nat} {d a : BitVec 5} {sd : BitVec 1} {o : BitVec 3} {p :
    BitVec 5} {f : State → Vt → List Nat → Option Nat → Nat × List (Nat × Nat)} (h : s.memOk = true) :
    EndsCanonical (s.reduce types ops d a sd o p f) :=
  ends_conclude h (keeps_bind keeps_vectorChecks fun _ => keeps_bind (keeps_need _) fun _ => keeps_get_bind fun _ _
      => keeps_get_bind fun _ _ => keeps_ite (keeps_modify fun _ hs => memOk_foldHead (memOk_mergeFlags hs))
      (keeps_pure _))

/-! ### Selection -/

theorem ends_moveWhole {s : State} {d a p : BitVec 5} {f : State → List Nat → List (Nat × Nat)} (h :
    s.memOk = true) : EndsCanonical (s.moveWhole d a p f) :=
  ends_conclude h (keeps_bind keeps_vectorChecks fun _ => keeps_get_bind fun _ _ => keeps_bind
      (keeps_need _) fun _ => keeps_get_bind fun _ _ => keeps_ite (keeps_modify fun _ hs => memOk_writeElems hs)
      (keeps_pure _))

end Sys2Proof.Machine
end

section
/-!
PROOF. Every step keeps memory canonical: the dispatch, the convoy and the step.
-/

namespace Sys2Proof.Machine

open Sys2Proof

/-! ### The dispatch -/

theorem ends_exec {i : Instr} {s : State} (h : s.memOk = true) : EndsCanonical (exec i s) := by
  -- One goal for each row of the dispatch, in its order.
  unfold exec
  split
  iterate 30 · exact ends_result h
  iterate 8 · exact ends_loadTo h
  iterate 4 · exact ends_storeFrom h
  · exact ends_execSdr h
  · exact ends_execAmo h
  iterate 6 · exact ends_branchIf h
  · exact ends_next (memOk_retire (memOk_wr h))
  · exact ends_ite (ends_trapNow h) (ends_next (memOk_retire (memOk_wr h)))
  · exact ends_execLnest h
  · exact ends_ite (ends_next (memOk_fillBody (memOk_modNest (memOk_retire h)))) (ends_trapNow h)
  · exact ends_execLexit h
  iterate 4 · exact ends_csrAccess h
  · exact ends_trapNow h
  · exact ends_execEret h
  · exact ends_execNap h
  · exact ends_execWake h
  · exact ends_ite (ends_trapNow h) (ends_next (memOk_finish h))
  · exact ends_execHalt h
  · exact ends_trapNow (memOk_fireWhere h)
  · exact ends_execIfence h
  · exact ends_ite (ends_trapNow h) (ends_ite (ends_trapNow h) (ends_next (memOk_enterHandler h)))
  · exact ends_execGjoin h
  · exact ends_execGleave h
  · exact ends_execBarw h
  · exact ends_execBararv h
  · exact ends_execBarrlx h
  · exact ends_execBarwait h
  · exact ends_execPhend h
  · exact ends_execGsize h
  · exact ends_result h
  · exact ends_execSpawn h
  · exact ends_execJdone h
  · exact ends_execJstat h
  · exact ends_execJdeadl h
  · exact ends_next (memOk_finish (memOk_wr h))
  · exact ends_execChbind h
  · exact ends_execChpub h
  · exact ends_execChread h
  · exact ends_execFence h
  · exact ends_execFencee h
  · exact ends_next (memOk_finish h)
  · exact ends_execWinpub h
  · exact ends_execVcfg h
  · exact ends_execSetvl h
  · exact ends_execVkeep h
  · exact ends_execVdead h
  · exact ends_execVlmaxr h
  · exact ends_execVindex h
  iterate 6 · exact ends_predOp h
  · exact ends_predWhole h
  · exact ends_execPpopc h
  · exact ends_predWhole h
  · exact ends_conclude h (keeps_bind keeps_vectorGate fun _ => keeps_modify fun _ hs => hs)
  · exact ends_execPld h
  · exact ends_execPst h
  · exact ends_vload h
  · exact ends_execVldff h
  · exact ends_vload h
  · exact ends_vload h
  iterate 4 · exact ends_vstore h
  · exact ends_execVldbp h
  · exact ends_execVstbp h
  · exact ends_remote h
  · exact ends_remote h
  · exact ends_execVappend h
  · exact ends_execVqpop h
  iterate 20 · exact ends_intOp h
  iterate 6 · exact ends_bitOp h
  iterate 6 · exact ends_intOp h
  · exact ends_compare h
  · exact ends_compare h
  iterate 10 · exact ends_binary h
  · exact ends_elemWise h
  · exact ends_unary h
  · exact ends_unary h
  iterate 12 · exact ends_floatOp h
  iterate 8 · exact ends_floatOp3 h
  iterate 3 · exact ends_unary h
  iterate 3 · exact ends_conv h
  iterate 5 · exact ends_unary h
  · exact ends_execVmovs h
  · exact ends_execVmovx h
  · exact ends_execVins h
  · exact ends_elemWise h
  iterate 5 · exact ends_moveWhole h
  iterate 3 · exact ends_reduce h
  iterate 6 · exact ends_binary h
  · exact ends_elemWise h
  · exact ends_elemWise h
  · exact ends_unary h
  · exact ends_binary h
  · exact ends_binary h
  · exact ends_unary h
  · exact ends_unary h
  · exact ends_fly h
  · exact ends_fly h
  · exact ends_reorder h
  · exact ends_elemWise h
  · exact ends_execVbgath h
  iterate 3 · exact ends_reorder h
  · exact ends_execVgold h
  · exact ends_execVllrpk h
  · exact ends_execVperm h
  · exact ends_execVpermb h
  · exact ends_execVxchg h
  · exact ends_execVzip h
  · exact ends_execVunzip h
  · exact ends_execVscget h
  · exact ends_execVscset h
  · exact ends_execVscnorm h
  · exact ends_execVgjstep h
  · exact ends_execVbsolve h
  · exact ends_execVnsstep h
  · exact ends_execVwstag h
  · exact ends_execMma h
  · exact ends_execMmas h
  · exact ends_execMzero h
  · exact ends_execMmaComplete h
  · exact ends_execAtov h
  · exact ends_execVtoa h
  · exact ends_execAld h
  · exact ends_execAst h
  · exact ends_execAsave h
  · exact ends_execArst h
  · exact ends_execCbld h
  · exact ends_execCbfill h
  · exact ends_execEcpy h
  iterate 3 · exact ends_codingIssue h
  · exact ends_execEdge h
  · exact ends_execEwait h
  · exact ends_execEstat h
  · exact ends_execEcancel h
  · exact ends_execVamo h
  · exact ends_execWdecl h
  · exact ends_execWupd h
  · exact ends_execWmerge h
  · exact ends_execWfree h
  · exact ends_execRinst h
  · exact ends_execRcall h
  · exact ends_execRcallv h
  · exact ends_execRfree h
  · exact ends_execTwset h
  · exact ends_execTwclr h
  · exact ends_execTwchk h
  · exact ends_execTwconf h
  · exact ends_execTwread h
  · exact ends_execSliceCall h
  · exact ends_execRegisterWrite h
  · exact ends_execFrameAssign h
  · exact ends_execFrameRelease h
  · exact ends_ite (ends_next h) (ends_ite (ends_next h) (ends_next h))
  · exact ends_execReleaseComplete h
  · exact ends_execMapWrite h
  · exact ends_ite (ends_next h) (ends_ite (ends_next h) (ends_next h))
  · exact ends_ite (ends_next h) (ends_ite (ends_next h) (ends_next h))
  · exact ends_execRemovalComplete h
  · exact ends_next (memOk_modVf (memOk_ite h h))
  · exact ends_ite (ends_next h) (ends_next h)
  · exact ends_execMigrationComplete h
  · exact ends_next h
  · exact ends_execPageWalk h
  · exact ends_next (memOk_onSlot (fun _ x => memOk_ite (memOk_csrSet x) x) h)
  · exact ends_execS1invComplete h
  · exact ends_next h
  · exact ends_next h
  · exact ends_execL2Fill h
  · exact ends_execL2Writeback h
  · exact ends_execIngestSection h
  · exact ends_execSlotClose h
  · exact ends_ite (ends_next h) (ends_ite (ends_next h) (ends_next h))
  · exact ends_execFlctlWrite h
  · exact ends_execEgressFetch h
  · exact ends_execEgressTransmit h
  · exact ends_execEngineStart h
  · exact ends_execCopyComplete h
  · exact ends_execCodingComplete h
  · exact ends_execEngineStop h
  · exact ends_next h
  · exact ends_next (memOk_ite h h)
  · exact ends_next (memOk_modThread _ _ h)
  · exact ends_next (memOk_grantChanged (memOk_modThread _ _ h))
  · exact ends_next (memOk_grantChanged (memOk_modThread _ _ h))
  · exact ends_next (memOk_writeWseq h)
  · exact ends_next h
  · exact ends_next (memOk_setPower h)
  · exact ends_execThermalTrip h
  · exact ends_next (memOk_modThread _ _ h)
  · exact ends_execLaunch h
  · exact ends_execMap h
  · exact ends_execUnmap h
  · exact ends_execCopy h
  · exact ends_execWatch h
  · exact ends_execNotify h
  · exact ends_execAttest h
  · exact ends_execFunctionReset h
  · exact ends_execPageResponse h
  · exact ends_next (memOk_ite h h)
  · exact ends_execHostAccess h
  · exact ends_ite (ends_next h) (ends_next (memOk_answer (memOk_ite h h)))
  · exact ends_execBackInvalidateResponse h
  · exact ends_execTwinInbound h
  · exact ends_execTrainArrival h
  · exact ends_execTrainAck h
  · exact ends_execDispatch h
  · exact ends_next (memOk_ite (memOk_askForced h) h)
  · exact ends_next (memOk_ite (memOk_abandon h) h)
  · exact ends_next (memOk_ite (memOk_askForced h) h)
  · exact ends_next (memOk_ite (memOk_dropWindow h) h)
  · exact ends_execForcedStop h
  · exact ends_next (memOk_ite (memOk_modThread _ _ h) h)
  · exact ends_execDeadlineReached h
  · exact ends_execAbandonStop h
  · exact ends_execMarkerWrite h
  · exact ends_next (memOk_endWait h)
  · exact ends_next (memOk_endWait h)
  · exact ends_execBarwaitResume h
  iterate 7 · exact ends_next (memOk_endWait h)
  · exact ends_ite (ends_next (memOk_detachFlight (memOk_modThread _ _ h))) (ends_next h)
  · exact ends_next (memOk_foldl (fun _ _ ht => memOk_modThread _ _ ht) h)
  · exact ends_execDbgtWrite h
  · exact ends_next (memOk_foldl (fun _ _ ht => ht) h)
  · exact ends_execTrctlWrite h
  · exact ends_execTriggerFire h
  · exact ends_execTriggerArrival h
  · exact ends_execTriggerAction h
  · exact ends_next memOk_reset
  · exact ends_execBringupComplete h
  · exact ends_execStoreBufferDrain h
  · exact ends_execCancelledCommandStop h
  · exact ends_ite (ends_next (memOk_resumeFlight (memOk_modThread _ _ h))) (ends_next h)
  · exact ends_next h
  · exact ends_next h
  · exact ends_execUncorrectableError h
  · exact ends_next (memOk_ite (memOk_trapAt h) h)
  · exact ends_execFetchFault h
  · exact ends_execUnknownOpEntry h

/-! ### Convoys -/

theorem memOk_keepTrap {old new : State} (hnew : new.memOk = true) :
    (keepTrap old new).memOk = true := by
  unfold keepTrap
  split
  · exact hnew
  · split <;> exact memOk_ite hnew hnew

theorem ends_runPass {n : Nat} {s : State} {ms : List (Instr × W32)} (h : s.memOk = true) :
    EndsCanonical (runPass n s ms) := by
  induction ms generalizing n s with
  | nil => exact ends_next h
  | cons m r ih =>
    unfold runPass
    refine ends_ite (ends_next h) ?_
    have he : EndsCanonical
        (exec m.1 (s.modCv (fun c => { c with mbr := BitVec.ofNat 2 n, word := m.2, trap := none }))) := ends_exec h
    split
    · next t e => exact ih (memOk_keepTrap (he t e))
    · exact ends_fault _
    · exact ends_refused _

theorem memOk_outside {start s : State} (hs : s.memOk = true) :
    (start.outside s).memOk = true :=
  hs

theorem memOk_appendFaults {s : State} {t : TrapInfo} (h : s.memOk = true) : (s.appendFaults t).1.memOk = true := by
  have hf := foldl_keeps (fun u : State × List QResult => u.1.memOk = true) (fun (u : State × List QResult) b =>
    ((u.1.appendBatch s.curPart s.th.id.vf s.th.tr.asid s.cur b).1,
      u.2 ++ [(u.1.appendBatch s.curPart s.th.id.vf s.th.tr.asid s.cur b).2]))
    (fun _ _ hu => memOk_appendBatch hu) s.cv.batches (s, []) h
  unfold State.appendFaults
  dsimp only
  split
  · exact h
  · exact hf

theorem memOk_endConvoy {start s : State} (hs : s.memOk = true) :
    (endConvoy start s).memOk = true := by
  unfold endConvoy
  dsimp only
  split
  · refine memOk_ite (memOk_modCv ?_) (memOk_modCv (memOk_takeTrap (memOk_modCv (memOk_outside hs))))
    refine memOk_takeTrapWith (memOk_modCv (memOk_setPred ?_))
    split
    · exact memOk_appendFaults hs
    · exact hs
  · exact memOk_ite (memOk_modCv (memOk_modHw (memOk_outside hs))) (memOk_modCv (memOk_retire hs))

theorem ends_runConvoy {fuel : Nat} {start : State} {ms : List (Instr × W32)} {withheld : BitVec 4096}
    (h : start.memOk = true) : EndsCanonical (runConvoy fuel start ms withheld) := by
  induction fuel generalizing withheld with
  | zero =>
    unfold runConvoy
    have hp : EndsCanonical
        (runPass 0 (start.modCv (fun c => { c with withheld := withheld, faulted := 0 })) ms) := ends_runPass h
    split
    · next t e => exact ends_next (memOk_endConvoy (hp t e))
    · exact ends_fault _
    · exact ends_refused _
  | succ fuel ih =>
    unfold runConvoy
    have hp : EndsCanonical
        (runPass 0 (start.modCv (fun c => { c with withheld := withheld, faulted := 0 })) ms) := ends_runPass h
    split
    · next t e => exact ends_ite (ends_next (memOk_endConvoy (hp t e))) ih
    · exact ends_fault _
    · exact ends_refused _

theorem ends_perform {s : State} {ms : List (Instr × W32)} (h : s.memOk = true) : EndsCanonical (perform s ms) := by
  unfold perform
  split
  · exact ends_exec h
  · exact ends_runConvoy h

theorem memOk_atIssue {s : State} {ms : List (Instr × W32)} (h : s.memOk = true) : (s.atIssue ms).memOk = true :=
  memOk_ite h (memOk_modHw (memOk_addFlights (memOk_traceConvoy (memOk_matchConvoy (memOk_pumpUntil
      (memOk_passTime (memOk_markFlights h)))))))

theorem memOk_convoyEnded {s : State} {slot : Nat} (h : s.memOk = true) : (s.convoyEnded slot).memOk = true :=
  memOk_ite (memOk_modThread _ _ (memOk_markFlights (memOk_arrayTaken h))) h

theorem ends_afterIssue {slot : Nat} {o : Host.Outcome State Fault Refusal} (ho : EndsCanonical o) :
    EndsCanonical (afterIssue slot o) := by
  cases o with
  | next s => exact ends_next (memOk_convoyEnded (ho s rfl))
  | fault f => exact ends_fault f
  | refused f => exact ends_refused f

theorem ends_issue {s : State} {ms : List (Instr × W32)} (h : s.memOk = true) : EndsCanonical (issue s ms) :=
  ends_afterIssue (ends_perform (memOk_atIssue h))

theorem memOk_recordStop {s start : State} (hs : s.memOk = true) :
    (s.recordStop start).1.memOk = true := by
  unfold State.recordStop
  dsimp only
  split <;> exact hs

theorem memOk_endPartWay {start s : State} {r : StopReq} (hs : s.memOk = true) :
    (endPartWay start s r).memOk = true := by
  unfold endPartWay
  dsimp only
  split
  · refine memOk_ite (memOk_modCv ?_) (memOk_modCv (memOk_takeTrap (memOk_modCv (memOk_outside hs))))
    refine memOk_takeTrapWith (memOk_markFlights (memOk_modCv (memOk_recordStop ?_)))
    split
    · split
      · exact memOk_appendFaults hs
      · exact hs
    · exact hs
  · refine memOk_ite (memOk_modCv (memOk_land (memOk_outside hs))) (memOk_modCv (memOk_land ?_))
    refine memOk_modCv (memOk_recordStop ?_)
    split
    · split
      · exact memOk_appendFaults hs
      · exact hs
    · exact hs

theorem ends_runPartWay {fuel : Nat} {start : State} {ms : List (Instr × W32)} {r : StopReq}
    {full : Host.Outcome State Fault Refusal} {withheld : BitVec 4096} (hfull : EndsCanonical full)
    (h : start.memOk = true) : EndsCanonical (runPartWay fuel start ms r full withheld) := by
  induction fuel generalizing withheld with
  | zero =>
    unfold runPartWay
    have hp : EndsCanonical
        (runPass 0 (start.modCv (fun c => { c with withheld := withheld, faulted := 0 })) ms) := ends_runPass h
    split
    · next t e => exact ends_afterIssue (ends_next (memOk_endPartWay (hp t e)))
    · exact ends_fault _
    · exact ends_refused _
  | succ fuel ih =>
    unfold runPartWay
    have hp : EndsCanonical
        (runPass 0 (start.modCv (fun c => { c with withheld := withheld, faulted := 0 })) ms) := ends_runPass h
    split
    · next t e =>
      exact ends_ite hfull (ends_ite (ends_afterIssue (ends_next (memOk_endPartWay (hp t e)))) ih)
    · exact ends_fault _
    · exact ends_refused _

theorem ends_stopProduct {i : Instr} {w : W32} {start : State} {r : StopReq} (h : start.memOk = true) :
    EndsCanonical (stopProduct i w start r) := by
  unfold stopProduct
  dsimp only
  split
  · next e =>
      split
      · exact ends_next (memOk_modCv (memOk_takeTrap h))
      · exact ends_ite (ends_next (memOk_land h)) (ends_ite (ends_next (memOk_land (memOk_modCv
            (ends_exec h _ e)))) (ends_next (memOk_retire (memOk_modCv (ends_exec h _ e)))))
  · exact ends_fault _
  · exact ends_refused _

theorem ends_issueCut {s : State} {r : StopReq} {ms : List (Instr × W32)} (h : s.memOk = true) :
    EndsCanonical (issueCut s r ms) := by
  have hplain : EndsCanonical (issue (s.modHw (fun h => { h with cut := [] })) ms) := ends_issue h
  unfold issueCut
  dsimp only
  refine ends_ite hplain ?_
  split
  · refine ends_ite (ends_afterIssue (ends_stopProduct (memOk_atIssue (memOk_ite h h)))) ?_
    exact ends_ite (ends_runPartWay hplain (memOk_atIssue (memOk_ite h h))) hplain
  · exact ends_ite (ends_runPartWay hplain (memOk_atIssue (memOk_ite h h))) hplain

theorem memOk_refuseConvoy {s : State} {cause mbr n : Nat} {val : W64} (h : s.memOk = true) :
    (refuseConvoy s cause mbr n val).memOk = true :=
  memOk_modCv (memOk_takeTrapWith h)

theorem ends_runFetched {s : State} (h : s.memOk = true) : EndsCanonical (runFetched s) := by
  unfold runFetched
  dsimp only
  split
  · next e =>
      refine ends_next (memOk_modCv (memOk_fetchTrap (memOk_of_snd e ?_)))
      split
      · exact memOk_modSc (memOk_fillBody h)
      · exact memOk_fetchConvoy (memOk_fillBody h)
  · next e =>
      split
      · refine ends_next (memOk_refuseConvoy (memOk_endWait (memOk_of_snd e ?_)))
        split
        · exact memOk_modSc (memOk_fillBody h)
        · exact memOk_fetchConvoy (memOk_fillBody h)
      · split
        · refine ends_next (memOk_refuseConvoy (memOk_endWait (memOk_of_snd e ?_)))
          split
          · exact memOk_modSc (memOk_fillBody h)
          · exact memOk_fetchConvoy (memOk_fillBody h)
        · split
          · refine ends_issueCut (memOk_endWait (memOk_of_snd e ?_))
            split
            · exact memOk_modSc (memOk_fillBody h)
            · exact memOk_fetchConvoy (memOk_fillBody h)
          · refine ends_issue (memOk_modHw (memOk_endWait (memOk_of_snd e ?_)))
            split
            · exact memOk_modSc (memOk_fillBody h)
            · exact memOk_fetchConvoy (memOk_fillBody h)

theorem ends_runAtPc {s : State} (h : s.memOk = true) : EndsCanonical (runAtPc s) := by
  unfold runAtPc
  split
  · exact ends_issue h
  · exact ends_runFetched h

/-! ### Running a thread -/

theorem ends_pendingActs {s : State} (h : s.memOk = true) : ∀ f ∈ s.pendingActs, EndsCanonical (f s) := by
  unfold State.pendingActs
  simp only [List.forall_mem_append, List.forall_mem_map, List.forall_mem_flatMap, List.forall_mem_singleton]
  refine ⟨⟨⟨⟨⟨⟨⟨⟨⟨⟨⟨⟨⟨⟨⟨⟨?_, ?_⟩, ?_⟩, ?_⟩, ?_⟩, ?_⟩, ?_⟩, ?_⟩, ?_⟩, ?_⟩, ?_⟩, ?_⟩, ?_⟩, ?_⟩, ?_⟩, ?_⟩, ?_⟩
  · exact fun _ _ => ends_execBackInvalidateResponse h
  · exact fun _ _ => ends_execAbandonStop h
  · exact fun _ _ => ends_execForcedStop h
  · exact fun _ _ => ends_execMmaComplete h
  · exact fun _ _ => ends_execStoreBufferDrain h
  · exact fun _ _ _ _ => ends_execTrainArrival h
  · exact fun _ _ _ _ => ends_execTrainAck h
  · exact fun _ _ => ends_execCancelledCommandStop h
  · exact fun _ _ => ends_execEngineStop h
  · exact fun _ _ => ends_execEngineStart h
  · exact fun _ _ => ends_execCopyComplete h
  · exact fun _ _ => ends_execCodingComplete h
  · simpa using ⟨ends_execReleaseComplete h, ends_execRemovalComplete h⟩
  · exact fun _ _ => ends_execS1invComplete h
  · exact fun _ _ _ _ => ends_execMarkerWrite h
  · exact fun _ _ => ends_execDispatch h
  · exact ends_next (memOk_bootNext h)

theorem canonical_firstAct {s : State} {l : List (State → Host.Outcome State Fault Refusal)}
    (hl : ∀ f ∈ l, EndsCanonical (f s)) : SomeCanonical (firstAct s l) := by
  induction l with
  | nil => exact canonical_none
  | cons f r ih =>
    have hr := ih fun g hg => hl g (List.mem_cons_of_mem _ hg)
    unfold firstAct
    split
    · next t e =>
      split
      · exact hr
      · exact canonical_some (hl f List.mem_cons_self t e)
    · exact hr

theorem memOk_background {s : State} (h : s.memOk = true) : s.background.memOk = true := by
  unfold State.background
  split
  · next t e => exact canonical_firstAct (ends_pendingActs h) t e
  · split
    · exact memOk_switchTo h
    · exact h

theorem ends_runThread {s : State} (h : s.memOk = true) : EndsCanonical (runThread s) := by
  unfold runThread
  refine ends_ite ?_ (ends_next (memOk_background h))
  dsimp only
  split
  · exact ends_next (memOk_ite (memOk_background h) (memOk_landFirst h))
  · refine ends_ite (ends_next (memOk_arrayDone h)) ?_
    split
    · next e =>
        exact ends_next (memOk_ite (memOk_background (ends_runAtPc h _ e)) (ends_runAtPc h _ e))
    · exact ends_runAtPc h

theorem ends_runEvent {i : Instr} {s : State} (h : s.memOk = true) : EndsCanonical (runEvent i s) := by
  unfold runEvent
  refine ends_ite ?_ (ends_exec h)
  split
  · exact ends_exec h
  · exact ends_fault _

theorem ends_runSlot {s : State} (h : s.memOk = true) : EndsCanonical (runSlot s) :=
  ends_ite (ends_fault _) (ends_runThread h)

/-! ### The step -/

theorem ends_step {s : State} (h : s.memOk = true) : EndsCanonical (step s) := by
  unfold step
  split
  · exact ends_runEvent h
  · exact ends_runSlot (memOk_switchTo h)
  · exact ends_runSlot h

/-- Settles O57: every operation that an event or an instruction is made of keeps memory's form, so every row of the
dispatch does, and so does every step. -/
theorem memoryStaysCanonical : Obligations.MemoryStaysCanonical := fun s t h hstep => ends_step (s := s) h t hstep

end Sys2Proof.Machine
end

section
/-!
PROOF. Chain slots (R343, R344): the slot word of s[a], and what CHBIND, CHPUB and CHREAD do with it.
-/

namespace Sys2Proof.Machine

open Sys2Proof

section ChainSlots

variable {s u : State} {d a b : BitVec 5} {x : Nat}

/-! ### The slot word -/

/-- The word of s[a] is a slot and the two flags above it. -/
theorem slotWord_ok (hx : (s.rd a).toNat = x) (hslot : x - bitsAt 2 16 x * 2 ^ 16 < 1024) :
    slotWord a s = (.ok (x % 1024, x.testBit 16, x.testBit 17), s) := by
  subst hx
  simp only [slotWord]
  rw [M.get_bind, need_bind, if_pos (decide_eq_true hslot)]
  rfl

theorem slotWord_plain (hx : (s.rd a).toNat = x) (hslot : x < 1024) :
    slotWord a s = (.ok (x, false, false), s) := by
  have h16 : x.testBit 16 = false := Nat.testBit_lt_two_pow (by omega)
  have h17 : x.testBit 17 = false := Nat.testBit_lt_two_pow (by omega)
  rw [slotWord_ok hx (by omega), h16, h17, Nat.mod_eq_of_lt hslot]

theorem slotWord_flagged (hx : (s.rd a).toNat = x) (hlo : 2 ^ 16 ≤ x) (hhi : x < 2 ^ 16 + 1024) :
    slotWord a s = (.ok (x % 1024, true, false), s) := by
  have hb : bitsAt 2 16 x = 1 := by
    unfold bitsAt
    omega
  have h16 : x.testBit 16 = true := by
    rw [Nat.testBit_eq_decide_div_mod_eq]
    exact decide_eq_true (by omega)
  have h17 : x.testBit 17 = false := Nat.testBit_lt_two_pow (by omega)
  rw [slotWord_ok hx (by omega), h16, h17]

/-! ### The three instructions -/

theorem chbind_binds (hmode : s.th.sc.mode ≠ .S) (hvec : s.th.tr.absent = false)
    (hword : slotWord a s = (.ok (x, false, false), s)) :
    exec (.chbind d a b) s = (((s.modVec (fun v =>
      { v with chSlot := BitVec.ofNat 10 x, chBound := true, chFinal := false, vcur := s.rd b,
               vl := 0 })).dirtyCfg).wr d (s.chain x).mark).retires := by
  refine State.conclude_ok ?_
  rw [M.bind_ok _ _ s s () (vectorGate_ok hmode hvec), M.bind_ok _ _ s s _ hword]
  rfl

theorem chbind_unbinds (hmode : s.th.sc.mode ≠ .S) (hvec : s.th.tr.absent = false)
    (hword : slotWord a s = (.ok (x, true, false), s)) :
    exec (.chbind d a 0) s = (((s.modVec (fun v =>
      { v with chSlot := 0, chBound := false, chFinal := false })).dirtyCfg).wr d
        (s.th.vec.vcur + s.th.vec.vl.setWidth 64)).retires := by
  refine State.conclude_ok ?_
  rw [M.bind_ok _ _ s s () (vectorGate_ok hmode hvec), M.bind_ok _ _ s s _ hword]
  rfl

theorem chpub_publishes {fin reset : Bool} (hword : slotWord a s = (.ok (x, fin, reset), s)) (hclear : s.clear = true)
    (hdrain : s.drainAll = u) :
    exec (.chpub d a b) s =
      (let c := (u.chain x).publish reset fin (s.rd b)
       ((u.modPart u.curPart (fun p => { p with chains := tset Chain.reset p.chains x c })).wr d c.mark).retires) := by
  subst hdrain
  exact State.conclude_ok ((M.bind_ok _ _ s s _ hword).trans (M.bind_ok _ _ s _ () (release_ok hclear)))

theorem chread_reads {flag : Bool} (hword : slotWord a s = (.ok (x, flag, false), s)) :
    exec (.chread d a) s =
      (s.wr d (if flag then (if (s.chain x).fin then 1 else 0) else (s.chain x).mark)).retires := by
  refine State.conclude_ok ?_
  rw [M.bind_ok _ _ s s _ hword]
  rfl

end ChainSlots

/-- Settles O13: each form is one instruction at the slot word it names. -/
theorem chainSlots : Obligations.ChainSlots := by
  intro s d a b x
  refine ⟨fun hmode hvec hx => ?bind, fun hmode hvec hlo hhi => ?unbind, fun u hx hclear hdrain => ?publish,
    fun hx => ?mark, fun hlo hhi => ?final⟩
  case bind => exact chbind_binds hmode hvec (slotWord_plain rfl hx)
  case unbind => exact chbind_unbinds hmode hvec (slotWord_flagged rfl hlo hhi)
  case publish => exact chpub_publishes (slotWord_ok rfl hx) hclear hdrain
  case mark => exact chread_reads (slotWord_plain rfl hx)
  case final => exact chread_reads (slotWord_flagged rfl hlo hhi)

end Sys2Proof.Machine
end

section
/-!
PROOF. Predicate instructions (R356 to R359): how each form ends where the vector gate passes.
-/

namespace Sys2Proof.Machine

open Sys2Proof

section Predicates

variable {s u v : State} {c : Bool} {d a p : BitVec 5} {ps : List (Nat × W64 × Phys)}
  (hmode : s.th.sc.mode ≠ .S) (hvec : s.th.tr.absent = false)

include hmode hvec

/-- Behind the vector gate stands the rest of the computation. -/
theorem State.conclude_gate {m : M Unit} (h : m s = (.ok (), u)) :
    s.conclude (do vectorGate; m) = u.retires :=
  State.conclude_ok ((M.bind_ok _ _ s s () (vectorGate_ok hmode hvec)).trans h)

theorem State.predOp_ok (f : Nat → Bool) :
    s.predOp d p f = (s.writePred (s.predNo d) ((s.todo p).map (fun e => (e, f e)))).retires :=
  State.conclude_gate hmode hvec rfl

/-- An operation that is not element-wise is performed in a whole pass (R401, log entries 89 and 90). -/
theorem State.predWhole_ok (f : Nat → Bool) (hwhole : s.wholePass = true) :
    s.predWhole d p f = (s.writePred (s.predNo d) ((s.selected p).map (fun e => (e, f e)))).retires := by
  refine State.conclude_gate hmode hvec ?_
  rw [if_pos hwhole]
  rfl

theorem State.predWhole_part (f : Nat → Bool) (hpart : s.wholePass = false) : s.predWhole d p f = s.retires := by
  refine State.conclude_gate hmode hvec ?_
  rw [if_neg (by simp [hpart])]
  rfl

theorem ppopc_whole (hwhole : s.wholePass = true) :
    exec (.ppopc c d a p) s =
      (s.wrLate d (BitVec.ofNat 64 ((s.selected p).filter (s.pbit a)).length)).retires := by
  refine State.conclude_gate hmode hvec ?_
  rw [if_pos hwhole]
  rfl

theorem ppopc_part (hpart : s.wholePass = false) : exec (.ppopc c d a p) s = s.retires := by
  refine State.conclude_gate hmode hvec ?_
  rw [if_neg (by simp [hpart])]
  rfl

theorem pld_loads {k : BitVec 2} (hbeats : wholeBeats .load (s.rd a) 8 s = (.ok ps, u))
    (htouch : u.touchLines (ps.map (·.2.2)) (u.loadAlloc 512) false = v) (hclean : v.cleanAt 64 ps = true) :
    exec (.pld c d a k) s = (v.setPred (d.toNat + 32 * k.toNat) (BitVec.ofNat 4096
      (ps.foldl (fun x b => x + v.seen b.2.2 64 * 2 ^ (512 * b.1)) 0))).retires := by
  subst htouch
  refine State.conclude_gate hmode hvec ?_
  rw [M.bind_ok _ _ s u ps hbeats, M.modify_bind, M.bind_ok _ _ _ _ _ (readPlaces_ok hclean), List.foldl_map]
  rfl

theorem pst_stores {k : BitVec 2} (hbeats : wholeBeats .store (s.rd a) 8 s = (.ok ps, u))
    (hroom : u.roomAll ps = true) :
    exec (.pst c d a k) s = (u.pushEntries (ps.map (fun b =>
      { beat := (0, b.1), kid := b.2.2.kid,
        bytes := writesOf b.2.2.loc (((predBytes (s.pred (d.toNat + 32 * k.toNat))).drop (64 * b.1)).take 64) }))
      (u.bigStore 512) false).retires := by
  refine State.conclude_gate hmode hvec ?_
  rw [M.bind_ok _ _ s u ps hbeats, M.bind_ok _ _ u u () (storeRoom_ok hroom)]
  rfl

end Predicates

/-- Settles O15: six forms are one element-wise operation, PFIRST, PSCAN and PPOPC need a whole pass, and PLD and PST
go on from the places of their beats. -/
theorem predicates : Obligations.Predicates := by
  refine ⟨fun s c d a b p hmode hvec => ?operations, fun s u c d a k ps hmode hvec =>
    ⟨fun hbeats hclean => pld_loads hmode hvec hbeats rfl hclean, fun hbeats hroom =>
      pst_stores hmode hvec hbeats hroom⟩⟩
  refine ⟨State.predOp_ok hmode hvec _, State.predOp_ok hmode hvec _, State.predOp_ok hmode hvec _,
    State.predOp_ok hmode hvec _, State.predOp_ok hmode hvec _, State.predOp_ok hmode hvec _,
    State.predWhole_ok hmode hvec _, State.predWhole_ok hmode hvec _, ppopc_whole hmode hvec,
    fun hpart => ⟨State.predWhole_part hmode hvec _ hpart, State.predWhole_part hmode hvec _ hpart,
      ppopc_part hmode hvec hpart⟩, fun k => State.conclude_gate hmode hvec rfl⟩

end Sys2Proof.Machine
end

section
/-!
PROOF. The watch unit (R382 to R391): TWCHK and TWCONF over any check of an element, then TWSET, TWCLR and TWREAD at
the control word they read.
-/

namespace Sys2Proof.Machine

open Sys2Proof

section WatchUnit

variable {s t u : State} {d a b p : BitVec 5} {x : Nat}

/-! ### Checks and confirmations of the active elements (R382, R384) -/

section Elements

variable {f : State → Nat → Nat → Nat × Bool × State} {e : Nat} {l : List Nat}
  (htype : s.vecOk [d, a, b] (fun t => t.isIn [0, 1] && decide (t.sewE = 3)) = true)
  (ha : rangesMeet d.toNat s.vt.gm a.toNat s.vt.gm = false)
  (hb : rangesMeet d.toNat s.vt.gm b.toNat s.vt.gm = false)
  (hfree : s.rangesHeld (some s.cur) (s.forkRanges u s.th.id.vf.toNat) = false)

include htype ha hb hfree

/-- Where no TRAP entry won, the results stand and nothing else follows. -/
theorem watchElems_quiet (hall : s.watchAll f d a b (s.actives p) = ([], u)) :
    watchElems f d a b p s = (.ok (), u) := by
  simp only [watchElems]
  rw [M.bind_ok _ _ s s _ (vectorChecks_ok htype), need_bind, if_pos (by simp [ha, hb]), M.get_bind]
  simp [hall, hfree]

/-- The winners go to the predicate and the first of them to the trap (R382). -/
theorem watchElems_wins (hall : s.watchAll f d a b (s.actives p) = (e :: l, u)) :
    watchElems f d a b p s =
      (.error (.trap { plainTrap Cause.twatch (BitVec.ofNat 64 (e + (l.length + 1) * 2 ^ 16)) with
        next := true, pfw := true }), u.setPred 95 (maskOf (e :: l))) := by
  simp only [watchElems]
  rw [M.bind_ok _ _ s s _ (vectorChecks_ok htype), need_bind, if_pos (by simp [ha, hb]), M.get_bind]
  simp [hall, hfree]

end Elements

/-! ### TWSET (R389), TWCLR (R390) and TWREAD (R391) -/

/-- A control word has no reserved bit set. -/
theorem controlWord_ok {m : Nat} (hx : (s.rd b).toNat = x) (hm : x &&& m = x) :
    controlWord b m s = (.ok x, s) := by
  subst hx
  simp only [controlWord]
  rw [M.get_bind, need_bind, if_pos (decide_eq_true hm)]
  rfl

/-- What TWSET does with the control word and the image it has read. -/
def State.watchSet (t : State) (d : BitVec 5) (vf q x : Nat) (image : BitVec 256) : State :=
  if (t.vf vf).wsCount.toNat ≤ q then t.wr d 1
  else if !x.testBit 20 && !(t.seq vf q).inuse then t.wr d 2
  else if !x.testBit 21 && !entryOk image then t.wr d 3
  else if !x.testBit 20 && !(t.seq vf q).drafts.isEmpty then t.wr d 4
  else
    let t1 := if x.testBit 20 then t.modSeq vf q (fun _ => Seq.init) else t
    let t2 := if x.testBit 21 then t1
      else t1.modSeq vf q (fun y => { y with entries := tset 0 y.entries (bitsAt 3 16 x) image })
    t2.wr d 0

/-- SKIP reads no image (R389). -/
theorem twset_ok {bs : List Byte} (hx : (s.rd b).toNat = x) (hm : x &&& 0x37FFFF = x)
    (himage : if x.testBit 21 then t = s ∧ bs = [] else loadWide (s.rd a) 32 32 s = (.ok bs, t)) :
    exec (.twset d a b) s =
      (t.watchSet d t.th.id.vf.toNat (x % 2 ^ 16) x (BitVec.ofNat 256 (leNat bs))).retires := by
  refine State.conclude_ok ((M.bind_ok _ _ s s x (controlWord_ok hx hm)).trans ?_)
  dsimp only
  split at himage
  case isTrue hskip =>
    obtain ⟨rfl, rfl⟩ := himage
    rw [if_pos hskip, M.pure_bind, M.get_bind]
    simp only [M.ite_run, M.modify_run]
    dsimp only [State.watchSet]
    split_ifs <;> rfl
  case isFalse hskip =>
    rw [if_neg hskip, M.bind_ok _ _ s t bs himage, M.get_bind]
    simp only [M.ite_run, M.modify_run]
    dsimp only [State.watchSet]
    split_ifs <;> rfl

/-- What TWCLR does with its control word. -/
def State.watchClear (s : State) (d : BitVec 5) (vf q x : Nat) : State :=
  if (s.vf vf).wsCount.toNat ≤ q then s.wr d 1
  else if !(s.seq vf q).inuse then s.wr d 2
  else if x.testBit 20 then (s.modSeq vf q (fun _ => Seq.reset)).wr d 0
  else if !(s.seq vf q).drafts.isEmpty then s.wr d 4
  else (s.modSeq vf q (fun y => { y with entries := tset 0 y.entries (bitsAt 3 16 x) 0 })).wr d 0

theorem twclr_ok (hx : (s.rd b).toNat = x) (hm : x &&& 0x17FFFF = x)
    (hall : x.testBit 20 = false ∨ bitsAt 3 16 x = 0) : exec (.twclr d b) s = (s.watchClear d s.th.id.vf.toNat (x % 2 ^ 16) x).retires := by
  refine State.conclude_ok ((M.bind_ok _ _ s s x (controlWord_ok hx hm)).trans ?_)
  rw [need_bind, if_pos (by simpa using hall)]
  simp only [M.ite_run, M.modify_run]
  dsimp only [State.watchClear]
  split_ifs <;> rfl

theorem twread_ok (hx : (s.rd a).toNat = x) (hlt : x < 2 ^ 23) (hsel : bitsAt 4 16 x ≤ 9) :
    exec (.twread d a) s = (s.wr d (BitVec.ofNat 64
      (if bitsAt 4 16 x = 9 then (s.vf s.th.id.vf.toNat).wnote.toNat
       else if (s.vf s.th.id.vf.toNat).wsCount.toNat ≤ x % 2 ^ 16 then 2 ^ 64 - 1
       else (s.seq s.th.id.vf.toNat (x % 2 ^ 16)).read (bitsAt 4 16 x) (bitsAt 3 20 x)))).retires := by
  have hm : x &&& 0x7FFFFF = x := (Nat.and_two_pow_sub_one_eq_mod x 23).trans (Nat.mod_eq_of_lt hlt)
  refine State.conclude_ok ((M.bind_ok _ _ s s x (controlWord_ok hx hm)).trans ?_)
  rw [need_bind, if_pos (decide_eq_true hsel)]
  rfl

end WatchUnit

/-- Settles O36: checks and confirmations are one computation over the active elements, and each control word selects
one branch of TWSET, TWCLR and TWREAD. -/
theorem watchUnit : Obligations.WatchUnit := by
  intro s d a b p
  refine ⟨fun u htype ha hb hfree => ⟨fun hall => ?_, fun e l hmany hall => ?_⟩,
    fun u htype ha hb hfree => ⟨fun hall => ?_, fun e l hmany hall => ?_⟩, ?set, ?clear,
    fun hlt hsel => twread_ok rfl hlt hsel⟩
  · exact State.conclude_ok (watchElems_quiet htype ha hb hfree hall)
  · exact State.conclude_trap (watchElems_wins htype ha hb hfree hall) hmany
  · exact State.conclude_ok (watchElems_quiet htype ha hb hfree hall)
  · exact State.conclude_trap (watchElems_wins htype ha hb hfree hall) hmany
  case set =>
    intro t bs x q image hm himage vf
    have hset : exec (.twset d a b) s = (t.watchSet d vf q x image).retires := twset_ok rfl hm himage
    rw [hset]
    clear_value vf q image x
    refine ⟨fun h => ?_, fun h hinit huse => ?_, fun h huse hskip hbad => ?_, fun h hinit huse hok hdrafts => ?_,
      fun h hinit hskip => ?_, fun h hinit hskip huse hdrafts => ?_, fun h hinit hskip hok => ?_,
      fun h hinit hskip huse hdrafts hok => ?_⟩
    · simp [State.watchSet, h]
    · simp [State.watchSet, h.not_ge, hinit, huse]
    · rcases huse with huse | huse <;> simp [State.watchSet, h.not_ge, huse, hskip, hbad]
    · rcases hok with hok | hok <;> simp [State.watchSet, h.not_ge, hinit, huse, hok, hdrafts]
    · simp [State.watchSet, h.not_ge, hinit, hskip]
    · simp [State.watchSet, h.not_ge, hinit, hskip, huse, hdrafts]
    · simp [State.watchSet, h.not_ge, hinit, hskip, hok]
    · simp [State.watchSet, h.not_ge, hinit, hskip, huse, hdrafts, hok]
  case clear =>
    intro x q vf hm
    have hclear : x.testBit 20 = false ∨ bitsAt 3 16 x = 0 →
        exec (.twclr d b) s = (s.watchClear d vf q x).retires := twclr_ok rfl hm
    clear_value vf q x
    refine ⟨fun hall h => ?_, fun hall h huse => ?_, fun hall h huse hdrafts => ?_, fun hall hidx h huse => ?_,
      fun hall h huse hdrafts => ?_⟩
    · simp [hclear hall, State.watchClear, h]
    · simp [hclear hall, State.watchClear, h.not_ge, huse]
    · simp [hclear (.inl hall), State.watchClear, h.not_ge, huse, hall, hdrafts]
    · simp [hclear (.inr hidx), State.watchClear, h.not_ge, huse, hall]
    · simp [hclear (.inl hall), State.watchClear, h.not_ge, huse, hall, hdrafts]

end Sys2Proof.Machine
end

section
/-!
PROOF. Scalar loads and stores (R304, R305): how each form ends where its address finds its place.
-/

namespace Sys2Proof.Machine

open Sys2Proof

section ScalarAccess

variable {s u : State} {d a : BitVec 5} {o : BitVec 12} {n : Nat} {p : Phys}

theorem State.loadTo_got (f : Nat → W64) (hgot : s.got .load (s.ea a o) n = some (p, u))
    (hclean : (u.scalarTouch p).consumes p.loc n = false) :
    s.loadTo d a o n f = ((u.scalarTouch p).wr d (f ((u.scalarTouch p).seen p n))).retires :=
  State.conclude_ok (M.bind_ok _ _ s _ _ (loadScalar_got hgot hclean))

theorem State.storeFrom_got (hgot : s.got .store (s.ea a o) n = some (p, u)) (hroom : u.roomAt [p] = true) :
    s.storeFrom d a o n = (u.pushScalar (writesOf p.loc (leBytes n (s.rd d).toNat)) p.kid false).retires :=
  State.conclude_ok (storeScalar_got hgot hroom)

theorem sdr_got (hgot : s.got .store (s.ea a o) 8 = some (p, u)) (hroom : u.roomAt [p] = true)
    (htrains : u.th.hw.trains = []) :
    exec (.sdr d a o) s = (u.pushScalar (writesOf p.loc (leBytes 8 (s.rd d).toNat)) p.kid true).retires := by
  obtain ⟨halign, hlock, hplace⟩ := State.got_parts hgot
  have hunlocked : checkLock (s.ea a o) 8 true s = (.ok (), s) := hlock
  refine State.conclude_ok ?_
  rw [M.bind_ok _ _ s s () halign, M.bind_ok _ _ s s () hunlocked, M.bind_ok _ _ s u p hplace,
    M.bind_ok _ _ u u () (storeRoom_ok hroom), M.bind_ok _ _ u u () (awaitTrains_ok htrains)]
  rfl

/-- A doubleword has no bits to extend. -/
theorem ofInt_sextN_word (x : Nat) : BitVec.ofInt 64 (sextN 64 x) = BitVec.ofNat 64 x := by
  refine BitVec.eq_of_toNat_eq ?_
  rw [BitVec.toNat_ofInt, BitVec.toNat_ofNat]
  unfold sextN
  split <;> omega

end ScalarAccess

/-- Settles O4: every load is one form at its width, every store another, and SDR asks for its trains besides. -/
theorem scalarLoadsAndStores : Obligations.ScalarLoadsAndStores := by
  refine ⟨fun s u p d a o => ⟨State.loadTo_got _, State.loadTo_got _, State.loadTo_got _, ?ld, State.loadTo_got _,
    State.loadTo_got _, State.loadTo_got _, ?lda⟩, fun s u p d a o => ⟨State.storeFrom_got, State.storeFrom_got,
    State.storeFrom_got, State.storeFrom_got, sdr_got, ?entry⟩⟩
  case ld =>
    rw [ofInt_sextN_word]
    exact State.loadTo_got _
  case lda =>
    rw [ofInt_sextN_word]
    exact State.loadTo_got _
  case entry =>
    intro ws kid l rel hws
    cases ws with
    | nil => exact absurd rfl hws
    | cons w r => exact ⟨rfl, rfl⟩
end Sys2Proof.Machine
end

section
/-!
PROOF. Far atomics (R306, R307, R271): the steps of AMO where its place is found, and the replacement at the home.
-/

namespace Sys2Proof.Machine

open Sys2Proof

section FarAtomics

variable {s u r v : State} {acc : Access} {va : W64} {n : Nat} {p : Phys}

/-- An access that finds its place has translated it, and the place is free. -/
theorem State.got_resolves (h : s.got acc va n = some (p, u)) :
    ∃ x : Xlat, resolveNow s.scalarPlaces acc va s = (.ok (.ok x), u) ∧ x.phys = p ∧ u.homeFree p n = true := by
  unfold State.got at h
  split at h
  case isFalse => cases h
  case isTrue =>
    split at h
    case h_2 => cases h
    case h_1 q w hplaced =>
      split at h
      case isFalse => cases h
      case isTrue hfree =>
        cases h
        unfold State.placed at hplaced
        split at hplaced
        case h_1 => cases hplaced
        case h_2 t hready =>
          split at hplaced
          case h_2 => cases hplaced
          case h_1 x w hresolve =>
            cases hplaced
            exact ⟨x, resolveNow_ok hready hresolve, rfl, hfree⟩

/-- What is done unless a permission fails. -/
theorem unless_perm {α : Type} {w : Except XFault Xlat} {x y : α} :
    w ≠ .error .perm → (match w with | .error .perm => x | _ => y) = y := by
  intro h
  split
  case h_1 => exact absurd rfl h
  case h_2 => rfl

/-- An atomic's place is that of a store; the twin may refuse it (R419). -/
theorem translateAtomic_got (h : s.got .store va n = some (p, u)) (hwalk : s.walk s.ctx .load va ≠ .error .perm)
    (htwin : isTwin p.loc = false ∧ r = u ∨ isTwin p.loc = true ∧ u.twinFails = false ∧ r = u.bump) :
    translateAtomic va n s = (.ok p, r) := by
  obtain ⟨x, hresolve, rfl, hfree⟩ := State.got_resolves h
  simp only [translateAtomic]
  rw [M.get_bind]
  refine (congrFun (unless_perm hwalk) s).trans ((M.bind_ok _ _ s u _ hresolve).trans ?_)
  dsimp only
  rw [M.bind_ok _ _ u u () (checkHome_ok hfree), M.get_bind]
  rcases htwin with ⟨htwin, rfl⟩ | ⟨htwin, hanswers, rfl⟩
  · simp [htwin]
  · simp [htwin, hanswers]

/-- Nothing holds the write of one place up. -/
theorem atomicWaits_ok (hfree : v.writeHeld (some v.cur) p.loc n = false) (hroom : v.roomNow [p] = true) :
    atomicWaits [p] n v = (.ok (), v) := by
  simp only [atomicWaits, homeWaits]
  rw [M.get_bind]
  simp [hfree, pendingRoom_ok hroom]

/-- The word is replaced and the old value comes back (R307). -/
theorem atomicAt_ok (f : Nat → Nat) (hfree : v.writeHeld (some v.cur) p.loc n = false) (hroom : v.roomNow [p] = true) :
    atomicAt p n f v = (.ok ((v.claim p.loc p.kid).seenAtHome p n),
      (v.claim p.loc p.kid).storeHome p.kid none (fun _ => .age 0)
        (writesOf p.loc (leBytes n (f ((v.claim p.loc p.kid).seenAtHome p n))))) :=
  M.bind_ok _ _ v v () (atomicWaits_ok hfree hroom)

/-- The access of AMO: its place, the drain, the trains that a release awaits, then the replacement. -/
theorem atomicScalar_got {rel : Bool} (f : Nat → Nat) (h : s.got .store va n = some (p, u))
    (hplace : translateAtomic va n s = (.ok p, r)) (hdrain : r.bufHeld r.cur r.th.hw.buf = false)
    (htrains : rel = false ∨ r.drainAll.th.hw.trains = []) (hv : v = r.drainAll.claim p.loc p.kid)
    (hclean : v.poisoned p.loc n = false) (hfree : v.writeHeld (some v.cur) p.loc n = false)
    (hroom : v.roomNow [p] = true) :
    atomicScalar va n rel f s = (.ok ((v.claim p.loc p.kid).seenAtHome p n),
      (v.claim p.loc p.kid).storeHome p.kid none (fun _ => .age 0)
        (writesOf p.loc (leBytes n (f ((v.claim p.loc p.kid).seenAtHome p n))))) := by
  subst hv
  obtain ⟨halign, hlock, -⟩ := State.got_parts h
  have hunlocked : checkLock va n true s = (.ok (), s) := hlock
  have hat : (do
      modify (fun s => s.claim p.loc p.kid)
      if (← get).poisoned p.loc n then trap Cause.macfail va
      atomicAt p n f : M Nat) r.drainAll = atomicAt p n f (r.drainAll.claim p.loc p.kid) := by
    rw [M.modify_bind, M.get_bind, if_neg (by simp [hclean])]
  rw [atomicAt_ok f hfree hroom] at hat
  simp only [atomicScalar]
  rw [M.bind_ok _ _ s s () halign, M.bind_ok _ _ s s () hunlocked, M.bind_ok _ _ s r p hplace,
    M.bind_ok _ _ r _ () (drainBuffer_ok hdrain)]
  rcases htrains with rfl | htrains
  · exact hat
  · cases rel
    · exact hat
    · rw [if_pos rfl, M.bind_ok _ _ _ _ () (awaitTrains_ok htrains)]
      exact hat

end FarAtomics

/-- ORD has its release bit clear below 2 (R306). -/
theorem releases_of_ord {ord : BitVec 2} {q : Prop} (h : ord.toNat < 2 ∨ q) :
    decide (ord = 2#2 ∨ ord = 3#2) = false ∨ q := by
  refine h.imp_left fun hlt => decide_eq_false ?_
  rintro (rfl | rfl) <;> revert hlt <;> decide

/-- Settles O5: the access of AMO, then s[d]. -/
theorem farAtomics : Obligations.FarAtomics := by
  intro s u r v p d a b ord w op n src cmp x old new hgot hwalk htwin hdrain htrains hv hclean hfree hroom
  exact State.conclude_ok (M.bind_ok _ _ s _ _ (atomicScalar_got _ hgot (translateAtomic_got hgot hwalk htwin) hdrain
    (releases_of_ord htrains) hv hclean hfree hroom))

end Sys2Proof.Machine
end

section
/-!
PROOF. Branches, jumps and loop nest instructions (R308 to R312).
-/

namespace Sys2Proof.Machine

open Sys2Proof

/-- A word offset is four times its value. -/
theorem signExtend_shiftLeft_two {n : Nat} (x : BitVec n) :
    x.signExtend 64 <<< 2 = BitVec.ofInt 64 (x.toInt * 4) := by
  rw [BitVec.signExtend, BitVec.shiftLeft_eq_mul_twoPow, BitVec.ofInt_mul]
  rfl

section Transfers

variable {s u : State} {d a b : BitVec 5} {o : BitVec 12}

/-- A branch takes its condition as a truth value. -/
theorem State.branchIf_eq {c : Bool} {q : Prop} [Decidable q] (h : c = true ↔ q) :
    s.branchIf c o = .next (s.retire (if q then some (s.branchTo o) else none)) :=
  congrArg (fun t => Host.Outcome.next (s.retire t)) (if_congr h rfl rfl)

theorem lnest_defines (hd : d ≠ 0#5) (hcontrol : (s.rd b).toNat < 2 ^ 49)
    (hroom : s.th.nest.open_ = false ∨ (s.th.nest.armed = false ∧ s.th.nest.nlev.toNat < 6)) :
    exec (.lnest d a b) s =
      (s.modNest (fun n => n.define (lnestLevel d a (s.rd b)) (s.rd d))).retires := by
  have hlevels : (!(s.th.nest.open_ && (s.th.nest.armed || decide (6 ≤ s.th.nest.nlev.toNat)))) = true := by
    rcases hroom with h | ⟨harmed, hlt⟩
    · simp [h]
    · simp [harmed, hlt.not_ge]
  refine State.conclude_ok ?_
  rw [need_bind, if_pos (bne_iff_ne.mpr hd), need_bind, if_pos (decide_eq_true hcontrol), need_bind, if_pos hlevels]
  rfl

end Transfers

/-- Settles O6: the conditions of the six branches, then one equation for each jump and each nest instruction. -/
theorem controlTransfers : Obligations.ControlTransfers := by
  refine ⟨fun s a b o => ⟨?_, ?_, ?_, ?_, ?_, ?_, ?target⟩, fun s d o => ?jal, fun s d a i => ⟨?jalr, ?unaligned⟩,
    fun s d a b => lnest_defines, fun s n hn hopen harmed => ?lbody, fun s u a b e hopen harmed => ⟨?stay, ?leave⟩⟩
  · exact State.branchIf_eq beq_iff_eq
  · exact State.branchIf_eq bne_iff_ne
  · exact State.branchIf_eq BitVec.slt_iff_toInt_lt
  · exact State.branchIf_eq (by rw [Bool.not_eq_true', ← Bool.not_eq_true, BitVec.slt_iff_toInt_lt, not_lt])
  · exact State.branchIf_eq BitVec.ult_iff_toNat_lt
  · exact State.branchIf_eq (by rw [Bool.not_eq_true', ← Bool.not_eq_true, BitVec.ult_iff_toNat_lt, not_lt])
  case target => exact congrArg (s.th.sc.pc + ·) (signExtend_shiftLeft_two o)
  case jal =>
    rw [← signExtend_shiftLeft_two]
    rfl
  case jalr => exact fun h => if_neg (not_not_intro h)
  case unaligned => exact fun hmany h => (if_pos h).trans (State.conclude_trap rfl hmany)
  case lbody => exact if_pos ⟨hn, hopen, by simp [harmed]⟩
  case stay =>
    intro hne
    exact (if_neg (not_not_intro ⟨hopen, harmed⟩)).trans (if_neg hne)
  case leave =>
    intro heq hend
    refine (if_neg (not_not_intro ⟨hopen, harmed⟩)).trans ((if_pos heq).trans ?_)
    rw [hend]

end Sys2Proof.Machine
end

section
/-!
PROOF. CSR instructions (R314, R315): the checks in their order, and how each of the four instructions ends.
-/

namespace Sys2Proof.Machine

open Sys2Proof

section CsrChecks

variable {s : State} {d a : BitVec 5} {c : BitVec 12} {n x : Nat} {o : CsrOp}

/-! ### The checks -/

/-- What the number alone asks: the three conditions under which it is refused do not hold. -/
theorem State.csrOk_parts (h : s.csrOk n = true) :
    (∃ m, csrMap n = some m) ∧ ¬ (decide (s.th.sc.mode = .U) && csrHidden n) = true ∧
      ¬ (decide (s.th.sc.mode = .S) && csrVector n && n != 0x00C && n != 0x021) = true ∧
      ¬ (decide (s.th.sc.mode = .U) && s.th.tr.absent && csrVector n) = true := by
  simp only [State.csrOk, Bool.and_eq_true, Bool.not_eq_true', ← Bool.not_eq_true, Option.isSome_iff_exists] at h
  obtain ⟨⟨⟨hmap, hhidden⟩, hservice⟩, habsent⟩ := h
  exact ⟨hmap, by simpa using hhidden, by simpa using hservice, by simpa using habsent⟩

theorem csrCheck_read (h : s.csrOk n = true) (ho : o.value (s.csr n) = none) :
    csrCheck n o s = (.ok (s.csr n, none), s) := by
  obtain ⟨⟨m, hmap⟩, hhidden, hservice, habsent⟩ := State.csrOk_parts h
  simp only [csrCheck]
  rw [M.get_bind]
  simp only [hmap, ho]
  rw [if_neg hhidden, if_neg hservice, if_neg habsent]
  rfl

theorem csrCheck_write (h : s.csrMay n x = true) (ho : o.value (s.csr n) = some x) :
    csrCheck n o s = (.ok (s.csr n, some (s.csrNew n x)), s) := by
  simp only [State.csrMay, Bool.and_eq_true] at h
  obtain ⟨⟨hok, hvalue⟩, -⟩ := h
  obtain ⟨⟨m, hmap⟩, hhidden, hservice, habsent⟩ := State.csrOk_parts hok
  simp only [hmap, Bool.and_eq_true, Bool.not_eq_true', ← Bool.not_eq_true, bne_iff_ne] at hvalue
  obtain ⟨⟨⟨hwritable, hu⟩, hl⟩, -⟩ := hvalue
  simp only [csrCheck]
  rw [M.get_bind]
  simp only [hmap, ho]
  rw [if_neg hhidden, if_neg hservice, if_neg hwritable, if_neg (by simpa using hu), if_neg (by simpa using hl),
    if_neg habsent]
  simp [State.csrNew, hmap]

theorem csrCheck_undefined (h : csrMap n = none) :
    csrCheck n o s = (.error (.trap (plainTrap Cause.illop s.evalWord)), s) := by
  simp only [csrCheck]
  rw [M.get_bind]
  simp [h]

theorem csrCheck_hidden (h : (csrMap n).isSome = true) (hmode : s.th.sc.mode = .U) (hhidden : csrHidden n = true) :
    csrCheck n o s = (.error (.trap (plainTrap Cause.priv s.evalWord)), s) := by
  obtain ⟨m, hmap⟩ := Option.isSome_iff_exists.mp h
  simp only [csrCheck]
  rw [M.get_bind]
  simp only [hmap]
  rw [if_pos (by simp [hmode, hhidden])]
  exact M.bind_error _ _ s s _ (privTrap_run s)

/-! ### How an access ends -/

theorem State.csrAccess_read (h : s.csrOk n = true) (ho : o.value (s.csr n) = none) :
    s.csrAccess d n o = (s.wr d (BitVec.ofNat 64 (s.csr n))).retires :=
  State.conclude_ok (M.bind_ok _ _ s s _ (csrCheck_read h ho))

theorem State.csrAccess_write (h : s.csrMay n x = true) (ho : o.value (s.csr n) = some x) :
    s.csrAccess d n o = ((s.csrSet n (s.csrNew n x)).wr d (BitVec.ofNat 64 (s.csr n))).retires := by
  refine State.conclude_ok ((M.bind_ok _ _ s s _ (csrCheck_write h ho)).trans ?_)
  simp only [State.csrMay, Bool.and_eq_true] at h
  obtain ⟨⟨hok, hvalue⟩, hbusy⟩ := h
  obtain ⟨⟨m, hmap⟩, -⟩ := State.csrOk_parts hok
  have hlegal : s.csrValueOk n (s.csrNew n x) = true := by
    simp only [hmap, Bool.and_eq_true] at hvalue
    simpa [State.csrNew, hmap] using hvalue.2
  dsimp only
  rw [need_bind, if_pos hlegal]
  split
  · next hown =>
    rw [if_neg (by simpa [hown] using hbusy)]
    rfl
  · rfl

theorem State.csrAccess_traps {t : TrapInfo} (hmany : s.cv.many = false)
    (hcheck : csrCheck n o s = (.error (.trap t), s)) : s.csrAccess d n o = s.traps t :=
  State.conclude_trap (M.bind_error _ _ s s _ hcheck) hmany

end CsrChecks

/-- Settles O7: CSRS and CSRC of s0 are reads, the other forms write what they combine, and a number that is undefined
or hidden stops all four. -/
theorem csrs : Obligations.Csrs := by
  refine ⟨fun s d a c => ⟨fun h => ⟨?_, ?_, ?_⟩, fun h => ?_, fun ha h => ?_, fun ha h => ?_⟩,
    fun s d a c hmany => ⟨fun hmap => ?undefined, fun hmap hmode hnum => ?hidden⟩⟩
  · exact State.csrAccess_read h rfl
  · exact State.csrAccess_read h rfl
  · exact State.csrAccess_read h rfl
  · exact State.csrAccess_write h rfl
  · exact State.csrAccess_write h (by rw [if_neg ha]; rfl)
  · exact State.csrAccess_write h (by rw [if_neg ha]; rfl)
  case undefined =>
    have htraps : ∀ o, s.csrAccess d c.toNat o = s.traps _ := fun o =>
      State.csrAccess_traps hmany (csrCheck_undefined hmap)
    exact ⟨htraps _, htraps _, htraps _, htraps _⟩
  case hidden =>
    have htraps : ∀ o, s.csrAccess d c.toNat o = s.traps _ := fun o =>
      State.csrAccess_traps hmany (csrCheck_hidden hmap hmode (decide_eq_true hnum))
    exact ⟨htraps _, htraps _, htraps _, htraps _⟩

end Sys2Proof.Machine
end

section
/-!
PROOF. System instructions (R316 to R318, R320, R323): each condition selects one branch of its meaning.
-/

namespace Sys2Proof.Machine

open Sys2Proof

section SystemInstructions

variable {s : State} {a b : BitVec 5} {t : TrapInfo}

theorem State.trapNow_single (hmany : s.cv.many = false) : s.trapNow t = s.traps t := State.conclude_trap rfl hmany

/-- A trigger that fires is only sent to the VCs of its partition. -/
theorem State.fireTrigger_cv (part n time : Nat) : (s.fireTrigger part n time).cv = s.cv := by
  unfold State.fireTrigger
  refine foldl_keeps (fun u : State => u.cv = s.cv) _ ?_ _ s rfl
  exact fun _ _ hu => hu

/-- A trigger that fires leaves the convoy in hand as it was. -/
theorem State.fireWhere_cv (f : Trigger → Bool) : (s.fireWhere f).cv = s.cv :=
  foldl_keeps (fun u : State => u.cv = s.cv) _ (fun u n hu => by
    split
    · exact (State.fireTrigger_cv ..).trans hu
    · exact hu) _ s rfl

/-! ### Returns (R318) -/

theorem eret_from_user (hmode : s.th.sc.mode = .U) : exec .eret s = s.trapNow (plainTrap Cause.priv s.evalWord) :=
  if_pos hmode

theorem eret_illegal (hmode : s.th.sc.mode ≠ .U) (hlvl : s.th.tr.lvl = 3#2) :
    exec .eret s = s.trapNow (plainTrap Cause.illop s.evalWord) :=
  (if_neg hmode).trans (if_pos hlvl)

theorem eret_to_service (hmode : s.th.sc.mode ≠ .U) (hlvl : s.th.tr.lvl = 2#2) :
    exec .eret s = if s.th.sc.mode = .L then s.trapNow (plainTrap Cause.priv s.evalWord)
      else .next ((s.returnFrom .S).stepTrap.endHold .S) :=
  (if_neg hmode).trans ((if_neg (by rw [hlvl]; decide)).trans (if_pos hlvl))

theorem eret_to_low (hmode : s.th.sc.mode ≠ .U) (h3 : s.th.tr.lvl ≠ 3#2) (h2 : s.th.tr.lvl ≠ 2#2) :
    exec .eret s =
      (let m := if s.th.tr.lvl = 0#2 then Mode.U else Mode.L
       .next ((s.returnFrom m).stepTrap.endHold m)) :=
  (if_neg hmode).trans ((if_neg h3).trans (if_neg h2))

/-! ### RAISE (R323) -/

/-- A cause that RAISE may enter is a number of R394 other than a MAC failure. -/
theorem raise_entered (hmode : s.th.sc.mode ≠ .U) (hlo : 1 ≤ (s.rd a).toNat) (hhi : (s.rd a).toNat ≤ 0x14)
    (hmac : (s.rd a).toNat ≠ 0x12) :
    exec (.raise a b) s = .next (((s.modTr (fun r =>
      { r with cause := BitVec.ofNat 8 (s.rd a).toNat, val := s.rd b })).modHw
        (fun h => { h with wait := none })).enterHandler .S (s.rd a).toNat) :=
  (if_neg hmode).trans (if_neg (not_not_intro ⟨hlo, hhi, hmac⟩))

theorem raise_illegal (hmode : s.th.sc.mode ≠ .U)
    (hcause : (s.rd a).toNat = 0 ∨ 0x14 < (s.rd a).toNat ∨ (s.rd a).toNat = 0x12) :
    exec (.raise a b) s = s.trapNow (plainTrap Cause.illop s.evalWord) :=
  (if_neg hmode).trans (if_pos (by
    rintro ⟨hlo, hhi, hmac⟩
    rcases hcause with h | h | h
    · omega
    · omega
    · exact hmac h))

end SystemInstructions

/-- Settles O8: the traps of a convoy of one, the branches of ERET and those of RAISE. -/
theorem systemCalls : Obligations.SystemCalls := by
  refine fun s n a b => ⟨fun hmany => State.trapNow_single hmany, fun hmany => ?bkpt, fun hmode hlvl => ?service,
    fun hmode hlvl => ?user, fun hmode hlvl => ?low, fun hmany hmode hlvl => ?three, fun hmany hmode hlvl => ?two,
    fun hmany hmode => ⟨?_, ?_, ?_⟩, raise_entered, fun hmany hmode hcause => ?_⟩
  case bkpt => exact State.trapNow_single ((congrArg Convoy.many (State.fireWhere_cv _)).trans hmany)
  case service =>
    rw [eret_to_service (by rw [hmode]; decide) hlvl, if_neg (by rw [hmode]; decide)]
  case user =>
    rw [eret_to_low hmode (by rw [hlvl]; decide) (by rw [hlvl]; decide)]
    simp only [hlvl, if_true]
  case low =>
    rw [eret_to_low hmode (by rw [hlvl]; decide) (by rw [hlvl]; decide)]
    simp only [hlvl]
    rfl
  case three => rw [eret_illegal hmode hlvl, State.trapNow_single hmany]
  case two => rw [eret_to_service (by rw [hmode]; decide) hlvl, if_pos hmode, State.trapNow_single hmany]
  · rw [eret_from_user hmode, State.trapNow_single hmany]
  · refine Eq.trans ?_ (State.trapNow_single hmany)
    show execHalt s = _
    unfold execHalt
    rw [hmode]
  · exact (if_pos hmode).trans (State.trapNow_single hmany)
  · rw [raise_illegal hmode hcause, State.trapNow_single hmany]

/-- Settles O9: YIELD has one branch that traps and one that retires. -/
theorem yield : Obligations.Yield := by
  refine fun s => ⟨fun hmany hmode hyreq => ?_, fun hyreq => ?_, fun hmode => ?_⟩
  · exact (if_pos ⟨hmode, hyreq⟩).trans (State.trapNow_single hmany)
  · exact if_neg fun h => by simp [hyreq] at h
  · exact if_neg fun h => hmode h.1

end Sys2Proof.Machine
end

section
/-!
PROOF. NAP, WAKE, HALT, the fences and WINPUB (R319, R321, R322, R346 to R349, R276): where each of them ends.
-/

namespace Sys2Proof.Machine

open Sys2Proof

section SleepAndFences

variable {s t u v : State} {a b d sc : BitVec 5} {x : Nat}

/-! ### NAP and WAKE (R319) -/

theorem nap_takes_wake (h : s.th.hw.wake ≠ 0#8) :
    exec (.nap d) s = ((s.wr d (s.th.hw.wake.setWidth 64)).modHw (fun h => { h with wake := 0 })).retires :=
  State.conclude_ok (congrFun (if_pos h) s)

theorem nap_yields (h : s.th.hw.wake = 0#8) (hyreq : s.th.held.yreq = true) :
    exec (.nap d) s = (s.wr d 0).retires :=
  State.conclude_ok ((congrFun (if_neg (not_not_intro h)) s).trans (congrFun (if_pos hyreq) s))

theorem nap_waits (h : s.th.hw.wake = 0#8) (hyreq : s.th.held.yreq = false) : exec (.nap d) s = s.awaits .nap :=
  State.conclude_wait ((congrFun (if_neg (not_not_intro h)) s).trans
    (congrFun (if_neg (ne_true_of_eq_false hyreq)) s))

/-- WAKE refuses a slot whose tile the partition does not hold. -/
theorem wake_refused (hx : (s.rd a).toNat = x) (hword : x - bitsAt 1 16 x * 2 ^ 16 < 2048)
    (hout : (s.wakeTargets x).any (fun n => !(s.part s.curPart).table.tiles.contains (tileOf n)) = true) :
    exec (.wake d a) s = (s.wr d 1).retires := by
  subst hx
  refine State.conclude_ok ?_
  rw [need_bind, if_pos (decide_eq_true hword), if_pos hout]
  rfl

theorem wake_done (hx : (s.rd a).toNat = x) (hword : x - bitsAt 1 16 x * 2 ^ 16 < 2048)
    (hin : (s.wakeTargets x).any (fun n => !(s.part s.curPart).table.tiles.contains (tileOf n)) = false)
    (hclear : s.clear = true) :
    exec (.wake d a) s = (((s.wakeTargets x).foldl State.wakeSlot s.drainAll).wr d 0).retires := by
  subst hx
  refine State.conclude_ok ?_
  rw [need_bind, if_pos (decide_eq_true hword), if_neg (ne_true_of_eq_false hin),
    M.bind_ok _ _ s _ () (release_ok hclear)]
  rfl

/-! ### HALT (R321) -/

/-- In L mode HALT releases and then gives up the slot. -/
theorem halt_low (hmode : s.th.sc.mode = .L) (hclear : s.clear = true) : exec .halt s = .next s.drainAll.endHalt := by
  have hrelease : (do drainBuffer; awaitTrains : M Unit) s = (.ok (), s.drainAll) := release_ok hclear
  show execHalt s = _
  simp only [execHalt, hmode, hrelease]

theorem halt_service (hmode : s.th.sc.mode = .S) :
    exec .halt s = .next ((s.modHw (fun h => { h with parked := true, wait := none })).modTile s.curTile
      (fun t => { t with scQueue := t.scQueue.filter (fun n => decide (n ≠ s.cur)) })) := by
  show execHalt s = _
  simp only [execHalt, hmode]

theorem State.endHalt_found {p : Phys} (h : (t.readResume t.cur).1 = .found p) :
    t.endHalt = ((t.readResume t.cur).2.parkJob t.cur
      (((t.readResume t.cur).2.wordAt p 0 8).testBit 0)).emptySlot t.cur false := by
  simp only [State.endHalt, h]

theorem State.endHalt_missing (h : (t.readResume t.cur).1 = .missing) :
    t.endHalt = ((t.readResume t.cur).2.parkJob t.cur false).emptySlot t.cur false := by
  simp only [State.endHalt, h]

theorem State.endHalt_mac (h : (t.readResume t.cur).1 = .mac) :
    t.endHalt = (((t.readResume t.cur).2.macFailure [t.th.id.vf.toNat]).parkJob t.cur false).emptySlot t.cur false := by
  simp only [State.endHalt, h]

theorem State.endHalt_held (h : (t.readResume t.cur).1 = .held) :
    t.endHalt = (t.readResume t.cur).2.modHw (fun h => { h with wait := some .line }) := by
  simp only [State.endHalt, h]

/-! ### Fences (R322, R346, R347) -/

/-- IFENCE completes as any instruction does, and the loop buffer goes last. -/
theorem ifence_drains (hdrain : s.bufHeld s.cur s.th.hw.buf = false) :
    exec .ifence s =
      (let t := ((s.drainAll.modVc s.drainAll.curVc (fun v => { v with icache := [] })).modHw
         (fun h => { h with fetched := [] })).finish
       .next (if t.th.hw.wait.isSome then t else t.modNest (fun n => { n with buf := [] }))) := by
  have hends := State.conclude_ok (M.bind_ok drainBuffer (fun _ => modify (fun t : State =>
    (t.modVc t.curVc (fun v => { v with icache := [] })).modHw (fun h => { h with fetched := [] })))
    s _ () (drainBuffer_ok hdrain))
  show execIfence s = _
  unfold execIfence
  rw [hends]

theorem trainError_none {mine : Nat → Bool} (h : s.th.hw.trainErr.any mine = false) :
    trainError mine s = (.ok (), s) := by
  have hnone : s.th.hw.trainErr.find? mine = none :=
    List.find?_eq_none.mpr fun l hl => List.any_eq_false.mp h l hl
  simp only [trainError]
  rw [M.get_bind, hnone]
  rfl

theorem fence_drains (hdrain : s.bufHeld s.cur s.th.hw.buf = false)
    (htrains : s.drainAll.th.hw.trains.any (fun x => s.drainAll.covers sc.toNat x.dest) = false)
    (herrs : s.drainAll.th.hw.trainErr.any (fun l => s.drainAll.covers sc.toNat (s.drainAll.destOf l)) = false) :
    exec (.fence sc) s = s.drainAll.retires := by
  refine State.conclude_ok ((M.bind_ok _ _ s _ () (drainBuffer_ok hdrain)).trans ?_)
  rw [M.get_bind, if_neg (ne_true_of_eq_false htrains)]
  exact trainError_none herrs

/-- FENCEE with no bytes in its range asks for no lock. -/
theorem fencee_empty (hdrain : s.bufHeld s.cur s.th.hw.buf = false) (hword : bitsAt 15 48 (s.rd b).toNat = 0)
    (hlen : (s.rd b).toNat % 2 ^ 48 = 0) : exec (.fencee a b) s = s.drainAll.retires := by
  refine State.conclude_ok ?_
  rw [need_bind, if_pos (decide_eq_true hword), M.bind_ok _ _ s _ () (drainBuffer_ok hdrain),
    if_neg (not_not_intro hlen)]
  rfl

theorem fencee_unlocked (hdrain : s.bufHeld s.cur s.th.hw.buf = false) (hword : bitsAt 15 48 (s.rd b).toNat = 0)
    (hlocks : (s.drainAll.tile s.curTile).locks = []) : exec (.fencee a b) s = s.drainAll.retires := by
  by_cases hlen : (s.rd b).toNat % 2 ^ 48 = 0
  · exact fencee_empty hdrain hword hlen
  · refine State.conclude_ok ?_
    rw [need_bind, if_pos (decide_eq_true hword), M.bind_ok _ _ s _ () (drainBuffer_ok hdrain), if_pos hlen,
      M.get_bind, hlocks]
    rfl

/-! ### WINPUB (R349, R276) -/

theorem winpub_publishes {p : Phys} (hplace : s.placed .store (s.rd a) = some (p, u)) (howner : p.owner = true)
    (hdevice : isDevice p.loc = true) (hclear : u.clear = true) (hdrain : u.drainAll = v)
    (hleft : v.storesLeft p.kid = false)
    (hheld : (v.pendingOf p.kid).all (fun c => (v.heldRange c.1 1).isEmpty) = true) :
    exec (.winpub a) s = (v.publish p.kid).retires := by
  subst hdrain
  have hfree : ¬ ((u.drainAll.pendingOf p.kid).map (fun c => (c.1, 1))).any
      (fun r => !(u.drainAll.heldRange r.1 r.2).isEmpty) = true := by
    simpa using hheld
  refine State.conclude_ok ?_
  rw [M.bind_ok _ _ s u p (translatePlace_ok hplace), if_neg (by simp [howner, hdevice])]
  refine (M.bind_ok _ _ u _ () (release_ok hclear)).trans ?_
  rw [M.get_bind, if_neg (ne_true_of_eq_false hleft), if_neg hfree]
  rfl

end SleepAndFences

/-- Settles O10: each instruction where nothing holds it up, and NAP and HALT where something does. -/
theorem sleepAndFences : Obligations.SleepAndFences := by
  refine ⟨fun s d a => ⟨nap_takes_wake, nap_yields, nap_waits, ?wake⟩, fun s a b sc m =>
    ⟨?haltLow, halt_service, ifence_drains, fence_drains, fencee_empty, fencee_unlocked, rfl⟩,
    fun s u v p a => winpub_publishes⟩
  case wake => exact fun hword => ⟨wake_refused rfl hword, wake_done rfl hword⟩
  case haltLow =>
    intro hmode hclear t r
    have hends : exec .halt s = .next t.endHalt := halt_low hmode hclear
    exact ⟨fun p h => hends.trans (congrArg _ (State.endHalt_found h)),
      fun h => hends.trans (congrArg _ (State.endHalt_missing h)),
      fun h => hends.trans (congrArg _ (State.endHalt_mac h)),
      fun h => hends.trans (congrArg _ (State.endHalt_held h))⟩

end Sys2Proof.Machine
end

section
/-!
PROOF. Groups and phases (R330 to R335, R274): a member arrives, waits, and learns how its wait ended.
-/

namespace Sys2Proof.Machine

open Sys2Proof

section Groups

variable {s t u v : State} {a b d : BitVec 5} {n : Nat} {m k : Member} {q : BitVec 32}

theorem groupNumber_ok (hn : (s.rd a).toNat < 4096) : groupNumber a s = (.ok (s.rd a).toNat, s) := by
  simp only [groupNumber]
  rw [M.get_bind, need_bind, if_pos (decide_eq_true hn)]
  rfl

theorem needMember_ok (hm : (s.group n).member s.cur = some m) : needMember n s = (.ok m, s) := by
  simp only [needMember]
  rw [M.get_bind, hm]
  rfl

/-- No wait has ended. -/
theorem waitEnded_none (h : s.th.hw.barDone = none) : waitEnded n q s = (.ok none, s) := by
  simp only [waitEnded]
  rw [M.get_bind, h]
  rfl

theorem waitEnded_some {freed : Bool} (hn : n < 4096) (h : s.th.hw.barDone = some (BitVec.ofNat 12 n, q, freed)) :
    waitEnded n q s = (.ok (some freed), s.modHw (fun h => { h with barDone := none })) := by
  have hnumber : (BitVec.ofNat 12 n).toNat = n := by
    rw [BitVec.toNat_ofNat]
    exact Nat.mod_eq_of_lt hn
  simp only [waitEnded]
  rw [M.get_bind, h]
  show (set _ >>= fun _ => pure _ : M (Option Bool)) s = _
  rw [M.set_bind, if_pos ⟨hnumber, rfl⟩]
  rfl

/-- What an instruction with a group's number in s[a] does from there. -/
theorem State.conclude_group {f : Nat → M Unit} (hn : (s.rd a).toNat < 4096) (h : f (s.rd a).toNat s = (.ok (), u)) :
    s.conclude (groupNumber a >>= f) = u.retires :=
  State.conclude_ok ((M.bind_ok _ _ s s _ (groupNumber_ok hn)).trans h)

/-! ### Joining and leaving (R332) -/

theorem gjoin_member (hn : (s.rd a).toNat < 4096) (hm : ((s.group (s.rd a).toNat).member s.cur).isSome = true) :
    exec (.gjoin d a) s = (s.wr d 2).retires :=
  State.conclude_group hn (congrFun (if_pos hm) s)

theorem gjoin_full (hn : (s.rd a).toNat < 4096) (hm : (s.group (s.rd a).toNat).member s.cur = none)
    (hfull : 8 ≤ s.memberships) : exec (.gjoin d a) s = (s.wr d 3).retires :=
  State.conclude_group hn (congrFun ((if_neg (by simp [hm])).trans (if_pos hfull)) s)

theorem gjoin_live (hn : (s.rd a).toNat < 4096) (hm : (s.group (s.rd a).toNat).member s.cur = none)
    (hroom : s.memberships < 8) (hlive : (s.group (s.rd a).toNat).live = true) :
    exec (.gjoin d a) s = ((s.modGroup (s.rd a).toNat (fun g => { g with members := g.members ++
      [{ slot := s.cur, arr := false, la := 0, bw := false }] })).wr d 0).retires :=
  State.conclude_group hn (congrFun ((if_neg (by simp [hm])).trans ((if_neg hroom.not_ge).trans (if_pos hlive))) s)

theorem gjoin_new (hn : (s.rd a).toNat < 4096) (hm : (s.group (s.rd a).toNat).member s.cur = none)
    (hroom : s.memberships < 8) (hlive : (s.group (s.rd a).toNat).live = false) :
    exec (.gjoin d a) s = ((s.modGroup (s.rd a).toNat (fun _ =>
      { members := [{ slot := s.cur, arr := false, la := 0, bw := false }], phase := 0 })).wr d 1).retires :=
  State.conclude_group hn (congrFun ((if_neg (by simp [hm])).trans ((if_neg hroom.not_ge).trans
    (if_neg (ne_true_of_eq_false hlive)))) s)

theorem gleave_member (hn : (s.rd a).toNat < 4096) (hm : ((s.group (s.rd a).toNat).member s.cur).isSome = true) :
    exec (.gleave d a) s = ((s.changeGroup (s.rd a).toNat (fun g => g.leave s.cur)).wr d 0).retires :=
  State.conclude_group hn (congrFun (if_pos hm) s)

theorem gleave_other (hn : (s.rd a).toNat < 4096) (hm : (s.group (s.rd a).toNat).member s.cur = none) :
    exec (.gleave d a) s = (s.wr d 1).retires :=
  State.conclude_group hn (congrFun (if_neg (by simp [hm])) s)

/-! ### Arrivals (R333, R274) -/

theorem barrlx_arrives (hn : (s.rd a).toNat < 4096) (hm : (s.group (s.rd a).toNat).member s.cur = some m) :
    exec (.barrlx d a) s = ((s.changeGroup (s.rd a).toNat (fun g => g.arrive s.cur)).wr d
      ((s.group (s.rd a).toNat).phase.setWidth 64)).retires :=
  State.conclude_group hn (M.bind_ok _ _ s s m (needMember_ok hm))

theorem bararv_arrives (hn : (s.rd a).toNat < 4096) (hm : (s.group (s.rd a).toNat).member s.cur = some m)
    (hclear : s.clear = true) (hu : s.drainAll = u) :
    exec (.bararv d a) s = ((u.changeGroup (s.rd a).toNat (fun g => g.arrive u.cur)).wr d
      ((u.group (s.rd a).toNat).phase.setWidth 64)).retires := by
  subst hu
  exact State.conclude_group hn ((M.bind_ok _ _ s s m (needMember_ok hm)).trans
    (M.bind_ok _ _ s _ () (release_ok hclear)))

theorem phend_arrives (hn : (s.rd a).toNat < 4096) (hm : (s.group (s.rd a).toNat).member s.cur = some m)
    (hdrain : s.bufHeld s.cur s.th.hw.buf = false) (hu : s.drainAll = u) (htrains : u.th.hw.trains = [])
    (herrs : u.th.hw.trainErr = []) :
    exec (.phend d a) s = ((u.changeGroup (s.rd a).toNat (fun g => g.arrive u.cur)).wr d
      ((u.group (s.rd a).toNat).phase.setWidth 64)).retires := by
  subst hu
  refine State.conclude_group hn ((M.bind_ok _ _ s s m (needMember_ok hm)).trans
    ((M.bind_ok _ _ s _ () (drainBuffer_ok hdrain)).trans ?_))
  rw [M.get_bind, if_neg (not_not_intro htrains)]
  exact M.bind_ok _ _ _ _ () (trainError_none (by simp [herrs]))

/-! ### BARW (R334) -/

/-- BARW once its thread has arrived: the phase it waits on has passed, or it waits. -/
def barwWait (d : BitVec 5) (n : Nat) : M Unit := do
  let t ← get
  match (t.group n).member t.cur with
  | none => illop
  | some m =>
    let _ ← waitEnded n m.la
    let t ← get
    if (t.group n).passed m.la then
      set ((t.modGroup n (fun g => g.modMember t.cur (fun m => { m with bw := false }))).wr d
        (m.la.setWidth 64))
    else waitFor (.barrier (BitVec.ofNat 12 n) m.la)

theorem barwWait_eq (hk : (v.group n).member v.cur = some k) (hend : v.th.hw.barDone = none) :
    barwWait d n v = if (v.group n).passed k.la then
        (.ok (), (v.modGroup n (fun g => g.modMember v.cur (fun m => { m with bw := false }))).wr d (k.la.setWidth 64))
      else (.error (.wait (.barrier (BitVec.ofNat 12 n) k.la)), v) := by
  simp only [barwWait]
  rw [M.get_bind, hk]
  refine (M.bind_ok _ _ v v _ (waitEnded_none hend)).trans ?_
  rw [M.get_bind, M.ite_run]
  rfl

theorem barwWait_passed (hk : (v.group n).member v.cur = some k) (hend : v.th.hw.barDone = none)
    (hpassed : (v.group n).passed k.la = true) :
    barwWait d n v = (.ok (), (v.modGroup n (fun g => g.modMember v.cur (fun m => { m with bw := false }))).wr d
      (k.la.setWidth 64)) := by
  rw [barwWait_eq hk hend, if_pos hpassed]

theorem barwWait_open (hk : (v.group n).member v.cur = some k) (hend : v.th.hw.barDone = none)
    (hpassed : (v.group n).passed k.la = false) :
    barwWait d n v = (.error (.wait (.barrier (BitVec.ofNat 12 n) k.la)), v) := by
  rw [barwWait_eq hk hend, if_neg (ne_true_of_eq_false hpassed)]

/-- A member that has arrived only waits. -/
theorem barw_again (hn : (s.rd a).toNat < 4096) (hm : (s.group (s.rd a).toNat).member s.cur = some m)
    (hbw : m.bw = true) : exec (.barw d a) s = s.conclude (barwWait d (s.rd a).toNat) := by
  refine State.conclude_congr ((M.bind_ok _ _ s s _ (groupNumber_ok hn)).trans
    ((M.bind_ok _ _ s s m (needMember_ok hm)).trans ?_))
  rw [if_neg (by simp [hbw])]
  rfl

/-- Another releases and arrives first. -/
theorem barw_first (hn : (s.rd a).toNat < 4096) (hm : (s.group (s.rd a).toNat).member s.cur = some m)
    (hbw : m.bw = false) (hclear : s.clear = true) (hu : s.drainAll = u) :
    exec (.barw d a) s = (u.changeGroup (s.rd a).toNat (fun g =>
      (g.modMember u.cur (fun m => { m with la := g.phase, bw := true })).arrive u.cur)).conclude
        (barwWait d (s.rd a).toNat) := by
  subst hu
  refine State.conclude_congr ((M.bind_ok _ _ s s _ (groupNumber_ok hn)).trans
    ((M.bind_ok _ _ s s m (needMember_ok hm)).trans ?_))
  rw [if_pos (by simp [hbw])]
  exact M.bind_ok _ _ s _ () (release_ok hclear)

/-! ### BARWAIT (R334) -/

theorem barwait_ended {freed : Bool} (hn : (s.rd a).toNat < 4096) (hq : (s.rd b).toNat < 2 ^ 32)
    (h : s.th.hw.barDone = some (BitVec.ofNat 12 (s.rd a).toNat, (s.rd b).setWidth 32, freed)) :
    exec (.barwait d a b) s =
      ((s.modHw (fun h => { h with barDone := none })).wr d (if freed then 1 else 0)).retires := by
  refine State.conclude_group hn ?_
  rw [need_bind, if_pos (decide_eq_true hq)]
  exact M.bind_ok _ _ s _ _ (waitEnded_some hn h)

/-- BARWAIT whose wait has not ended looks at the group. -/
theorem barwait_looks (hn : (s.rd a).toNat < 4096) (hq : (s.rd b).toNat < 2 ^ 32) (h : s.th.hw.barDone = none) :
    exec (.barwait d a b) s = s.conclude (
      if !(s.group (s.rd a).toNat).live then modify (fun t => t.wr d 1)
      else if (s.group (s.rd a).toNat).passed ((s.rd b).setWidth 32) then modify (fun t => t.wr d 0)
      else waitFor (.barrier (BitVec.ofNat 12 (s.rd a).toNat) ((s.rd b).setWidth 32))) := by
  refine State.conclude_congr ((M.bind_ok _ _ s s _ (groupNumber_ok hn)).trans ?_)
  rw [need_bind, if_pos (decide_eq_true hq)]
  exact M.bind_ok _ _ s s _ (waitEnded_none h)

theorem barwait_free (hn : (s.rd a).toNat < 4096) (hq : (s.rd b).toNat < 2 ^ 32) (h : s.th.hw.barDone = none)
    (hlive : (s.group (s.rd a).toNat).live = false) : exec (.barwait d a b) s = (s.wr d 1).retires :=
  (barwait_looks hn hq h).trans (State.conclude_ok (congrFun (if_pos (by simp [hlive])) s))

theorem barwait_passed (hn : (s.rd a).toNat < 4096) (hq : (s.rd b).toNat < 2 ^ 32) (h : s.th.hw.barDone = none)
    (hlive : (s.group (s.rd a).toNat).live = true)
    (hpassed : 0 ≤ ((s.group (s.rd a).toNat).phase - (s.rd b).setWidth 32 - 1).toInt) :
    exec (.barwait d a b) s = (s.wr d 0).retires :=
  (barwait_looks hn hq h).trans (State.conclude_ok (congrFun ((if_neg (by simp [hlive])).trans
    (if_pos (decide_eq_true hpassed))) s))

theorem barwait_waits (hn : (s.rd a).toNat < 4096) (hq : (s.rd b).toNat < 2 ^ 32) (h : s.th.hw.barDone = none)
    (hlive : (s.group (s.rd a).toNat).live = true)
    (hopen : ((s.group (s.rd a).toNat).phase - (s.rd b).setWidth 32 - 1).toInt < 0) :
    exec (.barwait d a b) s = s.awaits (.barrier (BitVec.ofNat 12 (s.rd a).toNat) ((s.rd b).setWidth 32)) :=
  (barwait_looks hn hq h).trans (State.conclude_wait (congrFun ((if_neg (by simp [hlive])).trans
    (if_neg (ne_true_of_eq_false (decide_eq_false hopen.not_ge)))) s))

/-! ### GSIZE (R335) -/

theorem gsize_eq (hn : (s.rd a).toNat < 4096) :
    exec (.gsize d a) s = (s.wr d (if (s.group (s.rd a).toNat).live then
      BitVec.ofNat 64 ((s.group (s.rd a).toNat).members.length +
        ((s.group (s.rd a).toNat).members.filter (·.arr)).length * 2 ^ 16 +
        (s.group (s.rd a).toNat).phase.toNat * 2 ^ 32) else 0)).retires :=
  State.conclude_group hn rfl

end Groups

/-- Settles O11: the group's number, then each instruction by the member's record and the group. -/
theorem groups : Obligations.Groups := by
  refine ⟨fun s d a hn => ⟨gjoin_member hn, gjoin_full hn, gjoin_live hn, gjoin_new hn, gleave_member hn,
    gleave_other hn⟩, fun s d a m hn hm => ⟨barrlx_arrives hn hm, fun u => bararv_arrives hn hm,
    fun u => phend_arrives hn hm, fun f => rfl, fun u k hbw hclear hu hk hend => ⟨?_, ?_⟩, fun hbw hend hpassed => ?_,
    fun hbw hend hpassed => ?_⟩, fun s d a b hn => ⟨fun freed => barwait_ended hn, barwait_free hn, barwait_passed hn,
    barwait_waits hn, fun hlive => ?_, fun hlive => ?_, rfl⟩⟩
  · exact fun hpassed => (barw_first hn hm hbw hclear hu).trans (State.conclude_ok (barwWait_passed hk hend hpassed))
  · exact fun hpassed => (barw_first hn hm hbw hclear hu).trans (State.conclude_wait (barwWait_open hk hend hpassed))
  · exact (barw_again hn hm hbw).trans (State.conclude_ok (barwWait_passed hm hend hpassed))
  · exact (barw_again hn hm hbw).trans (State.conclude_wait (barwWait_open hm hend hpassed))
  · rw [gsize_eq hn, if_pos hlive]
  · rw [gsize_eq hn, if_neg (ne_true_of_eq_false hlive)]

end Sys2Proof.Machine
end

section
/-!
PROOF. Jobs and time (R338 to R342): what SPAWN finds in its descriptor, how JDONE settles, what JDEADL may change.
-/

namespace Sys2Proof.Machine

open Sys2Proof

section Jobs

variable {s t : State} {a b d : BitVec 5} {desc : List Byte} {id : BitVec 32} {j : Job}

/-! ### SPAWN (R338) -/

/-- What SPAWN does with the descriptor it has read, for a child at a node. -/
def spawnFrom (d : BitVec 5) (node : BitVec 16) (desc : List Byte) : M Unit := do
  let t ← get
  if node ≠ 0xFFFF#16 ∧ ¬ t.nodeIn t.curPart node then modify (fun t => t.wr d (refusal 2))
  else if node ≠ 0xFFFF#16 ∧ (t.node node).holds then trap Cause.engerr (node.setWidth 64)
  else
    match t.jobRefusal t.curPart t.th.id.vf.toNat desc with
    | some c => modify (fun t => t.wr d (refusal c))
    | none =>
      release
      modify (fun t =>
        let r := t.acceptJob t.curPart t.th.id.vf.toNat desc t.th.id.job node none
        r.2.wr d (r.1.setWidth 64))

theorem spawn_from (hb : (s.rd b).toNat < 2 ^ 16) (hdesc : loadWide (s.rd a) 128 128 s = (.ok desc, t)) :
    exec (.spawn d a b) s = t.conclude (spawnFrom d (BitVec.ofNat 16 (s.rd b).toNat) desc) := by
  refine State.conclude_congr ?_
  rw [need_bind, if_pos (decide_eq_true hb)]
  exact M.bind_ok _ _ s t desc hdesc

variable {node : BitVec 16}

theorem spawnFrom_outside (hnode : node ≠ 0xFFFF#16) (hout : t.nodeIn t.curPart node = false) :
    spawnFrom d node desc t = (.ok (), t.wr d (refusal 2)) := by
  simp only [spawnFrom]
  rw [M.get_bind, if_pos ⟨hnode, ne_true_of_eq_false hout⟩]
  rfl

theorem spawnFrom_used (hnode : node ≠ 0xFFFF#16) (hin : t.nodeIn t.curPart node = true)
    (hused : (t.node node).holds = true) :
    spawnFrom d node desc t = (.error (.trap (plainTrap Cause.engerr (node.setWidth 64))), t) := by
  simp only [spawnFrom]
  rw [M.get_bind, if_neg (fun h => h.2 hin), if_pos ⟨hnode, hused⟩]
  rfl

/-- No node is asked for, or a free one of the partition. -/
theorem spawnFrom_placed (hplace : node = 0xFFFF#16 ∨ t.nodeIn t.curPart node = true ∧ (t.node node).holds = false) :
    spawnFrom d node desc t =
      (match t.jobRefusal t.curPart t.th.id.vf.toNat desc with
      | some c => modify (fun t => t.wr d (refusal c))
      | none => do
        release
        modify (fun t =>
          let r := t.acceptJob t.curPart t.th.id.vf.toNat desc t.th.id.job node none
          r.2.wr d (r.1.setWidth 64)) : M Unit) t := by
  have hin : ¬ (node ≠ 0xFFFF#16 ∧ ¬ t.nodeIn t.curPart node = true) := fun h => h.2 (hplace.resolve_left h.1).1
  have hfree : ¬ (node ≠ 0xFFFF#16 ∧ (t.node node).holds = true) := fun h =>
    Bool.eq_false_iff.mp (hplace.resolve_left h.1).2 h.2
  simp only [spawnFrom]
  rw [M.get_bind, if_neg hin, if_neg hfree]

theorem spawnFrom_refused {c : Nat}
    (hplace : node = 0xFFFF#16 ∨ t.nodeIn t.curPart node = true ∧ (t.node node).holds = false)
    (hjob : t.jobRefusal t.curPart t.th.id.vf.toNat desc = some c) :
    spawnFrom d node desc t = (.ok (), t.wr d (refusal c)) := by
  rw [spawnFrom_placed hplace, hjob]
  rfl

theorem spawnFrom_accepted
    (hplace : node = 0xFFFF#16 ∨ t.nodeIn t.curPart node = true ∧ (t.node node).holds = false)
    (hjob : t.jobRefusal t.curPart t.th.id.vf.toNat desc = none) (hclear : t.clear = true) :
    spawnFrom d node desc t = (.ok (),
      (let u := t.drainAll
       let r := u.acceptJob u.curPart u.th.id.vf.toNat desc u.th.id.job node none
       r.2.wr d (r.1.setWidth 64))) := by
  rw [spawnFrom_placed hplace, hjob]
  exact M.bind_ok _ _ t _ () (release_ok hclear)

/-! ### JDONE and JSTAT (R339, R340) -/

/-- Nothing holds up what writes nothing. -/
theorem State.rangesHeld_nil (self : Option Nat) : s.rangesHeld self [] = false := rfl

/-- The ranges that the end of the thread's job writes: its completion word, unless it has been settled. -/
def State.doneRanges (s : State) : List (Nat × Nat) :=
  match (s.part s.curPart).job? s.th.id.job with
  | some j => if j.finished then [] else s.completionRanges j
  | none => []

theorem State.doneRanges_free (h : ∀ j : Job, (t.part t.curPart).job? t.th.id.job = some j → j.finished = false →
    t.rangesHeld (some t.cur) (t.completionRanges j) = false) : t.rangesHeld (some t.cur) t.doneRanges = false := by
  unfold State.doneRanges
  split
  case h_1 j hj =>
    split
    case isTrue => exact State.rangesHeld_nil _
    case isFalse hopen => exact h j hj (Bool.eq_false_iff.mpr hopen)
  case h_2 => exact State.rangesHeld_nil _

theorem jdone_settles (hmode : s.th.sc.mode ≠ .S) (hwindow : s.th.hw.window = none) (hclear : s.clear = true)
    (hfree : s.drainAll.rangesHeld (some s.drainAll.cur) s.drainAll.doneRanges = false) :
    exec (.jdone a) s =
      (let t := s.drainAll
       let u := t.settleDone t.curPart t.th.id.job ((s.rd a).setWidth 32)
       .next ((u.modJob t.curPart t.th.id.job (fun j => { j with slot := none })).emptySlot t.cur true)) := by
  have hrelease : (do drainBuffer; awaitTrains : M Unit) s = (.ok (), s.drainAll) := release_ok hclear
  show execJdone a s = _
  unfold execJdone
  rw [if_neg hmode, if_neg (by simp [hwindow]), hrelease]
  exact if_neg (ne_true_of_eq_false hfree)

theorem jstat_reads (ha : (s.rd a).toNat < 2 ^ 32) :
    exec (.jstat d a) s =
      (let id : BitVec 32 := (s.rd a).setWidth 32
       ((s.wr d (BitVec.ofNat 64 (s.jobWord id))).modHw (fun h => { h with
         settles := if s.jobWord id % 8 = 4 then id :: h.settles else h.settles })).retires) := by
  refine State.conclude_ok ?_
  rw [need_bind, if_pos (decide_eq_true ha)]
  rfl

/-! ### JDEADL (R341) -/

/-- A deadline is written to a job and the thread that runs it; the issuing thread is the one in hand. -/
def State.writeDeadline (t : State) (id : BitVec 32) (j : Job) (dl : W64) : State :=
  let t1 := t.modJob t.curPart id (fun j => { j with deadline := dl })
  let t2 := match j.slot with
    | some n => t1.modThread n (fun h => { h with id := { h.id with deadline := dl } })
    | none => t1
  if id = t.th.id.job then { t2 with th := { t2.th with id := { t2.th.id with deadline := dl } } } else t2

theorem jdeadl_other (hjob : s.deadlineJob ((s.rd a).setWidth 32) = none) :
    exec (.jdeadl d a b) s = (s.wr d 0).retires := by
  refine State.conclude_ok ?_
  rw [hjob]
  rfl

theorem jdeadl_reads (hjob : s.deadlineJob ((s.rd a).setWidth 32) = some (id, j)) (hb : s.rd b = 0#64) :
    exec (.jdeadl d a b) s = (s.wr d j.deadline).retires := by
  refine State.conclude_ok ?_
  rw [hjob]
  exact congrFun (if_pos hb) s

theorem jdeadl_writes (hjob : s.deadlineJob ((s.rd a).setWidth 32) = some (id, j)) (hb : s.rd b ≠ 0#64) :
    exec (.jdeadl d a b) s =
      (let dl := newDeadline (decide (s.th.sc.mode = .U)) j (s.rd b)
       let t4 := (s.tick.writeDeadline id j dl).wr d dl
       (if dl.toNat ≤ s.tick.now.toNat then t4.abandon s.tick.curPart id 1 else t4).retires) := by
  refine State.conclude_ok ?_
  rw [hjob]
  exact congrFun (if_neg hb) s

theorem newDeadline_privileged {x : W64} (hx : x ≠ 0#64) : newDeadline false j x = x :=
  if_neg hx

/-- U mode only lowers a deadline that there is. -/
theorem newDeadline_user {x : W64} (hx : x ≠ 0#64) (hj : j.deadline ≠ 0#64) :
    (newDeadline true j x).toNat = min x.toNat j.deadline.toNat := by
  rw [newDeadline, if_neg hx, if_pos (by simp [hj])]
  by_cases hlt : x.toNat < j.deadline.toNat
  · rw [if_pos (BitVec.ult_iff_toNat_lt.mpr hlt)]
    omega
  · rw [if_neg (fun h => hlt (BitVec.ult_iff_toNat_lt.mp h))]
    omega

end Jobs

/-- Settles O12: SPAWN by what its descriptor's job meets, the others by the job they name. -/
theorem jobs : Obligations.Jobs := by
  refine ⟨fun s t d a b desc hb hdesc => ?spawn, fun s d a b =>
    ⟨fun hmode hwindow hclear hfree => jdone_settles hmode hwindow hclear (State.doneRanges_free hfree), jstat_reads,
      jdeadl_other, fun id j => jdeadl_reads, fun id j hjob hb => ?deadline, ?time⟩⟩
  case spawn =>
    have hfrom := spawn_from (d := d) hb hdesc
    exact ⟨fun hnode hout => hfrom.trans (State.conclude_ok (spawnFrom_outside hnode hout)),
      fun hnode hin hused hmany => hfrom.trans (State.conclude_trap (spawnFrom_used hnode hin hused) hmany),
      fun c hplace hjob => hfrom.trans (State.conclude_ok (spawnFrom_refused hplace hjob)),
      fun hplace hjob hclear => hfrom.trans (State.conclude_ok (spawnFrom_accepted hplace hjob hclear))⟩
  case deadline =>
    have hwrites := jdeadl_writes (d := d) hjob hb
    refine ⟨fun hmode => ?_, fun hmode hj => ?_, fun hahead => ?_, fun hreached => ?_⟩
    · rw [decide_eq_false hmode]
      exact newDeadline_privileged hb
    · rw [decide_eq_true hmode]
      exact newDeadline_user hb hj
    · exact hwrites.trans (congrArg State.retires (if_neg hahead.not_ge))
    · exact hwrites.trans (congrArg State.retires (if_pos hreached))
  case time =>
    refine ⟨if s.tick.now.ult s.tick.hub.ptpLast then s.tick.hub.ptpLast else s.tick.now, ?_, rfl⟩
    by_cases hlt : s.tick.now.toNat < s.tick.hub.ptpLast.toNat
    · rw [if_pos hlt, if_pos (BitVec.ult_iff_toNat_lt.mpr hlt)]
    · rw [if_neg hlt, if_neg (fun h => hlt (BitVec.ult_iff_toNat_lt.mp h))]

end Sys2Proof.Machine
end

section
/-!
PROOF. Vector configuration, SETVL and VINDEX (R287, R351 to R355): the forms behind the vector gate.
-/

namespace Sys2Proof.Machine

open Sys2Proof

section VectorConfiguration

variable {s u : State} {a b d : BitVec 5} (hmode : s.th.sc.mode ≠ .S) (hvec : s.th.tr.absent = false)

include hmode hvec

/-! ### VCFG (R351, R410) -/

/-- A vtype under which NREG stays, or with no parking area, drops no parked frame. -/
theorem vcfg_installs (hok : s.vtypeOk (s.rd a).toNat = true)
    (hkeep : ¬ ((vtOf (s.rd a).toNat).nregE ≠ s.vt.nregE ∧ s.th.tr.vsave ≠ 0#52)) :
    exec (.vcfg d a) s = ((s.setVtype (s.rd a).toNat).wr d (s.th.vec.vtype.setWidth 64)).retires := by
  refine State.conclude_gate hmode hvec ?_
  rw [need_bind, if_pos hok, if_neg hkeep]
  rfl

theorem vcfg_drops {ps : List (List (W64 × Phys × Nat))} (hok : s.vtypeOk (s.rd a).toNat = true)
    (hnreg : (vtOf (s.rd a).toNat).nregE ≠ s.vt.nregE) (hsave : s.th.tr.vsave ≠ 0#52)
    (hplaces : translateAll .store [(s.parkHeader, 8)] s = (.ok ps, u)) :
    exec (.vcfg d a) s = (((u.storeAt (ps.headD []) (leBytes 8 0)).setVtype (s.rd a).toNat).wr d
      (s.th.vec.vtype.setWidth 64)).retires := by
  refine State.conclude_gate hmode hvec ?_
  rw [need_bind, if_pos hok, if_pos ⟨hnreg, hsave⟩]
  exact M.bind_ok _ _ s u ps hplaces

theorem vcfg_illegal (hok : s.vtypeOk (s.rd a).toNat = false) (hmany : s.cv.many = false) :
    exec (.vcfg d a) s = s.traps (plainTrap Cause.illop s.evalWord) := by
  refine State.conclude_trap ((M.bind_ok _ _ s s () (vectorGate_ok hmode hvec)).trans ?_) hmany
  rw [need_bind, if_neg (ne_true_of_eq_false hok)]

/-! ### VKEEP and VDEAD (R353) -/

theorem vkeep_adds (ha : (s.rd a).toNat < 2 ^ 32) :
    exec (.vkeep d a) s =
      (let k := BitVec.ofNat 32 ((s.th.vec.vkeep.toNat ||| (s.rd a).toNat) % 2 ^ s.vt.nreg)
       (((s.modVec (fun v => { v with vkeep := k })).dirtyCfg).wr d (k.setWidth 64)).retires) := by
  refine State.conclude_gate hmode hvec ?_
  rw [need_bind, if_pos (decide_eq_true ha)]
  rfl

theorem vdead_removes (ha : (s.rd a).toNat < 2 ^ 32) :
    exec (.vdead d a) s =
      (let m := BitVec.ofNat 32 ((s.rd a).toNat % 2 ^ s.vt.nreg)
       let k := s.th.vec.vkeep &&& ~~~ m
       ((((s.modVec (fun v => { v with vkeep := k })).dirtyCfg).modTr
         (fun r => { r with dReg := r.dReg &&& ~~~ m })).forget (regsOf m 32)).wr d (k.setWidth 64)).retires := by
  refine State.conclude_gate hmode hvec ?_
  rw [need_bind, if_pos (decide_eq_true ha)]
  rfl

/-! ### SETVL (R287, R352) -/

omit hmode hvec in
/-- The held set that SETVL asks for. -/
def State.setvlHold (s : State) : Hold :=
  if s.th.hw.window.isSome then { loc := s.th.held.loc, remote := s.th.held.remote, pvc := s.th.held.pvc }
  else s.targetSet (min s.th.held.cap.toNat s.th.held.pwr.toNat)

omit hmode hvec in
/-- The end of the elements that the thread has consumed of its chain. -/
def State.consumed (s : State) : Nat := s.th.vec.vcur.toNat + s.th.vec.vl.toNat

omit hmode hvec in
/-- The chain slot that SETVL reads. -/
def State.boundChain (s : State) : Chain := s.chain s.th.vec.chSlot.toNat

omit hmode hvec in
/-- The elements that SETVL grants of a request. -/
def State.setvlGrant (s : State) (req : Nat) : Nat :=
  min req (min (vlmaxOf s.vt s.setvlHold.count)
    (if s.th.vec.chBound then s.boundChain.mark.toNat - s.consumed else req))

omit hmode hvec in
theorem State.setvlGrant_free (h : s.th.vec.chBound = false) (req : Nat) :
    s.setvlGrant req = min req (vlmaxOf s.vt s.setvlHold.count) := by
  rw [State.setvlGrant, if_neg (ne_true_of_eq_false h)]
  omega

omit hmode hvec in
theorem State.setvlGrant_bound (h : s.th.vec.chBound = true) (req : Nat) :
    s.setvlGrant req = min req (min (vlmaxOf s.vt s.setvlHold.count) (s.boundChain.mark.toNat - s.consumed)) := by
  rw [State.setvlGrant, if_pos h]

omit hmode hvec in
/-- No yield request stops SETVL. -/
theorem State.not_yielding (h : s.th.hw.window ≠ none ∨ s.th.held.yreq = false) :
    ¬ (s.th.hw.window.isNone = true ∧ s.th.held.yreq = true) := by
  rintro ⟨hnone, hyreq⟩
  rcases h with hwindow | hno
  · exact hwindow (Option.isNone_iff_eq_none.mp hnone)
  · exact ne_true_of_eq_false hno hyreq

theorem setvl_yields (hwindow : s.th.hw.window = none) (hyreq : s.th.held.yreq = true) (hmany : s.cv.many = false) :
    exec (.setvl d a) s = (s.modHeld (fun x => { x with yreq := false })).traps (plainTrap Cause.yieldreq 0) := by
  refine State.conclude_trap ((M.bind_ok _ _ s s () (vectorGate_ok hmode hvec)).trans ?_) hmany
  rw [if_pos ⟨by simp [hwindow], hyreq⟩]
  rfl

/-- SETVL that need not wait moves the registers, then writes vl. -/
theorem setvl_grants (hgo : s.th.hw.window ≠ none ∨ s.th.held.yreq = false)
    (hready : ¬ (s.setvlGrant (s.rd a).toNat = 0 ∧ 0 < (s.rd a).toNat ∧ s.th.vec.chBound = true ∧
      ¬ s.boundChain.fin = true))
    (hmove : moveRegs s.setvlHold s = (.ok (), u)) :
    exec (.setvl d a) s =
      (((if s.th.vec.chBound then (u.applyHold s.setvlHold).modVec (fun x =>
          { x with vcur := BitVec.ofNat 64 s.consumed, chFinal := s.boundChain.fin })
        else u.applyHold s.setvlHold).setVl (s.setvlGrant (s.rd a).toNat)).wr d
          (BitVec.ofNat 64 (s.setvlGrant (s.rd a).toNat))).retires := by
  refine State.conclude_gate hmode hvec ?_
  rw [if_neg (State.not_yielding hgo)]
  refine (congrFun (if_neg hready) s).trans ?_
  exact M.bind_ok _ _ s u () hmove

theorem setvl_waits (hgo : s.th.hw.window ≠ none ∨ s.th.held.yreq = false) (hbound : s.th.vec.chBound = true)
    (hfin : s.boundChain.fin = false) (hreq : 0 < (s.rd a).toNat) (hmark : s.boundChain.mark.toNat ≤ s.consumed) :
    exec (.setvl d a) s = s.awaits (.chain s.boundChain.mark s.boundChain.fin s.th.held.cap s.th.held.yreq
      s.th.held.pwr) := by
  have hgrant : s.setvlGrant (s.rd a).toNat = 0 := by
    rw [State.setvlGrant_bound hbound]
    omega
  refine State.conclude_wait ((M.bind_ok _ _ s s () (vectorGate_ok hmode hvec)).trans ?_)
  rw [if_neg (State.not_yielding hgo)]
  exact congrFun (if_pos ⟨hgrant, hreq, hbound, ne_true_of_eq_false hfin⟩) s

omit hmode hvec

/-! ### VINDEX (R355) -/

theorem vindex_writes {c : Bool} {p : BitVec 5} {i : BitVec 8} {k : BitVec 7}
    (hvec : s.vecOk [d] (Vt.isIn [0, 1, 2, 3, 6]) = true) :
    exec (.vindex c d p i k) s = (s.mapElems d p (fun e => s.vt.res
      (if s.vt.cls = 3 then cvtIF (fmtOf s.vt.fmt s.vt.sewE) 0 s.vt.rnd (i.toInt + e * k.toInt)
       else { val := lowN s.vt.sew (i.toInt + e * k.toInt), ev := 0 }))).retires := by
  have hvalue : vindexOf s.vt i.toInt k.toInt = fun e : Nat => s.vt.res
      (if s.vt.cls = 3 then cvtIF (fmtOf s.vt.fmt s.vt.sewE) 0 s.vt.rnd (i.toInt + e * k.toInt)
       else { val := lowN s.vt.sew (i.toInt + e * k.toInt), ev := 0 }) :=
    funext fun e => (apply_ite s.vt.res _ _ _).symm
  rw [← hvalue]
  exact State.conclude_checks (g := fun t u => u.mapElems d p (vindexOf t i.toInt k.toInt)) hvec

end VectorConfiguration

/-- Settles O14: VCFG by whether a parked frame goes, SETVL by whether a chain is bound. -/
theorem vectorConfiguration : Obligations.VectorConfiguration := by
  refine ⟨⟨fun s d a b hmode hvec => ⟨fun hok hnreg => ?same, fun hok hsave => ?unparked, fun ps u hok => ?drops,
    vcfg_illegal hmode hvec, vkeep_adds hmode hvec, vdead_removes hmode hvec, State.conclude_gate hmode hvec rfl⟩,
    fun s c d p i k => vindex_writes⟩, fun s u d a hmode hvec => ⟨setvl_yields hmode hvec,
    fun hbound hgo => ?free, fun hbound hgo => ?bound, fun hbound hgo => ?waits⟩⟩
  case same => exact vcfg_installs hmode hvec hok (fun h => h.1 hnreg)
  case unparked => exact vcfg_installs hmode hvec hok (fun h => h.2 hsave)
  case drops => exact vcfg_drops hmode hvec hok
  case free =>
    intro h hold grant hmove
    have hready := setvl_grants (d := d) (a := a) hmode hvec hgo (fun h => by simp [hbound] at h) hmove
    rw [State.setvlGrant_free hbound, if_neg (ne_true_of_eq_false hbound)] at hready
    exact hready
  case bound =>
    intro h hold ch cur grant hgrant hmove
    have hready := setvl_grants (d := d) (a := a) hmode hvec hgo (fun h => ?_) hmove
    · rw [State.setvlGrant_bound hbound, if_pos hbound] at hready
      exact hready
    · obtain ⟨hzero, hreq, -, hfin⟩ := h
      rw [State.setvlGrant_bound hbound] at hzero
      rcases hgrant with hsome | hnone | hfinal
      · exact hsome hzero
      · exact hreq.ne' hnone
      · exact hfin hfinal
  case waits => exact setvl_waits hmode hvec hgo hbound

end Sys2Proof.Machine
end

section
/-!
PROOF. Store buffers, trains, the host, the twin and ends of waits (R266, R177, R179, R278, R279, R418, R419):
each event where its precondition holds and where it does not.
-/

namespace Sys2Proof.Machine

open Sys2Proof

section OrderingAndWaits

variable {s u : State} {slot i n : Nat}

/-! ### Store buffers (R266, R267) -/

/-- The beats of a buffer hold its entries, in order. -/
theorem beatGroups_flatten (l : List BufEntry) : (beatGroups l).flatten = l := by
  induction l with
  | nil => rfl
  | cons e r ih =>
    unfold beatGroups
    split
    · next g gs _ hgs => simpa [hgs] using ih
    · simpa using ih

/-- No beat is empty. -/
theorem ne_nil_of_mem_beatGroups {l g : List BufEntry} (h : g ∈ beatGroups l) : g ≠ [] := by
  induction l generalizing g with
  | nil => cases h
  | cons e r ih =>
    unfold beatGroups at h
    split at h
    · next g' gs _ hgs =>
      rcases List.mem_cons.mp h with rfl | hr
      · exact List.cons_ne_nil _ _
      · exact ih (hgs ▸ List.mem_cons_of_mem _ hr)
    · rcases List.mem_cons.mp h with rfl | hr
      · exact List.cons_ne_nil _ _
      · exact ih hr

/-- An entry with writes, all of them local to the slot, makes its beat local. -/
theorem State.drainLocal_of_mem {g : List BufEntry} {x : BufEntry} (hx : x ∈ g) (hne : x.writes ≠ [])
    (hlocal : ∀ w ∈ x.writes, s.dieOfLoc w.1 = some (dieOfTile (tileOf slot))) : s.drainLocal slot g = true := by
  obtain ⟨w, hw⟩ := List.exists_mem_of_ne_nil _ hne
  exact List.any_eq_true.mpr ⟨w, List.mem_flatMap.mpr ⟨x, hx, hw⟩, beq_iff_eq.mpr (hlocal w hw)⟩

/-- Beats that all are local go in order: the oldest is the only one that may be next. -/
theorem State.nextBeats_local {g : List BufEntry} {gs : List (List BufEntry)}
    (h : ∀ x ∈ g :: gs, s.drainLocal slot x = true) : s.nextBeats slot (g :: gs) = [0] := by
  have hlater : ∀ i ∈ List.range gs.length, ((List.range (i + 1)).any
      (fun j => s.keepsOrder slot ((g :: gs).getD j []) ((g :: gs).getD (i + 1) []))) = true := by
    intro i hi
    have hi : i < gs.length := List.mem_range.mp hi
    refine List.any_eq_true.mpr ⟨0, List.mem_range.mpr (Nat.succ_pos i), ?_⟩
    have hfirst : s.drainLocal slot g = true := h g List.mem_cons_self
    have hthis : s.drainLocal slot (gs.getD i []) = true := by
      rw [List.getD_eq_getElem _ _ hi]
      exact h _ (List.mem_cons_of_mem _ (List.getElem_mem hi))
    rw [State.keepsOrder, List.getD_cons_zero, List.getD_cons_succ, hfirst, hthis]
    rfl
  unfold State.nextBeats
  rw [List.length_cons, List.range_succ_eq_map, List.filter_cons, if_pos (by simp), List.filter_map]
  refine congrArg (0 :: ·) (List.map_eq_nil_iff.mpr (List.filter_eq_nil_iff.mpr fun i hi => ?_))
  simpa using List.any_eq_true.mp (hlater i hi)

theorem drain_held (hnext : (s.nextBeats slot (beatGroups (s.thread slot).hw.buf))[
      Config.freeNat s.free % max 1 (s.nextBeats slot (beatGroups (s.thread slot).hw.buf)).length]? = some i)
    (hheld : ((beatGroups (s.thread slot).hw.buf).getD i []).any (fun e => s.writesHeld (some slot) e.kid e.writes) =
      true) :
    exec (.storeBufferDrain slot) s =
      .next (s.callBack (((beatGroups (s.thread slot).hw.buf).getD i []).flatMap (fun e => rangesOf e.writes))) := by
  show execStoreBufferDrain slot s = _
  simp only [execStoreBufferDrain, hnext]
  exact if_pos hheld

theorem drain_performed (hnext : (s.nextBeats slot (beatGroups (s.thread slot).hw.buf))[
      Config.freeNat s.free % max 1 (s.nextBeats slot (beatGroups (s.thread slot).hw.buf)).length]? = some i)
    (hfree : ((beatGroups (s.thread slot).hw.buf).getD i []).any (fun e => s.writesHeld (some slot) e.kid e.writes) =
      false) :
    exec (.storeBufferDrain slot) s =
      .next ((((beatGroups (s.thread slot).hw.buf).getD i []).foldl State.performEntry
        (if (s.nextBeats slot (beatGroups (s.thread slot).hw.buf)).length = 1 then s else s.bump)).modThread slot
        (fun t => { t with hw := { t.hw with
          buf := ((beatGroups (s.thread slot).hw.buf).eraseIdx i).flatten } })) := by
  show execStoreBufferDrain slot s = _
  simp only [execStoreBufferDrain, hnext]
  exact if_neg (ne_true_of_eq_false hfree)

/-- Where all are local the oldest beat is performed. -/
theorem drain_oldest {e : BufEntry} {rest : List BufEntry} (hbuf : (s.thread slot).hw.buf = e :: rest)
    (hmore : e.more = false) (hfree : s.writesHeld (some slot) e.kid e.writes = false)
    (hlocal : ∀ x ∈ e :: rest, x.writes ≠ [] ∧ ∀ w ∈ x.writes, s.dieOfLoc w.1 = some (dieOfTile (tileOf slot))) :
    exec (.storeBufferDrain slot) s =
      .next ((s.performEntry e).modThread slot (fun t => { t with hw := { t.hw with buf := rest } })) := by
  have hgroups : beatGroups (s.thread slot).hw.buf = [e] :: beatGroups rest := by
    rw [hbuf, beatGroups, hmore]
  have hnext : s.nextBeats slot (beatGroups (s.thread slot).hw.buf) = [0] := by
    rw [hgroups]
    refine State.nextBeats_local fun g hg => ?_
    obtain ⟨x, hx⟩ := List.exists_mem_of_ne_nil g (ne_nil_of_mem_beatGroups (l := e :: rest) (by
      rwa [← hbuf, hgroups]))
    have hmem : x ∈ e :: rest := by
      rw [← beatGroups_flatten (e :: rest), ← hbuf, hgroups]
      exact List.mem_flatten.mpr ⟨g, hg, hx⟩
    exact State.drainLocal_of_mem hx (hlocal x hmem).1 (hlocal x hmem).2
  have hperformed := drain_performed (i := 0) (by rw [hnext]; simp [Nat.mod_one]) (by rw [hgroups]; simp [hfree])
  rw [hperformed, hnext, hgroups]
  show Host.Outcome.next ((s.performEntry e).modThread slot (fun t =>
    { t with hw := { t.hw with buf := (beatGroups rest).flatten } })) = _
  rw [beatGroups_flatten]

theorem drain_empty (hbuf : (s.thread slot).hw.buf = []) : exec (.storeBufferDrain slot) s = .next s := by
  show execStoreBufferDrain slot s = _
  simp [execStoreBufferDrain, hbuf, beatGroups, State.nextBeats]

/-! ### Trains (R177, R179) -/

variable {dest : Dest} {t : Train}

theorem trainArrival_performed (hfind : (s.thread slot).hw.trains.find? (fun t => t.dest == dest && !t.arrived) = some t)
    (hfree : s.writesHeld none t.kid t.writes = false) (htwin : dest = .twin → s.twinFails = false) :
    exec (.trainArrival slot dest) s = .next ((s.performTrain t).modThread slot (fun h => { h with hw := { h.hw with
      trains := modFirst (fun t => t.dest == dest && !t.arrived)
        (fun x => { x with arrived := true, error := x.error || s.trainFails t }) h.hw.trains } })) := by
  have hdelivers : ¬ (dest = .twin ∧ s.twinFails = true) := fun h => ne_true_of_eq_false (htwin h.1) h.2
  show execTrainArrival slot dest s = _
  simp only [execTrainArrival, hfind]
  rw [if_neg (ne_true_of_eq_false hfree), if_neg hdelivers]

theorem trainArrival_refused (hfind : (s.thread slot).hw.trains.find? (fun t => t.dest == dest && !t.arrived) = some t)
    (hfree : s.writesHeld none t.kid t.writes = false) (hdest : dest = .twin) (hfails : s.twinFails = true) :
    exec (.trainArrival slot dest) s = .next (s.bump.modThread slot (fun h => { h with hw := { h.hw with
      trains := modFirst (fun t => t.dest == dest && !t.arrived)
        (fun x => { x with arrived := true, error := x.error || true }) h.hw.trains } })) := by
  show execTrainArrival slot dest s = _
  simp only [execTrainArrival, hfind]
  rw [if_neg (ne_true_of_eq_false hfree), if_pos ⟨hdest, hfails⟩]

theorem trainAck_back (hfind : (s.thread slot).hw.trains.find? (fun t => t.dest == dest && t.arrived) = some t) :
    exec (.trainAck slot dest) s = .next (s.modThread slot (fun h => { h with hw := { h.hw with
      trains := h.hw.trains.eraseP (fun t => t.dest == dest && t.arrived)
      unack := lowerLanes h.hw.unack t.lanes
      trainErr := if t.error then h.hw.trainErr ++ (t.elems.head?.map (·.1)).toList else h.hw.trainErr } })) := by
  show execTrainAck slot dest s = _
  simp only [execTrainAck, hfind]

/-! ### The host (R278, R279) -/

/-- What neither a function, a partition, a thread nor the hub's count is, a MAC failure leaves as it was. -/
theorem State.macFailure_frames (vfs : List Nat) : (s.macFailure vfs).mem.frames = s.mem.frames := by
  refine foldl_keeps (fun u : State => u.mem.frames = s.mem.frames) State.failFunction (fun u vf hu => ?_) vfs s rfl
  refine foldl_keeps (fun v : State => v.mem.frames = s.mem.frames) _ (fun v k hv => ?_) _ _ hu
  unfold State.modThread
  split <;> exact hv

theorem Mem.frames_encryptLines (l : List Nat) (m : Mem) (kid : Nat) (f : Nat → Nat) (c : Counters)
    (x : Nat → BitVec 512) : (l.foldl (fun m k => m.encryptLine kid (f k) c (x k)) m).frames = m.frames := by
  refine foldl_keeps (fun k : Mem => k.frames = m.frames) _ ?_ l m rfl
  exact fun _ _ h => h

theorem State.writeback_frames (line kid : Nat) : (s.writeback line kid).mem.frames = s.mem.frames := by
  unfold State.writeback
  dsimp only
  split
  · rfl
  · split
    · exact State.macFailure_frames _
    · exact Mem.frames_encryptLines ..

theorem State.claim_frames (loc kid : Nat) : (s.claim loc kid).mem.frames = s.mem.frames := by
  unfold State.claim
  split
  · rfl
  · dsimp only
    split
    · unfold State.refetch
      dsimp only
      split
      · rfl
      · exact State.macFailure_frames (s := s.modMem _) _
    · rfl

theorem State.l2Fill_frames (key : Nat) (w : L2Way) : (s.l2Fill key w).mem.frames = s.mem.frames := by
  unfold State.l2Fill
  dsimp only
  split
  · rfl
  · split
    · rfl
    · split
      · exact State.writeback_frames ..
      · rfl

theorem State.l2Access_frames (loc kid : Nat) (al : Alloc) (w : Bool) :
    (s.l2Access loc kid al w).mem.frames = s.mem.frames := by
  unfold State.l2Access
  split
  · rfl
  · dsimp only
    split
    · exact State.claim_frames ..
    · split
      · split
        · exact (State.writeback_frames ..).trans (State.claim_frames ..)
        · exact State.claim_frames ..
      · exact (State.l2Fill_frames ..).trans (State.claim_frames ..)

/-- The traffic of an access at its slices moves no frame. -/
theorem State.touch_frames (ls : List Nat) (kid : Nat) (al : Nat → Alloc) (w : Bool) :
    (s.touch ls kid al w).mem.frames = s.mem.frames := by
  refine foldl_keeps (fun u : State => u.mem.frames = s.mem.frames) _ (fun u l hu => ?_) ls s rfl
  refine Eq.trans ?_ ((State.l2Access_frames (l * 128) kid (al l) w).trans hu)
  unfold State.countHost
  split <;> rfl

variable {line : Nat} {data : List Byte}

/-- A line that the host may hold: bring-up is over, its frame is assigned, and its key has not failed. -/
theorem State.hostMay_parts (h : s.hostMay line = true) : s.hub.bootDone = true ∧
    (s.frame (line * 128 / 2 ^ 21)).st = .assigned ∧ s.kidFailed (s.kidOf (line * 128)) = false := by
  simpa [State.hostMay, and_assoc] using h

theorem State.hostReply_clean (hkey : s.kidFailed (s.kidOf (line * 128)) = false)
    (hframe : (s.frame (line * 128 / 2 ^ 21)).st = .assigned) (hclean : s.poisoned (line * 128) 128 = false) :
    s.hostReply line = some (s.peek (line * 128) 128) :=
  (if_neg (ne_true_of_eq_false hkey)).trans ((if_neg (not_not_intro hframe)).trans
    (if_neg (ne_true_of_eq_false hclean)))

theorem State.hostReply_poison (hframe : (s.frame (line * 128 / 2 ^ 21)).st = .assigned)
    (hpoison : s.poisoned (line * 128) 128 = true) : s.hostReply line = none := by
  unfold State.hostReply
  dsimp only
  rw [if_neg (not_not_intro hframe), if_pos hpoison, ite_self]

/-- A line that is waited for is not reached yet. -/
theorem hostAccess_waits (hwaits : s.hostWaits line = true) (w : Bool) :
    exec (.hostAccess w line data) s = .next s :=
  if_pos (by simp [hwaits])

section HostReaches

variable (hdevice : isDevice (line * 128) = true) (hdec : s.decoded (line * 128) = true) (hup : s.hub.hostUp = true)
  (hmay : s.hostMay line = true)

include hdevice hdec hup hmay

theorem hostAccess_reaches (hwaits : s.hostWaits line = false) :
    (!s.hub.bootDone || !s.hub.hostUp || !isDevice (line * 128) || !s.decoded (line * 128) || s.hostWaits line) =
      false := by
  simp [(State.hostMay_parts hmay).1, hup, hdevice, hdec, hwaits]

theorem hostAccess_writes (hwaits : s.hostWaits line = false) :
    exec (.hostAccess true line data) s =
      .next (((writesOf (line * 128) (data.take 128)).foldl (fun t w =>
        (t.pokeByte w.1 false w.2).dropDcache none w.1) (s.claim (line * 128) (s.kidOf (line * 128)))).touch [line]
          (s.kidOf (line * 128)) (fun _ => .age 2) true) :=
  (if_neg (ne_true_of_eq_false (hostAccess_reaches hdevice hdec hup hmay hwaits))).trans ((if_neg (by simp [hmay])).trans
    (if_pos rfl))

theorem hostAccess_reads (hwaits : s.hostWaits line = false)
    (hu : s.touch [line] (s.kidOf (line * 128)) (fun _ => .age 0) false = u) :
    exec (.hostAccess false line data) s =
      .next (if (u.hostReply line).isSome then (u.giveHost line).answer (u.hostReply line) else u.answer none) := by
  subst hu
  exact (if_neg (ne_true_of_eq_false (hostAccess_reaches hdevice hdec hup hmay hwaits))).trans
    ((if_neg (by simp [hmay])).trans (if_neg Bool.false_ne_true))

/-- A snoop is answered with the line; the host takes it where it may and nothing holds it. -/
theorem hostSnoop_answers (take : Bool) (hclean : s.poisoned (line * 128) 128 = false) :
    exec (.hostSnoop line take) s = .next ((if take && !s.hostWaits line then s.giveHost line else s).answer
      (some (s.peek (line * 128) 128))) := by
  obtain ⟨hboot, hframe, hkey⟩ := State.hostMay_parts hmay
  show execHostSnoop line take s = _
  unfold execHostSnoop
  rw [if_neg (by simp [hboot, hup, hdevice, hdec]), State.hostReply_clean hkey hframe hclean]
  simp [hmay]

end HostReaches

/-! ### The twin (R418, R419) -/

variable {gpa : BitVec 40} {acc : Inbound}

/-- What an inbound access that is performed leaves: a store at the homes, or an answer. -/
def State.inboundDone (s : State) (acc : Inbound) (p : Phys) (data : List Byte) : State :=
  let n := inboundSize acc data
  let u := (runLines p.loc n).foldl (fun t l => t.claim (l * 128) p.kid) s
  match acc with
  | .store => s.performEntry (BufEntry.plain (writesOf p.loc (data.take n)) p.kid)
  | .load _ => (u.touch (runLines p.loc n) p.kid (fun _ => .age 0) false).answer (some (u.homeBytes p n))
  | .atomic op =>
    let old := leNat (u.homeBytes p n)
    let new := amoNew op.toNat (8 * n) old (leNat (data.take n)) (leNat (data.drop n))
    (u.storeHome p.kid none (fun _ => .age 0) (writesOf p.loc (leBytes n new))).answer (some (leBytes n old))

/-- The entry of the twin's function at an address. -/
def State.twinEntry (s : State) (gpa : BitVec 40) : BitVec 64 := s.st2Entry s.hub.twInvf.toNat (gpa.toNat / 2 ^ 21)

/-- The twin is linked and its entry admits device memory. -/
structure State.TwinOpen (s : State) (gpa : BitVec 40) : Prop where
  enabled : s.hub.twEn = true
  linked : s.hub.twUp = true
  valid : (s.twinEntry gpa).getLsbD 0 = true
  device : st2Home (s.twinEntry gpa) = false
  key : s.keyRefused (s.twinEntry gpa) = false
  decoded : s.decoded (s.st2Phys (s.twinEntry gpa) gpa.toNat).loc = true

/-- An inbound access that is legal, permitted, held up by nothing and meets no poison is performed. -/
theorem twinInbound_performed (hopen : s.TwinOpen gpa)
    (hperm : (inboundAccesses acc).all (permits (s.twinEntry gpa).toNat 1) = true)
    (hlegal : inboundLegal acc gpa.toNat data = true)
    (hheld : (s.windowLine none (s.st2Phys (s.twinEntry gpa) gpa.toNat).loc (inboundSize acc data) ||
      ((inboundAccesses acc).contains Access.store && s.writesHeld none (s.st2Phys (s.twinEntry gpa) gpa.toNat).kid
        (writesOf (s.st2Phys (s.twinEntry gpa) gpa.toNat).loc
          (s.homeBytes (s.st2Phys (s.twinEntry gpa) gpa.toNat) (inboundSize acc data))))) = false)
    (hclean : acc ≠ .store → ((runLines (s.st2Phys (s.twinEntry gpa) gpa.toNat).loc (inboundSize acc data)).foldl
      (fun t l => t.claim (l * 128) (s.st2Phys (s.twinEntry gpa) gpa.toNat).kid) s).poisoned
        (s.st2Phys (s.twinEntry gpa) gpa.toNat).loc (inboundSize acc data) = false) :
    exec (.twinInbound acc gpa data) s =
      .next (s.inboundDone acc (s.st2Phys (s.twinEntry gpa) gpa.toNat) data) := by
  obtain ⟨hen, hup, hvalid, hdevice, hkey, hdec⟩ := hopen
  show execTwinInbound acc gpa data s = _
  unfold execTwinInbound
  refine (if_neg ?_).trans ((if_neg (ne_true_of_eq_false hheld)).trans ((if_neg ?_).trans ?_))
  · show ¬ (!s.hub.twEn || !s.hub.twUp || !(s.twinEntry gpa).getLsbD 0 || st2Home (s.twinEntry gpa) ||
      s.keyRefused (s.twinEntry gpa) || !(inboundAccesses acc).all (permits (s.twinEntry gpa).toNat 1) ||
      !s.decoded (s.st2Phys (s.twinEntry gpa) gpa.toNat).loc || !inboundLegal acc gpa.toNat data) = true
    rw [hen, hup, hvalid, hdevice, hkey, hdec, hperm, hlegal]
    decide
  · exact fun h => ne_true_of_eq_false (hclean h.1) h.2
  · cases acc <;> rfl

theorem twinInbound_refused (h : s.hub.twEn = false ∨ s.hub.twUp = false ∨ (s.twinEntry gpa).getLsbD 0 = false ∨
    st2Home (s.twinEntry gpa) = true ∨ s.keyRefused (s.twinEntry gpa) = true) :
    exec (.twinInbound acc gpa data) s = .next (s.modHub (fun h => { h with reply := none })) := by
  have hcheck : (!s.hub.twEn || !s.hub.twUp || !(s.twinEntry gpa).getLsbD 0 || st2Home (s.twinEntry gpa) ||
      s.keyRefused (s.twinEntry gpa)) = true := by
    rcases h with h | h | h | h | h <;> simp only [h, Bool.not_false, Bool.true_or, Bool.or_true]
  refine if_pos ?_
  show (!s.hub.twEn || !s.hub.twUp || !(s.twinEntry gpa).getLsbD 0 || st2Home (s.twinEntry gpa) ||
    s.keyRefused (s.twinEntry gpa) || _ || _ || _) = true
  rw [hcheck, Bool.true_or, Bool.true_or, Bool.true_or]

/-- An aligned word of 4 or 8 bytes lies in one unit of 2 MiB. -/
theorem aligned_within_unit {x : Nat} (hn : n = 4 ∨ n = 8) (hx : x % n = 0) : x % 2 ^ 21 + n ≤ 2 ^ 21 := by
  rcases hn with rfl | rfl <;> omega

/-! ### Ends of waits (R282) -/

theorem State.modThread_congr {f g : Thread → Thread} (h : f (s.thread n) = g (s.thread n)) :
    s.modThread n f = s.modThread n g := by
  unfold State.modThread
  unfold State.thread at h
  split
  · next hcur => rw [if_pos hcur] at h; rw [h]
  · next hcur => rw [if_neg hcur] at h; rw [h]

/-- A change under a condition that the thread meets. -/
theorem State.modThread_if {c : Thread → Prop} [DecidablePred c] (h : c (s.thread n)) (f : Thread → Thread) :
    s.modThread n (fun t => if c t then f t else t) = s.modThread n f :=
  State.modThread_congr (if_pos h)

theorem State.endWait_ended {w : Wait} {ended : Wait → Bool} (hwait : (s.thread n).hw.wait = some w)
    (hended : ended w = true) :
    s.endWait n ended = s.modThread n (fun t => { t with hw := { t.hw with wait := none } }) := by
  simp only [State.endWait, hwait, hended, if_true]

theorem State.endWait_none {ended : Wait → Bool} (hwait : (s.thread n).hw.wait = none) : s.endWait n ended = s := by
  simp only [State.endWait, hwait]

theorem mmaComplete_done {x : Nat × BitVec 4} (harray : (s.vc (vcOf n)).array = some x) (hx : x.1 = n) :
    exec (.mmaComplete n) s =
      .next ((s.modVc (vcOf n) (fun v => { v with array := none })).endWait n (fun w => w == .array)) := by
  show Host.Outcome.next (s.arrayDone n) = _
  simp only [State.arrayDone, harray]
  rw [if_pos hx]

/-! ### Barriers (R334) -/

section Barrier

variable {g : BitVec 12} {q : BitVec 32} (hwait : (s.thread n).hw.wait = some (.barrier g q))

include hwait

/-- The end of a barrier's wait is told once. -/
theorem Thread.endBarrier_eq (hdone : (s.thread n).hw.barDone = none) :
    (s.thread n).endBarrier (s.part (s.thread n).id.part.toNat) (s.thread n).id.part.toNat =
      (match (tget Group.reset (s.part (s.thread n).id.part.toNat).groups g.toNat).waitEnd q with
      | some freed => { s.thread n with hw := { (s.thread n).hw with barDone := some (g, q, freed) } }
      | none => s.thread n) := by
  unfold Thread.endBarrier
  rw [hwait]
  exact if_pos ⟨rfl, hdone⟩

theorem barwaitResume_ended {freed : Bool} (hdone : (s.thread n).hw.barDone = none)
    (hend : (tget Group.reset (s.part (s.thread n).id.part.toNat).groups g.toNat).waitEnd q = some freed) :
    exec (.barwaitResume n) s = .next (s.modThread n (fun t =>
      { t with hw := { t.hw with wait := none, barDone := some (g, q, freed) } })) := by
  show execBarwaitResume n s = _
  unfold execBarwaitResume
  dsimp only
  rw [Thread.endBarrier_eq hwait hdone, hend]
  dsimp only
  rw [hwait]
  exact congrArg _ (State.modThread_congr rfl)

theorem barwaitResume_open (hdone : (s.thread n).hw.barDone = none)
    (hopen : (tget Group.reset (s.part (s.thread n).id.part.toNat).groups g.toNat).waitEnd q = none) :
    exec (.barwaitResume n) s = .next s := by
  show execBarwaitResume n s = _
  unfold execBarwaitResume
  dsimp only
  rw [Thread.endBarrier_eq hwait hdone, hopen]
  dsimp only
  rw [hwait, hdone]

theorem barwaitResume_done (hdone : (s.thread n).hw.barDone ≠ none) :
    exec (.barwaitResume n) s =
      .next (s.modThread n (fun t => { t with hw := { t.hw with wait := none } })) := by
  have hkeeps : (s.thread n).endBarrier (s.part (s.thread n).id.part.toNat) (s.thread n).id.part.toNat = s.thread n := by
    unfold Thread.endBarrier
    rw [hwait]
    exact if_neg (fun h => hdone h.2)
  obtain ⟨x, hx⟩ := Option.ne_none_iff_exists'.mp hdone
  have hends : s.modThread n (fun _ => { s.thread n with hw := { (s.thread n).hw with wait := none } }) =
      s.modThread n (fun t => { t with hw := { t.hw with wait := none } }) := State.modThread_congr rfl
  show execBarwaitResume n s = _
  unfold execBarwaitResume
  dsimp only
  rw [hkeeps]
  rw [hwait, ← hends]
  split
  · rfl
  · next hnone => exact absurd hx (hnone g q x rfl)

end Barrier

theorem Group.waitEnd_ended {x : Group} {q : BitVec 32} (h : x.live = false ∨ x.passed q = true) :
    x.waitEnd q = some (!x.live) := by
  unfold Group.waitEnd
  cases hlive : x.live
  · rfl
  · exact if_pos (of_decide_eq_true (h.resolve_left (by simp [hlive])))

theorem Group.waitEnd_open {x : Group} {q : BitVec 32} (hlive : x.live = true) (hopen : x.passed q = false) :
    x.waitEnd q = none := by
  unfold Group.waitEnd
  rw [if_neg (by simp [hlive])]
  exact if_neg (of_decide_eq_false hopen)

theorem barwaitResume_idle (hwait : (s.thread n).hw.wait = none) : exec (.barwaitResume n) s = .next s := by
  have hkeeps : (s.thread n).endBarrier (s.part (s.thread n).id.part.toNat) (s.thread n).id.part.toNat = s.thread n := by
    unfold Thread.endBarrier
    rw [hwait]
  show execBarwaitResume n s = _
  unfold execBarwaitResume
  dsimp only
  rw [hkeeps]
  rw [hwait]

theorem rateReduction_marks (hocc : (s.thread n).hw.occ = true) (hpwr : (s.thread n).held.pwr.toNat < (s.thread n).held.count) :
    exec (.rateReduction n) s = .next (s.modThread n (fun t => { t with hw := { t.hw with rate := true } })) :=
  congrArg _ (State.modThread_if (c := fun t => t.hw.occ ∧ t.held.pwr.toNat < t.held.count) ⟨hocc, hpwr⟩ _)

end OrderingAndWaits

/-- A line that the host does not hold yet joins those that it holds. -/
theorem State.giveHost_new {s : State} {line : Nat} (h : s.mem.hostHeld.contains line = false) :
    s.giveHost line = s.modMem (fun m => { m with hostHeld := m.hostHeld ++ [line] }) :=
  congrArg (fun l => s.modMem (fun m => { m with hostHeld := l })) (if_neg (ne_true_of_eq_false h))

/-- The waits that one event each may end: none ends where there is no wait. -/
theorem no_wait_ends {s : State} {n : Nat} (hwait : (s.thread n).hw.wait = none) :
    [exec (.setvlRestart n) s, exec (.napWake n) s, exec (.barwaitResume n) s, exec (.ewaitResume n) s,
      exec (.commitWaitEnd n) s, exec (.queueWaitEnd n) s, exec (.pendingLineFree n) s,
      exec (.tileReleaseWait n) s, exec (.qdrainEnd n) s, exec (.phendResume n) s] =
    List.replicate 10 (.next s) := by
  have hstays : ∀ ended : Wait → Bool, (Host.Outcome.next (s.endWait n ended) : Host.Outcome State Fault Refusal) =
      .next s := fun ended => congrArg _ (State.endWait_none hwait)
  refine List.eq_replicate_iff.mpr ⟨rfl, fun o ho => ?_⟩
  simp only [List.mem_cons, List.not_mem_nil, or_false] at ho
  rcases ho with rfl | rfl | rfl | rfl | rfl | rfl | rfl | rfl | rfl | rfl
  case inr.inr.inl => exact barwaitResume_idle hwait
  all_goals exact hstays _

/-- The host's accesses of a line of device memory, and its snoops. -/
theorem host_line (s : State) (line : Nat) (data : List Byte) (u : State) (hdevice : isDevice (line * 128) = true)
    (hdec : s.decoded (line * 128) = true) (hup : s.hub.hostUp = true) (hmay : s.hostMay line = true)
    (hwaits : s.hostWaits line = false)
    (hu : s.touch [line] (s.kidOf (line * 128)) (fun _ => .age 0) false = u) :
    (u.poisoned (line * 128) 128 = false → u.kidFailed (u.kidOf (line * 128)) = false →
      exec (.hostAccess false line data) s =
        .next ((u.giveHost line).answer (some (u.peek (line * 128) 128)))) ∧
    (u.poisoned (line * 128) 128 = true → exec (.hostAccess false line data) s = .next (u.answer none)) := by
  have hreads := hostAccess_reads (data := data) hdevice hdec hup hmay hwaits hu
  have hframe : (u.frame (line * 128 / 2 ^ 21)).st = .assigned := by
    subst hu
    exact (congrArg (fun t => (tget Frame.reset t (line * 128 / 2 ^ 21)).st) (State.touch_frames ..)).trans
      (State.hostMay_parts hmay).2.1
  refine ⟨fun hclean hkey => ?_, fun hpoison => ?_⟩
  · rw [hreads, State.hostReply_clean hkey hframe hclean]
    rfl
  · rw [hreads, State.hostReply_poison hframe hpoison]
    rfl

/-- What the host's snoop of a clean line leaves. -/
theorem snoop_line (s : State) (line : Nat) (hdevice : isDevice (line * 128) = true)
    (hdec : s.decoded (line * 128) = true) (hup : s.hub.hostUp = true) (hmay : s.hostMay line = true)
    (hclean : s.poisoned (line * 128) 128 = false) :
    let u := s.modHub (fun h => { h with reply := some (s.peek (line * 128) 128) })
    exec (.hostSnoop line false) s = .next u ∧
    (s.hostWaits line = true → exec (.hostSnoop line true) s = .next u) ∧
    (s.hostWaits line = false → s.mem.hostHeld.contains line = false →
      exec (.hostSnoop line true) s =
        .next (u.modMem (fun m => { m with hostHeld := m.hostHeld ++ [line] }))) := by
  have hanswers := fun take => hostSnoop_answers hdevice hdec hup hmay take hclean
  refine ⟨hanswers false, fun hwaits => ?_, fun hwaits hnew => ?_⟩
  · rw [hanswers true, hwaits]
    rfl
  · rw [hanswers true, hwaits, State.giveHost_new hnew]
    rfl

/-- What the twin's accesses of device memory through its function's entries do. -/
theorem twin_entry (s : State) (gpa : BitVec 40) (data : List Byte) (hopen : s.TwinOpen gpa) :
    let e := s.twinEntry gpa
    let p := s.st2Phys e gpa.toNat
    (1 ≤ data.length → gpa.toNat % 2 ^ 21 + data.length ≤ 2 ^ 21 → permits e.toNat 1 .store = true →
      s.windowLine none p.loc data.length = false →
      s.writesHeld none p.kid (writesOf p.loc (s.homeBytes p data.length)) = false →
      exec (.twinInbound .store gpa data) s = .next (s.inboundDone .store p data)) ∧
    (∀ n : Nat, 1 ≤ n → gpa.toNat % 2 ^ 21 + n ≤ 2 ^ 21 → permits e.toNat 1 .load = true →
      s.windowLine none p.loc n = false →
      ((runLines p.loc n).foldl (fun t l => t.claim (l * 128) p.kid) s).poisoned p.loc n = false →
      exec (.twinInbound (.load n) gpa data) s = .next (s.inboundDone (.load n) p data)) ∧
    (∀ op : BitVec 4, op ≠ 9#4 → op.toNat < 9 → data.length = 4 ∨ data.length = 8 → gpa.toNat % data.length = 0 →
      permits e.toNat 1 .load = true → permits e.toNat 1 .store = true →
      s.windowLine none p.loc data.length = false →
      s.writesHeld none p.kid (writesOf p.loc (s.homeBytes p data.length)) = false →
      ((runLines p.loc data.length).foldl (fun t l => t.claim (l * 128) p.kid) s).poisoned p.loc data.length = false →
      exec (.twinInbound (.atomic op) gpa data) s = .next (s.inboundDone (.atomic op) p data)) := by
  intro e p
  refine ⟨fun hone hunit hperm hline hfree => ?store, fun n hone hunit hperm hline hclean => ?load,
    fun op hcas hop hsize halign hload hstore hline hfree hclean => ?atomic⟩
  case store =>
    refine twinInbound_performed hopen (by simpa [inboundAccesses] using hperm) ?_ ?_ (fun h => absurd rfl h)
    · exact (Bool.and_true _).trans (decide_eq_true ⟨hone, hunit⟩)
    · exact Bool.or_eq_false_iff.mpr ⟨hline, hfree⟩
  case load =>
    refine twinInbound_performed hopen (by simpa [inboundAccesses] using hperm) ?_ ?_ (fun _ => hclean)
    · exact (Bool.and_true _).trans (decide_eq_true ⟨hone, hunit⟩)
    · exact Bool.or_eq_false_iff.mpr ⟨hline, rfl⟩
  case atomic =>
    have hbytes : inboundSize (.atomic op) data = data.length := if_neg hcas
    have hunit := aligned_within_unit hsize halign
    refine twinInbound_performed hopen (by simpa [inboundAccesses] using ⟨hload, hstore⟩) ?_ ?_ (fun _ => ?_)
    · have hone : 1 ≤ data.length := by omega
      have hlegal : op.toNat ≤ 9 ∧ (data.length = 4 ∨ data.length = 8) ∧ gpa.toNat % data.length = 0 :=
        ⟨hop.le, hsize, halign⟩
      simp only [inboundLegal, hbytes, decide_eq_true hlegal, Bool.and_true]
      exact decide_eq_true ⟨hone, hunit⟩
    · rw [hbytes]
      exact Bool.or_eq_false_iff.mpr ⟨hline, hfree⟩
    · rwa [hbytes]

/-- An atomic of the twin that is no CAS has all its bytes for its operand. -/
theorem State.inboundDone_atomic (s : State) {op : BitVec 4} (hcas : op ≠ 9#4) (p : Phys) (data : List Byte) :
    s.inboundDone (.atomic op) p data =
      (let u := (runLines p.loc data.length).foldl (fun t l => t.claim (l * 128) p.kid) s
       let old := leNat (u.homeBytes p data.length)
       let new := amoNew op.toNat (8 * data.length) old (leNat data) (leNat (data.drop data.length))
       (u.storeHome p.kid none (fun _ => .age 0) (writesOf p.loc (leBytes data.length new))).answer
         (some (leBytes data.length old))) := by
  have hbytes : inboundSize (.atomic op) data = data.length := if_neg hcas
  simp only [State.inboundDone, hbytes, List.take_length]

/-- Settles O41: the events of the store buffers, trains, host and twin, then those that end a slot's wait. -/
theorem orderingAndWaits : Obligations.OrderingAndWaits := by
  refine ⟨fun s => ⟨fun slot i => ?drain, fun slot e rest => drain_oldest, fun slot => drain_empty,
    fun slot dest t => ?arrival, fun slot dest t => trainAck_back, fun line data => ?access, fun line => ?snoop,
    fun line hback => if_pos hback, fun gpa data => ?twin, fun gpa data acc => twinInbound_refused, fun up => rfl⟩, ?waits⟩
  case drain =>
    intro gs next g hnext
    exact ⟨drain_held hnext, drain_performed hnext⟩
  case arrival =>
    intro mine mark hfind hfree
    exact ⟨trainArrival_performed hfind hfree, trainArrival_refused hfind hfree⟩
  case access =>
    intro loc kid u hdevice hdec hup
    refine ⟨hostAccess_waits, fun hwaits hmay => hostAccess_writes hdevice hdec hup hmay hwaits,
      fun hwaits hmay => (host_line s line data u hdevice hdec hup hmay hwaits rfl).1,
      fun hwaits hmay => (host_line s line data u hdevice hdec hup hmay hwaits rfl).2⟩
  case snoop => exact fun hdevice hdec hup hmay hclean => snoop_line s line hdevice hdec hup hmay hclean
  case twin =>
    intro vf e p say hen hup hvalid hhome hkey hdec
    obtain ⟨hstore, hload, hatomic⟩ := twin_entry s gpa data ⟨hen, hup, hvalid, hhome, hkey, hdec⟩
    refine ⟨fun hone hunit hperm hline hfree => ?_, hload, fun op hop hsize halign hl hs hline hfree hclean => ?_⟩
    · refine (hstore hone hunit hperm hline hfree).trans ?_
      simp only [State.inboundDone, inboundSize, List.take_length]
      rfl
    · have hcas : op ≠ 9#4 := by
        rintro rfl
        exact absurd hop (by decide)
      exact (hatomic op hcas hop hsize halign hl hs hline hfree hclean).trans
        (congrArg _ (State.inboundDone_atomic s hcas p data))
  case waits =>
    refine fun s n m => ⟨fun x => mmaComplete_done, fun mark f y c p hwait hchanged => ?chain,
      fun hwait hwake => ?nap, fun g q hwait => ⟨fun hdone hend => ?_, fun hdone hlive hopen => ?_,
        barwaitResume_done hwait⟩, fun id hwait hnode => ?node, fun hwait hcommit => ?commit, fun hwait => ?room,
      fun hwait => ?line, fun t hwait hfree => ?tile, fun hwait => ?queues, fun hwait htrains => ?phend,
      fun hocc hnew => if_pos (by rw [hocc, hnew]; rfl), fun hdetached => if_pos hdetached, rateReduction_marks, no_wait_ends⟩
    case chain => exact congrArg _ (State.endWait_ended hwait (decide_eq_true hchanged))
    case nap => exact congrArg _ (State.endWait_ended hwait (by simpa using hwake))
    case node =>
      refine congrArg _ (State.endWait_ended hwait ?_)
      rcases hnode with h | h <;> simp [h]
    case commit => exact congrArg _ (State.endWait_ended hwait hcommit)
    case room => exact congrArg _ (State.endWait_ended hwait rfl)
    case line => exact congrArg _ (State.endWait_ended hwait rfl)
    case tile => exact congrArg _ (State.endWait_ended hwait (by simp [hfree]))
    case queues => exact congrArg _ (State.endWait_ended hwait rfl)
    case phend => exact congrArg _ (State.endWait_ended hwait (by simp [htrains]))
    · exact barwaitResume_ended hwait hdone (Group.waitEnd_ended hend)
    · exact barwaitResume_open hwait hdone (Group.waitEnd_open hlive hopen)

end Sys2Proof.Machine
end

section
/-!
PROOF. The ringmaster, stops, owners and grants (R366 to R373, R292, R250, R293, R397, R398, R74, R411): each event
under its conditions.
-/

namespace Sys2Proof.Machine

open Sys2Proof

section SchedulerAndStops

variable {s : State} {n : Nat}

/-! ### DISPATCH (R366 to R368) -/

/-- The waiting jobs that have no victim yet. -/
def State.idleJobs (s : State) (n : Nat) : List (Nat × Job) := (s.part n).waitingJobs.filter (fun e => e.2.wants.isNone)

theorem dispatch_class0 {e slot : Nat} {j : Job} (hfirst : earliest (s.placeable n) = some (e, j))
    (hslot : s.slotFor n e j = some slot) : exec (.dispatch n) s = .next ((s.startJob n e slot j).endVisit n) := by
  show execDispatch n s = _
  simp only [execDispatch, hfirst, hslot, Option.getD_some]

theorem dispatch_victim {e v : Nat} {j : Job} (hfirst : earliest (s.placeable n) = none)
    (hstuck : earliest (s.idleJobs n) = some (e, j)) (hvictim : s.victim n j.aff = some v) :
    exec (.dispatch n) s = .next (s.chooseVictim n e v) := by
  unfold State.idleJobs at hstuck
  show execDispatch n s = _
  simp only [execDispatch, hfirst, hstuck, Option.bind_some, hvictim, Option.map_some]

/-- With no class-0 job to place or to make room for, the queues are served. -/
theorem dispatch_shared (hfirst : earliest (s.placeable n) = none)
    (hnone : ∀ x, earliest (s.idleJobs n) = some x → s.victim n x.2.aff = none) :
    exec (.dispatch n) s = .next (s.dispatchShared n) := by
  have hstuck : (earliest (s.idleJobs n)).bind (fun e => (s.victim n e.2.aff).map (fun v => (e.1, v))) = none :=
    Option.bind_eq_none_iff.mpr fun x hx => by rw [hnone x hx]; rfl
  unfold State.idleJobs at hstuck
  show execDispatch n s = _
  simp only [execDispatch, hfirst, hstuck]

/-- The waiting jobs of class 1 to 3 that some slot can take. -/
def State.sharedJobs (s : State) (n : Nat) : List (Nat × Job) := (s.placeable n).filter (fun e => e.2.cls != 0)

/-- The queues that are visited (R366). -/
def State.queuesOf (s : State) (n : Nat) : List Nat :=
  (((s.part n).dropDeficits.waitingJobs.filter (fun e => e.2.cls != 0)).map (fun e => e.2.queue)).eraseDups

/-- Where the visits go on, with the deficits there (log entry 73). -/
def State.visitStart (s : State) (n : Nat) : Nat × Table Nat :=
  let p := (s.part n).dropDeficits
  let first := nextQueue (s.queuesOf n) p.lastQueue
  if p.visiting then (p.lastQueue, p.deficit) else (first, tset 0 p.deficit first (tget 0 p.deficit first + s.weight first))

/-- The queue that is served next, with the deficits then. -/
def State.visited (s : State) (n : Nat) : Option (Nat × Table Nat) :=
  visit (s.queuesOf n) (fun q => (oldest (s.sharedJobs n) q).map (fun e => e.2.lgs)) s.weight
    (9 * ((s.queuesOf n).length + 1)) (s.visitStart n).1 (s.visitStart n).2

/-- A queue with an oldest job is one of a list that is not empty. -/
theorem ne_nil_of_oldest {js : List (Nat × Job)} {q : Nat} {x : Nat × Job} (h : oldest js q = some x) :
    js.isEmpty = false := by
  cases js with
  | nil => cases h
  | cons y r => rfl

theorem State.dispatchShared_eq {q e slot : Nat} {d : Table Nat} {j : Job} (hvisit : s.visited n = some (q, d))
    (hjob : oldest (s.sharedJobs n) q = some (e, j)) (hslot : s.slotFor n e j = some slot) :
    s.dispatchShared n = if !s.headerReady j then (s.readHeader j).2 else
      (((s.modPart n (fun p =>
        { p with lastQueue := q, visiting := true, deficit := tset 0 d q (tget 0 d q - j.lgs) })).startJob n e slot
          j).modPart n Part.dropDeficits).endVisit n := by
  have hsome : (s.sharedJobs n).isEmpty = false := ne_nil_of_oldest hjob
  have hfound : (if (s.sharedJobs n).isEmpty then none else s.visited n) = some (q, d) := by rw [hsome, hvisit]; rfl
  unfold State.dispatchShared
  show (match (if (s.sharedJobs n).isEmpty then none else s.visited n) with
    | none => (s.modPart n Part.dropDeficits).endVisit n
    | some (q, d) =>
      match oldest (s.sharedJobs n) q with
      | none => s
      | some (e, j) =>
        if !s.headerReady j then (s.readHeader j).2 else
        (((s.modPart n (fun p =>
          { p with lastQueue := q, visiting := true, deficit := tset 0 d q (tget 0 d q - j.lgs) })).startJob n e
            ((s.slotFor n e j).getD 0) j).modPart n Part.dropDeficits).endVisit n) = _
  rw [hfound]
  dsimp only
  rw [hjob]
  dsimp only
  rw [hslot]
  rfl

/-! ### The safety net (R365, R372, R373) -/

theorem deadlineReached_abandons {time : Nat} {u : State} (htime : s.atTime time = some u) :
    exec (.deadlineReached n time) s = .next (((u.part n).jobs.filter (fun e =>
      e.2.live && !e.2.finished && (e.2.cls == 0 || e.2.deadline != 0) &&
        decide (e.2.deadline.toNat ≤ time))).foldl (fun t e => t.abandon n (jobIdOf e.1 e.2) 1) u) := by
  show execDeadlineReached n time s = _
  simp only [execDeadlineReached, htime]

/-- What an abandoned job's markers, completion word and node become. -/
def State.settledMarkers (c : State) (n : Nat) (id : BitVec 32) (j : Job) : State :=
  let u := (c.modPart n (fun p => p.leaveGroups (parkedNumber id))).endBarriers n
  let a := u.writeTarget j 0
  let b := a.2.writeTarget j 1
  let v := if j.cause = 5#3 then u else b.2.writeCompletion j (a.1 || b.1)
  ((v.modJob n id (fun j => { j with settling := false, resume := none })).finishJobNode j.node id .cancelled 6).modPart n
    Part.retire

theorem markerWrite_settles {id : BitVec 32} {j : Job} (hjob : (s.part n).job? id = some j) (hst : j.st = .abandoned)
    (hsettling : j.settling = true) (hslot : j.slot = none) (hcmds : (s.cancelCommands n id).commandsOf n id = [])
    (hfree : (s.cancelCommands n id).rangesHeld none ((s.cancelCommands n id).settleRanges j) = false) :
    exec (.markerWrite n id) s = .next ((s.cancelCommands n id).settledMarkers n id j) := by
  show execMarkerWrite n id s = _
  unfold execMarkerWrite
  rw [hjob]
  refine (if_neg (by simp [hst, hsettling, hslot])).trans ((if_neg (not_not_intro hcmds)).trans ?_)
  exact congrArg _ (if_neg (ne_true_of_eq_false hfree))

/-! ### Landing (R397, R398) -/

/-- With no matrix instruction in flight a stop lands where the thread stands. -/
theorem State.landFirst_ok {r : StopReq} {f : StopReq → Bool} (harray : (s.vc (vcOf n)).array = none)
    (hland : (s.thread n).landing = some r) (hf : f r = true) :
    s.landFirst n f = (s.modCv (fun _ => Convoy.single)).land n r Progress.none := by
  have hdone : s.arrayDone n = s := by simp only [State.arrayDone, harray]
  simp only [State.landFirst, hdone, hland, hf, if_true]

/-! ### Writes of a slot's CSRs (R107, R105, R411) -/

theorem acfgWrite_sets {data : W64} (hocc : (s.thread n).hw.occ = true) (hmode : (s.thread n).sc.mode = .S) :
    exec (.acfgWrite n data) s = .next (s.modThread n (fun t => { t with fl := t.fl.writeAcfg data.toNat })) :=
  congrArg _ (State.modThread_if (c := fun t => t.hw.occ ∧ t.sc.mode = .S) ⟨hocc, hmode⟩ _)

theorem vgcapWrite_sets {data : W64} (hocc : (s.thread n).hw.occ = true) (hmode : (s.thread n).sc.mode = .S) :
    exec (.vgcapWrite n data) s =
      .next ((s.modThread n (fun t => { t with held := t.held.write data.toNat })).grantChanged n) :=
  congrArg (fun u : State => Host.Outcome.next (u.grantChanged n)) (State.modThread_if
    (c := fun t => t.hw.occ ∧ t.sc.mode = .S) ⟨hocc, hmode⟩ (fun t => { t with held := t.held.write data.toNat }))

/-- The held set after a write of RTCTL. -/
def Held.runtimeWrite (h : Held) (x : Nat) : Held :=
  { h with cap := if 1 ≤ x % 16 ∧ x % 16 ≤ 8 then BitVec.ofNat 4 (min h.cap.toNat (x % 16)) else h.cap
           yreq := h.yreq || x.testBit 8 }

theorem rtctlWrite_sets {data : W64} (hocc : (s.thread n).hw.occ = true) :
    exec (.rtctlWrite n data) s =
      .next ((s.modThread n (fun t => { t with held := t.held.runtimeWrite data.toNat })).grantChanged n) :=
  congrArg (fun u : State => Host.Outcome.next (u.grantChanged n)) (State.modThread_if
    (c := fun t => t.hw.occ) hocc (fun t => { t with held := t.held.runtimeWrite data.toNat }))

theorem fetchFault_traps {va : W64} {f : XFault} (hrun : s.canRun = true) (happend : s.th.hw.append = none)
    (hblock : va.toNat / 64 = s.th.sc.pc.toNat / 64) (hwalk : s.walk s.ctx .fetch s.th.sc.pc = .error f) :
    exec (.fetchFault va) s = .next (((s.modCv (fun _ => Convoy.single)).fetchTrap
      (.fault s.th.sc.pc f)).modCv (fun _ => Convoy.single)) := by
  show execFetchFault va s = _
  unfold execFetchFault
  rw [if_pos ⟨hrun, by simp [happend], hblock⟩, hwalk]

end SchedulerAndStops

/-- Settles O43: dispatches, the safety net, the stops and the writes of a slot. -/
theorem schedulerAndStops : Obligations.SchedulerAndStops := by
  intro s n
  refine ⟨⟨fun e slot j => dispatch_class0, fun e v j => dispatch_victim, fun q e slot d j hfirst hnone => ?shared⟩,
    fun time u => deadlineReached_abandons, fun id j => ?marker, ?preempt, ?handler, ?yield, ?window, rfl,
    fun harray => ⟨fun why hland => congrArg _ (State.landFirst_ok harray hland rfl),
      fun vc hland => congrArg _ (State.landFirst_ok harray hland rfl),
      fun hland => congrArg _ (State.landFirst_ok harray hland rfl)⟩, fun marks => ?partWay,
    fun tile data hocc hmode hfree => ?owner, fun data hocc => ⟨acfgWrite_sets hocc, vgcapWrite_sets hocc,
      rtctlWrite_sets hocc⟩, fun hrun => ⟨fun word => congrArg _ (if_pos hrun), fun va f => fetchFault_traps hrun⟩⟩
  case shared =>
    intro p shared qs first start hvisit hjob hslot
    have hserves := dispatch_shared hfirst hnone
    rw [State.dispatchShared_eq hvisit hjob hslot] at hserves
    refine ⟨fun hready => ?_, fun hready => ?_⟩
    · rw [hserves, if_pos (by simp [hready])]
    · rw [hserves, if_neg (by simp [hready])]
  case marker => exact markerWrite_settles
  case preempt => exact fun hvictim hmig => congrArg _ (if_pos (by simp [hvictim, hmig]))
  case handler =>
    intro t hocc hforced hparked hmig
    exact congrArg _ (if_pos (by rw [hocc, hforced, hparked, hmig]; rfl))
  case yield =>
    intro hmig hover
    exact congrArg _ (if_pos (by simpa [hmig] using hover))
  case window => exact fun hstop hmig => congrArg _ (if_pos (by rw [hstop, hmig]; rfl))
  case partWay =>
    intro h hocc hmig hstops hwait happend
    exact congrArg _ (if_pos (by simp [h, hocc, hmig, hstops, hwait, happend]))
  case owner => exact congrArg _ (if_pos (by simp [hocc, hmode, hfree]))

end Sys2Proof.Machine
end

section
/-!
PROOF. Memory-mapped registers (R5 to R7, R53, R97, R254, R362, R375, R418, R440): what a write at a register's
address sets, and what a read there gives.
-/

namespace Sys2Proof.Machine

open Sys2Proof

section Registers

variable {s u : State} {a p v k x : Nat} {d : W64} {ag : Agent}

/-! ### Addresses -/

theorem regBase_le : ¬ 0xF000000000000 + a < regBase := Nat.not_lt.mpr (Nat.le_add_right ..)

/-- A write of an aligned address of the HC, below the registers of debug, reaches the hub. -/
theorem hcWrite_hub (halign : a % 8 = 0) (ha : a < 0x920000) :
    exec (.registerWrite .hc (0xF000000000000 + a) d) s = .next (s.noticeCleared (s.writeHubReg a d.toNat)) := by
  have hoff : 0xF000000000000 + a - regBase = a := Nat.add_sub_cancel_left ..
  refine congrArg _ ((if_neg fun h => h.1 (by omega)).trans ?_)
  dsimp only
  rw [hoff, if_neg regBase_le, if_neg (by omega)]

/-- What leaves the notice ring alone clears no migration. -/
theorem State.noticeCleared_same (hon : u.hub.noticeOn = s.hub.noticeOn) (hfull : u.hub.noticeFull = s.hub.noticeFull) :
    s.noticeCleared u = u := by
  have hsame : ((!s.hub.noticeOn || s.hub.noticeFull) && !(!u.hub.noticeOn || u.hub.noticeFull)) = false := by
    rw [hon, hfull, Bool.and_not_self]
  exact if_neg (ne_true_of_eq_false hsame)

theorem State.noticeCleared_hub : (s.noticeCleared u).hub = u.hub := by
  unfold State.noticeCleared
  dsimp only
  split <;> rfl

/-- An aligned write of the HC to a register that is not the notice ring's. -/
theorem hcWrite_ok (halign : a % 8 = 0) (ha : a < 0x920000) (hu : s.writeHubReg a d.toNat = u)
    (hon : u.hub.noticeOn = s.hub.noticeOn) (hfull : u.hub.noticeFull = s.hub.noticeFull) :
    exec (.registerWrite .hc (0xF000000000000 + a) d) s = .next u := by
  rw [hcWrite_hub halign ha, hu, State.noticeCleared_same hon hfull]

/-! ### The hub and the partitions (R44, R53) -/

theorem State.writeHubReg_mapEnt : s.writeHubReg 0x100008 x = s.modHub (fun h => { h with mapEnt := BitVec.ofNat 64 x }) :=
  (if_neg (by decide)).trans (if_pos rfl)

theorem State.writeHubReg_mignq : s.writeHubReg 0x101E00 x = s.modHub (fun h => h.writeMignq x) :=
  (if_neg (by decide)).trans ((if_neg (by decide)).trans ((if_neg (by decide)).trans ((if_neg (by decide)).trans
    (if_pos rfl))))

theorem State.writeHubReg_migThr (hp : p < 20) :
    s.writeHubReg (0x101000 + p * 8) x = s.modPart p (fun q => { q with migThr := BitVec.ofNat 16 x }) := by
  have hpart : (0x101000 + p * 8 - 0x101000) / 8 = p := by omega
  unfold State.writeHubReg
  rw [if_neg (by omega), if_neg (by omega), if_neg (by omega), if_pos (by omega), hpart]

/-! ### The functions (R97, R254, R362, R375) -/

theorem State.writeHubReg_vf (hlo : 0x300000 ≤ a) (hper : a ≠ 0x304000) : s.writeHubReg a x = s.writeVfReg a x := by
  unfold State.writeHubReg
  rw [if_neg (by omega), if_neg (by omega), if_neg (by omega), if_neg (by omega), if_neg (by omega), if_neg (by omega),
    if_neg (by omega), if_neg (by omega), if_neg hper]

theorem State.writeVfReg_budget (hv : v < 384) (hk : k < 3) :
    s.writeVfReg (0x300000 + v * 0x20 + k * 8) x = s.modVf v (fun f => f.writeBudget k x) := by
  have hfun : (0x300000 + v * 0x20 + k * 8 - 0x300000) / 0x20 = v := by omega
  have hkind : (0x300000 + v * 0x20 + k * 8 - 0x300000) % 0x20 / 8 = k := by omega
  unfold State.writeVfReg
  rw [if_pos (by omega), hfun, hkind]
  exact if_pos ⟨hv, hk⟩

theorem State.writeVfReg_slrMax (hv : v < 384) (hx : x % 128 ≤ 64) :
    s.writeVfReg (0x400000 + v * 8) x = s.modVf v (fun f => { f with slrMax := BitVec.ofNat 7 x }) := by
  have hfun : (0x400000 + v * 8 - 0x400000) / 8 = v := by omega
  unfold State.writeVfReg
  rw [if_neg (by omega), if_pos (by omega), if_pos hx, hfun]

theorem State.writeVfReg_rights (hv : v < 384) :
    s.writeVfReg (0x500000 + v * 8) x = s.modVf v (fun f => f.writeRights x) := by
  have hfun : (0x500000 + v * 8 - 0x500000) / 8 = v := by omega
  unfold State.writeVfReg
  rw [if_neg (by omega), if_neg (by omega), if_pos (by omega), hfun]

theorem State.writeVfReg_wnote (hv : v < 384) :
    s.writeVfReg (0x600000 + v * 0x20 + 0x18) x =
      s.modVf v (fun f => { f with wnote := f.wnote &&& ~~~ BitVec.ofNat 64 x }) := by
  have hfun : (0x600000 + v * 0x20 + 0x18 - 0x600000) / 0x20 = v := by omega
  have hreg : (0x600000 + v * 0x20 + 0x18 - 0x600000) % 0x20 = 0x18 := by omega
  unfold State.writeVfReg
  rw [if_neg (by omega), if_neg (by omega), if_neg (by omega), if_pos (by omega), hfun, hreg]
  rfl

theorem hcWrite_vf {f : Vf → Vf} (halign : a % 8 = 0) (hlo : 0x300000 ≤ a) (hper : a ≠ 0x304000) (ha : a < 0x920000)
    (hw : s.writeVfReg a d.toNat = s.modVf v f) :
    exec (.registerWrite .hc (0xF000000000000 + a) d) s = .next (s.modVf v f) :=
  hcWrite_ok halign ha ((State.writeHubReg_vf hlo hper).trans hw) rfl rfl

/-! ### The twin link, debug and BAR0 (R418, R440, R421) -/

theorem rcWrite_twin : exec (.registerWrite .rc (0xF000000000000 + 0x800000) d) s =
    .next (s.modHub (fun h => h.writeTwin d.toNat)) :=
  congrArg Host.Outcome.next ((if_neg (fun h => absurd h.1 (by decide))).trans (if_pos rfl))

theorem State.writeDebugReg_trg (hp : p < 20) (hk : k < 4) :
    s.writeDebugReg (0x920000 + p * 0x20 + k * 8) x = s.writeTrg p k x := by
  have hpart : (0x920000 + p * 0x20 + k * 8 - 0x920000) / 0x20 = p := by omega
  have htrg : (0x920000 + p * 0x20 + k * 8) % 0x20 / 8 = k := by omega
  unfold State.writeDebugReg
  rw [if_pos (by omega), hpart, htrg]

theorem hcWrite_trg (hp : p < 20) (hk : k < 4) (hreach : s.hcReaches (0x920000 + p * 0x20 + k * 8) = true) :
    exec (.registerWrite .hc (0xF000000000000 + (0x920000 + p * 0x20 + k * 8)) d) s = .next (s.writeTrg p k d.toNat) := by
  have hoff : 0xF000000000000 + (0x920000 + p * 0x20 + k * 8) - regBase = 0x920000 + p * 0x20 + k * 8 :=
    Nat.add_sub_cancel_left ..
  refine congrArg _ ((if_neg fun h => h.1 (by omega)).trans ?_)
  dsimp only
  rw [hoff, if_neg regBase_le, if_pos (by omega), if_pos hreach,
    State.writeDebugReg_trg hp hk]

theorem tapWrite_trg (hp : p < 20) (hk : k < 4) (hreach : s.tapReaches (0x920000 + p * 0x20 + k * 8) = true) :
    exec (.registerWrite .debug (0xF000000000000 + (0x920000 + p * 0x20 + k * 8)) d) s =
      .next (s.writeTrg p k d.toNat) := by
  have hoff : 0xF000000000000 + (0x920000 + p * 0x20 + k * 8) - regBase = 0x920000 + p * 0x20 + k * 8 :=
    Nat.add_sub_cancel_left ..
  have hbase : decide (regBase ≤ 0xF000000000000 + (0x920000 + p * 0x20 + k * 8)) = true :=
    decide_eq_true (Nat.le_add_right ..)
  refine congrArg _ ((if_neg fun h => h.1 (by omega)).trans ?_)
  dsimp only
  rw [hoff, if_pos (by rw [hbase, hreach]; rfl), State.writeDebugReg_trg hp hk]

theorem hostWrite_doorbell (hv : v < 384) (hreset : (s.vf v).resetting = false) (hup : s.hub.hostUp = true) :
    exec (.registerWrite .host (v * 2 ^ 16 + 0x08) d) s =
      .next (s.modVf v (fun f => { f with sqTail := BitVec.ofNat 12 d.toNat })) := by
  have hfun : (v * 2 ^ 16 + 0x08) / 2 ^ 16 = v := by omega
  have hoff : (v * 2 ^ 16 + 0x08) % 2 ^ 16 = 0x08 := by omega
  have hwrite : s.writeBar v 0x08 d.toNat = s.modVf v (fun f => { f with sqTail := BitVec.ofNat 12 d.toNat }) := by
    unfold State.writeBar
    dsimp only
    rw [if_neg (by decide), if_pos rfl, hreset]
    rfl
  refine congrArg _ ((if_neg fun h => h.1 (by omega)).trans ?_)
  dsimp only
  rw [if_pos ⟨hup, by omega⟩, hfun, hoff, hwrite]

/-! ### Reads (R6, R7) -/

theorem State.registerRead_hc (ha : a < 0x900000 ∨ 0xA00000 ≤ a) :
    s.registerRead .hc (0xF000000000000 + a) = some (s.readReg a) := by
  have hoff : 0xF000000000000 + a - regBase = a := Nat.add_sub_cancel_left ..
  have hbase : decide (regBase ≤ 0xF000000000000 + a) = true := decide_eq_true (Nat.le_add_right ..)
  unfold State.registerRead
  dsimp only
  rw [hoff, if_neg (by rw [hbase]; decide), if_neg (by omega)]

theorem State.readReg_mapEnt : s.readReg 0x100008 = s.hub.mapEnt := rfl

theorem State.registerRead_twin : s.registerRead .rc 0xF000000800000 =
    some (wordOf [(0, bit s.hub.twEn 0), (1, bit s.hub.twUp 0), (12, s.hub.twInvf.toNat), (32, s.hub.twAp.toNat)]) := by
  have hreg : s.readReg 0x800000 =
      wordOf [(0, bit s.hub.twEn 0), (1, bit s.hub.twUp 0), (12, s.hub.twInvf.toNat), (32, s.hub.twAp.toNat)] := rfl
  unfold State.registerRead
  dsimp only
  rw [if_pos ⟨by decide, by decide⟩]
  exact congrArg some hreg

theorem bit_testBit_zero (x : Nat) : bit (x.testBit 0) 0 = x % 2 := by
  unfold bit
  rw [Nat.testBit_zero]
  by_cases h : x % 2 = 1
  · rw [if_pos (decide_eq_true h), h, Nat.pow_zero]
  · rw [if_neg (by simpa using h)]
    omega

/-- A misaligned register write is ignored, and a misaligned read gives zero. -/
theorem misaligned_ignored (ha : a % 8 ≠ 0) (hbase : 0xF000000000000 ≤ a) :
    exec (.registerWrite ag a d) s = .next s :=
  congrArg _ (if_pos ⟨ha, fun h => Nat.not_lt.mpr hbase h.2⟩)

theorem misaligned_zero (ha : a % 8 ≠ 0) (hbase : 0xF000000000000 ≤ a)
    (hdebug : a < 0xF000000900000 ∨ 0xF000000A00000 ≤ a) : s.registerRead .hc a = some 0 := by
  obtain ⟨b, rfl⟩ := Nat.exists_eq_add_of_le hbase
  rw [State.registerRead_hc (by omega)]
  exact congrArg some (if_pos (by omega))

end Registers

/-- What the register writes of O44 set, in the order of its clauses. -/
theorem register_writes (s : State) (d : W64) :
    let x := d.toNat
    let w := fun (ag : Agent) (a : Nat) => exec (.registerWrite ag (0xF000000000000 + a) d) s
    w .hc 0x100008 = .next (s.modHub (fun h => { h with mapEnt := d })) ∧
    (∃ t, w .hc 0x101E00 = .next t ∧ t.hub = { s.hub with
      nqBase := BitVec.ofNat 46 (x / 64), nqLog := BitVec.ofNat 4 (x / 2 ^ 52) }) ∧
    (∃ t, w .hc 0x100008 = .next t ∧ t.registerRead .hc 0xF000000100008 = some d) ∧
    (∃ t, w .rc 0x800000 = .next t ∧ t.registerRead .rc 0xF000000800000 =
      some (wordOf [(0, x % 2), (1, bit s.hub.twUp 0), (12, x / 2 ^ 12 % 2 ^ 9), (32, x / 2 ^ 32 % 2 ^ 12)])) := by
  intro x w
  have hmap : w .hc 0x100008 = .next (s.modHub (fun h => { h with mapEnt := d })) := by
    have hd : BitVec.ofNat 64 d.toNat = d := (BitVec.ofNat_toNat 64 d).trans (BitVec.setWidth_eq d)
    refine hcWrite_ok (by decide) (by decide) ?_ rfl rfl
    rw [State.writeHubReg_mapEnt, hd]
  refine ⟨hmap, ⟨_, hcWrite_hub (by decide) (by decide), ?_⟩, ⟨_, hmap, ?_⟩, ⟨_, rcWrite_twin, ?_⟩⟩
  · rw [State.noticeCleared_hub, State.writeHubReg_mignq]
    rfl
  · exact (State.registerRead_hc (a := 0x100008) (Or.inl (by decide))).trans (congrArg some State.readReg_mapEnt)
  · rw [State.registerRead_twin]
    have htwin : (s.modHub (fun h => h.writeTwin d.toNat)).hub = s.hub.writeTwin d.toNat := rfl
    rw [htwin, Hub.writeTwin, bit_testBit_zero, BitVec.toNat_ofNat, BitVec.toNat_ofNat]

end Sys2Proof.Machine
end

section
/-!
PROOF. The host (R422 to R429, R260): the entries of a submission ring, function reset, responses and slice calls.
-/

namespace Sys2Proof.Machine

open Sys2Proof

section Entries

variable {s : State} {n x op : Nat}

/-! ### The entry at the head (R423) -/

/-- An entry that can be read holds no poisoned word. -/
theorem State.sqPoisoned_of_entry (h : s.sqEntry n = some x) : s.sqPoisoned n = false := by
  cases hp : s.sqPoisoned n with
  | false => rfl
  | true =>
    rw [State.sqEntry, if_pos hp] at h
    cases h

variable (hentry : s.sqEntry n = some x) (hreset : (s.vf n).resetting = false) (hroom : s.cqHeld n = false)

include hentry hreset hroom

/-- The entry is served: no reset runs, and nothing holds its completion. -/
theorem State.onEntry_ok (f : Nat → State) : s.onEntry n f = f x := by
  unfold State.onEntry
  rw [if_neg (ne_true_of_eq_false hreset), if_neg (ne_true_of_eq_false (State.sqPoisoned_of_entry hentry)),
    if_neg (ne_true_of_eq_false hroom), hentry]

theorem State.serve_ok (f : Nat → State → Nat × Nat × State) (hlegal : sqLegal x = true) (hop : sqOp x = op) :
    s.serve n op f = .next ((f x (s.takeSq n)).2.2.postCompletion n (sqTag x) (f x (s.takeSq n)).1
      (f x (s.takeSq n)).2.1) := by
  unfold State.serve
  rw [State.onEntry_ok hentry hreset hroom]
  exact congrArg _ (if_neg (by simp [hlegal, hop]))

/-- The status, result and state with which an operation answers. -/
theorem State.serve_eq {f : Nat → State → Nat × Nat × State} {status result : Nat} {u : State}
    (hlegal : sqLegal x = true) (hop : sqOp x = op) (hf : f x (s.takeSq n) = (status, result, u)) :
    s.serve n op f = .next (u.postCompletion n (sqTag x) status result) := by
  rw [State.serve_ok hentry hreset hroom f hlegal hop, hf]

theorem unknownOpEntry_answers (hlegal : sqLegal x = false) :
    exec (.unknownOpEntry n) s = .next ((s.takeSq n).postCompletion n (sqTag x) 3 0) := by
  show Host.Outcome.next (s.onEntry n _) = _
  rw [State.onEntry_ok hentry hreset hroom]
  exact congrArg _ (if_neg (ne_true_of_eq_false hlegal))

variable (hlegal : sqLegal x = true)

include hlegal

theorem launch_accepts {ps : Places} (hop : sqOp x = 1) (halign : bitsAt 64 64 x % 128 = 0)
    (hplaces : (s.takeSq n).gpaPlaces n .load (bitsAt 64 64 x) 128 = some ps)
    (hclean : (s.takeSq n).placesPoisoned ps = false)
    (hjob : ((s.takeSq n).claimPlaces ps).jobRefusal ((s.takeSq n).vf n).part.toNat n ((s.takeSq n).placeBytes ps) =
      none) :
    exec (.launch n) s =
      (let r := ((s.takeSq n).claimPlaces ps).acceptJob ((s.takeSq n).vf n).part.toNat n ((s.takeSq n).placeBytes ps) 0
        0xFFFF none
       .next (r.2.postCompletion n (sqTag x) 0 r.1.toNat)) := by
  show execLaunch n s = _
  unfold execLaunch
  rw [State.serve_ok hentry hreset hroom _ hlegal hop]
  simp only [halign, ne_eq, not_true_eq_false, if_false, hplaces, hclean, Bool.false_eq_true, hjob]

/-- MAP of unmapped frames turns on whether the quota gives frames (log entry 32). -/
theorem map_draws {gs : List Nat} (hop : sqOp x = 2) (hrange : gfnRange x = some gs)
    (hfree : ∀ g ∈ gs, (s.takeSq n).st2Entry n g = 0) :
    exec (.map n) s =
      (match (s.takeSq n).drawable n gs.length with
      | some fs => .next (((gs.zip fs).foldl (fun u p => u.mapEntry n p.1 (BitVec.ofNat 64
          (1 + bitsAt 3 160 x * 2 + ((s.takeSq n).vf n).kid.toNat * 2 ^ 5 + p.2 * 2 ^ 21)))
          ((s.takeSq n).bump.assignFrames fs ((s.takeSq n).vf n).kid)).postCompletion n (sqTag x) 0 0)
      | none => .next ((s.takeSq n).bump.postCompletion n (sqTag x) 1 0)) := by
  have hmapped : gs.any (fun g => (s.takeSq n).st2Entry n g != 0#64) = false :=
    List.any_eq_false.mpr fun g hg => by rw [hfree g hg]; decide
  show execMap n s = _
  unfold execMap
  rw [State.serve_ok hentry hreset hroom _ hlegal hop]
  simp only [hrange, hmapped, Bool.false_eq_true, if_false]
  cases (s.takeSq n).drawable n gs.length <;> rfl

theorem unmap_removes {gs : List Nat} (hop : sqOp x = 3) (hrange : gfnRange x = some gs)
    (hidle : gs.any (s.unmapWaits n) = false) (hmapped : ∀ g ∈ gs, ((s.takeSq n).st2Entry n g).getLsbD 0 = true) :
    exec (.unmap n) s =
      .next ((gs.foldl (fun u g => u.endUnmap n g) (s.takeSq n)).postCompletion n (sqTag x) 0 0) := by
  have hall : gs.any (fun g => !((s.takeSq n).st2Entry n g).getLsbD 0) = false :=
    List.any_eq_false.mpr fun g hg => by rw [hmapped g hg]; decide
  show execUnmap n s = _
  unfold execUnmap
  rw [hentry, Option.bind_some, hrange]
  dsimp only
  rw [if_neg (ne_true_of_eq_false hidle)]
  exact State.serve_eq hentry hreset hroom hlegal hop (if_neg (ne_true_of_eq_false hall))

/-! ### COPY (R423) -/

/-- A side of COPY that is refused gives the entry's status; with none, a free choice finds it an engine. -/
theorem copy_eq (hop : sqOp x = 4) (hlen : 0 < bitsAt 33 192 x) (hmax : bitsAt 33 192 x ≤ 2 ^ 32) :
    exec (.copy n) s = .next (
      match s.copySide n (x.testBit 256) .load (bitsAt 64 64 x) (bitsAt 33 192 x),
        s.copySide n (x.testBit 257) .store (bitsAt 64 128 x) (bitsAt 33 192 x) with
      | some k, _ => (s.takeSq n).postCompletion n (sqTag x) k 0
      | _, some k => (s.takeSq n).postCompletion n (sqTag x) k 0
      | none, none =>
        let es := (s.part (s.vf n).part.toNat).table.tiles.filter (fun e => decide ((s.queue e).length < queueCap e))
        match es[Config.freeNat s.free % max 1 es.length]? with
        | none => s
        | some e => (s.takeSq n).bump.enqueue e ((s.takeSq n).bump.ringCmd n e (ringCopyOf x))) := by
  have htag : (ringCopyOf x).tag.toNat = sqTag x := by
    refine (BitVec.toNat_ofNat ..).trans (Nat.mod_eq_of_lt ?_)
    unfold sqTag bitsAt
    exact Nat.mod_lt _ (by decide)
  have hrange : ¬ ((ringCopyOf x).len = 0 ∨ 2 ^ 32 < (ringCopyOf x).len) := by
    show ¬ (bitsAt 33 192 x = 0 ∨ 2 ^ 32 < bitsAt 33 192 x)
    omega
  show Host.Outcome.next (s.onEntry n _) = _
  rw [State.onEntry_ok hentry hreset hroom]
  refine congrArg _ ((if_neg (by simp [hlegal, hop])).trans ((if_neg hrange).trans ?_))
  rw [htag]
  rfl

theorem copy_source_refused {k : Nat} (hop : sqOp x = 4) (hlen : 0 < bitsAt 33 192 x) (hmax : bitsAt 33 192 x ≤ 2 ^ 32)
    (hside : s.copySide n (x.testBit 256) .load (bitsAt 64 64 x) (bitsAt 33 192 x) = some k) :
    exec (.copy n) s = .next ((s.takeSq n).postCompletion n (sqTag x) k 0) := by
  rw [copy_eq hentry hreset hroom hlegal hop hlen hmax, hside]

theorem copy_target_refused {k : Nat} (hop : sqOp x = 4) (hlen : 0 < bitsAt 33 192 x) (hmax : bitsAt 33 192 x ≤ 2 ^ 32)
    (hside : s.copySide n (x.testBit 256) .load (bitsAt 64 64 x) (bitsAt 33 192 x) = none)
    (hother : s.copySide n (x.testBit 257) .store (bitsAt 64 128 x) (bitsAt 33 192 x) = some k) :
    exec (.copy n) s = .next ((s.takeSq n).postCompletion n (sqTag x) k 0) := by
  rw [copy_eq hentry hreset hroom hlegal hop hlen hmax, hside, hother]

theorem copy_enqueues {e : Nat} (hop : sqOp x = 4) (hlen : 0 < bitsAt 33 192 x) (hmax : bitsAt 33 192 x ≤ 2 ^ 32)
    (hside : s.copySide n (x.testBit 256) .load (bitsAt 64 64 x) (bitsAt 33 192 x) = none)
    (hother : s.copySide n (x.testBit 257) .store (bitsAt 64 128 x) (bitsAt 33 192 x) = none)
    (hengine : ((s.part (s.vf n).part.toNat).table.tiles.filter (fun e => decide ((s.queue e).length < queueCap e)))[
      Config.freeNat s.free % max 1 ((s.part (s.vf n).part.toNat).table.tiles.filter (fun e =>
        decide ((s.queue e).length < queueCap e))).length]? = some e) :
    exec (.copy n) s = .next ((s.takeSq n).bump.enqueue e ((s.takeSq n).bump.ringCmd n e (ringCopyOf x))) := by
  rw [copy_eq hentry hreset hroom hlegal hop hlen hmax, hside, hother]
  dsimp only
  rw [hengine]

/-! ### WATCH, NOTIFY and ATTEST -/

theorem notify_answers (hop : sqOp x = 6) :
    exec (.notify n) s =
      .next (((s.takeSq n).modVf n (fun f =>
        { f with wnote := f.wnote &&& ~~~ BitVec.ofNat 64 (bitsAt 64 64 x),
                 notifyVec := BitVec.ofNat 16 (bitsAt 16 128 x) })).postCompletion n (sqTag x) 0
        ((s.takeSq n).vf n).wnote.toNat) := by
  show execNotify n s = _
  unfold execNotify
  rw [State.serve_ok hentry hreset hroom _ hlegal hop]

theorem watch_takes {k : Nat} (hop : sqOp x = 5)
    (hbase : firstBelow 65536 (fun k => (s.takeSq n).windowOk n ((Config.freeNat (s.takeSq n).free + k) % 65536)
      (bitsAt 17 64 x)) = some k) :
    exec (.watch n) s =
      .next ((((s.takeSq n).bump.writeWseq n ((Config.freeNat (s.takeSq n).free + k) % 65536) (bitsAt 17 64 x)).modVf n
        (fun f => (f.writeWlist (bitsAt 64 128 x)).writeWrc (bitsAt 64 192 x))).postCompletion n (sqTag x) 0
          ((Config.freeNat (s.takeSq n).free + k) % 65536)) := by
  show execWatch n s = _
  unfold execWatch
  rw [State.serve_ok hentry hreset hroom _ hlegal hop]
  simp only [hbase]

theorem attest_reports (hop : sqOp x = 7) (halign : bitsAt 64 64 x % 64 = 0)
    (hfree : s.placesHeld ((s.gpaPlaces n .store (bitsAt 64 64 x) (Config.attestReport n (s.vf n).inc.toNat
      (leBytes 32 (bitsAt 256 256 x))).length).getD []) = false) :
    exec (.attest n) s =
      (let rep := Config.attestReport n (s.vf n).inc.toNat (leBytes 32 (bitsAt 256 256 x))
       if rep.length ≤ bitsAt 32 128 x then
         match s.gpaPlaces n .store (bitsAt 64 64 x) rep.length with
         | some ps => .next (((s.takeSq n).writePlaces ps rep).postCompletion n (sqTag x) 0 rep.length)
         | none => .next ((s.takeSq n).postCompletion n (sqTag x) 4 0)
       else .next ((s.takeSq n).postCompletion n (sqTag x) 1 0)) := by
  have hx : (s.sqEntry n).getD 0 = x := by rw [hentry, Option.getD_some]
  generalize hrep : Config.attestReport n (s.vf n).inc.toNat (leBytes 32 (bitsAt 256 256 x)) = rep at hfree ⊢
  show execAttest n s = _
  simp only [execAttest, hx, hrep, hfree, Bool.and_false, Bool.false_eq_true, if_false,
    State.serve_ok hentry hreset hroom _ hlegal hop, halign, true_and]
  by_cases hfits : rep.length ≤ bitsAt 32 128 x
  · simp only [hfits, decide_true, Bool.not_true, Bool.false_eq_true, if_false, if_true]
    cases s.gpaPlaces n .store (bitsAt 64 64 x) rep.length <;> rfl
  · simp only [hfits, decide_false, Bool.not_false, if_false, if_true]

end Entries

/-! ### Function reset (R429) -/

section Reset

variable {s : State} {n : Nat}

theorem functionReset_starts (h : (s.vf n).resetting = false) :
    exec (.functionReset n) s = .next (s.startReset n) :=
  if_pos (by simp [h])

theorem functionReset_waits (h : (s.vf n).resetting = true) (hready : s.resetReady n = false) :
    exec (.functionReset n) s = .next (s.cancelUnits n) :=
  (if_neg (by simp [h])).trans (if_pos (by simp [hready]))

/-- Once its jobs and commands have stopped, the reset goes as far as the ring lets it. -/
theorem functionReset_flushes (h : (s.vf n).resetting = true) (hready : s.resetReady n = true) :
    exec (.functionReset n) s = if ((s.flushRing n 4096).vf n).sqPosted then .next (s.flushRing n 4096) else
      .next (((((((s.flushRing n 4096).cancelReserved n).dropFronthaul n).clearUnits n).dropOwners n).unmapFunction
        n).endReset n) :=
  (if_neg (by simp [h])).trans (if_neg (by simp [hready]))

/-! ### Responses (R426 to R428) -/

variable {part : Nat} {tag slot : BitVec 16} {inc status : BitVec 8}

/-- The header of a partition's page-request ring. -/
def State.prqHeader (s : State) (part : Nat) : Nat :=
  scratchLoc (s.part part).prqTile.toNat ((s.part part).prqBase.toNat * 16)

section PageResponse

variable (hlo : 2 ≤ (s.part part).prqLog.toNat) (hhi : (s.part part).prqLog.toNat ≤ 10)

include hlo hhi

/-- A response meets a ring of a size that there is. -/
theorem pageResponse_meets {y : Host.Outcome State Fault Refusal}
    (h : (if s.poisoned (s.prqHeader part) 16 || (!decide ((s.vf n).inc ≠ inc) && s.poisoned (s.prqHeader part + 16) 8)
      then .next (s.macFailure [n])
      else if decide ((s.vf n).inc ≠ inc) then .next ((s.consumeRequest (s.prqHeader part)).countDrop n)
      else .next (((((s.consumeRequest (s.prqHeader part)).poke (s.prqHeader part + 64 + 2 ^ (s.part part).prqLog.toNat * 32 +
          s.peekNat (s.prqHeader part + 16) 8 % 2 ^ (s.part part).prqLog.toNat * 16) 0
          (leBytes 2 tag.toNat ++ leBytes 1 inc.toNat ++ leBytes 1 status.toNat ++ leBytes 2 slot.toNat ++
            leBytes 10 0)).poke (s.prqHeader part + 16) 0
          (leBytes 8 ((s.peekNat (s.prqHeader part + 16) 8 + 1) % 2 ^ 64))).wakeSlot (slot.toNat % 2048)))) = y) :
    exec (.pageResponse part tag inc status slot n) s = y :=
  (if_neg (by omega)).trans h

theorem pageResponse_poisoned (h : s.poisoned (s.prqHeader part) 16 = true ∨
    ((s.vf n).inc = inc ∧ s.poisoned (s.prqHeader part + 16) 8 = true)) :
    exec (.pageResponse part tag inc status slot n) s = .next (s.macFailure [n]) := by
  refine pageResponse_meets hlo hhi (if_pos ?_)
  rcases h with h | ⟨hinc, h⟩
  · rw [h, Bool.true_or]
  · simp [hinc, h]

theorem pageResponse_stale (hinc : (s.vf n).inc ≠ inc) (hclean : s.poisoned (s.prqHeader part) 16 = false) :
    exec (.pageResponse part tag inc status slot n) s =
      .next ((s.consumeRequest (s.prqHeader part)).countDrop n) :=
  pageResponse_meets hlo hhi ((if_neg (by simp [hinc, hclean])).trans (if_pos (decide_eq_true hinc)))

theorem pageResponse_recorded (hinc : (s.vf n).inc = inc) (hclean : s.poisoned (s.prqHeader part) 16 = false)
    (htail : s.poisoned (s.prqHeader part + 16) 8 = false) :
    exec (.pageResponse part tag inc status slot n) s =
      .next ((((s.consumeRequest (s.prqHeader part)).poke (s.prqHeader part + 64 + 2 ^ (s.part part).prqLog.toNat * 32 +
          s.peekNat (s.prqHeader part + 16) 8 % 2 ^ (s.part part).prqLog.toNat * 16) 0
          (leBytes 2 tag.toNat ++ leBytes 1 inc.toNat ++ leBytes 1 status.toNat ++ leBytes 2 slot.toNat ++
            leBytes 10 0)).poke (s.prqHeader part + 16) 0
          (leBytes 8 ((s.peekNat (s.prqHeader part + 16) 8 + 1) % 2 ^ 64))).wakeSlot (slot.toNat % 2048)) :=
  pageResponse_meets hlo hhi ((if_neg (by simp [hclean, htail])).trans (if_neg (by simp [hinc])))

end PageResponse

/-- A function reads back as what it was changed to. -/
theorem State.vf_modVf_same (f : Vf → Vf) : (s.modVf n f).vf n = f (s.vf n) := tget_tset_same ..

/-- A response that is not stale may have opened one handle (log entry 111). -/
theorem proxyResponse_handles (hinc : (s.vf n).inc = inc) : ∃ (t : State) (l : List (Nat × Nat)),
    exec (.proxyResponse n inc) s = .next t ∧ l.length ≤ 1 ∧ (t.vf n).handles = (s.vf n).handles ++ l ∧
      t.mem = s.mem ∧ t.th = s.th := by
  let opened := if Config.freeBit s.free then [(Config.freeNat s.free, Config.freeNat (s.free + 1))] else []
  refine ⟨{ s.modVf n (fun f => { f with handles := f.handles ++ opened }) with free := s.free + 2 }, opened,
    congrArg Host.Outcome.next (if_neg (not_not_intro hinc)), ?_,
    congrArg Vf.handles (State.vf_modVf_same (s := s) (n := n) (fun f => { f with handles := f.handles ++ opened })),
    rfl, rfl⟩
  unfold opened
  split
  · exact Nat.le_refl 1
  · exact Nat.zero_le 1

/-! ### Slice calls (R260) -/

theorem sliceCall_runs {i loc : Nat} {a b : W64} {e : BitVec 64} (hentry : s.writeEntry n loc = some e)
    (hroutine : (s.vf n).routine i ≠ 64) (hdevice : isDevice loc = true) (hdec : s.decoded loc = true)
    (hroom : s.roomNow [s.st2Phys e (loc % 2 ^ 21)] = true)
    (hfree : s.writeHeld none ((s.st2Phys e (loc % 2 ^ 21)).loc / 128 * 128) 128 = false)
    (hclean : (s.claim ((s.st2Phys e (loc % 2 ^ 21)).loc / 128 * 128) (s.st2Phys e (loc % 2 ^ 21)).kid).poisoned
      ((s.st2Phys e (loc % 2 ^ 21)).loc / 128 * 128) 128 = false) :
    exec (.sliceCall n i loc a b) s =
      (let p := s.st2Phys e (loc % 2 ^ 21)
       let r := (s.claim (p.loc / 128 * 128) p.kid).callSlice (s.vf n).part.toNat ((s.vf n).routine i) p a b
       .next { r.2.2 with sliceRes := some (match r.1 with
         | .ret v => (0, 0, r.2.1, v)
         | .fail code idx => (code, idx, r.2.1, 0#64)) }) := by
  have hplace : ¬ ((s.vf n).routine i = 64 ∨ ¬ isDevice loc = true ∨ ¬ s.decoded loc = true) := by
    simp [hroutine, hdevice, hdec]
  have hnoroom : ¬ s.noRoom [s.st2Phys e (loc % 2 ^ 21)] = true := by
    simpa [State.roomNow] using hroom
  show execSliceCall n i loc a b s = _
  unfold execSliceCall
  rw [hentry]
  refine (if_neg hplace).trans ((if_neg (ne_true_of_eq_false hfree)).trans ((if_neg hnoroom).trans
    ((if_neg (ne_true_of_eq_false hclean)).trans ?_)))
  rfl

end Reset

/-- Settles O44: the ring's entries by their operation, the reset by its step, the registers by their address. -/
theorem hostEvents : Obligations.HostEvents := by
  intro s n
  refine ⟨fun x hentry hreset hroom hlegal => ⟨fun hop ps halign hplaces hclean => ?launch, fun hop gs hrange hfree => ?map,
    fun hop gs => unmap_removes hentry hreset hroom hlegal hop, fun hop hlen hmax => ?copy, fun hop k => ?watch,
    fun hop => ?notify, fun hop => ?attest⟩, fun x => unknownOpEntry_answers, functionReset_starts, functionReset_waits,
    fun h hready hposted => ?flushing, fun h hready hposted => ?ends, fun part tag slot inc status => ?response,
    fun inc hinc => congrArg _ (if_pos hinc), fun inc => proxyResponse_handles, fun i loc a b e => sliceCall_runs,
    fun d => ?writes, fun ag a d ha hbase => ⟨misaligned_ignored ha hbase, misaligned_zero ha hbase⟩⟩
  case launch => exact launch_accepts hentry hreset hroom hlegal hop halign hplaces hclean
  case map => exact map_draws hentry hreset hroom hlegal hop hrange hfree
  case copy =>
    exact ⟨fun k => copy_source_refused hentry hreset hroom hlegal hop hlen hmax,
      fun k => copy_target_refused hentry hreset hroom hlegal hop hlen hmax,
      fun e => copy_enqueues hentry hreset hroom hlegal hop hlen hmax⟩
  case watch => exact watch_takes hentry hreset hroom hlegal hop
  case notify => exact notify_answers hentry hreset hroom hlegal hop
  case attest => exact attest_reports hentry hreset hroom hlegal hop
  case flushing => rw [functionReset_flushes h hready, if_pos hposted]
  case ends => rw [functionReset_flushes h hready, if_neg (ne_true_of_eq_false hposted)]
  case response =>
    intro p hdr head u i hlo hhi
    exact ⟨pageResponse_poisoned hlo hhi, pageResponse_stale hlo hhi, pageResponse_recorded hlo hhi⟩
  case writes =>
    intro x w
    have hd : BitVec.ofNat 64 x = d := (BitVec.ofNat_toNat 64 d).trans (BitVec.setWidth_eq d)
    obtain ⟨hmap, hmignq, hread, htwin⟩ := register_writes s d
    refine ⟨hmap, hmignq, hread, htwin, fun p hp => ?_, fun v hv => ?_, fun v hv hx => ?_, fun v hv => ?_,
      fun v hv k hk => ?_, rcWrite_twin, fun p hp k hk => ⟨hcWrite_trg hp hk, tapWrite_trg hp hk⟩,
      fun v hv => hostWrite_doorbell hv⟩
    · exact hcWrite_ok (by omega) (by omega) (State.writeHubReg_migThr hp) rfl rfl
    · exact hcWrite_vf (by omega) (by omega) (by omega) (by omega) (State.writeVfReg_rights hv)
    · exact hcWrite_vf (by omega) (by omega) (by omega) (by omega) (State.writeVfReg_slrMax hv hx)
    · rw [← hd]
      exact hcWrite_vf (by omega) (by omega) (by omega) (by omega) (State.writeVfReg_wnote hv)
    · exact hcWrite_vf (by omega) (by omega) (by omega) (by omega) (State.writeVfReg_budget hv hk)

end Sys2Proof.Machine
end

section
/-!
PROOF. Debug, power, temperature and bring-up (R434 to R446): freezing by partition, the order in which triggers
act, the steps of bring-up.
-/

namespace Sys2Proof.Machine

open Sys2Proof

variable {s u : State} {n : Nat} {data : W64}

/-! ### DBGT, FRZ and TRCTL (R434, R435, R439) -/

/-- The fields of DBGT from a write (R434). -/
def State.setDbgt (s : State) (n : Nat) (data : W64) : State :=
  s.modThread n (fun t => { t with hw := { t.hw with
    dbStep := data.getLsbD 0, dbClaim := data.getLsbD 1, dbTrace := data.getLsbD 3,
    dbHalt := t.hw.dbHalt || data.getLsbD 2 } })

theorem dbgtWrite_reached (h : s.debugReaches (0x900000 + 8 * n) = true) :
    exec (.dbgtWrite n data) s =
      .next (if data.getLsbD 2 then (s.setDbgt n data).askForced n 3 else s.setDbgt n data) :=
  if_neg (by rw [h]; decide)

theorem dbgtWrite_unreached (h : s.debugReaches (0x900000 + 8 * n) = false) : exec (.dbgtWrite n data) s = .next s :=
  if_pos (by rw [h]; rfl)

theorem trctlWrite_reached (h : s.debugReaches (0x910000 + 0x10 * n) = true) :
    exec (.trctlWrite n data) s =
      .next (if (((s.endCapture n).modVc n (fun c => c.writeTrctl data.toNat)).vc n).captures &&
          !((s.endCapture n).vc n).captures then
        ((s.endCapture n).modVc n (fun c => c.writeTrctl data.toNat)).startCapture n
        else (s.endCapture n).modVc n (fun c => c.writeTrctl data.toNat)) :=
  if_neg (by rw [h]; decide)

theorem trctlWrite_unreached (h : s.debugReaches (0x910000 + 0x10 * n) = false) :
    exec (.trctlWrite n data) s = .next s :=
  if_pos (by rw [h]; rfl)

/-- A partition reads back as what it, or another, was changed to. -/
theorem State.part_modPart (s : State) (k p : Nat) (f : Part → Part) :
    (s.modPart k f).part p = if p = k then f (s.part k) else s.part p :=
  tget_tset ..

/-- Freezing partitions by the bits of a word changes the freeze of those partitions alone. -/
theorem foldl_freeze_part (data : W64) (p : Nat) : ∀ (l : List Nat) (s : State),
    ((l.foldl (fun t k => t.modPart k (fun q => { q with freeze := data.toNat.testBit k })) s).part p).freeze =
      if l.contains p then data.toNat.testBit p else (s.part p).freeze
  | [], _ => rfl
  | k :: l, s => by
    rw [List.foldl_cons, foldl_freeze_part data p l, State.part_modPart, List.contains_cons]
    by_cases hp : p = k
    · rw [if_pos hp, ← hp]
      simp
    · rw [if_neg hp, beq_false_of_ne hp, Bool.false_or]

theorem frzWrite_freezes (s : State) (data : W64) :
    ∃ t : State, exec (.frzWrite data) s = .next t ∧ t.mem = s.mem ∧ t.th = s.th ∧
      ∀ p < 20, (t.part p).freeze =
        if s.frzParts.contains p then data.toNat.testBit p else (s.part p).freeze := by
  have hkeeps := foldl_keeps (fun u : State => u.mem = s.mem ∧ u.th = s.th)
    (fun t p => t.modPart p (fun q => { q with freeze := data.toNat.testBit p })) (fun _ _ h => h)
    ((List.range 20).filter s.frzParts.contains) s.bump ⟨rfl, rfl⟩
  refine ⟨_, rfl, hkeeps.1, hkeeps.2, fun p hp => (foldl_freeze_part data p _ s.bump).trans ?_⟩
  have hcontains : ((List.range 20).filter s.frzParts.contains).contains p = s.frzParts.contains p := by
    rw [Bool.eq_iff_iff, List.contains_iff_mem, List.mem_filter, List.mem_range]
    exact and_iff_right hp
  rw [hcontains]
  rfl

/-! ### Triggers (R440) -/

theorem triggerFire_sends {k : BitVec 2} {time : Nat} (h : s.atTime time = some u) :
    exec (.triggerFire n k time) s = .next (u.fireTrigger n k.toNat time) := by
  show execTriggerFire n k time s = _
  unfold execTriggerFire
  rw [h]

theorem triggerArrival_receives {k : BitVec 2} {part t0 : Nat} {x : Nat × Nat}
    (hvc : (s.vcsOf part).contains n = true) (hfind : (s.vc n).trPend.find? (fun x => x.1 == k.toNat) = some x)
    (ht0 : x.2 = t0) :
    exec (.triggerArrival part k n) s = .next ((s.putSync n t0).modVc n (fun v =>
      { v with trPend := modFirstPair (fun x => x.1 == k.toNat) (fun x => (x.1 + 4, x.2)) v.trPend })) := by
  show execTriggerArrival part k n s = _
  unfold execTriggerArrival
  simp only [hvc, if_true, hfind, ht0]

/-- Of two messages neither of which acts before the other, both are the same. -/
theorem eq_of_not_actsBefore {x y : Nat × Nat} (hxy : s.actsBefore n x y = false) (hyx : s.actsBefore n y x = false) :
    y = x := by
  unfold State.actsBefore at hxy hyx
  have hboth := And.intro (of_decide_eq_false hxy) (of_decide_eq_false hyx)
  have hnumber : y.1 = x.1 := by omega
  have htime : s.actionTime n y = s.actionTime n x := by omega
  unfold State.actionTime at htime
  rw [hnumber] at htime
  exact Prod.ext hnumber (Nat.add_right_cancel htime)

/-- The message that nothing acts before is the next one. -/
theorem State.nextAction_eq {vc : Nat} {x : Nat × Nat} (hvc : (s.vcsOf n).contains vc = true)
    (hmem : x ∈ (s.vc vc).trPend) (hreceived : 4 ≤ x.1)
    (hfirst : ∀ y ∈ (s.vc vc).trPend, 4 ≤ y.1 → s.actsBefore n y x = false) : s.nextAction n vc = some x := by
  unfold State.nextAction
  rw [if_pos hvc]
  have hx : x ∈ (s.vc vc).trPend.filter (fun x => decide (4 ≤ x.1)) :=
    List.mem_filter.mpr ⟨hmem, decide_eq_true hreceived⟩
  have hall : ∀ y ∈ (s.vc vc).trPend.filter (fun x => decide (4 ≤ x.1)), s.actsBefore n y x = false := fun y hy =>
    hfirst y (List.mem_filter.mp hy).1 (of_decide_eq_true (List.mem_filter.mp hy).2)
  generalize (s.vc vc).trPend.filter (fun x => decide (4 ≤ x.1)) = l at hx hall
  have hnone : (!l.any (fun y => s.actsBefore n y x)) = true := by
    rw [List.any_eq_false.mpr fun y hy => ne_true_of_eq_false (hall y hy)]
    rfl
  cases hfind : l.find? (fun x => !l.any (fun y => s.actsBefore n y x)) with
  | none => exact absurd hnone (List.find?_eq_none.mp hfind x hx)
  | some z =>
    have hz := List.find?_some hfind
    rw [Bool.not_eq_true', List.any_eq_false] at hz
    exact congrArg some (eq_of_not_actsBefore (Bool.eq_false_of_not_eq_true (hz x hx))
      (hall z (List.mem_of_find?_eq_some hfind)))

/-- What a message does that acts now. -/
theorem triggerAction_acts {k : BitVec 2} {vc time : Nat} {x : Nat × Nat} (htime : s.atTime time = some u)
    (hvc : (s.vcsOf n).contains vc = true) (hmem : x ∈ (s.vc vc).trPend) (hnum : x.1 = k.toNat + 4)
    (hdue : s.actionTime n x ≤ time) (hfirst : ∀ y ∈ (s.vc vc).trPend, 4 ≤ y.1 → s.actsBefore n y x = false) :
    exec (.triggerAction n k vc time) s =
      (let v := u.modVc vc (fun v => { v with trPend := v.trPend.erase x })
       let g := tget Trigger.reset (s.part n).triggers k.toNat
       if g.act = 1#2 then
         if (s.vc vc).trFits ∧ ¬ (s.vc vc).trEn then
           .next ((v.modVc vc (fun c => { c with trEn := true })).startCapture vc)
         else .next v
       else if g.act = 0#2 then .next v
       else
         let w := (v.endCapture vc).modVc vc (fun c => { c with trEn := false })
         .next (if g.act = 3#2 then w.modPart n (fun p => { p with freeze := true }) else w)) := by
  show execTriggerAction n k vc time s = _
  unfold execTriggerAction
  rw [htime, State.nextAction_eq hvc hmem (by omega) hfirst]
  exact if_neg (by omega)

/-! ### Temperature (R446) -/

section Temperature

variable {temp : BitVec 8}

theorem thermalTrip_stops (h : 115 ≤ temp.toNat) :
    exec (.thermalTrip temp) s = .next ((s.modHub (fun h => { h with therm := temp })).modHub
      (fun h => { h with clocksOff := true })) :=
  if_pos h

theorem thermalTrip_throttles (hlo : 105 ≤ temp.toNat) (hhi : temp.toNat < 115) :
    exec (.thermalTrip temp) s = .next (((s.modHub (fun h => { h with therm := temp })).modHub
      (fun h => { h with pwTrip := true })).setPower 1) :=
  (if_neg (by omega)).trans (if_pos hlo)

theorem thermalTrip_keeps (hlo : 95 ≤ temp.toNat) (hhi : temp.toNat < 105) :
    exec (.thermalTrip temp) s = .next (s.modHub (fun h => { h with therm := temp })) :=
  (if_neg (by omega)).trans ((if_neg (by omega)).trans (if_neg (by omega)))

theorem thermalTrip_ends (h : temp.toNat < 95) :
    exec (.thermalTrip temp) s = .next ((s.modHub (fun h => { h with therm := temp })).modHub
      (fun h => { h with pwTrip := false })) :=
  (if_neg (by omega)).trans ((if_neg (by omega)).trans (if_pos h))

end Temperature

/-! ### Bring-up (R441 to R443) -/

section Bringup

variable (hdone : s.hub.bootDone = false) (herr : s.hub.bootErr = false)

include hdone herr

/-- The step in progress, where bring-up runs. -/
theorem State.bootNext_eq : s.bootNext =
    (let t := Config.tables
     let go := fun (u : State) => u.modHub (fun h => { h with bootStep := s.hub.bootStep + 1, bootErr := false })
     match s.hub.bootStep.toNat with
     | 1 => go s
     | 2 => if Config.firmwareGood then go s else s.modHub (fun h => { h with bootErr := true })
     | 3 => go (s.modHub (fun h => { h with hostUp := Config.ideKeyed 0, twUp := Config.ideKeyed 1 }))
     | 4 => go (s.modHub (fun h => { h with chfail := t.failed }))
     | 5 =>
       let bad := t.excluded.eraseDups
       go ((s.excludeVcs bad).modHub (fun h => { h with nvcx := BitVec.ofNat 8 bad.length }))
     | 6 => go (s.modHub (fun h => h.applyTables t))
     | _ => s) := by
  unfold State.bootNext
  exact if_neg (by rw [hdone, herr]; decide)

theorem bootNext_advances (h : s.hub.bootStep ∈ [1, 3, 4, 5, 6]) :
    s.bootNext.hub.bootStep = s.hub.bootStep + 1 ∧ s.bootNext.hub.bootErr = false := by
  rw [State.bootNext_eq hdone herr]
  simp only [List.mem_cons, List.not_mem_nil, or_false] at h
  rcases h with h | h | h | h | h
  all_goals
    rw [h]
    exact ⟨rfl, rfl⟩

theorem bootNext_verifies (h : s.hub.bootStep = 2) :
    s.bootNext = s.modHub (fun h =>
      if Config.firmwareGood then { h with bootStep := 3 } else { h with bootErr := true }) := by
  rw [State.bootNext_eq hdone herr, h]
  cases Config.firmwareGood with
  | true =>
    show s.modHub (fun h => { h with bootStep := 3, bootErr := false }) = s.modHub (fun h => { h with bootStep := 3 })
    unfold State.modHub
    rw [← herr]
  | false => rfl

theorem bootNext_keys (h : s.hub.bootStep = 3) :
    s.bootNext.hub.hostUp = Config.ideKeyed 0 ∧ s.bootNext.hub.twUp = Config.ideKeyed 1 := by
  rw [State.bootNext_eq hdone herr, h]
  exact ⟨rfl, rfl⟩

theorem bootNext_trains (h : s.hub.bootStep = 4) : s.bootNext.hub.chfail = Config.tables.failed := by
  rw [State.bootNext_eq hdone herr, h]
  rfl

omit hdone herr in
/-- Excluding VCs excludes each of them and lets none back. -/
theorem foldl_excluded (v : Nat) : ∀ (l : List Nat) (s : State), (s.vc v).excluded = true ∨ v ∈ l →
    ((l.foldl (fun u n => u.modVc n (fun c => { c with excluded := true })) s).vc v).excluded = true
  | [], _, h => h.resolve_right (List.not_mem_nil)
  | n :: l, s, h => by
    refine foldl_excluded v l _ ?_
    by_cases hv : v = n
    · left
      rw [hv, State.vc_modVc_same]
    · rw [State.vc_modVc_other s n v _ hv]
      exact h.imp_right fun hmem => (List.mem_cons.mp hmem).resolve_left hv

theorem bootNext_excludes (h : s.hub.bootStep = 5) :
    (∀ v ∈ Config.tables.excluded, (s.bootNext.vc v).excluded = true) ∧
      s.bootNext.hub.nvcx = BitVec.ofNat 8 Config.tables.excluded.eraseDups.length := by
  rw [State.bootNext_eq hdone herr, h]
  exact ⟨fun v hv => foldl_excluded v _ _ (.inr (List.mem_eraseDups.mpr hv)), rfl⟩

theorem bootNext_applies (h : s.hub.bootStep = 6) :
    s.bootNext.hub.nextParts = tableParts Config.tables ∧ s.bootNext.hub.nextVfs = tableVfs Config.tables ∧
      s.bootNext.hub.dma = Config.tables.dma ∧ s.bootNext.hub.twEn = Config.tables.twinEn ∧
      s.bootNext.hub.tapOn = Config.tables.tap ∧ s.bootNext.parts = s.parts ∧ s.bootNext.vfs = s.vfs := by
  rw [State.bootNext_eq hdone herr, h]
  exact ⟨rfl, rfl, rfl, rfl, rfl, rfl, rfl⟩

theorem bringupComplete_serves (h : s.hub.bootStep = 7) :
    ∃ t : State, exec .bringupComplete s = .next t ∧ t.hub.bootDone = true ∧
      t.parts = s.hub.nextParts ∧ t.vfs = s.hub.nextVfs ∧ t.slots = [] ∧ t.th = Thread.reset ∧ t.mem.l2 = [] ∧
      t.mem.cells = (s.occupied.foldl State.settleSlot s).mem.cells.filter (fun c => decide (scratchBase ≤ c.1)) := by
  have hruns : ¬ (s.hub.bootDone || s.hub.bootErr || s.hub.bootStep != 7) = true := by
    rw [hdone, herr, h]
    decide
  exact ⟨_, if_neg hruns, rfl, rfl, rfl, rfl, rfl, rfl, rfl⟩

end Bringup

/-- Settles O42: each register and event by its rule, a message by the order of its action, bring-up by its step. -/
theorem debugPowerAndBringup : Obligations.DebugPowerAndBringup := by
  intro s n data
  refine ⟨⟨dbgtWrite_reached, dbgtWrite_unreached⟩, frzWrite_freezes s data,
    ⟨trctlWrite_reached, trctlWrite_unreached⟩, fun k time u => triggerFire_sends,
    fun k part t0 x => triggerArrival_receives, fun k vc time u x => ?action, ?window, rfl, fun draw calm => rfl,
    fun temp => ⟨thermalTrip_stops, thermalTrip_throttles, thermalTrip_keeps, thermalTrip_ends⟩,
    ⟨rfl, rfl, rfl, rfl⟩, fun hdone herr => ⟨bootNext_advances hdone herr, bootNext_verifies hdone herr,
      bootNext_keys hdone herr, bootNext_trains hdone herr, bootNext_excludes hdone herr,
      bootNext_applies hdone herr⟩, bringupComplete_serves, fun time => rfl⟩
  case action =>
    intro g v htime hvc hmem hnum hdue hfirst
    have hacts := triggerAction_acts htime hvc hmem hnum hdue hfirst
    refine ⟨fun h => ?_, fun h hidle => ?_, fun h hfits hen => ?_, fun h => ?_, fun h => ?_⟩
    all_goals refine hacts.trans ?_
    · exact (if_neg (by rw [h]; decide)).trans (if_pos h)
    · exact (if_pos h).trans (if_neg (by rcases hidle with h | h <;> simp [h]))
    · exact (if_pos h).trans (if_pos ⟨hfits, ne_true_of_eq_false hen⟩)
    · exact (if_neg (by rw [h]; decide)).trans ((if_neg (by rw [h]; decide)).trans
        (congrArg Host.Outcome.next (if_neg (by rw [h]; decide))))
    · exact (if_neg (by rw [h]; decide)).trans ((if_neg (by rw [h]; decide)).trans
        (congrArg Host.Outcome.next (if_pos h)))
  case window =>
    refine congrArg Host.Outcome.next ?_
    unfold State.writeWseq
    split <;> rfl

end Sys2Proof.Machine
end

section
/-!
PROOF. What scalar instructions leave unchanged (R299 to R315): register results, branches and CSRs outside a loop nest.
-/

namespace Sys2Proof.Machine

open Sys2Proof

/-! ### How a scalar convoy of one ends outside a loop nest -/

/-- The convoy in hand is a scalar one of one word, with nothing collected by earlier members, no single step and no
loop body. -/
structure State.Alone (s : State) : Prop where
  many : s.cv.many = false
  late : s.cv.late = []
  raised : s.cv.raised = 0#8
  vector : s.cv.vector = false
  step : s.th.hw.dbStep = false
  wait : s.th.hw.wait = none
  outside : s.inBody = false

section Ending

variable {s u t : State} {taken : Option W64}

theorem State.alone_of_plain (hs : s.plain = true) (hv : s.cv.vector = false) : s.Alone := by
  obtain ⟨hmany, hlate, hraised, -, -, hopen, -, hstep, hwait⟩ := State.plain_parts hs
  exact ⟨hmany, hlate, hraised, hv, hstep, hwait, by simp [State.inBody, hopen]⟩

/-- What a convoy that retires alone keeps, whatever its instruction did. -/
structure State.Retired (s t : State) : Prop where
  regs : ∀ r : BitVec 5, t.rd r = s.rd r
  file : t.th.sc.s = s.th.sc.s
  mode : t.th.sc.mode = s.th.sc.mode
  vec : t.th.vec = s.th.vec
  fl : t.th.fl = s.th.fl
  tr : t.th.tr = s.th.tr
  held : t.th.held = s.th.held
  nest : t.th.nest = s.th.nest.settle
  hw : t.th.hw = s.th.hw
  mem : t.mem = s.mem
  vcs : t.vcs = s.vcs
  parts : t.parts = s.parts
  hub : t.hub = s.hub

theorem State.Alone.retired (h : s.Alone) : s.Retired (s.retire taken) := by
  have hcommitted : s.committed = s := by simp [State.committed, h.vector, State.commitLate, h.late]
  have hhw : ({ s.th.hw with wait := none } : SlotHw) = s.th.hw := by rw [← h.wait]
  rw [State.retire_quiet taken (by simp [h.raised]), State.stepTrap_off (by simp [h.step]), State.complete_eq,
    hcommitted, State.advance_outside h.outside]
  exact ⟨fun _ => rfl, rfl, rfl, rfl, rfl, rfl, rfl, rfl, hhw, rfl, rfl, rfl, rfl⟩

theorem State.Alone.retires (h : s.Alone) (ht : s.retires = .next t) : s.Retired t := by
  have hfinish : s.finish = s.retire none := if_neg (ne_true_of_eq_false h.many)
  obtain rfl := Host.Outcome.next.inj ht
  rw [hfinish]
  exact h.retired

theorem Nest.settle_fresh {n : Nest} (h : n.stale = false) : n.settle = n := if_neg (ne_true_of_eq_false h)

end Ending

/-! ### Results in a register -/

section Result

variable {s t : State} {d r : BitVec 5} {x : W64}

theorem State.rd_wr_other (h : r ≠ d) : (s.wr d x).rd r = s.rd r := by
  unfold State.wr
  split
  · rfl
  · unfold State.rd
    split
    · rfl
    · exact tget_tset_other _ _ _ _ _ fun hr => h (BitVec.eq_of_toNat_eq hr)

/-- A result in s[d] changes nothing of the state but the registers, and of those s[d]. -/
theorem State.wr_eq (s : State) (d : BitVec 5) (x : W64) :
    ∃ l, s.wr d x = { s with th := { s.th with sc := { s.th.sc with s := l } } } := by
  unfold State.wr
  split
  · exact ⟨s.th.sc.s, rfl⟩
  · exact ⟨_, rfl⟩

theorem State.Alone.wr (h : s.Alone) : (s.wr d x).Alone := by
  obtain ⟨l, hl⟩ := State.wr_eq s d x
  rw [hl]
  exact ⟨h.many, h.late, h.raised, h.vector, h.step, h.wait, h.outside⟩

/-- A state t that a result in s[d] leads to keeps the rest of s. -/
theorem State.Alone.retires_wr (h : s.Alone) (ht : (s.wr d x).retires = .next t) :
    (∀ r : BitVec 5, r ≠ d → t.rd r = s.rd r) ∧ t.th.vec = s.th.vec ∧ t.th.fl = s.th.fl ∧ t.th.tr = s.th.tr ∧
      t.th.held = s.th.held ∧ t.th.nest = s.th.nest.settle ∧ t.th.sc.mode = s.th.sc.mode ∧ t.mem = s.mem ∧
      t.th.hw = s.th.hw ∧ t.vcs = s.vcs ∧ t.parts = s.parts ∧ t.hub = s.hub := by
  have hret := h.wr.retires ht
  have hothers : ∀ r : BitVec 5, r ≠ d → t.rd r = s.rd r := fun r hr => (hret.regs r).trans (State.rd_wr_other hr)
  obtain ⟨l, hl⟩ := State.wr_eq s d x
  rw [hl] at hret
  exact ⟨hothers, hret.vec, hret.fl, hret.tr, hret.held, hret.nest, hret.mode, hret.mem, hret.hw, hret.vcs, hret.parts,
    hret.hub⟩

/-- The same at a plain boundary. -/
theorem State.plain_retires_wr (hs : s.plain = true) (hv : s.cv.vector = false) (ht : (s.wr d x).retires = .next t) :
    (∀ r : BitVec 5, r ≠ d → t.rd r = s.rd r) ∧ t.th.vec = s.th.vec ∧ t.th.fl = s.th.fl ∧ t.th.tr = s.th.tr ∧
      t.th.held = s.th.held ∧ t.th.nest = s.th.nest ∧ t.th.sc.mode = s.th.sc.mode ∧ t.mem = s.mem ∧
      t.th.hw = s.th.hw ∧ t.vcs = s.vcs ∧ t.parts = s.parts ∧ t.hub = s.hub := by
  obtain ⟨-, -, -, -, -, -, hstale, -⟩ := State.plain_parts hs
  rw [← Nest.settle_fresh hstale]
  exact (State.alone_of_plain hs hv).retires_wr ht

/-- Arithmetic, register moves and TID end with a result in s[d] (R299, R300). -/
theorem arithmetic_result {d a b : BitVec 5} {imm : BitVec 12} {k : BitVec 6} {m : BitVec 20} {i : Instr}
    (hi : i ∈ ([.add d a b, .sub d a b, .and d a b, .or d a b, .xor d a b, .andn d a b, .sll d a b, .srl d a b, .sra d a b,
      .slt d a b, .sltn d a b, .mul d a b, .mulh d a b, .div d a b, .divn d a b, .rem d a b, .remn d a b, .addi d a imm,
      .andi d a imm, .ori d a imm, .xori d a imm, .slti d a imm, .slli d a k, .srli d a k, .srai d a k, .clz d a,
      .popc d a, .brev d a, .lui d m, .addpc d m, .tid d] : List Instr)) :
    ∃ x, exec i s = (s.wr d x).retires := by
  simp only [List.mem_cons, List.not_mem_nil, or_false] at hi
  rcases hi with rfl | rfl | rfl | rfl | rfl | rfl | rfl | rfl | rfl | rfl | rfl | rfl | rfl | rfl | rfl | rfl | rfl |
    rfl | rfl | rfl | rfl | rfl | rfl | rfl | rfl | rfl | rfl | rfl | rfl | rfl | rfl
  all_goals exact ⟨_, rfl⟩

end Result

/-! ### Branches (R308) -/

section Branch

variable {s t : State}

theorem branch_retires {a b : BitVec 5} {o : BitVec 12} {i : Instr}
    (hi : i ∈ ([.beq a b o, .bne a b o, .blt a b o, .bge a b o, .bltn a b o, .bgen a b o] : List Instr)) :
    ∃ taken, exec i s = .next (s.retire taken) := by
  simp only [List.mem_cons, List.not_mem_nil, or_false] at hi
  obtain ⟨heq, hne, hlt, hge, hltn, hgen, -⟩ := controlTransfers.1 s a b o
  rcases hi with rfl | rfl | rfl | rfl | rfl | rfl
  · exact ⟨_, heq⟩
  · exact ⟨_, hne⟩
  · exact ⟨_, hlt⟩
  · exact ⟨_, hge⟩
  · exact ⟨_, hltn⟩
  · exact ⟨_, hgen⟩

theorem branch_frame {i : Instr} {taken : Option W64} (hs : s.plain = true) (hv : s.cv.vector = false)
    (hi : exec i s = .next (s.retire taken)) (ht : exec i s = .next t) :
    t.th.sc.s = s.th.sc.s ∧ t.th.vec = s.th.vec ∧ t.th.fl = s.th.fl ∧ t.th.tr = s.th.tr ∧ t.th.held = s.th.held ∧
      t.th.nest = s.th.nest ∧ t.th.sc.mode = s.th.sc.mode ∧ t.mem = s.mem ∧ t.th.hw = s.th.hw := by
  obtain rfl := Host.Outcome.next.inj (hi.symm.trans ht)
  obtain ⟨-, -, -, -, -, -, hstale, -⟩ := State.plain_parts hs
  have hret := (State.alone_of_plain hs hv).retired (taken := taken)
  exact ⟨hret.file, hret.vec, hret.fl, hret.tr, hret.held, hret.nest.trans (Nest.settle_fresh hstale), hret.mode,
    hret.mem, hret.hw⟩

end Branch

/-! ### CSR writes (R314, R315) -/

/-- What the write of CSR n keeps of a state: each group of registers but the one that holds it. -/
structure CsrFrame (n : Nat) (s u : State) : Prop where
  sc : u.th.sc = s.th.sc
  pred : u.th.vec.p = s.th.vec.p
  mem : u.mem = s.mem
  loc : u.th.held.loc = s.th.held.loc
  remote : u.th.held.remote = s.th.held.remote
  hw : u.th.hw = s.th.hw
  hub : u.hub = s.hub
  cv : u.cv = s.cv
  buf : u.th.nest.buf = s.th.nest.buf
  regs : n ≠ 0x001 → u.th.vec.v = s.th.vec.v
  held : n ≠ 0x00C → u.th.held = s.th.held
  vec : 0x011 ≤ n → u.th.vec = s.th.vec
  fl : n < 0x011 ∨ 0x030 < n → u.th.fl = s.th.fl
  vcs : n < 0x100 ∨ 0x10F < n → u.vcs = s.vcs
  tr : 0x201 ≤ n → u.th.tr = s.th.tr
  parts : n < 0x201 ∨ 0x205 < n → u.parts = s.parts
  nest : n < 0x210 → u.th.nest = s.th.nest

namespace CsrFrame

variable {s u : State} {n : Nat}

theorem refl (s : State) : CsrFrame n s s := by
  constructor <;> intros <;> rfl

theorem modVec (h : n < 0x011) {f : VecState → VecState} (hp : (f s.th.vec).p = s.th.vec.p)
    (hv : n ≠ 0x001 → (f s.th.vec).v = s.th.vec.v) : CsrFrame n s (s.modVec f).dirtyCfg :=
  ⟨rfl, hp, rfl, rfl, rfl, rfl, rfl, rfl, rfl, hv, fun _ => rfl, fun _ => by omega, fun _ => rfl, fun _ => rfl,
    fun _ => by omega, fun _ => rfl, fun _ => rfl⟩

theorem modHeld (h : n = 0x00C) {x : Nat} : CsrFrame n s (s.modHeld (fun t => t.write x)) :=
  ⟨rfl, rfl, rfl, rfl, rfl, rfl, rfl, rfl, rfl, fun _ => rfl, fun _ => by omega, fun _ => rfl, fun _ => rfl, fun _ => rfl,
    fun _ => rfl, fun _ => rfl, fun _ => rfl⟩

theorem modFl (h : 0x011 ≤ n ∧ n ≤ 0x030) {f : Flags → Flags} : CsrFrame n s (s.modFl f) :=
  ⟨rfl, rfl, rfl, rfl, rfl, rfl, rfl, rfl, rfl, fun _ => rfl, fun _ => rfl, fun _ => rfl, fun _ => by omega, fun _ => rfl,
    fun _ => rfl, fun _ => rfl, fun _ => rfl⟩

theorem dirtyFl (h : 0x011 ≤ n ∧ n ≤ 0x030) {f : Flags → Flags} : CsrFrame n s (s.modFl f).dirtyFlg :=
  ⟨rfl, rfl, rfl, rfl, rfl, rfl, rfl, rfl, rfl, fun _ => rfl, fun _ => rfl, fun _ => rfl, fun _ => by omega, fun _ => rfl,
    fun _ => by omega, fun _ => rfl, fun _ => rfl⟩

theorem modVc (h : 0x100 ≤ n ∧ n ≤ 0x10F) {k : Nat} {f : Vc → Vc} : CsrFrame n s (s.modVc k f) :=
  ⟨rfl, rfl, rfl, rfl, rfl, rfl, rfl, rfl, rfl, fun _ => rfl, fun _ => rfl, fun _ => rfl, fun _ => rfl, fun _ => by omega,
    fun _ => rfl, fun _ => rfl, fun _ => rfl⟩

theorem modTr (h : n ≤ 0x200) {f : Recs → Recs} : CsrFrame n s (s.modTr f) :=
  ⟨rfl, rfl, rfl, rfl, rfl, rfl, rfl, rfl, rfl, fun _ => rfl, fun _ => rfl, fun _ => rfl, fun _ => rfl, fun _ => rfl,
    fun _ => by omega, fun _ => rfl, fun _ => rfl⟩

theorem modPart (h : 0x201 ≤ n ∧ n ≤ 0x205) {k : Nat} {f : Part → Part} : CsrFrame n s (s.modPart k f) :=
  ⟨rfl, rfl, rfl, rfl, rfl, rfl, rfl, rfl, rfl, fun _ => rfl, fun _ => rfl, fun _ => rfl, fun _ => rfl, fun _ => rfl,
    fun _ => rfl, fun _ => by omega, fun _ => rfl⟩

theorem writeFqhead (h : 0x201 ≤ n ∧ n ≤ 0x205) {k x : Nat} : CsrFrame n s (s.writeFqhead k x) :=
  ⟨rfl, rfl, rfl, rfl, rfl, rfl, rfl, rfl, rfl, fun _ => rfl, fun _ => rfl, fun _ => rfl, fun _ => rfl, fun _ => rfl,
    fun _ => rfl, fun _ => by omega, fun _ => rfl⟩

theorem modNest (h : 0x210 ≤ n) {f : Nest → Nest} (hbuf : (f s.th.nest).buf = s.th.nest.buf) :
    CsrFrame n s (s.modNest f) :=
  ⟨rfl, rfl, rfl, rfl, rfl, rfl, rfl, rfl, hbuf, fun _ => rfl, fun _ => rfl, fun _ => rfl, fun _ => rfl, fun _ => rfl,
    fun _ => rfl, fun _ => rfl, fun _ => by omega⟩

/-- Registers that are no longer promised change no more than a write of vtype does. -/
theorem forget (h : n = 0x001) (hu : CsrFrame n s u) (l : List Nat) : CsrFrame n s (u.forget l) :=
  foldl_keeps (CsrFrame n s) (fun (v : State) r =>
    (v.modVec (fun x => { x with v := tset 0 x.v r (Config.freeReg v.free) })).bump) (fun _ _ hv => ⟨hv.sc, hv.pred, hv.mem, hv.loc, hv.remote, hv.hw, hv.hub, hv.cv, hv.buf,
    fun _ => by omega, hv.held, fun _ => by omega, hv.fl, hv.vcs, hv.tr, hv.parts, hv.nest⟩) l u hu

theorem setVtype (h : n = 0x001) {x : Nat} : CsrFrame n s (s.setVtype x) := by
  have hlow : n < 0x011 := by omega
  unfold State.setVtype
  dsimp only
  split
  · exact modVec hlow rfl fun _ => rfl
  · refine forget h ?_ _
    exact ⟨rfl, rfl, rfl, rfl, rfl, rfl, rfl, rfl, rfl, fun _ => rfl, fun _ => rfl, fun _ => by omega, fun _ => rfl,
      fun _ => rfl, fun _ => by omega, fun _ => rfl, fun _ => rfl⟩

end CsrFrame

section CsrWrite

variable {s t : State} {n x : Nat}

/-- Each CSR lies in one group of registers. -/
theorem State.csrSet_frame (s : State) (n x : Nat) : CsrFrame n s (s.csrSet n x) := by
  unfold State.csrSet
  refine iteInduction (fun h => .modVec (by omega) rfl fun _ => rfl) fun _ => ?_
  refine iteInduction (fun h => .setVtype h) fun _ => ?_
  refine iteInduction (fun h => .modVec (by omega) rfl fun _ => rfl) fun _ => ?_
  refine iteInduction (fun h => .modHeld h) fun _ => ?_
  iterate 3 refine iteInduction (fun h => .modVec (by omega) rfl fun _ => rfl) fun _ => ?_
  iterate 2 refine iteInduction (fun h => .dirtyFl (by omega)) fun _ => ?_
  refine iteInduction (fun h => .modFl (by omega)) fun _ => ?_
  iterate 2 refine iteInduction (fun h => .dirtyFl (by omega)) fun _ => ?_
  iterate 5 refine iteInduction (fun h => .modFl (by omega)) fun _ => ?_
  refine iteInduction (fun h => .modVc h) fun _ => ?_
  iterate 11 refine iteInduction (fun h => .modTr (by omega)) fun _ => ?_
  iterate 2 refine iteInduction (fun h => .modPart (by omega)) fun _ => ?_
  refine iteInduction (fun h => .writeFqhead (by omega)) fun _ => ?_
  refine iteInduction (fun h => .modPart (by omega)) fun _ => ?_
  iterate 4 refine iteInduction (fun h => .modNest (by omega) rfl) fun _ => ?_
  exact .refl s

theorem State.Alone.csrSet (hs : s.plain = true) (hv : s.cv.vector = false) (hbuf : s.th.nest.buf = []) :
    (s.csrSet n x).Alone := by
  have hframe := s.csrSet_frame n x
  have hin : (s.csrSet n x).inBody = false := by simp [State.inBody, hframe.buf, hbuf]
  obtain ⟨hmany, hlate, hraised, hvector, hstep, hwait, -⟩ := State.alone_of_plain hs hv
  rw [← hframe.cv] at hmany hlate hraised hvector
  rw [← hframe.hw] at hstep hwait
  exact ⟨hmany, hlate, hraised, hvector, hstep, hwait, hin⟩

/-- The three forms that write end with the write and the old value in s[d]. -/
theorem csr_writes {d a : BitVec 5} {c : BitVec 12} {e : Instr × Nat}
    (he : e = (.csrw d a c, (s.rd a).toNat) ∨ a ≠ 0 ∧ (e = (.csrs d a c, s.csr c.toNat ||| (s.rd a).toNat) ∨
      e = (.csrc d a c, s.csr c.toNat - (s.csr c.toNat &&& (s.rd a).toNat))))
    (h : s.csrMay c.toNat e.2 = true) :
    exec e.1 s = ((s.csrSet c.toNat (s.csrNew c.toNat e.2)).wr d (BitVec.ofNat 64 (s.csr c.toNat))).retires := by
  rcases he with rfl | ⟨ha, rfl | rfl⟩
  · exact State.csrAccess_write h rfl
  · exact State.csrAccess_write h (by rw [if_neg (show ¬ a = 0#5 from ha)]; rfl)
  · exact State.csrAccess_write h (by rw [if_neg (show ¬ a = 0#5 from ha)]; rfl)

theorem csrWrite_frame {d : BitVec 5} {v : W64} (hs : s.plain = true) (hv : s.cv.vector = false)
    (hbuf : s.th.nest.buf = []) (ht : ((s.csrSet n x).wr d v).retires = .next t) :
    (∀ r : BitVec 5, r ≠ d → t.rd r = s.rd r) ∧ t.th.vec.p = s.th.vec.p ∧ t.mem = s.mem ∧
      t.th.sc.mode = s.th.sc.mode ∧ t.th.held.loc = s.th.held.loc ∧ t.th.held.remote = s.th.held.remote ∧
      t.th.hw = s.th.hw ∧ t.hub = s.hub ∧ (n ≠ 0x001 → t.th.vec.v = s.th.vec.v) ∧
      (n ≠ 0x00C → t.th.held = s.th.held) ∧ (0x011 ≤ n → t.th.vec = s.th.vec) ∧
      (n < 0x011 ∨ 0x030 < n → t.th.fl = s.th.fl) ∧ (n < 0x100 ∨ 0x10F < n → t.vcs = s.vcs) ∧
      (0x201 ≤ n → t.th.tr = s.th.tr) ∧ (n < 0x201 ∨ 0x205 < n → t.parts = s.parts) ∧
      (n < 0x210 → t.th.nest = s.th.nest) := by
  have hframe := s.csrSet_frame n x
  obtain ⟨hothers, hvec, hfl, htr, hheld, hnest, hmode, hmem, hhw, hvcs, hparts, hhub⟩ :=
    (State.Alone.csrSet hs hv hbuf).retires_wr ht
  obtain ⟨-, -, -, -, -, -, hstale, -⟩ := State.plain_parts hs
  have hregs : ∀ r, (s.csrSet n x).rd r = s.rd r := fun r => congrArg (fun c : Scalars => if r = 0#5 then 0 else
    tget 0 c.s r.toNat) hframe.sc
  refine ⟨fun r hr => (hothers r hr).trans (hregs r), ?_, hmem.trans hframe.mem,
    hmode.trans (congrArg Scalars.mode hframe.sc), ?_, ?_, hhw.trans hframe.hw, hhub.trans hframe.hub,
    fun h => ?_, fun h => hheld.trans (hframe.held h), fun h => hvec.trans (hframe.vec h),
    fun h => hfl.trans (hframe.fl h), fun h => hvcs.trans (hframe.vcs h), fun h => htr.trans (hframe.tr h),
    fun h => hparts.trans (hframe.parts h), fun h => ?_⟩
  · rw [hvec, hframe.pred]
  · rw [hheld, hframe.loc]
  · rw [hheld, hframe.remote]
  · rw [hvec, hframe.regs h]
  · rw [hnest, hframe.nest h, Nest.settle_fresh hstale]

end CsrWrite

end Sys2Proof.Machine
end

section
/-!
PROOF. What scalar loads, stores and AMO leave unchanged (R268, R304 to R307): the traffic at the slices, the bytes at
the home and in the store buffer.
-/

namespace Sys2Proof.Machine

open Sys2Proof

/-! ### The traffic at a slice (R56, R57) -/

/-- What traffic at a slice keeps while no other key's line is in its way: the thread but for what its slot is asked
to do, the convoy in hand and memory's bytes. -/
def State.steady (s : State) : Thread × Convoy × Table Byte × Table Byte :=
  ({ s.th with hw := { s.th.hw with stops := [] } }, s.cv, s.mem.cells, s.mem.pending)

/-- The line of a location is held at its slice under another key. -/
def State.foreign (s : State) (loc kid : Nat) : Bool :=
  match s.l2Set loc with
  | none => false
  | some (_, key) => (tget [] s.mem.l2 key).any (fun w => w.line == loc / 128 && w.kid != kid)

theorem State.foreign_of_set {s : State} {loc kid key : Nat} {p : Part} (hset : s.l2Set loc = some (p, key)) :
    s.foreign loc kid = (tget [] s.mem.l2 key).any (fun w => w.line == loc / 128 && w.kid != kid) := by
  unfold State.foreign
  rw [hset]

section Slice

variable {s u : State} {loc kid : Nat}

theorem State.steady_askAbandon (s : State) (slots : List Nat) : (s.askAbandon slots).steady = s.steady := by
  refine foldl_keeps (fun u : State => u.steady = s.steady) _ (fun u n hu => Eq.trans ?_ hu) slots s rfl
  unfold State.modThread
  split <;> rfl

theorem State.steady_macFailure (s : State) (vfs : List Nat) : (s.macFailure vfs).steady = s.steady :=
  foldl_keeps (fun u : State => u.steady = s.steady) State.failFunction
    (fun _ _ hu => (State.steady_askAbandon _ _).trans hu) vfs s rfl

theorem Mem.encryptLines_keeps (l : List Nat) (m : Mem) (f : Nat → Nat) (c : Counters) (x : Nat → BitVec 512) :
    (l.foldl (fun m k => m.encryptLine kid (f k) c (x k)) m).cells = m.cells ∧
      (l.foldl (fun m k => m.encryptLine kid (f k) c (x k)) m).pending = m.pending :=
  foldl_keeps (fun u : Mem => u.cells = m.cells ∧ u.pending = m.pending)
    (fun u k => u.encryptLine kid (f k) c (x k)) (fun _ _ hu => hu) l m ⟨rfl, rfl⟩

theorem State.steady_writeback (s : State) (line kid : Nat) : (s.writeback line kid).steady = s.steady := by
  unfold State.writeback
  dsimp only
  split
  · rfl
  · split
    · exact s.steady_macFailure _
    · unfold State.steady
      exact congrArg₂ (fun c p => (_, _, c, p)) (Mem.encryptLines_keeps ..).1 (Mem.encryptLines_keeps ..).2

theorem State.steady_l2Fill (s : State) (key : Nat) (w : L2Way) : (s.l2Fill key w).steady = s.steady := by
  unfold State.l2Fill
  dsimp only
  split
  · rfl
  · split
    · rfl
    · split
      · exact s.steady_writeback ..
      · rfl

theorem State.claim_of_foreign (h : s.foreign loc kid = false) : s.claim loc kid = s := by
  unfold State.foreign at h
  unfold State.claim
  split
  · rfl
  · next hset =>
    rw [hset] at h
    exact if_neg (ne_true_of_eq_false h)

theorem State.l2_refetch (s : State) (line kid : Nat) : (s.refetch line kid).mem.l2 = s.mem.l2 := by
  have hmac : ∀ vfs : List Nat, (s.macFailure vfs).mem = s.mem := fun vfs =>
    foldl_keeps (fun u : State => u.mem = s.mem) State.failFunction
      (fun u vf hu => (State.failFunction_mem u vf).trans hu) vfs s rfl
  unfold State.refetch
  dsimp only
  split
  · rfl
  · show (s.macFailure (s.owners kid)).mem.l2 = s.mem.l2
    rw [hmac]

/-- A fetch brings the line's bytes, or poisons all of it. -/
theorem State.refetch_cases (s : State) (line kid : Nat) :
    (∃ cells pending, s.refetch line kid = { s with mem := { s.mem with cells := cells, pending := pending } }) ∨
      s.refetch line kid = (s.macFailure (s.owners kid)).poisonLine line := by
  unfold State.refetch
  dsimp only
  split
  · exact .inl ⟨_, _, rfl⟩
  · exact .inr rfl

theorem State.poisoned_poisonLine (s : State) {loc n : Nat} (hn : 0 < n) :
    (s.poisonLine (loc / 128)).poisoned loc n = true := by
  have hmem : loc / 8 ∈ (s.poisonLine (loc / 128)).mem.poison := by
    show loc / 8 ∈ ((List.range 16).map (fun k => loc / 128 * 16 + k)).filter (fun w => !s.mem.poison.contains w) ++
      s.mem.poison
    by_cases hold : loc / 8 ∈ s.mem.poison
    · exact List.mem_append_right _ hold
    · refine List.mem_append_left _ (List.mem_filter.mpr ⟨List.mem_map.mpr ⟨loc / 8 % 16, ?_, ?_⟩, by simpa using hold⟩)
      · exact List.mem_range.mpr (Nat.mod_lt _ (by decide))
      · omega
  exact List.any_eq_true.mpr ⟨_, hmem, decide_eq_true (by omega)⟩

theorem State.claim_foreign {p : Part} {key : Nat} (hset : s.l2Set loc = some (p, key)) (h : s.foreign loc kid = true) :
    s.claim loc kid = (s.modMem (fun m => { m with
      l2 := tset [] m.l2 key ((tget [] s.mem.l2 key).filter (fun w => w.line != loc / 128)) })).refetch (loc / 128) kid := by
  unfold State.foreign at h
  unfold State.claim
  rw [hset] at h ⊢
  exact if_pos h

/-- Where a claim changes nothing no other key holds the line: it would have been dropped. -/
theorem State.foreign_of_claim (h : s.claim loc kid = s) : s.foreign loc kid = false := by
  by_contra hforeign
  have hforeign := Bool.eq_true_of_not_eq_false hforeign
  cases hset : s.l2Set loc with
  | none => simp [State.foreign, hset] at hforeign
  | some e =>
    obtain ⟨p, key⟩ := e
    have hways : tget [] s.mem.l2 key = (tget [] s.mem.l2 key).filter (fun w => w.line != loc / 128) := by
      rw [State.claim_foreign hset hforeign] at h
      have hl2 := congrArg (fun u : State => tget [] u.mem.l2 key) h
      rw [State.l2_refetch] at hl2
      exact hl2.symm.trans (tget_tset_same ..)
    simp only [State.foreign, hset, List.any_eq_true, Bool.and_eq_true, beq_iff_eq] at hforeign
    obtain ⟨w, hw, hline, -⟩ := hforeign
    rw [hways] at hw
    exact absurd hline (by simpa using (List.mem_filter.mp hw).2)

/-- A line that was claimed and is clean stays claimed: only a failed MAC check does more than drop and fetch. -/
theorem State.foreign_claim {n : Nat} (hn : 0 < n) (hclean : (s.claim loc kid).poisoned loc n = false) :
    (s.claim loc kid).foreign loc kid = false := by
  by_cases h : s.foreign loc kid = true
  case neg =>
    have h := Bool.eq_false_of_not_eq_true h
    rwa [State.claim_of_foreign h]
  case pos =>
    cases hset : s.l2Set loc with
    | none => simp [State.foreign, hset] at h
    | some e =>
      obtain ⟨p, key⟩ := e
      rw [State.claim_foreign hset h] at hclean ⊢
      rcases State.refetch_cases _ (loc / 128) kid with ⟨cells, pending, hrefetch⟩ | hrefetch
      · rw [hrefetch]
        have hways : tget [] (tset [] s.mem.l2 key ((tget [] s.mem.l2 key).filter (fun w => w.line != loc / 128))) key =
            (tget [] s.mem.l2 key).filter (fun w => w.line != loc / 128) := tget_tset_same ..
        refine (State.foreign_of_set (s := { s with mem := { s.mem with cells := cells, pending := pending, l2 := _ } })
          hset).trans ((congrArg (List.any · _) hways).trans ?_)
        exact List.any_eq_false.mpr fun w hw => by simp [show w.line ≠ loc / 128 by simpa using (List.mem_filter.mp hw).2]
      · rw [hrefetch, State.poisoned_poisonLine _ hn] at hclean
        cases hclean

theorem State.steady_l2Access (al : Alloc) (write : Bool) (h : s.foreign loc kid = false) :
    (s.l2Access loc kid al write).steady = s.steady := by
  unfold State.l2Access
  split
  · rfl
  · dsimp only
    rw [State.claim_of_foreign h]
    split
    · rfl
    · split
      · split
        · exact State.steady_writeback ..
        · rfl
      · exact State.steady_l2Fill ..

theorem State.steady_countHost (s : State) (loc : Nat) : (s.countHost loc).steady = s.steady := by
  unfold State.countHost
  split <;> rfl

/-- The traffic of one line. -/
theorem State.steady_touch {line : Nat} (al : Nat → Alloc) (write : Bool) (h : s.foreign (line * 128) kid = false) :
    (s.touch [line] kid al write).steady = s.steady :=
  (State.steady_countHost _ _).trans (State.steady_l2Access _ _ h)

end Slice

/-! ### Bytes as the thread reads them -/

section Reading

variable {s u : State} {own : Bool} {l kid : Nat} {keep : Option Nat}

theorem State.readByte_of_steady (h : u.steady = s.steady) : u.readByte own l = s.readByte own l := by
  have hbuf : u.th.hw.buf = s.th.hw.buf := congrArg (·.1.hw.buf) h
  have hcells : u.mem.cells = s.mem.cells := congrArg (·.2.2.1) h
  have hpending : u.mem.pending = s.mem.pending := congrArg (·.2.2.2) h
  simp only [State.readByte, State.homeByteFor, State.homeByte, hbuf, hcells, hpending]

theorem find?_tinsert_other {α : Type} {k : Nat} {v : α} (h : l ≠ k) :
    ∀ t : Table α, (tinsert t k v).find? (fun c => c.1 == l) = t.find? (fun c => c.1 == l)
  | [] => by simp [tinsert, Ne.symm h]
  | (j, x) :: r => by
    unfold tinsert
    split
    · rw [List.find?_cons_of_neg (by simpa using Ne.symm h)]
    · split
      · next hjk =>
        rw [List.find?_cons_of_neg (by simpa using Ne.symm h), List.find?_cons_of_neg (by simpa [hjk] using Ne.symm h)]
      · rw [List.find?_cons, List.find?_cons, find?_tinsert_other h r]

/-- A byte written elsewhere is not read here. -/
theorem State.readByte_pokeByte_other {loc : Nat} {pend : Bool} {b : Byte} (h : l ≠ loc) :
    (s.pokeByte loc pend b).readByte own l = s.readByte own l := by
  have hfind : (s.pokeByte loc pend b).mem.pending.find? (fun c => c.1 == l) =
      s.mem.pending.find? (fun c => c.1 == l) := by
    unfold State.pokeByte
    split
    · exact find?_tinsert_other h _
    · rfl
  have hth : (s.pokeByte loc pend b).th = s.th := by
    unfold State.pokeByte
    split <;> rfl
  unfold State.readByte State.homeByteFor
  rw [hth, hfind, homeByte_pokeByte_other _ _ _ _ _ h]

theorem State.readByte_dropDcache {loc : Nat} : (s.dropDcache keep loc).readByte own l = s.readByte own l :=
  foldl_keeps (fun u : State => u.readByte own l = s.readByte own l) (fun u v =>
    u.modVc v (fun c => { c with dcache := c.dcache.filter (fun l => decide (l / 2 ≠ loc / 128)) }))
    (fun _ _ hu => hu) _ s rfl

/-- What neither memory's bytes and poison nor a VC is, writes at homes leave as it was. -/
theorem pokeBytes_keeps {α : Type} (g : State → α) (hvc : ∀ u n f, g (State.modVc u n f) = g u)
    (hmem : ∀ (u : State) p c, g (u.modMem (fun m => { m with pending := p, cells := c })) = g u)
    (hpoison : ∀ (u : State) q, g (u.modMem (fun m => { m with poison := q })) = g u) (s : State)
    (ws : List (Nat × Byte)) : g (s.pokeBytes kid keep ws) = g s := by
  have hfold := foldl_keeps (fun u : State => g u = g s) (fun u (w : Nat × Byte) =>
    (u.pokeByte w.1 (u.inSharing w.1 kid) w.2).dropDcache keep w.1)
    (fun u w hu => (pokeByte_dropDcache_keeps g hvc hmem u w.1 _ w.2).trans hu) ws s rfl
  unfold State.pokeBytes
  dsimp only
  split
  · exact hfold
  · exact (hpoison _ (List.filter _ _)).trans hfold

theorem State.readByte_pokeBytes_other {ws : List (Nat × Byte)} (h : ∀ w ∈ ws, w.1 ≠ l) :
    (s.pokeBytes kid keep ws).readByte own l = s.readByte own l := by
  have hfold : ∀ u : State, (ws.foldl (fun u w =>
      (u.pokeByte w.1 (u.inSharing w.1 kid) w.2).dropDcache keep w.1) u).readByte own l = u.readByte own l := by
    induction ws with
    | nil => exact fun _ => rfl
    | cons w r ih =>
      intro u
      rw [List.foldl_cons, ih (fun x hx => h x (List.mem_cons_of_mem _ hx)), State.readByte_dropDcache,
        State.readByte_pokeByte_other (Ne.symm (h w List.mem_cons_self))]
  unfold State.pokeBytes
  dsimp only
  split
  · exact hfold s
  · exact hfold s

end Reading

/-! ### A word at its home -/

section Word

variable {s : State} {kid loc : Nat} {bs : List Byte} {al : Nat → Alloc}

/-- The writes of a word that lies in one line touch that line. -/
theorem linesOf_writesOf (hne : bs ≠ []) (hline : loc % 128 + bs.length ≤ 128) :
    linesOf (writesOf loc bs) = [loc / 128] := by
  obtain ⟨n, hn⟩ := Nat.exists_eq_succ_of_ne_zero (List.length_eq_zero_iff.not.mpr hne)
  have hlines : (writesOf loc bs).map (fun w => w.1 / 128) = List.replicate (n + 1) (loc / 128) := by
    rw [writesOf_eq, List.map_map, hn]
    refine List.eq_replicate_iff.mpr ⟨by simp, fun l hl => ?_⟩
    obtain ⟨k, hk, rfl⟩ := List.mem_map.mp hl
    have hk := List.mem_range.mp hk
    show (loc + k) / 128 = loc / 128
    omega
  unfold linesOf
  rw [hlines, List.replicate_succ, List.eraseDups_cons]
  simp

/-- A word written at its home in a line that no other key holds changes its own bytes alone. -/
theorem State.storeHome_word {keep : Option Nat} (hne : bs ≠ []) (hline : loc % 128 + bs.length ≤ 128)
    (h : s.foreign (loc / 128 * 128) kid = false) :
    (∃ l, (s.storeHome kid keep al (writesOf loc bs)).th = { s.th with hw := { s.th.hw with stops := l } }) ∧
      (s.storeHome kid keep al (writesOf loc bs)).cv = s.cv ∧
      ∀ (own : Bool) (l : Nat), l < loc ∨ loc + bs.length ≤ l →
        (s.storeHome kid keep al (writesOf loc bs)).readByte own l = s.readByte own l := by
  have hforeign : (s.pokeBytes kid keep (writesOf loc bs)).foreign (loc / 128 * 128) kid = false :=
    (pokeBytes_keeps (·.foreign (loc / 128 * 128) kid) (fun _ _ _ => rfl) (fun _ _ _ => rfl) (fun _ _ => rfl) s _).trans h
  have hstore : s.storeHome kid keep al (writesOf loc bs) =
      (s.pokeBytes kid keep (writesOf loc bs)).touch [loc / 128] kid al true := by
    unfold State.storeHome
    rw [linesOf_writesOf hne hline]
    dsimp only [List.foldl]
    rw [State.claim_of_foreign h]
  have hsteady := State.steady_touch al true hforeign
  rw [← hstore] at hsteady
  refine ⟨?_, ?_, fun own l hl => ?_⟩
  · have hth : ∀ u : State, u.th = { u.steady.1 with hw := { u.steady.1.hw with stops := u.th.hw.stops } } := fun _ => rfl
    rw [hth, hsteady]
    have hpoke : (s.pokeBytes kid keep (writesOf loc bs)).th = s.th :=
      pokeBytes_keeps (·.th) (fun _ _ _ => rfl) (fun _ _ _ => rfl) (fun _ _ => rfl) s _
    unfold State.steady
    rw [hpoke]
    exact ⟨_, rfl⟩
  · exact (congrArg (·.2.1) hsteady).trans
      (pokeBytes_keeps (·.cv) (fun _ _ _ => rfl) (fun _ _ _ => rfl) (fun _ _ => rfl) s _)
  · exact (State.readByte_of_steady hsteady).trans (State.readByte_pokeBytes_other (writesOf_outside hl))

end Word

/-! ### Threads apart in their slots -/

/-- Of the thread, u differs from s in its slot alone. -/
structure State.SlotApart (s u : State) : Prop where
  sc : u.th.sc = s.th.sc
  vec : u.th.vec = s.th.vec
  held : u.th.held = s.th.held
  fl : u.th.fl = s.th.fl
  tr : u.th.tr = s.th.tr
  nest : u.th.nest = s.th.nest

section SlotApart

variable {s t u w : State} {h : SlotHw}

theorem State.slotApart_of_eq (hth : u.th = { s.th with hw := h }) : s.SlotApart u := by
  constructor <;> rw [hth]

theorem State.SlotApart.trans (hu : s.SlotApart u) (hw : u.SlotApart w) : s.SlotApart w :=
  ⟨hw.sc.trans hu.sc, hw.vec.trans hu.vec, hw.held.trans hu.held, hw.fl.trans hu.fl, hw.tr.trans hu.tr,
    hw.nest.trans hu.nest⟩

theorem State.SlotApart.rd (h : s.SlotApart u) (r : BitVec 5) : u.rd r = s.rd r := by
  unfold State.rd
  rw [h.sc]

theorem State.Retired.readByte (h : s.Retired t) (own : Bool) (l : Nat) : t.readByte own l = s.readByte own l := by
  unfold State.readByte State.homeByteFor State.homeByte
  rw [h.hw, h.mem]

/-- From a state that differs from s in its slot and outside the thread, a result in s[d] keeps the rest of s's thread. -/
theorem State.SlotApart.retires_wr {d : BitVec 5} {x : W64} (hth : s.SlotApart w) (hw : w.plain = true)
    (hv : w.cv.vector = false) (ht : (w.wr d x).retires = .next t) :
    (∀ r : BitVec 5, r ≠ d → t.rd r = s.rd r) ∧ t.th.vec = s.th.vec ∧ t.th.fl = s.th.fl ∧ t.th.tr = s.th.tr ∧
      t.th.held = s.th.held ∧ t.th.nest = s.th.nest ∧ t.th.sc.mode = s.th.sc.mode ∧ t.mem = w.mem ∧
      t.th.hw = w.th.hw := by
  obtain ⟨hothers, hvec, hfl, htr, hheld, hnest, hmode, hmem, hhw, -⟩ := State.plain_retires_wr hw hv ht
  exact ⟨fun r hr => (hothers r hr).trans (hth.rd r), hvec.trans hth.vec, hfl.trans hth.fl, htr.trans hth.tr,
    hheld.trans hth.held, hnest.trans hth.nest, hmode.trans (congrArg Scalars.mode hth.sc), hmem, hhw⟩

end SlotApart

/-! ### Loads (R304) -/

section Load

variable {s t u : State} {d a : BitVec 5} {o : BitVec 12} {p : Phys} {c : Instr × Nat}

theorem State.steady_scalarTouch (h : u.claim (p.loc / 128 * 128) p.kid = u) : (u.scalarTouch p).steady = u.steady := by
  unfold State.scalarTouch
  split
  · split
    · rfl
    · exact State.steady_touch (fun _ => .age 0) false (State.foreign_of_claim h)
  · rfl

/-- Every load ends with what it read in s[d]. -/
theorem load_result (hc : c ∈ ([(.lb d a o, 1), (.lh d a o, 2), (.lw d a o, 4), (.ld d a o, 8), (.lbn d a o, 1),
      (.lhn d a o, 2), (.lwn d a o, 4), (.lda d a o, 8)] : List (Instr × Nat)))
    (hgot : s.got .load (s.ea a o) c.2 = some (p, u)) (hclean : (u.scalarTouch p).consumes p.loc c.2 = false) :
    ∃ x, exec c.1 s = ((u.scalarTouch p).wr d x).retires := by
  obtain ⟨lb, lh, lw, ld, lbn, lhn, lwn, lda⟩ := scalarLoadsAndStores.1 s u p d a o
  simp only [List.mem_cons, List.not_mem_nil, or_false] at hc
  rcases hc with rfl | rfl | rfl | rfl | rfl | rfl | rfl | rfl
  · exact ⟨_, lb hgot hclean⟩
  · exact ⟨_, lh hgot hclean⟩
  · exact ⟨_, lw hgot hclean⟩
  · exact ⟨_, ld hgot hclean⟩
  · exact ⟨_, lbn hgot hclean⟩
  · exact ⟨_, lhn hgot hclean⟩
  · exact ⟨_, lwn hgot hclean⟩
  · exact ⟨_, lda hgot hclean⟩

theorem load_frame {x : W64} (hw : (u.scalarTouch p).plain = true) (hv : (u.scalarTouch p).cv.vector = false)
    (hth : (u.scalarTouch p).th = { s.th with hw := (u.scalarTouch p).th.hw })
    (ht : ((u.scalarTouch p).wr d x).retires = .next t) :
    (∀ r : BitVec 5, r ≠ d → t.rd r = s.rd r) ∧ t.th.vec = s.th.vec ∧ t.th.fl = s.th.fl ∧ t.th.tr = s.th.tr ∧
      t.th.held = s.th.held ∧ t.th.nest = s.th.nest ∧ t.th.sc.mode = s.th.sc.mode ∧ t.mem = (u.scalarTouch p).mem ∧
      t.th.hw.buf = (u.scalarTouch p).th.hw.buf ∧ (u.claim (p.loc / 128 * 128) p.kid = u → t.mem.cells = u.mem.cells ∧
        ∀ (own : Bool) (l : Nat), t.readByte own l = u.readByte own l) := by
  obtain ⟨hothers, hvec, hfl, htr, hheld, hnest, hmode, hmem, hhw⟩ := (State.slotApart_of_eq hth).retires_wr hw hv ht
  refine ⟨hothers, hvec, hfl, htr, hheld, hnest, hmode, hmem, congrArg SlotHw.buf hhw, fun hclaim => ?_⟩
  have hsteady := State.steady_scalarTouch hclaim
  refine ⟨(congrArg Mem.cells hmem).trans (congrArg (·.2.2.1) hsteady), fun own l => ?_⟩
  refine Eq.trans ?_ (State.readByte_of_steady hsteady)
  unfold State.readByte State.homeByteFor State.homeByte
  rw [hhw, hmem]

end Load

/-! ### Stores (R305) -/

section Store

variable {s t u : State} {d a : BitVec 5} {o : BitVec 12} {p : Phys} {c : Instr × Nat}

/-- Every store puts its bytes into the buffer. -/
theorem store_result (hc : c ∈ ([(.sb d a o, 1), (.sh d a o, 2), (.sw d a o, 4), (.sd d a o, 8),
      (.sdr d a o, 8)] : List (Instr × Nat))) (htrains : c.1 = .sdr d a o → u.th.hw.trains = [])
    (hgot : s.got .store (s.ea a o) c.2 = some (p, u)) (hroom : u.roomAt [p] = true) :
    ∃ rel, exec c.1 s = (u.pushScalar (writesOf p.loc (leBytes c.2 (s.rd d).toNat)) p.kid rel).retires := by
  obtain ⟨sb, sh, sw, sd, sdr, -⟩ := scalarLoadsAndStores.2 s u p d a o
  simp only [List.mem_cons, List.not_mem_nil, or_false] at hc
  rcases hc with rfl | rfl | rfl | rfl | rfl
  · exact ⟨_, sb hgot hroom⟩
  · exact ⟨_, sh hgot hroom⟩
  · exact ⟨_, sw hgot hroom⟩
  · exact ⟨_, sd hgot hroom⟩
  · exact ⟨_, sdr hgot hroom (htrains rfl)⟩

/-- A scalar store adds an entry to the buffer of the slot. -/
theorem State.pushScalar_eq (u : State) (ws : List (Nat × Byte)) (kid : Nat) (rel : Bool) :
    ∃ (e : BufEntry) (k : Nat), e.writes = ws ∧
      u.pushScalar ws kid rel = (u.pushBuf e).modHw (fun h => { h with storeNum := k }) :=
  ⟨{ BufEntry.plain ws kid with keep := some u.curVc, rel := rel, num := u.th.hw.storeNum }, _, rfl, rfl⟩

theorem State.Alone.pushBuf (h : u.Alone) (e : BufEntry) (k : Nat) :
    ((u.pushBuf e).modHw (fun h => { h with storeNum := k })).Alone := by
  unfold State.pushBuf
  split
  · exact ⟨h.many, h.late, h.raised, h.vector, h.step, h.wait, h.outside⟩
  · exact ⟨h.many, h.late, h.raised, h.vector, h.step, h.wait, h.outside⟩

theorem State.slotApart_pushBuf (u : State) (e : BufEntry) (k : Nat) :
    u.SlotApart ((u.pushBuf e).modHw (fun h => { h with storeNum := k })) := by
  unfold State.pushBuf
  split
  · exact ⟨rfl, rfl, rfl, rfl, rfl, rfl⟩
  · exact ⟨rfl, rfl, rfl, rfl, rfl, rfl⟩

theorem store_frame {bs : List Byte} {kid : Nat} {rel : Bool} (hu : u.plain = true) (hv : u.cv.vector = false)
    (hth : u.th = { s.th with hw := u.th.hw })
    (ht : (u.pushScalar (writesOf p.loc bs) kid rel).retires = .next t) :
    (∀ r : BitVec 5, t.rd r = s.rd r) ∧ t.th.vec = s.th.vec ∧ t.th.fl = s.th.fl ∧ t.th.tr = s.th.tr ∧
      t.th.held = s.th.held ∧ t.th.nest = s.th.nest ∧ t.th.sc.mode = s.th.sc.mode ∧
      (∀ (own : Bool) (l : Nat), l < p.loc ∨ p.loc + bs.length ≤ l → t.readByte own l = u.readByte own l) ∧
      (∀ (own : Bool) (k : Nat), k < bs.length → t.readByte own (p.loc + k) = bs.getD k 0) := by
  obtain ⟨e, k, hws, hpush⟩ := u.pushScalar_eq (writesOf p.loc bs) kid rel
  obtain ⟨-, -, -, -, -, -, hstale, -⟩ := State.plain_parts hu
  rw [hpush] at ht
  have hret := ((State.alone_of_plain hu hv).pushBuf e k).retires ht
  have hread : ∀ own l, t.readByte own l = (u.pushBuf e).readByte own l := hret.readByte
  have hsu : s.SlotApart u := State.slotApart_of_eq hth
  have hth := hsu.trans (u.slotApart_pushBuf e k)
  refine ⟨fun r => (hret.regs r).trans (hth.rd r), hret.vec.trans hth.vec, hret.fl.trans hth.fl, hret.tr.trans hth.tr,
    hret.held.trans hth.held, ?_, hret.mode.trans (congrArg Scalars.mode hth.sc), fun own l hl => ?_,
    fun own k hk => ?_⟩
  · rw [hret.nest, hth.nest, Nest.settle_fresh (hsu.nest ▸ hstale)]
  · exact (hread own l).trans (readByte_pushBuf_other (hws ▸ writesOf_outside hl))
  · exact (hread own _).trans (readByte_pushBuf_mem (hws ▸ (writesOf_at hk).1) (hws ▸ (writesOf_at hk).2))

end Store

/-! ### AMO (R306, R307) -/

section Amo

variable {s t v : State} {d : BitVec 5} {p : Phys} {n : Nat} {x : W64} {bs : List Byte}

/-- A word replaced at its home, where it lies in one line, and a result in s[d]. -/
theorem amo_frame (hv : v.plain = true) (hvec : v.cv.vector = false) (hth : s.SlotApart v) (hne : bs ≠ [])
    (hline : p.loc % 128 + bs.length ≤ 128) (hclaim : v.claim (p.loc / 128 * 128) p.kid = v)
    (ht : ((v.storeHome p.kid none (fun _ => .age 0) (writesOf p.loc bs)).wr d x).retires = .next t) :
    (∀ r : BitVec 5, r ≠ d → t.rd r = s.rd r) ∧ t.th.vec = s.th.vec ∧ t.th.fl = s.th.fl ∧
      t.th.tr = s.th.tr ∧ t.th.held = s.th.held ∧ t.th.nest = s.th.nest ∧ t.th.sc.mode = s.th.sc.mode ∧
      (∀ (own : Bool) (l : Nat), l < p.loc ∨ p.loc + bs.length ≤ l → t.readByte own l = v.readByte own l) := by
  obtain ⟨⟨stops, hstops⟩, hcv, hread⟩ := State.storeHome_word (al := fun _ => .age 0) (keep := none) hne hline
    (State.foreign_of_claim hclaim)
  generalize v.storeHome p.kid none (fun _ => .age 0) (writesOf p.loc bs) = w at ht hstops hcv hread
  have hplain : w.plain = true := by
    unfold State.plain at hv ⊢
    rw [hcv, hstops]
    exact hv
  obtain ⟨hothers, hvec', hfl, htr, hheld, hnest, hmode, hmem, hhw⟩ :=
    (hth.trans (State.slotApart_of_eq hstops)).retires_wr hplain (hcv ▸ hvec) ht
  refine ⟨hothers, hvec', hfl, htr, hheld, hnest, hmode, fun own l hl => Eq.trans ?_ (hread own l hl)⟩
  unfold State.readByte State.homeByteFor State.homeByte
  rw [hhw, hmem]

end Amo

end Sys2Proof.Machine
end

section
/-!
PROOF. The frames of scalar instructions (O54) where no stale entry of a TLB is used (R45): a walk's place has the low
bits of its address, so an AMO's word lies in one line.
-/

namespace Sys2Proof.Machine

open Sys2Proof

/-! ### Places that a walk gives (R37, R38, R40) -/

section Places

variable {s : State} {k : Caches} {c : Ctx} {acc : Access}

/-- Stage 2 moves whole frames. -/
theorem State.st2Phys_mod (s : State) (e : BitVec 64) (gpa : Nat) : (s.st2Phys e gpa).loc % 8 = gpa % 8 := by
  show s.st2Loc e gpa % 8 = gpa % 8
  unfold State.st2Loc hostBase twinBase
  dsimp only
  split
  · split <;> omega
  · omega

theorem leafBits_mod (level a : Nat) : a % 2 ^ leafBits level % 8 = a % 8 := by
  have h : 3 ≤ leafBits level := by
    unfold leafBits
    split_ifs <;> decide
  exact Nat.mod_mod_of_dvd a (pow_dvd_pow 2 h)

theorem State.atLeaf_mod {va level : Nat} {r : TableRead} {x : Xlat} (h : s.atLeaf k c acc va level r = .ok x) :
    x.phys.loc % 8 = va % 8 := by
  have hloc : ∀ page, (s.st2Phys (s.st2Via k c.vf.toNat ((page * 2 ^ 9 + va % 2 ^ leafBits level) / 2 ^ 21))
      (page * 2 ^ 9 + va % 2 ^ leafBits level)).loc % 8 = va % 8 := fun page => by
    rw [State.st2Phys_mod, ← leafBits_mod level va]
    omega
  unfold State.atLeaf at h
  dsimp only at h
  split_ifs at h
  all_goals
    obtain rfl := Except.ok.inj h
    exact hloc _

theorem State.walkFrom_mod {va : Nat} : ∀ {fuel level table : Nat} {reads rs : List TableRead} {x : Xlat},
    s.walkFrom k c acc va fuel level table reads = (.ok x, rs) → x.phys.loc % 8 = va % 8
  | 0, _, _, _, _, _, h => by cases h
  | fuel + 1, level, table, reads, rs, x, h => by
    unfold State.walkFrom at h
    dsimp only at h
    split at h
    · cases h
    · next r hr =>
      split at h
      · cases h
      · split at h
        · cases h
        · split at h
          · cases h
          · split at h
            · have hleaf := congrArg Prod.fst h
              dsimp only at hleaf
              cases hat : s.atLeaf k c acc va level r with
              | error f => rw [hat] at hleaf; cases hleaf
              | ok y =>
                rw [hat] at hleaf
                obtain rfl := Except.ok.inj hleaf
                exact State.atLeaf_mod (x := y) hat
            · exact State.walkFrom_mod h

theorem State.walkFrom_place {va fuel level table : Nat} {reads : List TableRead} {x : Xlat}
    (h : (s.walkFrom k c acc va fuel level table reads).1 = .ok x) : x.phys.loc % 8 = va % 8 := by
  cases hw : s.walkFrom k c acc va fuel level table reads with
  | mk y rs =>
    rw [hw] at h
    exact State.walkFrom_mod (hw.trans (congrArg (·, rs) h))

theorem State.scratchXlat_mod {tile off : Nat} {x : Xlat} (h : s.scratchXlat c acc tile off = .ok x) :
    x.phys.loc % 8 = off % 8 := by
  unfold State.scratchXlat at h
  split at h
  · cases h
  · obtain rfl := Except.ok.inj h
    show scratchLoc tile off % 8 = off % 8
    unfold scratchLoc scratchBase
    omega

/-- The place that a walk gives an address has its low three bits. -/
theorem State.walkVia_mod {va : W64} {x : Xlat} (h : (s.walkVia k c acc va).1 = .ok x) :
    x.phys.loc % 8 = va.toNat % 8 := by
  unfold State.walkVia at h
  dsimp only at h
  split at h
  · cases h
  · split at h
    · split at h
      · split at h
        · next hown _ _ _ _ =>
          obtain ⟨hlo, -⟩ := hown
          generalize hoff : va.toNat - ownWindow = off at h
          have hplace := State.scratchXlat_mod h
          unfold ownWindow at hlo hoff
          omega
        · cases h
      · split at h
        · have := State.scratchXlat_mod h
          omega
        · cases h
    · have hwalk : ∀ r : Tried, (s.afterRefusals acc r).1 = .ok x → r.1 = .ok x := by
        intro r hr
        unfold State.afterRefusals at hr
        split at hr
        · split at hr
          · split at hr
            · exact hr
            · cases hr
          · exact hr
          · cases hr
        · exact hr
      have hok := hwalk _ h
      have := State.walkFrom_place hok
      omega

/-- Where no stale entry is ever used the answer is a fresh walk's, or cannot be told from it. -/
theorem State.translate_fresh (places : List TlbPlace) (va : W64) (hfree : Config.freeBit s.free = false) :
    (s.translate places c acc va).1 = s.walkVia Caches.none c acc va ∨
      sameXlat (s.walkVia Caches.none c acc va).1 (s.translate places c acc va).1.1 = true := by
  unfold State.translate
  extract_lets fresh old
  split
  · exact .inl rfl
  · rw [hfree]
    by_cases hsame : sameXlat fresh.1 old.1 = true
    · rw [if_pos hsame]
      exact .inr hsame
    · rw [if_neg hsame]
      exact .inl rfl

theorem State.translate_mod {places : List TlbPlace} {va : W64} {x : Xlat} (hfree : Config.freeBit s.free = false)
    (h : (s.translate places c acc va).1.1 = .ok x) : x.phys.loc % 8 = va.toNat % 8 := by
  rcases State.translate_fresh (c := c) (acc := acc) places va hfree with hfresh | hsame
  · rw [hfresh] at h
    exact State.walkVia_mod h
  · rw [h] at hsame
    cases hfresh : (s.walkVia Caches.none c acc va).1 with
    | error f => simp [hfresh, sameXlat] at hsame
    | ok y =>
      simp only [hfresh, sameXlat, decide_eq_true_eq] at hsame
      rw [← hsame.1]
      exact State.walkVia_mod hfresh

theorem State.resolve_translates {places : List TlbPlace} {va : W64} {x : Xlat} {u : State}
    (h : s.resolve places c acc va = (.ok x, u)) : (s.translate places c acc va).1.1 = .ok x := by
  have hx := congrArg Prod.fst h
  unfold State.resolve at hx
  dsimp only at hx
  split at hx
  · next y hy =>
    rw [hy]
    split at hx
    · cases hx
    · generalize (if (s.translate places c acc va).2 = true then s.bump else s) = v at hx
      split_ifs at hx
      · exact hx
      · exact hx
  · cases hx

theorem State.got_mod {va : W64} {n : Nat} {p : Phys} {u : State} (hfree : ∀ k, Config.freeBit k = false)
    (h : s.got acc va n = some (p, u)) : va.toNat % n = 0 ∧ p.loc % 8 = va.toNat % 8 := by
  unfold State.got at h
  split at h
  case isFalse => cases h
  case isTrue halign =>
    refine ⟨halign.1, ?_⟩
    split at h
    case h_2 => cases h
    case h_1 q w hplaced =>
      split at h
      case isFalse => cases h
      case isTrue =>
        cases h
        unfold State.placed at hplaced
        split at hplaced
        case h_1 => cases hplaced
        case h_2 =>
          split at hplaced
          case h_2 => cases hplaced
          case h_1 x w hresolve =>
            cases hplaced
            exact State.translate_mod (hfree _) (State.resolve_translates hresolve)

end Places

/-! ### The frames -/

theorem length_leBytes (n x : Nat) : (leBytes n x).length = n := by
  induction n generalizing x with
  | zero => rfl
  | succ n ih => rw [leBytes, List.length_cons, ih]

/-- Where no stale entry is ever used the frames hold. -/
theorem scalarFrames_of_fresh (hfree : ∀ k, Config.freeBit k = false) : Obligations.ScalarFrames := by
  refine ⟨fun s t d a b imm k m i hs hv hi ht => ?result, fun s t a b o i hs hv hi ht => ?branch,
    fun s t u d a o p c hw hv hth hc hgot hclean ht => ?load,
    fun s t u d a o p c hu hv hth hc htrains hgot hroom ht => ?store, ?amo,
    fun s t d c i hs hv hok hi ht => ?read, fun s t d a c e hs hv hbuf he hmay ht => ?write⟩
  case result =>
    obtain ⟨x, hx⟩ := arithmetic_result (s := s) hi
    exact State.plain_retires_wr hs hv (hx.symm.trans ht)
  case branch =>
    obtain ⟨taken, htaken⟩ := branch_retires (s := s) hi
    exact branch_frame hs hv htaken ht
  case load =>
    obtain ⟨x, hx⟩ := load_result hc hgot hclean
    exact load_frame hw hv hth (hx.symm.trans ht)
  case store =>
    obtain ⟨rel, hrel⟩ := store_result hc htrains hgot hroom
    have hframe := store_frame hu hv hth (hrel.symm.trans ht)
    rwa [length_leBytes] at hframe
  case amo =>
    intro s t u r v p d a b ord w op n hv hvec hth hgot hwalk htwin hdrain htrains hclaimed hclaim hclean hheld hroom ht
    have hrun := farAtomics s u r v p d a b ord w op hgot hwalk htwin hdrain htrains hclaimed hclean hheld hroom
    obtain ⟨halign, hmod⟩ := State.got_mod hfree hgot
    have hn : n = 4 ∨ n = 8 := by
      unfold n
      split
      · exact .inl rfl
      · exact .inr rfl
    have hagain : v.claim p.loc p.kid = v := by
      rw [hclaimed] at hclean ⊢
      exact State.claim_of_foreign (State.foreign_claim (by omega) hclean)
    have hne : ∀ x, leBytes n x ≠ [] := fun x hx => by
      have hlen := length_leBytes n x
      rw [hx, List.length_nil] at hlen
      omega
    have hline : ∀ x, p.loc % 128 + (leBytes n x).length ≤ 128 := fun x => by
      rw [length_leBytes]
      rcases hn with hn | hn
      · rw [hn] at halign ⊢
        omega
      · rw [hn] at halign ⊢
        omega
    rw [hagain] at hrun
    have hframe := amo_frame hv hvec (State.slotApart_of_eq hth) (hne _) (hline _) hclaim (hrun.symm.trans ht)
    rwa [length_leBytes] at hframe
  case read =>
    obtain ⟨hread, -⟩ := csrs.1 s d 0 c
    obtain ⟨hcsrr, hcsrs, hcsrc⟩ := hread hok
    simp only [List.mem_cons, List.not_mem_nil, or_false] at hi
    rcases hi with rfl | rfl | rfl
    · exact State.plain_retires_wr hs hv (hcsrr.symm.trans ht)
    · exact State.plain_retires_wr hs hv (hcsrs.symm.trans ht)
    · exact State.plain_retires_wr hs hv (hcsrc.symm.trans ht)
  case write => exact csrWrite_frame hs hv hbuf ((csr_writes he hmay).symm.trans ht)

end Sys2Proof.Machine
end

section
/-!
PROOF. A stale translation under which an AMO changes bytes beside its word: where a free choice lets a TLB entry answer
whose base is not the base of a page (R45), the word straddles two lines, and the second one is fetched again (R29).
-/

namespace Sys2Proof.Machine

open Sys2Proof

/-! ### The state -/

/-- A TLB entry for address 0 whose base is not the base of a page. -/
def offPageEntry : TlbEntry :=
  { vf := 0, asid := 0, global := true, page := 0, logSize := 18, gpa := 124, gfn := 0, st2 := 7, perm := 7, um := true,
    dirty := true }

/-- A partition of one channel and one slice. -/
def oneSlice : Part :=
  { Part.reset with exists_ := true, table := { base := 0, channels := [0], slices := [0], tiles := [0], jobCap := 1 } }

/-- The entry is in the scalar TLB, and the slice holds line 1, in which one byte is not zero, under key 7. -/
def straddling (k : Nat) : State :=
  { State.reset with
    free := k
    parts := [(0, oneSlice)]
    hub := { Hub.reset with bootDone := true }
    mem := { Mem.reset with
      cells := [(132, 1)]
      tlbs := [(.scalar 0, offPageEntry)]
      l2 := [(1, [{ way := 0, line := 1, kid := 7, dirty := false, age := 0 }])] } }

/-- What the entry answers: the last bytes of line 0 and the first of line 1. -/
def straddle : Phys := { loc := 124, kid := 0, owner := false }

/-! ### The stale entry answers (R45) -/

/-- A fresh walk faults: no stage-2 entry is valid. -/
theorem straddling_walk (k : Nat) (acc : Access) : (straddling k).walkVia Caches.none (straddling k).ctx acc 0 =
    (.error (.page true 0 false 0), []) := by
  have hread : (straddling k).readEntry Caches.none 0 0 0 = .error (.page true 0 false 0) := by
    simp [State.readEntry, State.st2Via, Caches.none, State.st2Entry, straddling, Mem.reset, tget]
  have hvf : (straddling k).ctx.vf.toNat = 0 := rfl
  have hroot : (straddling k).ctx.root.toNat = 0 := rfl
  have hfrom : (straddling k).walkFrom Caches.none (straddling k).ctx acc 0 4 1 0 [] =
      (.error (.page true 0 false 0), []) := by
    simp [State.walkFrom, hvf, bitsAt, hread]
  simp [State.walkVia, canonical, windowEnd, ownWindow, hroot, hfrom, State.afterRefusals]

theorem straddling_load (k : Nat) : (straddling k).walk (straddling k).ctx .load 0 ≠ .error .perm := by
  unfold State.walk
  rw [straddling_walk]
  exact fun h => by cases h

theorem straddling_answer (k : Nat) :
    (straddling k).tlbAnswer offPageEntry (straddling k).ctx .store 0 =
      .ok { phys := straddle, pte := none, entry := none, reads := [] } := by
  have hplace : (straddling k).st2Phys offPageEntry.st2 (offPageEntry.gpa + 0 % 2 ^ offPageEntry.logSize) = straddle := by
    have hkid : (straddling k).windowKid 0 = false := rfl
    simp [State.st2Phys, State.st2Loc, offPageEntry, straddle, st2Frame, st2Home, st2Kid, hkid]
  have hperm : permits offPageEntry.perm.toNat 0 .store = true := by decide
  have hbarred : (straddling k).barred offPageEntry.st2 straddle .store = false := rfl
  have hreach : (straddling k).unreachable straddle.loc .store = false := rfl
  unfold State.tlbAnswer
  rw [hplace]
  simp [hperm, hbarred, hreach, show offPageEntry.um = true from rfl]

theorem straddling_translate {k : Nat} (h : Config.freeBit k = true) :
    (straddling k).translate (straddling k).scalarPlaces (straddling k).ctx .store 0 =
      ((.ok { phys := straddle, pte := none, entry := none, reads := [] }, []), true) := by
  have hfind : (straddling k).mem.tlbs.find? (fun e => (straddling k).scalarPlaces.contains e.1 &&
      e.2.serves (straddling k).ctx .store 0) = some (.scalar 0, offPageEntry) := by
    have hplaces : TlbPlace.scalar 0 ∈ (straddling k).scalarPlaces := by
      rw [State.scalarPlaces, show (straddling k).curVc = 0 from Nat.zero_div 4]
      exact List.mem_cons_self
    have hserves : offPageEntry.serves (straddling k).ctx .store 0 = true := rfl
    show List.find? _ [(TlbPlace.scalar 0, offPageEntry)] = _
    simp [hplaces, hserves]
  have hva : (0 : W64).toNat % 2 ^ 60 = 0 := by decide
  unfold State.translate
  rw [straddling_walk, hva, hfind]
  have hfree : Config.freeBit (straddling k).free = true := h
  simp only [hfree, if_true]
  rw [straddling_answer]
  rfl

theorem straddling_got {k : Nat} (h : Config.freeBit k = true) :
    (straddling k).got .store 0 8 = some (straddle, (straddling k).bump) := by
  have ht := straddling_translate h
  have hready : (straddling k).ready (straddling k).scalarPlaces .store 0 = some (straddling k) := by
    unfold State.ready
    rw [ht]
    rfl
  have hres : (straddling k).resolve (straddling k).scalarPlaces (straddling k).ctx .store 0 =
      (.ok { phys := straddle, pte := none, entry := none, reads := [] }, (straddling k).bump) := by
    unfold State.resolve
    rw [ht]
    rfl
  have hplaced : (straddling k).placed .store 0 = some (straddle, (straddling k).bump) := by
    unfold State.placed
    rw [hready]
    dsimp only
    rw [hres]
  unfold State.got
  rw [if_pos (by exact ⟨rfl, rfl⟩), hplaced]
  rfl

/-! ### The second line is fetched again (R29) -/

/-- The state in which the word is replaced. -/
theorem straddling_claim (k : Nat) : (straddling k).bump.drainAll.claim 124 0 = (straddling k).bump := by
  have hdrain : (straddling k).bump.drainAll = (straddling k).bump := rfl
  have hset : (straddling k).bump.l2Set 124 = some (oneSlice, 0) := rfl
  rw [hdrain]
  unfold State.claim
  rw [hset]
  rfl

theorem straddling_l2Set (k : Nat) : (straddling k).bump.l2Set 128 = some (oneSlice, 1) := by
  have hpart : (straddling k).bump.partOfPa 128 = some (0, oneSlice) := by
    have hbytes : (straddling k).bump.partBytes oneSlice =
        oneSlice.table.channels.length * (straddling k).bump.hub.fit.channelBytes := if_pos rfl
    have hfit : (straddling k).bump.hub.fit = .gib512 := rfl
    show List.find? _ [(0, oneSlice)] = _
    rw [List.find?_cons_of_pos]
    rw [hbytes, hfit]
    simp [oneSlice, Part.reset, Fit.channelBytes]
  have hdevice : ((straddling k).bump.hub.bootDone && isDevice 128) = true := by
    rw [show (straddling k).bump.hub.bootDone = true from rfl]
    decide
  unfold State.l2Set
  rw [if_pos hdevice, hpart]
  rfl

/-- Zeros written leave a zero where there was one, and at each of their places. -/
theorem foldl_tset_zero (loc j : Nat) : ∀ (l : List (Nat × Byte)) (t : Table Byte), (∀ x ∈ l, x.2 = 0) →
    (tget 0 t j = 0 ∨ ∃ x ∈ l, loc + x.1 = j) → tget 0 (l.foldl (fun t x => tset 0 t (loc + x.1) x.2) t) j = 0
  | [], _, _, h => h.resolve_right (by simp)
  | x :: l, t, hl, h => by
    refine foldl_tset_zero loc j l _ (fun y hy => hl y (List.mem_cons_of_mem _ hy)) ?_
    rw [tget_tset]
    by_cases hx : j = loc + x.1
    · exact .inl ((if_pos hx).trans (hl x List.mem_cons_self))
    · rw [if_neg hx]
      refine h.imp_right ?_
      rintro ⟨y, hy, rfl⟩
      rcases List.mem_cons.mp hy with rfl | hy
      · exact absurd rfl hx
      · exact ⟨y, hy, rfl⟩

theorem bytesOf_zero {m i n : Nat} : ∀ b ∈ bytesOf 0#m i n, b = 0 := by
  simp [bytesOf]

theorem length_bytesOf {m i n : Nat} (x : BitVec m) : (bytesOf x i n).length = n := by
  simp [bytesOf]

/-- A line of groups that were never written back reads as zeros when it is fetched. -/
theorem State.refetch_fresh (s : State) (line kid : Nat) (h : s.mem.ctr = []) :
    ∃ cells pending, s.refetch line kid = { s with mem := { s.mem with cells := cells, pending := pending } } ∧
      ∀ j, j / 128 = line → tget 0 cells j = 0 := by
  have hcounters : ∀ pa, s.mem.counters pa = Counters.reset := fun pa => by
    rw [Mem.counters, h]
    rfl
  have hminor : ∀ i, minorOf Counters.reset i = 0 := fun i => by simp [minorOf, Counters.reset]
  have hgood : ∀ pa, s.mem.macGood kid pa = true := fun pa => by simp [Mem.macGood, hcounters, hminor]
  have hplain : ∀ pa, s.mem.plainLine kid pa = 0#512 := fun pa => by simp [Mem.plainLine, hcounters, hminor]
  have hboth : (s.mem.macGood kid (line * 128) && s.mem.macGood kid (line * 128 + 64)) = true := by
    rw [hgood, hgood]
    rfl
  have hzero : ∀ pa, ∀ b ∈ bytesOf (s.mem.plainLine kid pa) 0 64, b = 0 := fun pa => hplain pa ▸ bytesOf_zero
  unfold State.refetch
  dsimp only
  rw [if_pos hboth]
  refine ⟨_, _, rfl, fun j hj => ?_⟩
  refine foldl_tset_zero (line * 128) j _ s.mem.cells (fun x hx => ?_) (.inr ⟨(j % 128, 0), ?_, ?_⟩)
  · have hmem := List.mem_append.mp (List.of_mem_zip hx).2
    exact hmem.elim (hzero _ _) (hzero _ _)
  · refine List.mem_iff_getElem.mpr ⟨j % 128, ?_, ?_⟩
    · simp [length_bytesOf]
      omega
    · rw [List.getElem_zip]
      refine Prod.ext (List.getElem_range ..) ?_
      exact (List.mem_append.mp (List.getElem_mem _)).elim (hzero _ _) (hzero _ _)
  · show line * 128 + j % 128 = j
    omega


/-- A miss in an empty set of a slice changes memory alone, and of the sets that one. -/
theorem State.l2Access_miss {z : State} {loc kid a key : Nat} {p : Part} {write : Bool}
    (hset : z.l2Set loc = some (p, key)) (hempty : tget [] z.mem.l2 key = []) :
    ∃ m : Mem, z.l2Access loc kid (.age a) write = { z with mem := m } ∧ m.cells = z.mem.cells ∧
      ∀ j, j ≠ key → tget [] m.l2 j = tget [] z.mem.l2 j := by
  have hforeign : z.foreign loc kid = false := by
    rw [State.foreign_of_set hset, hempty]
    rfl
  unfold State.l2Access
  rw [hset]
  dsimp only
  rw [State.claim_of_foreign hforeign, hempty]
  unfold State.l2Fill
  rw [show tget [] (z.metaFetch p loc).mem.l2 key = [] from hempty]
  refine ⟨_, rfl, rfl, fun j hj => ?_⟩
  have hway : ∀ ways : List L2Way, tget [] (tset [] z.mem.l2 key ways) j = tget [] z.mem.l2 j := fun ways =>
    tget_tset_other [] z.mem.l2 key j ways hj
  exact hway (putWay [] { way := freeWay [], line := loc / 128, kid := kid, dirty := write, age := a })

/-- Line 1, fetched again under the entry's key, loses its byte, and no other line is held. -/
theorem straddling_second (k : Nat) : ∃ m : Mem, (straddling k).bump.claim 128 0 = { (straddling k).bump with mem := m } ∧
    m.l2 = [] ∧ tget 0 m.cells 132 = 0 := by
  have hforeign : (straddling k).bump.foreign 128 0 = true := by
    rw [State.foreign_of_set (straddling_l2Set k)]
    rfl
  rw [State.claim_foreign (straddling_l2Set k) hforeign]
  obtain ⟨cells, pending, hrefetch, hzero⟩ := State.refetch_fresh ((straddling k).bump.modMem (fun m => { m with
    l2 := tset [] m.l2 1 ((tget [] (straddling k).bump.mem.l2 1).filter (fun w => w.line != 128 / 128)) })) (128 / 128) 0 rfl
  exact ⟨_, hrefetch, rfl, hzero 132 rfl⟩

/-! ### The word -/

theorem linesOf_straddle (x : Nat) : linesOf (writesOf 124 (leBytes 8 x)) = [0, 1] := by
  unfold linesOf
  rw [writesOf_eq, List.map_map, length_leBytes]
  show ((List.range 8).map (fun k => (124 + k) / 128)).eraseDups = [0, 1]
  decide

/-- The word written takes the byte behind it along. -/
theorem straddling_store (k x : Nat) :
    let z := (straddling k).bump.storeHome 0 none (fun _ => .age 0) (writesOf 124 (leBytes 8 x))
    z.homeByte 132 = 0 ∧ z.th = (straddling k).th ∧ z.cv = (straddling k).cv := by
  intro z
  obtain ⟨m, hsecond, hl2, hbyte⟩ := straddling_second k
  have hfirst : (straddling k).bump.claim 0 0 = (straddling k).bump := rfl
  have hz : z = (({ (straddling k).bump with mem := m } : State).pokeBytes 0 none (writesOf 124 (leBytes 8 x))).touch
      [0, 1] 0 (fun _ => .age 0) true := by
    unfold z State.storeHome
    rw [linesOf_straddle]
    dsimp only [List.foldl]
    rw [hfirst, hsecond]
  have hkeeps : ∀ {α : Type} (g : State → α), (∀ u n f, g (State.modVc u n f) = g u) →
      (∀ (u : State) p c, g (u.modMem (fun m => { m with pending := p, cells := c })) = g u) →
      (∀ (u : State) q, g (u.modMem (fun m => { m with poison := q })) = g u) →
      g (({ (straddling k).bump with mem := m } : State).pokeBytes 0 none (writesOf 124 (leBytes 8 x))) =
        g { (straddling k).bump with mem := m } := fun g hvc hmem hpoison => pokeBytes_keeps g hvc hmem hpoison _ _
  have hset0 := hkeeps (·.l2Set (0 * 128)) (fun _ _ _ => rfl) (fun _ _ _ => rfl) (fun _ _ => rfl)
  have hset1 := hkeeps (·.l2Set (1 * 128)) (fun _ _ _ => rfl) (fun _ _ _ => rfl) (fun _ _ => rfl)
  have hl2' := hkeeps (·.mem.l2) (fun _ _ _ => rfl) (fun _ _ _ => rfl) (fun _ _ => rfl)
  have hth := hkeeps (·.th) (fun _ _ _ => rfl) (fun _ _ _ => rfl) (fun _ _ => rfl)
  have hcv := hkeeps (·.cv) (fun _ _ _ => rfl) (fun _ _ _ => rfl) (fun _ _ => rfl)
  have hother := homeByte_pokeBytes_other { (straddling k).bump with mem := m } 0 132 none
    (writesOf 124 (leBytes 8 x)) (writesOf_outside (.inr (by rw [length_leBytes])))
  generalize ({ (straddling k).bump with mem := m } : State).pokeBytes 0 none (writesOf 124 (leBytes 8 x)) = y
    at hz hset0 hset1 hl2' hth hcv hother
  have hempty : ∀ j, tget [] y.mem.l2 j = [] := fun j => by
    rw [show y.mem.l2 = [] from hl2'.trans hl2]
    rfl
  have hset0 : y.l2Set (0 * 128) = some (oneSlice, 0) := hset0
  have hset1 : y.l2Set (1 * 128) = some (oneSlice, 1) := hset1.trans (straddling_l2Set k)
  obtain ⟨m0, hmiss0, hcells0, hothers⟩ := State.l2Access_miss (kid := 0) (a := 0) (write := true) hset0 (hempty 0)
  obtain ⟨m1, hmiss1, hcells1, -⟩ := State.l2Access_miss (z := { y with mem := m0 }) (kid := 0) (a := 0) (write := true)
    hset1 ((hothers 1 (by decide)).trans (hempty 1))
  have hcount : ∀ (u : State) (l : Nat), isHost l = false → u.countHost l = u := fun u l hl =>
    if_neg (ne_true_of_eq_false hl)
  have htouch : z = { y with mem := m1 } := by
    rw [hz]
    unfold State.touch
    dsimp only [List.foldl]
    rw [hmiss0, hcount _ (0 * 128) (by decide), hmiss1, hcount _ (1 * 128) (by decide)]
  rw [htouch]
  refine ⟨?_, hth, hcv⟩
  show tget 0 m1.cells 132 = 0
  rw [hcells1, hcells0]
  exact hother.trans hbyte

/-- How AMO ends there. -/
theorem straddling_amo {k : Nat} (h : Config.freeBit k = true) : ∃ (z : State) (x : W64),
    exec (.amo 1 0 0 0 1 0) (straddling k) = (z.wr 1 x).retires ∧ z.homeByte 132 = 0 ∧ z.th = (straddling k).th ∧
      z.cv = (straddling k).cv := by
  have hagain : (straddling k).bump.claim straddle.loc straddle.kid = (straddling k).bump := straddling_claim k
  have hrun := farAtomics (straddling k) (straddling k).bump (straddling k).bump (straddling k).bump straddle 1 0 0 0 1 0
    (straddling_got h) (straddling_load k) (.inl ⟨rfl, rfl⟩) rfl (.inl (by decide)) (straddling_claim k).symm rfl rfl rfl
  rw [hagain] at hrun
  exact ⟨_, _, hrun, straddling_store k _⟩

/-! ### The frame that fails -/

/-- Where a stale entry is ever used, AMO's frame fails. -/
theorem not_scalarFrames_of_stale {k : Nat} (h : Config.freeBit k = true) : ¬ Obligations.ScalarFrames := by
  rintro ⟨-, -, -, -, hamo, -⟩
  have hagain : (straddling k).bump.claim straddle.loc straddle.kid = (straddling k).bump := straddling_claim k
  obtain ⟨z, x, hrun, hbyte, hth, hcv⟩ := straddling_amo h
  have hframe := hamo (straddling k) (z.wr 1 x).finish (straddling k).bump (straddling k).bump (straddling k).bump
    straddle 1 0 0 0 1 0 rfl rfl rfl (straddling_got h) (straddling_load k) (.inl ⟨rfl, rfl⟩) rfl (.inl (by decide))
    (straddling_claim k).symm hagain rfl rfl rfl hrun
  obtain ⟨-, -, -, -, -, -, -, hbytes⟩ := hframe
  have hread := hbytes false 132 (.inr (by decide))
  have hplain : z.plain = true := by
    unfold State.plain
    rw [hcv, hth]
    rfl
  obtain ⟨-, -, -, -, -, -, -, hmem, hhw, -⟩ := State.plain_retires_wr (t := (z.wr 1 x).finish) hplain
    (congrArg Convoy.vector hcv) rfl
  have hnew : (z.wr 1 x).finish.readByte false 132 = 0 := by
    unfold State.readByte
    rw [hhw, hth]
    exact (congrArg (fun m : Mem => tget 0 m.cells 132) hmem).trans hbyte
  have hold : (straddling k).bump.readByte false 132 = 1 := rfl
  rw [hnew, hold] at hread
  exact absurd hread (by decide)

/-- What O54 says holds exactly where the free choice of R45 never takes a stale entry. The model fixes no value of that
choice (`Config.freeBit` is opaque), so neither O54 nor its negation follows from it. -/
theorem scalarFrames_iff_fresh : Obligations.ScalarFrames ↔ ∀ k, Config.freeBit k = false :=
  ⟨fun h _ => Bool.eq_false_of_not_eq_true fun hk => not_scalarFrames_of_stale hk h, scalarFrames_of_fresh⟩

end Sys2Proof.Machine
end
